-- ==== Sys2Proof/Word.lean ====
section
/-! DEFINITION. The word types of the VX3-416 (R11, R16, R184): bytes, register words, instruction words and
Marver registers, with the module's unit numbers (R10). -/

namespace Sys2Proof

/-- One byte. -/
abbrev Byte := BitVec 8

/-- One 32-bit register word (R16). -/
abbrev Word := BitVec 32

/-- One 64-bit instruction word or queue entry word (R187). -/
abbrev DWord := BitVec 64

/-- One Marver register, 2,048 bits (R184). -/
abbrev VReg := BitVec 2048

/-- A compute die D0-D3 (R10). -/
abbrev DieId := Fin 4

/-- A logical core of one die, 8 x row + column (R45). -/
abbrev LCore := Fin 64

/-- A stack S0-S15 (R10). -/
abbrev StackId := Fin 16

/-- A gather index of a die (R59). -/
abbrev GatherId := Fin 64

/-- A module global address, 52 bits (R45). -/
abbrev Mga := BitVec 52

/-- A logical core of the module. -/
structure CoreId where
  die : DieId
  lc : LCore
deriving DecidableEq, Repr

/-- A gather of the module: its die and its index (R59). -/
structure Gather where
  die : DieId
  idx : GatherId
deriving DecidableEq, Repr

/-- A physical position P[row,col] of a die (R28). -/
structure Pos where
  die : DieId
  row : Fin 8
  col : Fin 10
deriving DecidableEq, Repr

/-- A cane port of a die, in the order CH, CA0, CA1, CB0, CB1, CM0-CM3 (R23, R67), or a port of the hub:
HC0-HC3, SP0-SP7 (R10), or the port of a stack's base die. -/
inductive PortId where
  | die (d : DieId) (p : Fin 9)
  | hub (p : Fin 4)
  | span (p : Fin 8)
  | stack (k : Fin 16)
deriving DecidableEq, Repr

end Sys2Proof
end

