-- ==== Sys2Proof/Machine/Map.lean ====
section
/-! DEFINITION. Sparse maps as plain data: lists of key and value in one canonical form (keys strictly rising, no
entry equal to what an unlisted key reads as), and the bit-field helpers every later file uses. -/

namespace Sys2Proof.Machine

/-- A sparse map: what an unlisted key reads as is given at each read. -/
abbrev SMap (α : Type) := List (Nat × α)

/-- The value of a key, `d` where it is not listed. -/
def smGet {α : Type} (d : α) : SMap α → Nat → α
  | [], _ => d
  | (k, v) :: r, a => if a = k then v else smGet d r a

/-- Lists a key with a value at its place among rising keys. -/
def smIns {α : Type} : SMap α → Nat → α → SMap α
  | [], a, v => [(a, v)]
  | (k, w) :: r, a, v =>
    if a < k then (a, v) :: (k, w) :: r
    else if a = k then (a, v) :: r
    else (k, w) :: smIns r a v

/-- Sets a key, keeping keys rising and listing no value equal to `d`. -/
def smSet {α : Type} [DecidableEq α] (d : α) (m : SMap α) (a : Nat) (v : α) : SMap α :=
  if v = d then m.filter fun p => p.1 ≠ a else smIns m a v

/-- The canonical form of a sparse map whose unlisted keys read as `d`. -/
def smWf {α : Type} [DecidableEq α] (d : α) : SMap α → Bool
  | [] => true
  | [(_, v)] => v ≠ d
  | (k, v) :: (k', v') :: r => decide (v ≠ d) && decide (k < k') && smWf d ((k', v') :: r)

/-- One number for two, different for different pairs: the key of an instance of a field. -/
def natPair (a b : Nat) : Nat := (a + b) * (a + b) + b

/-- Bits [lo+w-1:lo] of a number. -/
def bits (v lo w : Nat) : Nat := v / 2 ^ lo % 2 ^ w

/-- One bit of a number. -/
def bit (v i : Nat) : Bool := v / 2 ^ i % 2 == 1

/-- The number of a bit. -/
def b2n (b : Bool) : Nat := if b then 1 else 0

/-- `v` with bits [lo+w-1:lo] replaced by the low bits of `x`. -/
def setBits (v lo w x : Nat) : Nat :=
  v / 2 ^ (lo + w) * 2 ^ (lo + w) + (x % 2 ^ w) * 2 ^ lo + v % 2 ^ lo

/-- Addition that stops at `2^w - 1`, for the counters the spec says saturate. -/
def satAdd (w a b : Nat) : Nat := min (a + b) (2 ^ w - 1)

/-- `v` clamped to the range `lo` to `hi` (R18). -/
def clampNat (lo hi v : Nat) : Nat := max lo (min hi v)

/-- Little-endian bytes of a number (R16, R118). -/
def leBytes : Nat → Nat → List Byte
  | 0, _ => []
  | n + 1, v => BitVec.ofNat 8 v :: leBytes n (v / 256)

/-- The number of little-endian bytes. -/
def ofLeBytes : List Byte → Nat
  | [] => 0
  | b :: r => b.toNat + 256 * ofLeBytes r

/-- Splits a list into pieces of `n` (fuel: the list's length). -/
def chunks {α : Type} (n : Nat) : Nat → List α → List (List α)
  | 0, _ => []
  | k + 1, l => if l.isEmpty then [] else l.take n :: chunks n k (l.drop n)

/-- The signed value of a 32-bit number. -/
def sgn (w v : Nat) : Int := if v % 2 ^ w < 2 ^ (w - 1) then (v % 2 ^ w : Nat) else (v % 2 ^ w : Nat) - (2 ^ w : Nat)

/-- The two's-complement code of an integer in `w` bits. -/
def unsgn (w : Nat) (i : Int) : Nat := (i % (2 ^ w : Nat)).toNat

end Sys2Proof.Machine
end

