-- ==== Sys2Proof/Machine/RegMap.lean ====
section
/-! DEFINITION. The register map: one constant per field of the spec's register tables, in the order of the chapters.
A field says where it lies (space, offset, strides), its bits, access type, reset value, range and who may write it. -/

namespace Sys2Proof.Machine

/-- The CSR space a field lies in (R45): core CSR (unit 64 x die + logical core), die CSR (unit the die), hub CSR
(unit 0). Stack registers lie in die CSR space (R433, R434). -/
inductive Space where
  | core | die | hub
deriving DecidableEq, Repr

/-- Access types (R13); `cnt` is a counter that a write of 0 clears and any other write leaves, `cntw` one that only
a write of 0 to the whole word clears. -/
inductive Acc where
  | ro | rw | rwf | rws | wo | w1c | w1s | cnt | cntw
deriving DecidableEq, Repr

/-- The requesters some rules reserve a field's writing to (R38, R60, R218, R260, R389, R492, R555, R579, R623). -/
inductive Who where
  | any | fw | punty | lehr | host | hostfw | corefw | mgmt
deriving DecidableEq, Repr

/-- One register field: its number, space, offset of instance (0, 0), the stride and count of each index, its lowest
bit and width, access type, reset value (per first index where `rsts` is not empty), writers, range (R18), whether
the range exempts 0, and whether it is of class STEP (R378). -/
structure Field where
  id : Nat
  space : Space
  base : Nat
  s1 : Nat := 0
  n1 : Nat := 1
  s2 : Nat := 0
  n2 : Nat := 1
  lo : Nat
  w : Nat
  acc : Acc
  rst : Nat := 0
  rsts : List Nat := []
  unitRst : Bool := false
  who : Who := .any
  range : Option (Nat × Nat) := none
  zeroOff : Bool := false
  step : Bool := false
deriving DecidableEq, Repr

namespace Reg

/-- R37: FT_ROWMAP.FENCED. -/
def FT_ROWMAP_FENCED : Field :=
  { id := 0, space := .die, base := 0x100, s1 := 4, n1 := 8, lo := 0, w := 10, acc := .ro }
/-- R37: FT_ROWMAP.HEALTHY. -/
def FT_ROWMAP_HEALTHY : Field :=
  { id := 1, space := .die, base := 0x100, s1 := 4, n1 := 8, lo := 10, w := 4, acc := .ro, rst := 10 }
/-- R37: FT_ROWMAP.SHORT. -/
def FT_ROWMAP_SHORT : Field :=
  { id := 2, space := .die, base := 0x100, s1 := 4, n1 := 8, lo := 14, w := 1, acc := .ro }
/-- R37: FT_ROWMAP.PENDING. -/
def FT_ROWMAP_PENDING : Field :=
  { id := 3, space := .die, base := 0x100, s1 := 4, n1 := 8, lo := 15, w := 1, acc := .ro }
/-- R37: FT_ROWMAP.FENCE_REQ. -/
def FT_ROWMAP_FENCE_REQ : Field :=
  { id := 4, space := .die, base := 0x100, s1 := 4, n1 := 8, lo := 16, w := 10, acc := .w1s, who := .punty }
/-- R44: BT_IDENT.SITE. -/
def BT_IDENT_SITE : Field :=
  { id := 5, space := .die, base := 0x0, lo := 0, w := 3, acc := .ro, unitRst := true }
/-- R44: BT_IDENT.SITE_OK. -/
def BT_IDENT_SITE_OK : Field :=
  { id := 6, space := .die, base := 0x0, lo := 3, w := 1, acc := .ro }
/-- R44: BT_IDENT.SLOT. -/
def BT_IDENT_SLOT : Field :=
  { id := 7, space := .die, base := 0x0, lo := 4, w := 4, acc := .ro }
/-- R44: BT_IDENT.PRESENT. -/
def BT_IDENT_PRESENT : Field :=
  { id := 8, space := .die, base := 0x0, lo := 16, w := 7, acc := .ro, rst := 64 }
/-- R44: BT_IDENT.DEGRADED. -/
def BT_IDENT_DEGRADED : Field :=
  { id := 9, space := .die, base := 0x0, lo := 23, w := 1, acc := .ro }
/-- R59: LH_GACLK.CEIL. -/
def LH_GACLK_CEIL : Field :=
  { id := 10, space := .die, base := 0x2000, s1 := 4, n1 := 64, lo := 0, w := 2, acc := .rwf }
/-- R59: LH_GACLK.FLOOR. -/
def LH_GACLK_FLOOR : Field :=
  { id := 11, space := .die, base := 0x2000, s1 := 4, n1 := 64, lo := 2, w := 2, acc := .rwf }
/-- R59: LH_GACLK.APPLIED. -/
def LH_GACLK_APPLIED : Field :=
  { id := 12, space := .die, base := 0x2000, s1 := 4, n1 := 64, lo := 4, w := 2, acc := .ro }
/-- R59: LH_GACLK.REQ. -/
def LH_GACLK_REQ : Field :=
  { id := 13, space := .die, base := 0x2000, s1 := 4, n1 := 64, lo := 6, w := 2, acc := .rw, who := .lehr }
/-- R59: LH_GACLK.PENDING. -/
def LH_GACLK_PENDING : Field :=
  { id := 14, space := .die, base := 0x2000, s1 := 4, n1 := 64, lo := 8, w := 1, acc := .ro }
/-- R59: LH_GACLK.STOPPING. -/
def LH_GACLK_STOPPING : Field :=
  { id := 15, space := .die, base := 0x2000, s1 := 4, n1 := 64, lo := 9, w := 1, acc := .ro }
/-- R59: LH_GACLK.CHANGES. -/
def LH_GACLK_CHANGES : Field :=
  { id := 16, space := .die, base := 0x2000, s1 := 4, n1 := 64, lo := 16, w := 16, acc := .ro }
/-- R62: LH_CRZ.MARGIN_A. -/
def LH_CRZ_MARGIN_A : Field :=
  { id := 17, space := .die, base := 0x2100, s1 := 4, n1 := 16, lo := 0, w := 4, acc := .ro, rst := 15 }
/-- R62: LH_CRZ.MARGIN_N. -/
def LH_CRZ_MARGIN_N : Field :=
  { id := 18, space := .die, base := 0x2100, s1 := 4, n1 := 16, lo := 4, w := 4, acc := .ro, rst := 15 }
/-- R62: LH_CRZ.WARN_LVL. -/
def LH_CRZ_WARN_LVL : Field :=
  { id := 19, space := .die, base := 0x2100, s1 := 4, n1 := 16, lo := 8, w := 4, acc := .rw, rst := 4 }
/-- R62: LH_CRZ.CRIT_LVL. -/
def LH_CRZ_CRIT_LVL : Field :=
  { id := 20, space := .die, base := 0x2100, s1 := 4, n1 := 16, lo := 12, w := 4, acc := .rw, rst := 2 }
/-- R62: LH_CRZ.WARN. -/
def LH_CRZ_WARN : Field :=
  { id := 21, space := .die, base := 0x2100, s1 := 4, n1 := 16, lo := 16, w := 1, acc := .w1c }
/-- R62: LH_CRZ.CRIT. -/
def LH_CRZ_CRIT : Field :=
  { id := 22, space := .die, base := 0x2100, s1 := 4, n1 := 16, lo := 17, w := 1, acc := .w1c }
/-- R62: LH_CRZ.COUNT. -/
def LH_CRZ_COUNT : Field :=
  { id := 23, space := .die, base := 0x2100, s1 := 4, n1 := 16, lo := 18, w := 8, acc := .ro }
/-- R67: BT_CLKSTAT.FWD_OK. -/
def BT_CLKSTAT_FWD_OK : Field :=
  { id := 24, space := .die, base := 0x10, lo := 0, w := 1, acc := .ro }
/-- R67: BT_CLKSTAT.RINGOSC. -/
def BT_CLKSTAT_RINGOSC : Field :=
  { id := 25, space := .die, base := 0x10, lo := 1, w := 1, acc := .ro }
/-- R67: BT_CLKSTAT.STOPPED. -/
def BT_CLKSTAT_STOPPED : Field :=
  { id := 26, space := .die, base := 0x10, lo := 2, w := 1, acc := .ro, rst := 1 }
/-- R67: BT_CLKSTAT.ORDERED_STOP. -/
def BT_CLKSTAT_ORDERED_STOP : Field :=
  { id := 27, space := .die, base := 0x10, lo := 3, w := 1, acc := .ro }
/-- R67: BT_CLKSTAT.PORT_CLK_OK. -/
def BT_CLKSTAT_PORT_CLK_OK : Field :=
  { id := 28, space := .die, base := 0x10, lo := 4, w := 9, acc := .ro }
/-- R67: HB_CLKSTAT.REF_OK. -/
def HB_CLKSTAT_REF_OK : Field :=
  { id := 29, space := .hub, base := 0x40, lo := 0, w := 1, acc := .ro }
/-- R67: HB_CLKSTAT.PLL_LOCK. -/
def HB_CLKSTAT_PLL_LOCK : Field :=
  { id := 30, space := .hub, base := 0x40, lo := 1, w := 1, acc := .ro }
/-- R67: HB_CLKSTAT.HOLDOVER. -/
def HB_CLKSTAT_HOLDOVER : Field :=
  { id := 31, space := .hub, base := 0x40, lo := 2, w := 1, acc := .ro }
/-- R67: HB_CLKSTAT.HOLD_EXPIRED. -/
def HB_CLKSTAT_HOLD_EXPIRED : Field :=
  { id := 32, space := .hub, base := 0x40, lo := 3, w := 1, acc := .ro }
/-- R67: HB_CLKSTAT.DIE_CLK_EN. -/
def HB_CLKSTAT_DIE_CLK_EN : Field :=
  { id := 33, space := .hub, base := 0x40, lo := 4, w := 4, acc := .ro }
/-- R67: HB_CLKSTAT.DIE_CLK_LOST. -/
def HB_CLKSTAT_DIE_CLK_LOST : Field :=
  { id := 34, space := .hub, base := 0x40, lo := 8, w := 4, acc := .w1c }
/-- R67: HB_CLKSTAT.NCLK_DIV. -/
def HB_CLKSTAT_NCLK_DIV : Field :=
  { id := 35, space := .hub, base := 0x40, lo := 12, w := 1, acc := .ro }
/-- R67: HB_CLKSTAT.HOLD_SEC. -/
def HB_CLKSTAT_HOLD_SEC : Field :=
  { id := 36, space := .hub, base := 0x40, lo := 16, w := 16, acc := .ro }
/-- R105: CA_FMT.WFMT. -/
def CA_FMT_WFMT : Field :=
  { id := 37, space := .core, base := 0xc00, s1 := 4, n1 := 4, lo := 0, w := 4, acc := .rwf }
/-- R105: CA_FMT.XFMT. -/
def CA_FMT_XFMT : Field :=
  { id := 38, space := .core, base := 0xc00, s1 := 4, n1 := 4, lo := 4, w := 4, acc := .rwf }
/-- R105: CA_FMT.WBLK. -/
def CA_FMT_WBLK : Field :=
  { id := 39, space := .core, base := 0xc00, s1 := 4, n1 := 4, lo := 8, w := 3, acc := .rwf }
/-- R105: CA_FMT.WDIR. -/
def CA_FMT_WDIR : Field :=
  { id := 40, space := .core, base := 0xc00, s1 := 4, n1 := 4, lo := 11, w := 1, acc := .rwf }
/-- R105: CA_FMT.XBLK. -/
def CA_FMT_XBLK : Field :=
  { id := 41, space := .core, base := 0xc00, s1 := 4, n1 := 4, lo := 12, w := 3, acc := .rwf }
/-- R105: CA_FMT.XDIR. -/
def CA_FMT_XDIR : Field :=
  { id := 42, space := .core, base := 0xc00, s1 := 4, n1 := 4, lo := 15, w := 1, acc := .rwf }
/-- R105: CA_FMT.VALID. -/
def CA_FMT_VALID : Field :=
  { id := 43, space := .core, base := 0xc00, s1 := 4, n1 := 4, lo := 16, w := 1, acc := .ro }
/-- R106: CA_PD.XLINE. -/
def CA_PD_XLINE : Field :=
  { id := 44, space := .core, base := 0x1000, s1 := 32, n1 := 8, lo := 0, w := 19, acc := .rw }
/-- R106: CA_PD.XSTRIDE. -/
def CA_PD_XSTRIDE : Field :=
  { id := 45, space := .core, base := 0x1000, s1 := 32, n1 := 8, lo := 19, w := 12, acc := .rw, rst := 2 }
/-- R106: CA_PD.XKEEP. -/
def CA_PD_XKEEP : Field :=
  { id := 46, space := .core, base := 0x1000, s1 := 32, n1 := 8, lo := 31, w := 1, acc := .rw }
/-- R106: CA_PD.XK. -/
def CA_PD_XK : Field :=
  { id := 47, space := .core, base := 0x1004, s1 := 32, n1 := 8, lo := 0, w := 9, acc := .rw, rst := 128 }
/-- R106: CA_PD.XT. -/
def CA_PD_XT : Field :=
  { id := 48, space := .core, base := 0x1004, s1 := 32, n1 := 8, lo := 9, w := 8, acc := .rw, rst := 128 }
/-- R106: CA_PD.XSLINE. -/
def CA_PD_XSLINE : Field :=
  { id := 49, space := .core, base := 0x1008, s1 := 32, n1 := 8, lo := 0, w := 19, acc := .rw }
/-- R106: CA_PD.WLINE. -/
def CA_PD_WLINE : Field :=
  { id := 50, space := .core, base := 0x100c, s1 := 32, n1 := 8, lo := 0, w := 19, acc := .rw }
/-- R106: CA_PD.WSRC. -/
def CA_PD_WSRC : Field :=
  { id := 51, space := .core, base := 0x100c, s1 := 32, n1 := 8, lo := 19, w := 1, acc := .rw }
/-- R106: CA_PD.WSTRIDE. -/
def CA_PD_WSTRIDE : Field :=
  { id := 52, space := .core, base := 0x100c, s1 := 32, n1 := 8, lo := 20, w := 12, acc := .rw, rst := 2 }
/-- R106: CA_PD.WSLINE. -/
def CA_PD_WSLINE : Field :=
  { id := 53, space := .core, base := 0x1010, s1 := 32, n1 := 8, lo := 0, w := 19, acc := .rw }
/-- R106: CA_PD.OLINE. -/
def CA_PD_OLINE : Field :=
  { id := 54, space := .core, base := 0x1014, s1 := 32, n1 := 8, lo := 0, w := 19, acc := .rw }
/-- R106: CA_PD.NCH. -/
def CA_PD_NCH : Field :=
  { id := 55, space := .core, base := 0x1018, s1 := 32, n1 := 8, lo := 0, w := 15, acc := .rw, rst := 4 }
/-- R106: CA_PD.MODE. -/
def CA_PD_MODE : Field :=
  { id := 56, space := .core, base := 0x1018, s1 := 32, n1 := 8, lo := 15, w := 3, acc := .rw }
/-- R106: CA_PD.PRED. -/
def CA_PD_PRED : Field :=
  { id := 57, space := .core, base := 0x1018, s1 := 32, n1 := 8, lo := 18, w := 3, acc := .rw }
/-- R106: CA_PD.OOP. -/
def CA_PD_OOP : Field :=
  { id := 58, space := .core, base := 0x1018, s1 := 32, n1 := 8, lo := 21, w := 2, acc := .rw }
/-- R106: CA_PD.FMTP. -/
def CA_PD_FMTP : Field :=
  { id := 59, space := .core, base := 0x1018, s1 := 32, n1 := 8, lo := 23, w := 2, acc := .rw }
/-- R106: CA_PD.HERITAGE. -/
def CA_PD_HERITAGE : Field :=
  { id := 60, space := .core, base := 0x1018, s1 := 32, n1 := 8, lo := 25, w := 1, acc := .rw }
/-- R106: CA_PD.TSCALE. -/
def CA_PD_TSCALE : Field :=
  { id := 61, space := .core, base := 0x101c, s1 := 32, n1 := 8, lo := 0, w := 32, acc := .rw, rst := 1065353216 }
/-- R107: CA_STAT.WAITING. -/
def CA_STAT_WAITING : Field :=
  { id := 62, space := .core, base := 0xc10, lo := 0, w := 2, acc := .ro }
/-- R107: CA_STAT.STREAMING. -/
def CA_STAT_STREAMING : Field :=
  { id := 63, space := .core, base := 0xc10, lo := 2, w := 1, acc := .ro }
/-- R107: CA_STAT.DRAINING. -/
def CA_STAT_DRAINING : Field :=
  { id := 64, space := .core, base := 0xc10, lo := 3, w := 1, acc := .ro }
/-- R107: CA_STAT.XVALID. -/
def CA_STAT_XVALID : Field :=
  { id := 65, space := .core, base := 0xc10, lo := 4, w := 1, acc := .ro }
/-- R107: CA_STAT.XFMTP. -/
def CA_STAT_XFMTP : Field :=
  { id := 66, space := .core, base := 0xc10, lo := 5, w := 2, acc := .ro }
/-- R107: CA_STAT.GATED. -/
def CA_STAT_GATED : Field :=
  { id := 67, space := .core, base := 0xc10, lo := 7, w := 1, acc := .ro, rst := 1 }
/-- R107: CA_STAT.FLUSHED. -/
def CA_STAT_FLUSHED : Field :=
  { id := 68, space := .core, base := 0xc10, lo := 8, w := 1, acc := .w1c }
/-- R108: CA_FLAGS.OVF. -/
def CA_FLAGS_OVF : Field :=
  { id := 69, space := .core, base := 0xc14, lo := 0, w := 1, acc := .w1c }
/-- R108: CA_FLAGS.NAN. -/
def CA_FLAGS_NAN : Field :=
  { id := 70, space := .core, base := 0xc14, lo := 1, w := 1, acc := .w1c }
/-- R108: CA_FLAGS.SAT. -/
def CA_FLAGS_SAT : Field :=
  { id := 71, space := .core, base := 0xc14, lo := 2, w := 1, acc := .w1c }
/-- R108: CA_FLAGS.UE. -/
def CA_FLAGS_UE : Field :=
  { id := 72, space := .core, base := 0xc14, lo := 3, w := 1, acc := .w1c }
/-- R109: CA_PASSES.COUNT. -/
def CA_PASSES_COUNT : Field :=
  { id := 73, space := .core, base := 0xc18, lo := 0, w := 32, acc := .rw }
/-- R109: CA_ROWCYC.LO. -/
def CA_ROWCYC_LO : Field :=
  { id := 74, space := .core, base := 0xc20, lo := 0, w := 32, acc := .ro }
/-- R109: CA_ROWCYC.HI. -/
def CA_ROWCYC_HI : Field :=
  { id := 75, space := .core, base := 0xc24, lo := 0, w := 32, acc := .ro }
/-- R109: CA_STALLW.COUNT. -/
def CA_STALLW_COUNT : Field :=
  { id := 76, space := .core, base := 0xc28, lo := 0, w := 32, acc := .rw }
/-- R109: CA_STALLP.COUNT. -/
def CA_STALLP_COUNT : Field :=
  { id := 77, space := .core, base := 0xc2c, lo := 0, w := 32, acc := .rw }
/-- R109: CA_STALLL.COUNT. -/
def CA_STALLL_COUNT : Field :=
  { id := 78, space := .core, base := 0xc30, lo := 0, w := 32, acc := .rw }
/-- R142: CV_CFLAGS.OVF. -/
def CV_CFLAGS_OVF : Field :=
  { id := 79, space := .core, base := 0xd00, lo := 0, w := 1, acc := .w1c }
/-- R142: CV_CFLAGS.NAN. -/
def CV_CFLAGS_NAN : Field :=
  { id := 80, space := .core, base := 0xd00, lo := 1, w := 1, acc := .w1c }
/-- R142: CV_CFLAGS.SAT. -/
def CV_CFLAGS_SAT : Field :=
  { id := 81, space := .core, base := 0xd00, lo := 2, w := 1, acc := .w1c }
/-- R142: CV_CFLAGS.CLIP. -/
def CV_CFLAGS_CLIP : Field :=
  { id := 82, space := .core, base := 0xd00, lo := 3, w := 1, acc := .w1c }
/-- R142: CV_CFLAGS.INX. -/
def CV_CFLAGS_INX : Field :=
  { id := 83, space := .core, base := 0xd00, lo := 4, w := 1, acc := .w1c }
/-- R143: CV_CLIPCNT.COUNT. -/
def CV_CLIPCNT_COUNT : Field :=
  { id := 84, space := .core, base := 0xd04, lo := 0, w := 32, acc := .cnt }
/-- R143: CV_SATCNT.COUNT. -/
def CV_SATCNT_COUNT : Field :=
  { id := 85, space := .core, base := 0xd08, lo := 0, w := 32, acc := .cnt }
/-- R157: PZ_WIDE.WP_MASTER. -/
def PZ_WIDE_WP_MASTER : Field :=
  { id := 86, space := .die, base := 0x3000, lo := 0, w := 1, acc := .rwf }
/-- R157: PZ_WIDE.WP_VEC. -/
def PZ_WIDE_WP_VEC : Field :=
  { id := 87, space := .die, base := 0x3000, lo := 1, w := 1, acc := .rwf }
/-- R164: PZ_WATCH.SHADOW_EN. -/
def PZ_WATCH_SHADOW_EN : Field :=
  { id := 88, space := .die, base := 0x3200, s1 := 4, n1 := 64, lo := 0, w := 1, acc := .rw, step := true }
/-- R164: PZ_WATCH.RATE. -/
def PZ_WATCH_RATE : Field :=
  { id := 89, space := .die, base := 0x3200, s1 := 4, n1 := 64, lo := 1, w := 4, acc := .rwf, rst := 6, range := some (4, 10) }
/-- R164: PZ_WATCH.THRESH. -/
def PZ_WATCH_THRESH : Field :=
  { id := 90, space := .die, base := 0x3200, s1 := 4, n1 := 64, lo := 5, w := 5, acc := .rwf, rst := 14, range := some (10, 24) }
/-- R164: CV_SHSAMP.COUNT. -/
def CV_SHSAMP_COUNT : Field :=
  { id := 91, space := .core, base := 0xd10, lo := 0, w := 32, acc := .cnt }
/-- R164: CV_SHSKIP.COUNT. -/
def CV_SHSKIP_COUNT : Field :=
  { id := 92, space := .core, base := 0xd14, lo := 0, w := 32, acc := .cnt }
/-- R164: CV_SHMIS.COUNT. -/
def CV_SHMIS_COUNT : Field :=
  { id := 93, space := .core, base := 0xd18, lo := 0, w := 32, acc := .cnt }
/-- R181: PZ_LADDER.NRUNG. -/
def PZ_LADDER_NRUNG : Field :=
  { id := 94, space := .die, base := 0x3100, s1 := 4, n1 := 64, lo := 0, w := 2, acc := .rwf }
/-- R181: PZ_LADDER.FMT0. -/
def PZ_LADDER_FMT0 : Field :=
  { id := 95, space := .die, base := 0x3100, s1 := 4, n1 := 64, lo := 2, w := 4, acc := .rwf }
/-- R181: PZ_LADDER.FMT1. -/
def PZ_LADDER_FMT1 : Field :=
  { id := 96, space := .die, base := 0x3100, s1 := 4, n1 := 64, lo := 6, w := 4, acc := .rwf }
/-- R181: PZ_LADDER.FMT2. -/
def PZ_LADDER_FMT2 : Field :=
  { id := 97, space := .die, base := 0x3100, s1 := 4, n1 := 64, lo := 10, w := 4, acc := .rwf }
/-- R181: PZ_LADDER.FMT3. -/
def PZ_LADDER_FMT3 : Field :=
  { id := 98, space := .die, base := 0x3100, s1 := 4, n1 := 64, lo := 14, w := 4, acc := .rwf }
/-- R181: PZ_LADDER.RUNAHEAD. -/
def PZ_LADDER_RUNAHEAD : Field :=
  { id := 99, space := .die, base := 0x3100, s1 := 4, n1 := 64, lo := 18, w := 3, acc := .rwf, range := some (0, 4) }
/-- R181: PZ_LADDER.HOLD_STEPS. -/
def PZ_LADDER_HOLD_STEPS : Field :=
  { id := 100, space := .die, base := 0x3100, s1 := 4, n1 := 64, lo := 21, w := 3, acc := .rwf }
/-- R182: SY_SEAL.PHASE_SEQ. -/
def SY_SEAL_PHASE_SEQ : Field :=
  { id := 101, space := .die, base := 0x3300, s1 := 4, n1 := 64, lo := 0, w := 16, acc := .ro }
/-- R182: SY_SEAL.RUNG. -/
def SY_SEAL_RUNG : Field :=
  { id := 102, space := .die, base := 0x3300, s1 := 4, n1 := 64, lo := 16, w := 2, acc := .ro }
/-- R182: SY_SEAL.PROV. -/
def SY_SEAL_PROV : Field :=
  { id := 103, space := .die, base := 0x3300, s1 := 4, n1 := 64, lo := 18, w := 1, acc := .ro }
/-- R182: SY_SEAL.LAST. -/
def SY_SEAL_LAST : Field :=
  { id := 104, space := .die, base := 0x3300, s1 := 4, n1 := 64, lo := 19, w := 1, acc := .ro }
/-- R182: SY_SEAL.CAUSE. -/
def SY_SEAL_CAUSE : Field :=
  { id := 105, space := .die, base := 0x3300, s1 := 4, n1 := 64, lo := 20, w := 4, acc := .ro }
/-- R182: SY_SEAL.DEPTH. -/
def SY_SEAL_DEPTH : Field :=
  { id := 106, space := .die, base := 0x3300, s1 := 4, n1 := 64, lo := 24, w := 3, acc := .ro }
/-- R182: SY_SEAL.RA_WAIT. -/
def SY_SEAL_RA_WAIT : Field :=
  { id := 107, space := .die, base := 0x3300, s1 := 4, n1 := 64, lo := 27, w := 1, acc := .w1c }
/-- R182: SY_SEAL.LOST. -/
def SY_SEAL_LOST : Field :=
  { id := 108, space := .die, base := 0x3300, s1 := 4, n1 := 64, lo := 28, w := 1, acc := .w1c }
/-- R183: SY_VCNT.SEALS. -/
def SY_VCNT_SEALS : Field :=
  { id := 109, space := .die, base := 0x3400, s1 := 4, n1 := 64, lo := 0, w := 16, acc := .cntw }
/-- R183: SY_VCNT.RECALLS. -/
def SY_VCNT_RECALLS : Field :=
  { id := 110, space := .die, base := 0x3400, s1 := 4, n1 := 64, lo := 16, w := 16, acc := .cntw }
/-- R220: CS_STAT.STATE. -/
def CS_STAT_STATE : Field :=
  { id := 111, space := .core, base := 0x0, lo := 0, w := 3, acc := .ro, rst := 6 }
/-- R220: CS_STAT.QPORT. -/
def CS_STAT_QPORT : Field :=
  { id := 112, space := .core, base := 0x0, lo := 3, w := 3, acc := .ro }
/-- R220: CS_STAT.QIDX. -/
def CS_STAT_QIDX : Field :=
  { id := 113, space := .core, base := 0x0, lo := 6, w := 8, acc := .ro }
/-- R220: CS_STAT.RFAULT. -/
def CS_STAT_RFAULT : Field :=
  { id := 114, space := .core, base := 0x0, lo := 14, w := 1, acc := .w1c }
/-- R220: CS_STAT.LDEPTH. -/
def CS_STAT_LDEPTH : Field :=
  { id := 115, space := .core, base := 0x0, lo := 15, w := 3, acc := .ro }
/-- R221: CS_PC.PC. -/
def CS_PC_PC : Field :=
  { id := 116, space := .core, base := 0x4, lo := 0, w := 13, acc := .ro }
/-- R221: CS_TRAP.CODE. -/
def CS_TRAP_CODE : Field :=
  { id := 117, space := .core, base := 0x20, lo := 0, w := 8, acc := .ro }
/-- R221: CS_TRAP.VALID. -/
def CS_TRAP_VALID : Field :=
  { id := 118, space := .core, base := 0x20, lo := 8, w := 1, acc := .ro }
/-- R221: CS_TRAP.COUNT. -/
def CS_TRAP_COUNT : Field :=
  { id := 119, space := .core, base := 0x20, lo := 16, w := 16, acc := .rw }
/-- R221: CS_TRAPPC.PC. -/
def CS_TRAPPC_PC : Field :=
  { id := 120, space := .core, base := 0x24, lo := 0, w := 13, acc := .ro }
/-- R221: CS_TRAPINFO.INFO. -/
def CS_TRAPINFO_INFO : Field :=
  { id := 121, space := .core, base := 0x30, lo := 0, w := 32, acc := .ro }
/-- R221: CS_TRAPCTL.ACTION. -/
def CS_TRAPCTL_ACTION : Field :=
  { id := 122, space := .core, base := 0x34, lo := 0, w := 3, acc := .wo, who := .punty }
/-- R221: CS_TRAPCTL.NEWPC. -/
def CS_TRAPCTL_NEWPC : Field :=
  { id := 123, space := .core, base := 0x34, lo := 16, w := 13, acc := .wo, who := .punty }
/-- R223: CV_VFLAGS.OVF. -/
def CV_VFLAGS_OVF : Field :=
  { id := 124, space := .core, base := 0xd20, lo := 0, w := 1, acc := .w1c }
/-- R223: CV_VFLAGS.NAN. -/
def CV_VFLAGS_NAN : Field :=
  { id := 125, space := .core, base := 0xd20, lo := 1, w := 1, acc := .w1c }
/-- R223: CV_VFLAGS.DIVZ. -/
def CV_VFLAGS_DIVZ : Field :=
  { id := 126, space := .core, base := 0xd20, lo := 2, w := 1, acc := .w1c }
/-- R223: CV_VFLAGS.INX. -/
def CV_VFLAGS_INX : Field :=
  { id := 127, space := .core, base := 0xd20, lo := 3, w := 1, acc := .w1c }
/-- R260: CP_CFG.RCSIZE. -/
def CP_CFG_RCSIZE : Field :=
  { id := 128, space := .core, base := 0xe00, lo := 0, w := 3, acc := .rwf }
/-- R260: CP_CFG.RCAUTO. -/
def CP_CFG_RCAUTO : Field :=
  { id := 129, space := .core, base := 0xe00, lo := 3, w := 1, acc := .rwf }
/-- R260: CP_CFG.SVC. -/
def CP_CFG_SVC : Field :=
  { id := 130, space := .core, base := 0xe00, lo := 4, w := 1, acc := .rw, who := .fw }
/-- R261: CP_STAT.MINSPARE. -/
def CP_STAT_MINSPARE : Field :=
  { id := 131, space := .core, base := 0xe04, lo := 0, w := 4, acc := .ro, rst := 8 }
/-- R261: CP_STAT.ZEROING. -/
def CP_STAT_ZEROING : Field :=
  { id := 132, space := .core, base := 0xe04, lo := 4, w := 1, acc := .ro }
/-- R261: CP_STAT.RCINV. -/
def CP_STAT_RCINV : Field :=
  { id := 133, space := .core, base := 0xe04, lo := 5, w := 1, acc := .ro }
/-- R261: CP_STAT.MAPPING. -/
def CP_STAT_MAPPING : Field :=
  { id := 134, space := .core, base := 0xe04, lo := 6, w := 1, acc := .ro }
/-- R261: CP_STAT.SBUSED. -/
def CP_STAT_SBUSED : Field :=
  { id := 135, space := .core, base := 0xe04, lo := 7, w := 6, acc := .ro }
/-- R262: CP_CMD.ZERO. -/
def CP_CMD_ZERO : Field :=
  { id := 136, space := .core, base := 0xe08, lo := 0, w := 1, acc := .wo, who := .fw }
/-- R262: CP_CMD.RCINV. -/
def CP_CMD_RCINV : Field :=
  { id := 137, space := .core, base := 0xe08, lo := 1, w := 1, acc := .wo }
/-- R263: CP_ECCLOG.LINE. -/
def CP_ECCLOG_LINE : Field :=
  { id := 138, space := .core, base := 0xe10, lo := 0, w := 19, acc := .ro }
/-- R263: CP_ECCLOG.WORD. -/
def CP_ECCLOG_WORD : Field :=
  { id := 139, space := .core, base := 0xe10, lo := 19, w := 3, acc := .ro }
/-- R263: CP_ECCLOG.UE. -/
def CP_ECCLOG_UE : Field :=
  { id := 140, space := .core, base := 0xe10, lo := 22, w := 1, acc := .ro }
/-- R263: CP_ECCLOG.VALID. -/
def CP_ECCLOG_VALID : Field :=
  { id := 141, space := .core, base := 0xe10, lo := 23, w := 1, acc := .w1c }
/-- R263: CP_ECCLOG.REQ. -/
def CP_ECCLOG_REQ : Field :=
  { id := 142, space := .core, base := 0xe10, lo := 24, w := 4, acc := .ro }
/-- R263: CP_ECCCNT.CE. -/
def CP_ECCCNT_CE : Field :=
  { id := 143, space := .core, base := 0xe14, lo := 0, w := 16, acc := .cntw }
/-- R263: CP_ECCCNT.UE. -/
def CP_ECCCNT_UE : Field :=
  { id := 144, space := .core, base := 0xe14, lo := 16, w := 16, acc := .cntw }
/-- R265: CP_WIN.BASE. -/
def CP_WIN_BASE : Field :=
  { id := 145, space := .core, base := 0xf00, s1 := 16, n1 := 8, lo := 0, w := 19, acc := .rw }
/-- R265: CP_WIN.LIMIT. -/
def CP_WIN_LIMIT : Field :=
  { id := 146, space := .core, base := 0xf04, s1 := 16, n1 := 8, lo := 0, w := 19, acc := .rw }
/-- R265: CP_WIN.EN. -/
def CP_WIN_EN : Field :=
  { id := 147, space := .core, base := 0xf08, s1 := 16, n1 := 8, lo := 0, w := 1, acc := .rw }
/-- R265: CP_WIN.KIND. -/
def CP_WIN_KIND : Field :=
  { id := 148, space := .core, base := 0xf08, s1 := 16, n1 := 8, lo := 1, w := 1, acc := .rw }
/-- R265: CP_WIN.SENDER. -/
def CP_WIN_SENDER : Field :=
  { id := 149, space := .core, base := 0xf08, s1 := 16, n1 := 8, lo := 2, w := 9, acc := .rw }
/-- R265: CP_WIN.CREDIT. -/
def CP_WIN_CREDIT : Field :=
  { id := 150, space := .core, base := 0xf0c, s1 := 16, n1 := 8, lo := 0, w := 25, acc := .rw }
/-- R266: CP_RCRNG.EN. -/
def CP_RCRNG_EN : Field :=
  { id := 151, space := .core, base := 0xf84, s1 := 16, n1 := 4, lo := 31, w := 1, acc := .rwf }
/-- R267: CP_SBHOLD.COUNT. -/
def CP_SBHOLD_COUNT : Field :=
  { id := 152, space := .core, base := 0xe20, lo := 0, w := 32, acc := .cnt }
/-- R267: CP_SBFULL.COUNT. -/
def CP_SBFULL_COUNT : Field :=
  { id := 153, space := .core, base := 0xe24, lo := 0, w := 32, acc := .cnt }
/-- R267: CP_ARBLOSS.COUNT. -/
def CP_ARBLOSS_COUNT : Field :=
  { id := 154, space := .core, base := 0xe28, lo := 0, w := 32, acc := .cnt }
/-- R267: CP_PREEMPT.COUNT. -/
def CP_PREEMPT_COUNT : Field :=
  { id := 155, space := .core, base := 0xe2c, lo := 0, w := 32, acc := .cnt }
/-- R267: CP_WINFLT.COUNT. -/
def CP_WINFLT_COUNT : Field :=
  { id := 156, space := .core, base := 0xe30, lo := 0, w := 32, acc := .cnt }
/-- R267: CP_RCHIT.COUNT. -/
def CP_RCHIT_COUNT : Field :=
  { id := 157, space := .core, base := 0xe34, lo := 0, w := 32, acc := .cnt }
/-- R267: CP_RCMISS.COUNT. -/
def CP_RCMISS_COUNT : Field :=
  { id := 158, space := .core, base := 0xe38, lo := 0, w := 32, acc := .cnt }
/-- R302: DN_RSTAT.PASSTHRU. -/
def DN_RSTAT_PASSTHRU : Field :=
  { id := 159, space := .core, base := 0x1100, lo := 0, w := 1, acc := .ro, rst := 1 }
/-- R302: DN_RSTAT.FAILED. -/
def DN_RSTAT_FAILED : Field :=
  { id := 160, space := .core, base := 0x1100, lo := 1, w := 1, acc := .ro }
/-- R302: DN_RSTAT.SHIFTED. -/
def DN_RSTAT_SHIFTED : Field :=
  { id := 161, space := .core, base := 0x1100, lo := 2, w := 1, acc := .ro }
/-- R302: DN_RSTAT.BANK. -/
def DN_RSTAT_BANK : Field :=
  { id := 162, space := .core, base := 0x1100, lo := 3, w := 1, acc := .ro }
/-- R302: DN_RSTAT.FOLDFULL. -/
def DN_RSTAT_FOLDFULL : Field :=
  { id := 163, space := .core, base := 0x1100, lo := 4, w := 1, acc := .w1c }
/-- R302: DN_RSTAT.FOLDUSE. -/
def DN_RSTAT_FOLDUSE : Field :=
  { id := 164, space := .core, base := 0x1100, lo := 5, w := 7, acc := .ro }
/-- R304: DN_FRAME.FLEN. -/
def DN_FRAME_FLEN : Field :=
  { id := 165, space := .die, base := 0x4000, lo := 0, w := 13, acc := .rwf, range := some (64, 4096) }
/-- R304: DN_TBLSEL.ACTIVE. -/
def DN_TBLSEL_ACTIVE : Field :=
  { id := 166, space := .die, base := 0x4004, lo := 0, w := 1, acc := .ro }
/-- R304: DN_TBLSEL.SWAP. -/
def DN_TBLSEL_SWAP : Field :=
  { id := 167, space := .die, base := 0x4004, lo := 1, w := 1, acc := .w1s, who := .fw }
/-- R304: DN_TBLSEL.PEND. -/
def DN_TBLSEL_PEND : Field :=
  { id := 168, space := .die, base := 0x4004, lo := 2, w := 1, acc := .ro }
/-- R304: DN_TBLSEL.STBY_SET. -/
def DN_TBLSEL_STBY_SET : Field :=
  { id := 169, space := .die, base := 0x4004, lo := 8, w := 8, acc := .rw, who := .fw }
/-- R304: DN_TBLSEL.ACT_SET. -/
def DN_TBLSEL_ACT_SET : Field :=
  { id := 170, space := .die, base := 0x4004, lo := 16, w := 8, acc := .ro }
/-- R304: DN_TIMEOUT.US. -/
def DN_TIMEOUT_US : Field :=
  { id := 171, space := .die, base := 0x4008, lo := 0, w := 24, acc := .rw, rst := 50000, range := some (1000, 10000000) }
/-- R304: DN_SCMD.STREAM. -/
def DN_SCMD_STREAM : Field :=
  { id := 172, space := .die, base := 0x400c, lo := 0, w := 15, acc := .wo, who := .punty }
/-- R304: DN_SCMD.STOP. -/
def DN_SCMD_STOP : Field :=
  { id := 173, space := .die, base := 0x400c, lo := 15, w := 1, acc := .wo, who := .punty }
/-- R304: DN_STALL.STREAM. -/
def DN_STALL_STREAM : Field :=
  { id := 174, space := .die, base := 0x4010, lo := 0, w := 15, acc := .ro }
/-- R304: DN_STALL.VALID. -/
def DN_STALL_VALID : Field :=
  { id := 175, space := .die, base := 0x4010, lo := 15, w := 1, acc := .w1c }
/-- R304: DN_STALL.COUNT. -/
def DN_STALL_COUNT : Field :=
  { id := 176, space := .die, base := 0x4010, lo := 16, w := 16, acc := .rw }
/-- R306: DN_FWD.COUNT. -/
def DN_FWD_COUNT : Field :=
  { id := 177, space := .core, base := 0x1110, lo := 0, w := 32, acc := .cnt }
/-- R306: DN_UNUSED.COUNT. -/
def DN_UNUSED_COUNT : Field :=
  { id := 178, space := .core, base := 0x1114, lo := 0, w := 32, acc := .cnt }
/-- R306: DN_FOLDS.COUNT. -/
def DN_FOLDS_COUNT : Field :=
  { id := 179, space := .core, base := 0x1118, lo := 0, w := 32, acc := .cnt }
/-- R306: DN_CE.COUNT. -/
def DN_CE_COUNT : Field :=
  { id := 180, space := .core, base := 0x111c, lo := 0, w := 32, acc := .cnt }
/-- R306: DN_EJDROP.COUNT. -/
def DN_EJDROP_COUNT : Field :=
  { id := 181, space := .core, base := 0x1120, lo := 0, w := 32, acc := .cnt }
/-- R306: DN_MISROUTE.COUNT. -/
def DN_MISROUTE_COUNT : Field :=
  { id := 182, space := .core, base := 0x1124, lo := 0, w := 32, acc := .cnt }
/-- R331: CN_CFG.REQTO. -/
def CN_CFG_REQTO : Field :=
  { id := 183, space := .die, base := 0x5000, lo := 0, w := 20, acc := .rw, rst := 1000, range := some (10, 1000000) }
/-- R331: CN_FAIL.FAIL. -/
def CN_FAIL_FAIL : Field :=
  { id := 184, space := .die, base := 0x5010, s1 := 4, n1 := 3, lo := 0, w := 32, acc := .rw, who := .fw }
/-- R331: CN_ERR.SRC. -/
def CN_ERR_SRC : Field :=
  { id := 185, space := .die, base := 0x5020, lo := 0, w := 10, acc := .ro }
/-- R331: CN_ERR.TYPE. -/
def CN_ERR_TYPE : Field :=
  { id := 186, space := .die, base := 0x5020, lo := 10, w := 6, acc := .ro }
/-- R331: CN_ERR.PORT. -/
def CN_ERR_PORT : Field :=
  { id := 187, space := .die, base := 0x5020, lo := 16, w := 4, acc := .ro }
/-- R331: CN_ERR.HDR_UE. -/
def CN_ERR_HDR_UE : Field :=
  { id := 188, space := .die, base := 0x5020, lo := 20, w := 1, acc := .ro }
/-- R331: CN_ERR.VALID. -/
def CN_ERR_VALID : Field :=
  { id := 189, space := .die, base := 0x5020, lo := 21, w := 1, acc := .w1c }
/-- R331: SY_CFG.BTO. -/
def SY_CFG_BTO : Field :=
  { id := 190, space := .die, base := 0x5030, lo := 0, w := 24, acc := .rw, rst := 10000, range := some (100, 10000000) }
/-- R332: SY_GRP.MEMLO. -/
def SY_GRP_MEMLO : Field :=
  { id := 191, space := .die, base := 0x5400, s1 := 16, n1 := 64, lo := 0, w := 32, acc := .rwf }
/-- R332: SY_GRP.MEMHI. -/
def SY_GRP_MEMHI : Field :=
  { id := 192, space := .die, base := 0x5404, s1 := 16, n1 := 64, lo := 0, w := 32, acc := .rwf }
/-- R332: SY_GRP.XDIE. -/
def SY_GRP_XDIE : Field :=
  { id := 193, space := .die, base := 0x5408, s1 := 16, n1 := 64, lo := 0, w := 4, acc := .rwf }
/-- R332: SY_GRP.PHASE. -/
def SY_GRP_PHASE : Field :=
  { id := 194, space := .die, base := 0x5408, s1 := 16, n1 := 64, lo := 4, w := 1, acc := .rwf }
/-- R332: SY_GRP.GATHER. -/
def SY_GRP_GATHER : Field :=
  { id := 195, space := .die, base := 0x5408, s1 := 16, n1 := 64, lo := 5, w := 6, acc := .rwf }
/-- R332: SY_GRP.SENSE. -/
def SY_GRP_SENSE : Field :=
  { id := 196, space := .die, base := 0x5408, s1 := 16, n1 := 64, lo := 11, w := 1, acc := .ro }
/-- R332: SY_GRP.OPEN. -/
def SY_GRP_OPEN : Field :=
  { id := 197, space := .die, base := 0x5408, s1 := 16, n1 := 64, lo := 12, w := 1, acc := .ro }
/-- R332: SY_GRP.STALL. -/
def SY_GRP_STALL : Field :=
  { id := 198, space := .die, base := 0x5408, s1 := 16, n1 := 64, lo := 13, w := 1, acc := .w1c }
/-- R332: SY_GRP.ROUNDS. -/
def SY_GRP_ROUNDS : Field :=
  { id := 199, space := .die, base := 0x540c, s1 := 16, n1 := 64, lo := 0, w := 32, acc := .rw }
/-- R333: CN_TXHP.COUNT. -/
def CN_TXHP_COUNT : Field :=
  { id := 200, space := .core, base := 0x1200, lo := 0, w := 32, acc := .cnt }
/-- R333: CN_TXN.COUNT. -/
def CN_TXN_COUNT : Field :=
  { id := 201, space := .core, base := 0x1204, lo := 0, w := 32, acc := .cnt }
/-- R333: CN_SHAPE.COUNT. -/
def CN_SHAPE_COUNT : Field :=
  { id := 202, space := .core, base := 0x1208, lo := 0, w := 32, acc := .cnt }
/-- R333: CN_PREEMPT.COUNT. -/
def CN_PREEMPT_COUNT : Field :=
  { id := 203, space := .core, base := 0x120c, lo := 0, w := 32, acc := .cnt }
/-- R333: CN_CE.COUNT. -/
def CN_CE_COUNT : Field :=
  { id := 204, space := .core, base := 0x1210, lo := 0, w := 32, acc := .cnt }
/-- R364: CQ_CFG.WDOG_US. -/
def CQ_CFG_WDOG_US : Field :=
  { id := 205, space := .core, base := 0x1300, lo := 0, w := 20, acc := .rw, rst := 100, range := some (1, 1000000) }
/-- R364: CQ_STAT.FREEENT. -/
def CQ_STAT_FREEENT : Field :=
  { id := 206, space := .core, base := 0x1304, lo := 0, w := 13, acc := .ro, rst := 4096 }
/-- R364: CQ_STAT.NQUEUE. -/
def CQ_STAT_NQUEUE : Field :=
  { id := 207, space := .core, base := 0x1304, lo := 13, w := 9, acc := .ro }
/-- R364: CQ_STAT.NSEND. -/
def CQ_STAT_NSEND : Field :=
  { id := 208, space := .core, base := 0x1304, lo := 22, w := 9, acc := .ro }
/-- R364: CQ_CERR.REASON. -/
def CQ_CERR_REASON : Field :=
  { id := 209, space := .core, base := 0x1308, lo := 0, w := 4, acc := .ro }
/-- R364: CQ_CERR.VALID. -/
def CQ_CERR_VALID : Field :=
  { id := 210, space := .core, base := 0x1308, lo := 4, w := 1, acc := .w1c }
/-- R364: CQ_RREL.QIDX. -/
def CQ_RREL_QIDX : Field :=
  { id := 211, space := .core, base := 0x130c, lo := 0, w := 8, acc := .wo }
/-- R364: CQ_RREL.COUNT. -/
def CQ_RREL_COUNT : Field :=
  { id := 212, space := .core, base := 0x130c, lo := 8, w := 8, acc := .wo }
/-- R364: CQ_CMD.QIDX. -/
def CQ_CMD_QIDX : Field :=
  { id := 213, space := .core, base := 0x1310, lo := 0, w := 8, acc := .wo }
/-- R364: CQ_CMD.DESTROY. -/
def CQ_CMD_DESTROY : Field :=
  { id := 214, space := .core, base := 0x1310, lo := 8, w := 1, acc := .wo, who := .fw }
/-- R364: CQ_BSOWN.HANDLE. -/
def CQ_BSOWN_HANDLE : Field :=
  { id := 215, space := .core, base := 0x1314, lo := 0, w := 32, acc := .ro }
/-- R365: CQ_Q.STATE. -/
def CQ_Q_STATE : Field :=
  { id := 216, space := .core, base := 0x2000, s1 := 16, n1 := 256, lo := 0, w := 2, acc := .ro }
/-- R365: CQ_Q.DEPTH. -/
def CQ_Q_DEPTH : Field :=
  { id := 217, space := .core, base := 0x2000, s1 := 16, n1 := 256, lo := 2, w := 2, acc := .rwf }
/-- R365: CQ_Q.COUNT. -/
def CQ_Q_COUNT : Field :=
  { id := 218, space := .core, base := 0x2000, s1 := 16, n1 := 256, lo := 4, w := 7, acc := .ro }
/-- R365: CQ_Q.WORD. -/
def CQ_Q_WORD : Field :=
  { id := 219, space := .core, base := 0x2000, s1 := 16, n1 := 256, lo := 11, w := 2, acc := .ro }
/-- R365: CQ_Q.PZ. -/
def CQ_Q_PZ : Field :=
  { id := 220, space := .core, base := 0x2000, s1 := 16, n1 := 256, lo := 13, w := 1, acc := .ro }
/-- R365: CQ_Q.SENDER. -/
def CQ_Q_SENDER : Field :=
  { id := 221, space := .core, base := 0x2004, s1 := 16, n1 := 256, lo := 0, w := 10, acc := .rwf }
/-- R365: CQ_Q.GEN. -/
def CQ_Q_GEN : Field :=
  { id := 222, space := .core, base := 0x2004, s1 := 16, n1 := 256, lo := 16, w := 16, acc := .rws }
/-- R365: CQ_Q.RBASE. -/
def CQ_Q_RBASE : Field :=
  { id := 223, space := .core, base := 0x2008, s1 := 16, n1 := 256, lo := 0, w := 13, acc := .rwf }
/-- R365: CQ_Q.RSIZE. -/
def CQ_Q_RSIZE : Field :=
  { id := 224, space := .core, base := 0x2008, s1 := 16, n1 := 256, lo := 13, w := 13, acc := .rwf }
/-- R365: CQ_Q.FREEPTR. -/
def CQ_Q_FREEPTR : Field :=
  { id := 225, space := .core, base := 0x200c, s1 := 16, n1 := 256, lo := 0, w := 19, acc := .ro }
/-- R365: CQ_Q.POPPED. -/
def CQ_Q_POPPED : Field :=
  { id := 226, space := .core, base := 0x200c, s1 := 16, n1 := 256, lo := 19, w := 8, acc := .ro }
/-- R366: CQ_S.HANDLE. -/
def CQ_S_HANDLE : Field :=
  { id := 227, space := .core, base := 0x3000, s1 := 16, n1 := 256, lo := 0, w := 32, acc := .rwf }
/-- R366: CQ_S.VALID. -/
def CQ_S_VALID : Field :=
  { id := 228, space := .core, base := 0x3004, s1 := 16, n1 := 256, lo := 0, w := 1, acc := .rwf }
/-- R366: CQ_S.KIND. -/
def CQ_S_KIND : Field :=
  { id := 229, space := .core, base := 0x3004, s1 := 16, n1 := 256, lo := 1, w := 1, acc := .rwf }
/-- R366: CQ_S.ECRED. -/
def CQ_S_ECRED : Field :=
  { id := 230, space := .core, base := 0x3004, s1 := 16, n1 := 256, lo := 2, w := 7, acc := .rwf }
/-- R366: CQ_S.RSIZE. -/
def CQ_S_RSIZE : Field :=
  { id := 231, space := .core, base := 0x3004, s1 := 16, n1 := 256, lo := 13, w := 13, acc := .rwf }
/-- R366: CQ_S.LCRED. -/
def CQ_S_LCRED : Field :=
  { id := 232, space := .core, base := 0x3008, s1 := 16, n1 := 256, lo := 0, w := 20, acc := .ro }
/-- R366: CQ_S.WR. -/
def CQ_S_WR : Field :=
  { id := 233, space := .core, base := 0x300c, s1 := 16, n1 := 256, lo := 0, w := 19, acc := .ro }
/-- R367: CQ_SENT.COUNT. -/
def CQ_SENT_COUNT : Field :=
  { id := 234, space := .core, base := 0x1320, lo := 0, w := 32, acc := .cnt }
/-- R367: CQ_RECV.COUNT. -/
def CQ_RECV_COUNT : Field :=
  { id := 235, space := .core, base := 0x1324, lo := 0, w := 32, acc := .cnt }
/-- R367: CQ_WAITS.COUNT. -/
def CQ_WAITS_COUNT : Field :=
  { id := 236, space := .core, base := 0x1328, lo := 0, w := 32, acc := .cnt }
/-- R367: CQ_WDFIRE.COUNT. -/
def CQ_WDFIRE_COUNT : Field :=
  { id := 237, space := .core, base := 0x132c, lo := 0, w := 32, acc := .cnt }
/-- R367: CQ_PADS.COUNT. -/
def CQ_PADS_COUNT : Field :=
  { id := 238, space := .core, base := 0x1330, lo := 0, w := 32, acc := .cnt }
/-- R367: CQ_DISCARD.COUNT. -/
def CQ_DISCARD_COUNT : Field :=
  { id := 239, space := .core, base := 0x1334, lo := 0, w := 32, acc := .cnt }
/-- R367: CQ_DROP.COUNT. -/
def CQ_DROP_COUNT : Field :=
  { id := 240, space := .core, base := 0x1338, lo := 0, w := 32, acc := .cnt }
/-- R391: PZ_HLEN.LEN. -/
def PZ_HLEN_LEN : Field :=
  { id := 241, space := .hub, base := 0x1008, lo := 0, w := 30, acc := .rw, who := .hostfw }
/-- R391: PZ_HCMD.OP. -/
def PZ_HCMD_OP : Field :=
  { id := 242, space := .hub, base := 0x100c, lo := 0, w := 2, acc := .wo, who := .hostfw }
/-- R391: PZ_HSTAT.STAGE. -/
def PZ_HSTAT_STAGE : Field :=
  { id := 243, space := .hub, base := 0x1010, lo := 0, w := 3, acc := .ro }
/-- R391: PZ_HSTAT.STATUS. -/
def PZ_HSTAT_STATUS : Field :=
  { id := 244, space := .hub, base := 0x1010, lo := 3, w := 5, acc := .ro }
/-- R391: PZ_HSTAT.DONE. -/
def PZ_HSTAT_DONE : Field :=
  { id := 245, space := .hub, base := 0x1010, lo := 8, w := 1, acc := .w1c }
/-- R391: PZ_HSTAT.KIND. -/
def PZ_HSTAT_KIND : Field :=
  { id := 246, space := .hub, base := 0x1010, lo := 9, w := 1, acc := .ro }
/-- R391: PZ_HSTAT.SDIE. -/
def PZ_HSTAT_SDIE : Field :=
  { id := 247, space := .hub, base := 0x1010, lo := 10, w := 2, acc := .ro }
/-- R391: PZ_HSTAT.SGATHER. -/
def PZ_HSTAT_SGATHER : Field :=
  { id := 248, space := .hub, base := 0x1010, lo := 12, w := 6, acc := .ro }
/-- R391: PZ_HSTAT.SEALED. -/
def PZ_HSTAT_SEALED : Field :=
  { id := 249, space := .hub, base := 0x1010, lo := 18, w := 1, acc := .ro }
/-- R391: PZ_HSTAT.FAILED. -/
def PZ_HSTAT_FAILED : Field :=
  { id := 250, space := .hub, base := 0x1010, lo := 19, w := 1, acc := .ro }
/-- R391: PZ_HERR.SECTION. -/
def PZ_HERR_SECTION : Field :=
  { id := 251, space := .hub, base := 0x1014, lo := 0, w := 16, acc := .ro }
/-- R391: PZ_HERR.DETAIL. -/
def PZ_HERR_DETAIL : Field :=
  { id := 252, space := .hub, base := 0x1014, lo := 16, w := 16, acc := .ro }
/-- R391: PZ_HQTO.MS. -/
def PZ_HQTO_MS : Field :=
  { id := 253, space := .hub, base := 0x1018, lo := 0, w := 16, acc := .rw, rst := 1000, who := .hostfw, range := some (1, 60000) }
/-- R391: PZ_DIGEST.DIGEST. -/
def PZ_DIGEST_DIGEST : Field :=
  { id := 254, space := .hub, base := 0x1020, s1 := 4, n1 := 8, lo := 0, w := 32, acc := .ro }
/-- R391: PZ_SEGCNT.COUNT. -/
def PZ_SEGCNT_COUNT : Field :=
  { id := 255, space := .hub, base := 0x1048, lo := 0, w := 32, acc := .ro }
/-- R392: PZ_GATHER.VALID. -/
def PZ_GATHER_VALID : Field :=
  { id := 256, space := .die, base := 0x3600, s1 := 16, n1 := 64, lo := 12, w := 1, acc := .ro }
/-- R392: PZ_GATHER.DEGRADED. -/
def PZ_GATHER_DEGRADED : Field :=
  { id := 257, space := .die, base := 0x3600, s1 := 16, n1 := 64, lo := 13, w := 1, acc := .ro }
/-- R392: PZ_GATHER.C4OK. -/
def PZ_GATHER_C4OK : Field :=
  { id := 258, space := .die, base := 0x3600, s1 := 16, n1 := 64, lo := 14, w := 1, acc := .rwf }
/-- R392: PZ_GATHER.SYNCG. -/
def PZ_GATHER_SYNCG : Field :=
  { id := 259, space := .die, base := 0x3600, s1 := 16, n1 := 64, lo := 16, w := 6, acc := .rwf }
/-- R392: PZ_GATHER.STRM_BASE. -/
def PZ_GATHER_STRM_BASE : Field :=
  { id := 260, space := .die, base := 0x3604, s1 := 16, n1 := 64, lo := 0, w := 15, acc := .rwf }
/-- R392: PZ_GATHER.STRM_CNT. -/
def PZ_GATHER_STRM_CNT : Field :=
  { id := 261, space := .die, base := 0x3604, s1 := 16, n1 := 64, lo := 16, w := 16, acc := .rwf }
/-- R392: PZ_GATHER.NPH. -/
def PZ_GATHER_NPH : Field :=
  { id := 262, space := .die, base := 0x3608, s1 := 16, n1 := 64, lo := 0, w := 9, acc := .rwf }
/-- R392: PZ_GATHER.SEGS. -/
def PZ_GATHER_SEGS : Field :=
  { id := 263, space := .die, base := 0x3608, s1 := 16, n1 := 64, lo := 16, w := 16, acc := .ro }
/-- R392: PZ_GATHER.STATE. -/
def PZ_GATHER_STATE : Field :=
  { id := 264, space := .die, base := 0x360c, s1 := 16, n1 := 64, lo := 0, w := 2, acc := .ro }
/-- R427: LK_STAT.STATE. -/
def LK_STAT_STATE : Field :=
  { id := 265, space := .die, base := 0x6000, s1 := 256, n1 := 9, lo := 0, w := 3, acc := .ro }
/-- R427: LK_STAT.STATE. -/
def LKH_STAT_STATE : Field :=
  { id := 266, space := .hub, base := 0x6000, s1 := 256, n1 := 16, lo := 0, w := 3, acc := .ro }
/-- R427: LK_STAT.TXW. -/
def LK_STAT_TXW : Field :=
  { id := 267, space := .die, base := 0x6000, s1 := 256, n1 := 9, lo := 3, w := 2, acc := .ro, rst := 3 }
/-- R427: LK_STAT.TXW. -/
def LKH_STAT_TXW : Field :=
  { id := 268, space := .hub, base := 0x6000, s1 := 256, n1 := 16, lo := 3, w := 2, acc := .ro, rst := 3 }
/-- R427: LK_STAT.RXW. -/
def LK_STAT_RXW : Field :=
  { id := 269, space := .die, base := 0x6000, s1 := 256, n1 := 9, lo := 5, w := 2, acc := .ro, rst := 3 }
/-- R427: LK_STAT.RXW. -/
def LKH_STAT_RXW : Field :=
  { id := 270, space := .hub, base := 0x6000, s1 := 256, n1 := 16, lo := 5, w := 2, acc := .ro, rst := 3 }
/-- R427: LK_STAT.SPARES. -/
def LK_STAT_SPARES : Field :=
  { id := 271, space := .die, base := 0x6000, s1 := 256, n1 := 9, lo := 7, w := 4, acc := .ro }
/-- R427: LK_STAT.SPARES. -/
def LKH_STAT_SPARES : Field :=
  { id := 272, space := .hub, base := 0x6000, s1 := 256, n1 := 16, lo := 7, w := 4, acc := .ro }
/-- R427: LK_STAT.HOLD. -/
def LK_STAT_HOLD : Field :=
  { id := 273, space := .die, base := 0x6000, s1 := 256, n1 := 9, lo := 11, w := 1, acc := .ro }
/-- R427: LK_STAT.HOLD. -/
def LKH_STAT_HOLD : Field :=
  { id := 274, space := .hub, base := 0x6000, s1 := 256, n1 := 16, lo := 11, w := 1, acc := .ro }
/-- R427: LK_STAT.GROUPS. -/
def LK_STAT_GROUPS : Field :=
  { id := 275, space := .die, base := 0x6000, s1 := 256, n1 := 9, lo := 12, w := 16, acc := .ro }
/-- R427: LK_STAT.GROUPS. -/
def LKH_STAT_GROUPS : Field :=
  { id := 276, space := .hub, base := 0x6000, s1 := 256, n1 := 16, lo := 12, w := 16, acc := .ro }
/-- R427: LK_CFG.ACKTO. -/
def LK_CFG_ACKTO : Field :=
  { id := 277, space := .die, base := 0x6004, s1 := 256, n1 := 9, lo := 0, w := 8, acc := .rw, rst := 15, range := some (5, 255) }
/-- R427: LK_CFG.ACKTO. -/
def LKH_CFG_ACKTO : Field :=
  { id := 278, space := .hub, base := 0x6004, s1 := 256, n1 := 16, lo := 0, w := 8, acc := .rw, rst := 15, rsts := [15, 15, 15, 15, 15, 15, 15, 15, 60, 60, 60, 60, 60, 60, 60, 60], range := some (5, 255) }
/-- R427: LK_CFG.AUTOSPARE. -/
def LK_CFG_AUTOSPARE : Field :=
  { id := 279, space := .die, base := 0x6004, s1 := 256, n1 := 9, lo := 8, w := 1, acc := .rw, rst := 1 }
/-- R427: LK_CFG.AUTOSPARE. -/
def LKH_CFG_AUTOSPARE : Field :=
  { id := 280, space := .hub, base := 0x6004, s1 := 256, n1 := 16, lo := 8, w := 1, acc := .rw, rst := 1 }
/-- R427: LK_CFG.RETRAIN. -/
def LK_CFG_RETRAIN : Field :=
  { id := 281, space := .die, base := 0x6004, s1 := 256, n1 := 9, lo := 9, w := 1, acc := .w1s, who := .fw }
/-- R427: LK_CFG.RETRAIN. -/
def LKH_CFG_RETRAIN : Field :=
  { id := 282, space := .hub, base := 0x6004, s1 := 256, n1 := 16, lo := 9, w := 1, acc := .w1s, who := .fw }
/-- R427: LK_LAT.DESIGN. -/
def LK_LAT_DESIGN : Field :=
  { id := 283, space := .die, base := 0x6008, s1 := 256, n1 := 9, lo := 0, w := 8, acc := .ro, rst := 24 }
/-- R427: LK_LAT.DESIGN. -/
def LKH_LAT_DESIGN : Field :=
  { id := 284, space := .hub, base := 0x6008, s1 := 256, n1 := 16, lo := 0, w := 8, acc := .ro, rst := 24, rsts := [24, 24, 24, 24, 24, 24, 24, 24, 0, 0, 0, 0, 0, 0, 0, 0] }
/-- R427: LK_LAT.MEASURED. -/
def LK_LAT_MEASURED : Field :=
  { id := 285, space := .die, base := 0x6008, s1 := 256, n1 := 9, lo := 8, w := 8, acc := .ro }
/-- R427: LK_LAT.MEASURED. -/
def LKH_LAT_MEASURED : Field :=
  { id := 286, space := .hub, base := 0x6008, s1 := 256, n1 := 16, lo := 8, w := 8, acc := .ro }
/-- R427: LK_SPARE.LANE. -/
def LK_SPARE_LANE : Field :=
  { id := 287, space := .die, base := 0x6020, s1 := 256, n1 := 9, s2 := 4, n2 := 8, lo := 0, w := 8, acc := .ro }
/-- R427: LK_SPARE.LANE. -/
def LKH_SPARE_LANE : Field :=
  { id := 288, space := .hub, base := 0x6020, s1 := 256, n1 := 16, s2 := 4, n2 := 8, lo := 0, w := 8, acc := .ro }
/-- R427: LK_SPARE.USED. -/
def LK_SPARE_USED : Field :=
  { id := 289, space := .die, base := 0x6020, s1 := 256, n1 := 9, s2 := 4, n2 := 8, lo := 8, w := 1, acc := .ro }
/-- R427: LK_SPARE.USED. -/
def LKH_SPARE_USED : Field :=
  { id := 290, space := .hub, base := 0x6020, s1 := 256, n1 := 16, s2 := 4, n2 := 8, lo := 8, w := 1, acc := .ro }
/-- R427: LK_SPARE.FIELD. -/
def LK_SPARE_FIELD : Field :=
  { id := 291, space := .die, base := 0x6020, s1 := 256, n1 := 9, s2 := 4, n2 := 8, lo := 9, w := 1, acc := .ro }
/-- R427: LK_SPARE.FIELD. -/
def LKH_SPARE_FIELD : Field :=
  { id := 292, space := .hub, base := 0x6020, s1 := 256, n1 := 16, s2 := 4, n2 := 8, lo := 9, w := 1, acc := .ro }
/-- R427: LK_BADGRP.COUNT. -/
def LK_BADGRP_COUNT : Field :=
  { id := 293, space := .die, base := 0x6040, s1 := 256, n1 := 9, lo := 0, w := 32, acc := .rw }
/-- R427: LK_BADGRP.COUNT. -/
def LKH_BADGRP_COUNT : Field :=
  { id := 294, space := .hub, base := 0x6040, s1 := 256, n1 := 16, lo := 0, w := 32, acc := .rw }
/-- R427: LK_REPLAY.COUNT. -/
def LK_REPLAY_COUNT : Field :=
  { id := 295, space := .die, base := 0x6044, s1 := 256, n1 := 9, lo := 0, w := 32, acc := .rw }
/-- R427: LK_REPLAY.COUNT. -/
def LKH_REPLAY_COUNT : Field :=
  { id := 296, space := .hub, base := 0x6044, s1 := 256, n1 := 16, lo := 0, w := 32, acc := .rw }
/-- R427: LK_RETRAIN.COUNT. -/
def LK_RETRAIN_COUNT : Field :=
  { id := 297, space := .die, base := 0x6048, s1 := 256, n1 := 9, lo := 0, w := 32, acc := .rw }
/-- R427: LK_RETRAIN.COUNT. -/
def LKH_RETRAIN_COUNT : Field :=
  { id := 298, space := .hub, base := 0x6048, s1 := 256, n1 := 16, lo := 0, w := 32, acc := .rw }
/-- R427: LK_HOLDCYC.COUNT. -/
def LK_HOLDCYC_COUNT : Field :=
  { id := 299, space := .die, base := 0x604c, s1 := 256, n1 := 9, lo := 0, w := 32, acc := .rw }
/-- R427: LK_HOLDCYC.COUNT. -/
def LKH_HOLDCYC_COUNT : Field :=
  { id := 300, space := .hub, base := 0x604c, s1 := 256, n1 := 16, lo := 0, w := 32, acc := .rw }
/-- R427: LK_LSEL.LANE. -/
def LK_LSEL_LANE : Field :=
  { id := 301, space := .die, base := 0x6050, s1 := 256, n1 := 9, lo := 0, w := 9, acc := .rw, range := some (0, 263) }
/-- R427: LK_LSEL.LANE. -/
def LKH_LSEL_LANE : Field :=
  { id := 302, space := .hub, base := 0x6050, s1 := 256, n1 := 16, lo := 0, w := 9, acc := .rw, range := some (0, 263) }
/-- R427: LK_LCNT.COUNT. -/
def LK_LCNT_COUNT : Field :=
  { id := 303, space := .die, base := 0x6054, s1 := 256, n1 := 9, lo := 0, w := 32, acc := .ro }
/-- R427: LK_LCNT.COUNT. -/
def LKH_LCNT_COUNT : Field :=
  { id := 304, space := .hub, base := 0x6054, s1 := 256, n1 := 16, lo := 0, w := 32, acc := .ro }
/-- R427: LK_FECCE.COUNT. -/
def LK_FECCE_COUNT : Field :=
  { id := 305, space := .die, base := 0x6060, s1 := 256, n1 := 9, lo := 0, w := 32, acc := .rw }
/-- R427: LK_FECCE.COUNT. -/
def LKH_FECCE_COUNT : Field :=
  { id := 306, space := .hub, base := 0x6060, s1 := 256, n1 := 16, lo := 0, w := 32, acc := .rw }
/-- R427: LK_FECUE.COUNT. -/
def LK_FECUE_COUNT : Field :=
  { id := 307, space := .die, base := 0x6064, s1 := 256, n1 := 9, lo := 0, w := 32, acc := .rw }
/-- R427: LK_FECUE.COUNT. -/
def LKH_FECUE_COUNT : Field :=
  { id := 308, space := .hub, base := 0x6064, s1 := 256, n1 := 16, lo := 0, w := 32, acc := .rw }
/-- R427: LK_AUTH.COUNT. -/
def LK_AUTH_COUNT : Field :=
  { id := 309, space := .die, base := 0x6068, s1 := 256, n1 := 9, lo := 0, w := 32, acc := .rw }
/-- R427: LK_AUTH.COUNT. -/
def LKH_AUTH_COUNT : Field :=
  { id := 310, space := .hub, base := 0x6068, s1 := 256, n1 := 16, lo := 0, w := 32, acc := .rw }
/-- R460: TS_STAT.STATE. -/
def TS_STAT_STATE : Field :=
  { id := 311, space := .die, base := 0x800000, s1 := 262144, n1 := 4, lo := 0, w := 2, acc := .ro }
/-- R460: TS_STAT.ZEROING. -/
def TS_STAT_ZEROING : Field :=
  { id := 312, space := .die, base := 0x800000, s1 := 262144, n1 := 4, lo := 2, w := 1, acc := .ro }
/-- R460: TS_STAT.UPDATING. -/
def TS_STAT_UPDATING : Field :=
  { id := 313, space := .die, base := 0x800000, s1 := 262144, n1 := 4, lo := 3, w := 1, acc := .ro }
/-- R460: TS_STAT.LAYER. -/
def TS_STAT_LAYER : Field :=
  { id := 314, space := .die, base := 0x800000, s1 := 262144, n1 := 4, lo := 4, w := 10, acc := .ro }
/-- R460: TS_CFG.NTO. -/
def TS_CFG_NTO : Field :=
  { id := 315, space := .die, base := 0x800004, s1 := 262144, n1 := 4, lo := 0, w := 20, acc := .rw, rst := 1000, range := some (10, 1000000) }
/-- R460: TS_SCRUB.INTV. -/
def TS_SCRUB_INTV : Field :=
  { id := 316, space := .die, base := 0x800008, s1 := 262144, n1 := 4, lo := 0, w := 16, acc := .rw, rst := 4096, range := some (64, 65535), zeroOff := true }
/-- R460: TS_SCRUB.PASSES. -/
def TS_SCRUB_PASSES : Field :=
  { id := 317, space := .die, base := 0x800008, s1 := 262144, n1 := 4, lo := 16, w := 16, acc := .ro }
/-- R460: TS_CMD.ZERO. -/
def TS_CMD_ZERO : Field :=
  { id := 318, space := .die, base := 0x80000c, s1 := 262144, n1 := 4, lo := 0, w := 1, acc := .wo, who := .fw }
/-- R460: TS_CMD.COPY. -/
def TS_CMD_COPY : Field :=
  { id := 319, space := .die, base := 0x80000c, s1 := 262144, n1 := 4, lo := 1, w := 1, acc := .wo }
/-- R460: TS_CMD.LIDX. -/
def TS_CMD_LIDX : Field :=
  { id := 320, space := .die, base := 0x80000c, s1 := 262144, n1 := 4, lo := 2, w := 10, acc := .wo }
/-- R460: TS_GS.GS. -/
def TS_GS_GS : Field :=
  { id := 321, space := .die, base := 0x800010, s1 := 262144, n1 := 4, lo := 0, w := 32, acc := .rw, rst := 1065353216, step := true }
/-- R460: TS_LRS.LRS. -/
def TS_LRS_LRS : Field :=
  { id := 322, space := .die, base := 0x800014, s1 := 262144, n1 := 4, lo := 0, w := 32, acc := .rw, rst := 1065353216, step := true }
/-- R460: TS_C1.C1. -/
def TS_C1_C1 : Field :=
  { id := 323, space := .die, base := 0x800018, s1 := 262144, n1 := 4, lo := 0, w := 32, acc := .rw, rst := 1065353216, step := true }
/-- R460: TS_C2.C2. -/
def TS_C2_C2 : Field :=
  { id := 324, space := .die, base := 0x80001c, s1 := 262144, n1 := 4, lo := 0, w := 32, acc := .rw, rst := 1065353216, step := true }
/-- R460: TS_STEP.STEP. -/
def TS_STEP_STEP : Field :=
  { id := 325, space := .die, base := 0x800020, s1 := 262144, n1 := 4, lo := 0, w := 16, acc := .ro }
/-- R460: TS_ECC.CE. -/
def TS_ECC_CE : Field :=
  { id := 326, space := .die, base := 0x800030, s1 := 262144, n1 := 4, lo := 0, w := 16, acc := .rw }
/-- R460: TS_ECC.UE. -/
def TS_ECC_UE : Field :=
  { id := 327, space := .die, base := 0x800030, s1 := 262144, n1 := 4, lo := 16, w := 16, acc := .rw }
/-- R460: TS_ECCFLG.UE. -/
def TS_ECCFLG_UE : Field :=
  { id := 328, space := .die, base := 0x80003c, s1 := 262144, n1 := 4, lo := 0, w := 1, acc := .ro }
/-- R460: TS_ECCFLG.VALID. -/
def TS_ECCFLG_VALID : Field :=
  { id := 329, space := .die, base := 0x80003c, s1 := 262144, n1 := 4, lo := 1, w := 1, acc := .w1c }
/-- R460: TS_ECCFLG.REQ. -/
def TS_ECCFLG_REQ : Field :=
  { id := 330, space := .die, base := 0x80003c, s1 := 262144, n1 := 4, lo := 2, w := 3, acc := .ro }
/-- R461: TS_ARBLOSS.COUNT. -/
def TS_ARBLOSS_COUNT : Field :=
  { id := 331, space := .die, base := 0x800040, s1 := 262144, n1 := 4, lo := 0, w := 32, acc := .cnt }
/-- R461: TS_PREEMPT.COUNT. -/
def TS_PREEMPT_COUNT : Field :=
  { id := 332, space := .die, base := 0x800044, s1 := 262144, n1 := 4, lo := 0, w := 32, acc := .cnt }
/-- R461: TS_HOLD.COUNT. -/
def TS_HOLD_COUNT : Field :=
  { id := 333, space := .die, base := 0x800048, s1 := 262144, n1 := 4, lo := 0, w := 32, acc := .cnt }
/-- R461: TS_UPD.COUNT. -/
def TS_UPD_COUNT : Field :=
  { id := 334, space := .die, base := 0x80004c, s1 := 262144, n1 := 4, lo := 0, w := 32, acc := .cnt }
/-- R461: TS_LOST.COUNT. -/
def TS_LOST_COUNT : Field :=
  { id := 335, space := .die, base := 0x800050, s1 := 262144, n1 := 4, lo := 0, w := 32, acc := .cnt }
/-- R463: TS_VIEW.LISTLO. -/
def TS_VIEW_LISTLO : Field :=
  { id := 336, space := .die, base := 0x801000, s1 := 262144, n1 := 4, s2 := 16, n2 := 64, lo := 0, w := 32, acc := .rwf }
/-- R463: TS_VIEW.LISTHI. -/
def TS_VIEW_LISTHI : Field :=
  { id := 337, space := .die, base := 0x801004, s1 := 262144, n1 := 4, s2 := 16, n2 := 64, lo := 0, w := 32, acc := .rwf }
/-- R463: TS_VIEW.NST. -/
def TS_VIEW_NST : Field :=
  { id := 338, space := .die, base := 0x801008, s1 := 262144, n1 := 4, s2 := 16, n2 := 64, lo := 0, w := 5, acc := .rwf }
/-- R463: TS_VIEW.RB. -/
def TS_VIEW_RB : Field :=
  { id := 339, space := .die, base := 0x801008, s1 := 262144, n1 := 4, s2 := 16, n2 := 64, lo := 5, w := 16, acc := .rwf }
/-- R463: TS_VIEW.VALID. -/
def TS_VIEW_VALID : Field :=
  { id := 340, space := .die, base := 0x801008, s1 := 262144, n1 := 4, s2 := 16, n2 := 64, lo := 21, w := 1, acc := .ro }
/-- R464: TS_LAYER.RULE. -/
def TS_LAYER_RULE : Field :=
  { id := 341, space := .die, base := 0x820000, s1 := 262144, n1 := 4, s2 := 128, n2 := 1024, lo := 0, w := 2, acc := .rwf }
/-- R464: TS_LAYER.GFMT. -/
def TS_LAYER_GFMT : Field :=
  { id := 342, space := .die, base := 0x820000, s1 := 262144, n1 := 4, s2 := 128, n2 := 1024, lo := 2, w := 1, acc := .rwf }
/-- R464: TS_LAYER.CFMT. -/
def TS_LAYER_CFMT : Field :=
  { id := 343, space := .die, base := 0x820000, s1 := 262144, n1 := 4, s2 := 128, n2 := 1024, lo := 3, w := 2, acc := .rwf }
/-- R464: TS_LAYER.CBLK. -/
def TS_LAYER_CBLK : Field :=
  { id := 344, space := .die, base := 0x820000, s1 := 262144, n1 := 4, s2 := 128, n2 := 1024, lo := 5, w := 3, acc := .rwf }
/-- R464: TS_LAYER.CRULE. -/
def TS_LAYER_CRULE : Field :=
  { id := 345, space := .die, base := 0x820000, s1 := 262144, n1 := 4, s2 := 128, n2 := 1024, lo := 8, w := 1, acc := .rwf }
/-- R464: TS_LAYER.RWATCH. -/
def TS_LAYER_RWATCH : Field :=
  { id := 346, space := .die, base := 0x820000, s1 := 262144, n1 := 4, s2 := 128, n2 := 1024, lo := 9, w := 1, acc := .rwf }
/-- R464: TS_LAYER.VIEW. -/
def TS_LAYER_VIEW : Field :=
  { id := 347, space := .die, base := 0x820000, s1 := 262144, n1 := 4, s2 := 128, n2 := 1024, lo := 10, w := 6, acc := .rwf }
/-- R464: TS_LAYER.EN. -/
def TS_LAYER_EN : Field :=
  { id := 348, space := .die, base := 0x820000, s1 := 262144, n1 := 4, s2 := 128, n2 := 1024, lo := 16, w := 1, acc := .rwf }
/-- R464: TS_LAYER.LAYER. -/
def TS_LAYER_LAYER : Field :=
  { id := 349, space := .die, base := 0x820004, s1 := 262144, n1 := 4, s2 := 128, n2 := 1024, lo := 0, w := 16, acc := .rwf }
/-- R464: TS_LAYER.NROWS. -/
def TS_LAYER_NROWS : Field :=
  { id := 350, space := .die, base := 0x820008, s1 := 262144, n1 := 4, s2 := 128, n2 := 1024, lo := 0, w := 24, acc := .rwf }
/-- R464: TS_LAYER.K. -/
def TS_LAYER_K : Field :=
  { id := 351, space := .die, base := 0x82000c, s1 := 262144, n1 := 4, s2 := 128, n2 := 1024, lo := 0, w := 17, acc := .rwf }
/-- R464: TS_LAYER.LR. -/
def TS_LAYER_LR : Field :=
  { id := 352, space := .die, base := 0x820038, s1 := 262144, n1 := 4, s2 := 128, n2 := 1024, lo := 0, w := 32, acc := .rwf }
/-- R464: TS_LAYER.B1. -/
def TS_LAYER_B1 : Field :=
  { id := 353, space := .die, base := 0x82003c, s1 := 262144, n1 := 4, s2 := 128, n2 := 1024, lo := 0, w := 32, acc := .rwf }
/-- R464: TS_LAYER.B2. -/
def TS_LAYER_B2 : Field :=
  { id := 354, space := .die, base := 0x820040, s1 := 262144, n1 := 4, s2 := 128, n2 := 1024, lo := 0, w := 32, acc := .rwf }
/-- R464: TS_LAYER.EPS. -/
def TS_LAYER_EPS : Field :=
  { id := 355, space := .die, base := 0x820044, s1 := 262144, n1 := 4, s2 := 128, n2 := 1024, lo := 0, w := 32, acc := .rwf }
/-- R464: TS_LAYER.WD. -/
def TS_LAYER_WD : Field :=
  { id := 356, space := .die, base := 0x820048, s1 := 262144, n1 := 4, s2 := 128, n2 := 1024, lo := 0, w := 32, acc := .rwf }
/-- R464: TS_LAYER.TMAX. -/
def TS_LAYER_TMAX : Field :=
  { id := 357, space := .die, base := 0x82004c, s1 := 262144, n1 := 4, s2 := 128, n2 := 1024, lo := 0, w := 32, acc := .rwf }
/-- R464: TS_LAYER.RATIO_LO. -/
def TS_LAYER_RATIO_LO : Field :=
  { id := 358, space := .die, base := 0x820050, s1 := 262144, n1 := 4, s2 := 128, n2 := 1024, lo := 0, w := 32, acc := .rwf }
/-- R464: TS_LAYER.RATIO_HI. -/
def TS_LAYER_RATIO_HI : Field :=
  { id := 359, space := .die, base := 0x820054, s1 := 262144, n1 := 4, s2 := 128, n2 := 1024, lo := 0, w := 32, acc := .rwf }
/-- R464: TS_LAYER.STATE. -/
def TS_LAYER_STATE : Field :=
  { id := 360, space := .die, base := 0x820058, s1 := 262144, n1 := 4, s2 := 128, n2 := 1024, lo := 0, w := 3, acc := .ro }
/-- R464: TS_LAYER.GLINES. -/
def TS_LAYER_GLINES : Field :=
  { id := 361, space := .die, base := 0x82005c, s1 := 262144, n1 := 4, s2 := 128, n2 := 1024, lo := 0, w := 32, acc := .ro }
/-- R464: TS_LAYER.RATIO. -/
def TS_LAYER_RATIO : Field :=
  { id := 362, space := .die, base := 0x820060, s1 := 262144, n1 := 4, s2 := 128, n2 := 1024, lo := 0, w := 32, acc := .ro }
/-- R464: TS_LAYER.NORMW. -/
def TS_LAYER_NORMW : Field :=
  { id := 363, space := .die, base := 0x820064, s1 := 262144, n1 := 4, s2 := 128, n2 := 1024, lo := 0, w := 32, acc := .ro }
/-- R464: TS_LAYER.NORMU. -/
def TS_LAYER_NORMU : Field :=
  { id := 364, space := .die, base := 0x820068, s1 := 262144, n1 := 4, s2 := 128, n2 := 1024, lo := 0, w := 32, acc := .ro }
/-- R464: TS_LAYER.RSTEP. -/
def TS_LAYER_RSTEP : Field :=
  { id := 365, space := .die, base := 0x82006c, s1 := 262144, n1 := 4, s2 := 128, n2 := 1024, lo := 0, w := 16, acc := .ro }
/-- R464: TS_LAYER.OUT. -/
def TS_LAYER_OUT : Field :=
  { id := 366, space := .die, base := 0x82006c, s1 := 262144, n1 := 4, s2 := 128, n2 := 1024, lo := 16, w := 1, acc := .w1c }
/-- R495: HB_ID.REV. -/
def HB_ID_REV : Field :=
  { id := 367, space := .hub, base := 0x0, lo := 0, w := 8, acc := .ro }
/-- R495: HB_ID.SLOTS. -/
def HB_ID_SLOTS : Field :=
  { id := 368, space := .hub, base := 0x0, lo := 8, w := 7, acc := .ro, rst := 16 }
/-- R495: HB_ID.SPAN. -/
def HB_ID_SPAN : Field :=
  { id := 369, space := .hub, base := 0x0, lo := 15, w := 4, acc := .ro, rst := 2 }
/-- R495: HB_ID.FP4. -/
def HB_ID_FP4 : Field :=
  { id := 370, space := .hub, base := 0x0, lo := 19, w := 1, acc := .ro }
/-- R495: HB_ID.PAIR. -/
def HB_ID_PAIR : Field :=
  { id := 371, space := .hub, base := 0x0, lo := 20, w := 1, acc := .ro }
/-- R495: HB_ID.HERITAGE. -/
def HB_ID_HERITAGE : Field :=
  { id := 372, space := .hub, base := 0x0, lo := 21, w := 1, acc := .ro }
/-- R496: HB_HOSTCFG.IDE_REQ. -/
def HB_HOSTCFG_IDE_REQ : Field :=
  { id := 373, space := .hub, base := 0x50, lo := 0, w := 1, acc := .ro }
/-- R496: HB_HOSTCFG.IDE_OK. -/
def HB_HOSTCFG_IDE_OK : Field :=
  { id := 374, space := .hub, base := 0x50, lo := 1, w := 1, acc := .ro }
/-- R496: HB_HOSTCFG.BULK. -/
def HB_HOSTCFG_BULK : Field :=
  { id := 375, space := .hub, base := 0x50, lo := 2, w := 1, acc := .ro, rst := 1 }
/-- R496: HB_HOSTCFG.SENDTO. -/
def HB_HOSTCFG_SENDTO : Field :=
  { id := 376, space := .hub, base := 0x50, lo := 16, w := 16, acc := .rw, rst := 100, range := some (1, 10000) }
/-- R496: HB_STEPCTL.HOLD. -/
def HB_STEPCTL_HOLD : Field :=
  { id := 377, space := .hub, base := 0x60, lo := 0, w := 1, acc := .rw }
/-- R496: HB_STEPCTL.GO. -/
def HB_STEPCTL_GO : Field :=
  { id := 378, space := .hub, base := 0x60, lo := 1, w := 1, acc := .w1s }
/-- R496: HB_STEPCTL.HELD. -/
def HB_STEPCTL_HELD : Field :=
  { id := 379, space := .hub, base := 0x60, lo := 2, w := 1, acc := .ro }
/-- R496: HB_STEPCTL.BANK. -/
def HB_STEPCTL_BANK : Field :=
  { id := 380, space := .hub, base := 0x60, lo := 16, w := 16, acc := .ro }
/-- R496: HB_WIN.EN. -/
def HB_WIN_EN : Field :=
  { id := 381, space := .hub, base := 0x100, s1 := 8, n1 := 16, lo := 0, w := 1, acc := .rw }
/-- R496: HB_WIN.BASE. -/
def HB_WIN_BASE : Field :=
  { id := 382, space := .hub, base := 0x104, s1 := 8, n1 := 16, lo := 0, w := 20, acc := .rw }
/-- R496: HB_PAGE.EN. -/
def HB_PAGE_EN : Field :=
  { id := 383, space := .hub, base := 0x180, s1 := 4, n1 := 4, lo := 0, w := 1, acc := .rw }
/-- R496: HB_PAGE.CLASS. -/
def HB_PAGE_CLASS : Field :=
  { id := 384, space := .hub, base := 0x180, s1 := 4, n1 := 4, lo := 1, w := 1, acc := .rw }
/-- R496: HB_PAGE.DIE. -/
def HB_PAGE_DIE : Field :=
  { id := 385, space := .hub, base := 0x180, s1 := 4, n1 := 4, lo := 2, w := 2, acc := .rw }
/-- R496: HB_PAGE.LCORE. -/
def HB_PAGE_LCORE : Field :=
  { id := 386, space := .hub, base := 0x180, s1 := 4, n1 := 4, lo := 4, w := 6, acc := .rw }
/-- R496: HB_HERR.KIND. -/
def HB_HERR_KIND : Field :=
  { id := 387, space := .hub, base := 0x1c0, lo := 0, w := 4, acc := .ro }
/-- R496: HB_HERR.SLOT. -/
def HB_HERR_SLOT : Field :=
  { id := 388, space := .hub, base := 0x1c0, lo := 4, w := 6, acc := .ro }
/-- R496: HB_HERR.VALID. -/
def HB_HERR_VALID : Field :=
  { id := 389, space := .hub, base := 0x1c0, lo := 10, w := 1, acc := .w1c }
/-- R497: HB_HRANGE.EN. -/
def HB_HRANGE_EN : Field :=
  { id := 390, space := .hub, base := 0x204, s1 := 16, n1 := 8, lo := 31, w := 1, acc := .rw }
/-- R498: HB_SLOT.SQSIZE. -/
def HB_SLOT_SQSIZE : Field :=
  { id := 391, space := .hub, base := 0x2010, s1 := 64, n1 := 64, lo := 0, w := 4, acc := .rw }
/-- R498: HB_SLOT.CQSIZE. -/
def HB_SLOT_CQSIZE : Field :=
  { id := 392, space := .hub, base := 0x2010, s1 := 64, n1 := 64, lo := 4, w := 4, acc := .rw }
/-- R498: HB_SLOT.EN. -/
def HB_SLOT_EN : Field :=
  { id := 393, space := .hub, base := 0x2010, s1 := 64, n1 := 64, lo := 8, w := 1, acc := .rw }
/-- R498: HB_SLOT.IMODC. -/
def HB_SLOT_IMODC : Field :=
  { id := 394, space := .hub, base := 0x2010, s1 := 64, n1 := 64, lo := 9, w := 8, acc := .rw, rst := 1, range := some (1, 255) }
/-- R498: HB_SLOT.IMODT. -/
def HB_SLOT_IMODT : Field :=
  { id := 395, space := .hub, base := 0x2010, s1 := 64, n1 := 64, lo := 17, w := 12, acc := .rw }
/-- R498: HB_SLOT.STATE. -/
def HB_SLOT_STATE : Field :=
  { id := 396, space := .hub, base := 0x2014, s1 := 64, n1 := 64, lo := 0, w := 2, acc := .ro }
/-- R498: HB_SLOT.REASON. -/
def HB_SLOT_REASON : Field :=
  { id := 397, space := .hub, base := 0x2014, s1 := 64, n1 := 64, lo := 2, w := 3, acc := .ro }
/-- R498: HB_SLOT.WPHASE. -/
def HB_SLOT_WPHASE : Field :=
  { id := 398, space := .hub, base := 0x2014, s1 := 64, n1 := 64, lo := 5, w := 1, acc := .ro, rst := 1 }
/-- R498: HB_SLOT.SQTAIL. -/
def HB_SLOT_SQTAIL : Field :=
  { id := 399, space := .hub, base := 0x2018, s1 := 64, n1 := 64, lo := 0, w := 16, acc := .ro }
/-- R498: HB_SLOT.SQHEAD. -/
def HB_SLOT_SQHEAD : Field :=
  { id := 400, space := .hub, base := 0x2018, s1 := 64, n1 := 64, lo := 16, w := 16, acc := .ro }
/-- R498: HB_SLOT.CQTAIL. -/
def HB_SLOT_CQTAIL : Field :=
  { id := 401, space := .hub, base := 0x201c, s1 := 64, n1 := 64, lo := 0, w := 16, acc := .ro }
/-- R498: HB_SLOT.CQHEAD. -/
def HB_SLOT_CQHEAD : Field :=
  { id := 402, space := .hub, base := 0x201c, s1 := 64, n1 := 64, lo := 16, w := 16, acc := .ro }
/-- R498: HB_SLOT.DONE. -/
def HB_SLOT_DONE : Field :=
  { id := 403, space := .hub, base := 0x2020, s1 := 64, n1 := 64, lo := 0, w := 32, acc := .rw }
/-- R498: HB_SLOT.DROPPED. -/
def HB_SLOT_DROPPED : Field :=
  { id := 404, space := .hub, base := 0x2024, s1 := 64, n1 := 64, lo := 0, w := 32, acc := .rw }
/-- R499: HB_MBCTL.COMMIT. -/
def HB_MBCTL_COMMIT : Field :=
  { id := 405, space := .hub, base := 0x3000, s1 := 16, n1 := 16, lo := 0, w := 1, acc := .wo, who := .corefw }
/-- R499: HB_MBCTL.TAGGED. -/
def HB_MBCTL_TAGGED : Field :=
  { id := 406, space := .hub, base := 0x3000, s1 := 16, n1 := 16, lo := 1, w := 1, acc := .wo }
/-- R499: HB_MBCTL.DIE. -/
def HB_MBCTL_DIE : Field :=
  { id := 407, space := .hub, base := 0x3000, s1 := 16, n1 := 16, lo := 2, w := 2, acc := .wo }
/-- R499: HB_MBCTL.GATHER. -/
def HB_MBCTL_GATHER : Field :=
  { id := 408, space := .hub, base := 0x3000, s1 := 16, n1 := 16, lo := 4, w := 6, acc := .wo }
/-- R499: HB_MBCTL.PSEQ. -/
def HB_MBCTL_PSEQ : Field :=
  { id := 409, space := .hub, base := 0x3000, s1 := 16, n1 := 16, lo := 10, w := 16, acc := .wo }
/-- R499: HB_MBCTL.LEN. -/
def HB_MBCTL_LEN : Field :=
  { id := 410, space := .hub, base := 0x3004, s1 := 16, n1 := 16, lo := 0, w := 8, acc := .rw, who := .corefw }
/-- R499: HB_MBCTL.RELEASE. -/
def HB_MBCTL_RELEASE : Field :=
  { id := 411, space := .hub, base := 0x3004, s1 := 16, n1 := 16, lo := 8, w := 1, acc := .wo, who := .host }
/-- R499: HB_MBCTL.PUBLISHED. -/
def HB_MBCTL_PUBLISHED : Field :=
  { id := 412, space := .hub, base := 0x3004, s1 := 16, n1 := 16, lo := 9, w := 1, acc := .ro }
/-- R499: HB_MBCTL.WAITING. -/
def HB_MBCTL_WAITING : Field :=
  { id := 413, space := .hub, base := 0x3004, s1 := 16, n1 := 16, lo := 10, w := 1, acc := .ro }
/-- R526: LH_CFG.ADMIT_US. -/
def LH_CFG_ADMIT_US : Field :=
  { id := 414, space := .die, base := 0x7000, lo := 0, w := 8, acc := .rw, rst := 20, range := some (1, 255) }
/-- R526: LH_CFG.MARGIN_US. -/
def LH_CFG_MARGIN_US : Field :=
  { id := 415, space := .die, base := 0x7000, lo := 8, w := 8, acc := .rw, rst := 10 }
/-- R526: LH_CFG.GLIM. -/
def LH_CFG_GLIM : Field :=
  { id := 416, space := .die, base := 0x7000, lo := 16, w := 8, acc := .rw, rst := 240, range := some (160, 240) }
/-- R526: LH_SHARE.PZ. -/
def LH_SHARE_PZ : Field :=
  { id := 417, space := .die, base := 0x7004, lo := 0, w := 12, acc := .rwf, rst := 1150 }
/-- R526: LH_SHARE.EFF. -/
def LH_SHARE_EFF : Field :=
  { id := 418, space := .die, base := 0x7004, lo := 16, w := 12, acc := .ro, rst := 1150 }
/-- R526: LH_STAT.PDIE. -/
def LH_STAT_PDIE : Field :=
  { id := 419, space := .die, base := 0x7008, lo := 0, w := 12, acc := .ro }
/-- R526: LH_STAT.AVG. -/
def LH_STAT_AVG : Field :=
  { id := 420, space := .die, base := 0x7008, lo := 12, w := 12, acc := .ro }
/-- R526: LH_STAT.UNMET. -/
def LH_STAT_UNMET : Field :=
  { id := 421, space := .die, base := 0x7008, lo := 24, w := 1, acc := .w1c }
/-- R526: LH_STAT.THERM. -/
def LH_STAT_THERM : Field :=
  { id := 422, space := .die, base := 0x7008, lo := 25, w := 1, acc := .ro }
/-- R526: LH_STAT.LATEHINT. -/
def LH_STAT_LATEHINT : Field :=
  { id := 423, space := .die, base := 0x7008, lo := 26, w := 1, acc := .w1c }
/-- R526: LH_STAT.KCAL. -/
def LH_STAT_KCAL : Field :=
  { id := 424, space := .die, base := 0x7008, lo := 27, w := 5, acc := .ro, rst := 16 }
/-- R526: LH_VDDL.VSET. -/
def LH_VDDL_VSET : Field :=
  { id := 425, space := .die, base := 0x700c, lo := 0, w := 6, acc := .ro, rst := 10 }
/-- R526: LH_VDDL.BOOST. -/
def LH_VDDL_BOOST : Field :=
  { id := 426, space := .die, base := 0x700c, lo := 6, w := 3, acc := .ro }
/-- R526: LH_VDDL.CRZOFF. -/
def LH_VDDL_CRZOFF : Field :=
  { id := 427, space := .die, base := 0x700c, lo := 9, w := 3, acc := .ro }
/-- R526: LH_VDDL.SENSEOK. -/
def LH_VDDL_SENSEOK : Field :=
  { id := 428, space := .die, base := 0x700c, lo := 12, w := 4, acc := .ro }
/-- R526: LH_VDDL.LOCAL. -/
def LH_VDDL_LOCAL : Field :=
  { id := 429, space := .die, base := 0x700c, lo := 16, w := 1, acc := .ro }
/-- R526: LH_VMAX.VMAX. -/
def LH_VMAX_VMAX : Field :=
  { id := 430, space := .die, base := 0x7018, lo := 0, w := 8, acc := .ro, rst := 34 }
/-- R526: LH_ISL.IEST. -/
def LH_ISL_IEST : Field :=
  { id := 431, space := .die, base := 0x7040, s1 := 4, n1 := 16, lo := 0, w := 10, acc := .ro }
/-- R526: LH_ISL.TEMP. -/
def LH_ISL_TEMP : Field :=
  { id := 432, space := .die, base := 0x7040, s1 := 4, n1 := 16, lo := 10, w := 8, acc := .ro }
/-- R526: LH_ISL.HDR. -/
def LH_ISL_HDR : Field :=
  { id := 433, space := .die, base := 0x7040, s1 := 4, n1 := 16, lo := 18, w := 2, acc := .ro }
/-- R526: LH_ISL.WAIT. -/
def LH_ISL_WAIT : Field :=
  { id := 434, space := .die, base := 0x7040, s1 := 4, n1 := 16, lo := 20, w := 1, acc := .ro }
/-- R526: LH_GPRI.PRIO. -/
def LH_GPRI_PRIO : Field :=
  { id := 435, space := .die, base := 0x7100, s1 := 4, n1 := 64, lo := 0, w := 3, acc := .rwf }
/-- R527: LH_CSTATE.STATE. -/
def LH_CSTATE_STATE : Field :=
  { id := 436, space := .core, base := 0x1400, lo := 0, w := 3, acc := .ro, rst := 3 }
/-- R527: LH_CSTATE.LAST. -/
def LH_CSTATE_LAST : Field :=
  { id := 437, space := .core, base := 0x1400, lo := 3, w := 3, acc := .ro }
/-- R527: LH_CSTATE.GAP. -/
def LH_CSTATE_GAP : Field :=
  { id := 438, space := .core, base := 0x1400, lo := 6, w := 16, acc := .ro }
/-- R527: LH_TDEEP.COUNT. -/
def LH_TDEEP_COUNT : Field :=
  { id := 439, space := .core, base := 0x1410, lo := 0, w := 32, acc := .cnt }
/-- R527: LH_LATE.COUNT. -/
def LH_LATE_COUNT : Field :=
  { id := 440, space := .core, base := 0x1414, lo := 0, w := 32, acc := .cnt }
/-- R527: LH_STAGED.COUNT. -/
def LH_STAGED_COUNT : Field :=
  { id := 441, space := .core, base := 0x1418, lo := 0, w := 32, acc := .cnt }
/-- R528: LH_MCAP.CAP. -/
def LH_MCAP_CAP : Field :=
  { id := 442, space := .hub, base := 0x7000, lo := 0, w := 13, acc := .rw, rst := 5600, range := some (2000, 5600) }
/-- R528: LH_MCAP.WIN. -/
def LH_MCAP_WIN : Field :=
  { id := 443, space := .hub, base := 0x7000, lo := 13, w := 13, acc := .rw, rst := 1000, range := some (500, 4000) }
/-- R528: LH_MSTAT.PIN. -/
def LH_MSTAT_PIN : Field :=
  { id := 444, space := .hub, base := 0x7004, lo := 0, w := 13, acc := .ro }
/-- R528: LH_MSTAT.AVG. -/
def LH_MSTAT_AVG : Field :=
  { id := 445, space := .hub, base := 0x7004, lo := 13, w := 13, acc := .ro }
/-- R528: LH_MSTAT.TRIM. -/
def LH_MSTAT_TRIM : Field :=
  { id := 446, space := .hub, base := 0x7004, lo := 26, w := 1, acc := .ro }
/-- R528: LH_MSTAT.UNMET. -/
def LH_MSTAT_UNMET : Field :=
  { id := 447, space := .hub, base := 0x7004, lo := 27, w := 1, acc := .w1c }
/-- R553: FT_SCAN.COL. -/
def FT_SCAN_COL : Field :=
  { id := 448, space := .die, base := 0x1c0, lo := 0, w := 4, acc := .rw, who := .punty }
/-- R553: FT_SCAN.ROW. -/
def FT_SCAN_ROW : Field :=
  { id := 449, space := .die, base := 0x1c0, lo := 4, w := 3, acc := .rw, who := .punty }
/-- R553: FT_SCAN.START. -/
def FT_SCAN_START : Field :=
  { id := 450, space := .die, base := 0x1c0, lo := 7, w := 1, acc := .wo, who := .punty }
/-- R553: FT_SCAN.BUSY. -/
def FT_SCAN_BUSY : Field :=
  { id := 451, space := .die, base := 0x1c0, lo := 8, w := 1, acc := .ro, who := .punty }
/-- R553: FT_SCAN.RESULT. -/
def FT_SCAN_RESULT : Field :=
  { id := 452, space := .die, base := 0x1c0, lo := 9, w := 2, acc := .ro, who := .punty }
/-- R553: FT_SCAN.PATTERN. -/
def FT_SCAN_PATTERN : Field :=
  { id := 453, space := .die, base := 0x1c0, lo := 11, w := 16, acc := .ro, who := .punty }
/-- R553: FT_GCMD.GATHER. -/
def FT_GCMD_GATHER : Field :=
  { id := 454, space := .die, base := 0x1c4, lo := 0, w := 6, acc := .wo, who := .punty }
/-- R553: FT_GCMD.RECALL. -/
def FT_GCMD_RECALL : Field :=
  { id := 455, space := .die, base := 0x1c4, lo := 6, w := 1, acc := .wo, who := .punty }
/-- R553: FT_GCMD.HOLD. -/
def FT_GCMD_HOLD : Field :=
  { id := 456, space := .die, base := 0x1c4, lo := 7, w := 1, acc := .wo, who := .punty }
/-- R553: FT_GCMD.RELEASE. -/
def FT_GCMD_RELEASE : Field :=
  { id := 457, space := .die, base := 0x1c4, lo := 8, w := 1, acc := .wo, who := .punty }
/-- R553: FT_REFETCH.STREAM. -/
def FT_REFETCH_STREAM : Field :=
  { id := 458, space := .die, base := 0x1d0, lo := 0, w := 15, acc := .wo, who := .punty }
/-- R553: FT_REFETCH.GO. -/
def FT_REFETCH_GO : Field :=
  { id := 459, space := .die, base := 0x1d0, lo := 15, w := 1, acc := .wo, who := .punty }
/-- R553: FT_FBKEY.KIND. -/
def FT_FBKEY_KIND : Field :=
  { id := 460, space := .die, base := 0x1d8, lo := 0, w := 2, acc := .rw, who := .punty }
/-- R553: FT_FBKEY.COL. -/
def FT_FBKEY_COL : Field :=
  { id := 461, space := .die, base := 0x1d8, lo := 2, w := 4, acc := .rw, who := .punty }
/-- R553: FT_FBKEY.ROW. -/
def FT_FBKEY_ROW : Field :=
  { id := 462, space := .die, base := 0x1d8, lo := 6, w := 3, acc := .rw, who := .punty }
/-- R553: FT_FBKEY.DIR. -/
def FT_FBKEY_DIR : Field :=
  { id := 463, space := .die, base := 0x1d8, lo := 9, w := 2, acc := .rw, who := .punty }
/-- R553: FT_FBKEY.WIDTH. -/
def FT_FBKEY_WIDTH : Field :=
  { id := 464, space := .die, base := 0x1d8, lo := 11, w := 2, acc := .rw, who := .punty }
/-- R553: FT_EVCNT.SEEDS. -/
def FT_EVCNT_SEEDS : Field :=
  { id := 465, space := .die, base := 0x1e0, lo := 0, w := 16, acc := .rw, who := .punty }
/-- R553: FT_EVCNT.STONES. -/
def FT_EVCNT_STONES : Field :=
  { id := 466, space := .die, base := 0x1e0, lo := 16, w := 16, acc := .rw, who := .punty }
/-- R553: FT_EVICT.COUNT. -/
def FT_EVICT_COUNT : Field :=
  { id := 467, space := .die, base := 0x1e4, lo := 0, w := 16, acc := .rw, who := .punty }
/-- R555: FT_THR.T. -/
def FT_THR_T : Field :=
  { id := 468, space := .hub, base := 0x9000, s1 := 4, n1 := 9, lo := 0, w := 9, acc := .rw, rsts := [4, 4, 16, 8, 2, 1, 256, 1, 1], who := .fw, range := some (1, 511) }
/-- R555: FT_THR.W_MS. -/
def FT_THR_W_MS : Field :=
  { id := 469, space := .hub, base := 0x9000, s1 := 4, n1 := 9, lo := 9, w := 23, acc := .rw, rsts := [10000, 10000, 1000, 1000, 3600000, 1000, 3600000, 1000, 1000], who := .fw, range := some (1, 8388607) }
/-- R555: FT_LOG.RECORDS. -/
def FT_LOG_RECORDS : Field :=
  { id := 470, space := .hub, base := 0x9040, lo := 0, w := 32, acc := .ro }
/-- R555: FT_DIE.STATE. -/
def FT_DIE_STATE : Field :=
  { id := 471, space := .hub, base := 0x9060, s1 := 4, n1 := 4, lo := 0, w := 3, acc := .ro, who := .fw }
/-- R555: FT_DIE.RESETS. -/
def FT_DIE_RESETS : Field :=
  { id := 472, space := .hub, base := 0x9060, s1 := 4, n1 := 4, lo := 3, w := 8, acc := .ro, who := .fw }
/-- R555: FT_DIE.FAST. -/
def FT_DIE_FAST : Field :=
  { id := 473, space := .hub, base := 0x9060, s1 := 4, n1 := 4, lo := 11, w := 1, acc := .ro, who := .fw }
/-- R555: FT_ROT.INTV. -/
def FT_ROT_INTV : Field :=
  { id := 474, space := .hub, base := 0x9080, lo := 0, w := 16, acc := .rw, rst := 24, who := .fw }
/-- R579: BT_STAT.STAGE. -/
def BT_STAT_STAGE : Field :=
  { id := 475, space := .hub, base := 0xa000, lo := 0, w := 4, acc := .ro, rst := 1 }
/-- R579: BT_STAT.READY. -/
def BT_STAT_READY : Field :=
  { id := 476, space := .hub, base := 0xa000, lo := 4, w := 1, acc := .ro }
/-- R579: BT_STAT.DEGRADED. -/
def BT_STAT_DEGRADED : Field :=
  { id := 477, space := .hub, base := 0xa000, lo := 5, w := 1, acc := .ro }
/-- R579: BT_STAT.PATH. -/
def BT_STAT_PATH : Field :=
  { id := 478, space := .hub, base := 0xa000, lo := 6, w := 2, acc := .ro }
/-- R579: BT_STAT.STACKS_KEPT. -/
def BT_STAT_STACKS_KEPT : Field :=
  { id := 479, space := .hub, base := 0xa000, lo := 8, w := 1, acc := .ro }
/-- R579: BT_STAT.IMAGE. -/
def BT_STAT_IMAGE : Field :=
  { id := 480, space := .hub, base := 0xa000, lo := 9, w := 1, acc := .ro }
/-- R579: BT_STAT.OWNER. -/
def BT_STAT_OWNER : Field :=
  { id := 481, space := .hub, base := 0xa000, lo := 10, w := 2, acc := .ro }
/-- R579: BT_STAT.DEBUG. -/
def BT_STAT_DEBUG : Field :=
  { id := 482, space := .hub, base := 0xa000, lo := 12, w := 1, acc := .ro }
/-- R579: BT_STAT.FAILSTEP. -/
def BT_STAT_FAILSTEP : Field :=
  { id := 483, space := .hub, base := 0xa000, lo := 13, w := 4, acc := .ro }
/-- R579: BT_CMD.WARM. -/
def BT_CMD_WARM : Field :=
  { id := 484, space := .hub, base := 0xa004, lo := 0, w := 1, acc := .wo, who := .mgmt }
/-- R579: BT_CMD.FULL. -/
def BT_CMD_FULL : Field :=
  { id := 485, space := .hub, base := 0xa004, lo := 1, w := 1, acc := .wo, who := .mgmt }
/-- R579: BT_CMD.DIE_RST. -/
def BT_CMD_DIE_RST : Field :=
  { id := 486, space := .hub, base := 0xa004, lo := 2, w := 1, acc := .wo, who := .fw }
/-- R579: BT_CMD.DIE. -/
def BT_CMD_DIE : Field :=
  { id := 487, space := .hub, base := 0xa004, lo := 3, w := 2, acc := .wo, who := .fw }
/-- R579: BT_TIME.MS. -/
def BT_TIME_MS : Field :=
  { id := 488, space := .hub, base := 0xa008, lo := 0, w := 24, acc := .ro }
/-- R579: BT_SVN.FUSED. -/
def BT_SVN_FUSED : Field :=
  { id := 489, space := .hub, base := 0xa010, lo := 0, w := 7, acc := .ro }
/-- R579: BT_SVN.IMAGE. -/
def BT_SVN_IMAGE : Field :=
  { id := 490, space := .hub, base := 0xa010, lo := 16, w := 7, acc := .ro }
/-- R579: BT_MODID.ID. -/
def BT_MODID_ID : Field :=
  { id := 491, space := .hub, base := 0xa020, s1 := 4, n1 := 4, lo := 0, w := 32, acc := .ro }
/-- R579: BT_LIC.STATE. -/
def BT_LIC_STATE : Field :=
  { id := 492, space := .hub, base := 0xa100, s1 := 4, n1 := 32, lo := 0, w := 3, acc := .ro }
/-- R579: BT_LIC.KIND. -/
def BT_LIC_KIND : Field :=
  { id := 493, space := .hub, base := 0xa100, s1 := 4, n1 := 32, lo := 3, w := 3, acc := .ro }
/-- R579: BT_LIC.VALUE. -/
def BT_LIC_VALUE : Field :=
  { id := 494, space := .hub, base := 0xa100, s1 := 4, n1 := 32, lo := 6, w := 7, acc := .ro }
/-- R598: JK_CFG.BAUD. -/
def JK_CFG_BAUD : Field :=
  { id := 495, space := .hub, base := 0xb000, lo := 0, w := 3, acc := .rws, who := .fw }
/-- R598: JK_CFG.ECHO. -/
def JK_CFG_ECHO : Field :=
  { id := 496, space := .hub, base := 0xb000, lo := 3, w := 1, acc := .rws, rst := 1, who := .fw }
/-- R598: JK_STAT.BUSY. -/
def JK_STAT_BUSY : Field :=
  { id := 497, space := .hub, base := 0xb004, lo := 0, w := 1, acc := .ro, who := .fw }
/-- R598: JK_STAT.ROM. -/
def JK_STAT_ROM : Field :=
  { id := 498, space := .hub, base := 0xb004, lo := 1, w := 1, acc := .ro, who := .fw }
/-- R598: JK_STAT.OVERRUN. -/
def JK_STAT_OVERRUN : Field :=
  { id := 499, space := .hub, base := 0xb004, lo := 16, w := 16, acc := .rw, who := .fw }
/-- R598: JK_CMDS.COUNT. -/
def JK_CMDS_COUNT : Field :=
  { id := 500, space := .hub, base := 0xb008, lo := 0, w := 32, acc := .rw, who := .fw }
/-- R598: HB_MGMT.EID_I3C. -/
def HB_MGMT_EID_I3C : Field :=
  { id := 501, space := .hub, base := 0xb100, lo := 0, w := 8, acc := .ro }
/-- R598: HB_MGMT.EID_VDM. -/
def HB_MGMT_EID_VDM : Field :=
  { id := 502, space := .hub, base := 0xb100, lo := 8, w := 8, acc := .ro }
/-- R598: HB_MGMT.DADDR. -/
def HB_MGMT_DADDR : Field :=
  { id := 503, space := .hub, base := 0xb100, lo := 16, w := 7, acc := .ro }
/-- R598: HB_MGMT.DROPS. -/
def HB_MGMT_DROPS : Field :=
  { id := 504, space := .hub, base := 0xb100, lo := 24, w := 8, acc := .rw }
/-- R39: FT_LMAP.PCOL0. -/
def FT_LMAP_PCOL0 : Field :=
  { id := 505, space := .die, base := 0x140, s1 := 4, n1 := 8, lo := 0, w := 4, acc := .ro }
/-- R39: FT_LMAP.PCOL1. -/
def FT_LMAP_PCOL1 : Field :=
  { id := 506, space := .die, base := 0x140, s1 := 4, n1 := 8, lo := 4, w := 4, acc := .ro, rst := 1 }
/-- R39: FT_LMAP.PCOL2. -/
def FT_LMAP_PCOL2 : Field :=
  { id := 507, space := .die, base := 0x140, s1 := 4, n1 := 8, lo := 8, w := 4, acc := .ro, rst := 2 }
/-- R39: FT_LMAP.PCOL3. -/
def FT_LMAP_PCOL3 : Field :=
  { id := 508, space := .die, base := 0x140, s1 := 4, n1 := 8, lo := 12, w := 4, acc := .ro, rst := 3 }
/-- R39: FT_LMAP.PCOL4. -/
def FT_LMAP_PCOL4 : Field :=
  { id := 509, space := .die, base := 0x140, s1 := 4, n1 := 8, lo := 16, w := 4, acc := .ro, rst := 4 }
/-- R39: FT_LMAP.PCOL5. -/
def FT_LMAP_PCOL5 : Field :=
  { id := 510, space := .die, base := 0x140, s1 := 4, n1 := 8, lo := 20, w := 4, acc := .ro, rst := 5 }
/-- R39: FT_LMAP.PCOL6. -/
def FT_LMAP_PCOL6 : Field :=
  { id := 511, space := .die, base := 0x140, s1 := 4, n1 := 8, lo := 24, w := 4, acc := .ro, rst := 6 }
/-- R39: FT_LMAP.PCOL7. -/
def FT_LMAP_PCOL7 : Field :=
  { id := 512, space := .die, base := 0x140, s1 := 4, n1 := 8, lo := 28, w := 4, acc := .ro, rst := 7 }
/-- R553: FT_PSTAT.STATE0. -/
def FT_PSTAT_STATE0 : Field :=
  { id := 513, space := .die, base := 0x180, s1 := 4, n1 := 8, lo := 0, w := 3, acc := .ro, who := .punty }
/-- R553: FT_PSTAT.STATE1. -/
def FT_PSTAT_STATE1 : Field :=
  { id := 514, space := .die, base := 0x180, s1 := 4, n1 := 8, lo := 3, w := 3, acc := .ro, who := .punty }
/-- R553: FT_PSTAT.STATE2. -/
def FT_PSTAT_STATE2 : Field :=
  { id := 515, space := .die, base := 0x180, s1 := 4, n1 := 8, lo := 6, w := 3, acc := .ro, who := .punty }
/-- R553: FT_PSTAT.STATE3. -/
def FT_PSTAT_STATE3 : Field :=
  { id := 516, space := .die, base := 0x180, s1 := 4, n1 := 8, lo := 9, w := 3, acc := .ro, who := .punty }
/-- R553: FT_PSTAT.STATE4. -/
def FT_PSTAT_STATE4 : Field :=
  { id := 517, space := .die, base := 0x180, s1 := 4, n1 := 8, lo := 12, w := 3, acc := .ro, who := .punty }
/-- R553: FT_PSTAT.STATE5. -/
def FT_PSTAT_STATE5 : Field :=
  { id := 518, space := .die, base := 0x180, s1 := 4, n1 := 8, lo := 15, w := 3, acc := .ro, who := .punty }
/-- R553: FT_PSTAT.STATE6. -/
def FT_PSTAT_STATE6 : Field :=
  { id := 519, space := .die, base := 0x180, s1 := 4, n1 := 8, lo := 18, w := 3, acc := .ro, who := .punty }
/-- R553: FT_PSTAT.STATE7. -/
def FT_PSTAT_STATE7 : Field :=
  { id := 520, space := .die, base := 0x180, s1 := 4, n1 := 8, lo := 21, w := 3, acc := .ro, who := .punty }
/-- R553: FT_PSTAT.STATE8. -/
def FT_PSTAT_STATE8 : Field :=
  { id := 521, space := .die, base := 0x180, s1 := 4, n1 := 8, lo := 24, w := 3, acc := .ro, rst := 1, who := .punty }
/-- R553: FT_PSTAT.STATE9. -/
def FT_PSTAT_STATE9 : Field :=
  { id := 522, space := .die, base := 0x180, s1 := 4, n1 := 8, lo := 27, w := 3, acc := .ro, rst := 1, who := .punty }
/-- R221: CS_TRAPIW.WORD. -/
def CS_TRAPIW_WORD : Field :=
  { id := 523, space := .core, base := 0x28, s1 := 4, n1 := 2, lo := 0, w := 32, acc := .ro }
/-- R67: CS_CYCLE.COUNT. -/
def CS_CYCLE_COUNT : Field :=
  { id := 524, space := .core, base := 0x10, s1 := 4, n1 := 2, lo := 0, w := 32, acc := .ro }
/-- R67: DN_CYCLE.COUNT. -/
def DN_CYCLE_COUNT : Field :=
  { id := 525, space := .core, base := 0x18, s1 := 4, n1 := 2, lo := 0, w := 32, acc := .ro }
/-- R222: CS_SREG.VALUE. -/
def CS_SREG_VALUE : Field :=
  { id := 526, space := .core, base := 0x200, s1 := 4, n1 := 32, lo := 0, w := 32, acc := .rw, who := .punty }
/-- R222: CS_AREG.LO. -/
def CS_AREG_LO : Field :=
  { id := 527, space := .core, base := 0x280, s1 := 8, n1 := 16, lo := 0, w := 32, acc := .rw, who := .punty }
/-- R222: CS_AREG.HI. -/
def CS_AREG_HI : Field :=
  { id := 528, space := .core, base := 0x284, s1 := 8, n1 := 16, lo := 0, w := 32, acc := .rw, who := .punty }
/-- R264: CP_BSLOT.LO. -/
def CP_BSLOT_LO : Field :=
  { id := 529, space := .core, base := 0xe80, s1 := 8, n1 := 16, lo := 0, w := 32, acc := .rwf }
/-- R264: CP_BSLOT.HI. -/
def CP_BSLOT_HI : Field :=
  { id := 530, space := .core, base := 0xe84, s1 := 8, n1 := 16, lo := 0, w := 32, acc := .rwf }
/-- R266: CP_RCRNG.BASE_LO. -/
def CP_RCRNG_BASE_LO : Field :=
  { id := 531, space := .core, base := 0xf80, s1 := 16, n1 := 4, lo := 0, w := 32, acc := .rwf }
/-- R266: CP_RCRNG.BASE_HI. -/
def CP_RCRNG_BASE_HI : Field :=
  { id := 532, space := .core, base := 0xf84, s1 := 16, n1 := 4, lo := 0, w := 20, acc := .rwf }
/-- R266: CP_RCRNG.LIMIT_LO. -/
def CP_RCRNG_LIMIT_LO : Field :=
  { id := 533, space := .core, base := 0xf88, s1 := 16, n1 := 4, lo := 0, w := 32, acc := .rwf }
/-- R266: CP_RCRNG.LIMIT_HI. -/
def CP_RCRNG_LIMIT_HI : Field :=
  { id := 534, space := .core, base := 0xf8c, s1 := 16, n1 := 4, lo := 0, w := 20, acc := .rwf }
/-- R303: DN_TAB.STREAM. -/
def DN_TAB_STREAM : Field :=
  { id := 535, space := .core, base := 0x100000, s1 := 262144, n1 := 2, s2 := 4, n2 := 36864, lo := 0, w := 15, acc := .rwf }
/-- R303: DN_TAB.V. -/
def DN_TAB_V : Field :=
  { id := 536, space := .core, base := 0x100000, s1 := 262144, n1 := 2, s2 := 4, n2 := 36864, lo := 15, w := 1, acc := .rwf }
/-- R303: DN_TAB.IN. -/
def DN_TAB_IN : Field :=
  { id := 537, space := .core, base := 0x100000, s1 := 262144, n1 := 2, s2 := 4, n2 := 36864, lo := 16, w := 4, acc := .rwf }
/-- R303: DN_TAB.FOLD. -/
def DN_TAB_FOLD : Field :=
  { id := 538, space := .core, base := 0x100000, s1 := 262144, n1 := 2, s2 := 4, n2 := 36864, lo := 20, w := 1, acc := .rwf }
/-- R303: DN_TAB.IN2. -/
def DN_TAB_IN2 : Field :=
  { id := 539, space := .core, base := 0x100000, s1 := 262144, n1 := 2, s2 := 4, n2 := 36864, lo := 21, w := 4, acc := .rwf }
/-- R303: DN_TAB.ALT. -/
def DN_TAB_ALT : Field :=
  { id := 540, space := .core, base := 0x100000, s1 := 262144, n1 := 2, s2 := 4, n2 := 36864, lo := 25, w := 1, acc := .rwf }
/-- R305: DN_DESC.TRIG. -/
def DN_DESC_TRIG : Field :=
  { id := 541, space := .die, base := 0x100000, s1 := 32, n1 := 32768, lo := 0, w := 1, acc := .rwf }
/-- R305: DN_DESC.INDEXED. -/
def DN_DESC_INDEXED : Field :=
  { id := 542, space := .die, base := 0x100000, s1 := 32, n1 := 32768, lo := 1, w := 1, acc := .rwf }
/-- R305: DN_DESC.IDXSIDE. -/
def DN_DESC_IDXSIDE : Field :=
  { id := 543, space := .die, base := 0x100000, s1 := 32, n1 := 32768, lo := 2, w := 1, acc := .rwf }
/-- R305: DN_DESC.RCACHE. -/
def DN_DESC_RCACHE : Field :=
  { id := 544, space := .die, base := 0x100000, s1 := 32, n1 := 32768, lo := 3, w := 1, acc := .rwf }
/-- R305: DN_DESC.FOLD. -/
def DN_DESC_FOLD : Field :=
  { id := 545, space := .die, base := 0x100000, s1 := 32, n1 := 32768, lo := 4, w := 1, acc := .rwf }
/-- R305: DN_DESC.FFMT. -/
def DN_DESC_FFMT : Field :=
  { id := 546, space := .die, base := 0x100000, s1 := 32, n1 := 32768, lo := 5, w := 1, acc := .rwf }
/-- R305: DN_DESC.FFORM. -/
def DN_DESC_FFORM : Field :=
  { id := 547, space := .die, base := 0x100000, s1 := 32, n1 := 32768, lo := 6, w := 1, acc := .rwf }
/-- R305: DN_DESC.VALID. -/
def DN_DESC_VALID : Field :=
  { id := 548, space := .die, base := 0x100000, s1 := 32, n1 := 32768, lo := 7, w := 1, acc := .rwf }
/-- R305: DN_DESC.OWNER. -/
def DN_DESC_OWNER : Field :=
  { id := 549, space := .die, base := 0x100000, s1 := 32, n1 := 32768, lo := 8, w := 6, acc := .rwf }
/-- R305: DN_DESC.SRCK. -/
def DN_DESC_SRCK : Field :=
  { id := 550, space := .die, base := 0x100000, s1 := 32, n1 := 32768, lo := 16, w := 4, acc := .rwf }
/-- R305: DN_DESC.DSTK. -/
def DN_DESC_DSTK : Field :=
  { id := 551, space := .die, base := 0x100000, s1 := 32, n1 := 32768, lo := 20, w := 4, acc := .rwf }
/-- R305: DN_DESC.RANK. -/
def DN_DESC_RANK : Field :=
  { id := 552, space := .die, base := 0x100000, s1 := 32, n1 := 32768, lo := 24, w := 8, acc := .rwf }
/-- R305: DN_DESC.SRC_LO. -/
def DN_DESC_SRC_LO : Field :=
  { id := 553, space := .die, base := 0x100004, s1 := 32, n1 := 32768, lo := 0, w := 32, acc := .rwf }
/-- R305: DN_DESC.SRC_HI. -/
def DN_DESC_SRC_HI : Field :=
  { id := 554, space := .die, base := 0x100008, s1 := 32, n1 := 32768, lo := 0, w := 20, acc := .rwf }
/-- R305: DN_DESC.ROWLEN. -/
def DN_DESC_ROWLEN : Field :=
  { id := 555, space := .die, base := 0x100008, s1 := 32, n1 := 32768, lo := 20, w := 12, acc := .rwf }
/-- R305: DN_DESC.DST_LO. -/
def DN_DESC_DST_LO : Field :=
  { id := 556, space := .die, base := 0x10000c, s1 := 32, n1 := 32768, lo := 0, w := 32, acc := .rwf }
/-- R305: DN_DESC.DST_HI. -/
def DN_DESC_DST_HI : Field :=
  { id := 557, space := .die, base := 0x100010, s1 := 32, n1 := 32768, lo := 0, w := 20, acc := .rwf }
/-- R305: DN_DESC.CREDIT. -/
def DN_DESC_CREDIT : Field :=
  { id := 558, space := .die, base := 0x100010, s1 := 32, n1 := 32768, lo := 20, w := 12, acc := .rwf }
/-- R305: DN_DESC.ROWS. -/
def DN_DESC_ROWS : Field :=
  { id := 559, space := .die, base := 0x100014, s1 := 32, n1 := 32768, lo := 0, w := 16, acc := .rwf }
/-- R305: DN_DESC.IDXBLK. -/
def DN_DESC_IDXBLK : Field :=
  { id := 560, space := .die, base := 0x100014, s1 := 32, n1 := 32768, lo := 16, w := 16, acc := .rwf }
/-- R305: DN_DESC.SSTRIDE. -/
def DN_DESC_SSTRIDE : Field :=
  { id := 561, space := .die, base := 0x100018, s1 := 32, n1 := 32768, lo := 0, w := 16, acc := .rwf }
/-- R305: DN_DESC.DSTRIDE. -/
def DN_DESC_DSTRIDE : Field :=
  { id := 562, space := .die, base := 0x100018, s1 := 32, n1 := 32768, lo := 16, w := 16, acc := .rwf }
/-- R305: DN_DESC.PEER. -/
def DN_DESC_PEER : Field :=
  { id := 563, space := .die, base := 0x10001c, s1 := 32, n1 := 32768, lo := 0, w := 15, acc := .rwf }
/-- R305: DN_DESC.START. -/
def DN_DESC_START : Field :=
  { id := 564, space := .die, base := 0x10001c, s1 := 32, n1 := 32768, lo := 15, w := 12, acc := .rwf }
/-- R286: DN_SSTAT.RUNS. -/
def DN_SSTAT_RUNS : Field :=
  { id := 565, space := .die, base := 0x200000, s1 := 4, n1 := 32768, lo := 0, w := 16, acc := .ro }
/-- R286: DN_SSTAT.ACTIVE. -/
def DN_SSTAT_ACTIVE : Field :=
  { id := 566, space := .die, base := 0x200000, s1 := 4, n1 := 32768, lo := 16, w := 1, acc := .ro }
/-- R286: DN_SSTAT.CREDIT0. -/
def DN_SSTAT_CREDIT0 : Field :=
  { id := 567, space := .die, base := 0x200000, s1 := 4, n1 := 32768, lo := 17, w := 1, acc := .ro }
/-- R286: DN_SSTAT.GATED. -/
def DN_SSTAT_GATED : Field :=
  { id := 568, space := .die, base := 0x200000, s1 := 4, n1 := 32768, lo := 18, w := 1, acc := .ro }
/-- R286: DN_SSTAT.STALLED. -/
def DN_SSTAT_STALLED : Field :=
  { id := 569, space := .die, base := 0x200000, s1 := 4, n1 := 32768, lo := 19, w := 1, acc := .ro }
/-- R286: DN_SSTAT.FAULT. -/
def DN_SSTAT_FAULT : Field :=
  { id := 570, space := .die, base := 0x200000, s1 := 4, n1 := 32768, lo := 20, w := 1, acc := .ro }
/-- R286: DN_SSTAT.STOPPED. -/
def DN_SSTAT_STOPPED : Field :=
  { id := 571, space := .die, base := 0x200000, s1 := 4, n1 := 32768, lo := 21, w := 1, acc := .ro }
/-- R286: DN_SSTAT.PENDING. -/
def DN_SSTAT_PENDING : Field :=
  { id := 572, space := .die, base := 0x200000, s1 := 4, n1 := 32768, lo := 22, w := 1, acc := .ro }
/-- R332: SY_ARR.LO. -/
def SY_ARR_LO : Field :=
  { id := 573, space := .die, base := 0x5800, s1 := 8, n1 := 64, lo := 0, w := 32, acc := .ro }
/-- R332: SY_ARR.HI. -/
def SY_ARR_HI : Field :=
  { id := 574, space := .die, base := 0x5804, s1 := 8, n1 := 64, lo := 0, w := 32, acc := .ro }
/-- R391: PZ_HSRC.LO. -/
def PZ_HSRC_LO : Field :=
  { id := 575, space := .hub, base := 0x1000, lo := 0, w := 32, acc := .rw, who := .hostfw }
/-- R391: PZ_HSRC.HI. -/
def PZ_HSRC_HI : Field :=
  { id := 576, space := .hub, base := 0x1004, lo := 0, w := 20, acc := .rw, who := .hostfw }
/-- R391: PZ_IMGID.ID. -/
def PZ_IMGID_ID : Field :=
  { id := 577, space := .hub, base := 0x1040, s1 := 4, n1 := 2, lo := 0, w := 32, acc := .ro }
/-- R391: PZ_STEP.STEP. -/
def PZ_STEP_STEP : Field :=
  { id := 578, space := .hub, base := 0x1050, s1 := 4, n1 := 2, lo := 0, w := 32, acc := .ro }
/-- R392: PZ_GATHER.R0. -/
def PZ_GATHER_R0 : Field :=
  { id := 579, space := .die, base := 0x3600, s1 := 16, n1 := 64, lo := 0, w := 3, acc := .rwf }
/-- R392: PZ_GATHER.C0. -/
def PZ_GATHER_C0 : Field :=
  { id := 580, space := .die, base := 0x3600, s1 := 16, n1 := 64, lo := 3, w := 3, acc := .rwf }
/-- R392: PZ_GATHER.R1. -/
def PZ_GATHER_R1 : Field :=
  { id := 581, space := .die, base := 0x3600, s1 := 16, n1 := 64, lo := 6, w := 3, acc := .rwf }
/-- R392: PZ_GATHER.C1. -/
def PZ_GATHER_C1 : Field :=
  { id := 582, space := .die, base := 0x3600, s1 := 16, n1 := 64, lo := 9, w := 3, acc := .rwf }
/-- R393: PZ_PHASE.LO. -/
def PZ_PHASE_LO : Field :=
  { id := 583, space := .core, base := 0x4000, s1 := 8, n1 := 256, lo := 0, w := 32, acc := .rwf }
/-- R393: PZ_PHASE.HI. -/
def PZ_PHASE_HI : Field :=
  { id := 584, space := .core, base := 0x4004, s1 := 8, n1 := 256, lo := 0, w := 24, acc := .rwf }
/-- R394: PZ_PHREC.LAYER. -/
def PZ_PHREC_LAYER : Field :=
  { id := 585, space := .die, base := 0x300000, s1 := 8192, n1 := 64, s2 := 32, n2 := 256, lo := 0, w := 16, acc := .rwf }
/-- R394: PZ_PHREC.NDEP. -/
def PZ_PHREC_NDEP : Field :=
  { id := 586, space := .die, base := 0x300000, s1 := 8192, n1 := 64, s2 := 32, n2 := 256, lo := 16, w := 4, acc := .rwf }
/-- R394: PZ_PHREC.DEP0. -/
def PZ_PHREC_DEP0 : Field :=
  { id := 587, space := .die, base := 0x300004, s1 := 8192, n1 := 64, s2 := 32, n2 := 256, lo := 0, w := 16, acc := .rwf }
/-- R394: PZ_PHREC.DEP1. -/
def PZ_PHREC_DEP1 : Field :=
  { id := 588, space := .die, base := 0x300004, s1 := 8192, n1 := 64, s2 := 32, n2 := 256, lo := 16, w := 16, acc := .rwf }
/-- R394: PZ_PHREC.DEP2. -/
def PZ_PHREC_DEP2 : Field :=
  { id := 589, space := .die, base := 0x300008, s1 := 8192, n1 := 64, s2 := 32, n2 := 256, lo := 0, w := 16, acc := .rwf }
/-- R394: PZ_PHREC.DEP3. -/
def PZ_PHREC_DEP3 : Field :=
  { id := 590, space := .die, base := 0x300008, s1 := 8192, n1 := 64, s2 := 32, n2 := 256, lo := 16, w := 16, acc := .rwf }
/-- R394: PZ_PHREC.DEP4. -/
def PZ_PHREC_DEP4 : Field :=
  { id := 591, space := .die, base := 0x30000c, s1 := 8192, n1 := 64, s2 := 32, n2 := 256, lo := 0, w := 16, acc := .rwf }
/-- R394: PZ_PHREC.DEP5. -/
def PZ_PHREC_DEP5 : Field :=
  { id := 592, space := .die, base := 0x30000c, s1 := 8192, n1 := 64, s2 := 32, n2 := 256, lo := 16, w := 16, acc := .rwf }
/-- R394: PZ_PHREC.DEP6. -/
def PZ_PHREC_DEP6 : Field :=
  { id := 593, space := .die, base := 0x300010, s1 := 8192, n1 := 64, s2 := 32, n2 := 256, lo := 0, w := 16, acc := .rwf }
/-- R394: PZ_PHREC.DEP7. -/
def PZ_PHREC_DEP7 : Field :=
  { id := 594, space := .die, base := 0x300010, s1 := 8192, n1 := 64, s2 := 32, n2 := 256, lo := 16, w := 16, acc := .rwf }
/-- R427: LK_PEER.ID. -/
def LK_PEER_ID : Field :=
  { id := 595, space := .die, base := 0x6070, s1 := 256, n1 := 9, s2 := 4, n2 := 4, lo := 0, w := 32, acc := .rw }
/-- R427: LKH_PEER.ID. -/
def LKH_PEER_ID : Field :=
  { id := 596, space := .hub, base := 0x6070, s1 := 256, n1 := 16, s2 := 4, n2 := 4, lo := 0, w := 32, acc := .rw }
/-- R428: LK_TAB.STREAM0. -/
def LK_TAB_STREAM0 : Field :=
  { id := 597, space := .die, base := 0x400000, s1 := 131072, n1 := 9, s2 := 8, n2 := 16384, lo := 0, w := 15, acc := .rwf }
/-- R428: LK_TAB.V0. -/
def LK_TAB_V0 : Field :=
  { id := 598, space := .die, base := 0x400000, s1 := 131072, n1 := 9, s2 := 8, n2 := 16384, lo := 15, w := 1, acc := .rwf }
/-- R428: LK_TAB.STREAM1. -/
def LK_TAB_STREAM1 : Field :=
  { id := 599, space := .die, base := 0x400000, s1 := 131072, n1 := 9, s2 := 8, n2 := 16384, lo := 16, w := 15, acc := .rwf }
/-- R428: LK_TAB.V1. -/
def LK_TAB_V1 : Field :=
  { id := 600, space := .die, base := 0x400000, s1 := 131072, n1 := 9, s2 := 8, n2 := 16384, lo := 31, w := 1, acc := .rwf }
/-- R428: LK_TAB.STREAM2. -/
def LK_TAB_STREAM2 : Field :=
  { id := 601, space := .die, base := 0x400004, s1 := 131072, n1 := 9, s2 := 8, n2 := 16384, lo := 0, w := 15, acc := .rwf }
/-- R428: LK_TAB.V2. -/
def LK_TAB_V2 : Field :=
  { id := 602, space := .die, base := 0x400004, s1 := 131072, n1 := 9, s2 := 8, n2 := 16384, lo := 15, w := 1, acc := .rwf }
/-- R428: LK_TAB.STREAM3. -/
def LK_TAB_STREAM3 : Field :=
  { id := 603, space := .die, base := 0x400004, s1 := 131072, n1 := 9, s2 := 8, n2 := 16384, lo := 16, w := 15, acc := .rwf }
/-- R428: LK_TAB.V3. -/
def LK_TAB_V3 : Field :=
  { id := 604, space := .die, base := 0x400004, s1 := 131072, n1 := 9, s2 := 8, n2 := 16384, lo := 31, w := 1, acc := .rwf }
/-- R428: LKH_TAB.STREAM0. -/
def LKH_TAB_STREAM0 : Field :=
  { id := 605, space := .hub, base := 0x400000, s1 := 131072, n1 := 4, s2 := 8, n2 := 16384, lo := 0, w := 15, acc := .rwf }
/-- R428: LKH_TAB.V0. -/
def LKH_TAB_V0 : Field :=
  { id := 606, space := .hub, base := 0x400000, s1 := 131072, n1 := 4, s2 := 8, n2 := 16384, lo := 15, w := 1, acc := .rwf }
/-- R428: LKH_TAB.STREAM1. -/
def LKH_TAB_STREAM1 : Field :=
  { id := 607, space := .hub, base := 0x400000, s1 := 131072, n1 := 4, s2 := 8, n2 := 16384, lo := 16, w := 15, acc := .rwf }
/-- R428: LKH_TAB.V1. -/
def LKH_TAB_V1 : Field :=
  { id := 608, space := .hub, base := 0x400000, s1 := 131072, n1 := 4, s2 := 8, n2 := 16384, lo := 31, w := 1, acc := .rwf }
/-- R428: LKH_TAB.STREAM2. -/
def LKH_TAB_STREAM2 : Field :=
  { id := 609, space := .hub, base := 0x400004, s1 := 131072, n1 := 4, s2 := 8, n2 := 16384, lo := 0, w := 15, acc := .rwf }
/-- R428: LKH_TAB.V2. -/
def LKH_TAB_V2 : Field :=
  { id := 610, space := .hub, base := 0x400004, s1 := 131072, n1 := 4, s2 := 8, n2 := 16384, lo := 15, w := 1, acc := .rwf }
/-- R428: LKH_TAB.STREAM3. -/
def LKH_TAB_STREAM3 : Field :=
  { id := 611, space := .hub, base := 0x400004, s1 := 131072, n1 := 4, s2 := 8, n2 := 16384, lo := 16, w := 15, acc := .rwf }
/-- R428: LKH_TAB.V3. -/
def LKH_TAB_V3 : Field :=
  { id := 612, space := .hub, base := 0x400004, s1 := 131072, n1 := 4, s2 := 8, n2 := 16384, lo := 31, w := 1, acc := .rwf }
/-- R428: SPMAP.LSTREAM. -/
def SPMAP_LSTREAM : Field :=
  { id := 613, space := .hub, base := 0x500000, s1 := 8192, n1 := 8, s2 := 8, n2 := 1024, lo := 0, w := 15, acc := .rwf }
/-- R428: SPMAP.LDIE. -/
def SPMAP_LDIE : Field :=
  { id := 614, space := .hub, base := 0x500000, s1 := 8192, n1 := 8, s2 := 8, n2 := 1024, lo := 15, w := 2, acc := .rwf }
/-- R428: SPMAP.DIR. -/
def SPMAP_DIR : Field :=
  { id := 615, space := .hub, base := 0x500000, s1 := 8192, n1 := 8, s2 := 8, n2 := 1024, lo := 17, w := 1, acc := .rwf }
/-- R428: SPMAP.V. -/
def SPMAP_V : Field :=
  { id := 616, space := .hub, base := 0x500000, s1 := 8192, n1 := 8, s2 := 8, n2 := 1024, lo := 18, w := 1, acc := .rwf }
/-- R428: SPMAP.RSTREAM. -/
def SPMAP_RSTREAM : Field :=
  { id := 617, space := .hub, base := 0x500004, s1 := 8192, n1 := 8, s2 := 8, n2 := 1024, lo := 0, w := 15, acc := .rwf }
/-- R428: SPMAP.RDIE. -/
def SPMAP_RDIE : Field :=
  { id := 618, space := .hub, base := 0x500004, s1 := 8192, n1 := 8, s2 := 8, n2 := 1024, lo := 15, w := 2, acc := .rwf }
/-- R460: TS_ECCLOG.LO. -/
def TS_ECCLOG_LO : Field :=
  { id := 619, space := .die, base := 0x800034, s1 := 262144, n1 := 4, lo := 0, w := 32, acc := .ro }
/-- R460: TS_ECCLOG.HI. -/
def TS_ECCLOG_HI : Field :=
  { id := 620, space := .die, base := 0x800038, s1 := 262144, n1 := 4, lo := 0, w := 4, acc := .ro }
/-- R462: TS_NPART.SW. -/
def TS_NPART_SW : Field :=
  { id := 621, space := .die, base := 0x800100, s1 := 262144, n1 := 4, s2 := 8, n2 := 16, lo := 0, w := 32, acc := .rw }
/-- R462: TS_NPART.SU. -/
def TS_NPART_SU : Field :=
  { id := 622, space := .die, base := 0x800104, s1 := 262144, n1 := 4, s2 := 8, n2 := 16, lo := 0, w := 32, acc := .rw }
/-- R464: TS_LAYER.WBASE_LO. -/
def TS_LAYER_WBASE_LO : Field :=
  { id := 623, space := .die, base := 0x820010, s1 := 262144, n1 := 4, s2 := 128, n2 := 1024, lo := 0, w := 32, acc := .rwf }
/-- R464: TS_LAYER.WBASE_HI. -/
def TS_LAYER_WBASE_HI : Field :=
  { id := 624, space := .die, base := 0x820014, s1 := 262144, n1 := 4, s2 := 128, n2 := 1024, lo := 0, w := 4, acc := .rwf }
/-- R464: TS_LAYER.MBASE_LO. -/
def TS_LAYER_MBASE_LO : Field :=
  { id := 625, space := .die, base := 0x820018, s1 := 262144, n1 := 4, s2 := 128, n2 := 1024, lo := 0, w := 32, acc := .rwf }
/-- R464: TS_LAYER.MBASE_HI. -/
def TS_LAYER_MBASE_HI : Field :=
  { id := 626, space := .die, base := 0x82001c, s1 := 262144, n1 := 4, s2 := 128, n2 := 1024, lo := 0, w := 4, acc := .rwf }
/-- R464: TS_LAYER.VBASE_LO. -/
def TS_LAYER_VBASE_LO : Field :=
  { id := 627, space := .die, base := 0x820020, s1 := 262144, n1 := 4, s2 := 128, n2 := 1024, lo := 0, w := 32, acc := .rwf }
/-- R464: TS_LAYER.VBASE_HI. -/
def TS_LAYER_VBASE_HI : Field :=
  { id := 628, space := .die, base := 0x820024, s1 := 262144, n1 := 4, s2 := 128, n2 := 1024, lo := 0, w := 4, acc := .rwf }
/-- R464: TS_LAYER.CBASE_LO. -/
def TS_LAYER_CBASE_LO : Field :=
  { id := 629, space := .die, base := 0x820028, s1 := 262144, n1 := 4, s2 := 128, n2 := 1024, lo := 0, w := 32, acc := .rwf }
/-- R464: TS_LAYER.CBASE_HI. -/
def TS_LAYER_CBASE_HI : Field :=
  { id := 630, space := .die, base := 0x82002c, s1 := 262144, n1 := 4, s2 := 128, n2 := 1024, lo := 0, w := 4, acc := .rwf }
/-- R464: TS_LAYER.GBASE_LO. -/
def TS_LAYER_GBASE_LO : Field :=
  { id := 631, space := .die, base := 0x820030, s1 := 262144, n1 := 4, s2 := 128, n2 := 1024, lo := 0, w := 32, acc := .rwf }
/-- R464: TS_LAYER.GBASE_HI. -/
def TS_LAYER_GBASE_HI : Field :=
  { id := 632, space := .die, base := 0x820034, s1 := 262144, n1 := 4, s2 := 128, n2 := 1024, lo := 0, w := 4, acc := .rwf }
/-- R497: HB_HRANGE.BASE_LO. -/
def HB_HRANGE_BASE_LO : Field :=
  { id := 633, space := .hub, base := 0x200, s1 := 16, n1 := 8, lo := 0, w := 32, acc := .rw }
/-- R497: HB_HRANGE.BASE_HI. -/
def HB_HRANGE_BASE_HI : Field :=
  { id := 634, space := .hub, base := 0x204, s1 := 16, n1 := 8, lo := 0, w := 16, acc := .rw }
/-- R497: HB_HRANGE.LIMIT_LO. -/
def HB_HRANGE_LIMIT_LO : Field :=
  { id := 635, space := .hub, base := 0x208, s1 := 16, n1 := 8, lo := 0, w := 32, acc := .rw }
/-- R497: HB_HRANGE.LIMIT_HI. -/
def HB_HRANGE_LIMIT_HI : Field :=
  { id := 636, space := .hub, base := 0x20c, s1 := 16, n1 := 8, lo := 0, w := 16, acc := .rw }
/-- R498: HB_SLOT.SQBASE_LO. -/
def HB_SLOT_SQBASE_LO : Field :=
  { id := 637, space := .hub, base := 0x2000, s1 := 64, n1 := 64, lo := 0, w := 32, acc := .rw }
/-- R498: HB_SLOT.SQBASE_HI. -/
def HB_SLOT_SQBASE_HI : Field :=
  { id := 638, space := .hub, base := 0x2004, s1 := 64, n1 := 64, lo := 0, w := 32, acc := .rw }
/-- R498: HB_SLOT.CQBASE_LO. -/
def HB_SLOT_CQBASE_LO : Field :=
  { id := 639, space := .hub, base := 0x2008, s1 := 64, n1 := 64, lo := 0, w := 32, acc := .rw }
/-- R498: HB_SLOT.CQBASE_HI. -/
def HB_SLOT_CQBASE_HI : Field :=
  { id := 640, space := .hub, base := 0x200c, s1 := 64, n1 := 64, lo := 0, w := 32, acc := .rw }
/-- R499: HB_MB.WORD. -/
def HB_MB_WORD : Field :=
  { id := 641, space := .hub, base := 0x10000, s1 := 1024, n1 := 16, s2 := 4, n2 := 256, lo := 0, w := 32, acc := .rw, who := .corefw }
/-- R526: LH_VSENSE.SENSE0. -/
def LH_VSENSE_SENSE0 : Field :=
  { id := 642, space := .die, base := 0x7010, lo := 0, w := 8, acc := .ro }
/-- R526: LH_VSENSE.SENSE1. -/
def LH_VSENSE_SENSE1 : Field :=
  { id := 643, space := .die, base := 0x7010, lo := 8, w := 8, acc := .ro }
/-- R526: LH_VSENSE.SENSE2. -/
def LH_VSENSE_SENSE2 : Field :=
  { id := 644, space := .die, base := 0x7010, lo := 16, w := 8, acc := .ro }
/-- R526: LH_VSENSE.SENSE3. -/
def LH_VSENSE_SENSE3 : Field :=
  { id := 645, space := .die, base := 0x7010, lo := 24, w := 8, acc := .ro }
/-- R526: LH_VMIN.VMIN0. -/
def LH_VMIN_VMIN0 : Field :=
  { id := 646, space := .die, base := 0x7014, lo := 0, w := 8, acc := .ro, rst := 26 }
/-- R526: LH_VMIN.VMIN1. -/
def LH_VMIN_VMIN1 : Field :=
  { id := 647, space := .die, base := 0x7014, lo := 8, w := 8, acc := .ro, rst := 15 }
/-- R526: LH_VMIN.VMIN2. -/
def LH_VMIN_VMIN2 : Field :=
  { id := 648, space := .die, base := 0x7014, lo := 16, w := 8, acc := .ro, rst := 8 }
/-- R526: LH_VMIN.VMIN3. -/
def LH_VMIN_VMIN3 : Field :=
  { id := 649, space := .die, base := 0x7014, lo := 24, w := 8, acc := .ro, rst := 1 }
/-- R526: LH_HINT.HINT0. -/
def LH_HINT_HINT0 : Field :=
  { id := 650, space := .die, base := 0x8000, s1 := 512, n1 := 64, s2 := 4, n2 := 128, lo := 0, w := 16, acc := .rwf }
/-- R526: LH_HINT.HINT1. -/
def LH_HINT_HINT1 : Field :=
  { id := 651, space := .die, base := 0x8000, s1 := 512, n1 := 64, s2 := 4, n2 := 128, lo := 16, w := 16, acc := .rwf }
/-- R553: FT_GHOLD.HELD. -/
def FT_GHOLD_HELD : Field :=
  { id := 652, space := .die, base := 0x1c8, s1 := 4, n1 := 2, lo := 0, w := 32, acc := .ro, who := .punty }
/-- R555: FT_LASTID.ID. -/
def FT_LASTID_ID : Field :=
  { id := 653, space := .hub, base := 0x9044, s1 := 4, n1 := 2, lo := 0, w := 32, acc := .ro }
/-- R371: IMEM.LO. -/
def IMEM_LO : Field :=
  { id := 654, space := .core, base := 0x800000, s1 := 8, n1 := 8192, lo := 0, w := 32, acc := .rwf, who := .fw }
/-- R371: IMEM.HI. -/
def IMEM_HI : Field :=
  { id := 655, space := .core, base := 0x800004, s1 := 8, n1 := 8192, lo := 0, w := 32, acc := .rwf, who := .fw }
/-- R394: PZ_PHREC.RSV5. -/
def PZ_PHREC_RSV5 : Field :=
  { id := 656, space := .die, base := 0x300014, s1 := 8192, n1 := 64, s2 := 32, n2 := 256, lo := 0, w := 32, acc := .ro }
/-- R394: PZ_PHREC.RSV6. -/
def PZ_PHREC_RSV6 : Field :=
  { id := 657, space := .die, base := 0x300018, s1 := 8192, n1 := 64, s2 := 32, n2 := 256, lo := 0, w := 32, acc := .ro }
/-- R394: PZ_PHREC.RSV7. -/
def PZ_PHREC_RSV7 : Field :=
  { id := 658, space := .die, base := 0x30001c, s1 := 8192, n1 := 64, s2 := 32, n2 := 256, lo := 0, w := 32, acc := .ro }
/-- R463: TS_VIEW.RSV3. -/
def TS_VIEW_RSV3 : Field :=
  { id := 659, space := .die, base := 0x80100c, s1 := 262144, n1 := 4, s2 := 16, n2 := 64, lo := 0, w := 32, acc := .ro }
/-- R464: TS_LAYER.RSV28. -/
def TS_LAYER_RSV28 : Field :=
  { id := 660, space := .die, base := 0x820070, s1 := 262144, n1 := 4, s2 := 128, n2 := 1024, lo := 0, w := 32, acc := .ro }
/-- R464: TS_LAYER.RSV29. -/
def TS_LAYER_RSV29 : Field :=
  { id := 661, space := .die, base := 0x820074, s1 := 262144, n1 := 4, s2 := 128, n2 := 1024, lo := 0, w := 32, acc := .ro }
/-- R464: TS_LAYER.RSV30. -/
def TS_LAYER_RSV30 : Field :=
  { id := 662, space := .die, base := 0x820078, s1 := 262144, n1 := 4, s2 := 128, n2 := 1024, lo := 0, w := 32, acc := .ro }
/-- R464: TS_LAYER.RSV31. -/
def TS_LAYER_RSV31 : Field :=
  { id := 663, space := .die, base := 0x82007c, s1 := 262144, n1 := 4, s2 := 128, n2 := 1024, lo := 0, w := 32, acc := .ro }
/-- R498: HB_SLOT.RSV. -/
def HB_SLOT_RSV : Field :=
  { id := 664, space := .hub, base := 0x2028, s1 := 64, n1 := 64, s2 := 4, n2 := 6, lo := 0, w := 32, acc := .ro }

end Reg

/-- Fields 0 to 39 of the register map. -/
def regMap0 : List Field :=
  [Reg.FT_ROWMAP_FENCED, Reg.FT_ROWMAP_HEALTHY, Reg.FT_ROWMAP_SHORT, Reg.FT_ROWMAP_PENDING, Reg.FT_ROWMAP_FENCE_REQ,
   Reg.BT_IDENT_SITE, Reg.BT_IDENT_SITE_OK, Reg.BT_IDENT_SLOT, Reg.BT_IDENT_PRESENT, Reg.BT_IDENT_DEGRADED,
   Reg.LH_GACLK_CEIL, Reg.LH_GACLK_FLOOR, Reg.LH_GACLK_APPLIED, Reg.LH_GACLK_REQ, Reg.LH_GACLK_PENDING,
   Reg.LH_GACLK_STOPPING, Reg.LH_GACLK_CHANGES, Reg.LH_CRZ_MARGIN_A, Reg.LH_CRZ_MARGIN_N, Reg.LH_CRZ_WARN_LVL,
   Reg.LH_CRZ_CRIT_LVL, Reg.LH_CRZ_WARN, Reg.LH_CRZ_CRIT, Reg.LH_CRZ_COUNT, Reg.BT_CLKSTAT_FWD_OK,
   Reg.BT_CLKSTAT_RINGOSC, Reg.BT_CLKSTAT_STOPPED, Reg.BT_CLKSTAT_ORDERED_STOP, Reg.BT_CLKSTAT_PORT_CLK_OK, Reg.HB_CLKSTAT_REF_OK,
   Reg.HB_CLKSTAT_PLL_LOCK, Reg.HB_CLKSTAT_HOLDOVER, Reg.HB_CLKSTAT_HOLD_EXPIRED, Reg.HB_CLKSTAT_DIE_CLK_EN, Reg.HB_CLKSTAT_DIE_CLK_LOST,
   Reg.HB_CLKSTAT_NCLK_DIV, Reg.HB_CLKSTAT_HOLD_SEC, Reg.CA_FMT_WFMT, Reg.CA_FMT_XFMT, Reg.CA_FMT_WBLK]
/-- Fields 40 to 79 of the register map. -/
def regMap1 : List Field :=
  [Reg.CA_FMT_WDIR, Reg.CA_FMT_XBLK, Reg.CA_FMT_XDIR, Reg.CA_FMT_VALID, Reg.CA_PD_XLINE,
   Reg.CA_PD_XSTRIDE, Reg.CA_PD_XKEEP, Reg.CA_PD_XK, Reg.CA_PD_XT, Reg.CA_PD_XSLINE,
   Reg.CA_PD_WLINE, Reg.CA_PD_WSRC, Reg.CA_PD_WSTRIDE, Reg.CA_PD_WSLINE, Reg.CA_PD_OLINE,
   Reg.CA_PD_NCH, Reg.CA_PD_MODE, Reg.CA_PD_PRED, Reg.CA_PD_OOP, Reg.CA_PD_FMTP,
   Reg.CA_PD_HERITAGE, Reg.CA_PD_TSCALE, Reg.CA_STAT_WAITING, Reg.CA_STAT_STREAMING, Reg.CA_STAT_DRAINING,
   Reg.CA_STAT_XVALID, Reg.CA_STAT_XFMTP, Reg.CA_STAT_GATED, Reg.CA_STAT_FLUSHED, Reg.CA_FLAGS_OVF,
   Reg.CA_FLAGS_NAN, Reg.CA_FLAGS_SAT, Reg.CA_FLAGS_UE, Reg.CA_PASSES_COUNT, Reg.CA_ROWCYC_LO,
   Reg.CA_ROWCYC_HI, Reg.CA_STALLW_COUNT, Reg.CA_STALLP_COUNT, Reg.CA_STALLL_COUNT, Reg.CV_CFLAGS_OVF]
/-- Fields 80 to 119 of the register map. -/
def regMap2 : List Field :=
  [Reg.CV_CFLAGS_NAN, Reg.CV_CFLAGS_SAT, Reg.CV_CFLAGS_CLIP, Reg.CV_CFLAGS_INX, Reg.CV_CLIPCNT_COUNT,
   Reg.CV_SATCNT_COUNT, Reg.PZ_WIDE_WP_MASTER, Reg.PZ_WIDE_WP_VEC, Reg.PZ_WATCH_SHADOW_EN, Reg.PZ_WATCH_RATE,
   Reg.PZ_WATCH_THRESH, Reg.CV_SHSAMP_COUNT, Reg.CV_SHSKIP_COUNT, Reg.CV_SHMIS_COUNT, Reg.PZ_LADDER_NRUNG,
   Reg.PZ_LADDER_FMT0, Reg.PZ_LADDER_FMT1, Reg.PZ_LADDER_FMT2, Reg.PZ_LADDER_FMT3, Reg.PZ_LADDER_RUNAHEAD,
   Reg.PZ_LADDER_HOLD_STEPS, Reg.SY_SEAL_PHASE_SEQ, Reg.SY_SEAL_RUNG, Reg.SY_SEAL_PROV, Reg.SY_SEAL_LAST,
   Reg.SY_SEAL_CAUSE, Reg.SY_SEAL_DEPTH, Reg.SY_SEAL_RA_WAIT, Reg.SY_SEAL_LOST, Reg.SY_VCNT_SEALS,
   Reg.SY_VCNT_RECALLS, Reg.CS_STAT_STATE, Reg.CS_STAT_QPORT, Reg.CS_STAT_QIDX, Reg.CS_STAT_RFAULT,
   Reg.CS_STAT_LDEPTH, Reg.CS_PC_PC, Reg.CS_TRAP_CODE, Reg.CS_TRAP_VALID, Reg.CS_TRAP_COUNT]
/-- Fields 120 to 159 of the register map. -/
def regMap3 : List Field :=
  [Reg.CS_TRAPPC_PC, Reg.CS_TRAPINFO_INFO, Reg.CS_TRAPCTL_ACTION, Reg.CS_TRAPCTL_NEWPC, Reg.CV_VFLAGS_OVF,
   Reg.CV_VFLAGS_NAN, Reg.CV_VFLAGS_DIVZ, Reg.CV_VFLAGS_INX, Reg.CP_CFG_RCSIZE, Reg.CP_CFG_RCAUTO,
   Reg.CP_CFG_SVC, Reg.CP_STAT_MINSPARE, Reg.CP_STAT_ZEROING, Reg.CP_STAT_RCINV, Reg.CP_STAT_MAPPING,
   Reg.CP_STAT_SBUSED, Reg.CP_CMD_ZERO, Reg.CP_CMD_RCINV, Reg.CP_ECCLOG_LINE, Reg.CP_ECCLOG_WORD,
   Reg.CP_ECCLOG_UE, Reg.CP_ECCLOG_VALID, Reg.CP_ECCLOG_REQ, Reg.CP_ECCCNT_CE, Reg.CP_ECCCNT_UE,
   Reg.CP_WIN_BASE, Reg.CP_WIN_LIMIT, Reg.CP_WIN_EN, Reg.CP_WIN_KIND, Reg.CP_WIN_SENDER,
   Reg.CP_WIN_CREDIT, Reg.CP_RCRNG_EN, Reg.CP_SBHOLD_COUNT, Reg.CP_SBFULL_COUNT, Reg.CP_ARBLOSS_COUNT,
   Reg.CP_PREEMPT_COUNT, Reg.CP_WINFLT_COUNT, Reg.CP_RCHIT_COUNT, Reg.CP_RCMISS_COUNT, Reg.DN_RSTAT_PASSTHRU]
/-- Fields 160 to 199 of the register map. -/
def regMap4 : List Field :=
  [Reg.DN_RSTAT_FAILED, Reg.DN_RSTAT_SHIFTED, Reg.DN_RSTAT_BANK, Reg.DN_RSTAT_FOLDFULL, Reg.DN_RSTAT_FOLDUSE,
   Reg.DN_FRAME_FLEN, Reg.DN_TBLSEL_ACTIVE, Reg.DN_TBLSEL_SWAP, Reg.DN_TBLSEL_PEND, Reg.DN_TBLSEL_STBY_SET,
   Reg.DN_TBLSEL_ACT_SET, Reg.DN_TIMEOUT_US, Reg.DN_SCMD_STREAM, Reg.DN_SCMD_STOP, Reg.DN_STALL_STREAM,
   Reg.DN_STALL_VALID, Reg.DN_STALL_COUNT, Reg.DN_FWD_COUNT, Reg.DN_UNUSED_COUNT, Reg.DN_FOLDS_COUNT,
   Reg.DN_CE_COUNT, Reg.DN_EJDROP_COUNT, Reg.DN_MISROUTE_COUNT, Reg.CN_CFG_REQTO, Reg.CN_FAIL_FAIL,
   Reg.CN_ERR_SRC, Reg.CN_ERR_TYPE, Reg.CN_ERR_PORT, Reg.CN_ERR_HDR_UE, Reg.CN_ERR_VALID,
   Reg.SY_CFG_BTO, Reg.SY_GRP_MEMLO, Reg.SY_GRP_MEMHI, Reg.SY_GRP_XDIE, Reg.SY_GRP_PHASE,
   Reg.SY_GRP_GATHER, Reg.SY_GRP_SENSE, Reg.SY_GRP_OPEN, Reg.SY_GRP_STALL, Reg.SY_GRP_ROUNDS]
/-- Fields 200 to 239 of the register map. -/
def regMap5 : List Field :=
  [Reg.CN_TXHP_COUNT, Reg.CN_TXN_COUNT, Reg.CN_SHAPE_COUNT, Reg.CN_PREEMPT_COUNT, Reg.CN_CE_COUNT,
   Reg.CQ_CFG_WDOG_US, Reg.CQ_STAT_FREEENT, Reg.CQ_STAT_NQUEUE, Reg.CQ_STAT_NSEND, Reg.CQ_CERR_REASON,
   Reg.CQ_CERR_VALID, Reg.CQ_RREL_QIDX, Reg.CQ_RREL_COUNT, Reg.CQ_CMD_QIDX, Reg.CQ_CMD_DESTROY,
   Reg.CQ_BSOWN_HANDLE, Reg.CQ_Q_STATE, Reg.CQ_Q_DEPTH, Reg.CQ_Q_COUNT, Reg.CQ_Q_WORD,
   Reg.CQ_Q_PZ, Reg.CQ_Q_SENDER, Reg.CQ_Q_GEN, Reg.CQ_Q_RBASE, Reg.CQ_Q_RSIZE,
   Reg.CQ_Q_FREEPTR, Reg.CQ_Q_POPPED, Reg.CQ_S_HANDLE, Reg.CQ_S_VALID, Reg.CQ_S_KIND,
   Reg.CQ_S_ECRED, Reg.CQ_S_RSIZE, Reg.CQ_S_LCRED, Reg.CQ_S_WR, Reg.CQ_SENT_COUNT,
   Reg.CQ_RECV_COUNT, Reg.CQ_WAITS_COUNT, Reg.CQ_WDFIRE_COUNT, Reg.CQ_PADS_COUNT, Reg.CQ_DISCARD_COUNT]
/-- Fields 240 to 279 of the register map. -/
def regMap6 : List Field :=
  [Reg.CQ_DROP_COUNT, Reg.PZ_HLEN_LEN, Reg.PZ_HCMD_OP, Reg.PZ_HSTAT_STAGE, Reg.PZ_HSTAT_STATUS,
   Reg.PZ_HSTAT_DONE, Reg.PZ_HSTAT_KIND, Reg.PZ_HSTAT_SDIE, Reg.PZ_HSTAT_SGATHER, Reg.PZ_HSTAT_SEALED,
   Reg.PZ_HSTAT_FAILED, Reg.PZ_HERR_SECTION, Reg.PZ_HERR_DETAIL, Reg.PZ_HQTO_MS, Reg.PZ_DIGEST_DIGEST,
   Reg.PZ_SEGCNT_COUNT, Reg.PZ_GATHER_VALID, Reg.PZ_GATHER_DEGRADED, Reg.PZ_GATHER_C4OK, Reg.PZ_GATHER_SYNCG,
   Reg.PZ_GATHER_STRM_BASE, Reg.PZ_GATHER_STRM_CNT, Reg.PZ_GATHER_NPH, Reg.PZ_GATHER_SEGS, Reg.PZ_GATHER_STATE,
   Reg.LK_STAT_STATE, Reg.LKH_STAT_STATE, Reg.LK_STAT_TXW, Reg.LKH_STAT_TXW, Reg.LK_STAT_RXW,
   Reg.LKH_STAT_RXW, Reg.LK_STAT_SPARES, Reg.LKH_STAT_SPARES, Reg.LK_STAT_HOLD, Reg.LKH_STAT_HOLD,
   Reg.LK_STAT_GROUPS, Reg.LKH_STAT_GROUPS, Reg.LK_CFG_ACKTO, Reg.LKH_CFG_ACKTO, Reg.LK_CFG_AUTOSPARE]
/-- Fields 280 to 319 of the register map. -/
def regMap7 : List Field :=
  [Reg.LKH_CFG_AUTOSPARE, Reg.LK_CFG_RETRAIN, Reg.LKH_CFG_RETRAIN, Reg.LK_LAT_DESIGN, Reg.LKH_LAT_DESIGN,
   Reg.LK_LAT_MEASURED, Reg.LKH_LAT_MEASURED, Reg.LK_SPARE_LANE, Reg.LKH_SPARE_LANE, Reg.LK_SPARE_USED,
   Reg.LKH_SPARE_USED, Reg.LK_SPARE_FIELD, Reg.LKH_SPARE_FIELD, Reg.LK_BADGRP_COUNT, Reg.LKH_BADGRP_COUNT,
   Reg.LK_REPLAY_COUNT, Reg.LKH_REPLAY_COUNT, Reg.LK_RETRAIN_COUNT, Reg.LKH_RETRAIN_COUNT, Reg.LK_HOLDCYC_COUNT,
   Reg.LKH_HOLDCYC_COUNT, Reg.LK_LSEL_LANE, Reg.LKH_LSEL_LANE, Reg.LK_LCNT_COUNT, Reg.LKH_LCNT_COUNT,
   Reg.LK_FECCE_COUNT, Reg.LKH_FECCE_COUNT, Reg.LK_FECUE_COUNT, Reg.LKH_FECUE_COUNT, Reg.LK_AUTH_COUNT,
   Reg.LKH_AUTH_COUNT, Reg.TS_STAT_STATE, Reg.TS_STAT_ZEROING, Reg.TS_STAT_UPDATING, Reg.TS_STAT_LAYER,
   Reg.TS_CFG_NTO, Reg.TS_SCRUB_INTV, Reg.TS_SCRUB_PASSES, Reg.TS_CMD_ZERO, Reg.TS_CMD_COPY]
/-- Fields 320 to 359 of the register map. -/
def regMap8 : List Field :=
  [Reg.TS_CMD_LIDX, Reg.TS_GS_GS, Reg.TS_LRS_LRS, Reg.TS_C1_C1, Reg.TS_C2_C2,
   Reg.TS_STEP_STEP, Reg.TS_ECC_CE, Reg.TS_ECC_UE, Reg.TS_ECCFLG_UE, Reg.TS_ECCFLG_VALID,
   Reg.TS_ECCFLG_REQ, Reg.TS_ARBLOSS_COUNT, Reg.TS_PREEMPT_COUNT, Reg.TS_HOLD_COUNT, Reg.TS_UPD_COUNT,
   Reg.TS_LOST_COUNT, Reg.TS_VIEW_LISTLO, Reg.TS_VIEW_LISTHI, Reg.TS_VIEW_NST, Reg.TS_VIEW_RB,
   Reg.TS_VIEW_VALID, Reg.TS_LAYER_RULE, Reg.TS_LAYER_GFMT, Reg.TS_LAYER_CFMT, Reg.TS_LAYER_CBLK,
   Reg.TS_LAYER_CRULE, Reg.TS_LAYER_RWATCH, Reg.TS_LAYER_VIEW, Reg.TS_LAYER_EN, Reg.TS_LAYER_LAYER,
   Reg.TS_LAYER_NROWS, Reg.TS_LAYER_K, Reg.TS_LAYER_LR, Reg.TS_LAYER_B1, Reg.TS_LAYER_B2,
   Reg.TS_LAYER_EPS, Reg.TS_LAYER_WD, Reg.TS_LAYER_TMAX, Reg.TS_LAYER_RATIO_LO, Reg.TS_LAYER_RATIO_HI]
/-- Fields 360 to 399 of the register map. -/
def regMap9 : List Field :=
  [Reg.TS_LAYER_STATE, Reg.TS_LAYER_GLINES, Reg.TS_LAYER_RATIO, Reg.TS_LAYER_NORMW, Reg.TS_LAYER_NORMU,
   Reg.TS_LAYER_RSTEP, Reg.TS_LAYER_OUT, Reg.HB_ID_REV, Reg.HB_ID_SLOTS, Reg.HB_ID_SPAN,
   Reg.HB_ID_FP4, Reg.HB_ID_PAIR, Reg.HB_ID_HERITAGE, Reg.HB_HOSTCFG_IDE_REQ, Reg.HB_HOSTCFG_IDE_OK,
   Reg.HB_HOSTCFG_BULK, Reg.HB_HOSTCFG_SENDTO, Reg.HB_STEPCTL_HOLD, Reg.HB_STEPCTL_GO, Reg.HB_STEPCTL_HELD,
   Reg.HB_STEPCTL_BANK, Reg.HB_WIN_EN, Reg.HB_WIN_BASE, Reg.HB_PAGE_EN, Reg.HB_PAGE_CLASS,
   Reg.HB_PAGE_DIE, Reg.HB_PAGE_LCORE, Reg.HB_HERR_KIND, Reg.HB_HERR_SLOT, Reg.HB_HERR_VALID,
   Reg.HB_HRANGE_EN, Reg.HB_SLOT_SQSIZE, Reg.HB_SLOT_CQSIZE, Reg.HB_SLOT_EN, Reg.HB_SLOT_IMODC,
   Reg.HB_SLOT_IMODT, Reg.HB_SLOT_STATE, Reg.HB_SLOT_REASON, Reg.HB_SLOT_WPHASE, Reg.HB_SLOT_SQTAIL]
/-- Fields 400 to 439 of the register map. -/
def regMap10 : List Field :=
  [Reg.HB_SLOT_SQHEAD, Reg.HB_SLOT_CQTAIL, Reg.HB_SLOT_CQHEAD, Reg.HB_SLOT_DONE, Reg.HB_SLOT_DROPPED,
   Reg.HB_MBCTL_COMMIT, Reg.HB_MBCTL_TAGGED, Reg.HB_MBCTL_DIE, Reg.HB_MBCTL_GATHER, Reg.HB_MBCTL_PSEQ,
   Reg.HB_MBCTL_LEN, Reg.HB_MBCTL_RELEASE, Reg.HB_MBCTL_PUBLISHED, Reg.HB_MBCTL_WAITING, Reg.LH_CFG_ADMIT_US,
   Reg.LH_CFG_MARGIN_US, Reg.LH_CFG_GLIM, Reg.LH_SHARE_PZ, Reg.LH_SHARE_EFF, Reg.LH_STAT_PDIE,
   Reg.LH_STAT_AVG, Reg.LH_STAT_UNMET, Reg.LH_STAT_THERM, Reg.LH_STAT_LATEHINT, Reg.LH_STAT_KCAL,
   Reg.LH_VDDL_VSET, Reg.LH_VDDL_BOOST, Reg.LH_VDDL_CRZOFF, Reg.LH_VDDL_SENSEOK, Reg.LH_VDDL_LOCAL,
   Reg.LH_VMAX_VMAX, Reg.LH_ISL_IEST, Reg.LH_ISL_TEMP, Reg.LH_ISL_HDR, Reg.LH_ISL_WAIT,
   Reg.LH_GPRI_PRIO, Reg.LH_CSTATE_STATE, Reg.LH_CSTATE_LAST, Reg.LH_CSTATE_GAP, Reg.LH_TDEEP_COUNT]
/-- Fields 440 to 479 of the register map. -/
def regMap11 : List Field :=
  [Reg.LH_LATE_COUNT, Reg.LH_STAGED_COUNT, Reg.LH_MCAP_CAP, Reg.LH_MCAP_WIN, Reg.LH_MSTAT_PIN,
   Reg.LH_MSTAT_AVG, Reg.LH_MSTAT_TRIM, Reg.LH_MSTAT_UNMET, Reg.FT_SCAN_COL, Reg.FT_SCAN_ROW,
   Reg.FT_SCAN_START, Reg.FT_SCAN_BUSY, Reg.FT_SCAN_RESULT, Reg.FT_SCAN_PATTERN, Reg.FT_GCMD_GATHER,
   Reg.FT_GCMD_RECALL, Reg.FT_GCMD_HOLD, Reg.FT_GCMD_RELEASE, Reg.FT_REFETCH_STREAM, Reg.FT_REFETCH_GO,
   Reg.FT_FBKEY_KIND, Reg.FT_FBKEY_COL, Reg.FT_FBKEY_ROW, Reg.FT_FBKEY_DIR, Reg.FT_FBKEY_WIDTH,
   Reg.FT_EVCNT_SEEDS, Reg.FT_EVCNT_STONES, Reg.FT_EVICT_COUNT, Reg.FT_THR_T, Reg.FT_THR_W_MS,
   Reg.FT_LOG_RECORDS, Reg.FT_DIE_STATE, Reg.FT_DIE_RESETS, Reg.FT_DIE_FAST, Reg.FT_ROT_INTV,
   Reg.BT_STAT_STAGE, Reg.BT_STAT_READY, Reg.BT_STAT_DEGRADED, Reg.BT_STAT_PATH, Reg.BT_STAT_STACKS_KEPT]
/-- Fields 480 to 519 of the register map. -/
def regMap12 : List Field :=
  [Reg.BT_STAT_IMAGE, Reg.BT_STAT_OWNER, Reg.BT_STAT_DEBUG, Reg.BT_STAT_FAILSTEP, Reg.BT_CMD_WARM,
   Reg.BT_CMD_FULL, Reg.BT_CMD_DIE_RST, Reg.BT_CMD_DIE, Reg.BT_TIME_MS, Reg.BT_SVN_FUSED,
   Reg.BT_SVN_IMAGE, Reg.BT_MODID_ID, Reg.BT_LIC_STATE, Reg.BT_LIC_KIND, Reg.BT_LIC_VALUE,
   Reg.JK_CFG_BAUD, Reg.JK_CFG_ECHO, Reg.JK_STAT_BUSY, Reg.JK_STAT_ROM, Reg.JK_STAT_OVERRUN,
   Reg.JK_CMDS_COUNT, Reg.HB_MGMT_EID_I3C, Reg.HB_MGMT_EID_VDM, Reg.HB_MGMT_DADDR, Reg.HB_MGMT_DROPS,
   Reg.FT_LMAP_PCOL0, Reg.FT_LMAP_PCOL1, Reg.FT_LMAP_PCOL2, Reg.FT_LMAP_PCOL3, Reg.FT_LMAP_PCOL4,
   Reg.FT_LMAP_PCOL5, Reg.FT_LMAP_PCOL6, Reg.FT_LMAP_PCOL7, Reg.FT_PSTAT_STATE0, Reg.FT_PSTAT_STATE1,
   Reg.FT_PSTAT_STATE2, Reg.FT_PSTAT_STATE3, Reg.FT_PSTAT_STATE4, Reg.FT_PSTAT_STATE5, Reg.FT_PSTAT_STATE6]
/-- Fields 520 to 559 of the register map. -/
def regMap13 : List Field :=
  [Reg.FT_PSTAT_STATE7, Reg.FT_PSTAT_STATE8, Reg.FT_PSTAT_STATE9, Reg.CS_TRAPIW_WORD, Reg.CS_CYCLE_COUNT,
   Reg.DN_CYCLE_COUNT, Reg.CS_SREG_VALUE, Reg.CS_AREG_LO, Reg.CS_AREG_HI, Reg.CP_BSLOT_LO,
   Reg.CP_BSLOT_HI, Reg.CP_RCRNG_BASE_LO, Reg.CP_RCRNG_BASE_HI, Reg.CP_RCRNG_LIMIT_LO, Reg.CP_RCRNG_LIMIT_HI,
   Reg.DN_TAB_STREAM, Reg.DN_TAB_V, Reg.DN_TAB_IN, Reg.DN_TAB_FOLD, Reg.DN_TAB_IN2,
   Reg.DN_TAB_ALT, Reg.DN_DESC_TRIG, Reg.DN_DESC_INDEXED, Reg.DN_DESC_IDXSIDE, Reg.DN_DESC_RCACHE,
   Reg.DN_DESC_FOLD, Reg.DN_DESC_FFMT, Reg.DN_DESC_FFORM, Reg.DN_DESC_VALID, Reg.DN_DESC_OWNER,
   Reg.DN_DESC_SRCK, Reg.DN_DESC_DSTK, Reg.DN_DESC_RANK, Reg.DN_DESC_SRC_LO, Reg.DN_DESC_SRC_HI,
   Reg.DN_DESC_ROWLEN, Reg.DN_DESC_DST_LO, Reg.DN_DESC_DST_HI, Reg.DN_DESC_CREDIT, Reg.DN_DESC_ROWS]
/-- Fields 560 to 599 of the register map. -/
def regMap14 : List Field :=
  [Reg.DN_DESC_IDXBLK, Reg.DN_DESC_SSTRIDE, Reg.DN_DESC_DSTRIDE, Reg.DN_DESC_PEER, Reg.DN_DESC_START,
   Reg.DN_SSTAT_RUNS, Reg.DN_SSTAT_ACTIVE, Reg.DN_SSTAT_CREDIT0, Reg.DN_SSTAT_GATED, Reg.DN_SSTAT_STALLED,
   Reg.DN_SSTAT_FAULT, Reg.DN_SSTAT_STOPPED, Reg.DN_SSTAT_PENDING, Reg.SY_ARR_LO, Reg.SY_ARR_HI,
   Reg.PZ_HSRC_LO, Reg.PZ_HSRC_HI, Reg.PZ_IMGID_ID, Reg.PZ_STEP_STEP, Reg.PZ_GATHER_R0,
   Reg.PZ_GATHER_C0, Reg.PZ_GATHER_R1, Reg.PZ_GATHER_C1, Reg.PZ_PHASE_LO, Reg.PZ_PHASE_HI,
   Reg.PZ_PHREC_LAYER, Reg.PZ_PHREC_NDEP, Reg.PZ_PHREC_DEP0, Reg.PZ_PHREC_DEP1, Reg.PZ_PHREC_DEP2,
   Reg.PZ_PHREC_DEP3, Reg.PZ_PHREC_DEP4, Reg.PZ_PHREC_DEP5, Reg.PZ_PHREC_DEP6, Reg.PZ_PHREC_DEP7,
   Reg.LK_PEER_ID, Reg.LKH_PEER_ID, Reg.LK_TAB_STREAM0, Reg.LK_TAB_V0, Reg.LK_TAB_STREAM1]
/-- Fields 600 to 639 of the register map. -/
def regMap15 : List Field :=
  [Reg.LK_TAB_V1, Reg.LK_TAB_STREAM2, Reg.LK_TAB_V2, Reg.LK_TAB_STREAM3, Reg.LK_TAB_V3,
   Reg.LKH_TAB_STREAM0, Reg.LKH_TAB_V0, Reg.LKH_TAB_STREAM1, Reg.LKH_TAB_V1, Reg.LKH_TAB_STREAM2,
   Reg.LKH_TAB_V2, Reg.LKH_TAB_STREAM3, Reg.LKH_TAB_V3, Reg.SPMAP_LSTREAM, Reg.SPMAP_LDIE,
   Reg.SPMAP_DIR, Reg.SPMAP_V, Reg.SPMAP_RSTREAM, Reg.SPMAP_RDIE, Reg.TS_ECCLOG_LO,
   Reg.TS_ECCLOG_HI, Reg.TS_NPART_SW, Reg.TS_NPART_SU, Reg.TS_LAYER_WBASE_LO, Reg.TS_LAYER_WBASE_HI,
   Reg.TS_LAYER_MBASE_LO, Reg.TS_LAYER_MBASE_HI, Reg.TS_LAYER_VBASE_LO, Reg.TS_LAYER_VBASE_HI, Reg.TS_LAYER_CBASE_LO,
   Reg.TS_LAYER_CBASE_HI, Reg.TS_LAYER_GBASE_LO, Reg.TS_LAYER_GBASE_HI, Reg.HB_HRANGE_BASE_LO, Reg.HB_HRANGE_BASE_HI,
   Reg.HB_HRANGE_LIMIT_LO, Reg.HB_HRANGE_LIMIT_HI, Reg.HB_SLOT_SQBASE_LO, Reg.HB_SLOT_SQBASE_HI, Reg.HB_SLOT_CQBASE_LO]
/-- Fields 640 to 664 of the register map. -/
def regMap16 : List Field :=
  [Reg.HB_SLOT_CQBASE_HI, Reg.HB_MB_WORD, Reg.LH_VSENSE_SENSE0, Reg.LH_VSENSE_SENSE1, Reg.LH_VSENSE_SENSE2,
   Reg.LH_VSENSE_SENSE3, Reg.LH_VMIN_VMIN0, Reg.LH_VMIN_VMIN1, Reg.LH_VMIN_VMIN2, Reg.LH_VMIN_VMIN3,
   Reg.LH_HINT_HINT0, Reg.LH_HINT_HINT1, Reg.FT_GHOLD_HELD, Reg.FT_LASTID_ID, Reg.IMEM_LO,
   Reg.IMEM_HI, Reg.PZ_PHREC_RSV5, Reg.PZ_PHREC_RSV6, Reg.PZ_PHREC_RSV7, Reg.TS_VIEW_RSV3,
   Reg.TS_LAYER_RSV28, Reg.TS_LAYER_RSV29, Reg.TS_LAYER_RSV30, Reg.TS_LAYER_RSV31, Reg.HB_SLOT_RSV]
/-- Every register field of the module. -/
def regMap : List Field :=
  regMap0 ++ regMap1 ++ regMap2 ++ regMap3 ++ regMap4 ++ regMap5 ++ regMap6 ++ regMap7 ++ regMap8 ++ regMap9 ++ regMap10 ++ regMap11 ++ regMap12 ++ regMap13 ++ regMap14 ++ regMap15 ++ regMap16

/-- The value of a field at reset, before a parison. -/
def fieldReset (F : Field) (u i : Nat) : Nat :=
  if F.unitRst then u else F.rsts.getD i F.rst

/-- The key of one instance of a field in the register store. -/
def fieldKey (F : Field) (u i j : Nat) : Nat := natPair F.id (natPair u (natPair i j))

/-- The instance of a field whose word lies at a space's offset, if the field has one there. -/
def fieldAt (F : Field) (off : Nat) : Option (Nat × Nat) :=
  if off < F.base then none
  else
    let d := off - F.base
    let i := if F.s1 = 0 then 0 else d / F.s1
    let r := if F.s1 = 0 then d else d % F.s1
    let j := if F.s2 = 0 then 0 else r / F.s2
    let q := if F.s2 = 0 then r else r % F.s2
    if q = 0 ∧ i < F.n1 ∧ j < F.n2 then some (i, j) else none

/-- True of an offset at which a port block has no register (R427): the hub has blocks 0-3 and 8-15, and only span ports have the
registers from 0x60 on. -/
def noPortReg (sp : Space) (off : Nat) : Bool :=
  (sp == .hub && decide (0x6400 ≤ off ∧ off < 0x6800)) || (sp == .hub && decide (0x6000 ≤ off ∧ off < 0x6400) && decide (0x60 ≤ off % 0x100))
    || (sp == .die && decide (0x6000 ≤ off ∧ off < 0x6900) && decide (0x60 ≤ off % 0x100))

/-- The fields of the word at an offset of a space, each with its instance. -/
def wordFields (sp : Space) (off : Nat) : List (Field × Nat × Nat) :=
  if noPortReg sp off then []
  else regMap.filterMap fun F =>
    if F.space = sp then (fieldAt F off).map fun p => (F, p.1, p.2) else none

end Sys2Proof.Machine
end

