-- ==== Sys2Proof/Syntax.lean ====
section
/-! DEFINITION. The commands of the module: one constructor of `Instr` per row of the operation and event table, with
its operands, and the packets, reports and requests that some of them carry. -/

namespace Sys2Proof

open Sys2Proof.Machine (Space)

/-- The operand fields of one instruction word (R187); the opcode is the command's own. -/
structure IFields where
  d : BitVec 6
  a : BitVec 6
  b : BitVec 6
  fn : BitVec 6
  imm : BitVec 32
deriving DecidableEq, Repr

/-- Who makes a register access (R38, R60, R218, R237, R249, R389, R579, R623). -/
inductive Requester where
  | host | firmware | punty (d : DieId) | core (c : CoreId) | debug | lehr (d : DieId) | crucible (k : StackId)
  | hardware
deriving DecidableEq, Repr

/-- A CSR address: a space, the unit it belongs to (64 x die + logical core, the die, or 0 for the hub) and a byte
offset (R45). -/
structure CsrAddr where
  space : Space
  unit : Nat
  off : Nat
deriving DecidableEq, Repr

/-- What a read of a register asks for: an address and a number of bytes (R16). -/
structure CsrSpan where
  addr : CsrAddr
  bytes : Nat
deriving DecidableEq, Repr

/-- A node of the control network (R308). -/
inductive NodeId where
  | core (c : CoreId) | dieNode (d : DieId) | hub (u : Fin 16) | stack (k : StackId)
deriving DecidableEq, Repr

/-- A crossing with an elastic buffer (R54, R55): the link into an input of a position's router (0-3 N, E, S, W, 4-7 the skip links), or
a cane port. -/
inductive Crossing where
  | onDie (p : Pos) (inp : Fin 8) | cane (p : PortId)
deriving DecidableEq, Repr

/-- What an ECC check finds (R243, R272): a corrected or an uncorrectable error in one word. -/
inductive EccFind where
  | none | ce | ue
deriving DecidableEq, Repr

/-- What a router's check of a flit finds (R272): no error, some 64-bit words corrected, or an uncorrectable error. -/
inductive FlitCheck where
  | good | fixed (words : Nat) | bad
deriving DecidableEq, Repr

/-- The checks an output makes in one slot (R272, R292): of the flit it takes, and of a fold's second operand. -/
structure FlitChecks where
  first : FlitCheck
  second : FlitCheck
deriving DecidableEq, Repr

/-- A dynamic requester of a bank or of a pseudo-channel (R233, R438), in round-robin order. -/
inductive DynReq where
  | qm | rw | rcf | scalar | debug
deriving DecidableEq, Repr

/-- How a granted access uses its line (R225): it reads the line, it merges into one word of it, or it writes whole words, none of which
it reads. -/
inductive LineUse where
  | read | merge | write
deriving DecidableEq, Repr

/-- One NCLK of a bank (R229, R233-R237): the NCLK of the bank slot table, whether the owner of that slot uses it, who requests of
the dynamic arbiter, whether the winner's need has gone, whether DEBUG arrives after the grant, how the winner uses its line, and what
its access finds in a word of it. -/
structure BankAccess where
  slot : Fin 16
  ownerUses : Bool
  reqs : List DynReq
  withdrawn : Bool
  debugLate : Bool
  line : Nat
  word : Nat
  ecc : EccFind
  how : LineUse := .read
deriving DecidableEq, Repr

/-- A verdict message (R168): TYPE is 1 for RECALL. -/
structure VerdictMsg where
  recalled : Bool
  g : Gather
  seq : BitVec 16
  step : BitVec 16
  rung : BitVec 2
  cause : BitVec 4
  layer : BitVec 16
deriving DecidableEq, Repr

/-- Where a verdict packet arrives (R168). -/
inductive VerdictTo where
  | core (c : CoreId) | gather (g : Gather) | slots
deriving DecidableEq, Repr

/-- A collector of reports (R68, R358, R530): a hub Punty or a die Punty. -/
inductive Collector where
  | hub (n : Fin 4) | die (d : DieId)
deriving DecidableEq, Repr

/-- The header of a ring record (R348). -/
structure RecHdr where
  line : Nat
  lines : Nat
  len : Nat
  rseq : Nat
  pseq : Nat
deriving DecidableEq, Repr

/-- The body of a queue message (R346, R348, R351, R354): an entry, one packet of a record's lines (the last carries
its header and pushes the descriptor), or a pad. -/
inductive QBody where
  | entry (w0 w1 w2 w3 : Word) (pseq : BitVec 16)
  | ring (line : Nat) (data : List Byte) (push : Option RecHdr)
  | pad (line lines : Nat) (pseq : BitVec 16)
deriving DecidableEq, Repr

/-- A queue message: its channel handle and body. -/
structure QMsg where
  handle : Word
  body : QBody
deriving DecidableEq, Repr

/-- A report of a blocked send (R357): the core, the destination handle and the sender's own handle. -/
structure BlockReport where
  core : CoreId
  dest : Word
  own : Word
deriving DecidableEq, Repr

/-- A firmware command packet (R57, R312, R520, R544): the target's clock ratio, an ordered STOP of a core, a fence of
a position, a wake. -/
inductive CtrlCmd where
  | ratio (g : Gather) | stop (c : CoreId) | fence (p : Pos) | recalled (g : Gather) | hold (g : Gather)
  | release (g : Gather) | wake (c : CoreId)
deriving DecidableEq, Repr

/-- A cross-die barrier message on the sideband (R326): a die root's arrive, or the hub's release. -/
inductive SyncMsg where
  | arrive (d : DieId) (g : Fin 64)
  | release (d : DieId) (g : Fin 64)
deriving DecidableEq, Repr

/-- The targets of a broadcast (R319). -/
inductive Scope where
  | dieCores (d : DieId) | allCores | rect (d : DieId) (r0 c0 r1 c1 : Fin 8) | dieNodes
deriving DecidableEq, Repr

/-- One PARISON broadcast (R319, R371, R384): its scope, the die a die-space record names, the CSR offset and the
words it writes, and whether it is the first of its record, which carries the record's header of 8 bytes. -/
structure ParisonPkt where
  scope : Scope
  die : DieId
  dieSpace : Bool
  off : Nat
  words : List Word
  head : Bool := false
deriving DecidableEq, Repr

/-- A bit that a cane's wire flips (R397): the wire (256 + n for spare n), the beat of the group (the last one is its LINK beat) and
the unit interval. -/
structure WireErr where
  wire : Fin 264
  beat : Fin 16
  ui : Fin 16
deriving DecidableEq, Repr

/-- A span group as it arrives from the partner module (R401, R418): its 30 link flits and its LINK beat, in the full-width layout and
enciphered (R420). -/
structure SpanGroup where
  flits : List (BitVec 2048)
  beat : BitVec 4096
  /-- Codewords that its FEC has corrected, and those it could not (R417, R427). -/
  fecCe : BitVec 16
  fecUe : BitVec 16
deriving DecidableEq, Repr

/-- What training finds of the lanes of one end of a link that receive (R395, R413): the data and spare lanes with an error in stage 2, on
a span port its lanes by their number, and the forwarded-clock and sideband lanes that fail, one bit each. -/
structure EndLanes where
  data : List (Fin 264)
  clocks : BitVec 4
  sideband : BitVec 4
deriving DecidableEq, Repr

/-- An SBNAK message (R416): the number of the message wanted, and the CRC-8 it carries. -/
structure NakMsg where
  want : Fin 16
  crc : BitVec 8
deriving DecidableEq, Repr

/-- A MARK message (R70, R42): the low bits of the die Punty's MCLK count that PAYLOAD has room for, or a strap report. -/
inductive MarkMsg where
  | mclk (count : BitVec 31) | strap (code : BitVec 3)
deriving DecidableEq, Repr

/-- A span IDENT message with its CRC-32 (R424). -/
structure IdentMsg where
  ident : BitVec 128
  slot : BitVec 4
  port : BitVec 4
  widths : BitVec 8
  nonce : BitVec 64
  crc : BitVec 32
deriving DecidableEq, Repr

/-- An offer of a pseudo-channel in one available slot (R437-R440): whether the update engine and the debug port request,
whether a debug request follows the grant, whether the winner's need has gone, and what the winner's transfer finds in
which word of its line. -/
structure StackOffer where
  ue : Bool
  debug : Bool
  debugLate : Bool
  withdrawn : Bool
  word : Fin 8
  ecc : EccFind
deriving DecidableEq, Repr

/-- How the host completes a read of the hub (R470). -/
inductive Completion where
  | data (bytes : List Byte) | ur | ca
deriving DecidableEq, Repr

/-- What one island has counted since the last estimate, and its junction temperature in °C (R507, R508). The row groups are
given as the sum of XK x XT over the row groups of each kind. -/
structure IslandSample where
  row8 : Nat
  row4 : Nat
  row16 : Nat
  line : Nat
  vop : Nat
  vtr : Nat
  flit : Nat
  fold : Nat
  core : Nat
  idle : Nat
  tj : Nat
deriving DecidableEq, Repr

/-- What a die Lehr latches for an estimate (R507, R524): its islands, the VDDM and VDDK powers in W, the sense voltages
as codes of LH_VSENSE, and the temperatures of its stacks and of the hub in °C. -/
structure PowerSample where
  islands : List IslandSample
  vddm : Nat
  vddk : Nat
  sense : List Nat
  stackSt : List Nat
  hub : List Nat
deriving DecidableEq, Repr

/-- A record of the fault log (R536, R537); the fields the module does not vary are left out. `sev` is the error severity,
`id` the Record ID, given when hub Punty 2 writes it. -/
structure FaultRec where
  id : Nat
  sev : Nat
  event : Nat
  cls : Nat
  kind : Nat
  slot : Nat
  unit : Nat
  pos : Nat
  lcore : Nat
  gather : Nat
  item : Nat
  count : Nat
  thresh : Nat
  action : Nat
  left : Nat
  stamp : Nat
  step : Nat
  layer : Nat
  pseq : Nat
  detail : List Nat
deriving DecidableEq, Repr

/-- A fault event as its collector sees it (R529, R537, R538): its class, event code, unit (0-3 die, 4 hub, 16 + n stack),
physical position, item, the detecting unit's own count with its clock (R68), the event's words, whether firmware finds
that a recalled phase, or one still to run, needs data that no refetch restores (R545), and whether the collector itself detects it. -/
structure FaultEvent where
  cls : Fin 9
  code : Nat
  unit : Nat
  pos : Option (Fin 8 × Fin 10)
  item : Nat
  count : BitVec 56
  clock : Fin 4
  detail : List Nat
  noRefetch : Bool
  own : Bool := false
deriving DecidableEq, Repr

/-- An error or fault report packet (R312, R534, R535): an event to be judged, an informational event, or a collector's
record on its way to hub Punty 2. -/
inductive ErrorReport where
  | event (e : FaultEvent)
  | info (e : FaultEvent)
  | record (r : FaultRec)
deriving DecidableEq, Repr

/-- A PLDM event (R586): a fault record by its ID, or a sensor with its new level. -/
inductive PldmEvent where
  | record (id : Nat)
  | sensor (id level : Nat)
deriving DecidableEq, Repr

/-- The owner record (R571): the owner key, the four parison keys (0 for an empty slot), the span secret, IDE_REQ and
DEBUG_CONSENT. -/
structure Owner where
  key : Nat
  pzKeys : List Nat
  secret : Nat
  ideReq : Bool
  consent : Bool
deriving DecidableEq, Repr

/-- What SET_KEYS replaces in the owner record (R572). -/
structure KeyChange where
  pzKeys : List (Fin 4 × Nat)
  secret : Option Nat
  ideReq : Option Bool
  consent : Option Bool
deriving DecidableEq, Repr

/-- A firmware image as it is brought to the module (R568): its version, SVN and SM3 digest, the identifier of the key that
signed it, and the signature. -/
structure FwBlob where
  version : Nat
  svn : Fin 65
  digest : Nat
  keyId : Nat
  sig : Nat
deriving DecidableEq, Repr

/-- What a start stage finds at its end (R557-R562): whether the hub's own part passed, and what failed: dies, stacks, cane
lanes of their receivers, positions, routers, and logical cores in their self-test. -/
structure StageResult where
  ok : Bool
  dies : List DieId
  stackSt : List StackId
  lanes : List (PortId × Fin 264)
  positions : List Pos
  routers : List Pos
  cores : List CoreId
deriving DecidableEq, Repr

/-- How an SPDM request arrives (R569): over I3C (0), PCIe VDM (1) or DOE (2), and the secured session that carries it, if
one does. -/
structure SpdmCtx where
  tr : Fin 3
  sess : Option Nat
deriving DecidableEq, Repr

/-- A PLDM request (R581, R585, R586): base discovery, the PDR repository, a sensor reading, the event receiver to use, or the
acknowledgement of an event. -/
inductive PldmReq where
  | discovery
  | pdrs
  | reading (sensor : Nat)
  | setReceiver (eid : Option Nat)
  | ack (e : PldmEvent)
deriving DecidableEq, Repr

/-- A Jacks command line as it is read (R589, R590): what eye measures is given with it: disagreements per step, errors of a
span lane, and whether the port retrains during the scan. -/
inductive JkCmd where
  | help
  | baud (rate : Nat)
  | id
  | faults
  | gather (d : Option DieId)
  | power
  | island (d : DieId) (n : Option (Fin 16))
  | clk
  | log (first : Option Nat) (n : Nat)
  | peek (mga : Mga) (n : Nat)
  | poke (mga : Mga) (v : Word)
  | eye (p : PortId) (lane : Nat) (counts : List Nat) (retrained : Bool)
  | scan (d : DieId) (row : Fin 8) (col : Fin 10)
  | parison
  | dump (sect : Nat)
  | warm (full : Bool)
  | recover (w : FwBlob)
deriving DecidableEq, Repr

/-- How a Jacks command ends (R589): ok, or the name after err; `ecc` and `other` where the spec states no name. -/
inductive JkStatus where
  | ok | line | locked | dieDown | frozen | addrFault | retrain | ecc
  | other (code : Nat)
deriving DecidableEq, Repr

/-- How the module answers an SPDM request (R569-R572). -/
inductive SpdmReply where
  | versions (l : List Nat)
  | capabilities
  | algorithms (ok : Bool)
  | digest (d : Nat)
  | certificate (bs : List Byte)
  | challenge (sig : Nat)
  | measurements (blocks : List (Nat × Nat)) (sig : Nat)
  | session (id : Nat)
  | ack
  | ownerInfo (key : Nat) (ideReq consent : Bool)
  | sessionLimit
  | unsupportedRequest
  | refused
deriving DecidableEq, Repr

/-- How the module answers a management request (R581-R586). -/
inductive MgmtReply where
  | done
  | refused
  | value (v : Nat)
  | list (l : List Nat)
  | words (ws : List Nat)
  | records (l : List FaultRec)
deriving DecidableEq, Repr

/-- The commands, in the order of the table. -/
inductive Instr where
  /-- R13. A write to a register field that has no row of its own is applied by its access type, with the refusal, requester, reserved-bit and clamp rules. -/
  | registerWrite (r : Requester) (at_ : CsrAddr) (bytes : Nat) (v : Word)
  /-- R68. A read of the low word of a 64-bit counter latches the high word for the next read. -/
  | lowWordLatchRead (r : Requester) (at_ : CsrSpan)
  /-- R38. A write of FENCE_REQ bits requests a fence of positions, which then wait for their quiesce point. -/
  | fenceReq (r : Requester) (d : DieId) (row : Fin 8) (cols : BitVec 10)
  /-- R34. At its quiesce point a pending fence is applied and the logical cores of the row shift under R30. -/
  | fenceShift (d : DieId) (row : Fin 8)
  /-- R35. The spare wake, scratchpad zeroing and multiplexer reset of a shift complete and phases may start on the row. -/
  | shiftComplete (d : DieId) (row : Fin 8)
  /-- R43. A change on the SLOT_ID pins while running is ignored and logged. -/
  | slotIdChange (slot : BitVec 4)
  /-- R50. The hub detects loss of the module reference and holds HCLK in holdover. -/
  | refLost
  /-- R51. The reference returns, the loop relocks, HOLDOVER and HOLD_EXPIRED clear, and span ports taken down for holdover retrain. -/
  | relock
  /-- R51. Holdover lasts 60 s, so the hub sets HOLD_EXPIRED and firmware takes down every trained span port. -/
  | holdExpired
  /-- R55. An elastic buffer's pointer separation moves by one entry, so a fault event is raised and a retrain is scheduled. -/
  | crossSlip (x : Crossing)
  /-- R60. A write of LH_GACLKg.REQ by the Lehr or firmware requests a new ratio, clamped to CEIL and FLOOR. -/
  | aclkRequest (r : Requester) (g : Gather) (code : BitVec 2)
  /-- R56. At a phase boundary a pending ratio is applied, stopping the gather's cores for at most 2 µs. -/
  | aclkRatioChange (g : Gather)
  /-- R62. Every 256 MCLK the island replicas report margin, setting WARN or CRIT and prompting the Lehr response of R64. -/
  | marginSample (d : DieId) (isl : Fin 16) (marginA marginN : BitVec 4)
  /-- R63. A write of LH_CRZn levels is refused whole if it would leave CRIT_LVL at or above WARN_LVL. -/
  | crzLevelWrite (r : Requester) (d : DieId) (isl : Fin 16) (warn crit : BitVec 4)
  /-- R65. A die detects loss of forwarded clock on CH, stops its networks and arithmetic, drops its ports and reports to the hub. -/
  | clockLost (d : DieId)
  /-- R67. An ordered-stop sideband message makes the die set ORDERED_STOP and stop without logging a fault. -/
  | stop (d : DieId) (seq : Fin 16) (crc : BitVec 8)
  /-- R200. The sequencer issues a matrix pass from a pass descriptor with optional overrides after the descriptor checks. -/
  | mpass (c : CoreId) (w : IFields)
  /-- R201. Issue holds until the array block holds no more than the given number of incomplete passes. -/
  | mwait (c : CoreId) (w : IFields)
  /-- R86. A pass's shadow tile load completes and its X read range is released. -/
  | tileLoadComplete (c : CoreId) (parity : Bool)
  /-- R85. Once its load is complete and the preceding pass's last row group has entered, the pass swaps its tile into the stationary register. -/
  | passSwap (c : CoreId)
  /-- R91. A row group enters the arrays once all four of its weight rows are present. -/
  | rowGroupEntry (c : CoreId) (parity : Bool)
  /-- R85. A drained pass sends its flags to the seal unit, releases its scoreboard entries and increments CA_PASSES. -/
  | passComplete (c : CoreId)
  /-- R136. Marver converts elements without block scales. -/
  | cvt (c : CoreId) (w : IFields)
  /-- R137. Marver converts elements with given scales on the source or destination side. -/
  | cvtx (c : CoreId) (w : IFields)
  /-- R138. Marver computes one scale per block under MX or FIT and converts the block. -/
  | cvts (c : CoreId) (w : IFields)
  /-- R141. Marver computes scale codes from a register of block maxima. -/
  | sclx (c : CoreId) (w : IFields)
  /-- R160. Marver finishes recomputing a captured sample in spare cycles and compares it with the captured results. -/
  | shadowRecompute (c : CoreId)
  /-- R167. After the barrier and the dependency seals, the seal unit issues SEAL or RECALL on a phase and sends it. -/
  | sealVerdict (g : Gather)
  /-- R175. A recalled or discarded phase starts its rerun from retained inputs once its conditions are met. -/
  | rerunStart (g : Gather)
  /-- R194. Scalar register-register add. -/
  | add (c : CoreId) (w : IFields)
  /-- R194. Scalar register-register subtract. -/
  | sub (c : CoreId) (w : IFields)
  /-- R194. Scalar register-register bitwise and. -/
  | and (c : CoreId) (w : IFields)
  /-- R194. Scalar register-register bitwise or. -/
  | or (c : CoreId) (w : IFields)
  /-- R194. Scalar register-register exclusive or. -/
  | xor (c : CoreId) (w : IFields)
  /-- R194. Scalar register-register shift left. -/
  | sll (c : CoreId) (w : IFields)
  /-- R194. Scalar register-register logical shift right. -/
  | srl (c : CoreId) (w : IFields)
  /-- R194. Scalar register-register arithmetic shift right. -/
  | sra (c : CoreId) (w : IFields)
  /-- R194. Scalar register-register signed less-than. -/
  | slt (c : CoreId) (w : IFields)
  /-- R194. Scalar register-register unsigned less-than. -/
  | sltu (c : CoreId) (w : IFields)
  /-- R194. Scalar register-register multiply, low 32 bits. -/
  | mul (c : CoreId) (w : IFields)
  /-- R194. Scalar register-register multiply, high 32 bits signed. -/
  | mulh (c : CoreId) (w : IFields)
  /-- R194. Scalar register-register signed minimum. -/
  | min (c : CoreId) (w : IFields)
  /-- R194. Scalar register-register signed maximum. -/
  | max (c : CoreId) (w : IFields)
  /-- R194. Scalar register-register equality test. -/
  | eq (c : CoreId) (w : IFields)
  /-- R194. Scalar register-register inequality test. -/
  | ne (c : CoreId) (w : IFields)
  /-- R194. Scalar add with immediate. -/
  | addi (c : CoreId) (w : IFields)
  /-- R194. Scalar subtract with immediate. -/
  | subi (c : CoreId) (w : IFields)
  /-- R194. Scalar bitwise and with immediate. -/
  | andi (c : CoreId) (w : IFields)
  /-- R194. Scalar bitwise or with immediate. -/
  | ori (c : CoreId) (w : IFields)
  /-- R194. Scalar exclusive or with immediate. -/
  | xori (c : CoreId) (w : IFields)
  /-- R194. Scalar shift left by immediate. -/
  | slli (c : CoreId) (w : IFields)
  /-- R194. Scalar logical shift right by immediate. -/
  | srli (c : CoreId) (w : IFields)
  /-- R194. Scalar arithmetic shift right by immediate. -/
  | srai (c : CoreId) (w : IFields)
  /-- R194. Scalar signed less-than immediate. -/
  | slti (c : CoreId) (w : IFields)
  /-- R194. Scalar unsigned less-than immediate. -/
  | sltui (c : CoreId) (w : IFields)
  /-- R194. Scalar multiply by immediate, low 32 bits. -/
  | muli (c : CoreId) (w : IFields)
  /-- R194. Scalar multiply by immediate, high 32 bits. -/
  | mulhi (c : CoreId) (w : IFields)
  /-- R194. Scalar signed minimum with immediate. -/
  | mini (c : CoreId) (w : IFields)
  /-- R194. Scalar signed maximum with immediate. -/
  | maxi (c : CoreId) (w : IFields)
  /-- R194. Scalar equality test with immediate. -/
  | eqi (c : CoreId) (w : IFields)
  /-- R194. Scalar inequality test with immediate. -/
  | nei (c : CoreId) (w : IFields)
  /-- R195. Branch if equal. -/
  | beq (c : CoreId) (w : IFields)
  /-- R195. Branch if not equal. -/
  | bne (c : CoreId) (w : IFields)
  /-- R195. Branch if signed less. -/
  | blt (c : CoreId) (w : IFields)
  /-- R195. Branch if signed greater or equal. -/
  | bge (c : CoreId) (w : IFields)
  /-- R195. Branch if unsigned less. -/
  | bltu (c : CoreId) (w : IFields)
  /-- R195. Branch if unsigned greater or equal. -/
  | bgeu (c : CoreId) (w : IFields)
  /-- R195. Relative jump. -/
  | j (c : CoreId) (w : IFields)
  /-- R195. Relative jump with link. -/
  | jal (c : CoreId) (w : IFields)
  /-- R195. Jump to register. -/
  | jr (c : CoreId) (w : IFields)
  /-- R196. Pushes a hardware loop that runs the next instructions a counted number of times. -/
  | loop (c : CoreId) (w : IFields)
  /-- R197. Sets an address descriptor. -/
  | aset (c : CoreId) (w : IFields)
  /-- R197. Advances a descriptor's BASE by its INC. -/
  | ainc (c : CoreId) (w : IFields)
  /-- R197. Adds a scalar to a descriptor's BASE. -/
  | aadd (c : CoreId) (w : IFields)
  /-- R197. Reads a descriptor field into a scalar register. -/
  | aget (c : CoreId) (w : IFields)
  /-- R198. Loads a scratchpad word. -/
  | lw (c : CoreId) (w : IFields)
  /-- R198. Stores a scratchpad word. -/
  | sw (c : CoreId) (w : IFields)
  /-- R198. Loads an address descriptor from scratchpad. -/
  | la (c : CoreId) (w : IFields)
  /-- R198. Stores an address descriptor to scratchpad. -/
  | sa (c : CoreId) (w : IFields)
  /-- R198. Loads a Marver register from scratchpad. -/
  | vld (c : CoreId) (w : IFields)
  /-- R198. Stores a Marver register to scratchpad. -/
  | vst (c : CoreId) (w : IFields)
  /-- R199. Reads a word at an MGA over the control network, holding for the reply. -/
  | rlw (c : CoreId) (w : IFields)
  /-- R199. Posts a word write to an MGA over the control network. -/
  | rsw (c : CoreId) (w : IFields)
  /-- R203. Marver lane-wise add. -/
  | vadd (c : CoreId) (w : IFields)
  /-- R203. Marver lane-wise subtract. -/
  | vsub (c : CoreId) (w : IFields)
  /-- R203. Marver lane-wise multiply. -/
  | vmul (c : CoreId) (w : IFields)
  /-- R203. Marver fused multiply-add. -/
  | vfma (c : CoreId) (w : IFields)
  /-- R203. Marver lane-wise minimum. -/
  | vmin (c : CoreId) (w : IFields)
  /-- R203. Marver lane-wise maximum. -/
  | vmax (c : CoreId) (w : IFields)
  /-- R203. Marver absolute value. -/
  | vabs (c : CoreId) (w : IFields)
  /-- R203. Marver negation. -/
  | vneg (c : CoreId) (w : IFields)
  /-- R203. Marver compare by predicate. -/
  | vcmp (c : CoreId) (w : IFields)
  /-- R203. Marver lane select. -/
  | vsel (c : CoreId) (w : IFields)
  /-- R203. Marver register move. -/
  | vmov (c : CoreId) (w : IFields)
  /-- R203. Marver broadcast of a scalar. -/
  | vbcast (c : CoreId) (w : IFields)
  /-- R203. Marver bitwise and. -/
  | vand (c : CoreId) (w : IFields)
  /-- R203. Marver bitwise or. -/
  | vor (c : CoreId) (w : IFields)
  /-- R203. Marver bitwise exclusive or. -/
  | vxor (c : CoreId) (w : IFields)
  /-- R203. Marver shift. -/
  | vshl (c : CoreId) (w : IFields)
  /-- R205. Marver segmented sum reduction. -/
  | vrsum (c : CoreId) (w : IFields)
  /-- R204. Marver segmented maximum. -/
  | vrmax (c : CoreId) (w : IFields)
  /-- R204. Marver segmented minimum. -/
  | vrmin (c : CoreId) (w : IFields)
  /-- R204. Marver segmented maximum of absolute values. -/
  | vramax (c : CoreId) (w : IFields)
  /-- R204. Marver lane permute. -/
  | vperm (c : CoreId) (w : IFields)
  /-- R204. Marver lane slide. -/
  | vslide (c : CoreId) (w : IFields)
  /-- R204. Extracts a Marver word to a scalar register. -/
  | vext (c : CoreId) (w : IFields)
  /-- R204. Inserts a scalar into a Marver word. -/
  | vins (c : CoreId) (w : IFields)
  /-- R206. Marver base-2 exponential. -/
  | vexp2 (c : CoreId) (w : IFields)
  /-- R206. Marver natural exponential. -/
  | vexp (c : CoreId) (w : IFields)
  /-- R206. Marver base-2 logarithm. -/
  | vlog2 (c : CoreId) (w : IFields)
  /-- R206. Marver natural logarithm. -/
  | vln (c : CoreId) (w : IFields)
  /-- R206. Marver reciprocal. -/
  | vrcp (c : CoreId) (w : IFields)
  /-- R206. Marver reciprocal square root. -/
  | vrsqrt (c : CoreId) (w : IFields)
  /-- R206. Marver square root. -/
  | vsqrt (c : CoreId) (w : IFields)
  /-- R206. Marver hyperbolic tangent. -/
  | vtanh (c : CoreId) (w : IFields)
  /-- R206. Marver sigmoid. -/
  | vsigm (c : CoreId) (w : IFields)
  /-- R206. Marver error function. -/
  | verf (c : CoreId) (w : IFields)
  /-- R206. Marver sine. -/
  | vsin (c : CoreId) (w : IFields)
  /-- R206. Marver cosine. -/
  | vcos (c : CoreId) (w : IFields)
  /-- R209. Triggers a software-triggered stream, or sets its pending trigger. -/
  | strig (c : CoreId) (w : IFields)
  /-- R209. Holds issue until a stream has completed the given number of runs. -/
  | swait (c : CoreId) (w : IFields)
  /-- R209. Returns a stream's status word. -/
  | sstat (c : CoreId) (w : IFields)
  /-- R346. Blocking send of a queue entry on a handle. -/
  | qsend (c : CoreId) (w : IFields)
  /-- R356. Non-blocking send of a queue entry returning a status. -/
  | qsendn (c : CoreId) (w : IFields)
  /-- R350. Blocking send of a ring record. -/
  | qsendr (c : CoreId) (w : IFields)
  /-- R350. Non-blocking send of a ring record returning a status. -/
  | qsendrn (c : CoreId) (w : IFields)
  /-- R343. Binds an operand port to a local queue. -/
  | qbind (c : CoreId) (w : IFields)
  /-- R210. Unbinds an operand port. -/
  | qunbind (c : CoreId) (w : IFields)
  /-- R210. Discards the head entry of a bound queue. -/
  | qpop (c : CoreId) (w : IFields)
  /-- R210. Returns the entry count of a bound queue. -/
  | qcount (c : CoreId) (w : IFields)
  /-- R339. Creates a channel and waits for the sender's acknowledgement. -/
  | qcreate (c : CoreId) (w : IFields)
  /-- R341. Destroys a channel after handle checks. -/
  | qdestroy (c : CoreId) (w : IFields)
  /-- R324. Arrives at a barrier group and waits for its release. -/
  | bar (c : CoreId) (w : IFields)
  /-- R324. Arrives at a barrier group and continues. -/
  | bara (c : CoreId) (w : IFields)
  /-- R324. Waits for a group's current round without arriving. -/
  | barw (c : CoreId) (w : IFields)
  /-- R213. Arrives at the phase-starting barrier and waits under the run-ahead limit. -/
  | phstart (c : CoreId) (w : IFields)
  /-- R213. Waits for the arrays and converts to drain, then arrives at the phase-ending barrier. -/
  | phend (c : CoreId) (w : IFields)
  /-- R214. Reads a core CSR into a scalar register. -/
  | csrr (c : CoreId) (w : IFields)
  /-- R214. Writes a core CSR and returns OK or FROZEN. -/
  | csrw (c : CoreId) (w : IFields)
  /-- R215. No operation. -/
  | nop (c : CoreId) (w : IFields)
  /-- R215. Holds issue until earlier instructions complete. -/
  | fence (c : CoreId) (w : IFields)
  /-- R215. Raises SW_TRAP with IMM as information. -/
  | trap (c : CoreId) (w : IFields)
  /-- R215. Waits as FENCE, enters HALTED and reports to the die Punty. -/
  | halt (c : CoreId) (w : IFields)
  /-- R218. CS_TRAPCTL action re-issuing the trapped instruction. -/
  | resume (r : Requester) (c : CoreId)
  /-- R218. CS_TRAPCTL action continuing at PC + 1, abandoning a blocked send. -/
  | skip (r : Requester) (c : CoreId)
  /-- R218. CS_TRAPCTL action continuing at NEWPC. -/
  | goto (r : Requester) (c : CoreId) (newpc : BitVec 13)
  /-- R218. CS_TRAPCTL action forcing a STOPPED trap. -/
  | trapctlStop (r : Requester) (c : CoreId)
  /-- R222. A write of a scalar register of a trapped or halted core. -/
  | csSregWrite (r : Requester) (c : CoreId) (n : Fin 32) (v : Word)
  /-- R222. A write of an address register of a trapped or halted core. -/
  | csAregWrite (r : Requester) (c : CoreId) (n : Fin 16) (high : Bool) (v : Word)
  /-- R234. A bank offered to the dynamic arbiter grants one requester a line access. -/
  | bankGrant (c : CoreId) (bank : Fin 16) (a : BankAccess)
  /-- R235. A losing requester's back-off ends and it requests again. -/
  | bankBackoffExpiry (c : CoreId) (bank : Fin 16) (q : DynReq)
  /-- R243. A corrected word is written back in the next idle NCLK unless overwritten. -/
  | eccWriteback (c : CoreId) (word : Nat)
  /-- R246. At the phase boundary a stoned SRAM row starts copying into a spare row. -/
  | rowMapOut (c : CoreId) (row : Nat)
  /-- R246. The row copy completes and the remap entry switches. -/
  | mapOutComplete (c : CoreId)
  /-- R248. The patrol scrubber reads and corrects the next line in an idle NCLK. -/
  | patrolScrub (c : CoreId) (bank : Fin 16) (e : EccFind)
  /-- R248. CP_CMD.ZERO starts zeroing the scratchpad, or is refused when the sequencer runs. -/
  | zero (r : Requester) (c : CoreId)
  /-- R248. Scratchpad zeroing completes. -/
  | zeroComplete (c : CoreId)
  /-- R257. CP_CMD.RCINV starts invalidation of the remote cache. -/
  | rcinv (r : Requester) (c : CoreId)
  /-- R257. Remote-cache invalidation completes and held cacheable RLWs proceed. -/
  | rcinvComplete (c : CoreId)
  /-- R274. A frame start token sets each slot counter to its trained offset. -/
  | token (d : DieId) (seq : Fin 16) (crc : BitVec 8)
  /-- R275. A router output sends in its slot the oldest waiting flit of the slot's stream, checking ECC. -/
  | flitForward (c : CoreId) (port : Fin 9) (slot : Fin 4096) (ecc : FlitChecks)
  /-- R277. A flit waiting one frame at a router input is dropped. -/
  | flitExpire (c : CoreId) (port : Fin 9)
  /-- R282. A triggered stream begins a run at its START slot. -/
  | streamRunStart (d : DieId) (i : Fin 32768)
  /-- R285. A run completes when its last flit is written and all credits return, releasing ranges or passing them to a pending run. -/
  | streamRunComplete (d : DieId) (i : Fin 32768)
  /-- R284. A stream credit packet returns credits to the source engine. -/
  | scredit (n : NodeId) (i : Fin 32768) (count : Nat)
  /-- R287. An active run moves no flit for DN_TIMEOUT and is reported. -/
  | streamStall (d : DieId) (i : Fin 32768)
  /-- R288. A DN_SCMD stop ends a stream's run at both ends. -/
  | streamStop (r : Requester) (d : DieId) (i : Fin 32768)
  /-- R297. A write of DN_TBLSEL.SWAP registers a fallback swap request. -/
  | swap (r : Requester) (d : DieId)
  /-- R297. At the first frame start after the step boundary, all routers and matched cane engines change bank. -/
  | fallbackSwap (d : DieId)
  /-- R168. A verdict packet reaches a core, consumer gather or the sequence-slot engine. -/
  | verdict (dest : VerdictTo) (v : VerdictMsg)
  /-- R216. A trap report reaches the die Punty. -/
  | trapPacket (c : CoreId) (code : Nat) (dest own : Nat)
  /-- R535. An error or fault report packet reaches its collector. -/
  | error (col : Collector) (e : ErrorReport)
  /-- R312. An interrupt packet reaches a Punty or the hub. -/
  | intr (dest : NodeId) (cause : Nat)
  /-- R312. A firmware command packet reaches its target. -/
  | ctrl (dest : NodeId) (cmd : CtrlCmd)
  /-- R354. A queue entry or ring record packet lands in the receiver's queue. -/
  | qmsg (c : CoreId) (m : QMsg)
  /-- R359. A FLUSH marker makes the receiving QM discard flushed-phase entries and return their credits. -/
  | flush (c : CoreId) (handle : Word)
  /-- R345. A queue credit packet restores a sender's credits, completing a waiting send. -/
  | qcredit (n : NodeId) (handle : Word) (entries lines : Nat)
  /-- R345. 64 NCLK after the oldest pending credit, a QCREDIT packet is sent. -/
  | qcreditTimer (c : CoreId) (q : Fin 256)
  /-- R312. A read request packet reaches its target. -/
  | rdreq (src : NodeId) (tag : BitVec 12) (mga : Mga) (fill : Bool)
  /-- R256. A read response arrives, completing an RLW or filling the remote cache. -/
  | rdrsp (c : CoreId) (tag : BitVec 12) (fault : Bool) (data : List Byte)
  /-- R249. A write request packet reaches its target and is checked against windows. -/
  | wrreq (src : NodeId) (tag : BitVec 12) (mga : Mga) (data : List Byte)
  /-- R312. A write status packet reaches the requester. -/
  | wrrsp (c : CoreId) (tag : BitVec 12) (ok : Bool)
  /-- R384. A parison broadcast packet delivers record data to its targets. -/
  | parison (src : NodeId) (pkt : ParisonPkt)
  /-- R339. The sender's QM installs a send-table entry and acknowledges. -/
  | handleCreate (n : NodeId) (handle : Word) (ring : Bool) (depth lines : Nat)
  /-- R341. The sender's QM removes a send-table entry and ends sends on it. -/
  | handleDestroy (n : NodeId) (handle : Word)
  /-- R362. Every QM removes send-table entries naming a reset die. -/
  | handlePurge (d : DieId)
  /-- R339. The sender's acknowledgement completes QCREATE or QDESTROY. -/
  | handleAck (c : CoreId) (handle : Word) (fail : Option Nat)
  /-- R318. A normal-channel request gets no response within REQTO and completes with TIMEOUT. -/
  | cnTimeout (c : CoreId) (tag : BitVec 12)
  /-- R324. A round completes when every member arrives, and the release reaches the leaves. -/
  | barrierRelease (d : DieId) (g : Fin 64)
  /-- R327. A round open longer than BTO is reported with the missing members. -/
  | barrierStall (d : DieId) (g : Fin 64)
  /-- R328. A parity error on a sync bundle holds its groups and raises a router fault. -/
  | syncParity (d : DieId) (bundle : Fin 2) (at_ : Pos)
  /-- R326. A cross-die arrive or release sideband message reaches the hub or a die root. -/
  | sync (m : SyncMsg) (seq : Fin 16) (crc : BitVec 8)
  /-- R353. A write of CQ_RREL releases popped ring records and frees lines as credit. -/
  | ringRelease (c : CoreId) (q : Fin 256) (count : BitVec 8)
  /-- R341. Firmware destroys a run-time queue through CQ_CMD. -/
  | cqCmdDestroy (r : Requester) (c : CoreId) (q : Fin 256)
  /-- R357. The blocked-send watchdog expires and the core traps. -/
  | blockedSend (c : CoreId)
  /-- R358. A collector pairs blocked-send reports and skips the victim and resumes the other. -/
  | deadlockResolve (col : Collector) (a b : BlockReport)
  /-- R380. PZ_HCMD LOAD locks the staging range and starts checking an image. -/
  | load (r : Requester)
  /-- R390. PZ_HCMD ABORT ends a load in CHECKING or WAITING. -/
  | abort (r : Requester)
  /-- R381. The checks of an image end in a refusal status or pass to WAITING. -/
  | parisonCheckComplete
  /-- R383. After the wait, a full load clears state, maps rows and sends its records. -/
  | parisonApply
  /-- R387. After the gather quiesces, a segment's records are applied to its gather. -/
  | segmentApply
  /-- R387. A segment's wait exceeds PZ_HQTO and the reload ends unapplied. -/
  | quiesceTo
  /-- R384. A die node acknowledges the end of a section, advancing the hub's load. -/
  | parisonSectionAck (d : DieId) (sect : Nat)
  /-- R375. When all gathers have their final verdict and no side effect waits, the hub applies pending writes and releases phase 0. -/
  | stepBoundary
  /-- R404. A cane receiver checks a link group at its LINK beat and delivers or NAKs it. -/
  | linkGroupReceive (p : PortId) (errs : List WireErr) (grp : Option SpanGroup)
  /-- R405. The ack timer lapses and the oldest unacknowledged group is resent. -/
  | ackTimeout (p : PortId)
  /-- R407. A HOLD sideband message makes source engines behave as without credit. -/
  | sbHold (d : DieId) (p : Fin 9) (i : Fin 32768) (seq : Fin 16) (crc : BitVec 8)
  /-- R407. A RELEASE sideband message lifts HOLD. -/
  | sbRelease (d : DieId) (p : Fin 9) (i : Fin 32768) (seq : Fin 16) (crc : BitVec 8)
  /-- R410. An LCMD STEER announces a lane repair at group AT. -/
  | steer (p : PortId) (lane : Fin 256) (spare : Fin 8) (at_ : BitVec 12)
  /-- R410. An LCMD WIDTH announces a width change at group AT. -/
  | width (p : PortId) (width : Fin 4) (at_ : BitVec 12)
  /-- R410. The transmitter acknowledges a STEER. -/
  | steerAck (p : PortId) (lane : Fin 256) (spare : Fin 8) (at_ : BitVec 12)
  /-- R410. The transmitter acknowledges a WIDTH change. -/
  | widthAck (p : PortId) (width : Fin 4) (at_ : BitVec 12)
  /-- R414. A port begins retraining, holding its data and moving control flits to its partner. -/
  | retrain (r : Requester) (p : PortId)
  /-- R413. Training ends and the port resumes at its set width, or ends under R412. -/
  | linkTrainingComplete (p : PortId) (ok : Bool) (near far : EndLanes) (latency : BitVec 8)
  /-- R284. A sideband stream-credit message returns credits across dies. -/
  | sbScredit (d : DieId) (p : Fin 9) (i : Fin 32768) (count : Fin 16) (seq : Fin 16) (crc : BitVec 8)
  /-- R70. A MARK sideband message carries the MCLK offset marker or strap report. -/
  | mark (d : DieId) (m : MarkMsg) (seq : Fin 16) (crc : BitVec 8)
  /-- R415. A sideband CSR read of a stopped die. -/
  | sbread (d : DieId) (off : Nat) (seq : Fin 16) (crc : BitVec 8)
  /-- R416. A sideband resend request makes the sender resend from the named message. -/
  | sbnak (p : PortId) (m : NakMsg)
  /-- R65. A CLKLOST sideband message reports a die's clock loss to the hub. -/
  | clklost (d : DieId) (seq : Fin 16) (crc : BitVec 8)
  /-- R424. A span IDENT message is checked, the partner verified and the keys derived. -/
  | ident (p : Fin 8) (m : IdentMsg)
  /-- R423. A span lane marker is checked for lock, loss of lock and deskew. -/
  | laneMarker (p : Fin 8) (lane : Fin 8) (mark : Option (BitVec 80))
  /-- R611. A span cable-present input changes, blocking or allowing training. -/
  | cblChange (p : Fin 8) (present : Bool)
  /-- R430. Refresh takes three available slots of a pseudo-channel. -/
  | refresh (k : StackId) (pc : Fin 24)
  /-- R438. A pseudo-channel grants a transfer to one requester in an available slot. -/
  | stackGrant (k : StackId) (pc : Fin 24) (o : StackOffer)
  /-- R439. A losing stack requester's back-off ends. -/
  | stackBackoffExpiry (k : StackId) (pc : Fin 24) (q : Fin 4)
  /-- R431. A stack's forwarded clock stops and it enters self-refresh. -/
  | selfRefreshEntry (k : StackId)
  /-- R431. The clock returns and the stack leaves self-refresh. -/
  | selfRefreshExit (k : StackId)
  /-- R449. Pass 1 ends and the stack sends its partial norms to the lead. -/
  | pass1Complete (k : StackId) (l : Fin 1024)
  /-- R443. Pass 2 ends, the layer returns to IDLE and held cane requests are granted. -/
  | pass2Complete (k : StackId) (l : Fin 1024)
  /-- R455. A partial is missing at the lead after NTO and the layer is LOST. -/
  | updateTimeout (k : StackId) (l : Fin 1024)
  /-- R455. A LOST message stops a layer update in every stack of the view. -/
  | layerLost (k : StackId) (l : Fin 1024)
  /-- R458. TS_CMD.ZERO starts zeroing the whole stack. -/
  | stackZero (r : Requester) (k : StackId)
  /-- R458. Stack zeroing completes and held cane requests proceed. -/
  | stackZeroComplete (k : StackId)
  /-- R454. TS_CMD.COPY forms a layer's working copy from stored w. -/
  | copy (r : Requester) (k : StackId) (l : Fin 1024)
  /-- R454. A working-copy run completes and the layer's hold ends. -/
  | layerCopyComplete (k : StackId) (l : Fin 1024)
  /-- R457. Every INTV NCLK the scrubber reads the next line of each pseudo-channel. -/
  | stackScrub (k : StackId)
  /-- R465. A hub Punty's watchdog lapses and the Punty is reset. -/
  | puntyWatchdog (p : Fin 4)
  /-- R468. A Function Level Reset resets the host interface only. -/
  | functionLevelReset
  /-- R468. A hot reset resets the host interface only. -/
  | hotReset
  /-- R468. A PCIe link-down event resets the host interface only. -/
  | linkDown
  /-- R469. Transition to D3hot disables the slots. -/
  | d3hotEntry
  /-- R469. Return to D0 from D3hot. -/
  | d0Return
  /-- R470. A host completion arrives, ending a hub request on UR or CA. -/
  | hostCompletion (id : Nat) (c : Completion)
  /-- R470. A host completion does not arrive within the timeout in force. -/
  | completionTimeout (id : Nat)
  /-- R473. A host read through a BAR2 aperture. -/
  | bar2Read (o : BitVec 36) (n : Nat)
  /-- R474. A host write through a BAR2 aperture. -/
  | bar2Write (o : BitVec 36) (data : List (Option Byte))
  /-- R476. The IDE stream leaves the secure state and the copy engine stops. -/
  | ideSecureLoss
  /-- R486. A submission tail doorbell write announces entries or faults the slot. -/
  | sqTailDoorbell (slot : Fin 64) (t : Word)
  /-- R486. A completion head doorbell write reports consumed records. -/
  | cqHeadDoorbell (slot : Fin 64) (h : Word)
  /-- R477. A write of HB_SLOTs.EN = 1 enables a slot after checks. -/
  | slotEnable (r : Requester) (slot : Fin 64)
  /-- R487. A slot is disabled, abandoning waiting entries and cancelling records. -/
  | slotDisable (r : Requester) (slot : Fin 64)
  /-- R486. A DMA read of submission entries returns them to the hub. -/
  | entryFetch (slot : Fin 64) (data : List Byte)
  /-- R479. Submission NOP completes at once. -/
  | sqNop (slot : Fin 64)
  /-- R479. Copies bytes from host memory to an MGA. -/
  | copyIn (slot : Fin 64)
  /-- R481. COPY_IN with ZFILL writes zeros without reading the host. -/
  | zfill (slot : Fin 64)
  /-- R479. Copies bytes from an MGA to host memory. -/
  | copyOut (slot : Fin 64)
  /-- R479. Sends a queue entry on a handle from the sequence-slot engine. -/
  | send (slot : Fin 64)
  /-- R479. Sends a ring record from host memory on a handle. -/
  | sendr (slot : Fin 64)
  /-- R479. Waits for a stream run and completes when its source phase is sealed. -/
  | awaitRun (slot : Fin 64)
  /-- R479. Waits for the step boundary that ends a given step. -/
  | stepWait (slot : Fin 64)
  /-- R479. Banks LEN step releases. -/
  | stepGo (slot : Fin 64)
  /-- R479. Asks firmware for a report to be published in a mailbox. -/
  | query (slot : Fin 64)
  /-- R483. A copy-engine transfer completes or stops at a fault and its record is written. -/
  | hostCopyComplete (slot : Fin 64)
  /-- R480. A SEND or SENDR without credit completes NO_CREDIT after SENDTO. -/
  | sendtoExpiry (slot : Fin 64) (tag : BitVec 16)
  /-- R489. The moderation time after the oldest unsignalled record lapses and the vector is signalled. -/
  | irqModerationTimeout (slot : Fin 64)
  /-- R490. A write of HB_STEPCTL.HOLD sets step holding or releases a withheld step. -/
  | stepHoldWrite (r : Requester) (v : Bool)
  /-- R490. A write of GO banks one step release. -/
  | stepctlGo (r : Requester)
  /-- R491. A producer commits a staged mailbox result, at once or on its phase's seal. -/
  | mailboxCommit (r : Requester) (m : Fin 16) (tag : Option (Gather × BitVec 16))
  /-- R492. Host software releases a published mailbox result. -/
  | mailboxRelease (r : Requester) (m : Fin 16)
  /-- R492. A read of mailbox word 0 returns the status and sets READ_BEFORE. -/
  | mailboxStatusRead (m : Fin 16)
  /-- R507. Every 16,384 HCLK the die Lehr latches activity counters and estimates island power. -/
  | powerEstimate (d : DieId) (p : PowerSample)
  /-- R509. Once per second the die Lehr recalibrates kcal against measured VDDL power. -/
  | kcalCalibrate (d : DieId) (mw : Nat)
  /-- R510. After 100 ms without WARN, CRZOFF falls by one. -/
  | crzoffDecay (d : DieId)
  /-- R502. A VDDL sense pair goes out of range and is excluded. -/
  | senseInvalid (d : DieId) (f : Fin 4)
  /-- R506. An island short opens the header and fences its five positions. -/
  | islandShort (d : DieId) (isl : Fin 16)
  /-- R506. A short on the shared VDDL trips the die's regulator. -/
  | vddlTrip (d : DieId)
  /-- R512. A hint boost ends 100 µs after its phase. -/
  | boostExpiry (g : Gather)
  /-- R515. A power-up not admitted within ADMIT_US begins staged switch closing. -/
  | staging (d : DieId) (isl : Fin 16)
  /-- R515. One staged switch finishes closing and the next begins. -/
  | stagedSwitchClose (d : DieId) (isl : Fin 16)
  /-- R519. A core's wake completes and a waiting phase release proceeds. -/
  | wakeComplete (c : CoreId)
  /-- R522. Every 100 µs the module Lehr samples input voltage and current. -/
  | inputSample (mv ma : Nat)
  /-- R522. Every 10 ms the module Lehr resets each die's effective share. -/
  | capShareUpdate
  /-- R523. Every 1 ms each die Lehr slows or speeds one gather against its share and temperatures. -/
  | capStep (d : DieId)
  /-- R524. A compute island reaches 115 °C and VDDL of the die is switched off. -/
  | thermalTrip (d : DieId)
  /-- R524. The hub reaches 115 °C and every rail goes down. -/
  | hubThermalTrip
  /-- R524. A stack reaches 105 °C, enters self-refresh and its port goes down. -/
  | stackThermalTrip (k : StackId)
  /-- R530. A collector judges a fault event as SEED or STONE against its item. -/
  | faultEvent (e : FaultEvent)
  /-- R549. A lost die's reset completes and the hub reloads its records and sends the token. -/
  | dieResetComplete (d : DieId) (ok : Bool)
  /-- R540. FT_SCAN.START begins a scan of a quarantined position. -/
  | scanStart (r : Requester) (d : DieId)
  /-- R541. A scan ends and the position becomes SPARE or FENCED_FIELD. -/
  | scanComplete (d : DieId) (pass : Bool) (pattern : BitVec 16)
  /-- R542. Every FT_ROT.INTV hours firmware rotates a mapped position out for scan. -/
  | rotation (d : DieId)
  /-- R543. FT_GCMD RECALL makes a seal unit recall its phase in progress. -/
  | forcedRecall (r : Requester) (g : Gather)
  /-- R543. FT_GCMD HOLD stops a gather's phase-starting barrier from completing. -/
  | gatherHold (r : Requester) (g : Gather)
  /-- R543. FT_GCMD RELEASE ends a gather's hold. -/
  | gatherRelease (r : Requester) (g : Gather)
  /-- R543. FT_REFETCH GO runs a stream once more with its last tags. -/
  | refetch (r : Requester) (d : DieId) (i : Fin 32768)
  /-- R544. A core not answering STOP within 10 µs is declared dead. -/
  | stopTimeout (c : CoreId) (noRefetch : Bool)
  /-- R586. An unacknowledged PLDM event is retried after 1 s. -/
  | pldmEventRetry (tr : Fin 2) (e : PldmEvent)
  /-- R601. PWR_EN is asserted with a valid input and the bulk capacitance starts charging. -/
  | pwrEnAssert (mv lowMs : Nat)
  /-- R557. The input becomes valid and the cold start begins its stages. -/
  | coldStart
  /-- R557. A start stage ends and the next begins, or the start stops with FAILSTEP. -/
  | coldStartStageEnd (r : StageResult)
  /-- R561. A core not reporting its self-test within 100 ms is handled as a core stone. -/
  | selftestTimeout (c : CoreId)
  /-- R558. 1.0 s after reset the endpoint stops answering configuration requests with Request Retry Status. -/
  | configRetryEnd
  /-- R563. BT_CMD.WARM orders a warm reset of the module. -/
  | warm (r : Requester) (full : Bool)
  /-- R566. BT_CMD.DIE_RST orders a warm reset of one die. -/
  | dieRst (r : Requester) (d : DieId) (full : Bool)
  /-- R569. SPDM GET_VERSION request. -/
  | getVersion (c : SpdmCtx)
  /-- R569. SPDM GET_CAPABILITIES request. -/
  | getCapabilities (c : SpdmCtx)
  /-- R569. SPDM NEGOTIATE_ALGORITHMS request. -/
  | negotiateAlgorithms (c : SpdmCtx) (offered : Bool)
  /-- R569. SPDM GET_DIGESTS request. -/
  | getDigests (c : SpdmCtx)
  /-- R569. SPDM GET_CERTIFICATE request. -/
  | getCertificate (c : SpdmCtx) (slot : Fin 8)
  /-- R569. SPDM CHALLENGE request. -/
  | challenge (c : SpdmCtx) (nonce : Nat)
  /-- R570. SPDM GET_MEASUREMENTS returns all measurement blocks at one instant. -/
  | getMeasurements (c : SpdmCtx) (nonce : Nat)
  /-- R569. SPDM KEY_EXCHANGE request. -/
  | keyExchange (c : SpdmCtx)
  /-- R569. SPDM FINISH request. -/
  | finish (c : SpdmCtx) (leaf : Option Nat)
  /-- R569. SPDM HEARTBEAT request. -/
  | heartbeat (c : SpdmCtx)
  /-- R569. SPDM KEY_UPDATE request. -/
  | keyUpdate (c : SpdmCtx)
  /-- R569. SPDM END_SESSION request. -/
  | endSession (c : SpdmCtx)
  /-- R572. A vendor request installs an owner record and sets OWNED. -/
  | claim (c : SpdmCtx) (o : Owner)
  /-- R573. A vendor request moves the module to RELEASING and runs the scrub sequence to UNOWNED. -/
  | release (c : SpdmCtx)
  /-- R572. A vendor request replaces parison keys, span secret, IDE_REQ or DEBUG_CONSENT. -/
  | setKeys (c : SpdmCtx) (k : KeyChange)
  /-- R577. A vendor SPDM request checks and stores a licence. -/
  | installLicence (c : SpdmCtx) (lic : List Byte)
  /-- R568. A vendor request writes and verifies a new firmware image in the idle slot. -/
  | fwStage (c : SpdmCtx) (w : FwBlob)
  /-- R568. A vendor request raises the fused SVN to the image's SVN. -/
  | fwCommit (c : SpdmCtx) (svn : Fin 65)
  /-- R572. A vendor request returns the owner key and flags. -/
  | ownerInfo (c : SpdmCtx)
  /-- R581. MCTP control Set Endpoint ID. -/
  | setEndpointId (tr : Fin 2) (eid : BitVec 8)
  /-- R581. MCTP control Get Endpoint ID. -/
  | getEndpointId (tr : Fin 2)
  /-- R581. MCTP control Get MCTP Version Support. -/
  | getMctpVersionSupport (tr : Fin 2) (ty : BitVec 8)
  /-- R581. MCTP control Get Message Type Support. -/
  | getMessageTypeSupport (tr : Fin 2)
  /-- R581. MCTP control Get Vendor Defined Message Support. -/
  | getVendorDefinedMessageSupport (tr : Fin 2) (sel : Nat)
  /-- R581. An MCTP message of an unsupported type is dropped and counted. -/
  | unsupportedMctpMessage (tr : Fin 2) (ty : BitVec 8)
  /-- R585. A PLDM discovery or sensor request is answered. -/
  | pldmMessage (tr : Fin 2) (m : PldmReq)
  /-- R584. Vendor MCTP command returning a report. -/
  | getReport (tr : Fin 2) (n : Nat)
  /-- R584. Vendor MCTP command ordering a warm reset. -/
  | warmReset (tr : Fin 2) (full : Bool)
  /-- R584. Vendor MCTP command installing a licence. -/
  | mctpInstallLicence (tr : Fin 2) (lic : List Byte)
  /-- R584. Vendor MCTP command returning fault records from a Record ID. -/
  | readFaultLog (tr : Fin 2) (id n : Nat)
  /-- R582. I3C CCC ENTDAA assigns a dynamic address. -/
  | entdaa (addr : BitVec 7)
  /-- R582. I3C CCC RSTDAA resets the dynamic address. -/
  | rstdaa
  /-- R582. I3C CCC GETPID returns the provisioned ID. -/
  | getpid
  /-- R582. I3C CCC GETBCR. -/
  | getbcr
  /-- R582. I3C CCC GETDCR. -/
  | getdcr
  /-- R582. I3C CCC GETMRL. -/
  | getmrl
  /-- R582. I3C CCC GETMWL. -/
  | getmwl
  /-- R582. I3C CCC ENEC enables events. -/
  | enec (ibi : Bool)
  /-- R582. I3C CCC DISEC disables events. -/
  | disec (ibi : Bool)
  /-- R582. I3C CCC RSTACT. -/
  | rstact (action : BitVec 8)
  /-- R585. Every 100 ms sensor readings refresh and threshold crossings send events. -/
  | sensorRefresh
  /-- R590. Jacks help prints the command list. -/
  | jkHelp (len : Nat)
  /-- R588. Jacks baud sets the UART rate after the ok line. -/
  | jkBaud (len rate : Nat)
  /-- R590. Jacks id prints report 0. -/
  | jkId (len : Nat)
  /-- R590. Jacks faults prints report 1. -/
  | jkFaults (len : Nat)
  /-- R590. Jacks gather prints report 2. -/
  | jkGather (len : Nat) (d : Option DieId)
  /-- R590. Jacks power prints report 3. -/
  | jkPower (len : Nat)
  /-- R590. Jacks island prints island and position state. -/
  | jkIsland (len : Nat) (d : DieId) (n : Option (Fin 16))
  /-- R590. Jacks clk prints clock status. -/
  | jkClk (len : Nat)
  /-- R590. Jacks log prints fault records. -/
  | jkLog (len : Nat) (first : Option Nat) (n : Nat)
  /-- R591. Jacks peek reads words as the debug requester. -/
  | jkPeek (len : Nat) (mga : Mga) (n : Nat)
  /-- R591. Jacks poke writes a word at OPEN and logs it. -/
  | jkPoke (len : Nat) (mga : Mga) (v : Word)
  /-- R592. Jacks eye sweeps a lane's monitor sampler. -/
  | jkEye (len : Nat) (p : PortId) (lane : Nat) (counts : List Nat) (retrained : Bool)
  /-- R590. Jacks scan runs a position scan at OPEN. -/
  | jkScan (len : Nat) (d : DieId) (row : Fin 8) (col : Fin 10)
  /-- R590. Jacks parison prints the image in force. -/
  | jkParison (len : Nat)
  /-- R590. Jacks parison dump prints a section's records at OPEN. -/
  | jkParisonDump (len sect : Nat)
  /-- R590. Jacks warm orders a warm reset at OPEN. -/
  | jkWarm (len : Nat) (full : Bool)
  /-- R589. Ctrl-C ends a dump or scan display after the current line. -/
  | jkCtrlC
  /-- R593. The boot ROM monitor receives, writes and verifies a firmware image. -/
  | jkRecover (len : Nat) (w : FwBlob)
  /-- R596. JTAG BYPASS instruction. -/
  | bypass
  /-- R596. JTAG IDCODE instruction. -/
  | idcode
  /-- R596. JTAG SAMPLE/PRELOAD instruction. -/
  | samplePreload
  /-- R596. JTAG EXTEST instruction, effective only under BTEST#. -/
  | extest
  /-- R596. JTAG CLAMP instruction. -/
  | clamp
  /-- R596. JTAG HIGHZ instruction. -/
  | highz
  /-- R596. JTAG EXTEST_PULSE instruction. -/
  | extestPulse
  /-- R596. JTAG EXTEST_TRAIN instruction. -/
  | extestTrain
  /-- R602. The input falls below 40 V and the module rides through on its bulk. -/
  | inputUndervoltage
  /-- R602. The input rises above 50 V. -/
  | inputOvervoltage (mv : Nat)
  /-- R602. Input current above 160 A for 1 ms opens the switch. -/
  | inputOvercurrent
  /-- R604. On input fail the headers open, rails discharge and MOD_READY deasserts. -/
  | inputFail
  /-- R605. Deasserting PWR_EN acts as an input fail. -/
  | pwrEnDeassert
  /-- R615. PERST# low brings the link down and resets the host interface. -/
  | perstAssert
  /-- R615. PERST# deasserted starts link training. -/
  | perstDeassert
  /-- R616. MREF not valid 10 s into stage 3 stops the start. -/
  | mrefTimeout
  /-- R612. A change of BTEST# or OWNCLR# while running is ignored and logged. -/
  | strapInputChange (btest : Bool) (level : Bool)
  /-- R618. Liquid sensed for 1 s drives LEAK# low and is logged. -/
  | leak
  /-- R476. IDE_KM key programming over secured SPDM brings the Link IDE stream into the secure state and sets IDE_OK. -/
  | ideKm (c : SpdmCtx)
  /-- R583. The PCIe link completes training and comes up, so BAR, DOE and MCTP over PCIe VDM are served again. -/
  | pcieLinkUp
  /-- R467. A DOE discovery request is answered with the supported DOE protocols. -/
  | doeDiscovery (index : Nat)
  /-- R569. An SPDM request outside the supported list is answered with ERROR UnsupportedRequest. -/
  | unsupportedSpdmRequest (c : SpdmCtx) (code : BitVec 8)
  /-- R188. A fetched instruction word with an OPC not in the opcode map raises the ILLEGAL trap at issue. -/
  | illegal (c : CoreId)
  /-- R185. An uncorrectable ECC error on an instruction fetch raises IMEM_UE and makes the core dead under R544. -/
  | imemUe (c : CoreId)
  /-- R67. Loss of the received clock on a cane port other than CH is detected and handled as a link fault of that port. -/
  | portClockLoss (d : DieId) (p : Fin 9)
  /-- R502. A VDDL sense pair returns within its range and is used again, clearing LOCAL when it was the last invalid pair. -/
  | sensePairValid (d : DieId) (f : Fin 4)
  /-- R602. The input returns within 40.0–50.0 V before the bulk falls to 36.0 V or 10 ms pass, and normal operation resumes. -/
  | inputReturn
deriving DecidableEq, Repr

end Sys2Proof
end

