-- ==== Sys2Proof/Config.lean ====
section
/-! DEFINITION. The free values: constants without a body, for values the spec leaves open. No proof can see one. -/

namespace Sys2Proof

/-- A number the spec does not state, one for each count of `State.free` (notes/assumptions). -/
opaque Config.freeValue : Nat → Nat

/-- Which of the results within its error bound a transcendental operation gives, by opcode and operand (R206). -/
opaque Config.ulpChoice : Nat → Nat → Nat

/-- The SM3 digest of a byte string, as the number its 32 bytes are, little-endian; the spec names the standard and does
not give the function (R370). -/
opaque Config.sm3 : List Byte → Nat

/-- True when an SM2 signature over a digest verifies under a public key (R370, R577); named and not given by the spec. -/
opaque Config.sm2Verify : Nat → Nat → Nat → Bool

/-- The public key of a firmware or licence key by its identifier, where a chain certifies it to the root key whose hash is
fused; 0 where none does (R568, R576). -/
opaque Config.certKey : Nat → Nat

/-- The signature of the device key over a digest (R567). -/
opaque Config.deviceSign : Nat → Nat

/-- The bytes of the device certificate chain (R567). -/
opaque Config.certChain : List Byte

/-- The digest of the boot ROM (R570). -/
opaque Config.bootRom : Nat

/-- Rhofa's assigned identifiers, FUSED or assigned and not given by the spec: PCI vendor (R467), MIPI manufacturer (R582),
JEP106 code (R596). -/
opaque Config.pciVendor : Nat
opaque Config.mipiId : Nat
opaque Config.jep106 : Nat

/-- What ARG of a head flit holds for a TYPE whose content the spec does not lay out (R311). -/
opaque Config.headArg : Nat → Nat

/-- The bits of a body flit of a packet, by the packet's number and the flit's, of a TYPE whose content the spec does not lay out. -/
opaque Config.bodyFlit : Nat → Nat → Nat

/-- The SECDED (72,64) check bits of a 64-bit word: the spec names the code and not its matrix (R311). -/
opaque Config.eccBits : Nat → Nat

/-- The control flit in which a stream credit crosses a span, from the stream and the count, and back: how it names them is not stated
(R419). -/
opaque Config.creditFlit : Nat → Nat → Nat
opaque Config.creditOf : Nat → Option (Nat × Nat)

/-- SM4-GCM, which the spec names and does not give (R420): sealing with a key, an IV, authenticated bits and the parts of the plaintext
gives the parts of the ciphertext and the tag; opening gives the plaintext, or none where the tag fails. -/
opaque Config.gcmSeal : Nat → Nat → Nat → List Nat → List Nat × Nat
opaque Config.gcmOpen : Nat → Nat → Nat → List Nat → Nat → Option (List Nat)

/-- What LK_PEER holds of a partner, from its identity, SLOT and port: how they share the 128 bits is not stated (R427). -/
opaque Config.peerWord : Nat → Nat → Nat → Nat

/-- The bound, in NCLK, on the travel of a report from a node, and from a position there by its POS code, to its collector (R69): the
spec gives only the bounds of R317, which it does not exceed. -/
opaque Config.travel : Nat → Nat → Nat

/-- True when a crossing that is retrained does not reach its design latency (R54), one for each count of `State.free`. -/
opaque Config.crossingFails : Nat → Bool

/-- True when the word an uncorrectable error is found in belongs to a retained input of a sealed phase (R178, R244): the spec lays out
no such region; one for each count of `State.free`. -/
opaque Config.retained : Nat → Bool

/-- The event code of a record for which R538 lists none: 0 a doorbell above the licensed count (R6), 1 an address fault (R47,
R534). -/
opaque Config.eventCode : Nat → Nat

/-- The two extrapolated Q values of an eye sweep, in hundredths, from the disagreements at its 64 steps (R559, R592). -/
opaque Config.eyeQ : List Nat → Nat × Nat

end Sys2Proof
end

