-- ==== Sys2Proof/Machine/Number.lean ====
section
/-! DEFINITION. The eleven number formats (R110-R119), exact values, rounding (R127) and the conversion of one
element (R126-R130, R139): everything below is exact arithmetic on a sign, a magnitude and a power of two. -/

namespace Sys2Proof.Machine

/-- An exact value: NaN, an infinity, or (-1)^neg x m x 2^e. A zero keeps its sign (R113). -/
inductive Val where
  | nan
  | inf (neg : Bool)
  | fin (neg : Bool) (m : Nat) (e : Int)
deriving DecidableEq, Repr

/-- A floating-point format (R111, R112). `top`: the largest exponent field value that is an ordinary exponent. -/
structure Fmt where
  ebits : Nat
  fbits : Nat
  bias : Int
  hasInf : Bool
  hasNan : Bool
  maxCode : Nat
  nanCode : Nat
  infCode : Nat
deriving DecidableEq, Repr

/-- The format of a code (R111, R112); integer formats and the pair have no entry. -/
def fmtOf : Nat → Option Fmt
  | 0 => some ⟨8, 23, 127, true, true, 0x7F7FFFFF, 0x7FC00000, 0x7F800000⟩
  | 1 => some ⟨5, 10, 15, true, true, 0x7BFF, 0x7E00, 0x7C00⟩
  | 2 => some ⟨8, 7, 127, true, true, 0x7F7F, 0x7FC0, 0x7F80⟩
  | 3 => some ⟨4, 3, 7, false, true, 0x7E, 0x7F, 0x7F⟩
  | 4 => some ⟨5, 2, 15, true, true, 0x7B, 0x7E, 0x7C⟩
  | 5 => some ⟨3, 2, 3, false, false, 0x1F, 0, 0⟩
  | 6 => some ⟨2, 3, 1, false, false, 0x1F, 0, 0⟩
  | 7 => some ⟨2, 1, 1, false, false, 0x7, 0, 0⟩
  | _ => none

/-- Element width in bits of a format code (R111, R115); a pair is two 16-bit parts. -/
def fmtBits : Nat → Nat
  | 0 => 32 | 1 => 16 | 2 => 16 | 3 => 8 | 4 => 8 | 5 => 6 | 6 => 6 | 7 => 4 | 8 => 8 | 9 => 4 | 10 => 16 | _ => 0

/-- Elements per Marver register (R119); FP6 counts as 256. -/
def fmtCount : Nat → Nat
  | 0 => 64 | 1 => 128 | 2 => 128 | 3 => 256 | 4 => 256 | 5 => 256 | 6 => 256 | 7 => 512 | 8 => 256 | 9 => 512
  | 10 => 128 | _ => 0

/-- The value of a floating-point encoding (R110, R112). -/
def decodeFp (F : Fmt) (code : Nat) : Val :=
  let s := bit code (F.ebits + F.fbits)
  let E := bits code F.fbits F.ebits
  let f := bits code 0 F.fbits
  let topE := 2 ^ F.ebits - 1
  if F.hasInf && E = topE then (if f = 0 then .inf s else .nan)
  else if F.hasNan && !F.hasInf && E = topE && f = 2 ^ F.fbits - 1 then .nan
  else if E = 0 then .fin s f (1 - F.bias - F.fbits)
  else .fin s (2 ^ F.fbits + f) (E - F.bias - F.fbits)

/-- The value of an element code: floats by R110, INT8 and INT4 in two's complement (R115). -/
def decodeElem (fmt code : Nat) : Val :=
  match fmtOf fmt with
  | some F => decodeFp F code
  | none =>
    let w := fmtBits fmt
    let i := sgn w code
    .fin (i < 0) i.natAbs 0

/-- Exact product. An infinity times zero is invalid (R80). -/
def Val.mul : Val → Val → Val
  | .nan, _ => .nan
  | _, .nan => .nan
  | .inf a, .inf b => .inf (xor a b)
  | .inf a, .fin b m _ => if m = 0 then .nan else .inf (xor a b)
  | .fin a m _, .inf b => if m = 0 then .nan else .inf (xor a b)
  | .fin a m e, .fin b n f => .fin (xor a b) (m * n) (e + f)

/-- Multiplication by a power of two. -/
def Val.scale (k : Int) : Val → Val
  | .fin s m e => .fin s m (e + k)
  | v => v

/-- Change of sign. -/
def Val.neg : Val → Val
  | .nan => .nan
  | .inf s => .inf (!s)
  | .fin s m e => .fin (!s) m e

/-- Absolute value. -/
def Val.abs : Val → Val
  | .nan => .nan
  | .inf _ => .inf false
  | .fin _ m e => .fin false m e

/-- The signed integer a finite value is at the quantum 2^q, for q at or below its exponent. -/
def atExp (s : Bool) (m : Nat) (e q : Int) : Int :=
  let n : Int := (m * 2 ^ (e - q).toNat : Nat)
  if s then -n else n

/-- A signed integer times 2^q as a value; `z` is the sign of a zero. -/
def ofInt (z : Bool) (n q : Int) : Val :=
  if n = 0 then .fin z 0 q else .fin (decide (n < 0)) n.natAbs q

/-- Exact sum. Opposite infinities are invalid (R80); a zero sum is -0 only when both operands are negative zeros or
negative (round to nearest). -/
def Val.add : Val → Val → Val
  | .nan, _ => .nan
  | _, .nan => .nan
  | .inf a, .inf b => if a = b then .inf a else .nan
  | .inf a, .fin _ _ _ => .inf a
  | .fin _ _ _, .inf b => .inf b
  | .fin a m e, .fin b n f =>
    let q := min e f
    ofInt (a && b) (atExp a m e q + atExp b n f q) q

/-- Exact difference. -/
def Val.sub (a b : Val) : Val := a.add b.neg

/-- Signed comparison of two values that are not NaN: the sign of a - b. -/
def Val.cmp : Val → Val → Int
  | .inf a, .inf b => if a = b then 0 else if a then -1 else 1
  | .inf a, _ => if a then -1 else 1
  | _, .inf b => if b then 1 else -1
  | .fin a m e, .fin b n f =>
    let q := min e f
    let d := atExp a m e q - atExp b n f q
    if d < 0 then -1 else if d = 0 then 0 else 1
  | .nan, _ => 0
  | _, .nan => 0

/-- True of a zero. -/
def Val.isZero : Val → Bool
  | .fin _ m _ => m == 0
  | _ => false

/-- The sign of a value; a NaN has none. -/
def Val.isNeg : Val → Bool
  | .nan => false
  | .inf s => s
  | .fin s _ _ => s

/-- True of a finite value. -/
def Val.isFin : Val → Bool
  | .fin _ _ _ => true
  | _ => false

/-- Maximum with max(-0, +0) = +0; a NaN operand gives NaN (R79, R80, R203). -/
def Val.max (a b : Val) : Val :=
  match a, b with
  | .nan, _ => .nan
  | _, .nan => .nan
  | _, _ =>
    let c := a.cmp b
    if c > 0 then a else if c < 0 then b else if a.isNeg then b else a

/-- Minimum with min(-0, +0) = -0; a NaN operand gives NaN (R79, R80, R203). -/
def Val.min (a b : Val) : Val :=
  match a, b with
  | .nan, _ => .nan
  | _, .nan => .nan
  | _, _ =>
    let c := a.cmp b
    if c < 0 then a else if c > 0 then b else if a.isNeg then a else b

/-- A magnitude m x 2^e as a multiple of 2^q, to nearest with ties to even. -/
def roundMag (m : Nat) (e q : Int) : Nat :=
  if q ≤ e then m * 2 ^ (e - q).toNat
  else
    let k := (q - e).toNat
    let n := m / 2 ^ k
    let r := m % 2 ^ k
    let h := 2 ^ (k - 1)
    if r > h then n + 1 else if r < h then n else n + n % 2

/-- Rounding to `p` significant bits, never finer than 2^emin where one is given (R127, R77): to nearest, ties to
even. -/
def roundTo (p : Nat) (emin : Option Int) : Val → Val
  | .fin s m e =>
    if m = 0 then .fin s 0 e
    else
      let q0 := (Nat.log2 m : Int) + e - ((p : Int) - 1)
      let q := match emin with | some x => Max.max q0 x | none => q0
      .fin s (roundMag m e q) q
  | v => v

/-- Rounding to the internal form of the arrays: 27 significant bits (R77). -/
def round27 : Val → Val := roundTo 27 none

/-- `rnd_d` for a floating-point format (R127). -/
def roundFmt (F : Fmt) : Val → Val := roundTo (F.fbits + 1) (some (1 - F.bias - F.fbits))

/-- The encoding of a value that the format represents exactly; none when its magnitude exceeds the largest finite
value. -/
def encodeExact (F : Fmt) : Val → Option Nat
  | .fin s m e =>
    let sb := (b2n s) * 2 ^ (F.ebits + F.fbits)
    if m = 0 then some sb
    else
      let emin : Int := 1 - F.bias - F.fbits
      let top : Int := (Nat.log2 m : Int) + e
      let q : Int := Max.max (top - F.fbits) emin
      let sig := roundMag m e q
      let E : Nat := if sig < 2 ^ F.fbits then 0 else (q + F.fbits + F.bias).toNat
      let mag := if sig < 2 ^ F.fbits then sig else E * 2 ^ F.fbits + (sig - 2 ^ F.fbits)
      if mag ≤ F.maxCode then some (sb + mag) else none
  | _ => none

/-- Conversion flags (R129, R130, R142). -/
structure CFlags where
  ovf : Bool := false
  nan : Bool := false
  sat : Bool := false
  clip : Bool := false
  inx : Bool := false
deriving DecidableEq, Repr

/-- OR of two sets of conversion flags. -/
def CFlags.or (a b : CFlags) : CFlags :=
  ⟨a.ovf || b.ovf, a.nan || b.nan, a.sat || b.sat, a.clip || b.clip, a.inx || b.inx⟩

/-- The saturated code of a format: the largest finite value with the sign, or the integer bound (R129). -/
def satCode (fmt : Nat) (neg : Bool) : Nat :=
  match fmtOf fmt with
  | some F => (b2n neg) * 2 ^ (F.ebits + F.fbits) + F.maxCode
  | none => let w := fmtBits fmt
    if neg then 2 ^ (w - 1) else 2 ^ (w - 1) - 1

/-- The canonical NaN where the format has one, +0 or 0 elsewhere (R130). -/
def nanElem (fmt : Nat) : Nat :=
  match fmtOf fmt with
  | some F => if F.hasNan then F.nanCode else 0
  | none => 0

/-- An overflowing result under an overflow mode: 0 SATF, 1 CLIP, 2 INF (R129); `fromInf`: the source was infinite
(R130). -/
def overflowElem (fmt om : Nat) (neg fromInf : Bool) : Nat × CFlags :=
  if om = 1 then (satCode fmt neg, { clip := true, ovf := fromInf })
  else if om = 2 then
    match fmtOf fmt with
    | some F =>
      if F.hasInf then ((b2n neg) * 2 ^ (F.ebits + F.fbits) + F.infCode, { ovf := true })
      else if F.hasNan then (F.nanCode, { ovf := true, nan := true })
      else (satCode fmt neg, { ovf := true, sat := true })
    | none => (satCode fmt neg, { ovf := true, sat := true })
  else (satCode fmt neg, { ovf := true, sat := true })

/-- `rnd_d` of any destination but the pair: floats by R127, integers to the even integer. -/
def rndElem (fmt : Nat) (v : Val) : Val :=
  match fmtOf fmt with
  | some F => roundFmt F v
  | none => match v with
    | .fin s m e => .fin s (roundMag m e 0) 0
    | w => w

/-- The code of a rounded value, none where it exceeds the largest finite value. -/
def codeOf (fmt : Nat) (v : Val) : Option Nat :=
  match fmtOf fmt with
  | some F => encodeExact F v
  | none => match v with
    | .fin s m _ =>
      let w := fmtBits fmt
      if s then (if m ≤ 2 ^ (w - 1) then some ((2 ^ w - m) % 2 ^ w) else none)
      else (if m < 2 ^ (w - 1) then some m else none)
    | _ => none

/-- Conversion of an exact value to a destination element (R127-R130), any format but the pair. -/
def convElem (fmt om : Nat) (v : Val) : Nat × CFlags :=
  match v with
  | .nan => (nanElem fmt, { nan := true })
  | .inf s => overflowElem fmt om s true
  | .fin s _ _ =>
    let r := rndElem fmt v
    match codeOf fmt r with
    | some c => (c, { inx := decide (r.cmp v ≠ 0) })
    | none => overflowElem fmt om s false

/-- Conversion to a BF16 pair (R117, R128): hi then lo, the two codes. A lo of zero keeps the sign of the value, so that a negative
zero stays one (R113, R130; DEDUCED). Where hi overflows it is what OM gives it and lo is +0, also where SATF or CLIP saturates hi to a
finite value, and also for a pair source whose finite parts sum to the threshold of R128, which R131's table calls exact (DESIGN
CHOICE, notes/assumptions/88). -/
def convPair (om : Nat) (v : Val) : (Nat × Nat) × CFlags :=
  let hi := convElem 2 om v
  match decodeElem 2 hi.1, v with
  | .fin _ _ _, .fin s _ _ =>
    if (codeOf 2 (rndElem 2 v)).isSome then
      let h := decodeElem 2 hi.1
      let d := v.sub h
      let lo := match d with
        | .fin _ 0 _ => (b2n s * 2 ^ 15, ({} : CFlags))
        | _ => convElem 2 om d
      ((hi.1, lo.1), { inx := lo.2.inx })
    else ((hi.1, 0), hi.2)
  | _, _ => ((hi.1, 0), hi.2)

/-- The value of a BF16 pair (R116). -/
def decodePair (hi lo : Nat) : Val := (decodeElem 2 hi).add (decodeElem 2 lo)

/-- The power of two of an E8M0 code; none for the NaN code 0xFF. -/
def scaleExp (c : Nat) : Option Int := if c = 0xFF then none else some ((c : Int) - 127)

/-- A value times its block scale (R77, R126). -/
def withScale (v : Val) (c : Nat) : Val :=
  match scaleExp c with
  | some k => v.scale k
  | none => .nan

/-- Rounding to binary32 and encoding: `rne32` (R79, R127); a NaN is canonical, a result beyond range is infinite. -/
def rne32 (v : Val) : Nat :=
  match v with
  | .nan => 0x7FC00000
  | .inf s => if s then 0xFF800000 else 0x7F800000
  | .fin _ _ _ => (convElem 0 2 v).1

/-- Rounding to BF16 and encoding (R146). -/
def rneBf16 (v : Val) : Nat :=
  match v with
  | .nan => 0x7FC0
  | .inf s => if s then 0xFF80 else 0x7F80
  | .fin _ _ _ => (convElem 2 2 v).1

/-- The value of a binary32 code. -/
def v32 (c : Nat) : Val := decodeElem 0 c

/-- emax of the scale rule (R139). -/
def emaxOf : Nat → Int
  | 3 => 8 | 4 => 15 | 5 => 4 | 6 => 2 | 7 => 2 | 8 => 6 | 9 => 2 | _ => 0

/-- The scale exponent of a block maximum and whether it met the upper limit (R139): rule 0 MX, 1 FIT. -/
def scaleRule (fd rule : Nat) (m : Nat) (e : Int) : Int × Bool :=
  if m = 0 then (0, false)
  else
    let x0 : Int := (Nat.log2 m : Int) + e - emaxOf fd
    let x1 := if rule = 1 && (codeOf fd (rndElem fd (.fin false m (e - x0)))).isNone then x0 + 1 else x0
    if x1 < -127 then (-127, false) else if x1 > 127 then (127, true) else (x1, false)

end Sys2Proof.Machine
end

