-- ==== Sys2Proof/Machine/State.lean ====
section
/-! DEFINITION. The state of the module as plain data: the register store, memory, and the state the spec gives the
units beside their registers, with the machine after reset. -/

namespace Sys2Proof.Machine

/-- Why a step stops: nothing. Every command has an effect the spec gives, so no meaning of this model faults (safe). -/
inductive Fault
deriving DecidableEq, Repr

/-- Why a command has no meaning. `notModelled` is raised by an arm of `exec` that is not written yet (safe). -/
inductive Refusal where
  | notModelled (mnemonic : String)
deriving DecidableEq, Repr

/-- One active hardware loop (R196): first and last instruction of its body and the runs left, this one included. -/
structure LoopEnt where
  first : Nat
  last : Nat
  left : Nat
deriving DecidableEq, Repr

/-- A pass descriptor as the array block copies it at issue (R83, R106). -/
structure PassDesc where
  xline : Nat
  xstride : Nat
  xkeep : Bool
  xk : Nat
  xt : Nat
  xsline : Nat
  wline : Nat
  wsrc : Bool
  wstride : Nat
  wsline : Nat
  oline : Nat
  nch : Nat
  mode : Nat
  pred : Nat
  oop : Nat
  fmtp : Nat
  heritage : Bool
  tscale : Nat
deriving DecidableEq, Repr

/-- An activation tile as the load reads it (R72, R85, R118): for each reduction row the element codes of its tokens
(hi parts of a pair in `hi`, lo parts in `lo`) and the scale codes of the same elements (0x7F without scales). -/
structure Tile where
  fmtp : Nat := 0
  hi : List (List Nat) := []
  lo : List (List Nat) := []
  scale : List (List Nat) := []
deriving DecidableEq, Repr

/-- The stages of a pass (R85). -/
inductive PassStage where
  | waiting | loading | loaded | streaming | draining
deriving DecidableEq, Repr

/-- A pass in the array block (R85, R89): its copied descriptor, stage, the row groups entered in the sub-pass in
progress (0-2 for a BF16 pair), its flags (R102), its PASSNO (R158), whether a pair's low tile is still to load (R89)
and the results of a sampled group so far (R159); and the weight port's buffer of row groups read ahead, weight row and scale bytes
of each channel (R231). -/
structure Pass where
  id : Nat
  desc : PassDesc
  passNo : Nat
  stage : PassStage
  sub : Nat
  group : Nat
  ovf : Bool := false
  nan : Bool := false
  sat : Bool := false
  ue : Bool := false
  loTodo : Bool := false
  srow : List Byte := []
  ahead : List (List (List Byte × List Byte)) := []
  samp : List (List Nat) := []
deriving DecidableEq, Repr

/-- A captured sample awaiting its recompute (R159): the pass, channel group, token half, the exact tile columns and
weight rows as values, and the captured results. -/
structure Capture where
  passNo : Nat
  chan : Nat
  tok : Nat
  tile : List (List Val)
  rows : List (List Val)
  results : List (List Nat)
  isInt : Bool
deriving DecidableEq, Repr

/-- Who holds a scoreboard entry (R192, R92). -/
inductive SbOwner where
  | passX (id : Nat) | passW (id : Nat) | passO (id : Nat)
  | streamSrc (i : Nat) | streamDst (i : Nat) | streamIdx (i : Nat)
  | ringSend (handle rseq : Nat)
deriving DecidableEq, Repr

/-- One entry of the range scoreboard (R239). -/
structure SbEnt where
  first : Nat
  last : Nat
  write : Bool
  owner : SbOwner
deriving DecidableEq, Repr

/-- One 16-byte queue entry with its phase tag (R170, R191, R346); for a ring, a descriptor (R349). -/
structure QEnt where
  w0 : Nat
  w1 : Nat
  w2 : Nat
  w3 : Nat
  pseq : Nat
deriving DecidableEq, Repr

/-- One record of a ring in its region, oldest first (R348, R353): first line, lines, pad or record, popped,
released, phase tag, and whether its descriptor has been pushed. -/
structure RingRec where
  line : Nat
  lines : Nat
  pad : Bool
  popped : Bool
  released : Bool
  pseq : Nat
  rseq : Nat
deriving DecidableEq, Repr

/-- One message held at the commit gate of a queue manager (R212, R334, R625). -/
structure GateEnt where
  handle : Nat
  phase : Nat
  ring : Bool
  ent : QEnt
  line : Nat
  lines : Nat
  len : Nat
  rseq : Nat
  base : Nat
  padLine : Nat
  padLines : Nat
  sbId : Nat
deriving DecidableEq, Repr

/-- A write into stack memory held at a core's commit gate (R169, R199). -/
structure HeldWrite where
  mga : Nat
  value : Nat
  phase : Nat
deriving DecidableEq, Repr

/-- Credit waiting to return on one channel of a receiver (R345). -/
structure CredWait where
  entries : Nat
  lines : Nat
deriving DecidableEq, Repr

/-- An outstanding request of a core on the normal channel (R199, R311, R318). -/
structure NetReq where
  tag : Nat
  mga : Nat
  dest : Nat
  read : Bool
  fill : Bool
deriving DecidableEq, Repr

/-- The dynamic arbiter's memory of one requester at one bank (R235): losses and back-off in progress. -/
structure ArbReq where
  losses : Nat
  backoff : Bool
deriving DecidableEq, Repr

/-- What a core's read of its queue or a handle operation waits for (R339, R341). -/
inductive HandleWait where
  | create (handle q entries dest : Nat)
  | destroy (handle q dest : Nat)
  | busyDestroy (q dest : Nat)
deriving DecidableEq, Repr

/-- What a core waits for at a barrier group (R213, R324): BAR's own round, a BARA held because it arrived already,
BARW, a phase-starting arrival, a phase-ending arrival, and after the last phase of a step the release of the next one. -/
inductive BarKind where
  | bar | bara | barw | phstart | phend | boundary
deriving DecidableEq, Repr

/-- The state of one logical core beside its registers: among others, queues whose flushed phases are discarded until their FLUSH
marker (`dropSet`, R359; `marked` where the marker came first) and lines waiting at the weight port by stream, each with whether
it ends a flit (`wpt`, R281, R284), a wake in progress and whether a phase release waits for it (R519), when the core arrived at
its last phase-ending barrier, and whether a STOP waits for its QDESTROY to complete (R216). -/
structure CoreX where
  vregs : SMap VReg := []
  qbind : SMap Nat := []
  loops : List LoopEnt := []
  passes : List Pass := []
  passId : Nat := 0
  passNo : Nat := 0
  tile : Tile := {}
  shadow : Option Tile := none
  capture : Option Capture := none
  sb : List SbEnt := []
  entries : SMap (List QEnt) := []
  rings : SMap (List RingRec) := []
  gate : List GateEnt := []
  heldWrites : List HeldWrite := []
  cred : SMap CredWait := []
  rseq : SMap Nat := []
  reqs : List NetReq := []
  tag : Nat := 0
  handleWait : Option HandleWait := none
  sbHeld : Option (Nat × List SbEnt) := none
  phStarted : Bool := false
  arrAgain : List Nat := []
  barWait : Option (Nat × BarKind) := none
  dropSet : SMap (List Nat) := []
  marked : List Nat := []
  wpt : SMap (List (List Byte × Bool)) := []
  rcTags : SMap (Option Nat) := []
  rcVictim : SMap Nat := []
  arb : SMap ArbReq := []
  arbPtr : SMap Nat := []
  writeback : List Nat := []
  mapping : Option Nat := none
  mapWanted : List Nat := []
  patrol : SMap Nat := []
  blockedTwice : Bool := false
  ranOff : Bool := false
  dead : Bool := false
  waking : Option Bool := none
  endAt : Option Nat := none
  stopDue : Bool := false
deriving DecidableEq, Repr

/-- A flit of the data network (R268, R271). -/
structure Flit where
  stream : Nat
  seq : Nat
  pseq : Nat
  fmt : Bool
  ovf : Bool
  nan : Bool
  last : Bool
  payload : BitVec 1024
deriving DecidableEq, Repr

/-- The router of a position beside its registers (R268, R277, R292, R293): waiting flits of each input, oldest first, with the NCLK
from which an output can take each (R290), the fold buffer with the input each operand came from, and for each output one more than
the NCLK in which it last acted. -/
structure RouterX where
  ins : SMap (List (Nat × Flit)) := []
  fold : List (Nat × Flit) := []
  acted : SMap Nat := []
deriving DecidableEq, Repr

/-- One stream at its engines on one die (R282-R289): a trigger awaiting its START slot and its phase tag, the tag of
the pending trigger, whether a run is offered, flits sent and credits returned by contributor (by node number), flits
written and credits owed at the destination and the index of the next flit to arrive there, the lines a stack or host source has
requested and staged and the first line outside its range, the ports that assert HOLD, the nodes whose engine a flush has stopped,
whether arriving flits are discarded, whether a run has completed in the current step, the phases that contributors of other gathers
wait for before they offer, of this run and of the pending one (R289), and the lines gathered for the owner's remote cache (R283). -/
structure StreamX where
  armed : Bool := false
  pseq : Nat := 0
  pendSeq : Nat := 0
  active : Bool := false
  sent : SMap Nat := []
  back : SMap Nat := []
  written : Nat := 0
  owed : Nat := 0
  arrived : Nat := 0
  asked : Nat := 0
  stopAt : Option Nat := none
  lines : SMap (List Byte) := []
  holds : List Nat := []
  halted : List Nat := []
  discard : Bool := false
  ran : Bool := false
  gates : List (Nat × Nat) := []
  pendGates : List (Nat × Nat) := []
  fill : List Byte := []
deriving DecidableEq, Repr

/-- A phase of a gather from its start to its seal (R166, R167, R174, R178): its sequence number, the rung of its run,
whether it has ended, its causes so far, and whether the run follows a recall for a memory cause. -/
structure PhaseX where
  ph : Nat
  rung : Nat
  ended : Bool := false
  range : Bool := false
  mem : Bool := false
  afterMem : Bool := false
deriving DecidableEq, Repr

/-- A gather beside its registers (R166-R180, R375, R382, R387): whether its step was given up, its unsealed phases in order, how
many phases of the step are sealed, the next phase to start, how many have ever started, whether phase 0 is released, whether a
phase is between its barriers, the steps a higher rung still holds, the phase whose rerun is due with the phases of other gathers
(by unit and number) whose reruns start first, the phase whose coming run follows a memory cause, the cores that have still to
flush, whether a reload withholds its next phase 0, and whether its wait for a failed gather has been logged. -/
structure GatherX where
  quiet : Bool := false
  phases : List PhaseX := []
  nsealed : Nat := 0
  next : Nat := 0
  started : Nat := 0
  released : Bool := false
  inPhase : Bool := false
  holdLeft : Nat := 0
  rr : Option Nat := none
  waitOn : List (Nat × Nat) := []
  memPh : Option Nat := none
  toFlush : List Nat := []
  withheld : Bool := false
  waitLogged : Bool := false
  stop : Option (Nat × List Nat) := none
  changed : Bool := false
  recover : Bool := false
  refetch : List (List (Nat × Nat)) := []
deriving DecidableEq, Repr

/-- A pending or running shift of one row (R34, R35): the new physical columns of L[r,0..7] (0xF absent) and the
positions still to wake. -/
structure ShiftX where
  lmap : List Nat
  moved : List Nat
deriving DecidableEq, Repr

/-- What a log record says happened; each name is the event or the refusal a rule says is logged. -/
inductive LogKind where
  | abortIgnored | absentCore | addrFault | badPacket | bankFull | barrierStall | capUnmet | clamped | clockLost
  | cnTimeout | copyIgnored | coreDead | coreHalted | crossSlip | deadlock | dieClockLost | doorbellDropped
  | dramCe | dramUe | flitCe | flitUe | frozenRefused | gateCancelled | hostRead | hot | ignoredWrite | inputFail
  | interrupt | kcalClamped | laneBad | laneSteered | layerLost | licenceIgnored | linkFault | loadRefused
  | margin | misroute | narrowAccess | noFallback | portBad | puntyReset | qOverrun | ratioEvent | recalled
  | refLost | refetchIgnored | relock | ringReleaseExcess | rowMapped | scanIgnored | seamFailed | senseInvalid
  | shadowMismatch | slotRefused | spanAuth | spanHeldOver | spanPeer | spdmUnsupported | sramCe | sramUe
  | startStopped | strapIgnored | strapMismatch | streamFault | streamStall | syncParity | tileUe | trapDropped
  | trapReport | trapctlIgnored | triggerDropped | ueToFirmware | unreach | vendorRefused | waitFailed
  | warmIgnored | windowFault | zeroRefused
deriving DecidableEq, Repr

/-- A control packet's content (R312). -/
inductive Packet where
  | verdict (v : VerdictMsg)
  | trap (code : Nat) (pc : Nat) (info : Nat) (own : Nat)
  | error (kind : LogKind) (args : List Nat)
  | scredit (i n : Nat)
  | handleCreate (h : Nat) (ring : Bool) (depth lines : Nat)
  | handleDestroy (h : Nat)
  | handleAck (h : Nat) (fail : Option Nat)
  | purge (d : DieId)
  | intr (cause : Nat)
  | ctrl (cmd : CtrlCmd)
  | qmsg (m : QMsg)
  | flush (h : Nat)
  | qcredit (h entries lines : Nat)
  | rdreq (tag mga : Nat) (fill : Bool)
  | rdrsp (tag : Nat) (fault : Bool) (data : List Byte)
  | wrreq (tag mga : Nat) (data : List Byte)
  | wrrsp (tag : Nat) (ok : Bool)
  | parison (p : ParisonPkt)
  | lost (layer : Nat)
  | report (r : FaultRec)
  | fault (e : ErrorReport)
deriving DecidableEq, Repr

/-- What the module sends or answers: control packets, and the replies and reports its ports give. -/
inductive Out where
  | packet (src dst : NodeId) (p : Packet)
  | broadcast (scope : Scope) (p : Packet)
  | scredit (d i n : Nat)
  | sideband (port msg : Nat)
  | group (port : Nat) (flits : List Nat) (beat : Nat)
  | marker (port lane word : Nat)
  | hostRead (addr n id : Nat)
  | hostWrite (addr : Nat) (data : List Byte)
  | msix (vector : Nat)
  | unsupported
  | status (code : Nat)
  | data (bytes : List Byte)
  | readError (n : Nat)
  | words (ws : List Nat)
  | pldm (transport : Nat) (e : PldmEvent)
  | spdm (tr : Nat) (r : SpdmReply)
  | mgmt (tr : Nat) (r : MgmtReply)
  | i3c (values : List Nat)
  | doe (values : List Nat)
  | console (words : List Nat)
  | jacks (st : JkStatus)
  | records (l : List FaultRec)
  | ibi
deriving DecidableEq, Repr

/-- A packet of the control network (R311): its number, source, destination and, for a broadcast, its scope, channel (VC), TYPE,
LEN, whether it goes along the column first (R309), and its content. -/
structure CtlPkt where
  id : Nat
  src : NodeId
  dst : NodeId
  scope : Option Scope
  hp : Bool
  ty : Nat
  len : Nat
  colFirst : Bool
  body : Packet
deriving DecidableEq, Repr

/-- A flit of a packet in a buffer (R311): 0 the head, then the body flits, the HCLK from which it can leave, and the outputs it
has still to take, none before its head is routed. -/
structure CtlFlit where
  pkt : CtlPkt
  k : Nat
  at_ : Nat
  todo : Option (List Nat) := none
deriving DecidableEq, Repr

/-- A control router (R307, R313, R314): its input buffers (3 x port + 0 high-priority, 1 requests, 2 other normal types), the
outputs of the packet in progress at each buffer, for each output and channel (2 x port + 0 high-priority, 1 normal) the
buffer and the number of the packet it is sending, and the input it served last; and the numbers of packets whose later flits it
drops (R320). -/
structure CtlRouter where
  bufs : SMap (List CtlFlit) := []
  route : SMap (List Nat) := []
  lock : SMap (Option (Nat × Nat)) := []
  last : SMap Nat := []
  drop : List Nat := []
deriving DecidableEq, Repr

/-- The control network (R307-R321): how many entries of `out` its nodes have taken, the packets that wait at their source by
node number on each channel, when each node injected its last high-priority packets (R315), the routers (80 x die + position),
the flits that wait at each crossing (2 x port, and 1 for the normal channel), packets that leave the network for a node with
the HCLK they arrive, whether a packet that cannot be reconstructed was lost (R321), and whether a PARISON packet was (R382). -/
structure CtlX where
  taken : Nat := 0
  next : Nat := 0
  waitH : SMap (List CtlPkt) := []
  waitN : SMap (List CtlPkt) := []
  sent : SMap (List Nat) := []
  routers : SMap CtlRouter := []
  cross : SMap (List CtlFlit) := []
  land : List (Nat × NodeId × CtlPkt) := []
  lost : Bool := false
  lostPz : Bool := false
deriving DecidableEq, Repr


/-- One record of the module's logs: what happened, in which unit by its node identity (R308), with its numbers and its
128-bit stamp (R68, R176). -/
structure LogRec where
  kind : LogKind
  unit : Nat
  args : List Nat
  stamp : Nat
deriving DecidableEq, Repr

/-- A payload on a cane or span port (R400): the sub-slot of its attachment and the flit. -/
structure Payload where
  sub : Nat
  flit : Flit
deriving DecidableEq, Repr

/-- A link group (R398, R401): its GSEQ, its payloads, the control flit of its LINK beat or the stream credit (stream and count) that
crosses a span there, its LCMD, the width it was formed at, and on a span its group number (R425). -/
structure LGroup where
  gseq : Nat
  payloads : List Payload
  ctrl : Option CtlFlit := none
  credit : Option (Nat × Nat) := none
  lcmd : Nat := 0
  width : Nat := 0
  gn : Nat := 0
deriving DecidableEq, Repr

/-- A sideband message (R415): its type and PAYLOAD [35:4]. -/
structure SbMsg where
  ty : Nat
  payload : Nat
deriving DecidableEq, Repr

/-- A change of lanes or width announced on a port (R410): the group it applies from, whether this end transmits, and
the change. -/
structure LaneChange where
  at_ : Nat
  tx : Bool
  width : Option Nat
  lane : Nat
  spare : Nat
deriving DecidableEq, Repr

/-- What the keys of a span port are derived from beside its own part (R575): the span secret, and the partner's identity, slot,
port and nonce. -/
structure SpanPeer where
  secret : Nat
  ident : Nat
  slot : Nat
  port : Nat
  nonce : Nat
deriving DecidableEq, Repr

/-- The sideband of a port (R415, R416): the messages that wait, the messages to resend with their numbers, the HCLK from which its lanes
are free, the number of its next message, the last 16 sent, the number it expects, and the sideband lanes that fail at its receiver,
one bit each (R395). -/
structure SideX where
  queue : List SbMsg := []
  again : List (Nat × SbMsg) := []
  free : Nat := 0
  next : Nat := 0
  sent : List SbMsg := []
  expect : Nat := 0
  lost : Nat := 0
deriving DecidableEq, Repr

/-- The lanes of a port beside its registers (R395, R396, R409, R410): data lane groups given up, the forwarded-clock lanes that fail at
its receiver, one bit each, spares that fail, spares announced in a STEER that has no acknowledgement (lane, spare), the lane groups in
force at its receiver, the transmit lane map (one more than the spare), bad groups by lane, the changes announced, the LCMD words that
wait for a LINK beat, and whether a change has left it at width down. -/
structure LaneX where
  lost : List Nat := []
  clocks : Nat := 0
  bad : List Nat := []
  steers : List (Nat × Nat) := []
  groups : Nat := 0
  txMap : SMap Nat := []
  count : SMap Nat := []
  changes : List LaneChange := []
  lcmds : List Nat := []
  fallen : Bool := false
deriving DecidableEq, Repr

/-- A span port beside its link (R418-R425): the nonce drawn, whether keys are held, the partner, the group numbers sent and received,
the lock of each lane, the MCOUNT of each lane's last good marker, the markers sent since training began, the cable input, whether
holdover took the port down, the HCLK of the SPAN_AUTH events of the last second, the groups since its IDENT was sent, and the stream
credits that wait to cross (stream and count). -/
structure SpanX where
  nonce : Option Nat := none
  keyed : Bool := false
  partner : Option SpanPeer := none
  gnTx : Nat := 0
  gnRx : Nat := 0
  lanes : SMap (Nat × Nat) := []
  marks : SMap Nat := []
  sentMarks : Nat := 0
  cable : Bool := true
  heldOver : Bool := false
  auths : List Nat := []
  identAge : Nat := 0
  credits : List (Nat × Nat) := []
deriving DecidableEq, Repr

/-- A port beside its registers (R404-R408): the transmit queue, the next GSEQ, the replay buffer, the group to resend, the group last
resent with its failed replays, the next GSEQ expected, whether a NAK is due, the groups held for a missing one, the count of each
stream received, at HCd the flits from other modules that await a slot of theirs and at SPm those that await a place in its transmit
queue (R405, R419); and its lanes, its sideband, and what a span port holds. -/
structure PortX where
  txq : List Payload := []
  gseq : Nat := 0
  replay : List LGroup := []
  resend : Option Nat := none
  lastRpl : Option Nat := none
  fails : Nat := 0
  expect : Nat := 0
  nak : Bool := false
  rxHeld : List LGroup := []
  rxSeq : SMap Nat := []
  waiting : List Flit := []
  lane : LaneX := {}
  side : SideX := {}
  span : SpanX := {}
deriving DecidableEq, Repr

/-- A die beside its registers, or under number 4 the hub's collector: shifts in progress by row (R35), sync bundles held by a
parity error (R328), the MCLK offset the hub recorded (R70) and the die's own count, whether a requested swap has had its step
boundary (R297), reports of blocked sends (R358), crossings to retrain (R55), the states fences lead to (R541), a fallback set to
be written at the next step boundary (R551), when the die was lost (R550), whether its last loss was a thermal trip (R524) or a
trip of VDDL (R564), since its frame start token the count that its slot counters add to the NCLK (R274), its ports whose cane
engine is in the other bank than its routers (R297), its spare positions that are awake (R36), whether it was away when a release
scrubbed the module (R573, R574), the on-die crossings that training has given up (R54), and when the cross-die sync groups that
name it are reset for its loss (R549). Crossings are named as 16 x position + input of the receiving router. -/
structure DieX where
  shifts : SMap (Option ShiftX) := []
  parityHeld : List Nat := []
  offset : Option Int := none
  mclk : Nat := 0
  swapReady : Bool := false
  blocked : List BlockReport := []
  slips : List Nat := []
  fenceTo : SMap Nat := []
  wantSet : Option Nat := none
  losses : List Nat := []
  hot : Bool := false
  tripped : Bool := false
  token : Option Nat := none
  flips : List Nat := []
  awake : List Nat := []
  scrub : Bool := false
  cut : List Nat := []
  syncDue : Option Nat := none
deriving DecidableEq, Repr

/-- An entry of the hub's send table (R334, R335): the channel, the hub unit that sends on it, kind, credits, ring size
and write pointer in lines. -/
structure HubSend where
  handle : Nat
  unit : Nat
  ring : Bool
  ecred : Nat
  size : Nat
  lcred : Nat
  wr : Nat
  rseq : Nat := 0
deriving DecidableEq, Repr

/-- Who made a cane request of a stack (R437): a stream's engine (its die, index, line or flit), a request packet (its
source node and tag), a host access (its number), a copy of a slot (slot, copy, host address of the line). -/
inductive CaneSrc where
  | stream (d i n : Nat)
  | req (node tag : Nat) (fill : Bool)
  | host (id : Nat)
  | copy (slot uid haddr : Nat)
deriving DecidableEq, Repr

/-- A cane read or write of one stack line or part of it (R437, R442), in the order received. -/
structure CaneReq where
  write : Bool
  off : Nat
  n : Nat
  data : List Byte
  src : CaneSrc
deriving DecidableEq, Repr

/-- A requester of one pseudo-channel (R438, R439): its losses and whether it is backing off. -/
structure StackArb where
  losses : Nat
  backoff : Bool
deriving DecidableEq, Repr

/-- A stack beside its registers (R437-R458): the cane requests not yet served, each pseudo-channel's requester states
and round-robin pointer and the slots a refresh still takes of it, the layers that left ARMED in order with the step
constants each runs with, the partials present at the lead, the ratio received, layers whose copy runs, the next line of
the scrubber, its requests by pseudo-channel (line, write-back), the partial writes whose line has been read, the lines read so far of
remote-cache fills (under 4,096 x node + tag: offset, data, in error), the layers whose partial this stack has sent and the lead not yet
used, and at a lead the list positions whose partial on its way is discarded (R459). -/
structure StackX where
  cane : List CaneReq := []
  arb : SMap StackArb := []
  ptr : SMap Nat := []
  refresh : SMap Nat := []
  queue : List Nat := []
  consts : SMap (List Nat) := []
  parts : List Nat := []
  ratio : SMap Nat := []
  copies : List Nat := []
  scrub : Nat := 0
  scrubs : SMap (List (Nat × Bool)) := []
  merged : List CaneReq := []
  fills : SMap (List (Nat × List Byte × Bool)) := []
  sent : List Nat := []
  late : List Nat := []
deriving DecidableEq, Repr

/-- What the hub reads host memory for (R470, R480, R626): a line of a stream, a submission entry of a slot, the data of
a copy or of a ring record of a slot. -/
inductive HostWhat where
  | stream (d i n : Nat)
  | entry (slot : Nat)
  | copy (slot uid n : Nat)
deriving DecidableEq, Repr

/-- A host read of the hub that has no completion yet. -/
structure HostRead where
  id : Nat
  addr : Nat
  n : Nat
  what : HostWhat
deriving DecidableEq, Repr

/-- A submission entry (R478); `bad` where a field that must be 0 is not. -/
structure SqEntry where
  opc : Nat
  irq : Bool
  fence : Bool
  tag : Nat
  len : Nat
  haddr : Nat
  mga : Nat
  arg : Nat
  arg2 : Nat
  data : List Nat
  bad : Bool
deriving DecidableEq, Repr

/-- An entry that has started and has no record yet (R480, R485): its number, bytes done, the gather and phase whose seal
opens its gate (R479), its INFO, the data a ring record waits with, and the status and bytes of a fault. -/
structure SlotRun where
  uid : Nat
  ent : SqEntry
  done : Nat := 0
  gate : Option (Nat × Nat) := none
  info : Nat := 0
  data : List Byte := []
  fault : Option (Nat × Nat) := none
deriving DecidableEq, Repr

/-- A sequence slot beside its registers (R477-R489): entries fetched and not started, entries running, entries asked of
the host, records with IRQ since the last signal, the next entry number, and records that wait for the endpoint. -/
structure SlotX where
  waiting : List SqEntry := []
  running : List SlotRun := []
  asked : Nat := 0
  irqs : Nat := 0
  uid : Nat := 0
  owed : List (Nat × List Byte) := []
deriving DecidableEq, Repr

/-- A mailbox beside its registers (R491): the words staged, and a commit that waits, with its length and the phase whose
seal it waits for. -/
structure MailX where
  staged : SMap Nat := []
  commit : Option (Nat × Option (Nat × Nat)) := none
  seq : Nat := 0
deriving DecidableEq, Repr

/-- A locked staging range (R380): where it lies, and what holds it: a load in progress, the full image in force, or a
segment (the unit of its gather). -/
inductive LockFor where
  | loading | full | segment (g : Nat)
deriving DecidableEq, Repr

/-- A locked range of stack memory. -/
structure Lock where
  lo : Nat
  hi : Nat
  for_ : LockFor
deriving DecidableEq, Repr

/-- A BAR2 read of a stack whose lines are not all read (R474): their offsets, and what has been read so far (offset, data, in error). -/
structure HostAsk where
  offs : List Nat := []
  got : List (Nat × List Byte × Bool) := []
deriving DecidableEq, Repr

/-- The PCIe endpoint beside its registers (R467-R476): the link is up, the function is in D3hot, configuration requests
are answered with Request Retry Status, the BAR2 reads not yet answered, by number, and the MSI-X vectors that wait for the IDE stream. -/
structure HostX where
  link : Bool := false
  d3 : Bool := false
  crs : Bool := true
  asks : SMap HostAsk := []
  vecs : List Nat := []
deriving DecidableEq, Repr

/-- A power-up (R514, R515): the island, whether its main switch is to close, the logical cores whose core switches are to
close, in column order, spare positions P[r,c] as 64 + 10r + c, and whether it is staged. -/
structure PowerUp where
  isl : Nat
  main : Bool
  cores : List Nat
  staged : Bool
deriving DecidableEq, Repr

/-- A die Lehr, or the module Lehr (under number 4), beside its registers (R507-R523): kcal as a ratio, the estimates summed since
the last calibration with their number, the demanded ratios of gathers by the cap and by margins, the boosts of gathers, the HCLK
at which the next phase of a gather was hinted and that of the last log of a cap not met, power-ups in order of request, the
samples of the bucket in progress, closed buckets of 1 ms, newest first, and the stacks that throttle, and the last readings of
the die's stacks, under number 4 of the hub's sensors. -/
structure PowerX where
  kcal : Nat × Nat := (1, 1)
  estSum : Nat := 0
  estN : Nat := 0
  dem : SMap (Option Nat) := []
  mdem : SMap Nat := []
  boost : SMap Nat := []
  hints : SMap (Option Nat) := []
  unmetAt : Option Nat := none
  ups : List PowerUp := []
  bucket : Nat × Nat := (0, 0)
  buckets : List Nat := []
  stackHot : List Nat := []
  temps : List Nat := []
deriving DecidableEq, Repr

/-- A register record of an image (R371): its section's index, type and fallback set, the target die, rectangle and space,
the offset and the words. -/
structure ImgRec where
  sec : Nat
  ty : Nat
  set : Nat
  die : Nat
  r0 : Nat
  c0 : Nat
  r1 : Nat
  c1 : Nat
  dieSpace : Bool
  off : Nat
  words : List Nat
deriving DecidableEq, Repr

/-- An image (R368): for a segment the unit of its gather, where it lies, its digest (as the number its 32 bytes are,
little-endian), IMAGE_ID, FEATURES, sections and records. -/
structure Image where
  seg : Option Nat
  src : Nat
  len : Nat
  digest : Nat
  id : Nat
  features : Nat
  nsect : Nat
  recs : List ImgRec
deriving DecidableEq, Repr

/-- A load (R380-R391): where the image lies, the image once checked, whether its step boundary has come, the section in
progress with the dies that have acknowledged it; the images in force in the order of their seals, the chain L of
measurement index 7 (R570), and the state that a segment's gather had before it waited (R390). -/
structure LoadX where
  src : Nat := 0
  len : Nat := 0
  img : Option Image := none
  ready : Bool := false
  sect : Nat := 0
  acks : List Nat := []
  images : List Image := []
  chain : Nat := 0
  was : Nat := 0
deriving DecidableEq, Repr

/-- A tracked item of a collector (R530-R532): its stamps, newest first, those of seeds since its last record, when its last
SEED record was made, its latest stamp, and the NCLK of its last STONE (R552). -/
structure FaultItem where
  cls : Nat
  unit : Nat
  pos : Nat
  item : Nat
  stamps : List Nat := []
  late : List Nat := []
  seedAt : Option Nat := none
  last : Nat := 0
  stoneAt : Option Nat := none
deriving DecidableEq, Repr

/-- An entry of the field repair log (R26, R533): 0 a row map-out, 1 a lane steering, 2 a fence (item 0) or a failed router (item
1), 3 an island loss, 4 a retired DRAM row, 5 a failed wire of a seam bundle (64 x bundle + wire); the unit, the position and the
item. -/
structure Repair where
  kind : Nat
  unit : Nat
  pos : Nat
  item : Nat
deriving DecidableEq, Repr

/-- The fault collectors and their flash (R530-R542): tracked items by collector, the fault log, the field repair log, STONEs
by class since cold start, positions: taken out by a core or router stone, returned since from quarantine, flagged for
rotation, and scanned, the oldest scan first (each 80 x die + 10 x row + column), the seam repairs in force (one more than the wire
that is shifted onto the spare, by 16384 x die + bundle, R26), and the seam bundles that have failed (R28). A bundle is 128 x its link
+ its number there. -/
structure FaultX where
  items : SMap (List FaultItem) := []
  log : List FaultRec := []
  repair : List Repair := []
  stones : SMap Nat := []
  stoned : List Nat := []
  returned : List Nat := []
  flagged : List Nat := []
  scans : List Nat := []
  seams : SMap Nat := []
  links : List Nat := []
deriving DecidableEq, Repr

/-- An SPDM session (R569, R572): its identifier, whether it is on DOE, whether FINISH has come, the leaf key the requester
authenticated with, and the number of key updates. -/
structure SpdmSess where
  id : Nat
  doe : Bool
  up : Bool := false
  leaf : Option Nat := none
  gen : Nat := 0
deriving DecidableEq, Repr

/-- The management interfaces beside their registers (R569, R581-R589): event receivers by transport (0 I3C, 1 PCIe VDM), events
not acknowledged with their transport and retries, the level and the reading of each sensor as last refreshed, whether in-band
interrupts are enabled, SPDM sessions with the next identifier, and what Jacks does: the lines held with their lengths, and the
scan on display. -/
structure ManageX where
  recv : SMap (Option Nat) := []
  unacked : List (Nat × PldmEvent × Nat) := []
  levels : SMap Nat := []
  readings : SMap (Option Nat) := []
  ibi : Bool := true
  sess : List SpdmSess := []
  nextSess : Nat := 1
  held : List (Nat × JkCmd) := []
  scan : Option DieId := none
deriving DecidableEq, Repr

/-- A firmware image in its flash slot (R568): version, SVN, digest, whether it is marked valid, and how often running it has
failed to reach READY. -/
structure FwImage where
  version : Nat := 0
  svn : Nat := 0
  digest : Nat := 0
  good : Bool := false
  fails : Nat := 0
deriving DecidableEq, Repr

/-- The training record (R564): the digest of the firmware it was made under, the readings of each die's islands and stacks,
and the field repair log at the time; none before the first complete cold start. -/
structure TrainRec where
  digest : Nat
  temps : SMap (List Nat)
  repair : List Repair
deriving DecidableEq, Repr

/-- The instructions of the TAP (R596). -/
inductive TapInstr where
  | bypass | idcode | sample | extest | clamp | highz | extestPulse | extestTrain
deriving DecidableEq, Repr

/-- How the input stands (R602): within its range, below 40 V, or between 50 V and 54 V. -/
inductive InputState where
  | normal | low | high
deriving DecidableEq, Repr

/-- The module beside its registers and units. Pins (R601-R618): SLOT_ID, PWR_EN, BTEST# and OWNCLR# as they are and as sampled
(true: low), PERST# (true: low), a leak sensed. Power: the bulk charges, the input is valid, how it stands, its last sample in mV
and mA and the last before an input fail (R604), a new valid input needed (R605). The start (R557-R566): cold or warm, the dies on
the fast path, when it began, a warm reset that waits for UNOWNED, stacks that failed. Flash (R568, R571, R576): the owner record,
a sequence of R573 not completed, no clean stop (R604), the firmware images, the licences by place, those in force, the training
record. Also when the holdover began (R51), the hub's site straps (R41), the fuses that select seam repairs (one more than the
wire, by 16384 x die + bundle, R26), the scratchpad rows that fuses mark as failed (by position, R245), and the TAP's instruction.
-/
structure ModX where
  slotPin : Nat := 0
  pwrEn : Bool := true
  pinBtest : Bool := false
  pinOwnclr : Bool := false
  btest : Bool := false
  ownclr : Bool := false
  perst : Bool := true
  leak : Bool := false
  charging : Bool := false
  valid : Bool := true
  input : InputState := .normal
  lastIn : Nat × Nat := (0, 0)
  failIn : Nat × Nat := (0, 0)
  needNew : Bool := false
  cold : Bool := true
  fast : List DieId := []
  startAt : Nat := 0
  warmHeld : Option Bool := none
  badStacks : List StackId := []
  owner : Option Owner := none
  relMark : Bool := false
  unclean : Bool := false
  imgs : SMap FwImage := [(0, { good := true })]
  lics : SMap (List Byte) := []
  inForce : List (List Byte) := []
  train : Option TrainRec := none
  holdAt : Option Nat := none
  hubSite : Nat := 7
  seamFuse : SMap Nat := []
  rowFuse : SMap (List Nat) := []
  tap : TapInstr := .bypass
deriving DecidableEq, Repr


/-- The whole module. -/
structure State where
  regs : SMap Nat
  pend : SMap (Option (Nat × Nat))
  latch : SMap Nat
  frozen : Bool
  mem : List Host.Cell
  cores : SMap CoreX
  routers : SMap RouterX
  streams : SMap StreamX
  gathers : SMap GatherX
  dies : SMap DieX
  eccBad : SMap Nat
  hubSend : List HubSend
  ports : SMap PortX
  stackSt : SMap StackX
  hostReads : List HostRead
  hostId : Nat
  hubSync : SMap Nat
  stepLost : Bool
  ladderOut : Bool
  ratioOut : Bool
  slots : SMap SlotX
  mails : SMap MailX
  locks : List Lock
  host : HostX
  power : SMap PowerX
  ejected : SMap (List (Nat × Packet))
  chip : ModX
  load : LoadX
  faults : FaultX
  manage : ManageX
  ctl : CtlX
  rowMaps : SMap (SMap Nat)
  lossDue : Bool
  log : List LogRec
  out : List Out
  free : Nat
  hclk : Nat
  pending : List Instr
deriving DecidableEq, Repr

/-- The module before its input is valid: every register at the reset value its table states, memory with nothing
listed, no unit with anything in progress, an empty queue of commands. -/
def State.reset : State where
  regs := []
  pend := []
  latch := []
  frozen := false
  mem := []
  cores := []
  routers := []
  streams := []
  gathers := []
  dies := []
  eccBad := []
  hubSend := []
  ports := []
  stackSt := []
  hostReads := []
  hostId := 0
  hubSync := []
  stepLost := false
  ladderOut := false
  ratioOut := false
  slots := []
  mails := []
  locks := []
  host := {}
  power := []
  ejected := []
  chip := {}
  load := {}
  faults := {}
  manage := {}
  ctl := {}
  rowMaps := []
  lossDue := false
  log := []
  out := []
  free := 0
  hclk := 0
  pending := []

end Sys2Proof.Machine
end

