-- ==== Sys2Proof/Machine/Ops.lean ====
section
/-! DEFINITION. The named operations over registers, memory, logs and packets, and taking a trap as one shared
operation (R216). -/

namespace Sys2Proof.Machine

/-! ## Units -/

/-- The unit number of a core: 64 x die + logical core (R45, R358). -/
def coreU (c : CoreId) : Nat := 64 * c.die.val + c.lc.val

/-- The core of a unit number. -/
def coreOf (u : Nat) : CoreId := ⟨Fin.ofNat 4 (u / 64), Fin.ofNat 64 u⟩

/-- The unit number of a gather: 64 x die + index. -/
def gatherU (g : Gather) : Nat := 64 * g.die.val + g.idx.val

/-- Every core of the module, in module-wide order. -/
def allCores : List CoreId := (List.range 256).map coreOf

/-- The cores of one die. -/
def dieCores (d : DieId) : List CoreId := (List.range 64).map fun i => ⟨d, Fin.ofNat 64 i⟩

/-- Every gather index of a die. -/
def dieGathers (d : DieId) : List Gather := (List.range 64).map fun i => ⟨d, Fin.ofNat 64 i⟩

/-- Every die. -/
def allDies : List DieId := [0, 1, 2, 3]

/-- The number of a node identity (R308). -/
def nodeNum : NodeId → Nat
  | .core c => coreU c
  | .dieNode d => 256 + 64 * d.val
  | .hub u => 512 + u.val
  | .stack k => 768 + k.val

/-- The node identity of a die's node, of the hub's Punty 0, of a stack (R308). -/
def dieN (d : Nat) : Nat := 256 + 64 * d
def hubN : Nat := 512
def stackN (k : Nat) : Nat := 768 + k

/-- The node that holds a register space of a unit: the core, the die node or the hub's CSR unit (R45, R308). -/
def spaceN (sp : Space) (u : Nat) : Nat :=
  match sp with
  | .core => u
  | .die => dieN u
  | .hub => hubN + 4

/-- The node of an identity that R308 lays out. -/
def nodeOfNum (n : Nat) : Option NodeId :=
  let k := bits n 8 2
  if k = 0 then some (.core (coreOf (n % 256)))
  else if k = 1 then (if bits n 0 6 = 0 then some (.dieNode (Fin.ofNat 4 (bits n 6 2))) else none)
  else if k = 2 then (if bits n 4 4 = 0 ∧ bits n 0 4 < 6 then some (.hub (Fin.ofNat 16 n)) else none)
  else (if bits n 4 4 = 0 then some (.stack (Fin.ofNat 16 n)) else none)

/-! ## Registers -/

/-- The value in force of one register field. -/
def State.rd (s : State) (F : Field) (u : Nat) (i : Nat := 0) (j : Nat := 0) : Nat :=
  smGet (fieldReset F u i) s.regs (fieldKey F u i j)

/-- Sets one register field to the low bits of a value; every other field keeps its value. -/
def State.wr (s : State) (F : Field) (u v : Nat) (i : Nat := 0) (j : Nat := 0) : State :=
  { s with regs := smSet (fieldReset F u i) s.regs (fieldKey F u i j) (v % 2 ^ F.w) }

/-- A field of one bit as a Bool. -/
def State.rb (s : State) (F : Field) (u : Nat) (i : Nat := 0) (j : Nat := 0) : Bool := s.rd F u i j != 0

/-- Sets or clears a field of one bit. -/
def State.wb (s : State) (F : Field) (u : Nat) (b : Bool) (i : Nat := 0) (j : Nat := 0) : State :=
  s.wr F u (b2n b) i j

/-- Adds to a counter that stops at its largest value. -/
def State.bump (s : State) (F : Field) (u : Nat) (n : Nat := 1) (i : Nat := 0) (j : Nat := 0) : State :=
  s.wr F u (satAdd F.w (s.rd F u i j) n) i j

/-- ORs bits into a field. -/
def State.orF (s : State) (F : Field) (u v : Nat) (i : Nat := 0) (j : Nat := 0) : State :=
  s.wr F u (s.rd F u i j ||| v) i j

/-- Adds 1 to a 64-bit counter held as a pair of words, low word first (R16, R68). -/
def State.bump64 (s : State) (F : Field) (u : Nat) (n : Nat := 1) : State :=
  let v := s.rd F u 0 + 2 ^ 32 * s.rd F u 1 + n
  (s.wr F u v 0).wr F u (v / 2 ^ 32) 1

/-- A 64-bit value held as a pair of fields. -/
def State.rd64 (s : State) (lo hi : Field) (u : Nat) (i : Nat := 0) (j : Nat := 0) : Nat :=
  s.rd lo u i j + 2 ^ 32 * s.rd hi u i j

/-- Sets a 64-bit pair of fields. -/
def State.wr64 (s : State) (lo hi : Field) (u v : Nat) (i : Nat := 0) (j : Nat := 0) : State :=
  (s.wr lo u v i j).wr hi u (v / 2 ^ 32) i j

/-! ## Stamps (R68, R69) -/

/-- The divider of HCLK by which NCLK runs (R49). -/
def nclkDiv (s : State) : Nat := if s.rb Reg.HB_CLKSTAT_NCLK_DIV 0 then 4 else 2

/-- A collector's MCLK count: of the Punty of die `k`, or of hub Punty 2 under number 4. -/
def mclkOf (s : State) (k : Nat) : Nat := if k < 4 then (smGet ({} : DieX) s.dies k).mclk else s.hclk / 16

/-- The collector of a node's reports (R529, R531): the Punty of its die or of the die a stack faces, hub Punty 2 for the hub. -/
def nodeCollector (n : Nat) : Nat :=
  if n < 256 then n / 64 else if n < 512 then (n - 256) / 64 % 4 else if n < 768 then 4 else (n - 768) / 4 % 4

/-- The bound of R317 in NCLK on the way of a report from a node to its collector: 100 from a core to its die node, 200 on a die, 1,400
from the hub or a stack. -/
def travelCap (n : Nat) : Nat := if n < 256 then 100 else if n < 512 then 200 else 1400

/-- UNCERT (R69) of a report whose travel takes at most `bound` NCLK: in whole MCLK rounded up, plus 1; 255 where the field of 8 bits is
too small. -/
def uncertOf (s : State) (bound : Nat) : Nat := min 255 ((bound * nclkDiv s + 15) / 16 + 1)

/-- The stamp of R68 of what a node reports, with the unit's own count and its clock (0 ACLK, 1 NCLK, 2 MCLK, 3 HCLK). -/
def stampWith (s : State) (n count clock bound : Nat) : Nat :=
  let k := nodeCollector n
  count % 2 ^ 56 + 2 ^ 56 * clock + 2 ^ 60 * (if k < 4 then 4 + k else 2)
    + 2 ^ 64 * (mclkOf s k % 2 ^ 56) + 2 ^ 120 * uncertOf s bound

/-- The bound on the travel of a report from a node, and there from a position by its POS code (R69): no more than R317 gives (DESIGN
CHOICE, notes/assumptions/96). -/
def travelOf (n pos : Nat) : Nat := min (Config.travel n pos) (travelCap n)

/-- The count of a core's router (R68). -/
def dnCycle (s : State) (u : Nat) : Nat := s.rd Reg.DN_CYCLE_COUNT u 0 + 2 ^ 32 * s.rd Reg.DN_CYCLE_COUNT u 1

/-- The stamp of what a node logs: a core counts in ACLK, every other node in its collector's MCLK. -/
def stampOf (s : State) (n : Nat) : Nat :=
  if n < 256 then stampWith s n (s.rd Reg.CS_CYCLE_COUNT n 0 + 2 ^ 32 * s.rd Reg.CS_CYCLE_COUNT n 1) 0 (travelOf n 0xFFFF)
  else stampWith s n (mclkOf s (nodeCollector n)) 2 (travelOf n 0xFFFF)

/-! ## Logs, packets, parts of the state -/

/-- Appends a stamped record of what a node reports to the logs (R68). -/
def State.lg (s : State) (k : LogKind) (unit : Nat := 0) (args : List Nat := []) : State :=
  { s with log := s.log ++ [⟨k, unit, args, stampOf s unit⟩] }

/-- Appends a record of what the router of a core reports, stamped with its NCLK count (R68, R306). -/
def State.lgR (s : State) (k : LogKind) (u : Nat) (args : List Nat) : State :=
  { s with log := s.log ++ [⟨k, u, args, stampWith s u (dnCycle s u) 1 (travelOf u 0xFFFF)⟩] }

/-- Appends to what the module has sent and answered. -/
def State.emit (s : State) (o : Out) : State := { s with out := s.out ++ [o] }

/-- The state of a core beside its registers. -/
def State.cx (s : State) (c : CoreId) : CoreX := smGet {} s.cores (coreU c)

/-- Replaces the state of a core beside its registers. -/
def State.setCx (s : State) (c : CoreId) (x : CoreX) : State :=
  { s with cores := smSet {} s.cores (coreU c) x }

/-- The key of a stream: its index on its die. -/
def streamKey (d : DieId) (i : Nat) : Nat := 32768 * d.val + i

/-- A stream's engines on one die. -/
def State.sx (s : State) (d : DieId) (i : Nat) : StreamX := smGet {} s.streams (streamKey d i)

/-- Replaces a stream's engines on one die. -/
def State.setSx (s : State) (d : DieId) (i : Nat) (x : StreamX) : State :=
  { s with streams := smSet {} s.streams (streamKey d i) x }

/-- A gather beside its registers. -/
def State.gx (s : State) (g : Gather) : GatherX := smGet {} s.gathers (gatherU g)

/-- Replaces a gather's state. -/
def State.setGx (s : State) (g : Gather) (x : GatherX) : State :=
  { s with gathers := smSet {} s.gathers (gatherU g) x }

/-- A die beside its registers. -/
def State.dx (s : State) (d : DieId) : DieX := smGet {} s.dies d.val

/-- Replaces a die's state. -/
def State.setDx (s : State) (d : DieId) (x : DieX) : State :=
  { s with dies := smSet {} s.dies d.val x }

/-- Applies a change once for every element of a list, in order. -/
def State.forAll {α : Type} (s : State) (l : List α) (f : State → α → State) : State := l.foldl f s

/-- Sends a control packet (R311): the network takes it from here. -/
def State.send (s : State) (src dst : NodeId) (p : Packet) : State := s.emit (.packet src dst p)

/-- CN_ERR of a die takes a dropped packet (R331): its source and TYPE, 0 where the header is lost, and the input port. -/
def cnErr (s : State) (d src ty port : Nat) (hdrUe : Bool) : State :=
  let s1 := ((s.wr Reg.CN_ERR_SRC d (if hdrUe then 0 else src)).wr Reg.CN_ERR_TYPE d (if hdrUe then 0 else ty)).wr Reg.CN_ERR_PORT d port
  (s1.wb Reg.CN_ERR_HDR_UE d hdrUe).wb Reg.CN_ERR_VALID d true

/-- A packet is dropped at its source's router (R312, R331): that of a core, at its LOC input, or of a die node, at the south input. -/
def badSource (s : State) (src : NodeId) (ty : Nat) : State :=
  match src with
  | .core c => cnErr s c.die.val (nodeNum src) ty 0 false
  | .dieNode d => cnErr s d.val (nodeNum src) ty 3 false
  | _ => s

/-- Sends a report of a fault or an informational event to a collector in an ERROR packet (R312, R529, R534). -/
def State.raise (s : State) (src dst : NodeId) (e : ErrorReport) : State := s.send src dst (.fault e)

/-! ## Memory -/

/-- The first address of a core's scratchpad in the module's address space (R45, class 0). -/
def spBase (c : CoreId) : Nat := coreU c * 2 ^ 40

/-- The first address of a stack (R45, class 3). -/
def stackBase (k : Nat) : Nat := 3 * 2 ^ 48 + k * 2 ^ 44

/-- The byte at an address; a byte nothing has written reads as 0. -/
def State.rdByte (s : State) (a : Nat) : Byte := smGet 0 s.mem a

/-- Writes one byte. -/
def State.wrByte (s : State) (a : Nat) (b : Byte) : State := { s with mem := smSet 0 s.mem a b }

/-- Reads `n` bytes from an address upwards. -/
def State.rdBytes (s : State) (a n : Nat) : List Byte := (List.range n).map fun k => s.rdByte (a + k)

/-- Writes bytes from an address upwards. -/
def State.wrBytes : State → Nat → List Byte → State
  | s, _, [] => s
  | s, a, b :: r => (s.wrByte a b).wrBytes (a + 1) r

/-- The little-endian number in `n` bytes. -/
def State.rdLe (s : State) (a n : Nat) : Nat := ofLeBytes (s.rdBytes a n)

/-- Stores a number in `n` bytes, little-endian. -/
def State.wrLe (s : State) (a n v : Nat) : State := s.wrBytes a (leBytes n v)

/-- Memory in canonical form: addresses strictly rising, no byte listed that reads as an unlisted one. -/
abbrev Memory.wf (m : List Host.Cell) : Prop := smWf (0 : Byte) m = true

/-- Removes every listed byte from `lo` to `hi - 1`: the range reads as zeros. -/
def State.zeroRange (s : State) (lo hi : Nat) : State :=
  { s with mem := s.mem.filter fun p => decide (p.1 < lo ∨ hi ≤ p.1) }

/-- Bytes of the remote-cache partition of a core (R254). -/
def rcBytes (s : State) (c : CoreId) : Nat :=
  match s.rd Reg.CP_CFG_RCSIZE (coreU c) with
  | 1 => 0x40000 | 2 => 0x80000 | 3 => 0x100000 | 4 => 0x200000 | _ => 0

/-- The first unpopulated scratchpad offset of a core: 24 MiB less the remote-cache partition (R198, R254). -/
def spLimit (s : State) (c : CoreId) : Nat := 0x1800000 - rcBytes s c

/-! ## Where work belongs -/

/-- The physical column of a logical core, 0xF where it is absent (R39). -/
def pcolOf (s : State) (d row k : Nat) : Nat :=
  let F := match k with
    | 0 => Reg.FT_LMAP_PCOL0 | 1 => Reg.FT_LMAP_PCOL1 | 2 => Reg.FT_LMAP_PCOL2 | 3 => Reg.FT_LMAP_PCOL3
    | 4 => Reg.FT_LMAP_PCOL4 | 5 => Reg.FT_LMAP_PCOL5 | 6 => Reg.FT_LMAP_PCOL6 | _ => Reg.FT_LMAP_PCOL7
  s.rd F d row

/-- The router that serves a logical core (R268, R296): that of the position which carries it, as 80 x die + 10 x row + column; for an
absent core 320 + its number. -/
def rxKey (s : State) (c : CoreId) : Nat :=
  let p := pcolOf s c.die.val (c.lc.val / 8) (c.lc.val % 8)
  if p < 10 then 80 * c.die.val + 10 * (c.lc.val / 8) + p else 320 + coreU c

/-- The router at a logical core. -/
def State.rx (s : State) (c : CoreId) : RouterX := smGet {} s.routers (rxKey s c)

/-- Replaces the router at a logical core. -/
def State.setRx (s : State) (c : CoreId) (x : RouterX) : State :=
  { s with routers := smSet {} s.routers (rxKey s c) x }

/-- True when a logical core is carried by a position (R31). -/
def corePresent (s : State) (c : CoreId) : Bool := pcolOf s c.die.val (c.lc.val / 8) (c.lc.val % 8) != 15

/-- True when the parison defines a gather (R392). -/
def gatherDefined (s : State) (g : Gather) : Bool := s.rb Reg.PZ_GATHER_VALID g.die.val g.idx.val

/-- True when a logical core lies in a gather's rectangle (R373). -/
def inGather (s : State) (g : Gather) (lc : LCore) : Bool :=
  let d := g.die.val
  let i := g.idx.val
  let r := lc.val / 8
  let k := lc.val % 8
  gatherDefined s g && decide (s.rd Reg.PZ_GATHER_R0 d i ≤ r) && decide (r ≤ s.rd Reg.PZ_GATHER_R1 d i)
    && decide (s.rd Reg.PZ_GATHER_C0 d i ≤ k) && decide (k ≤ s.rd Reg.PZ_GATHER_C1 d i)

/-- The gather a core belongs to, if any (R373). -/
def gatherOf (s : State) (c : CoreId) : Option Gather := (dieGathers c.die).find? fun g => inGather s g c.lc

/-- The cores of a gather, in index order. -/
def gatherCores (s : State) (g : Gather) : List CoreId := (dieCores g.die).filter fun c => inGather s g c.lc

/-- The phase a gather runs or has run last without a verdict: the newest of its unsealed phases. -/
def curPhase (x : GatherX) : Option PhaseX := x.phases.getLast?

/-- The phase tag of what a core sends: its gather's phase in progress, 0 outside every gather (R170, R374). -/
def phaseTag (s : State) (c : CoreId) : Nat :=
  match gatherOf s c with
  | some g => match curPhase (s.gx g) with
    | some p => p.ph
    | none => 0
  | none => 0

/-- Reports causes to the seal unit of a core's gather, for the phase in progress (R102, R132, R166). -/
def reportCause (s : State) (c : CoreId) (range mem : Bool) : State :=
  match gatherOf s c with
  | none => s
  | some g =>
    let x := s.gx g
    match x.phases.reverse with
    | [] => s
    | p :: r =>
      s.setGx g { x with phases := ({ p with range := p.range || range, mem := p.mem || mem } :: r).reverse }

/-- Reports a cause for a phase named by its sequence number (R294). -/
def reportCauseSeq (s : State) (g : Gather) (seq : Nat) (range mem : Bool) : State :=
  let x := s.gx g
  s.setGx g { x with phases := x.phases.map fun p =>
    if p.ph = seq then { p with range := p.range || range, mem := p.mem || mem } else p }

/-- True when a phase of a gather has been sealed in the step in progress (R167). -/
def phaseSealed (s : State) (g : Gather) (ph : Nat) : Bool := decide (ph < (s.gx g).nsealed)

/-- The dependency list of a phase (R167, R394). -/
def phaseDeps (s : State) (g : Gather) (ph : Nat) : List (Gather × Nat) :=
  let d := g.die.val
  let fs := [Reg.PZ_PHREC_DEP0, Reg.PZ_PHREC_DEP1, Reg.PZ_PHREC_DEP2, Reg.PZ_PHREC_DEP3,
    Reg.PZ_PHREC_DEP4, Reg.PZ_PHREC_DEP5, Reg.PZ_PHREC_DEP6, Reg.PZ_PHREC_DEP7]
  (fs.take (s.rd Reg.PZ_PHREC_NDEP d g.idx.val ph)).map fun F =>
    let v := s.rd F d g.idx.val ph
    (⟨Fin.ofNat 4 (bits v 14 2), Fin.ofNat 64 (bits v 8 6)⟩, bits v 0 8)

/-- True when a phase and every phase of its dependency list are sealed: its commit gate is open (R169). -/
def gateOpen (s : State) (g : Gather) (ph : Nat) : Bool :=
  phaseSealed s g ph && (phaseDeps s g ph).all fun p => phaseSealed s p.1 p.2

/-- True when the side effects of a core's phase need not wait (R169, R180): its commit gate is open, or the core lies
outside every gather. -/
def coreGateOpen (s : State) (c : CoreId) (ph : Nat) : Bool :=
  match gatherOf s c with
  | some g => gateOpen s g ph
  | none => true

/-! ## Fault events (R529, R537) -/

/-- The position that carries a core. -/
def corePos (s : State) (c : CoreId) : Option (Fin 8 × Fin 10) :=
  let p := pcolOf s c.die.val (c.lc.val / 8) (c.lc.val % 8)
  if p < 10 then some (Fin.ofNat 8 (c.lc.val / 8), Fin.ofNat 10 p) else none

/-- An event a core's unit detects, counted in ACLK. -/
def coreEvent (s : State) (c : CoreId) (cls : Fin 9) (code item : Nat) (detail : List Nat) : FaultEvent :=
  let u := coreU c
  { cls := cls, code := code, unit := c.die.val, pos := corePos s c, item := item
    count := BitVec.ofNat 56 (s.rd Reg.CS_CYCLE_COUNT u 0 + 2 ^ 32 * s.rd Reg.CS_CYCLE_COUNT u 1), clock := 0
    detail := detail, noRefetch := false }

/-- An event a router detects, counted in NCLK (R306). -/
def routerEvent (s : State) (c : CoreId) (cls : Fin 9) (code : Nat) (detail : List Nat) : FaultEvent :=
  { coreEvent s c cls code 0 detail with count := BitVec.ofNat 56 (dnCycle s (coreU c)), clock := 1 }

/-- An event of a unit (0-3 die, 4 hub, 16 + n stack) beside the cores, counted in its collector's MCLK. -/
def unitEvent (s : State) (cls : Fin 9) (code unit : Nat) (pos : Option (Fin 8 × Fin 10)) (item : Nat)
    (detail : List Nat) : FaultEvent :=
  { cls := cls, code := code, unit := unit, pos := pos, item := item
    count := BitVec.ofNat 56 (mclkOf s (if unit ≤ 4 then unit else (unit - 16) / 4)), clock := 2, detail := detail
    noRefetch := false }

/-- A core reports an event that is judged (`info` false) or informational to its die's Punty. -/
def raiseCore (s : State) (c : CoreId) (info : Bool) (e : FaultEvent) : State :=
  s.raise (.core c) (.dieNode c.die) (if info then .info e else .event e)

/-- A die's own unit reports an event to its Punty. -/
def raiseDie (s : State) (d : DieId) (info : Bool) (e : FaultEvent) : State :=
  s.raise (.dieNode d) (.dieNode d) (if info then .info e else .event e)

/-- A unit of the hub reports an event to hub Punty 2. -/
def raiseHub (s : State) (info : Bool) (e : FaultEvent) : State :=
  s.raise (.hub 4) (.hub 2) (if info then .info e else .event e)

/-- A node reports an event of no class to its collector (R534, R535). -/
def noteAt (s : State) (n : NodeId) (code : Nat) (detail : List Nat) : State :=
  match n with
  | .core c => raiseCore s c true (coreEvent s c 0 code 0 detail)
  | .dieNode d => raiseDie s d true (unitEvent s 0 code d.val none 0 detail)
  | .hub _ => raiseHub s true (unitEvent s 0 code 4 none 0 detail)
  | .stack k => s.raise (.stack k) (.dieNode (Fin.ofNat 4 (k.val / 4))) (.info (unitEvent s 0 code (16 + k.val) none 0 detail))

/-- An address fault (R47): logged with the requester's identity, and reported as an informational event (R534). -/
def addrFault (s : State) (src : NodeId) (m : Nat) : State :=
  noteAt (s.lg LogKind.addrFault (nodeNum src) [m]) src (Config.eventCode 1) [nodeNum src, m]

/-- The node of a requester (R308): host software acts through the hub's CSR unit, the debug requester through hub Punty 2. -/
def requesterNode : Requester → NodeId
  | .host => .hub 4
  | .firmware => .hub 0
  | .hardware => .hub 4
  | .debug => .hub 2
  | .punty d => .dieNode d
  | .lehr d => .dieNode d
  | .core c => .core c
  | .crucible k => .stack k

/-! ## Traps and events -/

/-- The STATE codes of CS_STAT (R220). -/
def stRun : Nat := 0
def stWaitQ : Nat := 1
def stWaitSend : Nat := 2
def stWaitSync : Nat := 3
def stTrapped : Nat := 4
def stHalted : Nat := 5
def stIdle : Nat := 6

/-- The sequencer state of a core. -/
def State.cst (s : State) (c : CoreId) : Nat := s.rd Reg.CS_STAT_STATE (coreU c)

/-- Sets the sequencer state of a core. -/
def State.setCst (s : State) (c : CoreId) (v : Nat) : State := s.wr Reg.CS_STAT_STATE (coreU c) v

/-- The PC of a core (R184, R221). -/
def State.pc (s : State) (c : CoreId) : Nat := s.rd Reg.CS_PC_PC (coreU c)

/-- The instruction word at an index of a core's instruction memory (R185, R371). -/
def imemWord (s : State) (c : CoreId) (i : Nat) : Nat := s.rd64 Reg.IMEM_LO Reg.IMEM_HI (coreU c) i

/-- Taking a trap (R216): the code, PC, instruction word and information are recorded, the count rises, the sequencer
enters TRAPPED and a report goes to the die Punty on the high-priority channel. -/
def takeTrapAt (s : State) (c : CoreId) (code info pc : Nat) (own : Nat := 0) : State :=
  let u := coreU c
  let w := imemWord s c pc
  let s1 := (s.wr Reg.CS_TRAP_CODE u code).wb Reg.CS_TRAP_VALID u true
  let s2 := (s1.bump Reg.CS_TRAP_COUNT u).wr Reg.CS_TRAPPC_PC u pc
  let s3 := ((s2.wr Reg.CS_TRAPIW_WORD u w 0).wr Reg.CS_TRAPIW_WORD u (w / 2 ^ 32) 1).wr Reg.CS_TRAPINFO_INFO u info
  (s3.setCst c stTrapped).send (.core c) (.dieNode c.die) (.trap code pc info own)

/-- Taking a trap at the instruction the PC names. -/
def takeTrap (s : State) (c : CoreId) (code info : Nat) (own : Nat := 0) : State :=
  takeTrapAt s c code info (s.pc c) own

/-- The trap codes (R217). -/
def trIllegal : Nat := 1
def trArrayDesc : Nat := 2
def trMisalign : Nat := 3
def trAddrFault : Nat := 4
def trIfetch : Nat := 5
def trImemUe : Nat := 6
def trCsrFault : Nat := 7
def trQueueFault : Nat := 8
def trBlockedSend : Nat := 9
def trStopped : Nat := 10
def trSwTrap : Nat := 11
def trLoopDepth : Nat := 12
def trStreamFault : Nat := 13

/-- True while a core's units have ACLK as far as its die and its gather go: the die's clock runs (R65), and no ratio change stops the
core (R56, R57). -/
def aclkRuns (s : State) (c : CoreId) : Bool :=
  !s.rb Reg.BT_CLKSTAT_STOPPED c.die.val && match gatherOf s c with
    | some g => !((s.gx g).stop.any fun p => p.2.contains c.lc.val)
    | none => true

/-- True when a core's sequencer is awake: in C0 or C1 (R516), or in C2 while it wakes, when only its arrays are still without power
(R97; DEDUCED, notes/assumptions/87). -/
def seqAwake (s : State) (c : CoreId) : Bool :=
  decide (s.rd Reg.LH_CSTATE_STATE (coreU c) < 2) || (s.rd Reg.LH_CSTATE_STATE (coreU c) == 2 && (s.cx c).waking.isSome)

/-- True of a core that runs: its die has clock, and the core is carried by a position, not dead, and its sequencer awake. -/
def coreLive (s : State) (c : CoreId) : Bool :=
  !s.rb Reg.BT_CLKSTAT_STOPPED c.die.val && corePresent s c && !(s.cx c).dead && seqAwake s c

end Sys2Proof.Machine
end

