-- ==== Sys2Proof/Machine/Ecc.lean ====
section
/-! DEFINITION. Reads and writes of a scratchpad with its check bits (R225, R243, R244, R258, R263). A word whose
stored bits carry an error is marked in `State.eccBad`: 1 a single-bit error, 2 an uncorrectable one. -/

namespace Sys2Proof.Machine

/-- The requester codes of CP_ECCLOG.REQ (R263). -/
def rqTile : Nat := 0
def rqWgt : Nat := 1
def rqVec : Nat := 2
def rqNin : Nat := 3
def rqNout : Nat := 4
def rqAcc : Nat := 5
def rqQm : Nat := 6
def rqRw : Nat := 7
def rqRcf : Nat := 8
def rqScalar : Nat := 9
def rqDebug : Nat := 10
def rqPatrol : Nat := 11
def rqCopy : Nat := 12

/-- The marked words among those a range of module addresses touches. -/
def badWords (s : State) (a n : Nat) : List (Nat × Nat) :=
  s.eccBad.filter fun p => decide (a / 8 ≤ p.1) && decide (8 * p.1 < a + n)

/-- Marks a 64-bit word of a scratchpad: 0 good, 1 a single-bit error, 2 an uncorrectable one. -/
def setBad (s : State) (k v : Nat) : State := { s with eccBad := smSet 0 s.eccBad k v }

/-! ## Rows (R224, R245, R246) -/

/-- The number of the position that carries a core: 80 x die + 10 x row + column. -/
def macroPos (s : State) (c : CoreId) : Nat :=
  80 * c.die.val + 10 * (c.lc.val / 8) + pcolOf s c.die.val (c.lc.val / 8) (c.lc.val % 8)

/-- The remap tables of the macros of a position (R245), 8 entries for each: under 8 x macro + spare row one more than the row that it
replaces, or `spareGone` where the spare row was itself mapped out. -/
def rowMap (s : State) (n : Nat) : SMap Nat := smGet [] s.rowMaps n

/-- The content of an entry whose spare row is given up. -/
def spareGone : Nat := 2 ^ 20

/-- The spare rows of the macro of a row that are in use, or given up. -/
def sparesOf (m : SMap Nat) (row : Nat) : List Nat := (List.range 8).filter fun k => smGet 0 m (8 * (row / 512) + k) != 0

/-- Spare rows in use in the macro of a row of a core. -/
def sparesUsed (s : State) (c : CoreId) (row : Nat) : Nat := (sparesOf (rowMap s (macroPos s c)) row).length

/-- The spare row in use for a row of a position, if any (R245). -/
def spareFor (s : State) (n row : Nat) : Option Nat :=
  (List.range 8).find? fun k => smGet 0 (rowMap s n) (8 * (row / 512) + k) == row + 1

/-- Maps a row of a position out into the lowest free spare row of its macro; a spare row that stood for it is given up (R246). -/
def mapRow (s : State) (n row : Nat) : State :=
  let m := rowMap s n
  let used := sparesOf m row
  let m1 := match spareFor s n row with
    | some k => smSet 0 m (8 * (row / 512) + k) spareGone
    | none => m
  match (List.range 8).find? fun k => !used.contains k with
  | some k => { s with rowMaps := smSet [] s.rowMaps n (smSet 0 m1 (8 * (row / 512) + k) (row + 1)) }
  | none => s

/-- Spare rows left in the fullest macro of a core (R261). -/
def minSpare (s : State) (c : CoreId) : Nat :=
  let m := rowMap s (macroPos s c)
  m.foldl (fun n p => min n (8 - (sparesOf m (p.1 / 8 * 512)).length)) 8

/-- The number of an SRAM row: bank, macro and row of an offset (R224). -/
def rowOfOff (off : Nat) : Nat := bits off 6 4 * 8192 + bits off 21 4 * 512 + bits off 12 9

/-- The four lines of a row, as offsets. -/
def rowLines (row : Nat) : List Nat :=
  (List.range 4).map fun k => row / 512 % 16 * 2 ^ 21 + row % 512 * 2 ^ 12 + k * 2 ^ 10 + row / 8192 * 64

/-- ITEM of a scratchpad row (R537). -/
def rowItem (off : Nat) : Nat := bits off 6 4 + 2 ^ 4 * bits off 21 4 + 2 ^ 8 * bits off 12 9

/-! ## Errors -/

/-- The phase a gather has in progress: started and not ended. -/
def phaseRuns (s : State) (c : CoreId) : Bool :=
  match gatherOf s c with
  | some g => (s.gx g).inPhase
  | none => false

/-- An uncorrectable word found while no phase of its core's gather is in progress is reported to module firmware (R244). Whether it
touches a retained input of a sealed phase is a free value, since the spec lays out no such region; there the step is given up
(R178). -/
def ueIdle (s : State) (c : CoreId) (off : Nat) : State :=
  let t := s.lg LogKind.ueToFirmware (coreU c) [off]
  match gatherOf s c with
  | some g =>
    if (s.gx g).nsealed = 0 then t
    else { t with lossDue := t.lossDue || Config.retained t.free, free := t.free + 1 }
  | none => t

/-- A read of one marked word (R243, R244, R263): it is logged in CP_ECCLOG, counted, and an event of its row (R529); a corrected word
waits for its write-back; an uncorrectable one is a memory cause of the phase in progress, or is reported to module firmware. A
debug read's is not reported; a patrol read and a map-out copy are made for no phase (R166); the remote-cache partition never
reaches a seal unit (R258). -/
def eccEvent (s : State) (c : CoreId) (req : Nat) (p : Nat × Nat) : State :=
  let u := coreU c
  let off := 8 * p.1 - spBase c
  let ue := decide (p.2 ≥ 2)
  let s1 := ((s.wr Reg.CP_ECCLOG_LINE u (off / 64)).wr Reg.CP_ECCLOG_WORD u (off / 8 % 8)).wb Reg.CP_ECCLOG_UE u ue
  let s2 := (s1.wb Reg.CP_ECCLOG_VALID u true).wr Reg.CP_ECCLOG_REQ u req
  let at_ := [bits off 6 4, bits off 21 4, bits off 12 9]
  let seed := fun (t : State) (code : Nat) => raiseCore t c false (coreEvent t c 0 code (rowItem off) at_)
  if ue then
    let s3 := s2.bump Reg.CP_ECCCNT_UE u
    if req = rqDebug then s3
    else
      let s4 := seed (s3.lg LogKind.sramUe u at_) 0x02
      if off ≥ spLimit s c then s4
      else if req ≠ rqPatrol ∧ req ≠ rqCopy ∧ phaseRuns s4 c then reportCause s4 c false true
      else ueIdle s4 c off
  else
    let x := s2.cx c
    seed (((s2.setCx c { x with writeback := p.1 :: x.writeback.filter (· ≠ p.1) }).bump Reg.CP_ECCCNT_CE u).lg
      LogKind.sramCe u at_) 0x01

/-- Reads `n` bytes at a scratchpad offset for a requester, with the events of the words it touches. -/
def spRead (s : State) (c : CoreId) (off n req : Nat) : List Byte × State :=
  let a := spBase c + off
  (s.rdBytes a n, (badWords s a n).foldl (fun t p => eccEvent t c req p) s)

/-- The events of a read whose data is taken elsewhere. -/
def spTouch (s : State) (c : CoreId) (off n req : Nat) : State := (spRead s c off n req).2

/-- Writes bytes but those of the kept words. -/
def State.wrKeep (keep : List Nat) : State → Nat → List Byte → State
  | s, _, [] => s
  | s, a, b :: r => State.wrKeep keep (if keep.contains (a / 8) then s else s.wrByte a b) (a + 1) r

/-- Writes bytes at a scratchpad offset (R225): a word covered whole is rewritten with valid check bits; a word
covered in part is read first, and where that read is uncorrectable the write of that word is dropped. -/
def spWrite (s : State) (c : CoreId) (off : Nat) (bs : List Byte) (req : Nat) : State :=
  let a := spBase c + off
  match badWords s a bs.length with
  | [] => s.wrBytes a bs
  | bad =>
    let part := bad.filter fun p => decide (8 * p.1 < a ∨ a + bs.length < 8 * p.1 + 8)
    let keep := (part.filter fun p => decide (p.2 ≥ 2)).map (·.1)
    let s1 := part.foldl (fun t p => eccEvent t c req p) s
    let s2 := (bad.filter fun p => !keep.contains p.1).foldl (fun t p => setBad t p.1 0) s1
    s2.wrKeep keep a bs

end Sys2Proof.Machine
end

