-- ==== Sys2Proof/Machine/Csr.lean ====
section
/-! DEFINITION. Reads and writes of CSR words: access types (R13), FROZEN refusal (R15, R377), reserved bits (R17),
clamps (R18), requesters (R623), STEP values (R378) and the counter latch (R68). -/

namespace Sys2Proof.Machine

/-- Fields whose writing is an event of its own: a word write leaves them to that event's operation. -/
def ownFields : List Field :=
  [Reg.FT_ROWMAP_FENCE_REQ, Reg.LH_GACLK_REQ, Reg.LH_CRZ_WARN_LVL, Reg.LH_CRZ_CRIT_LVL, Reg.CS_TRAPCTL_ACTION,
   Reg.CS_TRAPCTL_NEWPC, Reg.CS_SREG_VALUE, Reg.CS_AREG_LO, Reg.CS_AREG_HI, Reg.CP_CMD_ZERO, Reg.CP_CMD_RCINV,
   Reg.DN_TBLSEL_SWAP, Reg.DN_SCMD_STREAM, Reg.DN_SCMD_STOP, Reg.CQ_RREL_QIDX, Reg.CQ_RREL_COUNT, Reg.CQ_CMD_QIDX,
   Reg.CQ_CMD_DESTROY, Reg.CQ_Q_GEN, Reg.PZ_HCMD_OP, Reg.LK_CFG_RETRAIN, Reg.LKH_CFG_RETRAIN, Reg.TS_CMD_ZERO,
   Reg.TS_CMD_COPY, Reg.TS_CMD_LIDX, Reg.TS_NPART_SW, Reg.TS_NPART_SU, Reg.HB_STEPCTL_HOLD, Reg.HB_STEPCTL_GO,
   Reg.HB_SLOT_EN, Reg.HB_MBCTL_COMMIT, Reg.HB_MBCTL_TAGGED, Reg.HB_MBCTL_DIE, Reg.HB_MBCTL_GATHER,
   Reg.HB_MBCTL_PSEQ, Reg.HB_MBCTL_RELEASE, Reg.FT_SCAN_START, Reg.FT_GCMD_GATHER,
   Reg.FT_GCMD_RECALL, Reg.FT_GCMD_HOLD, Reg.FT_GCMD_RELEASE, Reg.FT_REFETCH_STREAM, Reg.FT_REFETCH_GO,
   Reg.BT_CMD_WARM, Reg.BT_CMD_FULL, Reg.BT_CMD_DIE_RST, Reg.BT_CMD_DIE]

/-- Registers of a gather index that read 0 and ignore writes where the parison defines no such gather (R60, R181,
R392). -/
def gatherFields : List Field :=
  [Reg.LH_GACLK_CEIL, Reg.LH_GACLK_FLOOR, Reg.LH_GACLK_APPLIED, Reg.LH_GACLK_REQ, Reg.LH_GACLK_PENDING,
   Reg.LH_GACLK_STOPPING, Reg.LH_GACLK_CHANGES, Reg.PZ_WATCH_SHADOW_EN, Reg.PZ_WATCH_RATE, Reg.PZ_WATCH_THRESH,
   Reg.PZ_LADDER_NRUNG, Reg.PZ_LADDER_FMT0, Reg.PZ_LADDER_FMT1, Reg.PZ_LADDER_FMT2, Reg.PZ_LADDER_FMT3,
   Reg.PZ_LADDER_RUNAHEAD, Reg.PZ_LADDER_HOLD_STEPS, Reg.SY_SEAL_PHASE_SEQ, Reg.SY_SEAL_RUNG, Reg.SY_SEAL_PROV,
   Reg.SY_SEAL_LAST, Reg.SY_SEAL_CAUSE, Reg.SY_SEAL_DEPTH, Reg.SY_SEAL_RA_WAIT, Reg.SY_SEAL_LOST, Reg.SY_VCNT_SEALS,
   Reg.SY_VCNT_RECALLS, Reg.PZ_GATHER_R0, Reg.PZ_GATHER_C0, Reg.PZ_GATHER_R1, Reg.PZ_GATHER_C1, Reg.PZ_GATHER_VALID,
   Reg.PZ_GATHER_DEGRADED, Reg.PZ_GATHER_C4OK, Reg.PZ_GATHER_SYNCG, Reg.PZ_GATHER_STRM_BASE,
   Reg.PZ_GATHER_STRM_CNT, Reg.PZ_GATHER_NPH, Reg.PZ_GATHER_SEGS, Reg.PZ_GATHER_STATE]

/-- The 64-bit counters a read of whose low word latches the high word (R68, R109, R391). -/
def latchFields : List Field := [Reg.CS_CYCLE_COUNT, Reg.DN_CYCLE_COUNT, Reg.PZ_STEP_STEP]

/-- Registers of a sequence slot that host software sets before it enables the slot (R477). -/
def slotSetup : List Field :=
  [Reg.HB_SLOT_SQBASE_LO, Reg.HB_SLOT_SQBASE_HI, Reg.HB_SLOT_CQBASE_LO, Reg.HB_SLOT_CQBASE_HI, Reg.HB_SLOT_SQSIZE,
   Reg.HB_SLOT_CQSIZE]

/-- True when a field of an undefined gather, or of an unlicensed slot (R498), is read or written. -/
def gatherHidden (s : State) (F : Field) (u i : Nat) : Bool :=
  (gatherFields.contains F && !s.rb Reg.PZ_GATHER_VALID u i)
    || (F.space == .hub && decide (0x2000 ≤ F.base ∧ F.base < 0x3000) && decide (i ≥ s.rd Reg.HB_ID_SLOTS 0))

/-- The last value written to a field: the pending one of a STEP field (R378). -/
def State.rdWritten (s : State) (F : Field) (u i j : Nat) : Nat :=
  match smGet none s.pend (fieldKey F u i j) with
  | some v => v.1
  | none => s.rd F u i j

/-- The slot-table bank in force on a die (R279, R304). -/
def bankOf (s : State) (d : Nat) : Nat := s.rd Reg.DN_TBLSEL_ACTIVE d

/-- The bank in force at the cane engine of a die's port, and at HCd for port 0: the die's, but where a swap of the die it faces has
changed this port alone (R297). -/
def portBank (s : State) (d n : Nat) : Nat :=
  let b := bankOf s d
  if (smGet ({} : DieX) s.dies d).flips.contains n then 1 - b else b

/-- LK_LCNT (R427): the bad groups attributed to a lane of a port. -/
def laneCount (s : State) (port lane : Nat) : Nat :=
  min (2 ^ 32 - 1) (smGet 0 (smGet ({} : PortX) s.ports port).lane.count lane)

/-- True when the router of a core's position is marked failed (R298, R302, R331). -/
def routerMarked (s : State) (u : Nat) : Bool :=
  let k := pcolOf s (u / 64) (u % 64 / 8) (u % 8)
  let n := 10 * (u % 64 / 8) + k
  decide (k < 10) && bit (s.rd Reg.CN_FAIL_FAIL (u / 64) (n / 32)) (n % 32)

/-- True when a link of a logical core to a neighbour uses a bypass or offset path (R32, R302): a neighbour of its row that does
not sit next to it, or one of its column in another physical column. -/
def linkShifted (s : State) (u : Nat) : Bool :=
  let d := u / 64
  let r := u % 64 / 8
  let k := u % 8
  let p := pcolOf s d r k
  let row := fun (a b : Nat) => b < 8 && pcolOf s d r b != 15 && pcolOf s d r a + 1 != pcolOf s d r b
  let col := fun q : Nat => q < 8 && pcolOf s d q k != 15 && pcolOf s d q k != p
  p != 15 && (row k (k + 1) || (k != 0 && row (k - 1) k) || col (r + 1) || (r != 0 && col (r - 1)))

/-- What a read returns for a field: WO reads 0 (R13), the registers of an undefined gather or an unlicensed slot read 0, a
mailbox without a published result reads RESULT_PENDING (R492), and a core that waits is in C1 (R517), and LK_LCNT counts for the
lane selected. MINSPARE, MAPPING, SBUSED (R261), QIDX, GATED, FAILED, SHIFTED and BULK follow the state they report (R220, R107,
R302, R481); QIDX of a port bound to no queue reads 0. -/
def readField (s : State) (F : Field) (u i j : Nat) : Nat :=
  if F.acc = .wo ∨ F = Reg.HB_STEPCTL_GO then 0
  else if gatherHidden s F u i then 0
  else if F = Reg.LH_CSTATE_STATE ∧ s.rd F u < 2 then (if s.rd Reg.CS_STAT_STATE u = 0 then 0 else 1)
  else if F = Reg.CP_STAT_MINSPARE then minSpare s (coreOf u)
  else if F = Reg.CP_STAT_MAPPING then b2n (s.cx (coreOf u)).mapping.isSome
  else if F = Reg.CP_STAT_SBUSED then (s.cx (coreOf u)).sb.length
  else if F = Reg.CS_STAT_QIDX then smGet 0 (s.cx (coreOf u)).qbind (s.rd Reg.CS_STAT_QPORT u) - 1
  else if F = Reg.CA_STAT_GATED then b2n (decide (2 ≤ s.rd Reg.LH_CSTATE_STATE u))
  else if F = Reg.DN_RSTAT_FAILED then b2n (routerMarked s u)
  else if F = Reg.DN_RSTAT_SHIFTED then b2n (linkShifted s u)
  else if F = Reg.HB_HOSTCFG_BULK then b2n (!s.rb Reg.PZ_HSTAT_SEALED 0)
  else if F = Reg.HB_MB_WORD ∧ !s.rb Reg.HB_MBCTL_PUBLISHED 0 i then 1
  else if F = Reg.LK_LCNT_COUNT then laneCount s (9 * u + i) (s.rd Reg.LK_LSEL_LANE u i)
  else if F = Reg.LKH_LCNT_COUNT then laneCount s (if i < 8 then 36 + i else 32 + i) (s.rd Reg.LKH_LSEL_LANE u i)
  else s.rdWritten F u i j

/-- The first read of a mailbox's status word leaves READ_BEFORE set for the next one (R492). -/
def markRead (s : State) : List (Field × Nat × Nat) → State
  | [(F, i, 0)] => if F = Reg.HB_MB_WORD ∧ s.rb Reg.HB_MBCTL_PUBLISHED 0 i then s.wr F 0 (s.rd F 0 i ||| 0x10000) i else s
  | _ => s

/-- The word of a list of fields; reserved bits read 0 (R17). -/
def wordOf (s : State) (u : Nat) : List (Field × Nat × Nat) → Nat
  | [] => 0
  | (F, i, j) :: r => readField s F u i j * 2 ^ F.lo + wordOf s u r

/-- Reads a CSR word (R13, R16, R17): none where no register occupies the offset. A read of the low word of a 64-bit
counter latches its high word, and the next read of the high word returns the latched value (R68). -/
def csrRead (s : State) (sp : Space) (u off : Nat) : Option (Nat × State) :=
  match wordFields sp off with
  | [] => none
  | fs =>
    let w := wordOf s u fs
    match fs with
    | [(F, 0, _)] =>
      if latchFields.contains F then
        some (w, { s with latch := smSet 0 s.latch (fieldKey F u 0 0) (s.rd F u 1 + 1) })
      else if F = Reg.CA_ROWCYC_LO then
        some (w, { s with latch := smSet 0 s.latch (fieldKey F u 0 0) (s.rd Reg.CA_ROWCYC_HI u + 1) })
      else if F = Reg.CA_ROWCYC_HI then
        match smGet 0 s.latch (fieldKey Reg.CA_ROWCYC_LO u 0 0) with
        | 0 => some (w, s)
        | v + 1 => some (v, { s with latch := smSet 0 s.latch (fieldKey Reg.CA_ROWCYC_LO u 0 0) 0 })
      else some (w, markRead s fs)
    | [(F, 1, _)] =>
      if latchFields.contains F then
        match smGet 0 s.latch (fieldKey F u 0 0) with
        | 0 => some (w, s)
        | v + 1 => some (v, { s with latch := smSet 0 s.latch (fieldKey F u 0 0) 0 })
      else some (w, markRead s fs)
    | _ => some (w, markRead s fs)

/-- The die a unit of a space belongs to. -/
def dieOfUnit (sp : Space) (u : Nat) : Nat :=
  match sp with
  | .core => u / 64
  | _ => u

/-- True when a requester may write a field reserved to `w` (R623). The hardware itself and module firmware's loads
write every field. -/
def mayWrite (w : Who) (r : Requester) (sp : Space) (u : Nat) : Bool :=
  match w, r with
  | .any, _ => true
  | _, .hardware => true
  | .host, .host => true
  | .host, _ => false
  | _, .firmware => true
  | .fw, _ => false
  | .punty, .punty d => decide (sp ≠ .hub ∧ d.val = dieOfUnit sp u)
  | .punty, _ => false
  | .lehr, .lehr d => decide (sp ≠ .hub ∧ d.val = dieOfUnit sp u)
  | .lehr, _ => false
  | .hostfw, .host => true
  | .hostfw, _ => false
  | .corefw, .core _ => true
  | .corefw, _ => false
  | .mgmt, .host => true
  | .mgmt, _ => false

/-- True when the written bits ask for something: a changed value, or a 1 written to a field that acts on ones (R377). A STEP field with
a value pending is compared with that one, so that a write of the value in force replaces it (R378; DESIGN CHOICE,
notes/assumptions/98). -/
def asks (s : State) (F : Field) (u i j raw : Nat) : Bool :=
  match F.acc with
  | .ro => false
  | .wo => raw != 0
  | .w1c => raw != 0
  | .w1s => raw != 0
  | .cnt => raw == 0 && s.rd F u i j != 0
  | .cntw => raw == 0 && s.rd F u i j != 0
  | _ => raw != s.rdWritten F u i j

/-- The access type in force: the slot-table bank not in force is RW and open to module firmware only (R303); cane
tables have two banks as well (R428). The thresholds of classes 5, 7 and 8 are RO (R555). -/
def accOf (s : State) (F : Field) (u i j : Nat) : Acc × Who :=
  if (F.base = 0x400000 ∨ F.base = 0x400004) ∧ (F.space = .die ∨ F.space = .hub) then
    let b := if F.space = .die then portBank s u i else portBank s (i % 4) 0
    if j / 4096 % 2 = b then (.rwf, .any) else (.rw, .fw)
  else if F.base = 0x100000 ∧ F.space = .core then
    if i = s.rd Reg.DN_TBLSEL_ACTIVE (u / 64) then (.rwf, .any) else (.rw, .fw)
  else if F = Reg.FT_THR_T ∧ (i = 5 ∨ i = 7 ∨ i = 8) then (.ro, .fw)
  else (F.acc, F.who)

/-- A value brought into the range its description states (R18); a field whose 0 means off keeps it. -/
def clampField (F : Field) (v : Nat) : Nat :=
  match F.range with
  | none => v
  | some (lo, hi) => if F.zeroOff && v == 0 then v else clampNat lo hi v

/-- Writes one field as its access type states, with the requester and clamp rules (R13, R18, R378, R623); a mailbox word goes to
staging (R491). `whole` is the word written, for counters that only a write of 0 to the register clears. -/
def writeField (s : State) (r : Requester) (sp : Space) (u : Nat) (whole : Nat) (p : Field × Nat × Nat) : State :=
  let F := p.1
  let i := p.2.1
  let j := p.2.2
  let raw := bits whole F.lo F.w
  let a := accOf s F u i j
  if F = Reg.HB_MB_WORD then
    let x := smGet ({} : MailX) s.mails i
    if mayWrite a.2 r sp u then { s with mails := smSet {} s.mails i { x with staged := smSet 0 x.staged j raw } }
    else s.lg LogKind.ignoredWrite (spaceN F.space u) [F.id, i, j]
  else if !asks s F u i j raw || gatherHidden s F u i || ownFields.contains F then s
  else if !mayWrite a.2 r sp u || (slotSetup.contains F && s.rb Reg.HB_SLOT_EN 0 i) then
    s.lg LogKind.ignoredWrite (spaceN F.space u) [F.id, i, j]
  else match a.1 with
    | .ro => s
    | .wo => s
    | .w1c => s.wr F u (s.rd F u i j - (s.rd F u i j &&& raw)) i j
    | .w1s => s.wr F u (s.rd F u i j ||| raw) i j
    | .cnt => s.wr F u 0 i j
    | .cntw => if whole = 0 then s.wr F u 0 i j else s
    | _ =>
      let v := clampField F raw
      let s1 := if v = raw then s else s.lg LogKind.clamped (spaceN F.space u) [F.id, raw, v]
      if F.step then { s1 with pend := smSet none s1.pend (fieldKey F u i j) (some (v, fieldReset F u i)) }
      else s1.wr F u v i j

/-- True when a whole register is reserved to requesters other than the one that writes it (R623). -/
def wordReserved (s : State) (r : Requester) (sp : Space) (u off : Nat) : Bool :=
  let l := wordFields sp off
  !l.isEmpty && l.all fun p => !mayWrite (accOf s p.1 u p.2.1 p.2.2).2 r sp u

/-- True when a word write asks to change a FROZEN field (R15, R377). -/
def asksFrozen (s : State) (u whole : Nat) (p : Field × Nat × Nat) : Bool :=
  s.frozen && (accOf s p.1 u p.2.1 p.2.2).1 == .rwf && !gatherHidden s p.1 u p.2.1
    && asks s p.1 u p.2.1 p.2.2 (bits whole p.1.lo p.1.w)

/-- Writes a CSR word (R13-R18, R377, R623): none where no register occupies the offset; the Bool is true when the
request was refused whole with status FROZEN (R15). Fields with an event of their own are left to it. -/
def csrWrite (s : State) (r : Requester) (sp : Space) (u off v : Nat) : Option (State × Bool) :=
  match wordFields sp off with
  | [] => none
  | fs =>
    if fs.any (asksFrozen s u v) then some (s.lg LogKind.frozenRefused (spaceN sp u) [off, v], true)
    else if wordReserved s r sp u off then some (s.lg LogKind.ignoredWrite (spaceN sp u) [off], false)
    else some (fs.foldl (fun t p => writeField t r sp u v p) s, false)

/-- Access types of fields that a load's words set: a value the field keeps (R371, R384). -/
def loadAcc (a : Acc) : Bool := a == .rw || a == .rwf || a == .rws

/-- Writes a word as a load does: every field that keeps a written value takes its bits, in its range (R18), and pending STEP values
are discarded (R378, R384). -/
def loadWord (s : State) (sp : Space) (u off v : Nat) : State :=
  (wordFields sp off).foldl (fun t p =>
    let F := p.1
    if !loadAcc F.acc then t
    else
      let raw := bits v F.lo F.w
      let x := clampField F raw
      let t1 := if x = raw then t else t.lg LogKind.clamped (spaceN sp u) [F.id, raw, x]
      { t1.wr F u x p.2.1 p.2.2 with pend := smSet none t.pend (fieldKey F u p.2.1 p.2.2) none }) s

/-- The integer square root, bit by bit (fuel: the bits left). -/
def rootBits : Nat → Nat → Nat → Nat
  | 0, _, r => r
  | n + 1, k, r => if (r + 2 ^ n) * (r + 2 ^ n) ≤ k then rootBits n k (r + 2 ^ n) else rootBits n k r

/-- The two numbers of a pair. -/
def unPair (k : Nat) : Nat × Nat :=
  let r := rootBits 100 k 0
  (r - (k - r * r), k - r * r)

/-- The field number, unit and indices of a key of the register store. -/
def keyParts (k : Nat) : Nat × Nat × Nat × Nat :=
  let a := unPair k
  let b := unPair a.2
  let c := unPair b.2
  (a.1, b.1, c.1, c.2)

/-- Returns every instance of a field that a test names, by unit and both indices, to its reset value; pending STEP values of it are
discarded. -/
def clearAt (s : State) (f : Field → Nat → Nat → Nat → Bool) : State :=
  let hit := fun k : Nat =>
    let p := keyParts k
    match regMap.find? fun F => F.id == p.1 with
    | some F => f F p.2.1 p.2.2.1 p.2.2.2
    | none => false
  { s with regs := s.regs.filter fun p => !hit p.1, pend := s.pend.filter fun p => !hit p.1 }

/-- Returns every instance of a field that a test names, by unit and first index, to its reset value. -/
def clearRegs (s : State) (f : Field → Nat → Nat → Bool) : State := clearAt s fun F u i _ => f F u i

/-- Applies every pending STEP value of the module (R375, R378). -/
def applyPending (s : State) : State :=
  { s with
    regs := s.pend.foldl (fun m p => match p.2 with
      | some v => smSet v.2 m p.1 v.1
      | none => m) s.regs
    pend := [] }

end Sys2Proof.Machine
end

