-- ==== Sys2Proof/Machine/Operands.lean ====
section
/-! DEFINITION. Operand forms of the core instruction set (R187, R188), reads of operand ports (R191), register reads
and writes, the issue of one instruction and how its effect is committed (R190, R195, R196, R216, R628). -/

namespace Sys2Proof.Machine

/-- What an operand field of an instruction names (R187): nothing, a scalar register, a scalar register or a q port
as a source, an address register, a Marver register. -/
inductive OpKind where
  | none | s | sq | a | v
deriving DecidableEq, Repr

/-- The operand form of an instruction: the kinds of D, A and B and the FN and IMM bits it uses. -/
structure Form where
  d : OpKind := .none
  a : OpKind := .none
  b : OpKind := .none
  fn : Nat := 0
  imm : Nat := 0
deriving DecidableEq, Repr

/-- All 32 bits of IMM. -/
def immAll : Nat := 0xFFFFFFFF

/-- True when an operand code is one its kind names; an unused field must be 0 (R187, R188). -/
def codeOk (k : OpKind) (code : Nat) : Bool :=
  match k with
  | .none => code == 0
  | .s => decide (code < 0x20)
  | .sq => decide (code < 0x20 ∨ (0x30 ≤ code ∧ code < 0x38))
  | .a => decide (0x20 ≤ code ∧ code < 0x30)
  | .v => decide (code < 0x20)

/-- True when an instruction carries only operand codes its form names and its unused bits are 0 (R188). -/
def formOk (f : Form) (w : IFields) : Bool :=
  codeOk f.d w.d.toNat && codeOk f.a w.a.toNat && codeOk f.b w.b.toNat
    && w.fn.toNat &&& f.fn == w.fn.toNat && w.imm.toNat &&& f.imm == w.imm.toNat

/-- The instruction word of an opcode and its fields (R187). -/
def encodeI (opc : Nat) (w : IFields) : Nat :=
  opc * 2 ^ 56 + w.d.toNat * 2 ^ 50 + w.a.toNat * 2 ^ 44 + w.b.toNat * 2 ^ 38 + w.fn.toNat * 2 ^ 32 + w.imm.toNat

/-! ## Registers of a core -/

/-- A scalar register; s0 reads 0 (R184). -/
def rdS (s : State) (c : CoreId) (n : Nat) : Word :=
  if n = 0 then 0 else BitVec.ofNat 32 (s.rd Reg.CS_SREG_VALUE (coreU c) n)

/-- Writes a scalar register; a write of s0 is discarded (R184). -/
def wrS (s : State) (c : CoreId) (n : Nat) (v : Word) : State :=
  if n = 0 then s else s.wr Reg.CS_SREG_VALUE (coreU c) v.toNat n

/-- An address register, 64 bits (R184, R197). -/
def rdA (s : State) (c : CoreId) (n : Nat) : Nat := s.rd64 Reg.CS_AREG_LO Reg.CS_AREG_HI (coreU c) n

/-- Writes an address register. -/
def wrA (s : State) (c : CoreId) (n v : Nat) : State := s.wr64 Reg.CS_AREG_LO Reg.CS_AREG_HI (coreU c) v n

/-- The fields of an address descriptor (R197). -/
def aBase (v : Nat) : Nat := bits v 0 25
def aLen (v : Nat) : Nat := bits v 25 25
def aInc (v : Nat) : Int := sgn 14 (bits v 50 14)

/-- A descriptor with a new BASE; BASE arithmetic wraps modulo 2^25 (R197). -/
def aWithBase (v : Nat) (b : Int) : Nat := setBits v 0 25 (unsgn 25 b)

/-- AINC: BASE advanced by 64 x INC (R197). -/
def aIncrement (v : Nat) : Nat := aWithBase v (aBase v + 64 * aInc v)

/-- A Marver register. -/
def rdV (s : State) (c : CoreId) (n : Nat) : VReg := smGet 0 (s.cx c).vregs n

/-- Writes a Marver register. -/
def wrV (s : State) (c : CoreId) (n : Nat) (v : VReg) : State :=
  let x := s.cx c
  s.setCx c { x with vregs := smSet 0 x.vregs n v }

/-- Sets the loop stack and its depth in CS_STAT (R220). -/
def setLoops (s : State) (c : CoreId) (l : List LoopEnt) : State :=
  (s.setCx c { s.cx c with loops := l }).wr Reg.CS_STAT_LDEPTH (coreU c) l.length

/-- Sets the scoreboard (R239). -/
def setSb (s : State) (c : CoreId) (l : List SbEnt) : State := s.setCx c { s.cx c with sb := l }

/-- Releases the scoreboard entries whose owner satisfies a test (R241). -/
def releaseSb (s : State) (c : CoreId) (p : SbOwner → Bool) : State :=
  setSb s c ((s.cx c).sb.filter fun e => !p e.owner)

/-! ## The queue behind an operand port -/

/-- The handle of a queue of a core with its present generation (R336). -/
def handleOf (s : State) (c : CoreId) (q : Nat) : Nat :=
  c.die.val * 2 ^ 30 + c.lc.val * 2 ^ 24 + q * 2 ^ 16 + s.rd Reg.CQ_Q_GEN (coreU c) q

/-- The core and index a handle names (R336). -/
def handleCore (h : Nat) : CoreId := ⟨Fin.ofNat 4 (bits h 30 2), Fin.ofNat 64 (bits h 24 6)⟩
def handleIdx (h : Nat) : Nat := bits h 16 8
def handleGen (h : Nat) : Nat := bits h 0 16

/-- Entries of a depth code (R338). -/
def depthOf (code : Nat) : Nat := 8 * 2 ^ (code % 4)

/-- Sends the credit waiting on a channel as one QCREDIT packet (R345). -/
def sendCredit (s : State) (c : CoreId) (q : Nat) : State :=
  let x := s.cx c
  let w := smGet ⟨0, 0⟩ x.cred q
  if w.entries = 0 ∧ w.lines = 0 then s
  else
    let s1 := s.setCx c { x with cred := smSet ⟨0, 0⟩ x.cred q ⟨0, 0⟩ }
    match nodeOfNum (s.rd Reg.CQ_Q_SENDER (coreU c) q) with
    | some n => s1.send (.core c) n (.qcredit (handleOf s c q) w.entries w.lines)
    | none => s1

/-- Adds returned credit to a channel; a packet leaves when 4 entry credits or any line credits are pending (R345). -/
def addCredit (s : State) (c : CoreId) (q e l : Nat) : State :=
  let x := s.cx c
  let w := smGet ⟨0, 0⟩ x.cred q
  let w' : CredWait := ⟨w.entries + e, w.lines + l⟩
  let s1 := s.setCx c { x with cred := smSet ⟨0, 0⟩ x.cred q w' }
  if w'.entries ≥ 4 ∨ w'.lines > 0 then sendCredit s1 c q else s1

/-- Marks the oldest record of a ring that is neither a pad nor popped as popped. -/
def markPopped : List RingRec → List RingRec
  | [] => []
  | r :: t => if r.pad || r.popped then r :: markPopped t else { r with popped := true } :: t

/-- The records popped and not yet released, as CQ_Q.POPPED shows them (R365). -/
def poppedOf (l : List RingRec) : Nat := min 255 (l.filter fun r => r.popped && !r.released && !r.pad).length

/-- Pops the head entry of a queue (R191, R345, R353): its credit returns, and a ring's record counts as popped. -/
def popHead (s : State) (c : CoreId) (q : Nat) : State :=
  let u := coreU c
  let x := s.cx c
  let l := smGet [] x.entries q
  let rs := markPopped (smGet [] x.rings q)
  let s1 := s.setCx c { x with entries := smSet [] x.entries q l.tail, rings := smSet [] x.rings q rs }
  let s2 := (s1.wr Reg.CQ_Q_COUNT u l.tail.length q).wr Reg.CQ_Q_WORD u 0 q
  let s3 := if s.rd Reg.CQ_Q_STATE u q = 2 then s2.wr Reg.CQ_Q_POPPED u (poppedOf rs) q else s2
  addCredit s3 c q 1 0

/-- Word `n` of a queue entry. -/
def QEnt.word (e : QEnt) (n : Nat) : Nat :=
  match n with
  | 0 => e.w0 | 1 => e.w1 | 2 => e.w2 | _ => e.w3

/-! ## Reading scalar sources -/

/-- What reading a source operand gives. -/
inductive SrcRes where
  | val (v : Word) (s : State)
  | illegal
  | waitQ (port : Nat)
deriving DecidableEq, Repr

/-- Reads operand port `p`: one word of the entry at the head of its queue, which pops with word 3; a port that is
not bound is ILLEGAL, an empty queue makes the read wait (R191). -/
def readPort (s : State) (c : CoreId) (p : Nat) : SrcRes :=
  let x := s.cx c
  match smGet 0 x.qbind p with
  | 0 => .illegal
  | q + 1 =>
    match smGet [] x.entries q with
    | [] => .waitQ p
    | e :: _ =>
      let k := s.rd Reg.CQ_Q_WORD (coreU c) q
      .val (BitVec.ofNat 32 (e.word k))
        (if k = 3 then popHead s c q else s.wr Reg.CQ_Q_WORD (coreU c) (k + 1) q)

/-- Reads a scalar source operand code. -/
def readSrc (s : State) (c : CoreId) (code : Nat) : SrcRes :=
  if code < 0x20 then .val (rdS s c code) s else readPort s c (code - 0x30)

/-! ## The effect of an instruction -/

/-- What one instruction does: it completes and the PC advances; it completes and control goes to a target; it traps
with nothing done; it waits, with the change this makes to the state at issue (no q port word is consumed by an
instruction that is to be issued again); or issue holds and nothing happens yet. -/
inductive Eff where
  | done (s : State)
  | jump (s : State) (target : Int)
  | trap (code info : Nat)
  | wait (f : State → State)
  | held

/-- Goes on with a scalar source, or traps or waits as reading it states. -/
def withSrc (c : CoreId) (code : BitVec 6) (s : State) (k : Word → State → Eff) : Eff :=
  match readSrc s c code.toNat with
  | .val v t => k v t
  | .illegal => .trap trIllegal 0
  | .waitQ p => .wait fun s0 => (s0.setCst c stWaitQ).wr Reg.CS_STAT_QPORT (coreU c) p

/-- Goes on with two scalar sources, A first (R191). -/
def withSrc2 (c : CoreId) (w : IFields) (s : State) (k : Word → Word → State → Eff) : Eff :=
  withSrc c w.a s fun x s1 => withSrc c w.b s1 fun y s2 => k x y s2

/-- Completes with a scalar result in sD. -/
def doneS (c : CoreId) (w : IFields) (v : Word) (s : State) : Eff := .done (wrS s c w.d.toNat v)

/-- The instruction after one at `pc` that completes, and the loop stack then (R196): at the end of the innermost
body with runs left, control returns to its first instruction; with none left, the loop ends. -/
def nextPc (pc : Nat) : List LoopEnt → Nat × List LoopEnt
  | [] => (pc + 1, [])
  | l :: r =>
    if pc = l.last then
      if l.left > 1 then (l.first, { l with left := l.left - 1 } :: r) else nextPc pc r
    else (pc + 1, l :: r)

/-- Moves past a completed instruction; running on from instruction 8,191 raises IFETCH, with the instruction
complete (R628). -/
def advance (s : State) (c : CoreId) : State :=
  let n := nextPc (s.pc c) (s.cx c).loops
  if n.1 ≥ 8192 then takeTrap (setLoops (s.setCx c { s.cx c with ranOff := true }) c n.2) c trIfetch 8192
  else (setLoops s c n.2).wr Reg.CS_PC_PC (coreU c) n.1

/-- The loops a jump to `t` leaves active (R196). -/
def loopsAfterJump (t : Nat) (l : List LoopEnt) : List LoopEnt :=
  l.dropWhile fun e => !(decide (e.first ≤ t) && decide (t ≤ e.last))

/-- No range holds the issue of a core any more (R267). -/
def unhold (s : State) (c : CoreId) : State := s.setCx c { s.cx c with sbHeld := none }

/-- Commits an instruction's effect; `s0` is the state at issue, which a trap restores (R216). One that is held at issue for
another reason than R220 names leaves the sequencer in RUN. -/
def commitEff (s0 : State) (c : CoreId) (e : Eff) : State :=
  match e with
  | .done s => advance ((unhold s c).setCst c stRun) c
  | .jump s t =>
    if t < 0 ∨ t ≥ 8192 then takeTrap s0 c trIfetch (unsgn 32 t)
    else (setLoops ((unhold s c).setCst c stRun) c (loopsAfterJump t.toNat (s.cx c).loops)).wr Reg.CS_PC_PC (coreU c) t.toNat
  | .trap code info => takeTrap s0 c code info
  | .wait f => f s0
  | .held => s0.setCst c stRun

/-- True when nothing the sequencer waits for is outstanding: no RLW reply (R199), no answer to a channel's creation
or destruction (R339, R341). -/
def notHeld (x : CoreX) : Bool := x.handleWait.isNone && !(x.reqs.any fun q => q.read)

/-- True when a core can issue: it runs, or waits for a queue word, a credit or a condition that may have come; not while
it waits at a barrier (R220), nor without its ACLK. -/
def canIssue (s : State) (c : CoreId) : Bool :=
  coreLive s c && aclkRuns s c && notHeld (s.cx c) && decide (s.cst c ≤ stWaitSync) && (s.cx c).barWait.isNone

/-- True when a core that can issue holds this instruction at its PC, on a die that runs (R186, R220). -/
def atInstr (s : State) (c : CoreId) (opc : Nat) (w : IFields) : Bool :=
  canIssue s c && imemWord s c (s.pc c) == encodeI opc w

/-- Issues one instruction: the operand checks of R188 first, then its effect. A core that does not stand at this
instruction is left as it is. -/
def issue (opc : Nat) (f : Form) (c : CoreId) (w : IFields) (s : State) (body : State → Eff) : State :=
  if atInstr s c opc w then
    if formOk f w then commitEff s c (body s) else takeTrap s c trIllegal 0
  else s

/-- The fields of an instruction word (R187). -/
def fieldsOf (w : Nat) : IFields :=
  ⟨BitVec.ofNat 6 (bits w 50 6), BitVec.ofNat 6 (bits w 44 6), BitVec.ofNat 6 (bits w 38 6),
   BitVec.ofNat 6 (bits w 32 6), BitVec.ofNat 32 (bits w 0 32)⟩

/-- The operand forms used by many instructions. -/
def formRRR : Form := { d := .s, a := .sq, b := .sq }
def formRRI : Form := { d := .s, a := .sq, imm := immAll }
def formBr : Form := { a := .sq, b := .sq, imm := immAll }

end Sys2Proof.Machine
end

