-- ==== Sys2Proof/Machine/Flags.lean ====
section
/-! DEFINITION. The flags of Marver arithmetic (R202, R223), of converts (R132, R142, R143) and of array passes (R102,
R108), and their reports to the seal unit. -/

namespace Sys2Proof.Machine

/-- The flags of Marver arithmetic (R223). -/
structure VFlags where
  ovf : Bool := false
  nan : Bool := false
  divz : Bool := false
  inx : Bool := false
deriving DecidableEq, Repr

/-- OR of two sets of Marver flags. -/
def VFlags.or (a b : VFlags) : VFlags := ⟨a.ovf || b.ovf, a.nan || b.nan, a.divz || b.divz, a.inx || b.inx⟩

/-- ORs flags into CV_VFLAGS; they never reach the seal unit (R202). -/
def addVFlags (s : State) (c : CoreId) (f : VFlags) : State :=
  let u := coreU c
  (((s.orF Reg.CV_VFLAGS_OVF u (b2n f.ovf)).orF Reg.CV_VFLAGS_NAN u (b2n f.nan)).orF
    Reg.CV_VFLAGS_DIVZ u (b2n f.divz)).orF Reg.CV_VFLAGS_INX u (b2n f.inx)

/-- ORs a convert's flags into CV_CFLAGS, counts its clamped and saturated elements, and reports OVF, NAN and SAT to
the seal unit; CLIP and INX are never reported (R132, R142, R143). -/
def addCFlags (s : State) (c : CoreId) (f : CFlags) (clips sats : Nat) : State :=
  let u := coreU c
  let s1 := (((s.orF Reg.CV_CFLAGS_OVF u (b2n f.ovf)).orF Reg.CV_CFLAGS_NAN u (b2n f.nan)).orF
    Reg.CV_CFLAGS_SAT u (b2n f.sat)).orF Reg.CV_CFLAGS_CLIP u (b2n f.clip)
  let s2 := (s1.orF Reg.CV_CFLAGS_INX u (b2n f.inx)).bump Reg.CV_CLIPCNT_COUNT u clips
  reportCause (s2.bump Reg.CV_SATCNT_COUNT u sats) c (f.ovf || f.nan || f.sat) false

/-- ORs a completed pass's flags into CA_FLAGS and reports them to the seal unit: OVF, NAN and SAT are range causes,
UE a memory cause (R102, R166). -/
def addPassFlags (s : State) (c : CoreId) (p : Pass) : State :=
  let u := coreU c
  let s1 := (((s.orF Reg.CA_FLAGS_OVF u (b2n p.ovf)).orF Reg.CA_FLAGS_NAN u (b2n p.nan)).orF
    Reg.CA_FLAGS_SAT u (b2n p.sat)).orF Reg.CA_FLAGS_UE u (b2n p.ue)
  reportCause s1 c (p.ovf || p.nan || p.sat) p.ue

/-- The flags of rounding an exact Marver result from operands: OVF when it became infinite from finite ones, NAN on
an invalid operation or a NaN operand, INX when it was rounded (R223). -/
def roundFlags (opNan opsFin : Bool) (exact : Val) (code : CFlags) : VFlags :=
  match exact with
  | .nan => { nan := true }
  | .inf _ => { nan := opNan }
  | .fin _ _ _ => { ovf := opsFin && code.ovf, nan := opNan, inx := code.inx || code.ovf }

end Sys2Proof.Machine
end

