-- ==== Sys2Proof/Machine/Marver.lean ====
section
/-! DEFINITION. Marver arithmetic, reductions and permutes (R202-R205): lanes as numbers, exact results rounded
once. -/

namespace Sys2Proof.Machine

/-- The lanes of a register, `w` bits each, lane 0 lowest (R119). -/
def lanes (w : Nat) (v : VReg) : List Nat := (List.range (2048 / w)).map fun i => bits v.toNat (w * i) w

/-- The number whose `w`-bit digits are a list, lowest first. -/
def ofLanes (w : Nat) : List Nat → Nat
  | [] => 0
  | x :: r => x % 2 ^ w + 2 ^ w * ofLanes w r

/-- A register of lanes. -/
def packV (w : Nat) (l : List Nat) : VReg := BitVec.ofNat 2048 (ofLanes w l)

/-- The element type T of IMM[3:0]. -/
def vType (w : IFields) : Nat := w.imm.toNat % 16

/-- The third source vC of IMM[8:4] (R203). -/
def vSrcC (w : IFields) : Nat := bits w.imm.toNat 4 5

/-- Lane width of a type: FP32 and INT32 32 bits, BF16 16, FP8 8. -/
def tBits (t : Nat) : Nat := if t = 15 then 32 else fmtBits t

/-- True of the five element types Marver names. -/
def tKnown (t : Nat) : Bool := [0, 2, 3, 4, 15].contains t

/-- True of the 8-bit types, which accept only a few operations (R203). -/
def t8 (t : Nat) : Bool := t == 3 || t == 4

/-- One lane's result and flags. -/
abbrev LaneRes := Nat × VFlags

/-- An exact result rounded once to T, to nearest even; beyond range it becomes an infinity, an invalid one the
canonical NaN (R202). -/
def laneRound (t : Nat) (opNan opsFin : Bool) (v : Val) : LaneRes :=
  let r := convElem t 2 v
  (r.1, roundFlags opNan opsFin v r.2)

/-- A lane operation on two floats. -/
def fl2 (t : Nat) (f : Val → Val → Val) (x y : Nat) : LaneRes :=
  let a := decodeElem t x
  let b := decodeElem t y
  laneRound t (a == .nan || b == .nan) (a.isFin && b.isFin) (f a b)

/-- The lanes of two registers under a lane operation. -/
def map2 (f : Nat → Nat → LaneRes) : List Nat → List Nat → List LaneRes
  | x :: xs, y :: ys => f x y :: map2 f xs ys
  | _, _ => []

/-- The lanes of three registers under a lane operation. -/
def map3 (f : Nat → Nat → Nat → LaneRes) : List Nat → List Nat → List Nat → List LaneRes
  | x :: xs, y :: ys, z :: zs => f x y z :: map3 f xs ys zs
  | _, _, _ => []

/-- Completes a lane operation: vD takes the lanes, CV_VFLAGS the OR of their flags. -/
def doneV (c : CoreId) (w : IFields) (width : Nat) (l : List LaneRes) (s : State) : Eff :=
  .done (addVFlags (wrV s c w.d.toNat (packV width (l.map Prod.fst))) c (l.foldl (fun f r => f.or r.2) {}))

/-- The two-operand forms and their lanes. -/
def vec2 (c : CoreId) (w : IFields) (s : State) (ok : Nat → Bool) (f : Nat → Nat → Nat → LaneRes) : Eff :=
  let t := vType w
  if tKnown t && ok t then
    doneV c w (tBits t) (map2 (f t) (lanes (tBits t) (rdV s c w.a.toNat)) (lanes (tBits t) (rdV s c w.b.toNat))) s
  else .trap trIllegal 0

/-- The one-operand forms and their lanes. -/
def vec1 (c : CoreId) (w : IFields) (s : State) (f : Nat → Nat → LaneRes) : Eff :=
  let t := vType w
  if tKnown t then doneV c w (tBits t) ((lanes (tBits t) (rdV s c w.a.toNat)).map (f t)) s
  else .trap trIllegal 0

/-- The three-operand forms and their lanes. -/
def vec3 (c : CoreId) (w : IFields) (s : State) (ok : Nat → Bool) (f : Nat → Nat → Nat → Nat → LaneRes) : Eff :=
  let t := vType w
  let l := fun n => lanes (tBits t) (rdV s c n)
  if tKnown t && ok t then doneV c w (tBits t) (map3 (f t) (l w.a.toNat) (l w.b.toNat) (l (vSrcC w))) s
  else .trap trIllegal 0

/-- FP32, BF16 and INT32. -/
def okArith (t : Nat) : Bool := !t8 t
/-- FP32 and BF16. -/
def okFma (t : Nat) : Bool := t == 0 || t == 2
/-- INT32. -/
def okInt (t : Nat) : Bool := t == 15
/-- Every type. -/
def okAll (_ : Nat) : Bool := true

def laneAdd (t x y : Nat) : LaneRes := if t = 15 then ((x + y) % 2 ^ 32, {}) else fl2 t Val.add x y
def laneSub (t x y : Nat) : LaneRes := if t = 15 then ((x + 2 ^ 32 - y) % 2 ^ 32, {}) else fl2 t Val.sub x y
def laneMul (t x y : Nat) : LaneRes := if t = 15 then (x * y % 2 ^ 32, {}) else fl2 t Val.mul x y

/-- a x b + c with one rounding. -/
def laneFma (t x y z : Nat) : LaneRes :=
  let a := decodeElem t x
  let b := decodeElem t y
  let d := decodeElem t z
  laneRound t (a == .nan || b == .nan || d == .nan) (a.isFin && b.isFin && d.isFin) ((a.mul b).add d)

def laneMin (t x y : Nat) : LaneRes :=
  if t = 15 then (if sgn 32 x < sgn 32 y then x else y, {}) else fl2 t Val.min x y
def laneMax (t x y : Nat) : LaneRes :=
  if t = 15 then (if sgn 32 x < sgn 32 y then y else x, {}) else fl2 t Val.max x y
def laneAbs (t x : Nat) : LaneRes :=
  if t = 15 then ((sgn 32 x).natAbs % 2 ^ 32, {}) else
    let a := decodeElem t x
    laneRound t (a == .nan) false a.abs
def laneNeg (t x : Nat) : LaneRes :=
  if t = 15 then ((2 ^ 32 - x) % 2 ^ 32, {}) else
    let a := decodeElem t x
    laneRound t (a == .nan) false a.neg

/-- The predicates of VCMP: 0 EQ, 1 NE, 2 LT, 3 LE, 4 GT, 5 GE, 6 UNORD; a NaN makes only NE and UNORD true. -/
def vPred (p : Nat) (nan : Bool) (k : Int) : Bool :=
  match p with
  | 0 => !nan && k == 0
  | 1 => nan || k != 0
  | 2 => !nan && k < 0
  | 3 => !nan && k ≤ 0
  | 4 => !nan && k > 0
  | 5 => !nan && k ≥ 0
  | _ => nan

/-- All ones where the predicate holds, else 0. -/
def laneCmp (p t x y : Nat) : LaneRes :=
  if t = 15 then
    (if vPred p false (sgn 32 x - sgn 32 y) then 2 ^ 32 - 1 else 0, {})
  else
    let a := decodeElem t x
    let b := decodeElem t y
    let n := a == .nan || b == .nan
    (if vPred p n (a.cmp b) then 2 ^ tBits t - 1 else 0, { nan := n })

/-- A lane as it is; a NaN leaves as the canonical one (R113), and sets NAN (R223). -/
def laneMove (t x : Nat) : LaneRes :=
  if t = 15 then (x, {}) else
    let a := decodeElem t x
    if a == .nan then laneRound t true false a else (x, {})

/-- a where c is not 0 (-0 is 0), else b; a NaN operand sets NAN. -/
def laneSel (t x y z : Nat) : LaneRes :=
  let zero := if t = 15 then z == 0 else (decodeElem t z).isZero
  ((laneMove t (if zero then y else x)).1, { nan := t != 15 && [x, y, z].any fun k => decodeElem t k == .nan })

def form2 : Form := { d := .v, a := .v, b := .v, imm := 0xF }
def form1 : Form := { d := .v, a := .v, imm := 0xF }
def form3 : Form := { d := .v, a := .v, b := .v, imm := 0x1FF }

/-- R203: VADD. -/
def execVadd (c : CoreId) (w : IFields) (s : State) : Host.Outcome State Fault Refusal :=
  .next (issue 0x60 form2 c w s fun s => vec2 c w s okArith laneAdd)
/-- R203: VSUB. -/
def execVsub (c : CoreId) (w : IFields) (s : State) : Host.Outcome State Fault Refusal :=
  .next (issue 0x61 form2 c w s fun s => vec2 c w s okArith laneSub)
/-- R203: VMUL. -/
def execVmul (c : CoreId) (w : IFields) (s : State) : Host.Outcome State Fault Refusal :=
  .next (issue 0x62 form2 c w s fun s => vec2 c w s okArith laneMul)
/-- R203: VFMA. -/
def execVfma (c : CoreId) (w : IFields) (s : State) : Host.Outcome State Fault Refusal :=
  .next (issue 0x63 form3 c w s fun s => vec3 c w s okFma laneFma)
/-- R203: VMIN. -/
def execVmin (c : CoreId) (w : IFields) (s : State) : Host.Outcome State Fault Refusal :=
  .next (issue 0x64 form2 c w s fun s => vec2 c w s okAll laneMin)
/-- R203: VMAX. -/
def execVmax (c : CoreId) (w : IFields) (s : State) : Host.Outcome State Fault Refusal :=
  .next (issue 0x65 form2 c w s fun s => vec2 c w s okAll laneMax)
/-- R203: VABS. -/
def execVabs (c : CoreId) (w : IFields) (s : State) : Host.Outcome State Fault Refusal :=
  .next (issue 0x66 form1 c w s fun s => vec1 c w s laneAbs)
/-- R203: VNEG. -/
def execVneg (c : CoreId) (w : IFields) (s : State) : Host.Outcome State Fault Refusal :=
  .next (issue 0x67 form1 c w s fun s => vec1 c w s laneNeg)
/-- R203: VCMP; predicate 7 is not one of the list and is ILLEGAL. -/
def execVcmp (c : CoreId) (w : IFields) (s : State) : Host.Outcome State Fault Refusal :=
  .next (issue 0x68 { form2 with fn := 7 } c w s fun s =>
    if w.fn.toNat = 7 then .trap trIllegal 0 else vec2 c w s okAll (laneCmp w.fn.toNat))
/-- R203: VSEL. -/
def execVsel (c : CoreId) (w : IFields) (s : State) : Host.Outcome State Fault Refusal :=
  .next (issue 0x69 form3 c w s fun s => vec3 c w s okAll laneSel)
/-- R203: VMOV. -/
def execVmov (c : CoreId) (w : IFields) (s : State) : Host.Outcome State Fault Refusal :=
  .next (issue 0x6A form1 c w s fun s => vec1 c w s laneMove)
/-- VBCAST puts the low T bits of s[A] into every lane; 8-bit types are not among the operations it lists. -/
def bodyVbcast (c : CoreId) (w : IFields) (s : State) : Eff :=
  let t := vType w
  if tKnown t && !t8 t then withSrc c w.a s fun x s1 =>
    doneV c w (tBits t) (List.replicate (2048 / tBits t) (laneMove t (x.toNat % 2 ^ tBits t))) s1
  else .trap trIllegal 0

/-- R203: VBCAST. -/
def execVbcast (c : CoreId) (w : IFields) (s : State) : Host.Outcome State Fault Refusal :=
  .next (issue 0x6B { d := .v, a := .sq, imm := 0xF } c w s (bodyVbcast c w))

/-- R203: VAND. -/
def execVand (c : CoreId) (w : IFields) (s : State) : Host.Outcome State Fault Refusal :=
  .next (issue 0x6C form2 c w s fun s => vec2 c w s okInt fun _ x y => (x &&& y, {}))
/-- R203: VOR. -/
def execVor (c : CoreId) (w : IFields) (s : State) : Host.Outcome State Fault Refusal :=
  .next (issue 0x6D form2 c w s fun s => vec2 c w s okInt fun _ x y => (x ||| y, {}))
/-- R203: VXOR. -/
def execVxor (c : CoreId) (w : IFields) (s : State) : Host.Outcome State Fault Refusal :=
  .next (issue 0x6E form2 c w s fun s => vec2 c w s okInt fun _ x y => (x ^^^ y, {}))

/-- One lane of VSHL: left, or arithmetic right. -/
def laneShift (right : Bool) (k x : Nat) : LaneRes :=
  (if right then unsgn 32 (sgn 32 x / 2 ^ k) else x * 2 ^ k % 2 ^ 32, {})

/-- R203: VSHL by IMM[12:8]; FN[0] 0 left, 1 arithmetic right. -/
def execVshl (c : CoreId) (w : IFields) (s : State) : Host.Outcome State Fault Refusal :=
  .next (issue 0x6F { d := .v, a := .v, fn := 1, imm := 0x1F0F } c w s fun s =>
    if vType w = 15 then vec1 c w s fun _ x => laneShift (bit w.fn.toNat 0) (bits w.imm.toNat 8 5) x
    else .trap trIllegal 0)

/-! ## Reductions and permutes -/

/-- One level of a pairwise tree over lanes. -/
def pairLevel {α : Type} (f : α → α → α) : List α → List α
  | x :: y :: r => f x y :: pairLevel f r
  | l => l

/-- A pairwise tree (fuel: the number of levels); the default serves an empty list. -/
def pairTree {α : Type} (f : α → α → α) (d : α) : Nat → List α → α
  | 0, l => l.headD d
  | n + 1, l => match l with
    | [] => d
    | [x] => x
    | l => pairTree f d n (pairLevel f l)

/-- One rounded FP32 addition, with its flags. -/
def add32 (x y : LaneRes) : LaneRes :=
  let r := fl2 0 Val.add x.1 y.1
  (r.1, (x.2.or y.2).or r.2)

/-- A lane converted exactly to FP32. -/
def to32 (t x : Nat) : LaneRes := ((convElem 0 2 (decodeElem t x)).1, { nan := decodeElem t x == .nan })

/-- The sum of one segment: a pairwise tree of FP32 additions, or in sequence from lane 0; INT32 wraps (R205). -/
def segSum (seq : Bool) (t : Nat) (l : List Nat) : LaneRes :=
  if t = 15 then (l.foldl (· + ·) 0 % 2 ^ 32, {})
  else
    let f := l.map (to32 t)
    if seq then (match f with | [] => (0, {}) | x :: r => r.foldl add32 x) else pairTree add32 (0, {}) 12 f

/-- Maximum, minimum or maximum of absolute values of one segment: exact, a NaN gives the canonical NaN (R205). -/
def segExt (t : Nat) (f : Val → Val → Val) (absolute : Bool) (l : List Nat) : LaneRes :=
  let dec := fun x => let v := decodeElem (if t = 15 then 8 else t) x
    if t = 15 then Val.fin (decide (sgn 32 x < 0)) (sgn 32 x).natAbs 0 else v
  let vs := l.map fun x => if absolute then (dec x).abs else dec x
  match vs with
  | [] => (0, {})
  | v :: r =>
    let m := r.foldl f v
    if t = 15 then (match m with | .fin n k _ => unsgn 32 (if n then -(k : Int) else k) | _ => 0, {})
    else (rne32 m, { nan := m == .nan })

/-- A segmented reduction (R204): segments of 2^FN[3:0] lanes; a segment larger than the register or more than 64
segments is ILLEGAL. -/
def reduce (c : CoreId) (w : IFields) (s : State) (f : Nat → List Nat → LaneRes) : Eff :=
  let t := vType w
  let seg := 2 ^ (w.fn.toNat % 16)
  if !tKnown t then .trap trIllegal 0
  else
    let l := lanes (tBits t) (rdV s c w.a.toNat)
    if seg > l.length ∨ l.length / seg > 64 then .trap trIllegal 0
    else doneV c w 32 ((chunks seg l.length l).map (f t)) s

def formRed : Form := { d := .v, a := .v, fn := 0xF, imm := 0xF }

/-- R204, R205: VRSUM; FN[4] adds in sequence. -/
def execVrsum (c : CoreId) (w : IFields) (s : State) : Host.Outcome State Fault Refusal :=
  .next (issue 0x70 { formRed with fn := 0x1F } c w s fun s => reduce c w s (segSum (bit w.fn.toNat 4)))
/-- R204: VRMAX. -/
def execVrmax (c : CoreId) (w : IFields) (s : State) : Host.Outcome State Fault Refusal :=
  .next (issue 0x71 formRed c w s fun s => reduce c w s fun t => segExt t Val.max false)
/-- R204: VRMIN. -/
def execVrmin (c : CoreId) (w : IFields) (s : State) : Host.Outcome State Fault Refusal :=
  .next (issue 0x72 formRed c w s fun s => reduce c w s fun t => segExt t Val.min false)
/-- R204: VRAMAX. -/
def execVramax (c : CoreId) (w : IFields) (s : State) : Host.Outcome State Fault Refusal :=
  .next (issue 0x73 formRed c w s fun s => reduce c w s fun t => segExt t Val.max true)

/-- R204: VPERM, lane i := lane (b[i] mod lanes) of vA; a NaN leaves as the canonical one (R113). -/
def execVperm (c : CoreId) (w : IFields) (s : State) : Host.Outcome State Fault Refusal :=
  .next (issue 0x74 form2 c w s fun s =>
    let t := vType w
    if tKnown t then
      let l := lanes (tBits t) (rdV s c w.a.toNat)
      doneV c w (tBits t) ((lanes (tBits t) (rdV s c w.b.toNat)).map fun k => laneMove t (l.getD (k % l.length) 0)) s
    else .trap trIllegal 0)

/-- The lanes of a register moved by a signed number of lanes, 0 outside the register. -/
def slide (l : List Nat) (k : Int) : List Nat :=
  (List.range l.length).map fun (i : Nat) =>
    let j : Int := (i : Int) + k
    if j < 0 then 0 else l.getD j.toNat 0

/-- Lane width of VSLIDE: that of the type IMM[3:0] names, as for every Marver operation; where those bits, which are the low bits of
the distance too, name no type, the spec gives none and a free value chooses among 8, 16 and 32. -/
def slideBits (s : State) (w : IFields) : Nat :=
  if tKnown (vType w) then tBits (vType w) else 8 * 2 ^ (Config.freeValue s.free % 3)

/-- R204: VSLIDE by IMM[9:0], signed; of a type that IMM[3:0] names, a NaN leaves as the canonical one (R113). -/
def execVslide (c : CoreId) (w : IFields) (s : State) : Host.Outcome State Fault Refusal :=
  .next (issue 0x75 { d := .v, a := .v, imm := 0x3FF } c w s fun s =>
    let n := slideBits s w
    let l := slide (lanes n (rdV s c w.a.toNat)) (sgn 10 (w.imm.toNat % 1024))
    if tKnown (vType w) then doneV c w n (l.map (laneMove (vType w))) s
    else .done { wrV s c w.d.toNat (packV n l) with free := s.free + 1 })

/-- R204: VEXT, sD := 32-bit word IMM[5:0] of vA. -/
def execVext (c : CoreId) (w : IFields) (s : State) : Host.Outcome State Fault Refusal :=
  .next (issue 0x76 { d := .s, a := .v, imm := 0x3F } c w s fun s =>
    doneS c w (BitVec.ofNat 32 (bits (rdV s c w.a.toNat).toNat (32 * w.imm.toNat) 32)) s)

/-- R204: VINS, 32-bit word IMM[5:0] of vD := s[A]. -/
def execVins (c : CoreId) (w : IFields) (s : State) : Host.Outcome State Fault Refusal :=
  .next (issue 0x77 { d := .v, a := .sq, imm := 0x3F } c w s fun s =>
    withSrc c w.a s fun x s1 =>
      .done (wrV s1 c w.d.toNat
        (BitVec.ofNat 2048 (setBits (rdV s1 c w.d.toNat).toNat (32 * w.imm.toNat) 32 x.toNat))))

end Sys2Proof.Machine
end

