-- ==== Sys2Proof/Machine/Convert.lean ====
section
/-! DEFINITION. The convert instructions (R126-R141, R207). -/

namespace Sys2Proof.Machine

/-- The operand fields of a convert in IMM (R207). -/
def cvFS (w : IFields) : Nat := bits w.imm.toNat 0 4
def cvFD (w : IFields) : Nat := bits w.imm.toNat 4 4
def cvOM (w : IFields) : Nat := bits w.imm.toNat 8 2
def cvPart (w : IFields) : Nat := bits w.imm.toNat 10 4
def cvTM (w : IFields) : Nat := bits w.imm.toNat 14 5
def cvBS (w : IFields) : Nat := bits w.imm.toNat 19 3
def cvSide (w : IFields) : Nat := bits w.imm.toNat 22 1
def cvForm (w : IFields) : Nat := bits w.imm.toNat 23 1
def cvRule (w : IFields) : Nat := bits w.imm.toNat 24 1

/-- The block size of a code 1-6 (R105). -/
def blkSize (code : Nat) : Nat := 4 * 2 ^ code

/-- The tensor multiplier: 1.0 for TM = 0; none when it is zero, negative, infinite or NaN (R134, R207). -/
def tmulOf (s : State) (c : CoreId) (w : IFields) : Option Val :=
  if cvTM w = 0 then some (.fin false 1 0)
  else match v32 (rdS s c (cvTM w)).toNat with
    | .fin false m e => if m = 0 then none else some (.fin false m e)
    | _ => none

/-- The element codes of a register in a format (R118, R119). -/
def vecCodes (fmt : Nat) (v : VReg) : List Nat :=
  (List.range (fmtCount fmt)).map fun i => bits v.toNat (fmtBits fmt * i) (fmtBits fmt)

/-- The exact values of a source register, or of a pair's two registers (R116, R119). -/
def vecVals (s : State) (c : CoreId) (fmt n : Nat) : List Val :=
  if fmt = 10 then
    ((vecCodes 2 (rdV s c n)).zip (vecCodes 2 (rdV s c (n + 1)))).map fun p => decodePair p.1 p.2
  else (vecCodes fmt (rdV s c n)).map (decodeElem fmt)

/-- One converted element: its code (and the lo code of a pair) and flags. -/
abbrev ElemRes := (Nat × Nat) × CFlags

/-- Converts an exact value to a destination element (R117, R127-R130). -/
def convTo (fd om : Nat) (v : Val) : ElemRes :=
  if fd = 10 then convPair om v else let r := convElem fd om v; ((r.1, 0), r.2)

/-- The value of a source element times the tensor multiplier; a bad multiplier makes it a NaN (R126, R134). -/
def timesTmul (t : Option Val) (v : Val) : Val :=
  match t with
  | some k => v.mul k
  | none => .nan

/-- A register with consecutive elements of a format replaced; FP6 leaves bits [2047:1536] at 0 (R119, R135). -/
def putCodes (fmt start : Nat) (codes : List Nat) (v : VReg) : VReg :=
  let w := fmtBits fmt
  let n := setBits v.toNat (w * start) (w * codes.length) (ofLanes w codes)
  BitVec.ofNat 2048 (if w = 6 then n % 2 ^ 1536 else n)

/-- Writes converted elements from destination element `start` on; a pair's lo parts go to vD + 1. -/
def putElems (s : State) (c : CoreId) (fd d start : Nat) (l : List ElemRes) : State :=
  let f := if fd = 10 then 2 else fd
  let s1 := wrV s c d (putCodes f start (l.map fun r => r.1.1) (rdV s c d))
  if fd = 10 then wrV s1 c (d + 1) (putCodes 2 start (l.map fun r => r.1.2) (rdV s1 c (d + 1))) else s1

/-- The flags of a list of elements, and how many were clamped and saturated (R142, R143). -/
def sumFlags (l : List ElemRes) : CFlags × Nat × Nat :=
  (l.foldl (fun f r => f.or r.2) {}, (l.filter fun r => r.2.clip).length, (l.filter fun r => r.2.sat).length)

/-- PART under R135 for `ns` source and `nd` destination elements: the first source element, how many convert, and
where they land; none outside its range. -/
def partOf (ns nd part : Nat) : Option (Nat × Nat × Nat) :=
  if ns ≤ nd then (if part < nd / ns then some (0, ns, ns * part) else none)
  else (if part < ns / nd then some (nd * part, nd, 0) else none)

/-- True when the formats, OM and the registers of pairs are ones a convert takes (R119, R207). A pair named by an odd register is
ILLEGAL (DESIGN CHOICE, notes/assumptions/88). -/
def cvOk (w : IFields) : Bool :=
  decide (cvFS w ≤ 10 ∧ cvFD w ≤ 10 ∧ cvOM w ≠ 3) && !(cvFS w == 10 && w.a.toNat % 2 == 1)
    && !(cvFD w == 10 && w.d.toNat % 2 == 1)

/-- True of the formats that may carry block scales, codes 3 to 9 (R120). -/
def scalable (f : Nat) : Bool := decide (3 ≤ f ∧ f ≤ 9)

/-- CVT (R136). -/
def bodyCvt (c : CoreId) (w : IFields) (s : State) : Eff :=
  match partOf (fmtCount (cvFS w)) (fmtCount (cvFD w)) (cvPart w) with
  | none => .trap trIllegal 0
  | some (k, n, at_) =>
    if !cvOk w then .trap trIllegal 0
    else
      let t := tmulOf s c w
      let l := (((vecVals s c (cvFS w) w.a.toNat).drop k).take n).map fun v =>
        convTo (cvFD w) (cvOM w) (timesTmul t v)
      let f := sumFlags l
      .done (addCFlags (putElems s c (cvFD w) w.d.toNat at_ l) c f.1 f.2.1 f.2.2)

/-- R136: CVT; BS, SIDE, SFORM, RULE and B are not used. -/
def execCvt (c : CoreId) (w : IFields) (s : State) : Host.Outcome State Fault Refusal :=
  .next (issue 0x90 { d := .v, a := .v, imm := 0x7FFFF } c w s (bodyCvt c w))

/-- CVTX (R137): the scale byte of each element of the scaled side, by blocks or by lanes. -/
def bodyCvtx (c : CoreId) (w : IFields) (s : State) : Eff :=
  let fs := cvFS w
  let fd := cvFD w
  let side := cvSide w
  match partOf (fmtCount fs) (fmtCount fd) (cvPart w) with
  | none => .trap trIllegal 0
  | some (k, n, at_) =>
    let blkOk := if cvForm w = 0 then decide (1 ≤ cvBS w ∧ cvBS w ≤ 6) else cvBS w == 0
    if !cvOk w || !blkOk || !scalable (if side = 0 then fd else fs) then .trap trIllegal 0
    else
      let t := tmulOf s c w
      let vt := rdV s c w.b.toNat
      let scale := fun i => bits vt.toNat (8 * (if cvForm w = 0 then i / blkSize (cvBS w) else i % 256)) 8
      let vs := ((vecVals s c fs w.a.toNat).drop k).take n
      let l := vs.zipIdx.map fun p =>
        let code := scale (if side = 0 then at_ + p.2 else k + p.2)
        let v := timesTmul t p.1
        match scaleExp code with
        | none => convTo fd (cvOM w) .nan
        | some x => convTo fd (cvOM w) (v.scale (if side = 0 then -x else x))
      let f := sumFlags l
      .done (addCFlags (putElems s c fd w.d.toNat at_ l) c f.1 f.2.1 f.2.2)

/-- R137: CVTX. -/
def execCvtx (c : CoreId) (w : IFields) (s : State) : Host.Outcome State Fault Refusal :=
  .next (issue 0x91 { d := .v, a := .v, b := .v, imm := 0xFFFFFF } c w s (bodyCvtx c w))

/-- The largest magnitude of a block, as a pair of significand and exponent. -/
def blockMax : List Val → Nat × Int
  | [] => (0, 0)
  | v :: r =>
    match v.abs.max (let q := blockMax r; .fin false q.1 q.2) with
    | .fin _ m e => (m, e)
    | _ => (0, 0)

/-- One block under the scale rule (R139, R140): its code, its elements, and a flag for the block itself. A written
scale of 0xFF sets NAN (R142). A bad tensor multiplier makes every value of the block a NaN (R134), and R139 then gives +0 elements
under code 0xFF, where R130 alone would give canonical NaNs (DESIGN CHOICE, notes/assumptions/88). -/
def scaleBlock (fd om rule : Nat) (vs : List Val) : Nat × List ElemRes × CFlags :=
  if vs.any (· == .nan) then (0xFF, vs.map fun _ => ((0, 0), {}), { nan := true })
  else if vs.any (fun v => !v.isFin) then (0xFF, vs.map fun _ => ((0, 0), {}), { ovf := true, nan := true })
  else
    let m := blockMax vs
    let x := scaleRule fd rule m.1 m.2
    (unsgn 8 (x.1 + 127), vs.map (fun v =>
      let u := v.scale (-x.1)
      let r := rndElem fd u
      match codeOf fd r with
      | some code => ((code, 0), { inx := decide (r.cmp u ≠ 0) })
      | none =>
        if rule = 0 && !x.2 then ((satCode fd u.isNeg, 0), { clip := true })
        else let q := overflowElem fd om u.isNeg false; ((q.1, 0), q.2)), {})

/-- Replaces bytes of a register from byte `start` on. -/
def putBytes (start : Nat) (l : List Nat) (v : VReg) : VReg :=
  BitVec.ofNat 2048 (setBits v.toNat (8 * start) (8 * l.length) (ofLanes 8 l))

/-- CVTS (R138): one scale per block of b consecutive elements of a group of source registers. A register of a pair source is a pair
(R119), so b = 256 takes two pairs, four registers, from an even one on; a group past v31 is ILLEGAL; and where vt is vd the scale
bytes are written over the elements (DESIGN CHOICE, notes/assumptions/88). -/
def bodyCvts (c : CoreId) (w : IFields) (s : State) : Eff :=
  let fs := cvFS w
  let fd := cvFD w
  let b := blkSize (cvBS w)
  let g := Max.max 1 (b / fmtCount fs)
  let step := if fs = 10 then 2 else 1
  let ns := Max.max b (fmtCount fs)
  if !cvOk w || !scalable fd || !decide (1 ≤ cvBS w ∧ cvBS w ≤ 6) || w.a.toNat % g != 0
      || decide (w.a.toNat + g * step > 32) then .trap trIllegal 0
  else match partOf ns (fmtCount fd) (cvPart w) with
    | none => .trap trIllegal 0
    | some (k, n, at_) =>
      let t := tmulOf s c w
      let src := (List.range g).flatMap fun i => vecVals s c fs (w.a.toNat + step * i)
      let vs := ((src.drop k).take n).map (timesTmul t)
      let blocks := (chunks b n vs).map (scaleBlock fd (cvOM w) (cvRule w))
      let l := blocks.flatMap fun q => q.2.1
      let f := sumFlags l
      let fl := blocks.foldl (fun f q => f.or q.2.2) f.1
      let s1 := putElems s c fd w.d.toNat at_ l
      let s2 := wrV s1 c w.b.toNat (putBytes (at_ / b) (blocks.map Prod.fst) (rdV s1 c w.b.toNat))
      .done (addCFlags s2 c fl f.2.1 f.2.2)

/-- R138: CVTS; SIDE and SFORM are not used. -/
def execCvts (c : CoreId) (w : IFields) (s : State) : Host.Outcome State Fault Refusal :=
  .next (issue 0x92 { d := .v, a := .v, b := .v, imm := 0x13FFFFF } c w s (bodyCvts c w))

/-- The scale code of one block maximum, and the flags of writing it (R139, R141, R142). -/
def scaleCode (w : IFields) (m : Val) : Nat × CFlags :=
  match m with
  | .nan => (0xFF, { nan := true })
  | .inf _ => (0xFF, { ovf := true, nan := true })
  | .fin _ m e => (unsgn 8 ((scaleRule (cvFD w) (cvRule w) m e).1 + 127), {})

/-- SCLX (R141): the scale of each binary32 block maximum, into bytes 64 x PART on of vt. -/
def bodySclx (c : CoreId) (w : IFields) (s : State) : Eff :=
  let fd := cvFD w
  if !scalable fd || decide (cvPart w > 3) then .trap trIllegal 0
  else
    let t := tmulOf s c w
    let q := (vecVals s c 0 w.a.toNat).map fun v => scaleCode w (timesTmul t v.abs)
    let s1 := wrV s c w.b.toNat (putBytes (64 * cvPart w) (q.map Prod.fst) (rdV s c w.b.toNat))
    .done (addCFlags s1 c (q.foldl (fun f r => f.or r.2) {}) 0 0)

/-- R141: SCLX; it writes vt only, from binary32 lanes, so D, FS, OM, BS, SIDE and SFORM are not used. -/
def execSclx (c : CoreId) (w : IFields) (s : State) : Host.Outcome State Fault Refusal :=
  .next (issue 0x93 { a := .v, b := .v, imm := 0x107FCF0 } c w s (bodySclx c w))

end Sys2Proof.Machine
end

