-- ==== Sys2Proof/Machine/LocalMem.lean ====
section
/-! DEFINITION. The range scoreboard (R239-R241), the core's own scratchpad (R198) and vector memory. -/

namespace Sys2Proof.Machine

/-- True when two line ranges overlap. -/
def linesOverlap (a b : SbEnt) : Bool := decide (a.first ≤ b.last) && decide (b.first ≤ a.last)

/-- True of an O write range of a pass (R93). -/
def SbOwner.isO : SbOwner → Bool
  | .passO _ => true
  | _ => false

/-- True when a new range is held against an outstanding one: RAW, WAR or WAW; two O ranges never are (R240, R93). -/
def sbConflict (new old : SbEnt) : Bool :=
  linesOverlap new old && (new.write || old.write) && !(new.owner.isO && old.owner.isO)

/-- True when a range of an instruction is held against an outstanding entry (R240). -/
def sbHolds (sb new : List SbEnt) : Bool := new.any fun n => sb.any fun o => sbConflict n o

/-- True when the scoreboard lacks entries for an instruction's ranges (R239). -/
def sbFull (sb new : List SbEnt) : Bool := decide (sb.length + new.length > 32)

/-- True when the scoreboard admits an instruction's ranges (R239, R240). -/
def sbAdmits (sb new : List SbEnt) : Bool := !sbHolds sb new && !sbFull sb new

/-- Goes on when the scoreboard admits the ranges; otherwise issue holds, and each ACLK of the hold is counted (R239, R240, R267). -/
def withRanges (c : CoreId) (s : State) (new : List SbEnt) (k : State → Eff) : Eff :=
  if sbAdmits (s.cx c).sb new then k s
  else .wait fun s0 => (s0.setCx c { s0.cx c with sbHeld := some (s0.pc c, new) }).setCst c stRun

/-- The lines a byte range touches, as a range of an instruction that completes at once. -/
def bytesRange (a n : Nat) (write : Bool) : SbEnt := ⟨a / 64, (a + n - 1) / 64, write, .streamIdx 0⟩

/-- The check of a local access (R198, R254): outside the range raises ADDR_FAULT, also when misaligned; otherwise a
misaligned one raises MISALIGN. -/
def withLocal (c : CoreId) (s : State) (a n align : Nat) (write : Bool) (k : State → Eff) : Eff :=
  if a + n > spLimit s c then .trap trAddrFault (a % 2 ^ 32)
  else if a % align ≠ 0 then .trap trMisalign a
  else withRanges c s [bytesRange a n write] k

/-- LW: sD := word at s[A] + IMM. -/
def bodyLw (c : CoreId) (w : IFields) (s : State) : Eff :=
  withSrc c w.a s fun x t =>
    let a := (x + w.imm).toNat
    withLocal c t a 4 4 false fun t =>
      let r := spRead t c a 4 rqScalar
      doneS c w (BitVec.ofNat 32 (ofLeBytes r.1)) r.2

/-- R198: LW. -/
def execLw (c : CoreId) (w : IFields) (s : State) : Host.Outcome State Fault Refusal :=
  .next (issue 0x20 formRRI c w s (bodyLw c w))

/-- SW: word at s[A] + IMM := s[B]. -/
def bodySw (c : CoreId) (w : IFields) (s : State) : Eff :=
  withSrc2 c w s fun x y t =>
    let a := (x + w.imm).toNat
    withLocal c t a 4 4 true fun t => .done (spWrite t c a (leBytes 4 y.toNat) rqScalar)

/-- R198: SW. -/
def execSw (c : CoreId) (w : IFields) (s : State) : Host.Outcome State Fault Refusal :=
  .next (issue 0x21 { a := .sq, b := .sq, imm := immAll } c w s (bodySw c w))

/-- LA: aD := 8 bytes at s[A] + IMM. -/
def bodyLa (c : CoreId) (w : IFields) (s : State) : Eff :=
  withSrc c w.a s fun x t =>
    let a := (x + w.imm).toNat
    withLocal c t a 8 8 false fun t =>
      let r := spRead t c a 8 rqScalar
      .done (wrA r.2 c (w.d.toNat - 0x20) (ofLeBytes r.1))

/-- R198: LA. -/
def execLa (c : CoreId) (w : IFields) (s : State) : Host.Outcome State Fault Refusal :=
  .next (issue 0x22 { d := .a, a := .sq, imm := immAll } c w s (bodyLa c w))

/-- SA: 8 bytes at s[A] + IMM := a[B]. -/
def bodySa (c : CoreId) (w : IFields) (s : State) : Eff :=
  withSrc c w.a s fun x t =>
    let a := (x + w.imm).toNat
    withLocal c t a 8 8 true fun t => .done (spWrite t c a (leBytes 8 (rdA t c (w.b.toNat - 0x20))) rqScalar)

/-- R198: SA. -/
def execSa (c : CoreId) (w : IFields) (s : State) : Host.Outcome State Fault Refusal :=
  .next (issue 0x23 { a := .sq, b := .a, imm := immAll } c w s (bodySa c w))

/-- The slots an owner holds in bank 0 over the 16 NCLK of the bank slot table (R227, R228). -/
def bankShare (s : State) (c : CoreId) (owner : Nat) : Nat :=
  ((List.range 16).filter fun t => bits (s.rd Reg.CP_BSLOT_LO (coreU c) t) 0 4 == owner).length

/-- The owners of bank slots (R227). -/
def ownTile : Nat := 1
def ownWgt : Nat := 2
def ownVec : Nat := 3
def ownNin : Nat := 4
def ownNout : Nat := 5

/-- The byte address of a VLD or VST: a[A].BASE + 64 x IMM[15:0]. -/
def vecAddr (c : CoreId) (w : IFields) (s : State) : Nat :=
  aBase (rdA s c (w.a.toNat - 0x20)) + 64 * (w.imm.toNat % 2 ^ 16)

/-- FN[0] = 1 applies AINC to a[A] after issue. -/
def vecPost (c : CoreId) (w : IFields) (s : State) : State :=
  if bit w.fn.toNat 0 then wrA s c (w.a.toNat - 0x20) (aIncrement (rdA s c (w.a.toNat - 0x20))) else s

/-- VLD: vD := 256 bytes. Without a VEC share in the bank slot table it makes no progress (R629). -/
def bodyVld (c : CoreId) (w : IFields) (s : State) : Eff :=
  let a := vecAddr c w s
  if a + 256 ≤ spLimit s c ∧ a % 64 = 0 ∧ bankShare s c ownVec = 0 then .held
  else withLocal c s a 256 64 false fun t =>
    let r := spRead t c a 256 rqVec
    .done (vecPost c w (wrV r.2 c w.d.toNat (BitVec.ofNat 2048 (ofLeBytes r.1))))

/-- R198: VLD. -/
def execVld (c : CoreId) (w : IFields) (s : State) : Host.Outcome State Fault Refusal :=
  .next (issue 0xA0 { d := .v, a := .a, fn := 1, imm := 0xFFFF } c w s (bodyVld c w))

/-- VST: 256 bytes := v[B]. -/
def bodyVst (c : CoreId) (w : IFields) (s : State) : Eff :=
  let a := vecAddr c w s
  if a + 256 ≤ spLimit s c ∧ a % 64 = 0 ∧ bankShare s c ownVec = 0 then .held
  else withLocal c s a 256 64 true fun t =>
    .done (vecPost c w (spWrite t c a (leBytes 256 (rdV t c w.b.toNat).toNat) rqVec))

/-- R198: VST. -/
def execVst (c : CoreId) (w : IFields) (s : State) : Host.Outcome State Fault Refusal :=
  .next (issue 0xA1 { a := .a, b := .v, fn := 1, imm := 0xFFFF } c w s (bodyVst c w))

end Sys2Proof.Machine
end

