-- ==== Sys2Proof/Machine/Remote.lean ====
section
/-! DEFINITION. Remote loads and stores of a core (R199), the remote cache (R254-R258), reachability on the control
network (R309) and the fault rule of the module's address space (R45-R47). -/

namespace Sys2Proof.Machine

/-- The parts of an MGA (R45). -/
def mgaClass (m : Nat) : Nat := bits m 48 4
def mgaDie (m : Nat) : Nat := bits m 46 2
def mgaLc (m : Nat) : Nat := bits m 40 6
def mgaOff25 (m : Nat) : Nat := bits m 0 25
def mgaOff24 (m : Nat) : Nat := bits m 0 24
def mgaStack (m : Nat) : Nat := bits m 44 4
def mgaOff36 (m : Nat) : Nat := bits m 0 36

/-- The core a class 0 or 1 address names. -/
def mgaCore (m : Nat) : CoreId := ⟨Fin.ofNat 4 (mgaDie m), Fin.ofNat 64 (mgaLc m)⟩

/-- True when the must-be-zero bits of an address are zero and its class is not reserved (R45). -/
def mgaFormed (m : Nat) : Bool :=
  match mgaClass m with
  | 0 => bits m 25 15 == 0
  | 1 => bits m 25 15 == 0
  | 2 => bits m 24 22 == 0
  | 3 => bits m 36 8 == 0
  | 4 => bits m 24 24 == 0
  | 5 => true
  | _ => false

/-- The node that serves an address (R310, R312): a core, a die node, a stack or the hub's CSR unit. -/
def mgaNode (m : Nat) : Option NodeId :=
  match mgaClass m with
  | 0 => some (.core (mgaCore m))
  | 1 => some (.core (mgaCore m))
  | 2 => some (.dieNode (Fin.ofNat 4 (mgaDie m)))
  | 3 => some (.stack (Fin.ofNat 16 (mgaStack m)))
  | 4 => some (.hub 4)
  | _ => none

/-- True when CN_FAILn marks the router of a position (R309, R331). -/
def routerFailed (s : State) (d r k : Nat) : Bool :=
  let n := 10 * r + k
  bit (s.rd Reg.CN_FAIL_FAIL d (n / 32)) (n % 32)

/-- The links of a use (0 data, 1 control, 2 and 6 skip, 3 sync, 4 clock, 5 island control) that a path between two positions of a die
takes across a seam: on the vertical seam that of its row, on the horizontal seam that of the column of its northern end (R25, R26). -/
def seamLinks (use : Nat) (a b : Nat × Nat) : List Nat :=
  (if decide (a.2 < 5) != decide (b.2 < 5) then [18 * use + a.1] else [])
    ++ if decide (a.1 < 4) != decide (b.1 < 4) then [18 * use + 8 + (if a.1 < 4 then a.2 else b.2)] else []

/-- The key of a seam bundle: 128 bundles for each link of a die (R26). -/
def bundleKey (d : DieId) (b : Nat) : Nat := 16384 * d.val + b

/-- True when a bundle of one of a die's links across a seam has failed (R28). -/
def seamFailed (s : State) (d : DieId) (l : List Nat) : Bool := l.any fun k => s.faults.links.any fun n => n / 128 == 128 * d.val + k

/-- True when control packets cannot cross between two positions of a die in a straight line: a seam's link there has failed (R28). -/
def controlCut (s : State) (d : DieId) (a b : Nat × Nat) : Bool := seamFailed s d (seamLinks 1 a b)

/-- The positions from `a` to `b` along one dimension, both included. -/
def span (a b : Nat) : List Nat :=
  if a ≤ b then (List.range (b - a + 1)).map (a + ·) else (List.range (a - b + 1)).map (b + ·)

/-- True when the path between two positions of a die, along the column first or along the row first, crosses no marked router
(R309) and no failed link (R28, R546). -/
def pathClear (s : State) (d : DieId) (a b : Nat × Nat) (col : Bool) : Bool :=
  let turn := if col then (b.1, a.2) else (a.1, b.2)
  let line := fun p q : Nat × Nat => ((span p.1 q.1).all fun r => (span p.2 q.2).all fun k => !routerFailed s d.val r k)
    && !controlCut s d p q
  line a turn && line turn b

/-- The die a node lies on, or faces. -/
def nodeDie : NodeId → Option DieId
  | .core t => some t.die
  | .dieNode d => some d
  | .hub _ => none
  | .stack k => some (Fin.ofNat 4 (k.val / 4))

/-- True when a packet to a node is answered UNREACH by the hub: its die is lost, and another die sends it (R549). -/
def dieLost (s : State) (c : CoreId) (n : NodeId) : Bool :=
  match nodeDie n with
  | some d => d != c.die && s.rd Reg.FT_DIE_STATE 0 d.val != 0
  | none => false

/-- The position of a logical core. -/
def posOfCore (s : State) (c : CoreId) : Nat × Nat := (c.lc.val / 8, pcolOf s c.die.val (c.lc.val / 8) (c.lc.val % 8))

/-- The position at which a node's packets enter or leave the mesh of a die: its own, or P[7,9] (R307). -/
def meshPos (s : State) (d : DieId) (n : NodeId) : Nat × Nat :=
  match n with
  | .core c => if c.die = d then posOfCore s c else (7, 9)
  | _ => (7, 9)

/-- The dies whose mesh a packet crosses: the source's, and the destination's when it is a core of another die. -/
def pathDies (src dst : NodeId) : List DieId :=
  let of := fun n => match n with
    | NodeId.core c => [c.die]
    | _ => []
  (of src ++ of dst).eraseDups

/-- The order a source gives a packet (R309): along the row first, unless that path crosses a marked router or a failed link and the
other does not; none where both do. -/
def routeOrder (s : State) (src dst : NodeId) : Option Bool :=
  let ok := fun col => (pathDies src dst).all fun d =>
    pathClear s d (meshPos s d src) (meshPos s d dst) col
  if ok false then some false else if ok true then some true else none

/-- True when a core's packet to a node can be injected (R309), and no lost die is its target (R549). -/
def reachable (s : State) (c : CoreId) (n : NodeId) : Bool := !dieLost s c n && (routeOrder s (.core c) n).isSome

/-! ## The remote cache -/

/-- Sets of the cache: its bytes / 1 KiB (R255). -/
def rcSets (s : State) (c : CoreId) : Nat := rcBytes s c / 1024

/-- True when an MGA lies in an enabled cacheable range and the core has a cache (R255, R266). -/
def cacheable (s : State) (c : CoreId) (m : Nat) : Bool :=
  let u := coreU c
  rcBytes s c != 0 && (List.range 4).any fun n =>
    s.rb Reg.CP_RCRNG_EN u n && decide (s.rd64 Reg.CP_RCRNG_BASE_LO Reg.CP_RCRNG_BASE_HI u n ≤ m)
      && decide (m ≤ s.rd64 Reg.CP_RCRNG_LIMIT_LO Reg.CP_RCRNG_LIMIT_HI u n)

/-- The tag store's key of a way: set index MGA bits [7 + log2(sets):8], 4 ways (R255). -/
def rcKey (s : State) (c : CoreId) (m way : Nat) : Nat := (m / 256 % rcSets s c) * 4 + way

/-- The way that holds the line of an MGA, if any. -/
def rcFind (s : State) (c : CoreId) (m : Nat) : Option Nat :=
  (List.range 4).find? fun w => smGet none (s.cx c).rcTags (rcKey s c m w) == some (m / 256)

/-- The scratchpad address of a cache way's 256 bytes, in the partition at the top (R254). -/
def rcOff (s : State) (c : CoreId) (m way : Nat) : Nat := spLimit s c + 256 * rcKey s c m way

/-- Invalidates the line of an MGA in a core's own cache (R256). -/
def rcDrop (s : State) (c : CoreId) (m : Nat) : State :=
  match rcFind s c m with
  | some w =>
    let x := s.cx c
    s.setCx c { x with rcTags := smSet none x.rcTags (rcKey s c m w) none }
  | none => s

/-- Invalidates every line (R257); cacheable RLW are held until RCINV_COMPLETE. -/
def rcInvalidate (s : State) (c : CoreId) : State :=
  if rcBytes s c = 0 then s
  else
    let x := s.cx c
    (s.setCx c { x with
      rcTags := []
      reqs := x.reqs.map fun q => if q.fill then { q with fill := false } else q }).wb Reg.CP_STAT_RCINV (coreU c) true

/-- Installs a 256-byte line, replacing round-robin within its set (R255, R256). -/
def rcInstall (s : State) (c : CoreId) (m : Nat) (data : List Byte) : State :=
  let x := s.cx c
  let set := m / 256 % rcSets s c
  let way := smGet 0 x.rcVictim set
  let s1 := s.setCx c { x with
    rcTags := smSet none x.rcTags (rcKey s c m way) (some (m / 256))
    rcVictim := smSet 0 x.rcVictim set ((way + 1) % 4) }
  spWrite s1 c (rcOff s c m way) data rqRcf

/-! ## RLW and RSW -/

/-- Reads the MGA operand {s[A+1][19:0], s[A]} (R199). -/
def mgaOperand (c : CoreId) (w : IFields) (s : State) : Nat :=
  (rdS s c w.a.toNat).toNat + ((rdS s c (w.a.toNat + 1)).toNat % 2 ^ 20) * 2 ^ 32

/-- A new request of a core on the normal channel, with the next tag (R311). -/
def newReq (s : State) (c : CoreId) (m dest : Nat) (read fill : Bool) : State × Nat :=
  let x := s.cx c
  let t := x.tag
  (s.setCx c { x with tag := (t + 1) % 4096, reqs := x.reqs ++ [⟨t, m, dest, read, fill⟩] }, t)

/-- A remote load that no node serves, or whose target cannot be reached: logged, and ADDR_FAULT (R47, R199, R309). What its lookup of
the remote cache has met stands. -/
def loadFault (c : CoreId) (m : Nat) (unreach : Bool) (s : State) : Eff :=
  .wait fun _ => takeTrap (if unreach then s.lg LogKind.unreach (coreU c) [m] else addrFault s (.core c) m) c trAddrFault
    (m % 2 ^ 32)

/-- A miss of the remote cache (R256): it is counted, the line's fill is requested and the sequencer holds. -/
def rcMiss (c : CoreId) (w : IFields) (m : Nat) (n : NodeId) (s0 : State) : Eff :=
  let s := s0.bump Reg.CP_RCMISS_COUNT (coreU c)
  if reachable s c n then
    let r := newReq s c m w.d.toNat true true
    .wait fun _ => r.1.send (.core c) n (.rdreq r.2 (m / 256 * 256) true)
  else loadFault c m true s

/-- RLW (R199, R256, R258): ILLEGAL for an odd register or class 5, MISALIGN below 4 B alignment; a hit of the remote cache
answers at once; otherwise a read request leaves and the sequencer holds for the reply. An error that the lookup meets names SCALAR as
its requester in CP_ECCLOG (DESIGN CHOICE, notes/assumptions/97). -/
def bodyRlw (c : CoreId) (w : IFields) (s : State) : Eff :=
  let m := mgaOperand c w s
  if w.a.toNat % 2 ≠ 0 ∨ mgaClass m = 5 then .trap trIllegal 0
  else if m % 4 ≠ 0 then .trap trMisalign (m % 2 ^ 32)
  else match mgaNode m with
    | none => loadFault c m false s
    | some n =>
      if cacheable s c m then
        if s.rb Reg.CP_STAT_RCINV (coreU c) then .held
        else match rcFind s c m with
          | some way =>
            let r := spRead s c (rcOff s c m way + m % 256) 4 rqScalar
            if (badWords s (spBase c + rcOff s c m way) 256).isEmpty then
              doneS c w (BitVec.ofNat 32 (ofLeBytes r.1)) (r.2.bump Reg.CP_RCHIT_COUNT (coreU c))
            else rcMiss c w m n (rcDrop (spTouch s c (rcOff s c m way) 256 rqScalar) c m)
          | none => rcMiss c w m n s
      else if reachable s c n then
        let r := newReq s c m w.d.toNat true false
        .wait fun _ => r.1.send (.core c) n (.rdreq r.2 m false)
      else loadFault c m true s

/-- R199: RLW. -/
def execRlw (c : CoreId) (w : IFields) (s : State) : Host.Outcome State Fault Refusal :=
  .next (issue 0x24 { d := .s, a := .s } c w s (bodyRlw c w))

/-- Sends a posted write (R199): an address no node serves, or one that cannot be reached, sets RFAULT and is
logged. -/
def postWrite (s : State) (c : CoreId) (m v : Nat) : State :=
  match mgaNode m with
  | some n =>
    if reachable s c n then
      let r := newReq s c m 0 false false
      r.1.send (.core c) n (.wrreq r.2 m (leBytes 4 v))
    else (s.wb Reg.CS_STAT_RFAULT (coreU c) true).lg LogKind.unreach (coreU c) [m]
  | none => addrFault (s.wb Reg.CS_STAT_RFAULT (coreU c) true) (.core c) m

/-- RSW (R199, R256): posted; a write into stack memory waits at the commit gate while its phase is not sealed
(R169, R180); the own cache drops the matching line. -/
def bodyRsw (c : CoreId) (w : IFields) (s : State) : Eff :=
  let m := mgaOperand c w s
  if w.a.toNat % 2 ≠ 0 ∨ mgaClass m = 5 then .trap trIllegal 0
  else if m % 4 ≠ 0 then .trap trMisalign (m % 2 ^ 32)
  else withSrc c w.b s fun y t =>
    let t1 := if cacheable t c m then rcDrop t c m else t
    if mgaClass m = 3 ∧ !coreGateOpen t1 c (phaseTag t1 c) then
      let x := t1.cx c
      .done (t1.setCx c { x with heldWrites := x.heldWrites ++ [⟨m, y.toNat, phaseTag t1 c⟩] })
    else .done (postWrite t1 c m y.toNat)

/-- R199: RSW. -/
def execRsw (c : CoreId) (w : IFields) (s : State) : Host.Outcome State Fault Refusal :=
  .next (issue 0x25 { a := .s, b := .sq } c w s (bodyRsw c w))

end Sys2Proof.Machine
end

