-- ==== Sys2Proof/Machine/Queues.lean ====
section
/-! DEFINITION. Queues, rings and channels of a core (R334-R367): the send table, placing records, landing messages,
freeing ring lines, and the queue instructions (R210, R211). -/

namespace Sys2Proof.Machine

/-- Status words of R211. -/
def qsOk : Nat := 0
def qsNoCredit : Nat := 1
def qsStale : Nat := 2
def qsTooLong : Nat := 3
def qsBadHandle : Nat := 4
def qsFrozen : Nat := 5
def qsTimeout : Nat := 6

/-- Sends a core's packet where its destination can be reached; otherwise the packet is not injected and the event is
logged (R309). -/
def inject (s : State) (c : CoreId) (n : NodeId) (p : Packet) : State :=
  if reachable s c n then s.send (.core c) n p else s.lg LogKind.unreach (coreU c) [nodeNum n]

/-! ## The send table -/

/-- The send-table entry of a handle (R335). -/
def findSend (s : State) (c : CoreId) (h : Nat) : Option Nat :=
  (List.range 256).find? fun e => s.rb Reg.CQ_S_VALID (coreU c) e && s.rd Reg.CQ_S_HANDLE (coreU c) e == h

/-- What a send on a handle meets: its entry, or BAD_HANDLE, or STALE where the core holds an entry for another
generation of the same queue (R211, R341, R352). -/
inductive SendLook where
  | entry (e : Nat)
  | bad (status : Nat)
deriving DecidableEq, Repr

/-- Looks a handle up for a kind of send: `ring` is true for ring records. -/
def lookSend (s : State) (c : CoreId) (h : Nat) (ring : Bool) : SendLook :=
  match findSend s c h with
  | some e => if s.rb Reg.CQ_S_KIND (coreU c) e == ring then .entry e else .bad qsBadHandle
  | none =>
    if (List.range 256).any fun e =>
        s.rb Reg.CQ_S_VALID (coreU c) e && s.rd Reg.CQ_S_HANDLE (coreU c) e / 2 ^ 16 == h / 2 ^ 16
    then .bad qsStale else .bad qsBadHandle

/-- True when a message to a handle waits at the commit gate: the core is in a gather, the handle's core lies outside
it, and the phase is not sealed (R169, R212). -/
def outsideGather (s : State) (c : CoreId) (h : Nat) : Bool :=
  match gatherOf s c with
  | some g => !((handleCore h).die == c.die && inGather s g (handleCore h).lc)
  | none => false

/-- True when the gate store has a place, or none is needed (R346, R625). -/
def gateRoom (s : State) (c : CoreId) (h : Nat) : Bool := !outsideGather s c h || decide ((s.cx c).gate.length < 256)

/-- Removes a send-table entry (R341). -/
def dropSend (s : State) (c : CoreId) (e : Nat) : State :=
  let u := coreU c
  ((s.wb Reg.CQ_S_VALID u false e).wr Reg.CQ_S_HANDLE u 0 e).wr Reg.CQ_STAT_NSEND u (s.rd Reg.CQ_STAT_NSEND u - 1)

/-- Installs a send-table entry with full credit (R339, R344); none where the table is full. -/
def installSend (s : State) (c : CoreId) (h : Nat) (ring : Bool) (depth lines : Nat) : Option State :=
  let u := coreU c
  ((List.range 256).find? fun e => !s.rb Reg.CQ_S_VALID u e).map fun e =>
    let s1 := ((s.wr Reg.CQ_S_HANDLE u h e).wb Reg.CQ_S_VALID u true e).wb Reg.CQ_S_KIND u ring e
    let s2 := ((s1.wr Reg.CQ_S_ECRED u depth e).wr Reg.CQ_S_RSIZE u (lines / 64) e).wr Reg.CQ_S_LCRED u lines e
    let s3 := (s2.wr Reg.CQ_S_WR u 0 e).wr Reg.CQ_STAT_NSEND u (s.rd Reg.CQ_STAT_NSEND u + 1)
    s3.setCx c { s3.cx c with rseq := smSet 0 (s3.cx c).rseq e 0 }

/-! ## Messages leaving -/

/-- Sends the entry of a hardware queue. -/
def sendEntry (s : State) (c : CoreId) (h : Nat) (q : QEnt) : State :=
  let w := fun n => BitVec.ofNat 32 (q.word n)
  (inject s c (.core (handleCore h))
    (.qmsg ⟨BitVec.ofNat 32 h, .entry (w 0) (w 1) (w 2) (w 3) (BitVec.ofNat 16 q.pseq)⟩)).bump
    Reg.CQ_SENT_COUNT (coreU c)

/-- Sends a pad header (R350, R351). -/
def sendPad (s : State) (c : CoreId) (h line lines pseq : Nat) : State :=
  (inject s c (.core (handleCore h)) (.qmsg ⟨BitVec.ofNat 32 h, .pad line lines (BitVec.ofNat 16 pseq)⟩)).bump
    Reg.CQ_PADS_COUNT (coreU c)

/-- The header line of a record (R348). -/
def recHeader (h len rseq pseq : Nat) (pad : Bool) : List Byte :=
  leBytes 4 (len + if pad then 2 ^ 17 else 0) ++ leBytes 4 rseq ++ leBytes 4 pseq ++ leBytes 4 h ++ List.replicate 48 0

/-- The bodies of a record's packets: up to 256 bytes each, in line order, the last with the header's fields (R354). -/
def recBodies (hdr : RecHdr) (line : Nat) : List (List Byte) → List QBody
  | [] => []
  | [d] => [.ring line d (some hdr)]
  | d :: r => .ring line d none :: recBodies hdr (line + 4) r

/-- Sends a ring record: header and payload (R348, R354). -/
def sendRecord (s : State) (c : CoreId) (h line len rseq pseq base : Nat) : State :=
  let r := spRead s c base len rqQm
  let pay := (len + 63) / 64 * 64
  let data := recHeader h len rseq pseq false ++ r.1 ++ List.replicate (pay - len) 0
  let hdr : RecHdr := ⟨line, 1 + (len + 63) / 64, len, rseq, pseq⟩
  let s1 := (recBodies hdr line (chunks 256 data.length data)).foldl (fun t b =>
    inject t c (.core (handleCore h)) (.qmsg ⟨BitVec.ofNat 32 h, b⟩)) r.2
  s1.bump Reg.CQ_SENT_COUNT (coreU c)

/-- Releases one held message (R212, R625): its pad, then the message itself; a record's read range is released. -/
def releaseGate (s : State) (c : CoreId) (m : GateEnt) : State :=
  if m.ring then
    let s1 := if m.padLines = 0 then s else sendPad s c m.handle m.padLine m.padLines m.phase
    releaseSb (sendRecord s1 c m.handle m.line m.len m.rseq m.phase m.base) c fun o => o == .ringSend m.handle m.sbId
  else sendEntry s c m.handle m.ent

/-- Cancels one held message on a recall (R359, R625): the entry or descriptor credit returns at once; a record is
replaced by a pad over its lines, after any pad held with it. -/
def cancelGate (s : State) (c : CoreId) (m : GateEnt) : State :=
  let u := coreU c
  let s1 := match findSend s c m.handle with
    | some e => s.wr Reg.CQ_S_ECRED u (s.rd Reg.CQ_S_ECRED u e + 1) e
    | none => s
  if m.ring then
    let s2 := if m.padLines = 0 then s1 else sendPad s1 c m.handle m.padLine m.padLines m.phase
    releaseSb (sendPad s2 c m.handle m.line m.lines m.phase) c fun o => o == .ringSend m.handle m.sbId
  else s1

/-- Releases every held message of a phase, oldest first. -/
def releaseGates (s : State) (c : CoreId) (ph : Nat) : State :=
  let x := s.cx c
  (x.gate.filter fun m => m.phase == ph).foldl (fun t m => releaseGate t c m)
    (s.setCx c { x with gate := x.gate.filter fun m => m.phase != ph })

/-- Cancels every held message of the phases a test names. -/
def cancelGates (s : State) (c : CoreId) (p : GateEnt → Bool) : State :=
  let x := s.cx c
  (x.gate.filter p).foldl (fun t m => cancelGate t c m) (s.setCx c { x with gate := x.gate.filter fun m => !p m })

/-- The outcome of an attempt to send: a status word and the state, or no credit yet. -/
inductive SendRes where
  | status (n : Nat) (s : State)
  | noCredit (s : State)
deriving DecidableEq, Repr

/-- QSEND's attempt (R346). -/
def trySend (s : State) (c : CoreId) (h b : Nat) : SendRes :=
  let u := coreU c
  match lookSend s c h false with
  | .bad n => .status n s
  | .entry e =>
    if s.rd Reg.CQ_S_ECRED u e = 0 ∨ !gateRoom s c h then .noCredit s
    else
      let ph := phaseTag s c
      let v := fun n => (rdS s c (b + n)).toNat
      let q : QEnt := ⟨v 0, v 1, v 2, v 3, ph⟩
      let s1 := s.wr Reg.CQ_S_ECRED u (s.rd Reg.CQ_S_ECRED u e - 1) e
      if outsideGather s c h && !coreGateOpen s c ph then
        let x := s1.cx c
        .status qsOk (s1.setCx c { x with gate := x.gate ++ [⟨h, ph, false, q, 0, 0, 0, 0, 0, 0, 0, 0⟩] })
      else .status qsOk (sendEntry s1 c h q)

/-- QSENDR's attempt (R348, R350-R352, R625): the pad first, then the record. -/
def trySendRing (s : State) (c : CoreId) (h base len : Nat) : SendRes :=
  let u := coreU c
  match lookSend s c h true with
  | .bad n => .status n s
  | .entry e =>
    let n := 64 * s.rd Reg.CQ_S_RSIZE u e
    let l := 1 + (len + 63) / 64
    if len > 65536 ∨ l > n then .status qsTooLong s
    else
      let ph := phaseTag s c
      let wr := s.rd Reg.CQ_S_WR u e
      let lcred := s.rd Reg.CQ_S_LCRED u e
      let tail := n - wr
      let gated := outsideGather s c h && !coreGateOpen s c ph
      if l > tail ∧ lcred < tail then .noCredit s
      else
        let pad := decide (l > tail)
        let lcred1 := if pad then lcred - tail else lcred
        let wr1 := if pad then 0 else wr
        let s1 := (s.wr Reg.CQ_S_LCRED u lcred1 e).wr Reg.CQ_S_WR u wr1 e
        if lcred1 < l ∨ s.rd Reg.CQ_S_ECRED u e = 0 ∨ !gateRoom s c h then
          .noCredit (if pad then sendPad s1 c h wr tail ph else s1)
        else
          let x := s1.cx c
          let rq := smGet 0 x.rseq e
          let s2 := ((s1.wr Reg.CQ_S_LCRED u (lcred1 - l) e).wr Reg.CQ_S_ECRED u (s.rd Reg.CQ_S_ECRED u e - 1) e).wr
            Reg.CQ_S_WR u ((wr1 + l) % n) e
          let s3 := s2.setCx c { x with rseq := smSet 0 x.rseq e ((rq + 1) % 2 ^ 32) }
          if gated then
            let x3 := s3.cx c
            let held : GateEnt := ⟨h, ph, true, ⟨0, 0, 0, 0, 0⟩, wr1, l, len, rq, base, wr, if pad then tail else 0, rq⟩
            let s4 := s3.setCx c { x3 with gate := x3.gate ++ [held] }
            .status qsOk (if len = 0 then s4
              else setSb s4 c ((s4.cx c).sb ++ [⟨base / 64, (base + len - 1) / 64, false, .ringSend h rq⟩]))
          else
            let s4 := if pad then sendPad s3 c h wr tail ph else s3
            .status qsOk (sendRecord s4 c h wr1 len rq ph base)

/-! ## The queue instructions -/

/-- The end of a send: a blocking one traps on a status other than OK and waits for credit in WAIT_SEND, a
non-blocking one puts the status in sD (R211, R355, R356). -/
def endSend (c : CoreId) (w : IFields) (h : Nat) (blocking : Bool) (try_ : State → SendRes) (s : State) : Eff :=
  match try_ s with
  | .status n t =>
    if blocking then (if n = qsOk then .done (t.setCx c { t.cx c with blockedTwice := false }) else .trap trQueueFault h) else doneS c w (BitVec.ofNat 32 n) t
  | .noCredit t =>
    if blocking then .wait fun s0 =>
      let s1 := match try_ s0 with
        | .noCredit t0 => t0
        | .status _ _ => s0
      s1.setCst c stWaitSend
    else doneS c w (BitVec.ofNat 32 qsNoCredit) t

/-- QSEND and QSENDN: the entry is s[B] to s[B+3], B at most 0x1C (R210). -/
def bodyQsend (blocking : Bool) (c : CoreId) (w : IFields) (s : State) : Eff :=
  if w.b.toNat > 0x1C then .trap trIllegal 0
  else withSrc c w.a s fun h t => endSend c w h.toNat blocking (fun u => trySend u c h.toNat w.b.toNat) t

/-- R210: QSEND; D names the register into which a SKIP of the blocked send writes TIMEOUT (R218; DEDUCED, notes/assumptions/89). -/
def execQsend (c : CoreId) (w : IFields) (s : State) : Host.Outcome State Fault Refusal :=
  .next (issue 0xC0 { d := .s, a := .sq, b := .s } c w s (bodyQsend true c w))

/-- R210: QSENDN. -/
def execQsendn (c : CoreId) (w : IFields) (s : State) : Host.Outcome State Fault Refusal :=
  .next (issue 0xC1 { d := .s, a := .sq, b := .s } c w s (bodyQsend false c w))

/-- QSENDR and QSENDRN: LEN bytes at a[B].BASE, under a read range (R192, R210). -/
def bodyQsendr (blocking : Bool) (c : CoreId) (w : IFields) (s : State) : Eff :=
  withSrc c w.a s fun h t =>
    let d := rdA t c (w.b.toNat - 0x20)
    let go := fun t => endSend c w h.toNat blocking (fun u => trySendRing u c h.toNat (aBase d) (aLen d)) t
    if aLen d > 65536 ∨ aLen d = 0 then go t
    else if aBase d + aLen d > spLimit t c then .trap trAddrFault (aBase d)
    else withRanges c t [bytesRange (aBase d) (aLen d) false] go

/-- R210: QSENDR, with D as in QSEND. -/
def execQsendr (c : CoreId) (w : IFields) (s : State) : Host.Outcome State Fault Refusal :=
  .next (issue 0xC2 { d := .s, a := .sq, b := .a } c w s (bodyQsendr true c w))

/-- R210: QSENDRN. -/
def execQsendrn (c : CoreId) (w : IFields) (s : State) : Host.Outcome State Fault Refusal :=
  .next (issue 0xC3 { d := .s, a := .sq, b := .a } c w s (bodyQsendr false c w))

/-- QBIND: port FN[2:0] to local queue s[A][7:0], or unbound with IMM[0] (R210, R343). -/
def bodyQbind (unbind : Bool) (c : CoreId) (w : IFields) (s : State) : Eff :=
  withSrc c w.a s fun v t =>
    let q := v.toNat % 256
    let p := w.fn.toNat % 8
    let st := t.rd Reg.CQ_Q_STATE (coreU c) q
    if unbind then .done (t.setCx c { t.cx c with qbind := smSet 0 (t.cx c).qbind p 0 })
    else if st = 0 ∨ st = 3 then .trap trQueueFault (handleOf t c q / 2 ^ 16 * 2 ^ 16)
    else .done (t.setCx c { t.cx c with qbind := smSet 0 (t.cx c).qbind p (q + 1) })

/-- R210: QBIND with IMM[0] = 0. -/
def execQbind (c : CoreId) (w : IFields) (s : State) : Host.Outcome State Fault Refusal :=
  .next (issue 0xC4 { a := .sq, fn := 7, imm := 1 } c w s (bodyQbind (bit w.imm.toNat 0) c w))

/-- R210: QUNBIND, the spelling of QBIND with IMM[0] = 1. -/
def execQunbind (c : CoreId) (w : IFields) (s : State) : Host.Outcome State Fault Refusal :=
  .next (if bit w.imm.toNat 0 then issue 0xC4 { a := .sq, fn := 7, imm := 1 } c w s (bodyQbind true c w) else s)

/-- QPOP: discards the head entry (R210). -/
def bodyQpop (c : CoreId) (w : IFields) (s : State) : Eff :=
  match smGet 0 (s.cx c).qbind (w.fn.toNat % 8) with
  | 0 => .trap trIllegal 0
  | q + 1 => .done (if (smGet [] (s.cx c).entries q).isEmpty then s else popHead s c q)

/-- R210: QPOP. -/
def execQpop (c : CoreId) (w : IFields) (s : State) : Host.Outcome State Fault Refusal :=
  .next (issue 0xC5 { fn := 7 } c w s (bodyQpop c w))

/-- QCOUNT: entries present (R210); an open value where the port is bound to no queue. -/
def bodyQcount (c : CoreId) (w : IFields) (s : State) : Eff :=
  match smGet 0 (s.cx c).qbind (w.fn.toNat % 8) with
  | 0 => doneS c w (BitVec.ofNat 32 (Config.freeValue s.free)) { s with free := s.free + 1 }
  | q + 1 => doneS c w (BitVec.ofNat 32 (smGet [] (s.cx c).entries q).length) s

/-- R210: QCOUNT. -/
def execQcount (c : CoreId) (w : IFields) (s : State) : Host.Outcome State Fault Refusal :=
  .next (issue 0xC6 { d := .s, fn := 7 } c w s (bodyQcount c w))

/-! ## Creation and destruction -/

/-- The generation after one: 0 is skipped (R337). -/
def nextGen (g : Nat) : Nat := if g ≥ 65535 then 1 else g + 1

/-- True when two ring regions of a core overlap (R347). -/
def ringOverlap (s : State) (c : CoreId) (rbase rsize : Nat) : Bool :=
  let u := coreU c
  (List.range 256).any fun q =>
    s.rd Reg.CQ_Q_STATE u q == 2 && decide (s.rd Reg.CQ_Q_RBASE u q < rbase + rsize)
      && decide (rbase < s.rd Reg.CQ_Q_RBASE u q + s.rd Reg.CQ_Q_RSIZE u q)

/-- The checks of QCREATE in R339's order: the failure reason of R364, or the index to take. -/
def createCheck (s : State) (c : CoreId) (a b : Nat) : Except Nat Nat :=
  let u := coreU c
  let ring := bit a 9
  let rbase := bits b 0 13
  let rsize := bits b 13 13
  let sender := bits a 12 10
  let senderOk := match nodeOfNum sender with
    | some (.core k) => corePresent s k
    | some (.hub n) => decide (n.val ≤ 3) || n.val == 5
    | _ => false
  let idx := if bit a 8 then (List.range 256).find? fun q => s.rd Reg.CQ_Q_STATE u q == 0 else some (bits a 0 8)
  if a / 2 ^ 22 ≠ 0 ∨ b / 2 ^ 26 ≠ 0 ∨ !senderOk ∨ (!ring ∧ b ≠ 0) ∨ (ring ∧ (rsize = 0 ∨ rsize > 4096)) then .error 4
  else match idx with
    | none => .error 2
    | some q =>
      if s.rd Reg.CQ_Q_STATE u q ≠ 0 then .error 1
      else if s.rd Reg.CQ_STAT_FREEENT u < depthOf (bits a 10 2) then .error 3
      else if ring && (decide ((rbase + rsize) * 4096 > spLimit s c) || ringOverlap s c rbase rsize) then .error 7
      else .ok q

/-- Records a failure of QCREATE (R364). -/
def createFail (s : State) (c : CoreId) (reason : Nat) : State :=
  (s.wr Reg.CQ_CERR_REASON (coreU c) reason).wb Reg.CQ_CERR_VALID (coreU c) true

/-- Frees a queue index and its resources; its generation stays (R337, R339, R341). -/
def freeQueue (s : State) (c : CoreId) (q : Nat) : State :=
  let u := coreU c
  let x := s.cx c
  let s1 := s.setCx c { x with
    entries := smSet [] x.entries q [], rings := smSet [] x.rings q [], dropSet := smSet [] x.dropSet q []
    cred := smSet ⟨0, 0⟩ x.cred q ⟨0, 0⟩, qbind := x.qbind.filter fun p => p.2 != q + 1 }
  let s2 := ((s1.wr Reg.CQ_Q_STATE u 0 q).wr Reg.CQ_Q_COUNT u 0 q).wr Reg.CQ_Q_WORD u 0 q
  let s3 := ((s2.wr Reg.CQ_Q_FREEPTR u 0 q).wr Reg.CQ_Q_POPPED u 0 q).wr Reg.CQ_Q_SENDER u 0 q
  let s4 := ((s3.wr Reg.CQ_Q_RBASE u 0 q).wr Reg.CQ_Q_RSIZE u 0 q).wr Reg.CQ_Q_DEPTH u 0 q
  (s4.wr Reg.CQ_STAT_FREEENT u (s.rd Reg.CQ_STAT_FREEENT u + depthOf (s.rd Reg.CQ_Q_DEPTH u q))).wr
    Reg.CQ_STAT_NQUEUE u (s.rd Reg.CQ_STAT_NQUEUE u - 1)

/-- Reserves a queue index for a new channel (R339): its generation advances and the handle is formed. -/
def reserveQueue (s : State) (c : CoreId) (a b q : Nat) : State :=
  let u := coreU c
  let s1 := ((s.wr Reg.CQ_Q_STATE u (if bit a 9 then 2 else 1) q).wr Reg.CQ_Q_DEPTH u (bits a 10 2) q).wr
    Reg.CQ_Q_SENDER u (bits a 12 10) q
  let s2 := ((s1.wr Reg.CQ_Q_GEN u (nextGen (s.rd Reg.CQ_Q_GEN u q)) q).wr Reg.CQ_Q_RBASE u (bits b 0 13) q).wr
    Reg.CQ_Q_RSIZE u (bits b 13 13) q
  let s3 := ((s2.wr Reg.CQ_Q_FREEPTR u 0 q).wr Reg.CQ_Q_COUNT u 0 q).wr Reg.CQ_Q_WORD u 0 q
  (s3.wr Reg.CQ_STAT_FREEENT u (s.rd Reg.CQ_STAT_FREEENT u - depthOf (bits a 10 2))).wr
    Reg.CQ_STAT_NQUEUE u (s.rd Reg.CQ_STAT_NQUEUE u + 1)

/-- Reads the scalar operands A and B of the instruction at a core's PC, so that q-port words are consumed (R191): what an
instruction that waited does when it completes, since one that is stopped instead consumes none (R216). -/
def takeOperands (s : State) (c : CoreId) : State :=
  let w := fieldsOf (imemWord s c (s.pc c))
  let rd := fun (t : State) (code : BitVec 6) => match readSrc t c code.toNat with
    | .val _ u => u
    | _ => t
  rd (rd s w.a) w.b

/-- A core holds at a handle instruction until its acknowledgement (R339, R341). -/
def holdHandle (s : State) (c : CoreId) (h : HandleWait) : State := (s.setCx c { s.cx c with handleWait := some h }).setCst c stRun

/-- A wait at a handle instruction is abandoned (R216, R219): the queue a QCREATE had reserved is free again, and its sender is told to
remove its entry; a destruction goes on. -/
def dropHandle (s : State) (c : CoreId) : State :=
  let s1 := s.setCx c { s.cx c with handleWait := none, stopDue := false }
  match (s.cx c).handleWait with
  | some (.create h q _ _) =>
    let s2 := freeQueue s1 c q
    match nodeOfNum (s.rd Reg.CQ_Q_SENDER (coreU c) q) with
    | some n => s2.send (.core c) n (.handleDestroy h)
    | none => s2
  | _ => s1

/-- QCREATE (R338, R339). -/
def bodyQcreate (c : CoreId) (w : IFields) (s : State) : Eff :=
  withSrc2 c w s fun x y t =>
    match createCheck t c x.toNat y.toNat with
    | .error r => doneS c w 0 (createFail t c r)
    | .ok q =>
      match nodeOfNum (bits x.toNat 12 10) with
      | none => doneS c w 0 (createFail t c 4)
      | some n =>
        if reachable t c n then
          .wait fun s0 =>
            let t1 := reserveQueue s0 c x.toNat y.toNat q
            let h := handleOf t1 c q
            let depth := depthOf (bits x.toNat 10 2)
            holdHandle (t1.send (.core c) n (.handleCreate h (bit x.toNat 9) depth (64 * bits y.toNat 13 13))) c
              (.create h q depth w.d.toNat)
        else doneS c w 0 (createFail (freeQueue (reserveQueue t c x.toNat y.toNat q) c q) c 6)

/-- R339: QCREATE. -/
def execQcreate (c : CoreId) (w : IFields) (s : State) : Host.Outcome State Fault Refusal :=
  .next (issue 0xC7 { d := .s, a := .sq, b := .sq } c w s (bodyQcreate c w))

/-- Starts the destruction of a queue (R341): ports unbind, entries and region are freed, the index stays in state
destroying until the sender acknowledges; false where the sender cannot be reached. -/
def startDestroy (s : State) (c : CoreId) (q : Nat) : State × Bool :=
  let u := coreU c
  let h := handleOf s c q
  let sender := nodeOfNum (s.rd Reg.CQ_Q_SENDER u q)
  let s1 := freeQueue s c q
  match sender with
  | none => (s1, false)
  | some n =>
    if reachable s c n then
      let s2 := (s1.wr Reg.CQ_Q_STATE u 3 q).wr Reg.CQ_STAT_NQUEUE u (s.rd Reg.CQ_STAT_NQUEUE u)
      (s2.send (.core c) n (.handleDestroy h), true)
    else (s1.lg LogKind.unreach u [nodeNum n], false)

/-- QDESTROY (R340, R341). -/
def bodyQdestroy (c : CoreId) (w : IFields) (s : State) : Eff :=
  withSrc c w.a s fun v t =>
    let h := v.toNat
    let u := coreU c
    let q := handleIdx h
    let st := t.rd Reg.CQ_Q_STATE u q
    let answer := fun n => doneS c w (BitVec.ofNat 32 n) t
    if handleCore h ≠ c then answer qsBadHandle
    else if st = 0 then answer qsBadHandle
    else if handleGen h ≠ t.rd Reg.CQ_Q_GEN u q then answer qsStale
    else if st = 3 then
      .wait fun s0 => holdHandle s0 c (.busyDestroy q w.d.toNat)
    else if t.rb Reg.CQ_Q_PZ u q then doneS c w (BitVec.ofNat 32 qsFrozen) (t.lg LogKind.frozenRefused u [q])
    else
      let r := startDestroy t c q
      if r.2 then .wait fun s0 => holdHandle (startDestroy s0 c q).1 c (.destroy h q w.d.toNat)
      else doneS c w 0 r.1

/-- R341: QDESTROY. -/
def execQdestroy (c : CoreId) (w : IFields) (s : State) : Host.Outcome State Fault Refusal :=
  .next (issue 0xC8 { d := .s, a := .sq } c w s (bodyQdestroy c w))

/-! ## Landing and freeing -/

/-- Frees a ring of `n` lines in ring order from the free pointer: each pad and released record it meets, up to the first that is not
released or has not landed (R353); with the lines freed. -/
def freeRun (n : Nat) : Nat → Nat → List RingRec → List RingRec × Nat
  | 0, _, l => (l, 0)
  | fuel + 1, at_, l =>
    match l.find? fun r => r.line == at_ && (r.pad || r.released) with
    | none => (l, 0)
    | some r => let k := freeRun n fuel ((at_ + r.lines) % n) (l.erase r); (k.1, k.2 + r.lines)

/-- Frees ring lines from the free pointer and returns them as credit (R353). -/
def freeLines (s : State) (c : CoreId) (q : Nat) : State :=
  let u := coreU c
  let x := s.cx c
  let n := 64 * s.rd Reg.CQ_Q_RSIZE u q
  let l := smGet [] x.rings q
  let r := freeRun n l.length (s.rd Reg.CQ_Q_FREEPTR u q) l
  let s1 := (s.setCx c { x with rings := smSet [] x.rings q r.1 }).wr Reg.CQ_Q_FREEPTR u
    ((s.rd Reg.CQ_Q_FREEPTR u q + r.2) % n) q
  if r.2 = 0 then s else addCredit s1 c q 0 r.2

/-- Releases up to `n` of the oldest popped records not yet released; with how many were left over. -/
def relRecs : Nat → List RingRec → List RingRec × Nat
  | n, [] => ([], n)
  | n, r :: t =>
    if n > 0 ∧ r.popped ∧ !r.released ∧ !r.pad then
      let k := relRecs (n - 1) t
      ({ r with released := true } :: k.1, k.2)
    else let k := relRecs n t; (r :: k.1, k.2)

/-- The release of ring records (R353); an excess is logged. -/
def ringRelease (s : State) (c : CoreId) (q n : Nat) : State :=
  let u := coreU c
  let x := s.cx c
  let r := relRecs n (smGet [] x.rings q)
  let s1 := (s.setCx c { x with rings := smSet [] x.rings q r.1 }).wr Reg.CQ_Q_POPPED u (poppedOf r.1) q
  freeLines (if r.2 = 0 then s1 else s1.lg LogKind.ringReleaseExcess u [q, r.2]) c q

/-- Adds an entry to a queue. -/
def pushEntry (s : State) (c : CoreId) (q : Nat) (e : QEnt) : State :=
  let u := coreU c
  let x := s.cx c
  let l := smGet [] x.entries q ++ [e]
  ((s.setCx c { x with entries := smSet [] x.entries q l }).wr Reg.CQ_Q_COUNT u l.length q).bump Reg.CQ_RECV_COUNT u

/-- A message lands (R342, R354, R359): dropped for a free index or a stale handle; an entry overrun is dropped and
logged; an arrival tagged with a flushed phase is discarded until its marker; a ring's lines are written before its
descriptor is pushed. -/
def landMsg (s : State) (c : CoreId) (m : QMsg) : State :=
  let u := coreU c
  let h := m.handle.toNat
  let q := handleIdx h
  let st := s.rd Reg.CQ_Q_STATE u q
  let full := decide ((smGet [] (s.cx c).entries q).length ≥ depthOf (s.rd Reg.CQ_Q_DEPTH u q))
  let base := 4096 * s.rd Reg.CQ_Q_RBASE u q
  let gone := fun p : Nat => (smGet [] (s.cx c).dropSet q).contains p
  if handleCore h ≠ c ∨ st = 0 ∨ st = 3 ∨ handleGen h ≠ s.rd Reg.CQ_Q_GEN u q then s.bump Reg.CQ_DROP_COUNT u
  else match m.body with
    | .entry a b d e p =>
      if st ≠ 1 then s.bump Reg.CQ_DROP_COUNT u
      else if gone p.toNat then addCredit (s.bump Reg.CQ_DISCARD_COUNT u) c q 1 0
      else if full then (s.bump Reg.CQ_DROP_COUNT u).lg LogKind.qOverrun u [q]
      else pushEntry s c q ⟨a.toNat, b.toNat, d.toNat, e.toNat, p.toNat⟩
    | .ring line data push =>
      if st ≠ 2 then s.bump Reg.CQ_DROP_COUNT u
      else
        let s1 := spWrite s c (base + 64 * line) data rqQm
        match push with
        | none => s1
        | some r =>
          let x := s1.cx c
          let drop := gone r.pseq
          let rec_ : RingRec := ⟨r.line, r.lines, drop, false, false, r.pseq, r.rseq⟩
          let s2 := s1.setCx c { x with rings := smSet [] x.rings q (smGet [] x.rings q ++ [rec_]) }
          if drop then freeLines (addCredit (s2.bump Reg.CQ_DISCARD_COUNT u) c q 1 0) c q
          else if full then (s2.bump Reg.CQ_DROP_COUNT u).lg LogKind.qOverrun u [q]
          else pushEntry s2 c q ⟨base + 64 * (r.line + 1), r.len, r.rseq, r.lines, r.pseq⟩
    | .pad line lines p =>
      if st ≠ 2 then s.bump Reg.CQ_DROP_COUNT u
      else
        let s1 := spWrite s c (base + 64 * line) (recHeader h 0 lines p.toNat true) rqQm
        let x := s1.cx c
        let rec_ : RingRec := ⟨line, lines, true, false, false, p.toNat, 0⟩
        s1.setCx c { x with rings := smSet [] x.rings q (smGet [] x.rings q ++ [rec_]) }

/-! ## Flushes and resets of channels -/

/-- What a flush of phases does at a queue whose sender lies in the gather (R359): every popped record is released,
every entry and record tagged with a flushed phase is discarded and its credit returns, and later arrivals tagged with
it are discarded until the marker. -/
def flushQueue (s : State) (c : CoreId) (phs : List Nat) (q : Nat) : State :=
  let u := coreU c
  let st := s.rd Reg.CQ_Q_STATE u q
  if st = 0 ∨ st = 3 then s
  else
    let x := s.cx c
    let inside := match gatherOf s c, nodeOfNum (s.rd Reg.CQ_Q_SENDER u q) with
      | some g, some (.core k) => k.die == c.die && inGather s g k.lc
      | _, _ => false
    let es := smGet [] x.entries q
    let dropped := if inside then es.filter fun e => phs.contains e.pseq else []
    let kept := if inside then es.filter fun e => !phs.contains e.pseq else es
    let headGone := match es with
      | e :: _ => inside && phs.contains e.pseq
      | [] => false
    let rel := (smGet [] x.rings q).map fun r =>
      if r.popped then { r with released := true }
      else if inside && phs.contains r.pseq then { r with pad := true } else r
    let s1 := s.setCx c { x with
      entries := smSet [] x.entries q kept, rings := smSet [] x.rings q rel
      dropSet := if inside then smSet [] x.dropSet q (if x.marked.contains q then [] else phs) else x.dropSet
      marked := x.marked.filter (· ≠ q) }
    let s2 := ((s1.wr Reg.CQ_Q_COUNT u kept.length q).wr Reg.CQ_Q_POPPED u 0 q).bump Reg.CQ_DISCARD_COUNT u dropped.length
    let s3 := if headGone then s2.wr Reg.CQ_Q_WORD u 0 q else s2
    let s4 := if dropped.isEmpty then s3 else addCredit s3 c q dropped.length 0
    if st = 2 then freeLines s4 c q else s4

/-- A core's queue manager on a flush of phases (R359): gated messages are cancelled, a FLUSH marker follows on every
channel whose receiver lies in the gather, and its own queues are flushed. -/
def flushQm (s : State) (c : CoreId) (phs : List Nat) : State :=
  let u := coreU c
  let s1 := cancelGates s c fun m => phs.contains m.phase
  let s2 := (List.range 256).foldl (fun t e =>
    let h := t.rd Reg.CQ_S_HANDLE u e
    if t.rb Reg.CQ_S_VALID u e && (gatherOf t c).isSome && !outsideGather t c h
    then inject t c (.core (handleCore h)) (.flush h) else t) s1
  (List.range 256).foldl (fun t q => flushQueue t c phs q) s2

/-- Restores a send-table entry to full credit with WR 0 (R360). -/
def fullCredit (s : State) (c : CoreId) (e depth lines : Nat) : State :=
  ((s.wr Reg.CQ_S_ECRED (coreU c) depth e).wr Reg.CQ_S_LCRED (coreU c) lines e).wr Reg.CQ_S_WR (coreU c) 0 e

/-- Resets one channel as a shift does (R360): the receiver's entries are discarded, its ring is emptied and its
sender's credits are full again. -/
def resetChannel (s : State) (c : CoreId) (q : Nat) : State :=
  let u := coreU c
  let x := s.cx c
  let h := handleOf s c q
  let s1 := s.setCx c { x with
    entries := smSet [] x.entries q [], rings := smSet [] x.rings q [], cred := smSet ⟨0, 0⟩ x.cred q ⟨0, 0⟩
    dropSet := smSet [] x.dropSet q [] }
  let s2 := ((s1.wr Reg.CQ_Q_COUNT u 0 q).wr Reg.CQ_Q_WORD u 0 q).wr Reg.CQ_Q_POPPED u 0 q
  let s3 := (s2.wr Reg.CQ_Q_FREEPTR u 0 q).bump Reg.CQ_DISCARD_COUNT u (smGet [] x.entries q).length
  let depth := depthOf (s.rd Reg.CQ_Q_DEPTH u q)
  let lines := 64 * s.rd Reg.CQ_Q_RSIZE u q
  match nodeOfNum (s.rd Reg.CQ_Q_SENDER u q) with
  | some (.core k) => match findSend s3 k h with
    | some e => fullCredit s3 k e depth lines
    | none => s3
  | some (.hub _) =>
    { s3 with hubSend := s3.hubSend.map fun e => if e.handle = h then { e with ecred := depth, lcred := lines, wr := 0 } else e }
  | _ => s3

/-- Resets every channel with an endpoint on a logical core (R360). -/
def resetChannelsOf (s : State) (c : CoreId) : State :=
  let own := (List.range 256).foldl (fun t q =>
    let st := t.rd Reg.CQ_Q_STATE (coreU c) q
    if st = 1 ∨ st = 2 then resetChannel t c q else t) s
  (List.range 256).foldl (fun t e =>
    if t.rb Reg.CQ_S_VALID (coreU c) e then
      let h := t.rd Reg.CQ_S_HANDLE (coreU c) e
      resetChannel t (handleCore h) (handleIdx h)
    else t) own

end Sys2Proof.Machine
end

