-- ==== Sys2Proof/Machine/Slots.lean ====
section
/-! DEFINITION. Sequence slots below their operations: rings, completion records and interrupts (R477-R489), the waits of
AWAIT_RUN, and the mailboxes' staging and publication (R491, R492). -/

namespace Sys2Proof.Machine

/-! ## The endpoint -/

/-- True when the endpoint serves memory requests and may issue its own (R469, R476). -/
def hostOpen (s : State) : Bool :=
  s.host.link && !s.host.d3 && !(s.rb Reg.HB_HOSTCFG_IDE_REQ 0 && !s.rb Reg.HB_HOSTCFG_IDE_OK 0)

/-- Signals an MSI-X vector (R488); while the endpoint issues nothing for want of its IDE stream (R476) the vector waits, once (DEDUCED,
notes/assumptions/105). -/
def signal (s : State) (v : Nat) : State :=
  if hostOpen s then s.emit (.msix v)
  else if s.host.link && !s.host.d3 && !s.host.vecs.contains v then { s with host := { s.host with vecs := s.host.vecs ++ [v] } }
  else s

/-- Records an event in HB_HERR (R488, R496). -/
def hostErr (s : State) (kind slot : Nat) : State :=
  signal (((s.wr Reg.HB_HERR_KIND 0 kind).wr Reg.HB_HERR_SLOT 0 slot).wb Reg.HB_HERR_VALID 0 true) 67

/-! ## Rings -/

/-- The states of a slot (R498). -/
def slDisabled : Nat := 0
def slEnabled : Nat := 1
def slFaulted : Nat := 2
def slDisabling : Nat := 3

/-- A slot beside its registers. -/
def State.slx (s : State) (n : Nat) : SlotX := smGet {} s.slots n

/-- Replaces a slot's state. -/
def State.setSlx (s : State) (n : Nat) (x : SlotX) : State := { s with slots := smSet {} s.slots n x }

/-- Entries of the submission ring and records of the completion ring (R477). -/
def sqSize (s : State) (n : Nat) : Nat := 2 ^ (s.rd Reg.HB_SLOT_SQSIZE 0 n + 4)
def cqSize (s : State) (n : Nat) : Nat := 2 ^ (s.rd Reg.HB_SLOT_CQSIZE 0 n + 4)

/-- Room of the completion ring (R485). -/
def cqRoom (s : State) (n : Nat) : Nat :=
  let z := cqSize s n
  z - 1 - (s.rd Reg.HB_SLOT_CQTAIL 0 n + z - s.rd Reg.HB_SLOT_CQHEAD 0 n) % z

/-- True when an entry of a slot can start: its record has room beside those of the entries running (R485). -/
def startRoom (s : State) (n : Nat) : Bool := decide ((s.slx n).running.length < cqRoom s n)

/-- Sends a record to the host, or keeps it while the endpoint issues nothing. -/
def postRecord (s : State) (n addr : Nat) (bs : List Byte) : State :=
  if hostOpen s then s.emit (.hostWrite addr bs)
  else s.setSlx n { s.slx n with owed := (s.slx n).owed ++ [(addr, bs)] }

/-- Writes the completion record of an entry (R482, R483) and, with IRQ, counts it towards the slot's interrupt (R489). -/
def writeRecord (s : State) (n : Nat) (e : SqEntry) (status flags info : Nat) : State :=
  let tail := s.rd Reg.HB_SLOT_CQTAIL 0 n
  let p := s.rd Reg.HB_SLOT_WPHASE 0 n
  let bs := leBytes 2 e.tag ++ leBytes 2 (s.rd Reg.HB_SLOT_SQHEAD 0 n) ++ leBytes 4 (status + 2 ^ 8 * e.opc + 2 ^ 16 * flags)
    ++ leBytes 4 info ++ leBytes 4 (n + 2 ^ 31 * p)
  let s1 := postRecord s n (s.rd64 Reg.HB_SLOT_CQBASE_LO Reg.HB_SLOT_CQBASE_HI 0 n + 16 * tail) bs
  let s2 := s1.wr Reg.HB_SLOT_CQTAIL 0 ((tail + 1) % cqSize s n) n
  let s3 := (if tail + 1 = cqSize s n then s2.wr Reg.HB_SLOT_WPHASE 0 (1 - p) n else s2).bump Reg.HB_SLOT_DONE 0 1 n
  if e.irq then
    let x := s3.slx n
    if x.irqs + 1 ≥ s3.rd Reg.HB_SLOT_IMODC 0 n then signal (s3.setSlx n { x with irqs := 0 }) n
    else s3.setSlx n { x with irqs := x.irqs + 1 }
  else s3

/-- A slot that is being disabled reports DISABLED once no copy of it runs (R487). -/
def endDisabling (s : State) (n : Nat) : State :=
  if s.rd Reg.HB_SLOT_STATE 0 n = slDisabling ∧ (s.slx n).running = [] then s.wr Reg.HB_SLOT_STATE 0 slDisabled n else s

/-- Completes a running entry: its record is written and it leaves the slot. -/
def finishRunOf (s : State) (n : Nat) (r : SlotRun) (status flags info : Nat) : State :=
  let x := s.slx n
  endDisabling (writeRecord (s.setSlx n { x with running := x.running.filter fun q => q.uid != r.uid }) n r.ent status flags info) n

/-- Replaces a running entry. -/
def setRun (s : State) (n : Nat) (r : SlotRun) : State :=
  let x := s.slx n
  s.setSlx n { x with running := x.running.map fun q => if q.uid = r.uid then r else q }

/-- The running entries of every slot that a test names, by slot. -/
def runsOf (s : State) (f : SlotRun → Bool) : List (Nat × SlotRun) :=
  (List.range 64).flatMap fun n => ((s.slx n).running.filter f).map fun r => (n, r)

/-- A copy has moved bytes. -/
def copyMoved (s : State) (n uid k : Nat) : State :=
  match (s.slx n).running.find? fun r => r.uid == uid with
  | some r => setRun s n { r with done := r.done + k }
  | none => s

/-- A copy meets a fault at a byte of its transfer (R483): it stops at the first failing line. -/
def copyFail (s : State) (n uid status at_ : Nat) : State :=
  match (s.slx n).running.find? fun r => r.uid == uid with
  | some r => match r.fault with
    | some (_, b) => if at_ < b then setRun s n { r with fault := some (status, at_) } else s
    | none => setRun s n { r with fault := some (status, at_) }
  | none => s

/-! ## AWAIT_RUN (R479) -/

/-- The operation codes (R479). -/
def opNop : Nat := 0
def opCopyIn : Nat := 1
def opCopyOut : Nat := 2
def opSend : Nat := 3
def opSendr : Nat := 4
def opAwaitRun : Nat := 5
def opStepWait : Nat := 6
def opStepGo : Nat := 7
def opQuery : Nat := 8

/-- A run of a stream completes: each AWAIT_RUN that waits for it takes its phase tag and RUNS count, and completes once its
source phase, if it has one, is sealed. -/
def runReported (s : State) (d : DieId) (i : Nat) (g : Option Gather) (pseq runs : Nat) : State :=
  (runsOf s fun r => r.ent.opc == opAwaitRun && r.gate.isNone && r.ent.arg == i + 2 ^ 15 * d.val).foldl (fun t p =>
    let info := pseq % 2 ^ 16 + 2 ^ 16 * (runs % 2 ^ 16)
    match g with
    | some h =>
      if phaseSealed t h pseq then finishRunOf t p.1 p.2 0 0 info
      else setRun t p.1 { p.2 with gate := some (gatherU h, pseq), info := info }
    | none => finishRunOf t p.1 p.2 0 0 info) s

/-- The seal of a phase opens the gate of the records that wait for it (R169, R466). -/
def sealRuns (s : State) (g : Gather) (ph : Nat) : State :=
  (runsOf s fun r => r.gate == some (gatherU g, ph)).foldl (fun t p => finishRunOf t p.1 p.2 0 0 p.2.info) s

/-- A recall of a phase: the records that wait for it wait for the rerun's run. -/
def recallRuns (s : State) (g : Gather) (ph : Nat) : State :=
  (runsOf s fun r => r.gate == some (gatherU g, ph)).foldl (fun t p => setRun t p.1 { p.2 with gate := none, info := 0 }) s

/-- A step given up: every AWAIT_RUN of it completes LOST (R483). -/
def loseRuns (s : State) : State :=
  (runsOf s fun r => r.ent.opc == opAwaitRun).foldl (fun t p => finishRunOf t p.1 p.2 11 0 0) s

/-! ## Mailboxes -/

/-- A mailbox beside its registers. -/
def State.mbx (s : State) (m : Nat) : MailX := smGet {} s.mails m

/-- Replaces a mailbox's state. -/
def State.setMbx (s : State) (m : Nat) (x : MailX) : State := { s with mails := smSet {} s.mails m x }

/-- Publishes a commit whose phase is sealed, unless a result is still published (R491, R492). `status` is that of the
status word. -/
def publish (s : State) (m : Nat) (status : Nat) : State :=
  let x := s.mbx m
  match x.commit with
  | some (len, none) =>
    if s.rb Reg.HB_MBCTL_PUBLISHED 0 m then s
    else
      let s1 := (List.range 255).foldl (fun t k =>
        t.wr Reg.HB_MB_WORD 0 (if k + 1 ≤ len then smGet 0 x.staged (k + 1) else 0) m (k + 1)) s
      let s2 := s1.wr Reg.HB_MB_WORD 0 (status + 2 ^ 17 * len + 2 ^ 25 * ((x.seq + 1) % 128)) m 0
      signal (((s2.setMbx m { x with staged := [], commit := none, seq := (x.seq + 1) % 128 }).wb Reg.HB_MBCTL_PUBLISHED 0
        true m).wb Reg.HB_MBCTL_WAITING 0 false m) 66
  | _ => s

/-- Commits the staged result of a mailbox, tagged with a phase or not (R491). -/
def commitMail (s : State) (m len : Nat) (tag : Option (Gather × Nat)) : State :=
  let wait := match tag with
    | some (g, ph) => if phaseSealed s g ph then none else some (gatherU g, ph)
    | none => none
  publish ((s.setMbx m { s.mbx m with commit := some (len, wait) }).wb Reg.HB_MBCTL_WAITING 0 true m) m 0

/-- The mailboxes whose commit waits for a phase. -/
def mailsOf (s : State) (g : Gather) (ph : Nat) : List Nat :=
  (List.range 16).filter fun m => match (s.mbx m).commit with
    | some (_, some p) => p == (gatherU g, ph)
    | _ => false

/-- The seal of a phase publishes the results that wait for it. -/
def sealMails (s : State) (g : Gather) (ph : Nat) : State :=
  (mailsOf s g ph).foldl (fun t m =>
    let x := t.mbx m
    publish (t.setMbx m { x with commit := x.commit.map fun p => (p.1, none) }) m 0) s

/-- A recall of a phase clears the staging of the results that wait for it; the commits are forgotten. -/
def recallMails (s : State) (g : Gather) (ph : Nat) : State :=
  (mailsOf s g ph).foldl (fun t m =>
    (t.setMbx m { t.mbx m with staged := [], commit := none }).wb Reg.HB_MBCTL_WAITING 0 false m) s

end Sys2Proof.Machine
end

