-- ==== Sys2Proof/Machine/Ports.lean ====
section
/-! DEFINITION. Cane and span ports below the streams: port numbers, their registers, the transmit queue with HOLD
(R405, R407), sideband messages (R415, R416), and the requests a stack holds (R437). -/

namespace Sys2Proof.Machine

/-- The number of a port: 9 x die + port, 36 + d for HCd, 40 + m for SPm, 48 + k for stack k's base die. -/
def portKey : PortId → Nat
  | .die d p => 9 * d.val + p.val
  | .hub p => 36 + p.val
  | .span p => 40 + p.val
  | .stack k => 48 + k.val

/-- The node that holds a port (R308). -/
def portN : PortId → Nat
  | .die d _ => dieN d.val
  | .hub _ => hubN + 4
  | .span _ => hubN + 4
  | .stack k => stackN k.val

/-- The port at the other end of a cane (R10, R310); a span port's other end is another module. -/
def peerPort : PortId → Option PortId
  | .die d p =>
    match p.val with
    | 0 => some (.hub d)
    | 1 => some (.die (d - 1) 3)
    | 2 => some (.die (d - 1) 4)
    | 3 => some (.die (d + 1) 1)
    | 4 => some (.die (d + 1) 2)
    | n => some (.stack (Fin.ofNat 16 (4 * d.val + (n - 5))))
  | .hub d => some (.die d 0)
  | .span _ => none
  | .stack k => some (.die (Fin.ofNat 4 (k.val / 4)) (Fin.ofNat 9 (5 + k.val % 4)))

/-- A port beside its registers. -/
def State.px (s : State) (p : PortId) : PortX := smGet {} s.ports (portKey p)

/-- Replaces a port's state. -/
def State.setPx (s : State) (p : PortId) (x : PortX) : State := { s with ports := smSet {} s.ports (portKey p) x }

/-- A port's lanes, and its sideband. -/
def State.lx (s : State) (p : PortId) : LaneX := (s.px p).lane
def State.sb (s : State) (p : PortId) : SideX := (s.px p).side

/-- Replaces a port's lanes. -/
def State.setLx (s : State) (p : PortId) (x : LaneX) : State := s.setPx p { s.px p with lane := x }

/-- Replaces a port's sideband. -/
def State.setSb (s : State) (p : PortId) (x : SideX) : State := s.setPx p { s.px p with side := x }

/-- A span port beside its link. -/
def State.spx (s : State) (m : Fin 8) : SpanX := (s.px (.span m)).span

/-- Replaces what a span port holds beside its link. -/
def State.setSpx (s : State) (m : Fin 8) (x : SpanX) : State := s.setPx (.span m) { s.px (.span m) with span := x }

/-- Reads a field of a port's register block (R427): of a die's port, or of the hub's. What a base die's port holds of one has no
address; it stands as that of port 9 + k of the die its stack faces. -/
def rdP (s : State) (p : PortId) (F FH : Field) (j : Nat := 0) : Nat :=
  match p with
  | .die d n => s.rd F d.val n.val j
  | .hub n => s.rd FH 0 n.val j
  | .span n => s.rd FH 0 (8 + n.val) j
  | .stack k => s.rd F (k.val / 4) (9 + k.val % 4) j

/-- Sets a field of a port's register block. -/
def wrP (s : State) (p : PortId) (F FH : Field) (v : Nat) (j : Nat := 0) : State :=
  match p with
  | .die d n => s.wr F d.val v n.val j
  | .hub n => s.wr FH 0 v n.val j
  | .span n => s.wr FH 0 v (8 + n.val) j
  | .stack k => s.wr F (k.val / 4) v (9 + k.val % 4) j

/-- Adds to a counter of a port's register block. -/
def bumpP (s : State) (p : PortId) (F FH : Field) (n : Nat := 1) : State :=
  wrP s p F FH (satAdd F.w (rdP s p F FH) n)

/-- LK_STAT.STATE of a port (R427). -/
def portState (s : State) (p : PortId) : Nat := rdP s p Reg.LK_STAT_STATE Reg.LKH_STAT_STATE

/-- True of a port that is up, or retrains while its traffic waits (R414). -/
def portReached (s : State) (p : PortId) : Bool := portState s p == 2 || portState s p == 3

/-- The unit of a port in records, and its number there (R537). -/
def portUnit : PortId → Nat × Nat
  | .die d n => (d.val, n.val)
  | .hub d => (4, 9 + d.val)
  | .span m => (4, 16 + m.val)
  | .stack k => (16 + k.val, 0)

/-- A port reports an event of class 2 for a lane, or of class 3 with no lane, on its receive side (R408, R537). -/
def raisePort (s : State) (p : PortId) (code : Nat) (lane : Option Nat) : State :=
  let u := portUnit p
  let e := unitEvent s (if lane.isSome then 2 else 3) code u.1 none (u.2 + 32 * lane.getD 0x1FF) []
  match p with
  | .die d _ => raiseDie s d false e
  | .stack k => s.raise (.stack k) (.dieNode (Fin.ofNat 4 (k.val / 4))) (.event e)
  | _ => raiseHub s false e

/-- The states of LK_STAT (R427). -/
def lkDown : Nat := 0
def lkTraining : Nat := 1
def lkUp : Nat := 2
def lkRetrain : Nat := 3
def lkHeld : Nat := 4

/-! ## Sideband messages (R415, R416) -/

/-- The CRC-8 register after the `n` low bits of `v`, in increasing bit index, with the generator 0x07. -/
def crc8Run : Nat → Nat → Nat → Nat
  | 0, _, c => c
  | n + 1, v, c => crc8Run n (v / 2) ((2 * c % 256) ^^^ (if (c / 128 + v) % 2 = 1 then 7 else 0))

/-- The CRC-8 of the `n` low bits of `v`, from 0. That is stated of lane markers (R423); the sideband's is taken alike (DEDUCED,
notes/assumptions/95). -/
def crc8 (n v : Nat) : Nat := crc8Run n v 0

/-- TYPE and PAYLOAD of a message, its number in PAYLOAD [3:0]. -/
def sbWord (ty payload seq : Nat) : Nat := ty % 16 + 2 ^ 4 * (seq % 16) + 2 ^ 8 * (payload % 2 ^ 32)

/-- A message of 48 bits. -/
def sbMessage (ty payload seq : Nat) : Nat := sbWord ty payload seq + 2 ^ 40 * crc8 40 (sbWord ty payload seq)

/-- The types of SBREAD and SBNAK. -/
def sbtRead : Nat := 8
def sbtNak : Nat := 0xF

/-- The class of a type. -/
def sbClass (ty : Nat) : Nat := if ty = 5 ∨ ty = 6 then 1 else if ty = 7 ∨ ty = 8 then 2 else 0

/-- Queues a sideband message of a type at a port. -/
def sbSend (s : State) (p : PortId) (ty payload : Nat) : State :=
  let x := s.sb p
  s.setSb p { x with queue := x.queue ++ [⟨ty, payload⟩] }

/-- The HCLK that a message takes on a port: on four lanes, on two after a lane has failed, or on B0 at 50 Mb/s from a die on its ring
oscillator; none where too few lanes work. -/
def sbTime (s : State) (p : PortId) : Option Nat :=
  let lost := (peerPort p).elim 0 fun q => (s.sb q).lost
  let slow := match p with
    | .die d _ => s.rb Reg.BT_CLKSTAT_RINGOSC d.val
    | _ => false
  let left := ((List.range 4).filter fun b => !bit lost b).length
  if slow then (if bit lost 0 then none else some 2688)
  else if left = 4 then some 48
  else if 2 ≤ left then some 96
  else none

/-- The message that a port sends next: one to resend before any other, then by class, each class in order. -/
def sbPick (x : SideX) : Option (Option Nat × SbMsg) :=
  match x.again with
  | (n, m) :: _ => some (some n, m)
  | [] => ([0, 1, 2].findSome? fun c => x.queue.find? fun m => sbClass m.ty == c).map fun m => (none, m)

/-- A port sends its next message where its lanes are free. A new one takes the next number and is kept with the last 16; SBNAK names the
message wanted in PAYLOAD [3:0] and has no number of its own (DEDUCED, notes/assumptions/100). -/
def sbPort (s : State) (p : PortId) : State :=
  let x := s.sb p
  match sbPick x, sbTime s p with
  | some (again, m), some n =>
    if s.hclk < x.free then s
    else
      let y := { x with free := s.hclk + n }
      match again with
      | some k => (s.setSb p { y with again := x.again.drop 1 }).emit (.sideband (portKey p) (sbMessage m.ty m.payload k))
      | none =>
        if m.ty = sbtNak then (s.setSb p { y with queue := x.queue.erase m }).emit (.sideband (portKey p) (sbMessage m.ty 0 m.payload))
        else (s.setSb p { y with
            queue := x.queue.erase m, next := (x.next + 1) % 16, sent := (x.sent ++ [m]).drop (x.sent.length - 15) }).emit
          (.sideband (portKey p) (sbMessage m.ty m.payload x.next))
  | _, _ => s

/-- The cane ports of the module. -/
def canePorts : List PortId :=
  (allDies.flatMap fun d => (List.finRange 9).map fun p => PortId.die d p) ++ allDies.map PortId.hub
    ++ (List.finRange 16).map PortId.stack

/-- One HCLK of every sideband. -/
def sidebandTick (s : State) : State := canePorts.foldl sbPort s

/-- The message that an end sent under a number, of its last 16. -/
def sbSentAs (x : SideX) (n : Nat) : Option SbMsg :=
  let k := (x.next + 16 - n) % 16
  if k = 0 then none else x.sent.reverse[k - 1]?

/-- The first number from `e` on that is not of a register value returned: the hub takes such a message as it comes (`fuel` bounds
them). -/
def skipReplies : Nat → SideX → Nat → Nat
  | 0, _, e => e
  | fuel + 1, x, e => if (sbSentAs x e).any fun m => m.ty == sbtRead then skipReplies fuel x ((e + 1) % 16) else e

/-- The number that a port expects next. -/
def sbWant (s : State) (p : PortId) : Nat :=
  match p with
  | .hub d => skipReplies 16 (s.sb (.die d 0)) (s.sb p).expect
  | _ => (s.sb p).expect

/-- A sideband message reaches a port (R416): one whose CRC fails is discarded and SBNAK names the message wanted; one
already applied is ignored; otherwise it is to be applied. -/
def sbReceive (s : State) (p : PortId) (ty payload seq : Nat) (crc : BitVec 8) (k : State → State) : State :=
  if crc8 40 (sbWord ty payload seq) ≠ crc.toNat then sbSend s p sbtNak (sbWant s p)
  else if seq ≠ sbWant s p then s
  else k (s.setSb p { s.sb p with expect := (seq + 1) % 16 })

/-- The payloads of SYNC, HOLD and SCREDIT, each in PAYLOAD [35:4]: which bits hold what is not stated (DESIGN CHOICE,
notes/assumptions/100). -/
def syncPayload (release : Bool) (g : Nat) : Nat := g + 64 * b2n release
def holdPayload (on : Bool) (i : Nat) : Nat := b2n on + 2 * i
def creditPayload (i n : Nat) : Nat := i + 2 ^ 15 * n

/-! ## Streams at ports -/

/-- One stream named in a cane table entry: the stream of a sub-slot where its V is 1. -/
def laneTab (s : State) (p : PortId) (j k : Nat) : Option Nat :=
  let get := fun (S V SH VH : Field) =>
    if rdP s p V VH j = 1 then some (rdP s p S SH j) else none
  match k with
  | 0 => get Reg.LK_TAB_STREAM0 Reg.LK_TAB_V0 Reg.LKH_TAB_STREAM0 Reg.LKH_TAB_V0
  | 1 => get Reg.LK_TAB_STREAM1 Reg.LK_TAB_V1 Reg.LKH_TAB_STREAM1 Reg.LKH_TAB_V1
  | 2 => get Reg.LK_TAB_STREAM2 Reg.LK_TAB_V2 Reg.LKH_TAB_STREAM2 Reg.LKH_TAB_V2
  | _ => get Reg.LK_TAB_STREAM3 Reg.LK_TAB_V3 Reg.LKH_TAB_STREAM3 Reg.LKH_TAB_V3

/-- The streams that own a sub-slot `k` of a die port's table in force: transmit, or receive (R278, R428). -/
def tabStreams (s : State) (d : DieId) (n : Fin 9) (rx : Bool) (k : Nat) : List Nat :=
  let base := (if rx then 8192 else 0) + 4096 * portBank s d.val n.val
  ((List.range (s.rd Reg.DN_FRAME_FLEN d.val)).filterMap fun t => laneTab s (.die d n) (base + t) k).eraseDups

/-- The ports that hold a stream's source engine, after one more or one fewer (R407). -/
def setHold (s : State) (d : DieId) (i key : Nat) (on : Bool) : State :=
  let x := s.sx d i
  let l := x.holds.filter (· ≠ key)
  s.setSx d i { x with holds := if on then key :: l else l }

/-- The streams that leave on a span port, each with its die (R419, R428). -/
def spanStreams (s : State) (m : Fin 8) : List (DieId × Nat) :=
  ((List.range 1024).filter fun e => s.rb Reg.SPMAP_V 0 m.val e && !s.rb Reg.SPMAP_DIR 0 m.val e).map fun e =>
    (Fin.ofNat 4 (s.rd Reg.SPMAP_LDIE 0 m.val e), s.rd Reg.SPMAP_LSTREAM 0 m.val e)

/-- Asserts or releases HOLD of a port (R407): at the source engine of every stream that owns a sub-slot in its
transmit table, on its own die at once, and over the sideband of every port through which the stream enters the die. A span port has no
table: its streams are those of its outbound entries, held over the sideband of their dies. -/
def holdPort (s : State) (p : PortId) (on : Bool) : State :=
  let s1 := wrP s p Reg.LK_STAT_HOLD Reg.LKH_STAT_HOLD (b2n on)
  match p with
  | .die d n => ((List.range 4).flatMap (tabStreams s d n false)).eraseDups.foldl (fun t i =>
      ((List.finRange 9).filter fun q => decide (1 ≤ q.val ∧ q.val ≤ 4)
          && (List.range 4).any fun k => (tabStreams s d q true k).contains i).foldl
        (fun t q => sbSend t (.die d q) 5 (holdPayload on (s.rd Reg.DN_DESC_PEER d.val i))) (setHold t d i (portKey p) on)) s1
  | .hub d => ((List.range 4).flatMap (tabStreams s d 0 true)).eraseDups.foldl
      (fun t i => setHold t d i (portKey p) on) s1
  | .stack k =>
    let d : DieId := Fin.ofNat 4 (k.val / 4)
    ((List.range 4).flatMap (tabStreams s d (Fin.ofNat 9 (5 + k.val % 4)) true)).eraseDups.foldl
      (fun t i => setHold t d i (portKey p) on) s1
  | .span m => (spanStreams s m).foldl (fun t q => sbSend t (.hub q.1) 5 (holdPayload on q.2)) s1

/-- True when a port asserts HOLD. -/
def holding (s : State) (p : PortId) : Bool := rdP s p Reg.LK_STAT_HOLD Reg.LKH_STAT_HOLD == 1

/-- HOLD after the transmit queue has changed: asserted above 256 payloads, released below 64 while the port carries
data (R407, R414). -/
def updHold (s : State) (p : PortId) : State :=
  let n := (s.px p).txq.length
  if n > 256 ∧ !holding s p then holdPort s p true
  else if n < 64 ∧ holding s p ∧ portState s p = lkUp then holdPort s p false
  else s

/-- True when a port's transmit queue has a place (R405). -/
def txRoom (s : State) (p : PortId) : Bool := decide ((s.px p).txq.length < 512)

/-- Stages a payload in a port's transmit queue (R405). -/
def txPush (s : State) (p : PortId) (pl : Payload) : State :=
  let x := s.px p
  updHold (s.setPx p { x with txq := x.txq ++ [pl] }) p

/-! ## Requests of a stack -/

/-- A stack beside its registers. -/
def State.tx (s : State) (k : Nat) : StackX := smGet {} s.stackSt k

/-- Replaces a stack's state. -/
def State.setTx (s : State) (k : Nat) (x : StackX) : State := { s with stackSt := smSet {} s.stackSt k x }

/-- Adds a cane request to a stack, behind those already received (R442). -/
def caneReq (s : State) (k : Nat) (r : CaneReq) : State :=
  let x := s.tx k
  s.setTx k { x with cane := x.cane ++ [r] }

end Sys2Proof.Machine
end

