-- ==== Sys2Proof/Machine/Control.lean ====
section
/-! DEFINITION. The control network (R307-R321): packets and their head flits, the order of a route, injection with its shaping,
the routers with their channels and arbitration, the crossings between dies, the hub and the stacks, and what a packet that
arrives becomes. -/

namespace Sys2Proof.Machine

/-! ## Packets (R311, R312) -/

/-- The TYPE, VC and body flits of a packet (R312): 16 B of content in each body flit. A FLUSH marker is a QMSG (R359), PURGE a
HANDLE (R362), and LOST goes to a stack as a write. -/
def packetHead : Packet → Nat × Bool × Nat
  | .verdict _ => (0x01, true, 0)
  | .trap _ _ _ _ => (0x02, true, 2)
  | .error _ _ => (0x03, true, 4)
  | .report _ => (0x03, true, 4)
  | .fault _ => (0x03, true, 4)
  | .scredit _ _ => (0x04, true, 0)
  | .handleCreate _ _ _ _ => (0x05, true, 1)
  | .handleDestroy _ => (0x05, true, 1)
  | .handleAck _ _ => (0x05, true, 1)
  | .purge _ => (0x05, true, 1)
  | .intr _ => (0x06, true, 0)
  | .ctrl _ => (0x07, true, 1)
  | .qmsg m => (0x20, false, match m.body with
    | .entry _ _ _ _ _ => 1
    | .ring _ data _ => (data.length + 15) / 16
    | .pad _ _ _ => 0)
  | .flush _ => (0x20, false, 0)
  | .qcredit _ _ _ => (0x21, false, 0)
  | .rdreq _ _ _ => (0x22, false, 0)
  | .rdrsp _ _ data => (0x23, false, (data.length + 15) / 16)
  | .wrreq _ _ data => (0x24, false, (data.length + 15) / 16)
  | .lost _ => (0x24, false, 1)
  | .wrrsp _ _ => (0x25, false, 0)
  | .parison p => (0x26, false, ((if p.head then 8 else 0) + 4 * p.words.length + 15) / 16)

/-- The VC of a TYPE and its largest LEN (R312). -/
def typeRow (ty : Nat) : Option (Bool × Nat) :=
  match ty with
  | 0x01 => some (true, 0) | 0x02 => some (true, 2) | 0x03 => some (true, 4) | 0x04 => some (true, 0)
  | 0x05 => some (true, 1) | 0x06 => some (true, 0) | 0x07 => some (true, 1) | 0x20 => some (false, 16)
  | 0x21 => some (false, 0) | 0x22 => some (false, 0) | 0x23 => some (false, 16) | 0x24 => some (false, 16)
  | 0x25 => some (false, 0) | 0x26 => some (false, 16) | _ => none

/-- True when a node may send a broadcast (R319): a hub Punty or a die Punty. -/
def mayBroadcast : NodeId → Bool
  | .hub u => decide (u.val < 4)
  | .dieNode _ => true
  | _ => false

/-- True when the source's router accepts a packet (R312, R319). -/
def packetOk (p : CtlPkt) : Bool :=
  match typeRow p.ty with
  | some r => p.hp == r.1 && decide (p.len ≤ r.2) && (p.scope.isNone || mayBroadcast p.src)
  | none => false

/-- DST of a packet (R308, R319): a node identity, or the scope of a broadcast with its die. -/
def dstField (p : CtlPkt) : Nat :=
  match p.scope with
  | none => nodeNum p.dst
  | some (.dieCores d) => 64 * d.val
  | some .allCores => 256
  | some (.rect d _ _ _ _) => 512 + 64 * d.val
  | some .dieNodes => 768

/-- AUX of a broadcast to a rectangle (R319): {r0, c0, r1, c1}, 3 bits each. -/
def auxField (p : CtlPkt) : Nat :=
  match p.scope with
  | some (.rect _ r0 c0 r1 c1) => 512 * r0.val + 64 * c0.val + 8 * r1.val + c1.val
  | _ => 0

/-- TAG of a packet (R311): that of its request. A channel operation and its reply have the number of their handle (DESIGN CHOICE,
notes/assumptions/101). -/
def tagField : Packet → Nat
  | .handleCreate h _ _ _ => h
  | .handleDestroy h => h
  | .handleAck h _ => h
  | .rdreq t _ _ => t
  | .rdrsp t _ _ => t
  | .wrreq t _ _ => t
  | .wrrsp t _ => t
  | _ => 0

/-- ARG of a packet: the fields of R168 of a verdict, from bit 0 up in their order; what ARG holds of another type is not stated. -/
def argField (ty : Nat) : Packet → Nat
  | .verdict v => b2n v.recalled + 2 ^ 2 * v.g.die.val + 2 ^ 4 * v.g.idx.val + 2 ^ 10 * v.seq.toNat + 2 ^ 26 * v.step.toNat
    + 2 ^ 42 * v.rung.toNat + 2 ^ 44 * v.cause.toNat + 2 ^ 48 * v.layer.toNat
  | _ => Config.headArg ty % 2 ^ 64

/-- The head flit of a packet (R311). -/
def headFlit (p : CtlPkt) : Nat :=
  p.ty % 64 + 2 ^ 6 * b2n p.hp + 2 ^ 7 * b2n p.scope.isSome + 2 ^ 8 * (p.len % 32) + 2 ^ 16 * dstField p + 2 ^ 26 * nodeNum p.src
    + 2 ^ 36 * (tagField p.body % 2 ^ 12) + 2 ^ 48 * auxField p + 2 ^ 64 * argField p.ty p.body

/-- The content of a packet's body flits, in byte order, of a TYPE whose content the spec lays out: a queue entry, a record's data, the
data of a read or write, a parison record (R371). -/
def bodyBytes : Packet → Option (List Byte)
  | .qmsg m => match m.body with
    | .entry w0 w1 w2 w3 _ => some ([w0, w1, w2, w3].flatMap fun w => leBytes 4 w.toNat)
    | .ring _ data _ => some data
    | .pad _ _ _ => some []
  | .rdrsp _ _ data => some data
  | .wrreq _ _ data => some data
  | _ => none

/-- The 128 bits of flit `k` of a packet (R311). -/
def flitBits (p : CtlPkt) (k : Nat) : Nat :=
  if k = 0 then headFlit p
  else match bodyBytes p.body with
    | some l => ofLeBytes ((l.drop (16 * (k - 1))).take 16)
    | none => Config.bodyFlit p.id k % 2 ^ 128

/-- A flit with the SECDED check bits of its two words above its 128 bits (R311, R401). -/
def flitCtrl (v : Nat) : Nat :=
  v % 2 ^ 128 + 2 ^ 128 * (Config.eccBits (v % 2 ^ 64) % 256) + 2 ^ 136 * (Config.eccBits (v / 2 ^ 64 % 2 ^ 64) % 256)

/-! ## Injection (R309, R312, R315) -/

/-- The packet as its source forms it. -/
def mkPkt (s : State) (src dst : NodeId) (scope : Option Scope) (p : Packet) : CtlPkt :=
  let h := packetHead p
  { id := s.ctl.next, src := src, dst := dst, scope := scope, hp := h.2.1, ty := h.1, len := h.2.2
    colFirst := ((routeOrder s src dst).getD false), body := p }

/-- The Punty of hub and die that broadcasts (R319, R384): PARISON and PURGE go out from hub Punty 0. -/
def broadcaster : NodeId := .hub 0

/-- The dies a broadcast goes to. -/
def scopeDies : Scope → List DieId
  | .dieCores d => [d]
  | .rect d _ _ _ _ => [d]
  | _ => allDies

/-- A packet waits at its source; one that no router accepts is dropped and logged (CN_BADPKT), and one whose orders both cross a
marked router is not injected (R309, R312). -/
def enqueue (s : State) (k : CtlPkt) : State :=
  let n := nodeNum k.src
  let x := s.ctl
  if !packetOk k then badSource (s.lg LogKind.badPacket n [k.ty, k.len]) k.src k.ty
  else if k.scope.isNone && (routeOrder s k.src k.dst).isNone then s.lg LogKind.unreach n [nodeNum k.dst]
  else
    let x1 := { x with next := x.next + 1 }
    { s with ctl := if k.hp then { x1 with waitH := smSet [] x.waitH n (smGet [] x.waitH n ++ [k]) }
      else { x1 with waitN := smSet [] x.waitN n (smGet [] x.waitN n ++ [k]) } }

/-- The network takes one entry of what the module's nodes send. -/
def takeOut (s : State) (o : Out) : State :=
  match o with
  | .packet src dst p => enqueue s (mkPkt s src dst none p)
  | .broadcast sc p => (scopeDies sc).foldl (fun t d => enqueue t (mkPkt t broadcaster (.dieNode d) (some sc) p)) s
  | _ => s

/-- The network takes what its nodes have sent since it last did. -/
def intake (s : State) : State :=
  let l := s.out.drop s.ctl.taken
  let s1 := l.foldl takeOut s
  { s1 with ctl := { s1.ctl with taken := s.out.length } }

/-- The number of a router: 80 x die + 10 x row + column. -/
def routerKey (d : DieId) (r k : Nat) : Nat := 80 * d.val + 10 * r + k

/-- A control router. -/
def State.cr (s : State) (key : Nat) : CtlRouter := smGet {} s.ctl.routers key

/-- Replaces a control router. -/
def State.setCr (s : State) (key : Nat) (x : CtlRouter) : State :=
  { s with ctl := { s.ctl with routers := smSet {} s.ctl.routers key x } }

/-- Router ports by the codes of R269: 0 LOC, 1 N, 2 E, 3 S, 4 W. The die node lies at port 3 of P[7,9] (R307). -/
def pLoc : Nat := 0
def pN : Nat := 1
def pE : Nat := 2
def pS : Nat := 3
def pW : Nat := 4

/-- The buffer of a router input for a packet (R313). -/
def bufOf (port : Nat) (p : CtlPkt) : Nat := 3 * port + (if p.hp then 0 else if p.ty = 0x22 ∨ p.ty = 0x24 then 1 else 2)

/-- Appends a flit to a router's input buffer. -/
def pushFlit (s : State) (key port : Nat) (f : CtlFlit) : State :=
  let r := s.cr key
  let b := bufOf port f.pkt
  s.setCr key { r with bufs := smSet [] r.bufs b (smGet [] r.bufs b ++ [{ f with todo := none }]) }

/-- Puts all flits of a packet into an input buffer, one NCLK after the other from HCLK `at_` on. -/
def pushPacket (s : State) (key port : Nat) (p : CtlPkt) (at_ : Nat) : State :=
  (List.range (p.len + 1)).foldl (fun t k => pushFlit t key port { pkt := p, k := k, at_ := at_ + k * nclkDiv s }) s

/-- The ring port that carries the control flits of another one while that does not carry data (R414). -/
def ringPartner : PortId → Option PortId
  | .die d n => match n.val with
    | 1 => some (.die d 2)
    | 2 => some (.die d 1)
    | 3 => some (.die d 4)
    | 4 => some (.die d 3)
    | _ => none
  | _ => none

/-- The control flits that a port's LINK beats carry: its own, and those of its partner while that does not carry data; high-priority
flits first. -/
def ctrlKeys (s : State) (p : PortId) : List Nat :=
  let l := p :: (match ringPartner p with
    | some q => if portState s q = lkUp then [] else [q]
    | none => [])
  l.map (fun q => 2 * portKey q) ++ l.map fun q => 2 * portKey q + 1

/-- The control flit that a port's next LINK beat takes (R310, R398, R401). -/
def takeCtrl (s : State) (p : PortId) : State × Option CtlFlit :=
  match (ctrlKeys s p).find? fun k => !(smGet [] s.ctl.cross k).isEmpty with
  | some k =>
    let l := smGet [] s.ctl.cross k
    ({ s with ctl := { s.ctl with cross := smSet [] s.ctl.cross k (l.drop 1) } }, l.head?)
  | none => (s, none)

/-- Where a packet goes from a node's attachment (R310): it has arrived, it enters the mesh of a die, or it waits for a port. -/
inductive Hop where
  | here | mesh (d : DieId) | port (p : PortId)
deriving DecidableEq, Repr

/-- The die that leads to a node: its own, or the one that faces a stack. -/
def leadDie (n : NodeId) : Option DieId := nodeDie n

/-- The next hop at die `d`'s node; the way to the opposite die goes over CH, or over the ring while CH does not carry (R414). -/
def hopDie (s : State) (d : DieId) (p : CtlPkt) : Hop :=
  match p.dst with
  | .dieNode e => if e = d then (match p.scope with
      | some .dieNodes => .here
      | some _ => .mesh d
      | none => .here) else cross e
  | .core c => if c.die = d then .mesh d else cross c.die
  | .stack k => if k.val / 4 = d.val then .port (.die d (Fin.ofNat 9 (5 + k.val % 4))) else cross (Fin.ofNat 4 (k.val / 4))
  | .hub _ => .port (.die d 0)
where cross (e : DieId) : Hop :=
  if e = d + 1 then .port (.die d 3)
  else if e = d - 1 then .port (.die d 1)
  else if portState s (.die d 0) = lkUp then .port (.die d 0)
  else .port (.die d 3)

/-- The next hop at the hub, which forwards to a die over its HC port. -/
def hopHub (p : CtlPkt) : Hop :=
  match nodeDie p.dst with
  | some e => .port (.hub e)
  | none => .here

/-- The next hop at a stack. -/
def hopStack (k : StackId) (p : CtlPkt) : Hop := if p.dst = .stack k then .here else .port (.stack k)

/-- A packet leaves the network for a node: it arrives 6 NCLK after its last flit leaves the router, at once where `now` (R317). -/
def landAt (s : State) (n : NodeId) (p : CtlPkt) (delay : Nat) : State :=
  { s with ctl := { s.ctl with land := s.ctl.land ++ [(s.hclk + delay * nclkDiv s, n, p)] } }

/-- A response from the hub to a request whose target's die is lost (R549). -/
def lostReply (s : State) (p : CtlPkt) : State :=
  let n := nodeNum p.dst
  let s1 := s.lg LogKind.unreach hubN [n, nodeNum p.src]
  match p.body with
  | .rdreq tag _ fill => s1.send (.hub 4) p.src (.rdrsp tag true (List.replicate (if fill then 256 else 4) 255))
  | .wrreq tag _ _ => s1.send (.hub 4) p.src (.wrrsp tag false)
  | _ => s1

/-- A packet follows its hop: it lands, enters the mesh, or joins the flits that wait at a port. -/
def follow (s : State) (node : NodeId) (p : CtlPkt) (h : Hop) : State :=
  match h with
  | .here => landAt s node p 2
  | .mesh d => pushPacket s (routerKey d 7 9) pS p (s.hclk + 2 * nclkDiv s)
  | .port q =>
    let key := 2 * portKey q + b2n (!p.hp)
    let fl := (List.range (p.len + 1)).map fun k => ({ pkt := p, k := k, at_ := s.hclk } : CtlFlit)
    { s with ctl := { s.ctl with cross := smSet [] s.ctl.cross key (smGet [] s.ctl.cross key ++ fl) } }

/-- A packet stands at a node's attachment: at the hub one for a lost die is answered there (R549). -/
def arriveAt (s : State) (node : NodeId) (p : CtlPkt) : State :=
  match node with
  | .dieNode d => follow s node p (hopDie s d p)
  | .stack k => follow s node p (hopStack k p)
  | .hub _ =>
    match nodeDie p.dst with
    | some e => if s.rd Reg.FT_DIE_STATE 0 e.val = 1 ∨ s.rd Reg.FT_DIE_STATE 0 e.val = 4 then lostReply s p
      else follow s node p (hopHub p)
    | none => follow s p.dst p .here
  | .core _ => s

/-- A node injects a packet: a core at the LOC input of its router, where it counts it (R333), the die node at P[7,9], the hub and a
stack at their ports. -/
def injectPkt (s0 : State) (p : CtlPkt) : State :=
  match p.src with
  | .core c =>
    let s := if p.hp then s0.bump Reg.CN_TXHP_COUNT (coreU c) else s0.bump Reg.CN_TXN_COUNT (coreU c)
    let q := posOfCore s c
    pushPacket s (routerKey c.die q.1 q.2) pLoc p (s.hclk + 2 * nclkDiv s)
  | n => arriveAt s0 n p

/-- True when a node can inject: its die has clock. -/
def nodeClocked (s : State) (n : Nat) : Bool := n ≥ 512 || !s.rb Reg.BT_CLKSTAT_STOPPED (nodeCollector n)

/-- One node's injections in an NCLK: high-priority packets up to 4 in any window of 64 NCLK, a core's wait under CN_SHAPE (R315,
R333), and a normal packet. -/
def injectNode (s : State) (n : Nat) : State :=
  if !nodeClocked s n then s
  else
    let s1 := match smGet [] s.ctl.waitN n with
      | [] => s
      | p :: l => injectPkt { s with ctl := { s.ctl with waitN := smSet [] s.ctl.waitN n l } } p
    match smGet [] s1.ctl.waitH n with
    | [] => s1
    | p :: l =>
      let w := (smGet [] s1.ctl.sent n).filter fun t => decide (s.hclk < t + 64 * nclkDiv s)
      if w.length < 4 then
        injectPkt { s1 with ctl := { s1.ctl with waitH := smSet [] s1.ctl.waitH n l
                                                 sent := smSet [] s1.ctl.sent n (w ++ [s.hclk]) } } p
      else if n < 256 then s1.bump Reg.CN_SHAPE_COUNT n else s1

/-! ## Routers (R309, R313, R314, R319) -/

/-- The logical core at a position, if any. -/
def posCore (s : State) (d : DieId) (r k : Nat) : Option CoreId :=
  (dieCores d).find? fun c => c.lc.val / 8 == r && pcolOf s d.val r (c.lc.val % 8) == k

/-- True when a core is a target of a broadcast (R319). -/
def inScope (sc : Scope) (c : CoreId) : Bool :=
  match sc with
  | .dieCores d => c.die == d
  | .allCores => true
  | .rect d r0 c0 r1 c1 => c.die == d && decide (r0.val ≤ c.lc.val / 8) && decide (c.lc.val / 8 ≤ r1.val)
    && decide (c0.val ≤ c.lc.val % 8) && decide (c.lc.val % 8 ≤ c1.val)
  | .dieNodes => false

/-- True of a packet for a logical core of die `d` that no position carries (R46). -/
def absentHere (s : State) (d : DieId) (p : CtlPkt) : Bool :=
  match p.scope, p.dst with
  | none, .core c => c.die == d && !corePresent s c
  | _, _ => false

/-- A packet for an absent core meets the die's translation (R46, R47): a request is answered from the die node as an address fault;
another packet ends there, and is logged. -/
def absentReply (s : State) (d : DieId) (p : CtlPkt) : State :=
  match p.body with
  | .rdreq tag m fill => (addrFault s p.src m).send (.dieNode d) p.src (.rdrsp tag true (List.replicate (if fill then 256 else 4) 255))
  | .wrreq tag m _ => (addrFault s p.src m).send (.dieNode d) p.src (.wrrsp tag false)
  | _ => s.lg LogKind.absentCore (dieN d.val) [nodeNum p.src, nodeNum p.dst, p.ty]

/-- The outputs a head flit takes at a position: a broadcast goes west along row 7, north up each column and to its targets; any
other packet in the order its source chose, to the position FT_LMAP gives at this moment; none for an absent core of this die (R46). -/
def outsAt (s : State) (d : DieId) (r k : Nat) (p : CtlPkt) : List Nat :=
  match p.scope with
  | some sc =>
    (if r = 7 ∧ 0 < k then [pW] else []) ++ (if 0 < r then [pN] else [])
      ++ (match posCore s d r k with
        | some c => if inScope sc c then [pLoc] else []
        | none => [])
  | none =>
    if absentHere s d p then []
    else
    let t := meshPos s d p.dst
    let row := if k < t.2 then some pE else if t.2 < k then some pW else none
    let col := if r < t.1 then some pS else if t.1 < r then some pN else none
    match if p.colFirst then col.orElse fun _ => row else row.orElse fun _ => col with
    | some o => [o]
    | none => match p.dst with
      | .core c => if c.die = d then [pLoc] else [pS]
      | _ => [pS]

/-- Routes the front flit of a buffer that is ready: a head by its packet, a body flit as its head; one without an output is
dropped, as is a flit of a packet that the router drops (R320). -/
def routeFront (s : State) (d : DieId) (r k b : Nat) : State :=
  let key := routerKey d r k
  let x := s.cr key
  match smGet [] x.bufs b with
  | [] => s
  | f :: l =>
    if s.hclk < f.at_ then s
    else if x.drop.contains f.pkt.id then s.setCr key { x with
      bufs := smSet [] x.bufs b l, drop := if f.k = f.pkt.len then x.drop.filter (· ≠ f.pkt.id) else x.drop }
    else if f.todo.isSome then s
    else
      let o := if f.k = 0 then outsAt s d r k f.pkt else smGet [] x.route b
      if o.isEmpty then
        let t := s.setCr key { x with bufs := smSet [] x.bufs b l, route := smSet [] x.route b [] }
        if f.k = 0 ∧ absentHere s d f.pkt then absentReply t d f.pkt else t
      else s.setCr key { x with bufs := smSet [] x.bufs b ({ f with todo := some o } :: l), route := smSet [] x.route b o }

/-- The buffers of a channel (0 high-priority, 1 normal) whose front flit waits for an output. -/
def waitingAt (s : State) (x : CtlRouter) (o chan : Nat) : List (Nat × CtlFlit) :=
  (List.range 15).filterMap fun b =>
    match smGet [] x.bufs b with
    | [] => none
    | f :: _ => if decide (b % 3 = 0) == decide (chan = 0) && decide (f.at_ ≤ s.hclk) && (f.todo.getD []).contains o
      then some (b, f) else none

/-- True when a packet was sent before another on its way between the same nodes (R316): a broadcast keeps its order with what its
source sends to any node. -/
def sentBefore (p q : CtlPkt) : Bool := decide (p.id < q.id) && p.src == q.src && (p.dst == q.dst || p.scope.isSome || q.scope.isSome)

/-- True when the head flit in buffer `b` may go: none of its input's other normal buffer was sent before it (R316). -/
def inOrder (x : CtlRouter) (b : Nat) (f : CtlFlit) : Bool :=
  b % 3 == 0 || !(smGet [] x.bufs (if b % 3 = 1 then b + 1 else b - 1)).any fun g => sentBefore g.pkt f.pkt

/-- The front flit of an input that an output takes: of two normal buffers the one that came first (DESIGN CHOICE,
notes/assumptions/101). -/
def oldestHead : List (Nat × CtlFlit) → Option (Nat × CtlFlit)
  | [] => none
  | p :: r => match oldestHead r with
    | some q => if q.2.at_ < p.2.at_ then some q else some p
    | none => some p

/-- The buffer an output serves on a channel: that of the packet it is sending, else a head flit in round robin of the inputs, after the
one it served last (R314). -/
def pickBuf (s : State) (x : CtlRouter) (o chan : Nat) : Option (Nat × CtlFlit) :=
  let l := waitingAt s x o chan
  match smGet none x.lock (2 * o + chan) with
  | some b => l.find? fun p => p.1 == b.1
  | none =>
    let heads := l.filter fun p => p.2.k == 0 && inOrder x p.1 p.2
    let last := smGet 4 x.last (2 * o + chan)
    match heads.find? fun p => decide (last < p.1 / 3) with
    | some p => oldestHead (heads.filter fun q => q.1 / 3 == p.1 / 3)
    | none => match heads.head? with
      | some p => oldestHead (heads.filter fun q => q.1 / 3 == p.1 / 3)
      | none => none

/-- The neighbour of a position by an output, with the input it enters there. -/
def meshNext (r k o : Nat) : Nat × Nat × Nat :=
  if o = pN then (r - 1, k, pS) else if o = pE then (r, k + 1, pW) else if o = pS then (r + 1, k, pN) else (r, k - 1, pE)

/-- True of a TYPE whose loss cannot be reconstructed (R321): VERDICT, TRAP, ERROR and CTRL. -/
def unrestored (ty : Nat) : Bool := ty == 0x01 || ty == 0x02 || ty == 0x03 || ty == 0x07

/-- A packet is lost: what its loss entails is noted (R321, R382). -/
def losePacket (s : State) (p : CtlPkt) : State :=
  { s with ctl := { s.ctl with lost := s.ctl.lost || unrestored p.ty, lostPz := s.ctl.lostPz || p.ty == 0x26 } }

/-- True of a position that a packet passes after a router: its path in the order chosen, or of a broadcast the branches behind it. -/
def behind (s : State) (d : DieId) (a : Nat × Nat) (p : CtlPkt) (q : Nat × Nat) : Bool :=
  q != a && match p.scope with
    | some _ => (q.2 == a.2 && decide (q.1 < a.1)) || (a.1 == 7 && decide (q.2 < a.2))
    | none =>
      let b := meshPos s d p.dst
      let turn := if p.colFirst then (b.1, a.2) else (a.1, b.2)
      let on := fun x y : Nat × Nat => (span x.1 y.1).contains q.1 && (span x.2 y.2).contains q.2
      on a turn || on turn b

/-- What has gone on of a packet whose flit `k0` a router drops ends behind it, with the outputs it holds (DEDUCED,
notes/assumptions/101). -/
def cutPacket (s : State) (d : DieId) (r k : Nat) (p : CtlPkt) (k0 : Nat) : State :=
  { s with ctl := { s.ctl with
    routers := s.ctl.routers.map fun e =>
      if e.1 / 80 == d.val && behind s d (r, k) p (e.1 % 80 / 10, e.1 % 10) then
        (e.1, { e.2 with
          bufs := e.2.bufs.filterMap fun b =>
            let l := b.2.filter fun g => !(g.pkt.id == p.id && decide (g.k < k0))
            if l.isEmpty then none else some (b.1, l)
          lock := e.2.lock.filter fun b => match b.2 with
            | some n => n.2 != p.id
            | none => true })
      else e } }

/-- A flit leaves a router by an output: at LOC and at the die node the last flit of a packet completes it; a hop takes 4 NCLK, and a
failed link passes no flit (R28). -/
def leave (s : State) (d : DieId) (r k o : Nat) (f : CtlFlit) : State :=
  if o = pLoc then
    if f.k = f.pkt.len then
      match posCore s d r k with
      | some c => landAt s (.core (match f.pkt.scope with | some _ => c | none => (match f.pkt.dst with | .core t => t | _ => c))) f.pkt 6
      | none => s
    else s
  else if o = pS ∧ r = 7 ∧ k = 9 then
    if f.k = f.pkt.len then arriveAt s (.dieNode d) f.pkt else s
  else
    let n := meshNext r k o
    if controlCut s d (r, k) (n.1, n.2.1) then losePacket s f.pkt
    else pushFlit s (routerKey d n.1 n.2.1) n.2.2 { f with at_ := s.hclk + 4 * nclkDiv s }

/-- One output of a router sends at most one flit: a high-priority flit before a normal one, which it displaces (CN_PREEMPT). -/
def serveOut (s : State) (d : DieId) (r k o : Nat) : State :=
  let key := routerKey d r k
  let x := s.cr key
  let h := pickBuf s x o 0
  let n := pickBuf s x o 1
  let s0 := match h, n, posCore s d r k with
    | some _, some _, some c => s.bump Reg.CN_PREEMPT_COUNT (coreU c)
    | _, _, _ => s
  match h.orElse fun _ => n with
  | none => s0
  | some (b, f) =>
    let chan := if h.isSome then 0 else 1
    let left := (f.todo.getD []).erase o
    let q := (smGet [] x.bufs b).drop 1
    let y := { x with
      bufs := smSet [] x.bufs b (if left.isEmpty then q else { f with todo := some left } :: q)
      lock := smSet none x.lock (2 * o + chan) (if f.k = f.pkt.len then none else some (b, f.pkt.id))
      last := smSet 4 x.last (2 * o + chan) (b / 3) }
    leave (s0.setCr key y) d r k o f

/-- One NCLK of a router; one that is marked failed drops what it holds (R309). -/
def routerNclk (s : State) (key : Nat) : State :=
  let d : DieId := Fin.ofNat 4 (key / 80)
  let r := key % 80 / 10
  let k := key % 10
  if s.rb Reg.BT_CLKSTAT_STOPPED d.val then s
  else if routerFailed s d.val r k then
    (s.cr key).bufs.foldl (fun t b => b.2.foldl (fun t f =>
      cnErr (cutPacket (losePacket t f.pkt) d r k f.pkt f.k) d.val (nodeNum f.pkt.src) f.pkt.ty (b.1 / 3) false) t) (s.setCr key {})
  else (List.range 5).foldl (fun t o => serveOut t d r k o) ((List.range 15).foldl (fun t b => routeFront t d r k b) s)

/-! ## Crossings (R310) -/

/-- The node that holds a port of a cane. -/
def portNode : PortId → Option NodeId
  | .die d _ => some (.dieNode d)
  | .hub _ => some (.hub 4)
  | .stack k => some (.stack k)
  | .span _ => none

/-- A control flit reaches a port in a LINK beat: the last one of a packet brings it to the port's node. -/
def landCtrl (s : State) (p : PortId) (f : CtlFlit) : State :=
  match portNode p with
  | some n => if f.k = f.pkt.len then arriveAt s n f.pkt else s
  | none => s

/-- The control flits that wait at a die's CH for other dies take the ring when CH retrains (R414); the hub's wait. -/
def leaveCh (s : State) (d : DieId) : State :=
  [0, 1].foldl (fun t c =>
    let a := 2 * portKey (.die d 0) + c
    let b := 2 * portKey (.die d 3) + c
    let l := smGet [] t.ctl.cross a
    let go := fun f : CtlFlit => (nodeDie f.pkt.dst).isSome
    { t with ctl := { t.ctl with
      cross := smSet [] (smSet [] t.ctl.cross a (l.filter fun f => !go f)) b (smGet [] t.ctl.cross b ++ l.filter go) } }) s

/-! ## Arrival -/

/-- The command a packet becomes at a node; none where the spec gives the node no command for it, and for PURGE, which has its effect on
every queue manager before the records that follow it (R362, R549; notes/assumptions/104). -/
def arrival (s : State) (n : NodeId) (p : CtlPkt) : Option Instr :=
  let w := BitVec.ofNat 32
  match p.body, n with
  | .verdict v, .core c => some (.verdict (if gatherOf s c = some v.g then .core c else match gatherOf s c with
      | some g => .gather g
      | none => .core c) v)
  | .verdict v, .hub _ => some (.verdict .slots v)
  | .trap code _ info own, .dieNode _ => match p.src with
    | .core c => some (.trapPacket c code info own)
    | _ => none
  | .report r, .hub _ => some (.error (.hub 2) (.record r))
  | .fault e, .hub _ => some (.error (.hub 2) e)
  | .fault e, .dieNode d => some (.error (.die d) e)
  | .scredit i k, n => some (.scredit n (Fin.ofNat 32768 i) k)
  | .handleCreate h ring depth lines, n => some (.handleCreate n (w h) ring depth lines)
  | .handleDestroy h, n => some (.handleDestroy n (w h))
  | .handleAck h f, .core c => some (.handleAck c (w h) f)
  | .intr cause, n => some (.intr n cause)
  | .ctrl cmd, n => some (.ctrl n cmd)
  | .qmsg m, .core c => some (.qmsg c m)
  | .flush h, .core c => some (.flush c (w h))
  | .qcredit h e l, n => some (.qcredit n (w h) e l)
  | .rdreq tag m fill, _ => some (.rdreq p.src (BitVec.ofNat 12 tag) (BitVec.ofNat 52 m) fill)
  | .wrreq tag m data, _ => some (.wrreq p.src (BitVec.ofNat 12 tag) (BitVec.ofNat 52 m) data)
  | .rdrsp tag fault data, .core c => some (.rdrsp c (BitVec.ofNat 12 tag) fault data)
  | .wrrsp tag ok, .core c => some (.wrrsp c (BitVec.ofNat 12 tag) ok)
  | .parison k, .core c =>
    let r := Fin.ofNat 8 (c.lc.val / 8)
    let q := Fin.ofNat 8 (c.lc.val % 8)
    some (.parison p.src { k with scope := .rect c.die r q r q })
  | .parison k, .dieNode d => if k.dieSpace && k.die == d then some (.parison p.src k) else none
  | .lost l, .stack k => some (.layerLost k (Fin.ofNat 1024 l))
  | _, _ => none

/-- A packet reaches its node: its command joins the queue; the report of a core that has halted is noted (R215). -/
def landOne (s : State) (n : NodeId) (p : CtlPkt) : State :=
  match arrival s n p with
  | some i => { s with pending := s.pending ++ [i] }
  | none => match p.body with
    | .error k args => s.lg k (nodeNum n) args
    | _ => s

/-- The packets whose time has come reach their nodes, in the order they left the network. -/
def landDue (s : State) : State :=
  let due := s.ctl.land.filter fun e => decide (e.1 ≤ s.hclk)
  due.foldl (fun t e => landOne t e.2.1 e.2.2)
    { s with ctl := { s.ctl with land := s.ctl.land.filter fun e => decide (s.hclk < e.1) } }

/-- One HCLK of the control network: what has been sent is taken, and at an NCLK nodes inject and routers move their flits. Flits between
dies cross in the LINK beats of their ports (R310, R401). -/
def controlTick (s : State) : State :=
  let s1 := landDue (intake s)
  if s1.hclk % nclkDiv s1 ≠ 0 then s1
  else
    let nodes := ((s1.ctl.waitH ++ s1.ctl.waitN).map Prod.fst).eraseDups
    let s2 := nodes.foldl injectNode s1
    (s2.ctl.routers.map Prod.fst).foldl routerNclk s2

/-- The network after a reset: nothing in it, and nothing sent before is still to take. -/
def freshControl (s : State) : CtlX := { taken := s.out.length, next := s.ctl.next }

/-- The network after a die's reset: nothing in its mesh, at its nodes or on its way to them. -/
def dropDieControl (s : State) (d : DieId) : CtlX :=
  let x := s.ctl
  let mine := fun n : Nat => decide (n < 512) && nodeCollector n == d.val
  { x with
    waitH := x.waitH.filter fun p => !mine p.1, waitN := x.waitN.filter fun p => !mine p.1
    sent := x.sent.filter fun p => !mine p.1, routers := x.routers.filter fun p => p.1 / 80 != d.val
    cross := x.cross.filter fun p => p.1 / 18 != d.val, land := x.land.filter fun e => !mine (nodeNum e.2.1) }

/-! ## Errors (R320) -/

/-- The router at a position drops the packet whose flit stands at an input, and every later flit of it (R320); of a broadcast the other
branches go on. CN_ERR of the die records its header and the port, or the port alone where the header itself is lost. Where no flit stands
at the input the event cannot happen, and nothing changes (notes/assumptions/9). -/
def dropControl (s : State) (d : DieId) (r k port : Nat) (hdrUe : Bool) : State :=
  let x := s.cr (routerKey d r k)
  match ([0, 1, 2].filterMap fun c => (smGet [] x.bufs (3 * port + c)).head?).head? with
  | none => s
  | some f =>
    let mine := fun g : CtlFlit => g.pkt.id == f.pkt.id
    let last := x.bufs.any fun b => b.2.any fun g => mine g && g.k == f.pkt.len
    let y : CtlRouter := { x with
      bufs := x.bufs.filterMap fun b => let l := b.2.filter fun g => !mine g; if l.isEmpty then none else some (b.1, l)
      lock := x.lock.filter fun b => match b.2 with
        | some n => n.2 != f.pkt.id
        | none => true
      drop := if last then x.drop else f.pkt.id :: x.drop }
    let s1 := cutPacket (losePacket (s.setCr (routerKey d r k) y) f.pkt) d r k f.pkt f.k
    cnErr s1 d.val (nodeNum f.pkt.src) f.pkt.ty port hdrUe

end Sys2Proof.Machine
end

