-- ==== Sys2Proof/Machine/Lehr.lean ====
section
/-! DEFINITION. The die Lehr's operations that other units use (R503, R510-R521): the set point of VDDL, requests of clock
ratios, hints, the choice of a core's power state, power-ups and wakes, and what waits for a sleeping core. -/

namespace Sys2Proof.Machine

/-- A die's Lehr beside its registers; the module Lehr is number 4. -/
def State.pw (s : State) (d : Nat) : PowerX := smGet {} s.power d

/-- Replaces a Lehr's state. -/
def State.setPw (s : State) (d : Nat) (x : PowerX) : State := { s with power := smSet {} s.power d x }

/-- The gathers the parison defines on a die. -/
def gathersOn (s : State) (d : DieId) : List Gather := (dieGathers d).filter fun g => gatherDefined s g

/-- The VMIN of a ratio code (R526). -/
def vminOf (s : State) (d r : Nat) : Nat :=
  match r with
  | 0 => s.rd Reg.LH_VMIN_VMIN0 d
  | 1 => s.rd Reg.LH_VMIN_VMIN1 d
  | 2 => s.rd Reg.LH_VMIN_VMIN2 d
  | _ => s.rd Reg.LH_VMIN_VMIN3 d

/-- The faster of a gather's applied and requested ratio (R503). -/
def fastRatio (s : State) (g : Gather) : Nat :=
  min (s.rd Reg.LH_GACLK_APPLIED g.die.val g.idx.val) (s.rd Reg.LH_GACLK_REQ g.die.val g.idx.val)

/-- The set point before its limit, with a margin offset (R503). -/
def vsetRaw (s : State) (d : DieId) (crz : Nat) : Nat :=
  let base := match gathersOn s d with
    | [] => vminOf s d.val 3
    | l => l.foldl (fun v g => max v (vminOf s d.val (fastRatio s g))) 0
  base + crz + s.rd Reg.LH_VDDL_BOOST d.val

/-- VSET (R503); without the die's clock the regulators hold their set points (R525). -/
def updVset (s : State) (d : DieId) : State :=
  if s.rb Reg.BT_CLKSTAT_STOPPED d.val then s
  else s.wr Reg.LH_VDDL_VSET d.val (min (s.rd Reg.LH_VMAX_VMAX d.val) (vsetRaw s d (s.rd Reg.LH_VDDL_CRZOFF d.val)))

/-- Sets REQ of a gather and, with it, PENDING and the set point (R59, R503). -/
def setReq (s : State) (g : Gather) (code : Nat) : State :=
  let d := g.die.val
  let i := g.idx.val
  updVset ((s.wr Reg.LH_GACLK_REQ d code i).wb Reg.LH_GACLK_PENDING d (code != s.rd Reg.LH_GACLK_APPLIED d i) i) g.die

/-- The ratio a gather's cap demand stands at: its ceiling until the Lehr has moved it (R523). -/
def demOf (s : State) (g : Gather) : Nat :=
  (smGet none (s.pw g.die.val).dem g.idx.val).getD (s.rd Reg.LH_GACLK_CEIL g.die.val g.idx.val)

/-- Sets REQ to the slower of the cap's and the margin's demand (R523), where that changes it. -/
def reqFromDemand (s : State) (g : Gather) : State :=
  let v := max (demOf s g) (smGet 0 (s.pw g.die.val).mdem g.idx.val)
  if v = s.rd Reg.LH_GACLK_REQ g.die.val g.idx.val then s else setReq s g v

/-! ## The stop for a ratio change (R56-R58) -/

/-- The stop ends: the ratio is in force; a request written meanwhile waits for the next phase boundary. -/
def finishStop (s : State) (g : Gather) (code : Nat) : State :=
  let d := g.die.val
  let i := g.idx.val
  let s1 := (s.setGx g { s.gx g with stop := none, changed := true }).wb Reg.LH_GACLK_STOPPING d false i
  let s2 := (s1.wr Reg.LH_GACLK_APPLIED d code i).wb Reg.LH_GACLK_PENDING d (s.rd Reg.LH_GACLK_REQ d i != code) i
  updVset (s2.bump Reg.LH_GACLK_CHANGES d 1 i) g.die

/-- The stop begins: the Lehr sends the new ratio to the gather's cores that have ACLK, on the high-priority channel; each has its ACLK
gated until it reports done (R57). -/
def startStop (s : State) (g : Gather) (code : Nat) : State :=
  let cs := (gatherCores s g).filter fun c =>
    corePresent s c && !(s.cx c).dead && decide (s.rd Reg.LH_CSTATE_STATE (coreU c) < 2)
  if cs.isEmpty then finishStop s g code
  else
    let s1 := (s.setGx g { s.gx g with stop := some (code, cs.map fun c => c.lc.val) }).wb Reg.LH_GACLK_STOPPING g.die.val true
      g.idx.val
    cs.foldl (fun t c => t.send (.dieNode g.die) (.core c) (.ctrl (.ratio g))) s1

/-- A core has reloaded its divider, ungates its ACLK and reports done on the sync network; with the last report the stop ends. -/
def ratioDone (s : State) (g : Gather) (c : CoreId) : State :=
  match (s.gx g).stop with
  | none => s
  | some (code, l) =>
    if c.die ≠ g.die ∨ !l.contains c.lc.val then s
    else
      let r := l.filter (· ≠ c.lc.val)
      if r.isEmpty then finishStop s g code else s.setGx g { s.gx g with stop := some (code, r) }

/-! ## Islands and positions -/

/-- The island of a position (R40). -/
def islandOf (r c : Nat) : Nat := 4 * (2 * (r / 4) + c / 5) + r % 4

/-- The island of a logical core's position. -/
def islandOfCore (s : State) (c : CoreId) : Nat :=
  islandOf (c.lc.val / 8) (pcolOf s c.die.val (c.lc.val / 8) (c.lc.val % 8))

/-- The present logical cores of an island, in column order. -/
def islandCores (s : State) (d : DieId) (n : Nat) : List CoreId :=
  (dieCores d).filter fun c => corePresent s c && islandOfCore s c == n

/-- The power state of a core (R527). -/
def cstateOf (s : State) (c : CoreId) : Nat := s.rd Reg.LH_CSTATE_STATE (coreU c)

/-- The row and columns of an island (R40). -/
def islandRow (n : Nat) : Nat := n / 8 * 4 + n % 4
def islandCols (n : Nat) : List Nat := (List.range 5).map fun k => n / 4 % 2 * 5 + k

/-! ## Hints (R511, R512) -/

/-- The hint of a phase of a gather. -/
def hintOf (s : State) (g : Gather) (ph : Nat) : Nat :=
  if ph % 2 = 0 then s.rd Reg.LH_HINT_HINT0 g.die.val g.idx.val (ph / 2)
  else s.rd Reg.LH_HINT_HINT1 g.die.val g.idx.val (ph / 2)

/-- BOOST of a die: the largest of its gathers' boosts (R512). -/
def updBoost (s : State) (d : DieId) : State :=
  updVset (s.wr Reg.LH_VDDL_BOOST d.val ((s.pw d.val).boost.foldl (fun v p => max v p.2) 0)) d

/-- A phase starts that was hinted less than 12 µs ago: its lead fell short (R512; DEDUCED, the lead is taken from the start
of the one phase to the start of the next). -/
def lateHint (s : State) (g : Gather) : State :=
  match smGet none (s.pw g.die.val).hints g.idx.val with
  | some t => if s.hclk - t < 33600 then s.wb Reg.LH_STAT_LATEHINT g.die.val true else s
  | none => s

/-- Phase `ph` of a gather starts: the hint of the next phase may ask for a boost (R512). No phase of the model's regulator is
ever shed, which R504 leaves to it, so the hint has none to enable again. -/
def phaseHint (s : State) (g : Gather) (ph nph : Nat) : State :=
  let h := hintOf s g (if ph + 1 ≥ nph then 0 else ph + 1)
  let s1 := lateHint s g
  let x := s1.pw g.die.val
  if bit h 12 then
    updBoost (s1.setPw g.die.val { x with
      boost := smSet 0 x.boost g.idx.val (min (bits h 0 4) 4), hints := smSet none x.hints g.idx.val (some s1.hclk) }) g.die
  else s1.setPw g.die.val { x with hints := smSet none x.hints g.idx.val none }

/-! ## Core power states (R516, R517) -/

/-- The main switch of an island opens when every position of it is in C4 or fenced (R505). -/
def restIsland (s : State) (d : DieId) (n : Nat) : State :=
  let r := islandRow n
  let asleep := (islandCols n).all fun k =>
    ((dieCores d).any fun e => e.lc.val / 8 == r && pcolOf s d.val r (e.lc.val % 8) == k && cstateOf s e == 4)
      || bit (s.rd Reg.FT_ROWMAP_FENCED d.val r) k
  if s.rd Reg.LH_ISL_HDR d.val n = 0 ∧ asleep then s.wr Reg.LH_ISL_HDR d.val 2 n else s

/-- A core enters a power state: from C2 on its tiles are cleared and its router passes through (R97, R295), and in C4 its island may
rest. Of a pass in its array block R97 says nothing
(DESIGN CHOICE, notes/assumptions/87): one that was loaded loads its tile again, one that was streaming goes on after the wake over
a tile of unknown contents. -/
def enterState (s : State) (c : CoreId) (st : Nat) : State :=
  let u := coreU c
  let s1 := (s.wr Reg.LH_CSTATE_STATE u st).wr Reg.LH_CSTATE_LAST u st
  if st < 2 then s1
  else
    let again := fun p : Pass => if p.stage == .loaded then { p with stage := .waiting } else p
    let s2 := ((s1.setCx c { s1.cx c with tile := {}, shadow := none, passes := (s1.cx c).passes.map again }).wb Reg.CA_STAT_XVALID u false).wb
      Reg.DN_RSTAT_PASSTHRU u true
    if st < 4 then s2 else restIsland s2 c.die (islandOfCore s2 c)

/-- The state a core chooses for a gap of `gap` µs (R517): the deepest whose wake, break-even and margin fit. -/
def chooseState (gap margin : Nat) (c4 : Bool) : Nat :=
  if c4 && decide (2000 + margin ≤ gap) then 4
  else if 440 + margin ≤ gap then 3
  else if 22 + margin ≤ gap then 2
  else 1

/-- A core waits at PHSTART after a phase (R517): the gap its hint declares, less the time since its own arrival at the
phase-ending barrier, chooses its state. -/
def restAt (s : State) (c : CoreId) (g : Gather) (next nph : Nat) : State :=
  match (s.cx c).endAt with
  | none => s
  | some t0 =>
    let p := if next = 0 then nph - 1 else next - 1
    let gapF := bits (hintOf s g p) 4 8
    let gap := 16 * gapF - (s.hclk - t0) / 2800
    let st := chooseState gap (s.rd Reg.LH_CFG_MARGIN_US c.die.val)
      (s.rb Reg.PZ_GATHER_C4OK g.die.val g.idx.val && gapF == 0xFF)
    enterState (s.wr Reg.LH_CSTATE_GAP (coreU c) (min gap 0xFFFF)) c st

/-! ## Power-ups (R514, R515) -/

/-- The phase group of an island. -/
def groupOf (n : Nat) : Nat := n / 2

/-- The inrush of a power-up in A (R514). -/
def inrush (p : PowerUp) : Nat := (if p.main then 60 else 0) + 30 * p.cores.length

/-- The switches of a power-up have closed: spare positions it names are awake. -/
def powerDone (s : State) (d : Nat) (p : PowerUp) : State :=
  let x := s.pw d
  let y : DieX := smGet {} s.dies d
  let up := (p.cores.filter (64 ≤ ·)).map (· - 64)
  let t := { s.setPw d { x with ups := x.ups.erase p } with dies := smSet {} s.dies d { y with awake := y.awake ++ up } }
  (t.wr Reg.LH_ISL_HDR d 0 p.isl).wb Reg.LH_ISL_WAIT d ((t.pw d).ups.any fun q => q.isl == p.isl) p.isl

/-- Considers the first power-up of a phase group: admitted, it closes its switches, with the main switch where that is open;
otherwise it waits (R514). -/
def consider (s : State) (d k : Nat) : State :=
  match (s.pw d).ups.find? fun p => groupOf p.isl == k with
  | none => s
  | some q =>
    let p := { q with main := q.main && s.rd Reg.LH_ISL_HDR d q.isl == 2 }
    if q.staged then s
    else if s.rd Reg.LH_ISL_IEST d (2 * k) + s.rd Reg.LH_ISL_IEST d (2 * k + 1) + inrush p ≤ s.rd Reg.LH_CFG_GLIM d then
      powerDone s d q
    else s.wb Reg.LH_ISL_WAIT d true p.isl

/-- Requests the power-up of what a list names in an island (R514): logical cores, and spare positions as 64 + 10r + c. -/
def requestUp (s : State) (d : DieId) (n : Nat) (l : List Nat) : State :=
  if l.isEmpty ∨ s.rd Reg.LH_ISL_HDR d.val n = 3 then s
  else
    let x := s.pw d.val
    let first := x.ups.all fun p => groupOf p.isl != groupOf n
    let t := s.setPw d.val { x with ups := x.ups ++ [⟨n, s.rd Reg.LH_ISL_HDR d.val n == 2, l, false⟩] }
    if first then consider t d.val (groupOf n) else t.wb Reg.LH_ISL_WAIT d.val true n

/-- Wakes spare or quarantined positions (each 10r + c) for a shift or a scan (R36, R514). -/
def wakeSpares (s : State) (d : DieId) (ps : List Nat) : State :=
  (List.range 16).foldl (fun t n =>
    requestUp t d n ((ps.filter fun p => islandOf (p / 10) (p % 10) == n && !(t.dx d).awake.contains p).map (64 + ·))) s

/-- Positions go back to C3 (R36). -/
def restSpares (s : State) (d : DieId) (ps : List Nat) : State :=
  s.setDx d { s.dx d with awake := (s.dx d).awake.filter fun p => !ps.contains p }

/-- True while a power-up of one of some positions is not complete. -/
def sparesRising (s : State) (d : DieId) (ps : List Nat) : Bool :=
  (s.pw d.val).ups.any fun u => ps.any fun p => u.cores.contains (64 + p)

/-- Wakes cores (R519, R520): from C3 and C4 a power-up of each island concerned is requested. `late` is true for the
release of a phase. -/
def startWakes (s : State) (d : DieId) (cs : List CoreId) (late : Bool) : State :=
  let low := cs.filter fun c => decide (2 ≤ cstateOf s c)
  let deep := low.filter fun c => (s.cx c).waking.isNone
  let s1 := low.foldl (fun t c => t.setCx c { t.cx c with waking := some (late || (t.cx c).waking.getD false) }) s
  (List.range 16).foldl (fun t n =>
    requestUp t d n ((deep.filter fun c => decide (3 ≤ cstateOf s c) && islandOfCore s c == n).map fun c => c.lc.val)) s1

/-- True when every core of a list is awake (C0 or C1). -/
def allAwake (s : State) (cs : List CoreId) : Bool := cs.all fun c => decide (cstateOf s c < 2)

/-- A packet for a core (R520): in C3 or C4 it waits and starts a wake; otherwise it takes effect. On a die without its clock it does
not arrive (R65). -/
def toCore (s : State) (c : CoreId) (src : NodeId) (p : Packet) (k : State → State) : State :=
  if s.rb Reg.BT_CLKSTAT_STOPPED c.die.val then s
  else if cstateOf s c < 3 then k s
  else startWakes { s with ejected := smSet [] s.ejected (coreU c) (smGet [] s.ejected (coreU c) ++ [(nodeNum src, p)]) }
    c.die [c] false

end Sys2Proof.Machine
end

