-- ==== Sys2Proof/Machine/Streams.lean ====
section
/-! DEFINITION. Streams of the scheduled data network (R274-R294, R626, R627): descriptors, runs, credits, the routers
and their folds, the stream instructions (R209) and the fallback swap (R297). -/

namespace Sys2Proof.Machine

/-! ## Descriptors (R280, R281) -/

/-- A field of stream `i` on a die. -/
def sd (s : State) (d : DieId) (i : Nat) (F : Field) : Nat := s.rd F d.val i

/-- The source and destination addresses of a stream. -/
def srcMga (s : State) (d : DieId) (i : Nat) : Nat := sd s d i Reg.DN_DESC_SRC_LO + 2 ^ 32 * sd s d i Reg.DN_DESC_SRC_HI
def dstMga (s : State) (d : DieId) (i : Nat) : Nat := sd s d i Reg.DN_DESC_DST_LO + 2 ^ 32 * sd s d i Reg.DN_DESC_DST_HI

/-- The endpoint kinds (R281). -/
def skSp : Nat := 1
def skStk : Nat := 2
def skWpt : Nat := 3
def skHost : Nat := 4

/-- Lines and flits of a run (R282). -/
def runLines (s : State) (d : DieId) (i : Nat) : Nat := sd s d i Reg.DN_DESC_ROWLEN * sd s d i Reg.DN_DESC_ROWS
def runFlits (s : State) (d : DieId) (i : Nat) : Nat := (runLines s d i + 1) / 2

/-- The gather whose stream range holds an index (R373). -/
def streamGather (s : State) (i : Nat) : Option Gather :=
  (allDies.flatMap dieGathers).find? fun g => gatherDefined s g
    && decide (s.rd Reg.PZ_GATHER_STRM_BASE g.die.val g.idx.val ≤ i)
    && decide (i < s.rd Reg.PZ_GATHER_STRM_BASE g.die.val g.idx.val + s.rd Reg.PZ_GATHER_STRM_CNT g.die.val g.idx.val)

/-- The owner of a stream: the logical core its descriptor names, on the die of the gather that owns the stream
(R280, R373). -/
def ownerCore (s : State) (d : DieId) (i : Nat) : CoreId :=
  ⟨((streamGather s i).map Gather.die).getD d, Fin.ofNat 64 (sd s d i Reg.DN_DESC_OWNER)⟩

/-- The fields of a descriptor that every die of a stream holds alike (R299): all but PEER and RANK. -/
def sharedFields : List Field :=
  [Reg.DN_DESC_TRIG, Reg.DN_DESC_INDEXED, Reg.DN_DESC_IDXSIDE, Reg.DN_DESC_RCACHE, Reg.DN_DESC_FOLD, Reg.DN_DESC_FFMT,
   Reg.DN_DESC_FFORM, Reg.DN_DESC_VALID, Reg.DN_DESC_OWNER, Reg.DN_DESC_SRCK, Reg.DN_DESC_DSTK, Reg.DN_DESC_SRC_LO,
   Reg.DN_DESC_SRC_HI, Reg.DN_DESC_ROWLEN, Reg.DN_DESC_DST_LO, Reg.DN_DESC_DST_HI, Reg.DN_DESC_CREDIT, Reg.DN_DESC_ROWS,
   Reg.DN_DESC_IDXBLK, Reg.DN_DESC_SSTRIDE, Reg.DN_DESC_DSTRIDE, Reg.DN_DESC_START]

/-- The descriptors of the same stream on the neighbouring dies of a die: those its PEER names (R278, R299). -/
def crossings (s : State) (p : DieId × Nat) : List (DieId × Nat) :=
  let j := sd s p.1 p.2 Reg.DN_DESC_PEER
  if !s.rb Reg.DN_DESC_VALID p.1.val p.2 || j == 0x7FFF then []
  else ([p.1 - 1, p.1 + 1].filter fun e => sharedFields.all fun F => sd s p.1 p.2 F == sd s e j F).map fun e => (e, j)

/-- The dies a stream touches with its index on each, the one given first (R299). -/
def family (s : State) (d : DieId) (i : Nat) : List (DieId × Nat) :=
  let grow := fun l : List (DieId × Nat) => (l.flatMap (crossings s)).foldl (fun a p => if a.contains p then a else a ++ [p]) l
  grow (grow (grow [(d, i)]))

/-- Sets a field of the status word of a stream on every die it touches (R286). -/
def setStat (s : State) (l : List (DieId × Nat)) (F : Field) (v : Nat) : State :=
  l.foldl (fun t p => t.wr F p.1.val v p.2) s

/-- Changes a stream's engines on every die it touches. -/
def mapStream (s : State) (l : List (DieId × Nat)) (f : DieId × Nat → StreamX → StreamX) : State :=
  l.foldl (fun t p => t.setSx p.1 p.2 (f p (t.sx p.1 p.2))) s

/-- The kind and address of one side of a stream. -/
def sideOf (s : State) (d : DieId) (i : Nat) (dst : Bool) : Nat × Nat :=
  if dst then (sd s d i Reg.DN_DESC_DSTK, dstMga s d i) else (sd s d i Reg.DN_DESC_SRCK, srcMga s d i)

/-- The core whose scratchpad holds a stream's index list (R283). -/
def listCore (s : State) (d : DieId) (i : Nat) : CoreId :=
  let side := sideOf s d i (sd s d i Reg.DN_DESC_IDXSIDE == 1)
  if side.1 = skSp ∨ side.1 = skWpt then mgaCore side.2 else ownerCore s d i

/-- The row number a side uses for row `j` of a run (R283). -/
def rowNo (s : State) (d : DieId) (i : Nat) (dst : Bool) (j : Nat) : Nat :=
  if sd s d i Reg.DN_DESC_INDEXED = 1 ∧ (sd s d i Reg.DN_DESC_IDXSIDE == 1) = dst then
    s.rdLe (spBase (listCore s d i) + sd s d i Reg.DN_DESC_IDXBLK * 512 + 4 * j) 4
  else j

/-- The engine that applies an index list reads the entry of each row that one of the lines begins (R243, R283). -/
def readIndex (s : State) (d : DieId) (i : Nat) (dst : Bool) (lines : List Nat) : State :=
  let len := sd s d i Reg.DN_DESC_ROWLEN
  if sd s d i Reg.DN_DESC_INDEXED = 1 ∧ (sd s d i Reg.DN_DESC_IDXSIDE == 1) = dst then
    (lines.filter fun n => n % len == 0 && decide (n < runLines s d i)).foldl (fun t n =>
      spTouch t (listCore s d i) (sd s d i Reg.DN_DESC_IDXBLK * 512 + 4 * (n / len)) 4 (if dst then rqNin else rqNout)) s
  else s

/-- True when a host range admits bytes `a` to `a + n - 1` (R497) and the endpoint issues requests (R476). -/
def hostAdmits (s : State) (a n : Nat) : Bool :=
  hostOpen s && (List.range 8).any fun k =>
    s.rb Reg.HB_HRANGE_EN 0 k && decide (s.rd64 Reg.HB_HRANGE_BASE_LO Reg.HB_HRANGE_BASE_HI 0 k ≤ a)
      && decide (a + n ≤ s.rd64 Reg.HB_HRANGE_LIMIT_LO Reg.HB_HRANGE_LIMIT_HI 0 k + 1)

/-- Bytes of a stack (R429). -/
def stackSize : Nat := 48 * 2 ^ 30

/-- The byte offset of line `n` of a run on one side, in a scratchpad, a stack or the host window; none where the row
lies outside the endpoint's populated range (R282, R283, R626). `c` is the core of a scratchpad side (R627). Of a row that straddles the
limit the lines within it are moved before the run ends (DESIGN CHOICE, notes/assumptions/31). -/
def lineOff (s : State) (d : DieId) (i : Nat) (dst : Bool) (c : CoreId) (n : Nat) : Option Nat :=
  let side := sideOf s d i dst
  let len := sd s d i Reg.DN_DESC_ROWLEN
  let stride := if dst then sd s d i Reg.DN_DESC_DSTRIDE else sd s d i Reg.DN_DESC_SSTRIDE
  let rel := 64 * (stride * rowNo s d i dst (n / len) + n % len)
  if side.1 = skSp then
    let o := mgaOff25 side.2 + rel
    if o + 64 ≤ spLimit s c then some o else none
  else if side.1 = skStk then
    let o := mgaOff36 side.2 + rel
    if o + 64 ≤ stackSize then some o else none
  else
    let o := bits side.2 0 48 + rel
    if hostAdmits s o 64 then some o else none

/-- True when a router runs in pass-through: flits that reach its LOC output are dropped, its entries with IN = LOC find
no flit (R295). -/
def passThru (s : State) (c : CoreId) : Bool := s.rb Reg.DN_RSTAT_PASSTHRU (coreU c)

/-- The entry of an output's slot table in force, as its fields V, STREAM, IN, FOLD, IN2, ALT (R275). -/
structure TabEnt where
  v : Bool
  stream : Nat
  inp : Nat
  fold : Bool
  in2 : Nat
  alt : Bool
deriving DecidableEq, Repr

/-- The entry of output `p` at a slot. -/
def tabEnt (s : State) (c : CoreId) (p slot : Nat) : TabEnt :=
  let b := bankOf s c.die.val
  let r := fun F : Field => s.rd F (coreU c) b (4096 * p + slot)
  ⟨r Reg.DN_TAB_V == 1, r Reg.DN_TAB_STREAM, r Reg.DN_TAB_IN, r Reg.DN_TAB_FOLD == 1, r Reg.DN_TAB_IN2,
   r Reg.DN_TAB_ALT == 1⟩

/-- True when a router has a fold node of a stream whose second operand is local (R627). -/
def foldsLocal (s : State) (c : CoreId) (i : Nat) : Bool :=
  (List.range 9).any fun p => (List.range (s.rd Reg.DN_FRAME_FLEN c.die.val)).any fun t =>
    let e := tabEnt s c p t
    e.v && e.fold && e.in2 == 0 && e.stream == i

/-- The source engines of a stream on a die (R281, R627). A host window's engine is the CH engine of the die into which a table
brings the stream from the hub. -/
def engines (s : State) (d : DieId) (i : Nat) : List NodeId :=
  let src := sideOf s d i false
  let own := mgaCore src.2
  if src.1 = skSp then
    (if own.die = d then [NodeId.core own] else []) ++
      (if sd s d i Reg.DN_DESC_FOLD = 1 then
        ((dieCores d).filter fun c => c != own && foldsLocal s c i).map NodeId.core
      else [])
  else if src.1 = skStk then
    (if mgaStack src.2 / 4 = d.val then [.stack (Fin.ofNat 16 (mgaStack src.2))] else [])
  else if src.1 = skHost then
    (if (List.range 4).any fun k => (tabStreams s d 0 true k).contains i then [.dieNode d] else [])
  else []

/-! ## Runs -/

/-- The credits a source engine holds (R284). -/
def creditOf (s : State) (d : DieId) (i : Nat) (n : NodeId) : Nat :=
  let x := s.sx d i
  sd s d i Reg.DN_DESC_CREDIT + smGet 0 x.back (nodeNum n) - smGet 0 x.sent (nodeNum n)

/-- The source engines of a stream on every die, each with its die and the stream's index there. -/
def allEngines (s : State) (d : DieId) (i : Nat) : List ((DieId × Nat) × NodeId) :=
  (family s d i).flatMap fun p => (engines s p.1 p.2).map fun n => (p, n)

/-- CREDIT0 of the status word: some source engine holds no credit (R286). -/
def updCredit0 (s : State) (d : DieId) (i : Nat) : State :=
  setStat s (family s d i) Reg.DN_SSTAT_CREDIT0
    (b2n ((allEngines s d i).any fun q => (s.sx q.1.1 q.1.2).active && creditOf s q.1.1 q.1.2 q.2 == 0))

/-- True when an engine may offer its next flit (R284, R288, R289, R407): a contributor of another gather into a stack also waits until its
own phase is sealed (R169). -/
def mayOffer (s : State) (d : DieId) (i : Nat) (n : NodeId) : Bool :=
  let x := s.sx d i
  x.active && x.holds.isEmpty && !x.halted.contains (nodeNum n) && creditOf s d i n != 0
    && (x.gates.all fun p => p.1 != nodeNum n || coreGateOpen s (coreOf p.1) p.2)
    && decide (smGet 0 x.sent (nodeNum n) < runFlits s d i)

/-- Releases the owner's ranges of one kind unless a trigger is pending (R285). -/
def releaseRange (s : State) (d : DieId) (i : Nat) (o : SbOwner) : State :=
  if s.rb Reg.DN_SSTAT_PENDING d.val i then s else releaseSb s (ownerCore s d i) fun q => q == o

/-- Releases every range that an owner holds for a stream (R285). -/
def releaseRun (s : State) (d : DieId) (i : Nat) : State :=
  releaseSb s (ownerCore s d i) fun o => o == .streamSrc i || o == .streamDst i || o == .streamIdx i

/-- The contributors to a fold into a stack that lie outside their owner's gather, each with the phase it is in (R289). -/
def otherGates (s : State) (d : DieId) (i : Nat) : List (Nat × Nat) :=
  if sd s d i Reg.DN_DESC_DSTK = skStk ∧ sd s d i Reg.DN_DESC_FOLD = 1 then
    (allEngines s d i).filterMap fun q => match q.2 with
      | .core c => if gatherOf s c = gatherOf s (ownerCore s d i) then none else some (coreU c, phaseTag s c)
      | _ => none
  else []

/-- True when a run waits at a commit gate (R169, R289): one bound for a stack, at that of its owner's phase or of a contributor's. -/
def gateShut (s : State) (d : DieId) (i : Nat) : Bool :=
  let x := s.sx d i
  sd s d i Reg.DN_DESC_DSTK == skStk
    && (!coreGateOpen s (ownerCore s d i) x.pseq || x.gates.any fun p => !coreGateOpen s (coreOf p.1) p.2)

/-- GATED of the status word of a stream in use (R286). -/
def updGated (s : State) (d : DieId) (i : Nat) : State :=
  setStat s (family s d i) Reg.DN_SSTAT_GATED (b2n (s.rb Reg.DN_SSTAT_ACTIVE d.val i && gateShut s d i))

/-- GATED of every stream that waits at a commit gate, after phases have been sealed. -/
def updGates (s : State) : State :=
  s.streams.foldl (fun t p =>
    let d : DieId := Fin.ofNat 4 (p.1 / 32768)
    if t.rb Reg.DN_SSTAT_GATED d.val (p.1 % 32768) then updGated t d (p.1 % 32768) else t) s

/-- A trigger of a stream (R209, R282): it awaits its START slot on every die that has a source engine of it, or is pending
behind the run in progress. -/
def trigger (s : State) (d : DieId) (i ph : Nat) : State :=
  let l := family s d i
  let gs := otherGates s d i
  if s.rb Reg.DN_SSTAT_ACTIVE d.val i then
    setStat (mapStream s l fun _ x => { x with pendSeq := ph, pendGates := gs }) l Reg.DN_SSTAT_PENDING 1
  else
    let s1 := mapStream s l fun p x => { x with armed := !(engines s p.1 p.2).isEmpty, pseq := ph, gates := gs }
    updGated (setStat s1 l Reg.DN_SSTAT_ACTIVE 1) d i

/-- Sets or clears the hold of a gather (R543); its release ends what a recovery still awaits. -/
def setHeld (s : State) (g : Gather) (on : Bool) : State :=
  let w := g.idx.val / 32
  let v := s.rd Reg.FT_GHOLD_HELD g.die.val w
  let b := 2 ^ (g.idx.val % 32)
  let s1 := s.wr Reg.FT_GHOLD_HELD g.die.val (if on then v ||| b else v - (v &&& b)) w
  if on then s1 else s1.setGx g { s1.gx g with recover := false, refetch := [] }

/-- Firmware releases a gather that it held for a recovery, once no refetch run is awaited, no fence or shift of its rows is
unfinished, and no swap is wanted on its die (R544, R546). -/
def endRecovery (s : State) (g : Gather) : State :=
  let x := s.gx g
  let d := g.die
  let rows := ((gatherCores s g).map fun c => c.lc.val / 8).eraseDups
  if x.recover && x.refetch.isEmpty && !s.rb Reg.DN_TBLSEL_PEND d.val && (s.dx d).wantSet.isNone
      && rows.all fun r => s.rd Reg.FT_ROWMAP_FENCE_REQ d.val r == 0 && (smGet none (s.dx d).shifts r).isNone then setHeld s g false
  else s

/-- Recoveries that may end, of every gather. -/
def endRecoveries (s : State) : State :=
  if s.gathers.any fun p => p.2.recover then (allDies.flatMap dieGathers).foldl endRecovery s else s

/-- A stream runs once more with the tag of its last run (R543). -/
def refetchRun (s : State) (q : Nat × Nat) : State :=
  let d : DieId := Fin.ofNat 4 q.1
  trigger s d q.2 (s.sx d q.2).pseq

/-- A run that a recovery awaits has completed (R544): the next one of its core follows; after the last the gather is released. -/
def refetched (s : State) (l : List (DieId × Nat)) : State :=
  if s.gathers.all fun p => p.2.refetch.isEmpty then s
  else
    let mine := fun q : Nat × Nat => l.any fun p => p.1.val == q.1 && p.2 == q.2
    (allDies.flatMap dieGathers).foldl (fun t g =>
      let x := t.gx g
      if !x.refetch.any fun q => q.head?.any mine then t
      else
        let next := x.refetch.filterMap fun q => if q.head?.any mine then q.tail.head? else none
        let left := (x.refetch.map fun q => if q.head?.any mine then q.tail else q).filter fun q => !q.isEmpty
        endRecovery (next.foldl refetchRun (t.setGx g { x with refetch := left })) g) s

/-- A run ends and counts as complete (R283, R285, R288): a pending trigger arms the next run and keeps the ranges held,
else they are released and ACTIVE falls. The run report reaches the hub (R479). The status word is the same on every die the
stream touches (R286, R299). -/
def finishRun (s0 : State) (d : DieId) (i : Nat) : State :=
  let l := family s0 d i
  let n := s0.rd Reg.DN_SSTAT_RUNS d.val i + 1
  let s := l.foldl (fun t p => runReported t p.1 p.2 (gatherOf s0 (ownerCore s0 d i)) (s0.sx d i).pseq n) s0
  let pend := s.rb Reg.DN_SSTAT_PENDING d.val i
  let s1 := mapStream s l fun p x => { x with
    active := false, armed := pend && !(engines s p.1 p.2).isEmpty, pseq := if pend then x.pendSeq else x.pseq
    gates := if pend then x.pendGates else [], lines := [], stopAt := none, halted := [], ran := true }
  let s2 := setStat (setStat s1 l Reg.DN_SSTAT_RUNS n) l Reg.DN_SSTAT_CREDIT0 0
  refetched (if pend then updGated (setStat s2 l Reg.DN_SSTAT_PENDING 0) d i
    else releaseRun (setStat (setStat s2 l Reg.DN_SSTAT_ACTIVE 0) l Reg.DN_SSTAT_GATED 0) d i) l

/-- A row outside its endpoint's range ends the run: the rows already moved stand (R283, R626). A run that has ended is not
ended again. -/
def endFault (s : State) (d : DieId) (i : Nat) : State :=
  if s.rb Reg.DN_SSTAT_ACTIVE d.val i then
    finishRun ((setStat s (family s d i) Reg.DN_SSTAT_FAULT 1).lg LogKind.streamFault (dieN d.val) [i]) d i
  else s

/-- A destination row outside its range ends the run; what arrives of it later is discarded (R283). -/
def endFaultAt (s : State) (d : DieId) (i : Nat) : State :=
  let t := endFault s d i
  t.setSx d i { t.sx d i with discard := true }

/-- The streams a core owns (R280, R373), each once, on a die of a source engine. -/
def ownedStreams (s : State) (c : CoreId) : List (DieId × Nat) :=
  allDies.flatMap fun d => ((List.range 32768).filter fun i =>
    s.rb Reg.DN_DESC_VALID d.val i && ownerCore s d i == c
      && ((allEngines s d i).foldl (fun n q => min n q.1.1.val) 4 == d.val)).map fun i => (d, i)

/-- A phase starts at an owner (R282, R286): RUNS restart at 0, and each stream with TRIG = 0 is triggered; a trigger
that finds another pending is dropped and logged. -/
def phaseStreams (s : State) (c : CoreId) (ph : Nat) : State :=
  (ownedStreams s c).foldl (fun t p =>
    let t1 := setStat t (family t p.1 p.2) Reg.DN_SSTAT_RUNS 0
    if sd t p.1 p.2 Reg.DN_DESC_TRIG ≠ 0 then t1
    else if t.rb Reg.DN_SSTAT_PENDING p.1.val p.2 then t1.lg LogKind.triggerDropped (dieN p.1.val) [p.2]
    else trigger t1 p.1 p.2 ph) s

/-- A flush of the owner ends the run of a stream where its phase is flushed (R209, R289): a pending trigger is cleared and the
ranges are released; flits in the network are delivered. In a fold only the owner's engine stops, and the others stall
(R301). -/
def flushStream (s : State) (c : CoreId) (phs : List Nat) (d : DieId) (i : Nat) : State :=
  let l := family s d i
  let x := s.sx d i
  if !s.rb Reg.DN_SSTAT_ACTIVE d.val i then s
  else if phs.contains x.pseq then
    let fold := sd s d i Reg.DN_DESC_FOLD == 1
    let s1 := mapStream s l fun p y => { y with
      active := y.active && fold && (engines s p.1 p.2).any (· != .core c), armed := false, stopAt := none
      halted := if fold then coreU c :: y.halted else y.halted, lines := [] }
    let s2 := setStat (setStat s1 l Reg.DN_SSTAT_ACTIVE 0) l Reg.DN_SSTAT_GATED 0
    releaseRun (setStat (setStat s2 l Reg.DN_SSTAT_PENDING 0) l Reg.DN_SSTAT_CREDIT0 0) d i
  else if s.rb Reg.DN_SSTAT_PENDING d.val i && phs.contains x.pendSeq then setStat s l Reg.DN_SSTAT_PENDING 0
  else s

/-- A flush of the owner ends its runs of the flushed phases (R289). -/
def flushStreams (s : State) (c : CoreId) (phs : List Nat) : State :=
  (ownedStreams s c).foldl (fun t p => flushStream t c phs p.1 p.2) s

/-- Hub reads of host memory (R470): a request leaves for the host. -/
def hostRead (s : State) (addr n : Nat) (w : HostWhat) : State :=
  ({ s with hostReads := s.hostReads ++ [(⟨s.hostId, addr, n, w⟩ : HostRead)], hostId := s.hostId + 1 }).emit
    (.hostRead addr n s.hostId)

/-- Requests the lines of a stack or host source up to 64 flits ahead (R300), up to the first outside its range: `fuel`
bounds the lines asked. -/
def askLines : Nat → State → DieId → Nat → State
  | 0, s, _, _ => s
  | fuel + 1, s, d, i =>
    let x := s.sx d i
    let src := sideOf s d i false
    let eng := match engines s d i with
      | n :: _ => smGet 0 x.sent (nodeNum n)
      | [] => 0
    if !x.active ∨ x.stopAt.isSome ∨ x.asked ≥ runLines s d i ∨ x.asked ≥ 2 * eng + 128 then s
    else match lineOff s d i false (mgaCore src.2) x.asked with
      | none => s.setSx d i { x with stopAt := some x.asked }
      | some o =>
        let s1 := s.setSx d i { x with asked := x.asked + 1 }
        let s1 := readIndex s1 d i false [x.asked]
        askLines fuel (if src.1 = skStk then caneReq s1 (mgaStack src.2) ⟨false, o, 64, [], .stream d.val i x.asked⟩
          else hostRead s1 o 64 (.stream d.val i x.asked)) d i

/-- The flit a run sends next, from the lines given (R271, R282). -/
def mkFlit (s : State) (d : DieId) (i f : Nat) (a b : List Byte) : Flit :=
  ⟨i, f % 65536, (s.sx d i).pseq, sd s d i Reg.DN_DESC_FFMT == 1, false, false, f + 1 == runFlits s d i,
   BitVec.ofNat 1024 (ofLeBytes (a ++ b))⟩

/-- Counts a flit as sent by an engine (R284); the source range is released at its last read (R285), in a fold that of the
owner's own engine where the owner is a contributor (R627). -/
def countSent (s : State) (d : DieId) (i : Nat) (n : NodeId) : State :=
  let x := s.sx d i
  let k := smGet 0 x.sent (nodeNum n) + 1
  let s1 := updCredit0 (s.setSx d i { x with sent := smSet 0 x.sent (nodeNum n) k }) d i
  let own := NodeId.core (ownerCore s d i)
  let es := allEngines s1 d i
  let done := if es.any fun q => q.2 == own then n == own && k == runFlits s d i
    else es.all fun q => smGet 0 (s1.sx q.1.1 q.1.2).sent (nodeNum q.2) == runFlits s d i
  if done then releaseRange s1 d i (.streamSrc i) else s1

/-- Ends the run of a stack or host source whose rows before the first one outside its range have all been offered (R283, R626). -/
def settle (s : State) (d : DieId) (i : Nat) : State :=
  let x := s.sx d i
  let f := match engines s d i with
    | n :: _ => smGet 0 x.sent (nodeNum n)
    | [] => 0
  if x.active && x.stopAt.any fun k => decide (k ≤ 2 * f) then endFault s d i else s

/-- A stack or host source goes on: it asks for the lines it prefetches. -/
def feed (s : State) (d : DieId) (i : Nat) : State := settle (askLines 128 s d i) d i

/-- A line of a stack or host source arrives at its engine (R300). -/
def lineArrives (s : State) (d : DieId) (i n : Nat) (data : List Byte) : State :=
  let x := s.sx d i
  if x.active then s.setSx d i { x with lines := smSet [] x.lines n data } else s

/-- A line of a source cannot be read: the run ends once the rows before it have moved (R626). -/
def lineFails (s : State) (d : DieId) (i n : Nat) : State :=
  let x := s.sx d i
  if x.active then settle (s.setSx d i { x with stopAt := some (min n (x.stopAt.getD n)) }) d i else s

/-! ## Slots of the source engines at ports (R274, R282, R300) -/

/-- The NCLK in progress. -/
def nclkNow (s : State) : Nat := s.hclk / nclkDiv s

/-- The slot that the counters of a die show (R274): they run freely from the frame start token with the offset trained, which makes the
design delays of R290 hold between any two routers of the module. -/
def slotOf (s : State) (d : DieId) : Nat := (nclkNow s + (s.dx d).token.getD 0) % s.rd Reg.DN_FRAME_FLEN d.val

/-- The engine of a stack or host source offers the next flit of a run in sub-slot `k` of its port (R282, R284, R300); a row outside the
range ends the run once the rows before it have moved (R283, R626). -/
def offerFlit (s : State) (port : PortId) (k : Nat) (d : DieId) (i : Nat) : State :=
  match engines s d i with
  | [] => s
  | n :: _ =>
    let x := s.sx d i
    let f := smGet 0 x.sent (nodeNum n)
    let a := smGet [] x.lines (2 * f)
    let b := smGet [] x.lines (2 * f + 1)
    let half := x.stopAt == some (2 * f + 1)
    if !mayOffer s d i n || a.isEmpty || (b.isEmpty && decide (2 * f + 1 < runLines s d i) && !half) || !txRoom s port then s
    else
      let fl := mkFlit s d i f a (if b.isEmpty then List.replicate 64 0 else b)
      let s1 := txPush s port ⟨k, { fl with last := fl.last || half }⟩
      let s2 := s1.setSx d i { s1.sx d i with lines := smSet [] (smSet [] (s1.sx d i).lines (2 * f) []) (2 * f + 1) [] }
      let s3 := countSent s2 d i n
      if half then endFault s3 d i else feed s3 d i

/-- HCd sends the oldest flit of a stream that another module sent, in a slot of CH that the stream owns (R419). -/
def offerInbound (s : State) (k : Nat) (d : DieId) (i : Nat) : State :=
  let p : PortId := .hub d
  let x := s.px p
  match x.waiting.find? fun f => f.stream == i with
  | some f => if txRoom s p then txPush (s.setPx p { x with waiting := x.waiting.erase f }) p ⟨k, f⟩ else s
  | none => s

/-- The stream that owns sub-slot `k` of a die's CM port or of its HCd, towards the die, in the slot in progress (R278, R282): HCd has a
table of its own; a base die has none, and sends what the die's port receives 24 slots later (R300, R403). -/
def slotStream (s : State) (d : DieId) (n : Fin 9) (k : Nat) : Option Nat :=
  let t := slotOf s d
  let b := 4096 * portBank s d.val n.val
  if n.val = 0 then laneTab s (.hub d) (b + t) k
  else laneTab s (.die d n) (8192 + b + (t + 24) % s.rd Reg.DN_FRAME_FLEN d.val) k

/-- What the stacks and the hub send towards a die in one NCLK. -/
def offerSlots (s : State) (d : DieId) : State :=
  if (s.dx d).token.isNone then s
  else ([0, 5, 6, 7, 8] : List (Fin 9)).foldl (fun t n => [0, 1].foldl (fun t k =>
    match slotStream t d n k with
    | none => t
    | some i =>
      let src := sideOf t d i false
      if n.val = 0 then (if src.1 = skHost then offerFlit t (.hub d) k d i else offerInbound t k d i)
      else
        let q := 4 * d.val + (n.val - 5)
        if src.1 = skStk ∧ mgaStack src.2 = q then offerFlit t (.stack (Fin.ofNat 16 q)) k d i else t) t) s

/-- The receive sides that count the flits of a stream leaving a die (R400): at the far end of each of its ports, and at those by which
the hub or a stack sends it in. -/
def seqPorts (d : DieId) : List PortId :=
  (List.finRange 9).flatMap fun n =>
    (peerPort (.die d n)).toList ++ (if n.val = 0 ∨ 5 ≤ n.val then [PortId.die d n] else [])

/-- A stream of which no run is in progress starts from SEQ 0 again at every port on its way (R271, R400). -/
def freshSeq (s : State) (l : List (DieId × Nat)) : State :=
  if l.any fun p => (s.sx p.1 p.2).active then s
  else l.foldl (fun t m => (seqPorts m.1).foldl (fun t p => t.setPx p { t.px p with rxSeq := smSet 0 (t.px p).rxSeq m.2 0 }) t) s

/-- R282: a triggered stream begins its run in its START slot, once the die's frames run (R274); one bound for a stack waits at
the commit gate of its owner's phase (R169, R289). -/
def execStreamRunStart (d : DieId) (i : Fin 32768) (s : State) : Host.Outcome State Fault Refusal :=
  let x := s.sx d i
  let open_ := sd s d i Reg.DN_DESC_DSTK != skStk || coreGateOpen s (ownerCore s d i) x.pseq
  let l := family s d i
  .next (if x.armed && (!x.active || !x.halted.isEmpty) && open_ && s.rb Reg.DN_DESC_VALID d.val i && (s.dx d).token.isSome
        && slotOf s d == sd s d i Reg.DN_DESC_START then
      let s1 := mapStream (freshSeq s l) l fun _ y => { y with written := 0, owed := 0, arrived := 0, discard := false, fill := [] }
      let s2 := updGated (s1.setSx d i { s1.sx d i with
        armed := false, active := true, sent := [], back := [], asked := 0, stopAt := none, lines := [], halted := [] }) d i
      updCredit0 (if sd s d i Reg.DN_DESC_SRCK = skSp then s2 else feed s2 d i) d i
    else s)

/-- True when a run's last flit is written and every credit has returned (R285). -/
def runDone (s : State) (d : DieId) (i : Nat) : Bool :=
  let es := allEngines s d i
  !es.isEmpty && es.all fun q => (s.sx q.1.1 q.1.2).active
    && smGet 0 (s.sx q.1.1 q.1.2).back (nodeNum q.2) == runFlits s q.1.1 q.1.2

/-- R284: credits return to the source engine at a node. -/
def execScredit (n : NodeId) (i : Fin 32768) (count : Nat) (s : State) : Host.Outcome State Fault Refusal :=
  let d : DieId := match n with
    | .core c => c.die
    | .dieNode e => e
    | .stack k => Fin.ofNat 4 (k.val / 4)
    | .hub _ => 0
  let x := s.sx d i
  .next (if x.active && !s.rb Reg.BT_CLKSTAT_STOPPED d.val then
      updCredit0 (s.setSx d i { x with back := smSet 0 x.back (nodeNum n) (smGet 0 x.back (nodeNum n) + count) }) d i
    else s)

/-- Returns credits of a stream from its destination on a die (R284): to every source engine there, and over the
sideband of every port through which the stream enters the die. -/
def returnCredit (s : State) (d : DieId) (i n : Nat) (from_ : NodeId) : State :=
  let s1 := (engines s d i).foldl (fun t e => t.send from_ e (.scredit i n)) s
  ((List.finRange 9).filter fun p => decide (1 ≤ p.val ∧ p.val ≤ 4)
      && (List.range 4).any fun k => (tabStreams s d p true k).contains i).foldl
    (fun t p => sbSend t (.die d p) 6 (creditPayload (sd s d i Reg.DN_DESC_PEER) n)) s1

/-- A flit has been written at its destination, or taken by the weight port (R284): its credit is owed, and leaves in
batches of up to 8 or with the last flit; the destination range is released at the last write (R285). -/
def flitDone (s : State) (d : DieId) (i : Nat) (last : Bool) (from_ : NodeId) : State :=
  let x := s.sx d i
  let n := x.owed + 1
  let out := last || decide (n ≥ min 8 (sd s d i Reg.DN_DESC_CREDIT))
  let s1 := s.setSx d i { x with written := if last then 0 else x.written + 1, owed := if out then 0 else n }
  let s2 := if last then releaseRange s1 d i (.streamDst i) else s1
  if out then returnCredit s2 d i n from_ else s2

/-- Fold flags of a flit are reported to a gather's seal unit for the flit's phase (R294, R166). -/
def foldFlags (s : State) (f : Flit) (g : Option Gather) : State :=
  match g with
  | some g => if f.ovf || f.nan then reportCauseSeq s g f.pseq true false else s
  | none => s

/-- Flit `n` of a collect with RCACHE = 1 has arrived (R283): each two flits bring a line of 256 bytes, which is also installed in the
owner's remote cache. -/
def fillRemote (s : State) (d : DieId) (i n : Nat) (f : Flit) : State :=
  let x := s.sx d i
  let o := ownerCore s d i
  let src := sideOf s d i false
  let data := leBytes 128 f.payload.toNat
  if sd s d i Reg.DN_DESC_RCACHE ≠ 1 ∨ sd s d i Reg.DN_DESC_INDEXED ≠ 1 ∨ sd s d i Reg.DN_DESC_IDXSIDE ≠ 0 then s
  else if n % 2 = 0 then s.setSx d i { x with fill := data }
  else match lineOff s d i false (mgaCore src.2) (2 * n - 2) with
    | some a =>
      let m := src.2 / 2 ^ 36 * 2 ^ 36 + a
      if x.fill.length = 128 ∧ cacheable s o m then rcInstall (rcDrop s o m) o m (x.fill ++ data) else s
    | none => s

/-- The bytes of half `h` of a flit's payload. -/
def flitHalf (f : Flit) (h : Nat) : List Byte := leBytes 64 (f.payload.toNat / 2 ^ (512 * h))

/-- The index in its run of a flit that arrives, whose header has its low 16 bits (R271): the one nearest to the next expected. -/
def fullSeq (s : State) (d : DieId) (i : Nat) (f : Flit) : Nat :=
  let w := (s.sx d i).arrived
  let up := (f.seq + 65536 - w % 65536) % 65536
  if up < 32768 ∨ w + up < 65536 then w + up else w + up - 65536

/-- A flit of a stream has arrived at its destination engine: the next one is expected. -/
def flitCame (s : State) (d : DieId) (i : Nat) (f : Flit) : State :=
  s.setSx d i { s.sx d i with arrived := if f.last then 0 else fullSeq s d i f + 1 }

/-- The lines of a flit that belong to its run: line number, half. A last flit that comes before the run's last line
carries one line (R283). -/
def flitLines (s : State) (d : DieId) (i : Nat) (f : Flit) : List (Nat × Nat) :=
  let n := fullSeq s d i f
  ((List.range 2).map fun h => (2 * n + h, h)).filter fun q =>
    decide (q.1 < runLines s d i) && (q.2 == 0 || !f.last || n + 1 == runFlits s d i)

/-- Writes a flit's lines into the destination scratchpad (R282); a row out of range ends the run, and the lines before
it stand (R283). -/
def writeFlit (s : State) (c : CoreId) (d : DieId) (i : Nat) (f : Flit) : State :=
  let ls := flitLines s d i f
  let ok := ls.takeWhile fun q => (lineOff s d i true c q.1).isSome
  let s1 := ok.foldl (fun t q => match lineOff s d i true c q.1 with
    | some o => spWrite t c o (flitHalf f q.2) rqNin
    | none => t) (flitCame (readIndex s d i true (ls.map (·.1))) d i f)
  let s2 := foldFlags s1 f (gatherOf s c)
  if ok.length < ls.length then endFaultAt s2 d i else flitDone (fillRemote s2 d i (fullSeq s d i f) f) d i f.last (.core c)

/-- A flit is dropped as a misroute (R277): counted and logged, an informational event of R538. -/
def misroute (s : State) (c : CoreId) (f : Flit) : State :=
  raiseCore ((s.bump Reg.DN_MISROUTE_COUNT (coreU c)).lgR LogKind.misroute (coreU c) [f.stream, f.seq, f.pseq]) c true
    (routerEvent s c 5 0x25 [f.stream, f.seq, f.pseq])

/-- A flit leaves LOC of a router (R277, R288, R295): dropped in pass-through, and as a misroute where it is not its destination; there
discarded for a stopped stream, else written to the scratchpad or taken towards the weight port. -/
def eject (s : State) (c : CoreId) (f : Flit) : State :=
  let d := c.die
  let dst := sideOf s d f.stream true
  let x := s.cx c
  if passThru s c then s.bump Reg.DN_EJDROP_COUNT (coreU c)
  else if (dst.1 ≠ skSp ∧ dst.1 ≠ skWpt) ∨ mgaCore dst.2 ≠ c then misroute s c f
  else if (s.sx d f.stream).discard then s
  else if dst.1 = skSp then writeFlit s c d f.stream f
  else
    let two := (flitLines s d f.stream f).length == 2
    let new := if two then [(flitHalf f 0, false), (flitHalf f 1, true)] else [(flitHalf f 0, true)]
    let s1 := flitCame (s.setCx c { x with wpt := smSet [] x.wpt f.stream (smGet [] x.wpt f.stream ++ new) }) d f.stream f
    foldFlags (fillRemote s1 d f.stream (fullSeq s d f.stream f) f) f (gatherOf s c)

/-! ## Routers -/

/-- The router across an output (R268-R270): its core and the input the link reaches; none at an edge. -/
def linkOf (c : CoreId) (p : Nat) : Option (CoreId × Nat) :=
  let r := c.lc.val / 8
  let k := c.lc.val % 8
  let at_ := fun (ok : Bool) (r k inp : Nat) => if ok then some ((⟨c.die, Fin.ofNat 64 (8 * r + k)⟩ : CoreId), inp) else none
  match p with
  | 1 => at_ (decide (1 ≤ r)) (r - 1) k 3
  | 2 => at_ (decide (k + 1 < 8)) r (k + 1) 4
  | 3 => at_ (decide (r + 1 < 8)) (r + 1) k 1
  | 4 => at_ (decide (1 ≤ k)) r (k - 1) 2
  | 5 => at_ (decide (2 ≤ r)) (r - 2) k 7
  | 6 => at_ (decide (k + 2 < 8)) r (k + 2) 8
  | 7 => at_ (decide (r + 2 < 8)) (r + 2) k 5
  | 8 => at_ (decide (2 ≤ k)) r (k - 2) 6
  | _ => none

/-- The use of a link (R26): 0 for a data link; 2 or 6 for a skip link, by the side of its northern or western end. -/
def linkUse (c n : CoreId) (p : Nat) : Nat :=
  let m := min c.lc.val n.lc.val
  if p < 5 then 0 else if (if p % 2 = 1 then m / 8 else m) % 2 = 0 then 2 else 6

/-- The links across a seam that a router's output to a neighbour takes (R26, R270). -/
def crossed (s : State) (c n : CoreId) (p : Nat) : List Nat := seamLinks (linkUse c n p) (posOfCore s c) (posOfCore s n)

/-- The router across an output and the input it reaches, where both positions carry cores and the link works (R28, R268,
R270). -/
def liveLink (s : State) (c : CoreId) (p : Nat) : Option (CoreId × Nat) :=
  match linkOf c p with
  | some n =>
    let q := posOfCore s n.1
    if corePresent s c && corePresent s n.1 && !seamFailed s c.die (crossed s c n.1 p)
      && !(s.dx c.die).cut.contains (16 * (10 * q.1 + q.2) + n.2) then some n else none
  | none => none

/-- The cane port and attachment at an edge output (R273). -/
def edgeOf (c : CoreId) (p : Nat) (alt : Bool) : Option (PortId × Nat) :=
  let r := c.lc.val / 8
  let k := c.lc.val % 8
  if p = 1 ∧ r = 0 then some (.die c.die (Fin.ofNat 9 (5 + k / 2)), k % 2)
  else if p = 2 ∧ k = 7 then some (.die c.die (if r < 4 then 3 else 4), r % 4)
  else if p = 3 ∧ r = 7 then
    (if alt ∧ k ≥ 6 then some (.die c.die 0, k - 6) else some (.die c.die (if k < 4 then 1 else 2), k % 4))
  else none

/-- The router input that attachment `k` of a die's port feeds (R273). -/
def attachOf (d : DieId) (n : Fin 9) (k : Nat) : CoreId × Nat :=
  match n.val with
  | 0 => (⟨d, Fin.ofNat 64 (62 + k % 2)⟩, 3)
  | 1 => (⟨d, Fin.ofNat 64 (56 + k % 4)⟩, 3)
  | 2 => (⟨d, Fin.ofNat 64 (60 + k % 4)⟩, 3)
  | 3 => (⟨d, Fin.ofNat 64 (8 * (k % 4) + 7)⟩, 2)
  | 4 => (⟨d, Fin.ofNat 64 (8 * (4 + k % 4) + 7)⟩, 2)
  | m => (⟨d, Fin.ofNat 64 (2 * (m - 5) + k % 2)⟩, 1)

/-- A flit is on its way to a router input, which holds up to 16 (R277); one that finds no place is a misroute. An output can take it
`delay` NCLK after it was sent (R290). -/
def routerIn (s : State) (c : CoreId) (inp : Nat) (f : Flit) (delay : Nat) : State :=
  let x := s.rx c
  let l := smGet [] x.ins inp
  if l.length ≥ 16 then misroute s c f
  else s.setRx c { x with ins := smSet [] x.ins inp (l ++ [(nclkNow s + delay, f)]) }

/-- What an output finds at one input for a stream: a flit and the state without it. -/
abbrev Found := Option (Flit × State)

/-- The flit the core's stream engine offers (R275, R282, R284); a row out of range ends the run, with the line before
it as the last flit where it shares one with it (R283). -/
def offerLoc (s0 : State) (c : CoreId) (i : Nat) : State × Found :=
  let d := c.die
  let f := smGet 0 (s0.sx d i).sent (coreU c)
  let s := readIndex s0 d i false [2 * f, 2 * f + 1]
  if (engines s d i).contains (.core c) && mayOffer s d i (.core c) && bankShare s c ownNout != 0 && !passThru s c then
    let rd := fun (t : State) (n : Nat) =>
      if n < runLines s d i then (lineOff s d i false c n).map fun o => spRead t c o 64 rqNout
      else some (List.replicate 64 0, t)
    match rd s (2 * f) with
    | none => (endFault s d i, none)
    | some a => match rd a.2 (2 * f + 1) with
      | none => (s, some ({ mkFlit s d i f a.1 (List.replicate 64 0) with last := true },
          endFault (countSent a.2 d i (.core c)) d i))
      | some b => (s, some (mkFlit s d i f a.1 b.1, countSent b.2 d i (.core c)))
  else (s0, none)

/-- The oldest waiting flit of a stream at a neighbour input (R275), `more` NCLK after it could first be sent on. -/
def takeIn (s : State) (c : CoreId) (inp i more : Nat) : State × Found :=
  let x := s.rx c
  let l := smGet [] x.ins inp
  match l.find? fun f => f.2.stream == i with
  | none => (s, none)
  | some f =>
    if nclkNow s < f.1 + more then (s, none) else (s, some (f.2, s.setRx c { x with ins := smSet [] x.ins inp (l.erase f) }))

/-- An uncorrectable flit is dropped and reported: a STONE of the router class (R272). -/
def flitLost (s : State) (c : CoreId) (f : Flit) : State :=
  raiseCore (s.lgR LogKind.flitUe (coreU c) [f.stream, f.seq, f.pseq]) c false
    (routerEvent s c 5 0x0A [0, f.stream, f.seq, f.pseq])

/-- Words of a flit are corrected: each counts in DN_CE and is a seed of the router (R272). -/
def flitFixed (s : State) (c : CoreId) (f : Flit) (n : Nat) : State :=
  (List.range n).foldl (fun t _ => raiseCore t c false (routerEvent s c 6 0x0B [0, f.stream, f.seq, f.pseq]))
    ((s.bump Reg.DN_CE_COUNT (coreU c) n).lgR LogKind.flitCe (coreU c) [n])

/-- What an output finds at input `inp`, after the check of the input (R272). -/
def findIn (s : State) (c : CoreId) (inp i more : Nat) (k : FlitCheck) : State × Found :=
  match if inp = 0 then offerLoc s c i else takeIn s c inp i more with
  | (t, none) => (t, none)
  | (_, some (f, t)) => match k with
    | .good => (s, some (f, t))
    | .fixed n => (s, some (f, flitFixed t c f n))
    | .bad => (flitLost t c f, none)

/-- FOLDUSE and FOLDFULL of the fold buffer (R302). -/
def updFold (s : State) (c : CoreId) : State :=
  let n := (s.rx c).fold.length
  let s1 := s.wr Reg.DN_RSTAT_FOLDUSE (coreU c) (min 127 (n / 2))
  if n ≥ 128 then s1.wb Reg.DN_RSTAT_FOLDFULL (coreU c) true else s1

/-- Brings the next operand of a fold into the fold buffer, in which it waits for its partner (R292, R293); the adder takes 2 NCLK more
than a link (R290). -/
def loadFold (s : State) (c : CoreId) (inp i : Nat) (k : FlitCheck) : State :=
  if (s.rx c).fold.length ≥ 128 then s
  else match findIn s c inp i 2 k with
    | (_, some (f, t)) => updFold (t.setRx c { t.rx c with fold := (t.rx c).fold ++ [(inp, f)] }) c
    | (t, none) => t

/-- The sum of two payload lanes (R146): its code and whether it overflowed or is a NaN. -/
def foldLane (bf16 : Bool) (a b : Nat) : Nat × Bool × Bool :=
  let fmt := if bf16 then 2 else 0
  let x := decodeElem fmt a
  let y := decodeElem fmt b
  let r := if bf16 then rneBf16 (x.add y) else rne32 (x.add y)
  let inf := match decodeElem fmt r with
    | .inf _ => x.isFin && y.isFin
    | _ => false
  (r, inf, decodeElem fmt r == .nan)

/-- The sum a fold node sends (R292, R294): element by element; operands of different formats, or of another than the
stream's, give the canonical NaN with NAN set. -/
def foldFlit (ffmt : Bool) (a b : Flit) : Flit :=
  let w := if ffmt then 16 else 32
  if a.fmt ≠ b.fmt ∨ a.fmt ≠ ffmt then
    let n := (List.range (1024 / w)).foldl (fun v k => v + (if ffmt then 0x7FC0 else 0x7FC00000) * 2 ^ (w * k)) 0
    { a with fmt := ffmt, nan := true, ovf := a.ovf || b.ovf, payload := BitVec.ofNat 1024 n }
  else
    let lanes := (List.range (1024 / w)).map fun k =>
      foldLane ffmt (bits a.payload.toNat (w * k) w) (bits b.payload.toNat (w * k) w)
    let n := (lanes.zip (List.range lanes.length)).foldl (fun v p => v + p.1.1 * 2 ^ (w * p.2)) 0
    { a with ovf := a.ovf || b.ovf || lanes.any fun p => p.2.1, nan := a.nan || b.nan || lanes.any fun p => p.2.2,
             payload := BitVec.ofNat 1024 n }

/-- A flit leaves an output: out of LOC, over a link, or into an edge port's transmit queue. -/
def sendOut (s : State) (c : CoreId) (p : Nat) (alt : Bool) (f : Flit) : State :=
  let s1 := s.bump Reg.DN_FWD_COUNT (coreU c)
  if p = 0 then eject s1 c f
  else match liveLink s1 c p with
    | some n => routerIn s1 n.1 n.2 f (if p < 5 then 7 else 9)
    | none => match edgeOf c p alt with
      | some e => txPush s1 e.1 ⟨e.2, f⟩
      | none => s1

/-- True when an output can send in this slot: its port's transmit queue has a place, and an ejection into the
scratchpad has a NIN share (R629). -/
def outReady (s : State) (c : CoreId) (p : Nat) (e : TabEnt) : Bool :=
  if p = 0 then
    let dst := sideOf s c.die e.stream true
    passThru s c || dst.1 != skSp || mgaCore dst.2 != c || bankShare s c ownNin != 0
  else if (linkOf c p).isSome then (liveLink s c p).isSome
  else match edgeOf c p e.alt with
    | some q => txRoom s q.1
    | none => true

/-- A fold node acts (R292, R293): each operand it lacks is brought in with its check, and operands of one SEQ give their sum. -/
def foldNode (s : State) (c : CoreId) (port : Nat) (e : TabEnt) (a b : FlitCheck) : State :=
  let u := coreU c
  let s1 := loadFold (loadFold s c e.inp e.stream a) c e.in2 e.stream b
  let x := s1.rx c
  let pick := fun inp : Nat => x.fold.find? fun p => p.1 == inp && p.2.stream == e.stream
  match pick e.inp, pick e.in2 with
  | some p, some q =>
    if p.2.seq = q.2.seq then
      let s2 := updFold (s1.setRx c { x with fold := (x.fold.erase p).erase q }) c
      sendOut (s2.bump Reg.DN_FOLDS_COUNT u) c port e.alt (foldFlit (sd s c.die e.stream Reg.DN_DESC_FFMT == 1) p.2 q.2)
    else s1.bump Reg.DN_UNUSED_COUNT u
  | _, _ => s1.bump Reg.DN_UNUSED_COUNT u

/-- R275, R292: a router output acts, once in a slot, in the slot its counter shows; a slot that finds no flit goes unused. A router
marked FAILED passes no flit (R298, R302). -/
def execFlitForward (c : CoreId) (port : Fin 9) (slot : Fin 4096) (ecc : FlitChecks) (s0 : State) :
    Host.Outcome State Fault Refusal :=
  let e := tabEnt s0 c port.val slot.val
  let u := coreU c
  let x := s0.rx c
  let now := nclkNow s0 + 1
  .next (if (s0.dx c.die).token.isNone || s0.rb Reg.BT_CLKSTAT_STOPPED c.die.val || slotOf s0 c.die != slot.val
        || smGet 0 x.acted port.val == now || !e.v then s0
    else
      let s := s0.setRx c { x with acted := smSet 0 x.acted port.val now }
      if routerMarked s u || !outReady s c port.val e then s.bump Reg.DN_UNUSED_COUNT u
      else if e.fold then foldNode s c port.val e ecc.first ecc.second
      else match findIn s c e.inp e.stream 0 ecc.first with
        | (_, some (f, t)) => sendOut t c port.val e.alt f
        | (t, none) => t.bump Reg.DN_UNUSED_COUNT u)

/-- R277: the oldest flit at an input, where it has waited one frame, is dropped and logged. -/
def execFlitExpire (c : CoreId) (port : Fin 9) (s : State) : Host.Outcome State Fault Refusal :=
  let x := s.rx c
  .next (match smGet [] x.ins port.val with
    | [] => s
    | f :: r =>
      if s.rb Reg.BT_CLKSTAT_STOPPED c.die.val || decide (nclkNow s < f.1 + s.rd Reg.DN_FRAME_FLEN c.die.val) then s
      else misroute (s.setRx c { x with ins := smSet [] x.ins port.val r }) c f.2)

/-- R274: a frame start token reaches a die; its slot counters take their trained offsets. The spec does not state them, but that they make
the design delays hold between any two routers of the module: the die counts as the others do, the first one from a free value. -/
def execToken (d : DieId) (seq : Fin 16) (crc : BitVec 8) (s : State) : Host.Outcome State Fault Refusal :=
  .next (sbReceive s (.die d 0) 1 0 seq.val crc fun s =>
    let n := ((allDies.findSome? fun e => (s.dx e).token).getD (Config.freeValue s.free))
    { s.setDx d { s.dx d with token := some n } with free := s.free + 1 })

/-! ## Stalls, stops and swaps -/

/-- R287: an active run has moved no flit for DN_TIMEOUT; it stays active and is reported to the die Punty, with the SEQ of the next
flit at this end. -/
def execStreamStall (d : DieId) (i : Fin 32768) (s : State) : Host.Outcome State Fault Refusal :=
  let x := s.sx d i
  .next (if x.active || s.rb Reg.DN_SSTAT_ACTIVE d.val i then
      let s1 := (setStat s (family s d i) Reg.DN_SSTAT_STALLED 1).wr Reg.DN_STALL_STREAM d.val i.val
      let s2 := (s1.wb Reg.DN_STALL_VALID d.val true).bump Reg.DN_STALL_COUNT d.val
      let o := ownerCore s d i
      let n := match engines s d i with
        | e :: _ => smGet 0 x.sent (nodeNum e)
        | [] => x.arrived
      let at_ := [i.val, o.lc.val, n % 65536]
      raiseDie (s2.lg LogKind.streamStall (dieN d.val) at_) d true (unitEvent s 0 0x21 d.val none 0 at_)
    else s)

/-- The span map entries of a port (R428). -/
def spanEntry (s : State) (m : Nat) (dir : Nat) (test : Nat → Bool) : Option Nat :=
  (List.range 1024).find? fun e => s.rb Reg.SPMAP_V 0 m e && s.rd Reg.SPMAP_DIR 0 m e == dir && test e

/-- The stream index under which a stream of a die leaves on span port `m` (R419). -/
def spanOut (s : State) (m : Nat) (d : DieId) (i : Nat) : Option Nat :=
  (spanEntry s m 0 fun e => s.rd Reg.SPMAP_LSTREAM 0 m e == i && s.rd Reg.SPMAP_LDIE 0 m e == d.val).map (s.rd Reg.SPMAP_RSTREAM 0 m)

/-- Discards the payloads of a stream that are queued at the ports of a die, its stacks, its hub port and the span ports (R426). -/
def dropQueued (s : State) (p : DieId × Nat) : State :=
  let drop := fun (t : State) (q : PortId) (i : Nat) =>
    let x := t.px q
    updHold (t.setPx q { x with
      txq := x.txq.filter fun y => y.flit.stream != i, waiting := x.waiting.filter fun f => f.stream != i }) q
  let s1 := ((List.finRange 9).map (fun n => PortId.die p.1 n) ++ [PortId.hub p.1]
    ++ (List.range 4).map fun k => PortId.stack (Fin.ofNat 16 (4 * p.1.val + k))).foldl (fun t q => drop t q p.2) s
  (List.finRange 8).foldl (fun t m => match spanOut t m.val p.1 p.2 with
    | some r => drop t (.span m) r
    | none => t) s1

/-- Ends the run of a stream by a stop (R288): the engines at both ends discard what arrives, payloads queued at ports are
discarded (R426), the ranges are released, and the run counts as complete. The contributors of a fold on other dies are left
waiting. -/
def stopStream (s : State) (d : DieId) (i : Nat) : State :=
  let l := family s d i
  if s.rb Reg.DN_SSTAT_ACTIVE d.val i then
    let s1 := finishRun (setStat (setStat s l Reg.DN_SSTAT_PENDING 0) l Reg.DN_SSTAT_STOPPED 1) d i
    let s2 := mapStream s1 l fun p x => { x with
      discard := true, active := sd s d i Reg.DN_DESC_FOLD == 1 && p.1 != d && (s.sx p.1 p.2).active }
    l.foldl dropQueued s2
  else s

/-- R288: DN_SCMD stops a stream; the die Punty and module firmware only. -/
def execStreamStop (r : Requester) (d : DieId) (i : Fin 32768) (s : State) : Host.Outcome State Fault Refusal :=
  .next (if mayWrite .punty r .die d.val then stopStream s d i.val
    else s.lg LogKind.ignoredWrite (dieN d.val) [Reg.DN_SCMD_STOP.id, i.val])

/-- R285: a run completes when its last flit is written and every credit has returned. -/
def execStreamRunComplete (d : DieId) (i : Fin 32768) (s : State) : Host.Outcome State Fault Refusal :=
  .next (if runDone s d i then finishRun s d i else s)

/-- R297: DN_TBLSEL.SWAP registers a request at once; module firmware only. -/
def execSwap (r : Requester) (d : DieId) (s : State) : Host.Outcome State Fault Refusal :=
  .next (if mayWrite .fw r .die d.val then
      (s.wb Reg.DN_TBLSEL_SWAP d.val true).wb Reg.DN_TBLSEL_PEND d.val true
    else s.lg LogKind.ignoredWrite (dieN d.val) [Reg.DN_TBLSEL_SWAP.id])

/-- FT_FBKEY of a die takes the key of the fallback set applied (R554). -/
def applyKey (s : State) (d : DieId) (n : Nat) : State :=
  match s.load.images.findSome? fun im => im.recs.find? fun r =>
      r.ty == 12 && r.set == n && r.dieSpace && r.die == d.val && r.off == 0x1D8 with
  | none => s
  | some r =>
    let w := (r.words[0]?).getD 0
    ((((s.wr Reg.FT_FBKEY_KIND d.val w).wr Reg.FT_FBKEY_COL d.val (w / 4)).wr Reg.FT_FBKEY_ROW d.val (w / 64)).wr
      Reg.FT_FBKEY_DIR d.val (w / 512)).wr Reg.FT_FBKEY_WIDTH d.val (w / 2048)

/-- A die's routers and cane engines change bank (R297). -/
def swapDie (s : State) (d : DieId) : State :=
  let b := 1 - bankOf s d.val
  let act := s.rd Reg.DN_TBLSEL_ACT_SET d.val
  let s1 := (s.wr Reg.DN_TBLSEL_ACTIVE d.val b).wr Reg.DN_TBLSEL_ACT_SET d.val (s.rd Reg.DN_TBLSEL_STBY_SET d.val)
  let s2 := (s1.wr Reg.DN_TBLSEL_STBY_SET d.val act).wb Reg.DN_TBLSEL_SWAP d.val false
  let s3 := (s2.wb Reg.DN_TBLSEL_PEND d.val false).setDx d { s.dx d with swapReady := false, flips := [] }
  applyKey ((dieCores d).foldl (fun t c => t.wr Reg.DN_RSTAT_BANK (coreU c) b) s3) d (s3.rd Reg.DN_TBLSEL_ACT_SET d.val)

/-- The cane engine at the far end of a port that has changed bank changes with it (R297), on a die that does not itself swap. -/
def flipPeer (l : List DieId) (s : State) (p : DieId × Fin 9) : State :=
  match peerPort (.die p.1 p.2) with
  | some (.die e m) =>
    if l.contains e then s
    else
      let x := s.dx e
      s.setDx e { x with flips := if x.flips.contains m.val then x.flips.filter (· ≠ m.val) else m.val :: x.flips }
  | _ => s

/-- The swap of some dies in one slot (R297). -/
def swapDies (s : State) (l : List DieId) : State :=
  let t := l.foldl swapDie s
  let ps := (l.flatMap fun d => (List.finRange 9).map fun n => (d, n)).filter fun p =>
    portBank t p.1.val p.2.val != portBank s p.1.val p.2.val
  ps.foldl (flipPeer l) t

/-- True when a die's swap can take place (R297, R301): its step boundary has come, no shift and no run is in progress on it. -/
def swapFree (s : State) (d : DieId) : Bool :=
  (s.dx d).swapReady && (s.dx d).shifts.all (fun p => p.2.isNone)
    && !(s.streams.any fun p => p.1 / 32768 == d.val && p.2.active)

/-- True when the tables in STANDBY can be applied on a die (R298): no entry of them uses a router that has failed, or a skip link
through one or through another failed element. -/
def setUsable (s : State) (d : DieId) : Bool :=
  let b := 1 - bankOf s d.val
  (dieCores d).all fun c => (List.range 9).all fun p => (List.range (s.rd Reg.DN_FRAME_FLEN d.val)).all fun t =>
    let r := fun F : Field => s.rd F (coreU c) b (4096 * p + t)
    let dead := fun q : Nat => decide (5 ≤ q) && match linkOf c q with
      | some n => routerMarked s (coreU n.1) || (liveLink s c q).isNone
      | none => false
    r Reg.DN_TAB_V == 0 || !(routerMarked s (coreU c) || dead p || dead (r Reg.DN_TAB_IN)
      || (r Reg.DN_TAB_FOLD == 1 && dead (r Reg.DN_TAB_IN2)))

/-- The request for a set that cannot be applied is withdrawn and logged (R298). -/
def dropSwap (s : State) (d : DieId) : State :=
  ((s.wb Reg.DN_TBLSEL_SWAP d.val false).wb Reg.DN_TBLSEL_PEND d.val false).lg LogKind.noFallback (dieN d.val)
    [s.rd Reg.DN_TBLSEL_STBY_SET d.val]

/-- R297: at the first frame start after the step boundary, once no run and no shift is in progress, every router and cane engine
changes bank, on every die whose swap is requested in one slot: the cane engines at both ends match. A set that uses a further failed
element is not applied (R298). Gathers held for it are released (R546). -/
def execFallbackSwap (d : DieId) (s : State) : Host.Outcome State Fault Refusal :=
  let l := allDies.filter fun e => s.rb Reg.DN_TBLSEL_PEND e.val
  let bad := (l.filter fun e => !setUsable s e).map fun e => s.rd Reg.DN_TBLSEL_STBY_SET e.val
  let ok := l.filter fun e => !bad.contains (s.rd Reg.DN_TBLSEL_STBY_SET e.val)
  .next (if s.rb Reg.DN_TBLSEL_PEND d.val && (s.dx d).token.isSome && slotOf s d == 0 && l.all (swapFree s) then
      endRecoveries (swapDies ((l.filter fun e => !ok.contains e).foldl dropSwap s) ok)
    else s)

/-! ## STRIG, SWAIT, SSTAT (R209) -/

/-- The ranges a STRIG declares (R192), as owners and entries. -/
def streamRanges (s : State) (c : CoreId) (i : Nat) : List SbEnt :=
  let d := c.die
  let idx := sd s d i Reg.DN_DESC_INDEXED == 1
  let dstIdx := sd s d i Reg.DN_DESC_IDXSIDE == 1
  let list := sd s d i Reg.DN_DESC_IDXBLK * 512
  let rng := fun (dst : Bool) (o : SbOwner) =>
    let side := sideOf s d i dst
    let stride := if dst then sd s d i Reg.DN_DESC_DSTRIDE else sd s d i Reg.DN_DESC_SSTRIDE
    let local_ := mgaCore side.2 == c || (!dst && (engines s d i).contains (.core c))
    if side.1 = skSp ∧ local_ ∧ !(idx && dstIdx == dst) then
      let a := mgaOff25 side.2 / 64
      [(⟨a, a + stride * (sd s d i Reg.DN_DESC_ROWS - 1) + sd s d i Reg.DN_DESC_ROWLEN - 1, dst, o⟩ : SbEnt)]
    else []
  (if idx && listCore s d i == c then
    [(⟨list / 64, (list + 4 * sd s d i Reg.DN_DESC_ROWS - 1) / 64, false, .streamIdx i⟩ : SbEnt)] else [])
    ++ rng false (.streamSrc i) ++ rng true (.streamDst i)

/-- STRIG: starts a software-triggered stream, or sets its pending trigger, under the stream's ranges. -/
def bodyStrig (c : CoreId) (w : IFields) (s : State) : Eff :=
  withSrc c w.a s fun v t =>
    let i := v.toNat
    let d := c.die
    if i ≥ 32768 then .trap trStreamFault i
    else if !t.rb Reg.DN_DESC_VALID d.val i ∨ sd t d i Reg.DN_DESC_TRIG = 0 ∨ ownerCore t d i ≠ c
        ∨ t.rb Reg.DN_SSTAT_PENDING d.val i then .trap trStreamFault i
    else
      let sb := (t.cx c).sb
      let new := (streamRanges t c i).filter fun e => !sb.any fun o => o.owner == e.owner
      withRanges c t new fun t =>
        .done (trigger (setSb t c ((t.cx c).sb ++ new)) d i (phaseTag t c))

/-- R209: STRIG. -/
def execStrig (c : CoreId) (w : IFields) (s : State) : Host.Outcome State Fault Refusal :=
  .next (issue 0xB0 { a := .sq } c w s (bodyStrig c w))

/-- SWAIT: holds issue until the stream has completed IMM[15:0] runs since the phase started. -/
def bodySwait (c : CoreId) (w : IFields) (s : State) : Eff :=
  withSrc c w.a s fun v t =>
    if t.rd Reg.DN_SSTAT_RUNS c.die.val (v.toNat % 32768) ≥ w.imm.toNat % 2 ^ 16 then .done t
    else .wait fun s0 => s0.setCst c stWaitSync

/-- R209: SWAIT. -/
def execSwait (c : CoreId) (w : IFields) (s : State) : Host.Outcome State Fault Refusal :=
  .next (issue 0xB1 { a := .sq, imm := 0xFFFF } c w s (bodySwait c w))

/-- SSTAT: the stream's status word (R286). -/
def bodySstat (c : CoreId) (w : IFields) (s : State) : Eff :=
  withSrc c w.a s fun v t =>
    doneS c w (BitVec.ofNat 32 (wordOf t c.die.val (wordFields .die (0x200000 + 4 * (v.toNat % 32768))))) t

/-- R209: SSTAT. -/
def execSstat (c : CoreId) (w : IFields) (s : State) : Host.Outcome State Fault Refusal :=
  .next (issue 0xB2 { d := .s, a := .sq } c w s (bodySstat c w))

end Sys2Proof.Machine
end

