-- ==== Sys2Proof/Machine/Matrix.lean ====
section
/-! DEFINITION. The matrix arrays: pass descriptors and their checks (R83, R92, R103, R106, R200), element arithmetic
(R77-R82, R89, R153, R630), the accumulation port (R99-R101) and the stages of a pass (R84-R91). -/

namespace Sys2Proof.Machine

/-- A format profile with what a pass under it needs (R74, R105): the formats, block sizes (0 none), directions, tile
depth and row time. -/
structure Geo where
  wf : Nat
  xf : Nat
  wb : Nat
  wdir : Bool
  xb : Nat
  xdir : Bool
  kt : Nat
  e : Nat
deriving DecidableEq, Repr

/-- The block size of a code: 8 to 256 for 1 to 6, 0 for none (R105). -/
def blkOf (code : Nat) : Nat := if code = 0 then 0 else 2 ^ (code + 2)

/-- True of the integer formats. -/
def isIntFmt (f : Nat) : Bool := f == 8 || f == 9

/-- Profile `p` of a core in a mode. -/
def geoOf (s : State) (c : CoreId) (p mode : Nat) (heritage : Bool) : Geo :=
  let u := coreU c
  let wf := s.rd Reg.CA_FMT_WFMT u p
  let xf := s.rd Reg.CA_FMT_XFMT u p
  let wide := fun f : Nat => f == 1 || f == 2 || f == 10
  { wf := wf, xf := xf, wb := blkOf (s.rd Reg.CA_FMT_WBLK u p), wdir := s.rb Reg.CA_FMT_WDIR u p,
    xb := blkOf (s.rd Reg.CA_FMT_XBLK u p), xdir := s.rb Reg.CA_FMT_XDIR u p,
    kt := if wf = 7 ∧ xf = 7 ∧ mode = 0 then 256 else 128,
    e := (if wide wf || wide xf then 4 else 1) * (if heritage then 8 else 1) }

/-- True when a pass computes in integers: both formats integer, no block scales (R81). -/
def Geo.isInt (g : Geo) : Bool := isIntFmt g.wf && isIntFmt g.xf && g.wb == 0 && g.xb == 0

/-- True when the stored result is INT32: integer passes and CCOUNT (R78). -/
def Geo.intResult (g : Geo) (mode : Nat) : Bool := g.isInt || mode == 5

/-- True of a pass of BF16 pairs. -/
def Geo.isPair (g : Geo) : Bool := g.wf == 10

/-- Lines of one tile row and of one weight row (R86, R118); a pair's weight row holds both parts. -/
def Geo.xLines (g : Geo) (xt : Nat) : Nat := (xt * fmtBits g.xf + 511) / 512
def Geo.wLines (g : Geo) (xk : Nat) : Nat := ((xk * fmtBits g.wf + 511) / 512) * (if g.isPair then 2 else 1)

/-- Scale lines of a tile and of a pass's weights (R122). -/
def Geo.xsLines (g : Geo) (xk : Nat) : Nat :=
  if g.xb = 0 then 0 else if g.xdir then (xk + 3) / 4 else 2 * ((xk + g.xb - 1) / g.xb)
def Geo.wsLines (g : Geo) (nch : Nat) : Nat :=
  if g.wb = 0 then 0 else if g.wdir then 4 * ((nch + g.wb - 1) / g.wb) else (nch + 1) / 2

/-- Descriptor `n` of a core (R106). -/
def descOf (s : State) (c : CoreId) (n : Nat) : PassDesc :=
  let u := coreU c
  { xline := s.rd Reg.CA_PD_XLINE u n, xstride := s.rd Reg.CA_PD_XSTRIDE u n, xkeep := s.rb Reg.CA_PD_XKEEP u n,
    xk := s.rd Reg.CA_PD_XK u n, xt := s.rd Reg.CA_PD_XT u n, xsline := s.rd Reg.CA_PD_XSLINE u n,
    wline := s.rd Reg.CA_PD_WLINE u n, wsrc := s.rb Reg.CA_PD_WSRC u n, wstride := s.rd Reg.CA_PD_WSTRIDE u n,
    wsline := s.rd Reg.CA_PD_WSLINE u n, oline := s.rd Reg.CA_PD_OLINE u n, nch := s.rd Reg.CA_PD_NCH u n,
    mode := s.rd Reg.CA_PD_MODE u n, pred := s.rd Reg.CA_PD_PRED u n, oop := s.rd Reg.CA_PD_OOP u n,
    fmtp := s.rd Reg.CA_PD_FMTP u n, heritage := s.rb Reg.CA_PD_HERITAGE u n, tscale := s.rd Reg.CA_PD_TSCALE u n }

/-- True of a format pair the arrays accept in a mode (R74, R75). -/
def pairOk (wf xf mode : Nat) : Bool :=
  (isIntFmt wf && isIntFmt xf) || (decide (1 ≤ wf ∧ wf ≤ 7) && decide (1 ≤ xf ∧ xf ≤ 7))
    || (wf == 10 && xf == 10 && mode == 0)

/-- True of an output operation valid with a mode (R100). -/
def oopOk (oop mode : Nat) : Bool :=
  match oop with
  | 0 => true
  | 1 => mode == 0 || mode == 1 || mode == 2 || mode == 5
  | 2 => mode == 3
  | _ => mode == 4

/-- True of a heritage pass inside R152. -/
def heritageOk (g : Geo) (d : PassDesc) : Bool :=
  let fp8 := fun f : Nat => f == 3 || f == 4
  d.mode == 0 && decide (d.oop ≤ 1) && ((g.wf == 2 && g.xf == 2) || (fp8 g.wf && fp8 g.xf) || (g.wf == 8 && g.xf == 8))
    && g.wb == 0 && g.xb == 0 && decide (d.xk ≤ 128)

/-- The X, W and O ranges of a pass as first and last lines (R92). -/
def xRanges (g : Geo) (d : PassDesc) : List (Nat × Nat) :=
  if d.xkeep then []
  else
    let rows := if g.isPair then 2 * d.xk else d.xk
    (d.xline, d.xline + (rows - 1) * d.xstride + g.xLines d.xt - 1) ::
      (if g.xb = 0 then [] else [(d.xsline, d.xsline + g.xsLines d.xk - 1)])
def wRanges (g : Geo) (d : PassDesc) : List (Nat × Nat) :=
  if d.wsrc then []
  else (d.wline, d.wline + (d.nch - 1) * d.wstride + g.wLines d.xk - 1) ::
    (if g.wb = 0 then [] else [(d.wsline, d.wsline + g.wsLines d.nch - 1)])
def oRange (d : PassDesc) : Nat × Nat := (d.oline, d.oline + 8 * d.nch - 1)

/-- The profile the stationary tile was loaded under, which XKEEP asks for (R103); none while XVALID is 0. -/
def keptTile (s : State) (c : CoreId) : Option Nat :=
  if s.rb Reg.CA_STAT_XVALID (coreU c) then some (s.rd Reg.CA_STAT_XFMTP (coreU c)) else none

/-- True of block sizes a profile may have with its formats (R105, R120): a code that is not reserved, and scales on formats 3 to 9
only. -/
def Geo.blocksOk (g : Geo) : Bool :=
  let ok := fun f b : Nat => b == 0 || (decide (b ≤ 256) && decide (3 ≤ f ∧ f ≤ 9))
  ok g.wf g.wb && ok g.xf g.xb

/-- The number of the first failed descriptor check: 9 for a missing heritage licence, checked first (R200), then 1
to 8 in R103's order; 0 when none fails. -/
def descCheck (s : State) (c : CoreId) (g : Geo) (d : PassDesc) : Nat :=
  let ham := d.mode == 5 && d.pred == 4
  let beyond := fun r : Nat × Nat => decide ((r.2 + 1) * 64 > spLimit s c)
  if d.heritage && !s.rb Reg.HB_ID_HERITAGE 0 then 9
  else if d.xk = 0 ∨ d.xk > g.kt ∨ d.xt = 0 ∨ d.xt > 128 ∨ d.nch = 0 ∨ d.nch > 16384 then 1
  else if !pairOk g.wf g.xf d.mode || !g.blocksOk || decide (d.mode > 5) || (d.mode == 5 && decide (d.pred > 4))
      || (ham && !g.isInt) || !oopOk d.oop d.mode then 2
  else if d.heritage && !heritageOk g d then 3
  else if d.xkeep && keptTile s c != some d.fmtp then 4
  else if d.oline % 32 ≠ 0 then 5
  else if (oRange d :: xRanges g d ++ wRanges g d).any beyond then 6
  else if d.wsrc && !s.rb Reg.DN_DESC_VALID c.die.val (d.wline % 2 ^ 15) then 7
  else if (d.xstride = 0 ∧ !d.xkeep) ∨ (d.wstride = 0 ∧ !d.wsrc) then 8
  else 0

/-- The passes not yet streaming (R84). -/
def notBegun (l : List Pass) : Nat := (l.filter fun p => p.stage != .streaming && p.stage != .draining).length

/-- True when the array block takes no further pass (R84): two have still to begin, three are in it, or four with the oldest
draining. -/
def blockFull (l : List Pass) : Bool :=
  decide (notBegun l ≥ 2) || decide (l.length ≥ 4)
    || (decide (l.length = 3) && !((l.head?).any fun p => p.stage == .draining))

/-- CA_STAT from the passes in the block (R107). -/
def updStat (s : State) (c : CoreId) : State :=
  let u := coreU c
  let l := (s.cx c).passes
  ((s.wr Reg.CA_STAT_WAITING u (notBegun l)).wb Reg.CA_STAT_STREAMING u (l.any fun p => p.stage == .streaming)).wb
    Reg.CA_STAT_DRAINING u (l.any fun p => p.stage == .draining)

/-- Replaces the passes in the block. -/
def setPasses (s : State) (c : CoreId) (l : List Pass) : State := updStat (s.setCx c { s.cx c with passes := l }) c

/-- CA_STAT where the block holds neither a tile nor a pass (R107). -/
def emptyStat (s : State) (c : CoreId) : State :=
  updStat ((s.wb Reg.CA_STAT_XVALID (coreU c) false).wr Reg.CA_STAT_XFMTP (coreU c) 0) c

/-- Puts a pass in the place of the one with its number. -/
def setPass (s : State) (c : CoreId) (p : Pass) : State :=
  setPasses s c ((s.cx c).passes.map fun q => if q.id = p.id then p else q)

/-- AINC on the overriding descriptors, once to each (R200). -/
def mpassPost (c : CoreId) (w : IFields) (s : State) : State :=
  let a := w.a.toNat - 0x20
  let b := w.b.toNat - 0x20
  let fa := bit w.fn.toNat 3
  let fb := bit w.fn.toNat 4
  if !bit w.fn.toNat 5 then s
  else
    let s1 := if fa then wrA s c a (aIncrement (rdA s c a)) else s
    if fb && !(fa && a == b) then wrA s1 c b (aIncrement (rdA s1 c b)) else s1

/-- The descriptor MPASS uses: FN[2:0]'s, with the input and output lines its overrides give (R200). -/
def mpassDesc (s : State) (c : CoreId) (w : IFields) : PassDesc :=
  let d0 := descOf s c (w.fn.toNat % 8)
  let d1 := if bit w.fn.toNat 3 then { d0 with xline := aBase (rdA s c (w.a.toNat - 0x20)) / 64 } else d0
  if bit w.fn.toNat 4 then { d1 with oline := aBase (rdA s c (w.b.toNat - 0x20)) / 64 } else d1

/-- The ranges a pass declares (R92, R240). -/
def passRanges (g : Geo) (d : PassDesc) (id : Nat) : List SbEnt :=
  (xRanges g d).map (fun r => (⟨r.1, r.2, false, .passX id⟩ : SbEnt))
    ++ (wRanges g d).map (fun r => ⟨r.1, r.2, false, .passW id⟩)
    ++ [⟨(oRange d).1, (oRange d).2, true, .passO id⟩]

/-- A pass enters the array block, with its ranges on the scoreboard (R83, R84). -/
def enterPass (s : State) (c : CoreId) (g : Geo) (d : PassDesc) : State :=
  let x := s.cx c
  let p : Pass := { id := x.passId, desc := d, passNo := x.passNo, stage := .waiting, sub := 0, group := 0,
                    loTodo := g.isPair && !d.xkeep }
  let t := s.setCx c { x with passId := x.passId + 1, passNo := x.passNo + 1 }
  setPasses (setSb t c ((t.cx c).sb ++ passRanges g d x.passId)) c (x.passes ++ [p])

/-- MPASS (R83, R84, R92, R103, R200). -/
def bodyMpass (c : CoreId) (w : IFields) (s : State) : Eff :=
  let fn := w.fn.toNat
  let xo := aBase (rdA s c (w.a.toNat - 0x20))
  let oo := aBase (rdA s c (w.b.toNat - 0x20))
  let d := mpassDesc s c w
  let g := geoOf s c d.fmtp d.mode d.heritage
  if d.heritage && !s.rb Reg.HB_ID_HERITAGE 0 then .trap trArrayDesc 9
  else if bit fn 3 && decide (xo % 64 ≠ 0) then .trap trMisalign xo
  else if bit fn 4 && decide (oo % 64 ≠ 0) then .trap trMisalign oo
  else if descCheck s c g d ≠ 0 then .trap trArrayDesc (descCheck s c g d)
  else if blockFull (s.cx c).passes then .held
  else withRanges c s (passRanges g d (s.cx c).passId) fun t => .done (mpassPost c w (enterPass t c g d))

/-- The form of MPASS: A and B are named when they override (R200). -/
def formMpass (w : IFields) : Form :=
  { a := if bit w.fn.toNat 3 then .a else .none, b := if bit w.fn.toNat 4 then .a else .none, fn := 0x3F }

/-- R200: MPASS. -/
def execMpass (c : CoreId) (w : IFields) (s : State) : Host.Outcome State Fault Refusal :=
  .next (issue 0x50 (formMpass w) c w s (bodyMpass c w))

/-- Waits in WAIT_SYNC until a condition holds (R220). -/
def waitSync (c : CoreId) (s : State) (ok : Bool) (k : State → Eff) : Eff :=
  if ok then k s else .wait fun s0 => s0.setCst c stWaitSync

/-- MWAIT: no more than IMM[1:0] incomplete passes (R201). -/
def bodyMwait (c : CoreId) (w : IFields) (s : State) : Eff :=
  waitSync c s (decide ((s.cx c).passes.length ≤ w.imm.toNat % 4)) .done

/-- R201: MWAIT. -/
def execMwait (c : CoreId) (w : IFields) (s : State) : Host.Outcome State Fault Refusal :=
  .next (issue 0x51 { imm := 3 } c w s (bodyMwait c w))

/-! ## The tile -/

/-- The elements of a packed row (R118). -/
def unpackRow (fmt n : Nat) (bs : List Byte) : List Nat :=
  let v := ofLeBytes bs
  (List.range n).map fun i => bits v (fmtBits fmt * i) (fmtBits fmt)

/-- Reads the rows of a tile from its base line. -/
def readTileRows (s : State) (c : CoreId) (g : Geo) (d : PassDesc) (base : Nat) : List (List Nat) × State :=
  (List.range d.xk).foldl (fun r k =>
    let b := spRead r.2 c ((base + k * d.xstride) * 64) (g.xLines d.xt * 64) rqTile
    (r.1 ++ [unpackRow g.xf d.xt b.1], b.2)) ([], s)

/-- Reads the scale codes of a tile's elements (R122); 0x7F, which is 2^0, without scales. -/
def readTileScales (s : State) (c : CoreId) (g : Geo) (d : PassDesc) : List (List Nat) × State :=
  if g.xb = 0 then ((List.range d.xk).map fun _ => List.replicate d.xt 0x7F, s)
  else
    let r := spRead s c (d.xsline * 64) (g.xsLines d.xk * 64) rqTile
    ((List.range d.xk).map fun k => (List.range d.xt).map fun t =>
      ((r.1[if g.xdir then 16 * k + t / g.xb else 128 * (k / g.xb) + t]?).getD 0).toNat, r.2)

/-- The pass whose tile load is in progress (R85, R89): a pair's low tile during its first sub-pass, else the first
pass with a load of its own once every earlier one has swapped and the shadow register is free; a streaming pair frees it in its
third sub-pass. A load goes on while the arrays are gated in C2 (R97), and stands still without clock. -/
def loadingPass (s : State) (c : CoreId) : Option Pass :=
  let x := s.cx c
  let pair := fun p : Pass => (geoOf s c p.desc.fmtp p.desc.mode p.desc.heritage).isPair
  if !aclkRuns s c || decide (3 ≤ s.rd Reg.LH_CSTATE_STATE (coreU c)) then none else
  match x.passes.find? fun p => p.stage == .streaming && p.loTodo with
  | some p => some p
  | none =>
    match x.passes.find? fun p => !p.desc.xkeep && p.stage != .streaming && p.stage != .draining with
    | some p =>
      if p.stage == .waiting && x.shadow.isNone && !(x.passes.any fun q => q.stage == .streaming && pair q && q.sub != 2) then some p
      else none
    | none => none

/-- A tile register's parity error (R98) is an event of its core (R529). -/
def tileError (s : State) (c : CoreId) (p : Pass) : State :=
  raiseCore (s.lg LogKind.tileUe (coreU c) [p.passNo]) c false (coreEvent s c 4 0x09 0 [p.passNo])

/-- R86: a tile load completes and its X range is released. Without a TILE share in the bank slot table a load makes
no progress (R629). `parity`: a tile register error is detected during the load (R98). -/
def execTileLoadComplete (c : CoreId) (parity : Bool) (s : State) : Host.Outcome State Fault Refusal :=
  match loadingPass s c with
  | none => .next s
  | some p =>
    if bankShare s c ownTile = 0 then .next s
    else
      let d := p.desc
      let g := geoOf s c d.fmtp d.mode d.heritage
      let s0 := if parity then tileError s c p else s
      if p.stage == .streaming then
        let r := readTileRows s0 c g d (d.xline + d.xk * d.xstride)
        let s1 := r.2.setCx c { r.2.cx c with tile := { (r.2.cx c).tile with lo := r.1 } }
        .next (setPass (releaseSb s1 c fun o => o == .passX p.id) c { p with loTodo := false, ue := p.ue || parity })
      else
        let r := readTileRows s0 c g d d.xline
        let q := readTileScales r.2 c g d
        let s1 := q.2.setCx c { q.2.cx c with shadow := some { fmtp := d.fmtp, hi := r.1, lo := [], scale := q.1 } }
        let s2 := if p.loTodo then s1 else releaseSb s1 c fun o => o == .passX p.id
        .next (setPass s2 c { p with stage := .loaded, ue := p.ue || parity })

/-- R85: once its load is complete, the preceding pass's last row group has entered and the arrays are awake (R97), the
pass swaps its tile into the stationary register and begins to stream. -/
def execPassSwap (c : CoreId) (s : State) : Host.Outcome State Fault Refusal :=
  let x := s.cx c
  match x.passes.find? (fun p => p.stage != .draining), x.shadow with
  | some p, some t =>
    if p.stage == .loaded && aclkRuns s c && decide (s.rd Reg.LH_CSTATE_STATE (coreU c) < 2) then
      let u := coreU c
      let s1 := s.setCx c { x with tile := t, shadow := none }
      let s2 := (s1.wb Reg.CA_STAT_XVALID u true).wr Reg.CA_STAT_XFMTP u t.fmtp
      .next (setPass s2 c { p with stage := .streaming })
    else .next s
  | _, _ => .next s

/-- True while a swap waits for its load alone: the preceding pass's last row group has entered, or none is before it, and the arrays
are awake (R85, R91). -/
def swapWaits (s : State) (c : CoreId) : Bool :=
  match (s.cx c).passes.find? fun p => p.stage != .draining with
  | some p => !p.desc.xkeep && (p.stage == .waiting || p.stage == .loading) && decide (s.rd Reg.LH_CSTATE_STATE (coreU c) < 2)
  | none => false

/-! ## Element arithmetic -/

/-- The term of one reduction index in a float mode (R78). -/
def termF (mode : Nat) (w x : Val) : Val :=
  round27 (match mode with
    | 0 => w.mul x
    | 1 => (w.sub x).abs
    | 2 => (w.sub x).mul (w.sub x)
    | _ => w.add x)

/-- The combining operation of a float mode (R79). -/
def combF (mode : Nat) (a b : Val) : Val :=
  match mode with
  | 3 => round27 (a.max b)
  | 4 => round27 (a.min b)
  | _ => round27 (a.add b)

/-- One chain: its terms combined in order (R79). -/
def chainF (f : Val → Val → Val) : List Val → Val
  | [] => .nan
  | v :: r => r.foldl f v

/-- The combination of R79: chains of 16 terms, then a pairwise tree over the chains that have terms. Chains fill in
index order, so an absent node is a last one and its sibling passes on. -/
def reduceF (mode : Nat) (terms : List Val) : Val :=
  let chains := (chunks 16 terms.length terms).map (chainF (combF mode))
  pairTree (combF mode) .nan chains.length chains

/-- The order of a heritage pass (R153): chains of 32 from +0 in binary32, added in sequence. -/
def reduceH (terms : List Val) : Nat :=
  let step := fun (acc : Nat) (v : Val) => rne32 ((v32 acc).add v)
  match (chunks 32 terms.length terms).map fun l => l.foldl step 0 with
  | [] => 0
  | t :: r => r.foldl (fun a b => rne32 ((v32 a).add (v32 b))) t

/-- True when a CCOUNT predicate other than HAM holds (R78, R630). -/
def predHolds (p : Nat) (w x : Val) : Bool :=
  let nan := w == .nan || x == .nan
  match p with
  | 0 => !nan && w.cmp x == 0
  | 1 => nan || w.cmp x != 0
  | 2 => !nan && decide (w.cmp x < 0)
  | _ => !nan && decide (w.cmp x ≥ 0)

/-- The bits that differ between two codes, an INT4 code beside an INT8 one sign-extended first (R78, R630). -/
def hamBits (wf xf wc xc : Nat) : Nat :=
  let ext := fun f code : Nat => if wf ≠ xf ∧ f = 9 then unsgn 8 (sgn 4 code) else code
  let v := ext wf wc ^^^ ext xf xc
  ((List.range 8).filter fun i => bit v i).length

/-- The signed integer of an integer element. -/
def intOf (fmt code : Nat) : Int := sgn (fmtBits fmt) code

/-- The term of one reduction index in an integer pass (R78, R81). -/
def termI (mode : Nat) (w x : Int) : Int :=
  match mode with
  | 0 => w * x
  | 1 => (w - x).natAbs
  | 2 => (w - x) * (w - x)
  | _ => w + x

/-- The combination of integer terms (R78, R81). -/
def reduceI (mode : Nat) : List Int → Int
  | [] => 0
  | v :: r =>
    match mode with
    | 3 => r.foldl max v
    | 4 => r.foldl min v
    | _ => r.foldl (· + ·) v

/-- The 32-bit result of one token and channel (R78-R81, R153) from the codes and scaled values of both operands over
the reduction index. -/
def passResult (g : Geo) (d : PassDesc) (wc : List Nat) (wv : List Val) (xc : List Nat) (xv : List Val) : Nat :=
  if d.mode = 5 then
    if d.pred = 4 then ((wc.zip xc).map fun p => hamBits g.wf g.xf p.1 p.2).sum
    else ((wv.zip xv).filter fun p => predHolds d.pred p.1 p.2).length
  else if g.isInt then
    unsgn 32 (reduceI d.mode ((wc.zip xc).map fun p => termI d.mode (intOf g.wf p.1) (intOf g.xf p.2)))
  else if d.heritage then reduceH ((wv.zip xv).map fun p => p.1.mul p.2)
  else rne32 (reduceF d.mode ((wv.zip xv).map fun p => termF d.mode p.1 p.2))

/-! ## The accumulation port -/

/-- The flags a pass gathers from its results (R102). -/
structure PFlags where
  ovf : Bool := false
  nan : Bool := false
  sat : Bool := false
deriving DecidableEq, Repr

/-- OR of two sets of pass flags. -/
def PFlags.or (a b : PFlags) : PFlags := ⟨a.ovf || b.ovf, a.nan || b.nan, a.sat || b.sat⟩

/-- The flags of an FP32 value: infinite, NaN (R80, R100). -/
def flags32 (code : Nat) : PFlags :=
  match v32 code with
  | .nan => { nan := true }
  | .inf _ => { ovf := true }
  | .fin _ _ _ => {}

/-- What the port stores for one result over the stored word (R100, R101). -/
def portValue (isInt : Bool) (mode oop tscale res old : Nat) : Nat × PFlags :=
  if isInt then
    let a := sgn 32 old
    let b := sgn 32 res
    match oop with
    | 0 => (res, {})
    | 1 =>
      if a + b > 2 ^ 31 - 1 then (0x7FFFFFFF, { sat := true })
      else if a + b < -(2 ^ 31 : Int) then (0x80000000, { sat := true })
      else (unsgn 32 (a + b), {})
    | 2 => (unsgn 32 (max a b), {})
    | _ => (unsgn 32 (min a b), {})
  else
    let r := if mode ≤ 2 then rne32 ((v32 res).mul (v32 tscale)) else res
    let v := match oop with
      | 0 => r
      | 1 => rne32 ((v32 old).add (v32 r))
      | 2 => rne32 ((v32 old).max (v32 r))
      | _ => rne32 ((v32 old).min (v32 r))
    (v, (flags32 res).or (flags32 v))

/-- Applies one output row at the port (R99): the results of one channel for every token. -/
def portRow (s : State) (c : CoreId) (isInt : Bool) (d : PassDesc) (oop chan : Nat) (res : List Nat) : State × PFlags :=
  let off := d.oline * 64 + 512 * chan
  let r := if oop = 0 then (([] : List Byte), s) else spRead s c off (4 * res.length) rqAcc
  let old := ofLeBytes r.1
  let out := (List.range res.length).map fun t =>
    portValue isInt d.mode oop d.tscale ((res[t]?).getD 0) (bits old (32 * t) 32)
  (spWrite r.2 c off (out.flatMap fun p => leBytes 4 p.1) rqAcc, out.foldl (fun f p => f.or p.2) {})

/-! ## Row groups -/

/-- The scale code of reduction index `k` of a weight row, from the scale bytes that govern the row (R122, R123). -/
def wScaleAt (g : Geo) (sc : List Byte) (k : Nat) : Nat :=
  if g.wb = 0 then 0x7F else ((sc[if g.wdir then k else k / g.wb]?).getD 0).toNat

/-- The weight row and scale bytes of a channel through the weight port (R122). Scale lines are read once: the 4 lines of a scale row
before the first channel of its block, or the line of two channels before the first of them; `sc` are those in force. -/
def portWeights (s : State) (c : CoreId) (g : Geo) (d : PassDesc) (chan : Nat) (sc : List Byte) :
    (List Byte × List Byte) × List Byte × State :=
  let r := spRead s c ((d.wline + chan * d.wstride) * 64) (g.wLines d.xk * 64) rqWgt
  if g.wb = 0 then ((r.1, []), sc, r.2)
  else if g.wdir then
    let q := if chan % g.wb = 0 then spRead r.2 c (d.wsline * 64 + 256 * (chan / g.wb)) 256 rqWgt else (sc, r.2)
    ((r.1, q.1), q)
  else
    let q := if chan % 2 = 0 then spRead r.2 c (d.wsline * 64 + 32 * chan) 64 rqWgt else (sc, r.2)
    ((r.1, q.1.drop (32 * (chan % 2))), q)

/-- The channels of row group `j` of a pass, counted over its sub-passes (R73, R89). -/
def groupChans (d : PassDesc) (j : Nat) : List Nat :=
  let k := j % ((d.nch + 3) / 4)
  (List.range 4).filterMap fun i => if 4 * k + i < d.nch then some (4 * k + i) else none

/-- The weight rows and scale bytes of a row group. -/
abbrev RowGroup := List (List Byte × List Byte)

/-- The weight port reads ahead, in row order, the entering row group `j` of `total` and up to two more; `l` are those it holds
(R231) and `sc` the scale lines in force. -/
def readAhead (c : CoreId) (g : Geo) (d : PassDesc) (j total : Nat) (l : List RowGroup) (sc : List Byte) (s : State) :
    List RowGroup × List Byte × State :=
  (List.range (min 3 (total - j) - l.length)).foldl (fun r i =>
    let q := (groupChans d (j + l.length + i)).foldl (fun q ch =>
      let w := portWeights q.2.2 c g d ch q.2.1
      (q.1 ++ [w.1], w.2)) (([] : RowGroup), r.2)
    (r.1 ++ [q.1], q.2)) (l, sc, s)

/-- The weight codes of a row in a sub-pass: for a pair the low part first, then the high part twice (R89). -/
def weightCodes (g : Geo) (d : PassDesc) (sub : Nat) (row : List Byte) : List Nat :=
  let half := (d.xk * fmtBits g.wf + 511) / 512 * 64
  unpackRow g.wf d.xk (if g.isPair && sub == 0 then row.drop half else row)

/-- The tile codes of a sub-pass: for a pair x_hi, x_lo, x_hi (R89). -/
def tileCodes (g : Geo) (sub : Nat) (t : Tile) : List (List Nat) := if g.isPair && sub == 1 then t.lo else t.hi

/-- True when a pass reaches beyond the rows or tokens its tile was loaded with, as an XKEEP pass may. -/
def tileShort (d : PassDesc) (t : Tile) : Bool :=
  decide (t.hi.length < d.xk) || t.hi.any fun r => decide (r.length < d.xt)

/-- Rows of `rows` x `cols` codes of `w` bits; where a tile was loaded with none, the spec states no contents and each code is a
free value. -/
def padRows (w free rows cols : Nat) (l : List (List Nat)) : List (List Nat) :=
  (List.range rows).map fun k => (List.range cols).map fun i =>
    ((l[k]?).bind fun r => r[i]?).getD (Config.freeValue (free + 128 * k + i) % 2 ^ w)

/-- The stationary tile as a pass of this descriptor reads it. -/
def tileFor (g : Geo) (d : PassDesc) (free : Nat) (t : Tile) : Tile :=
  if tileShort d t then
    { t with
      hi := padRows (fmtBits g.xf) free d.xk d.xt t.hi
      lo := padRows (fmtBits g.xf) (free + 32768) d.xk d.xt t.lo
      scale := if g.xb = 0 then padRows 0 0 d.xk d.xt [] |>.map (·.map fun _ => 0x7F)
        else padRows 8 (free + 65536) d.xk d.xt t.scale }
  else t

/-- The column of one token. -/
def column {α : Type} (d : α) (t : Nat) (rows : List (List α)) : List α := rows.map fun r => (r[t]?).getD d

/-- The value of an element under its format; a part of a pair is a BF16 value. -/
def elemVal (fmt code sc : Nat) : Val := withScale (decodeElem (if fmt = 10 then 2 else fmt) code) sc

/-- True when a pass is sampled for shadow watching (R158). -/
def sampled (s : State) (c : CoreId) (p : Pass) : Bool :=
  match gatherOf s c with
  | none => false
  | some g =>
    s.rb Reg.PZ_WATCH_SHADOW_EN g.die.val g.idx.val && !p.desc.heritage && p.desc.mode == 0 &&
      (p.passNo + 17 * c.lc.val + 29 * (s.rd Reg.PZ_STEP_STEP 0 % 2 ^ 16))
        % 2 ^ s.rd Reg.PZ_WATCH_RATE g.die.val g.idx.val == 0

/-- The channel group and the first token of a sample (R159). -/
def sampleAt (s : State) (c : CoreId) (p : Pass) : Nat × Nat :=
  let step := s.rd Reg.PZ_STEP_STEP 0 % 2 ^ 16
  ((step + c.lc.val) % ((p.desc.nch + 3) / 4), if p.desc.xt ≤ 64 then 0 else 64 * (step % 2))

/-- The pass whose row groups enter: the first that has not entered its last one, when it streams or needs no swap of
its own (R85); none while the arrays are gated (R97) or stand still. -/
def streamingPass (s : State) (c : CoreId) : Option Pass :=
  match (s.cx c).passes.find? fun p => p.stage != .draining with
  | some p =>
    if aclkRuns s c && (p.stage == .streaming || (p.desc.xkeep && p.stage == .waiting)) && decide (s.rd Reg.LH_CSTATE_STATE (coreU c) < 2) then some p
    else none
  | none => none

/-- Adds two sampled results of a pair's sub-passes (R89, R159). -/
def addSamples (a b : List (List Nat)) : List (List Nat) :=
  (a.zip b).map fun p => (p.1.zip p.2).map fun q => rne32 ((v32 q.1).add (v32 q.2))

/-- Lines waiting at the weight port: each with whether it ends a flit. -/
abbrev PortLines := List (List Byte × Bool)

/-- Takes `n` lines; none where fewer wait. -/
def takeLines (n : Nat) (l : PortLines) : Option (List Byte × PortLines) :=
  if l.length < n then none else some ((l.take n).flatMap (·.1), l.drop n)

/-- Takes the rows of channels from a weight stream (R123): with WDIR = 0 a line of scales before each row, with
WDIR = 1 the lines of a scale row before each channel that starts a block; `sc` is the scale row in force. The rows with
the scale bytes that govern them, the scale row then, and the lines left. -/
def takeRows (g : Geo) (xk : Nat) : List Nat → List Byte → PortLines →
    Option (List (List Byte × List Byte) × List Byte × PortLines)
  | [], sc, l => some ([], sc, l)
  | ch :: r, sc, l =>
    let nsc := if g.wb = 0 then 0 else if g.wdir then (if ch % g.wb = 0 then (xk + 63) / 64 else 0) else 1
    match takeLines nsc l with
    | none => none
    | some a =>
      let sc1 := if nsc = 0 then sc else a.1
      match takeLines (g.wLines xk) a.2 with
      | none => none
      | some b => (takeRows g xk r sc1 b.2).map fun q => ((b.1, sc1) :: q.1, q.2)

/-- Returns the credit of every flit the weight port has taken whole (R284): `done` flits of a stream. -/
def portCredits (s : State) (c : CoreId) (i : Nat) : Nat → State
  | 0 => s
  | n + 1 =>
    let k := (s.sx c.die i).written + 1
    portCredits (flitDone s c.die i (k == runFlits s c.die i) (.core c)) c i n

/-- The divider of HCLK by which a core's ACLK runs (R59); a core outside every gather has none applied and runs at the fastest. -/
def aclkDiv (s : State) (c : CoreId) : Nat :=
  match gatherOf s c with
  | some g => match s.rd Reg.LH_GACLK_APPLIED g.die.val g.idx.val with
    | 0 => 4
    | 1 => 5
    | 2 => 6
    | _ => 8
  | none => 4

/-- The ACLK by which the port's share of row group `j` exceeds the row time `e` (R99): e_eff - e, averaged over the pass, in whole
ACLK as they complete. -/
def portStall (s : State) (c : CoreId) (e j : Nat) : Nat :=
  let a := aclkDiv s c
  let k := 2 * nclkDiv s - e * a
  (j + 1) * k / a - j * k / a

/-- The rows of the next row group of a pass that takes them from a stream, if all have come. -/
def streamRows (s : State) (c : CoreId) (p : Pass) : Option (RowGroup × List Byte × PortLines) :=
  let d := p.desc
  let g := geoOf s c d.fmtp d.mode d.heritage
  takeRows g d.xk (groupChans d p.group) p.srow (smGet [] (s.cx c).wpt (d.wline % 2 ^ 15))

/-- True when a row of the next row group of a pass is missing: it has not come on the stream, or the weight port has no share of the
banks (R91, R629). -/
def rowMissing (s : State) (c : CoreId) (p : Pass) : Bool :=
  if p.desc.wsrc then (streamRows s c p).isNone else bankShare s c ownWgt == 0

/-- True while the arrays hold for a weight row (R91); a pair's second sub-pass that waits for its low tile is no such hold. -/
def rowsWait (s : State) (c : CoreId) : Bool :=
  match streamingPass s c with
  | some p => !((geoOf s c p.desc.fmtp p.desc.mode p.desc.heritage).isPair && p.sub == 1 && p.loTodo) && rowMissing s c p
  | none => false

/-- R91, R99: a row group enters the arrays and its results are stored. Rows come through the weight port from the scratchpad,
read ahead (R231), the W range being released once the last is read (R92), or from the stream the descriptor names; with a row
missing the arrays hold. Without a WGT share the weight port makes no progress (R629). `parity`: a tile register error (R98). -/
def execRowGroupEntry (c : CoreId) (parity : Bool) (s : State) : Host.Outcome State Fault Refusal :=
  match streamingPass s c with
  | none => .next s
  | some p =>
    let u := coreU c
    let d := p.desc
    let g := geoOf s c d.fmtp d.mode d.heritage
    let n := (d.nch + 3) / 4
    let last := if g.isPair then 2 else 0
    let j := n * p.sub + p.group
    let chans := groupChans d j
    let si := d.wline % 2 ^ 15
    let wait := smGet [] (s.cx c).wpt si
    let rows := if d.wsrc then streamRows s c p else none
    if (g.isPair && p.sub == 1 && p.loTodo) || rowMissing s c p then .next s
    else
      let t := tileFor g d s.free (s.cx c).tile
      let s000 := if tileShort d (s.cx c).tile then { s with free := s.free + 98304 } else s
      let s00 := if parity then tileError s000 c p else s000
      let s0 := match rows with
        | some q =>
          let used := wait.take (wait.length - q.2.2.length)
          let x := s00.cx c
          portCredits (s00.setCx c { x with wpt := smSet [] x.wpt si q.2.2 }) c si (used.filter (·.2)).length
        | none => s00
      let buf := if d.wsrc then ([], p.srow, s0) else readAhead c g d j (n * (last + 1)) p.ahead p.srow s0
      let srow := match rows with
        | some q => q.2.1
        | none => buf.2.1
      let fetched := match rows with
        | some q => (q.1, s0)
        | none => (buf.1.headD [], buf.2.2)
      let wcs := fetched.1.map fun r => weightCodes g d p.sub r.1
      let wvs := (fetched.1.zip wcs).map fun r =>
        (List.range r.2.length).map fun k => elemVal g.wf ((r.2[k]?).getD 0) (wScaleAt g r.1.2 k)
      let xcs := (List.range d.xt).map fun i => column 0 i (tileCodes g p.sub t)
      let xvs := (List.range d.xt).map fun i =>
        ((column 0 i (tileCodes g p.sub t)).zip (column 0x7F i t.scale)).map fun q => elemVal g.xf q.1 q.2
      let res := (wcs.zip wvs).map fun w => (xcs.zip xvs).map fun x => passResult g d w.1 w.2 x.1 x.2
      let isInt := g.intResult d.mode
      let oop := if p.sub = 0 then d.oop else 1
      let port := (chans.zip res).foldl (fun r q =>
        let o := portRow r.1 c isInt d oop q.1 q.2
        (o.1, r.2.or o.2)) (fetched.2, ({} : PFlags))
      let at_ := sampleAt s c p
      let half := res.map fun r => (r.drop at_.2).take 64
      let take := sampled s c p && at_.1 == p.group
      let samp := if !take then p.samp else if p.sub = 0 then half else addSamples p.samp half
      let x1 := port.1.cx c
      let s1 :=
        if take && p.sub == last then
          if x1.capture.isSome then port.1.bump Reg.CV_SHSKIP_COUNT u
          else
            let wfull := fetched.1.map fun r =>
              let hi := weightCodes g d 1 r.1
              let lo := if g.isPair then weightCodes g d 0 r.1 else hi.map fun _ => 0
              (List.range hi.length).map fun k =>
                if g.isPair then decodePair ((hi[k]?).getD 0) ((lo[k]?).getD 0)
                else elemVal g.wf ((hi[k]?).getD 0) (wScaleAt g r.2 k)
            let xfull := (List.range (min 64 (d.xt - at_.2))).map fun i =>
              let hi := column 0 (at_.2 + i) t.hi
              let lo := if g.isPair then column 0 (at_.2 + i) t.lo else hi.map fun _ => 0
              let sc := column 0x7F (at_.2 + i) t.scale
              (List.range hi.length).map fun k =>
                if g.isPair then decodePair ((hi[k]?).getD 0) ((lo[k]?).getD 0)
                else elemVal g.xf ((hi[k]?).getD 0) ((sc[k]?).getD 0x7F)
            let cap : Capture := ⟨p.passNo, 4 * p.group, at_.2, xfull, wfull, samp, isInt⟩
            port.1.setCx c { x1 with capture := some cap }
        else port.1
      let cyc := s1.rd64 Reg.CA_ROWCYC_LO Reg.CA_ROWCYC_HI u + g.e
      let s2 := (s1.wr64 Reg.CA_ROWCYC_LO Reg.CA_ROWCYC_HI u cyc).bump Reg.CA_STALLP_COUNT u (portStall s c g.e j)
      let f := port.2
      let p1 : Pass := { p with stage := .streaming, ovf := p.ovf || f.ovf, nan := p.nan || f.nan,
                                sat := p.sat || f.sat, ue := p.ue || parity, samp := samp,
                                srow := srow, ahead := buf.1.tail }
      let s3 := if j + max 1 buf.1.length < n * (last + 1) then s2 else releaseSb s2 c fun o => o == .passW p.id
      .next (setPass s3 c (if p.group + 1 < n then { p1 with group := p.group + 1 }
        else if p.sub < last then { p1 with group := 0, sub := p.sub + 1 }
        else { p1 with group := n, stage := .draining }))

end Sys2Proof.Machine
end

