-- ==== Sys2Proof/Machine/Sync.lean ====
section
/-! DEFINITION. The sync network: barrier groups and their rounds (R322-R330), the starts and ends of phases (R171, R186,
R213, R282) and the sync instructions. -/

namespace Sys2Proof.Machine

/-! ## Groups -/

/-- True when a logical core is a member of group `g` of its die (R323, R332). -/
def isMember (s : State) (c : CoreId) (g : Nat) : Bool :=
  bit (s.rd64 Reg.SY_GRP_MEMLO Reg.SY_GRP_MEMHI c.die.val g) c.lc.val

/-- True when a core's arrive bit is set in the open round (R332). -/
def hasArrived (s : State) (c : CoreId) (g : Nat) : Bool := bit (s.rd64 Reg.SY_ARR_LO Reg.SY_ARR_HI c.die.val g) c.lc.val

/-- The members of a group: those of its mask that a leaf hosts (R323); a leaf without one asserts arrive at all times. -/
def members (s : State) (d : DieId) (g : Nat) : List CoreId := (dieCores d).filter fun c => isMember s c g && corePresent s c

/-- The gather a phase group serves (R323). -/
def groupGather (s : State) (d : DieId) (g : Nat) : Gather := ⟨d, Fin.ofNat 64 (s.rd Reg.SY_GRP_GATHER d.val g)⟩

/-- True when a parity error holds the bundle of a group (R328). -/
def bundleHeld (s : State) (d : DieId) (g : Nat) : Bool := (s.dx d).parityHeld.contains (g / 32)

/-- True while the sync network of a die stands still (R65). -/
def syncStopped (s : State) (d : DieId) : Bool := s.rb Reg.BT_CLKSTAT_STOPPED d.val

/-- True when every member of a group has arrived; a group without members has no rounds. -/
def allArrived (s : State) (d : DieId) (g : Nat) : Bool :=
  !(members s d g).isEmpty && (members s d g).all fun c => hasArrived s c g

/-- True of a group that spans dies (R326). -/
def crossDie (s : State) (d : DieId) (g : Nat) : Bool :=
  s.rd Reg.SY_GRP_XDIE d.val g &&& (15 - 2 ^ d.val) != 0

/-- Sets the arrived members of a group's open round. -/
def setArrived (s : State) (d : DieId) (g v : Nat) : State :=
  (s.wr64 Reg.SY_ARR_LO Reg.SY_ARR_HI d.val v g).wb Reg.SY_GRP_OPEN d.val (v != 0) g

/-- A member arrives (R324); the last arrival on a die of a cross-die group is sent to the hub (R326). -/
def arrive (s : State) (c : CoreId) (g : Nat) : State :=
  if !isMember s c g ∨ hasArrived s c g then s
  else
    let s1 := setArrived s c.die g (s.rd64 Reg.SY_ARR_LO Reg.SY_ARR_HI c.die.val g + 2 ^ c.lc.val)
    if crossDie s1 c.die g && allArrived s1 c.die g && !bundleHeld s1 c.die g then sbSend s1 (.die c.die 0) 2 (syncPayload false g) else s1

/-- Takes back a core's arrival in an open round. -/
def unarrive (s : State) (c : CoreId) (g : Nat) : State :=
  if hasArrived s c g then setArrived s c.die g (s.rd64 Reg.SY_ARR_LO Reg.SY_ARR_HI c.die.val g - 2 ^ c.lc.val) else s

/-- Sets what a core waits for at a barrier. -/
def setBarWait (s : State) (c : CoreId) (w : Option (Nat × BarKind)) : State := s.setCx c { s.cx c with barWait := w }

/-- Withdraws an arrival of a core whose barrier wait is abandoned before the round is complete (R216, R219). -/
def withdraw (s : State) (c : CoreId) : State :=
  match (s.cx c).barWait with
  | none => s
  | some (g, k) =>
    let s1 := s.setCx c { s.cx c with barWait := none, arrAgain := [] }
    let again := (s.cx c).arrAgain.contains g
    if !again && k != .barw && k != .bara then unarrive s1 c g else s1

/-- Completes the barrier instruction a core waits at. -/
def barPass (s : State) (c : CoreId) : State :=
  if s.cst c = stWaitSync then advance ((setBarWait s c none).setCst c stRun) c else setBarWait s c none

/-- True when the open round of a group is a phase-ending one and the array block of a core holds a pass: it does not arrive there
(R95, R323). -/
def arraysBusy (s : State) (c : CoreId) (g : Nat) : Bool :=
  s.rb Reg.SY_GRP_PHASE c.die.val g && gatherDefined s (groupGather s c.die g) && (s.gx (groupGather s c.die g)).inPhase
    && !(s.cx c).passes.isEmpty

/-- What the release of a round does to one core of the die (R324): BAR, BARW and a held BARA go on; an arrival made
again counts for the next round, for which the instruction is issued anew where the core may not arrive yet (R95). -/
def releaseCore (s : State) (g : Nat) (c : CoreId) : State :=
  let x := s.cx c
  match x.barWait with
  | some (h, k) =>
    if h ≠ g then s
    else match k with
      | .bar =>
        if x.arrAgain.contains g && arraysBusy s c g then
          (s.setCx c { x with arrAgain := [], barWait := none }).setCst c stRun
        else if x.arrAgain.contains g then arrive (s.setCx c { x with arrAgain := [] }) c g else barPass s c
      | .bara =>
        if arraysBusy s c g then (s.setCx c { x with arrAgain := [], barWait := none }).setCst c stRun
        else barPass (arrive (s.setCx c { x with arrAgain := [] }) c g) c
      | .barw => barPass s c
      | _ => s
  | none => s

/-- A round completes (R324): the release bit inverts, the count rises, and every waiting core of the die sees it. -/
def completeRound (s : State) (d : DieId) (g : Nat) : State :=
  let s1 := (s.wr Reg.SY_GRP_SENSE d.val (1 - s.rd Reg.SY_GRP_SENSE d.val g) g).bump Reg.SY_GRP_ROUNDS d.val 1 g
  (dieCores d).foldl (fun t c => releaseCore t g c) (setArrived s1 d g 0)

/-! ## Phases -/

/-- Entries of the scoreboard of seals: how many unsealed phases of a gather have dependencies not yet sealed (R171). -/
def aheadCount (s : State) (g : Gather) : Nat :=
  ((s.gx g).phases.filter fun p => (phaseDeps s g p.ph).any fun q => !phaseSealed s q.1 q.2).length

/-- SY_SEALg.PROV and DEPTH of one gather (R182). -/
def updSeal (s : State) (g : Gather) : State :=
  (s.wb Reg.SY_SEAL_PROV g.die.val (!(s.gx g).phases.isEmpty) g.idx.val).wr Reg.SY_SEAL_DEPTH g.die.val
    (min 7 (aheadCount s g)) g.idx.val

/-- PROV and DEPTH of every gather: a seal or a recall frees or makes dependencies of others too (R182). -/
def updSeals (s : State) : State := ((allDies.flatMap dieGathers).filter (gatherDefined s)).foldl updSeal s

/-- Phases of a step of a gather (R374). -/
def nph (s : State) (g : Gather) : Nat := s.rd Reg.PZ_GATHER_NPH g.die.val g.idx.val

/-- The entry PC of a phase at a rung (R186, R393). -/
def entryPc (s : State) (c : CoreId) (ph rung : Nat) : Nat :=
  bits (s.rd64 Reg.PZ_PHASE_LO Reg.PZ_PHASE_HI (coreU c) ph) (13 * rung) 13

/-- The rung in force of a gather (R182). -/
def rungOf (s : State) (g : Gather) : Nat := s.rd Reg.SY_SEAL_RUNG g.die.val g.idx.val

/-- True when a gather is held (R543, FT_GHOLD). -/
def gatherHeld (s : State) (g : Gather) : Bool :=
  bit (s.rd Reg.FT_GHOLD_HELD g.die.val (g.idx.val / 32)) (g.idx.val % 32)

/-- The gather states of PZ_GATHER.STATE (R392). -/
def gsRun : Nat := 0
def gsWaiting : Nat := 1
def gsApplying : Nat := 2
def gsFailed : Nat := 3

/-- True when nothing of the die or the gather holds its phase start back: no hold (R543), no shift on its rows (R35),
no ratio-change stop (R56), no map-out of a core (R246), no reload (R382, R386), no step given up. -/
def startFree (s : State) (g : Gather) : Bool :=
  !gatherHeld s g && !s.rb Reg.LH_GACLK_STOPPING g.die.val g.idx.val
    && (s.rd Reg.PZ_GATHER_STATE g.die.val g.idx.val != gsApplying)
    && (s.rd Reg.PZ_GATHER_STATE g.die.val g.idx.val != gsFailed) && !(s.gx g).quiet
    && (gatherCores s g).all fun c =>
        (smGet none (s.dx g.die).shifts (c.lc.val / 8)).isNone && (s.cx c).mapping.isNone && (s.cx c).mapWanted.isEmpty

/-- True when the run-ahead limit lets the next phase start (R171): one more phase with unsealed dependencies still
counts at most RUNAHEAD. -/
def aheadOk (s : State) (g : Gather) : Bool :=
  let deps := phaseDeps s g (s.gx g).next
  deps.all (fun q => phaseSealed s q.1 q.2)
    || decide (aheadCount s g + 1 ≤ s.rd Reg.PZ_LADDER_RUNAHEAD g.die.val g.idx.val)

/-- True when a phase of a gather (by unit) has started, again where it was recalled, or is sealed. -/
def rerunStarted (s : State) (p : Nat × Nat) : Bool :=
  let g : Gather := ⟨Fin.ofNat 4 (p.1 / 64), Fin.ofNat 64 p.1⟩
  phaseSealed s g p.2 || decide (p.2 < (s.gx g).next)

/-- R175: true when phase `q` of a gather has not been discarded, or the reruns of its recalled dependencies have
started. -/
def rerunsBegun (s : State) (g : Gather) (q : Nat) : Bool :=
  let x := s.gx g
  decide (x.started ≤ q) || x.waitOn.all fun p =>
    rerunStarted s p || !(phaseDeps s g q).any fun e => gatherU e.1 == p.1 && e.2 == p.2

/-- True when the phase-starting round of a gather may complete: its step is released and phases are left. -/
def startReady (s : State) (g : Gather) : Bool :=
  let x := s.gx g
  startFree s g && x.released && x.rr.isNone && decide (x.next < nph s g) && aheadOk s g && rerunsBegun s g x.next

/-- What a phase start does to one core (R186, R257, R282): its pass count restarts, its remote cache is invalidated where RCAUTO
asks it, its streams are triggered, and a waiting PHSTART goes on; a core that waits at PHEND for the start issues its PHEND again
(R213). -/
def startCore (ph : Nat) (s : State) (c : CoreId) : State :=
  let s1 := s.setCx c { s.cx c with passNo := 0, phStarted := true }
  let s2 := if s1.rb Reg.CP_CFG_RCAUTO (coreU c) then rcInvalidate s1 c else s1
  let s3 := phaseStreams s2 c ph
  match (s3.cx c).barWait with
  | some (_, .phstart) => barPass s3 c
  | some (_, .phend) => (setBarWait s3 c none).setCst c stRun
  | _ => s3

/-- The phase-starting round of a gather completes: the phase begins on the rung in force, and the next one's hint is read
(R512). -/
def startPhase (s : State) (g : Gather) (grp : Nat) : State :=
  let x := s.gx g
  let s1 := s.setGx g { x with
    phases := x.phases ++ [{ ph := x.next, rung := rungOf s g, afterMem := x.memPh == some x.next }], inPhase := true, changed := false, next := x.next + 1
    started := max x.started (x.next + 1) }
  updSeal (phaseHint ((gatherCores s g).foldl (startCore x.next) (completeRound s1 g.die grp)) g x.next (nph s g)) g

/-- A core goes to the entry of a phase with its loop stack cleared (R186). -/
def enterAt (s : State) (c : CoreId) (ph rung : Nat) : State :=
  ((setLoops (setBarWait (s.setCx c { s.cx c with phStarted := false }) c none) c []).wr Reg.CS_PC_PC (coreU c)
    (entryPc s c ph rung)).setCst c stRun

/-- The phase-ending round of a gather completes (R167, R186): the phase has ended and every core that waited goes to
the entry of the next phase. After the last phase it waits for the release of the next step, whose phase 0 begins on a rung
that is in force only then (R179; DEDUCED), and may rest as at PHSTART (R517). -/
def endPhase (s : State) (g : Gather) (grp : Nat) : State :=
  let x := s.gx g
  let s1 := s.setGx g { x with
    inPhase := false
    phases := match x.phases.reverse with
      | [] => []
      | p :: r => ({ p with ended := true } :: r).reverse }
  (gatherCores s g).foldl (fun t c =>
    match (t.cx c).barWait with
    | some (_, .phend) =>
      if x.next < nph s g then enterAt t c x.next (rungOf t g)
      else restAt (t.setCx c { t.cx c with barWait := some (grp, .boundary), phStarted := false }) c g x.next (nph s g)
    | _ => t.setCx c { t.cx c with phStarted := false }) (completeRound s1 g.die grp)

/-- Phase 0 of a gather is released (R186, R375, R519): the cores that waited for it go to its entry on the rung in force, and
sleeping ones are woken. -/
def beginStep (s : State) (g : Gather) : State :=
  let cs := (gatherCores s g).filter fun c => match (s.cx c).barWait with
    | some (_, .boundary) => true
    | _ => false
  startWakes (cs.foldl (fun t c => enterAt (t.setCx c { t.cx c with endAt := none }) c 0 (rungOf t g))
    (s.setGx g { s.gx g with withheld := false, released := true })) g.die cs true

/-- R324: every member of a local group has arrived and its round completes; a parity error holds the group's bundle
(R328), and a phase-starting round waits for what the phase waits for (R171) and for the wakes its release starts
(R519). -/
def execBarrierRelease (d : DieId) (g : Fin 64) (s : State) : Host.Outcome State Fault Refusal :=
  let gr := groupGather s d g
  .next (
    if !allArrived s d g || crossDie s d g || bundleHeld s d g || syncStopped s d then s
    else if s.rb Reg.SY_GRP_PHASE d.val g && gatherDefined s gr then
      if (s.gx gr).inPhase then endPhase s gr g
      else if startReady s gr then
        if allAwake s (gatherCores s gr) then startPhase s gr g else startWakes s d (gatherCores s gr) true
      else if aheadOk s gr then s
      else s.wb Reg.SY_SEAL_RA_WAIT d.val true gr.idx.val
    else completeRound s d g)

/-- The members of an open round that have not arrived. -/
def missing (s : State) (d : DieId) (g : Nat) : Nat :=
  ((members s d g).filter fun c => !hasArrived s c g).foldl (fun n c => n + 2 ^ c.lc.val) 0

/-- R327: a round has stayed open longer than BTO; it is reported with the missing members and stays open. Where every member has
arrived, the round is one that waits for other dies (R330). -/
def execBarrierStall (d : DieId) (g : Fin 64) (s : State) : Host.Outcome State Fault Refusal :=
  .next (if s.rb Reg.SY_GRP_OPEN d.val g ∧ !syncStopped s d ∧ (missing s d g ≠ 0 ∨ crossDie s d g) then
      noteAt ((s.wb Reg.SY_GRP_STALL d.val true g).lg LogKind.barrierStall (dieN d.val) [g.val, missing s d g]) (.dieNode d) 0x23
        [g.val, missing s d g]
    else s)

/-- R328: a parity error on a sync bundle holds its groups and is reported as a router fault. -/
def execSyncParity (d : DieId) (bundle : Fin 2) (at_ : Pos) (s : State) : Host.Outcome State Fault Refusal :=
  let x := s.dx d
  .next (if syncStopped s d then s
    else raiseDie ((s.setDx d { x with parityHeld := bundle.val :: x.parityHeld.filter (· ≠ bundle.val) }).lg LogKind.syncParity
      (dieN d.val) [bundle.val, at_.row.val, at_.col.val]) d false
        (unitEvent s 5 0x0C d.val (some (at_.row, at_.col)) 0 [bundle.val]))

/-- The dies of a group whose root always sends arrive to the hub: those that host no member (R323, R326). -/
def idleDies (s : State) (g : Nat) : Nat :=
  allDies.foldl (fun n d => if (members s d g).isEmpty then n + 2 ^ d.val else n) 0

/-- R326, R415: an arrive of a die root reaches the hub, which releases the round on every die of the group once all
have arrived; a release reaches a die root. The dies of the group are those that XDIE of the die whose arrive came last names, where the
dies' fields differ (DESIGN CHOICE, notes/assumptions/103); while one of them is lost the round is held open (R330). -/
def execSync (m : SyncMsg) (seq : Fin 16) (crc : BitVec 8) (s : State) : Host.Outcome State Fault Refusal :=
  match m with
  | .arrive d g =>
    .next (sbReceive s (.hub d) 2 (syncPayload false g.val) seq.val crc fun s =>
      let x := s.rd Reg.SY_GRP_XDIE d.val g
      let a := smGet 0 s.hubSync g ||| 2 ^ d.val
      if (a ||| idleDies s g) &&& x = x ∧ allDies.all (fun e => !bit x e.val || (s.dx e).syncDue.isNone) then
        (allDies.filter fun e => bit x e.val).foldl (fun t e => sbSend t (.hub e) 2 (syncPayload true g.val))
          { s with hubSync := smSet 0 s.hubSync g 0 }
      else { s with hubSync := smSet 0 s.hubSync g a })
  | .release d g =>
    .next (sbReceive s (.die d 0) 2 (syncPayload true g.val) seq.val crc fun s =>
      if bundleHeld s d g || syncStopped s d then s else completeRound s d g)

/-- Step 2 of a die's loss (R549): the cross-die sync groups that name it are reset, on every other die and at the hub. -/
def resetCross (s : State) (d : DieId) : State :=
  let u := d.val
  let named := fun g : Nat => allDies.any fun e => e != d && bit (s.rd Reg.SY_GRP_XDIE e.val g) u
  let s1 := (allDies.filter (· ≠ d)).foldl (fun t e => ((List.range 64).filter fun g =>
    bit (t.rd Reg.SY_GRP_XDIE e.val g) u).foldl (fun t g => setArrived t e g 0) t) s
  { s1.setDx d { s1.dx d with syncDue := none } with hubSync := s1.hubSync.filter fun p => !named p.1 }

/-- The resets of lost dies' sync groups that are due (R549): until then the hub holds their rounds open (R330). -/
def dueCross (s : State) (d : DieId) : State :=
  match (s.dx d).syncDue with
  | some n => if n ≤ s.hclk then resetCross s d else s
  | none => s

/-- R330: after a shift the masks of the groups are applied to the leaves anew: a cross-die group whose missing members the shift
took off the leaves asserts arrive to the hub. -/
def reapplyMasks (s0 s : State) (d : DieId) : State :=
  let done := fun (t : State) g => allArrived t d g || (members t d g).isEmpty
  ((List.range 64).filter fun g => crossDie s d g && !done s0 g && done s g && !bundleHeld s d g).foldl
    (fun t g => sbSend t (.die d 0) 2 (syncPayload false g)) s

/-! ## The sync instructions (R213) -/

/-- Waits at a barrier group. -/
def barHold (c : CoreId) (g : Nat) (k : BarKind) (again : Bool) : Eff :=
  .wait fun s0 =>
    let s1 := if again then s0.setCx c { s0.cx c with arrAgain := [g] } else arrive s0 c g
    (setBarWait s1 c (some (g, k))).setCst c stWaitSync

/-- BAR: arrives and waits for the release; a second arrival is held until the release and counts for the next round. Before an
arrival at a phase-ending barrier it waits until the array block is empty (R95). -/
def bodyBar (c : CoreId) (w : IFields) (s : State) : Eff :=
  let g := w.imm.toNat % 64
  waitSync c s (hasArrived s c g || !arraysBusy s c g) fun _ => barHold c g .bar (hasArrived s c g)

/-- R324: BAR. -/
def execBar (c : CoreId) (w : IFields) (s : State) : Host.Outcome State Fault Refusal :=
  .next (issue 0xD0 { imm := 63 } c w s (bodyBar c w))

/-- BARA: arrives and goes on; a second arrival is held at issue until the release; it arrives at a phase-ending barrier as BAR does. -/
def bodyBara (c : CoreId) (w : IFields) (s : State) : Eff :=
  let g := w.imm.toNat % 64
  if hasArrived s c g then barHold c g .bara true else waitSync c s (!arraysBusy s c g) fun t => .done (arrive t c g)

/-- R324: BARA. -/
def execBara (c : CoreId) (w : IFields) (s : State) : Host.Outcome State Fault Refusal :=
  .next (issue 0xD1 { imm := 63 } c w s (bodyBara c w))

/-- BARW: waits for the release without arriving. -/
def bodyBarw (c : CoreId) (w : IFields) (_s : State) : Eff :=
  .wait fun s0 => (setBarWait s0 c (some (w.imm.toNat % 64, .barw))).setCst c stWaitSync

/-- R324: BARW. -/
def execBarw (c : CoreId) (w : IFields) (s : State) : Host.Outcome State Fault Refusal :=
  .next (issue 0xD2 { imm := 63 } c w s (bodyBarw c w))

/-- The phase group of a gather (R392). -/
def syncGroup (s : State) (g : Gather) : Nat := s.rd Reg.PZ_GATHER_SYNCG g.die.val g.idx.val

/-- PHSTART: arrives at the phase-starting barrier, where the core may enter a deeper power state (R517); ILLEGAL outside
every gather. -/
def bodyPhstart (c : CoreId) (s : State) : Eff :=
  match gatherOf s c with
  | none => .trap trIllegal 0
  | some g =>
    if (s.cx c).phStarted then .done s
    else match barHold c (syncGroup s g) .phstart false with
      | .wait f => .wait fun s0 => restAt (f s0) c g (s0.gx g).next (nph s0 g)
      | e => e

/-- R213: PHSTART. -/
def execPhstart (c : CoreId) (w : IFields) (s : State) : Host.Outcome State Fault Refusal :=
  .next (issue 0xD3 {} c w s (bodyPhstart c))

/-- PHEND: a core that has not passed the phase-starting barrier arrives there and waits as at PHSTART; then it waits until the
array block is empty and arrives at the phase-ending barrier. ILLEGAL outside every gather. -/
def bodyPhend (c : CoreId) (s : State) : Eff :=
  match gatherOf s c with
  | none => .trap trIllegal 0
  | some g =>
    let go := fun k : State → State => match barHold c (syncGroup s g) .phend false with
      | .wait f => Eff.wait fun s0 => k (f s0)
      | e => e
    if !(s.cx c).phStarted then go fun t => restAt t c g (t.gx g).next (nph t g)
    else waitSync c s (s.cx c).passes.isEmpty fun _ => go fun t => t.setCx c { t.cx c with endAt := some t.hclk }

/-- R213: PHEND. -/
def execPhend (c : CoreId) (w : IFields) (s : State) : Host.Outcome State Fault Refusal :=
  .next (issue 0xD4 {} c w s (bodyPhend c))

end Sys2Proof.Machine
end

