-- ==== Sys2Proof/Machine/System.lean ====
section
/-! DEFINITION. The end of a pass (R85, R102), the shadow recompute (R160-R162), CSRR and the system instructions (R214,
R215), ILLEGAL and IMEM_UE (R185, R188), and the actions on a trapped core (R218, R222). -/

namespace Sys2Proof.Machine

/-! ## Passes and samples -/

/-- R85, R102: the oldest drained pass completes: its flags go to the seal unit and into CA_FLAGS, its scoreboard entries
are released and CA_PASSES increments. -/
def passComplete (c : CoreId) (s : State) : State :=
  match (s.cx c).passes with
  | [] => s
  | p :: r =>
    if p.stage != .draining || !aclkRuns s c then s
    else
      let u := coreU c
      let s1 := reportCause s c (p.ovf || p.nan || p.sat) p.ue
      let s2 := ((s1.orF Reg.CA_FLAGS_OVF u (b2n p.ovf)).orF Reg.CA_FLAGS_NAN u (b2n p.nan)).orF
        Reg.CA_FLAGS_SAT u (b2n p.sat)
      let s3 := (s2.orF Reg.CA_FLAGS_UE u (b2n p.ue)).bump Reg.CA_PASSES_COUNT u
      setPasses (releaseSb s3 c fun o => o == .passO p.id || o == .passX p.id || o == .passW p.id) c r

/-- R85: PASS_COMPLETE. -/
def execPassComplete (c : CoreId) (s : State) : Host.Outcome State Fault Refusal := .next (passComplete c s)

/-- A value as a BF16 pair (R116, R117): hi and lo. The pair is formed of the value brought next to 1, and the power of two taken out of
it, the block scale with it, is applied exactly (R160). -/
def asPair (v : Val) : Val × Val :=
  let k : Int := match v with
    | .fin _ m e => e + m.log2
    | _ => 0
  let u := v.scale (-k)
  let hi := decodeElem 2 (rneBf16 u)
  if hi.isFin then (hi.scale k, (decodeElem 2 (rneBf16 (u.sub hi))).scale k) else (hi, .fin false 0 0)

/-- The terms of a product of two operands in pair form, in the order of the sub-passes (R89, R116, R160); of an infinite or NaN
operand the product of the pairs' values. -/
def pairTerms (v w : Val) : List Val :=
  let a := asPair v
  let b := asPair w
  if a.1.isFin && b.1.isFin then [a.2.mul b.1, a.1.mul b.2, a.1.mul b.1] else [(a.1.add a.2).mul (b.1.add b.2)]

/-- The reference of one result and the sum of magnitudes S (R160): products in pair form accumulated in order of k in
binary32. S, exact in R150 and accumulated alongside in R160, is rounded to binary32 at each step too (DESIGN CHOICE,
notes/assumptions/89). -/
def shadowRef (w x : List Val) : Nat × Nat :=
  let add := fun (t : Nat) (m : Val) => rne32 ((v32 t).add m)
  (w.zip x).foldl (fun acc p => ((pairTerms p.1 p.2).foldl add acc.1, add acc.2 (p.1.mul p.2).abs)) (0, 0)

/-- True when a float result mismatches its reference (R160). Where y or y_ref is infinite or a NaN the difference has no value to
compare, and any other code counts as a mismatch (DESIGN CHOICE, notes/assumptions/89). -/
def mismatchF (y ref sum thresh : Nat) : Bool :=
  match (v32 y).sub (v32 ref) with
  | .fin _ m e =>
    let bound := ((v32 sum).scale (-(thresh : Int))).add (.fin false 1 (-149))
    decide (Val.cmp (.fin false m e) bound > 0)
  | _ => y != ref

/-- The integer a value is, for the exact reference of an integer pass. -/
def valInt : Val → Int
  | .fin s m e => atExp s m e 0
  | _ => 0

/-- R160-R162: Marver has recomputed the captured sample; every mismatched result is counted, logged and reported as an
event of the core class. -/
def execShadowRecompute (c : CoreId) (s : State) : Host.Outcome State Fault Refusal :=
  match (s.cx c).capture with
  | none => .next s
  | some q =>
    let u := coreU c
    let thresh := match gatherOf s c with
      | some g => s.rd Reg.PZ_WATCH_THRESH g.die.val g.idx.val
      | none => 14
    let s0 := (s.setCx c { s.cx c with capture := none }).bump Reg.CV_SHSAMP_COUNT u
    .next ((List.range q.rows.length).foldl (fun t ch => (List.range q.tile.length).foldl (fun t k =>
      let w := (q.rows[ch]?).getD []
      let x := (q.tile[k]?).getD []
      let y := (((q.results[ch]?).getD [])[k]?).getD 0
      let ref := if q.isInt then (unsgn 32 (((w.zip x).map fun p => valInt p.1 * valInt p.2).sum), 0) else shadowRef w x
      if if q.isInt then y != ref.1 else mismatchF y ref.1 ref.2 thresh then
        let t1 := (t.bump Reg.CV_SHMIS_COUNT u).lg LogKind.shadowMismatch u
          [pcolOf t c.die.val (c.lc.val / 8) (c.lc.val % 8), q.passNo, q.chan + ch, q.tok + k, y, ref.1]
        raiseCore t1 c false (coreEvent t1 c 4 0x08 0 [q.passNo, q.chan + ch, q.tok + k, y, ref.1])
      else t) t) s0)

/-! ## CSR and system instructions -/

/-- CSRR: the core CSR at IMM[24:0]; CSR_FAULT where no register occupies it. -/
def bodyCsrr (c : CoreId) (w : IFields) (s : State) : Eff :=
  match csrRead s .core (coreU c) w.imm.toNat with
  | some (v, t) => doneS c w (BitVec.ofNat 32 v) t
  | none => .trap trCsrFault w.imm.toNat

/-- R214: CSRR. -/
def execCsrr (c : CoreId) (w : IFields) (s : State) : Host.Outcome State Fault Refusal :=
  .next (issue 0xE0 { d := .s, imm := 0x1FFFFFF } c w s (bodyCsrr c w))

/-- R215: NOP. -/
def execNop (c : CoreId) (w : IFields) (s : State) : Host.Outcome State Fault Refusal :=
  .next (issue 0xF0 {} c w s .done)

/-- True when a scoreboard entry is one FENCE waits for (R215): not a pass unless asked, nothing that waits for a
seal. -/
def fenceWaits (s : State) (c : CoreId) (passes : Bool) (e : SbEnt) : Bool :=
  let gated := fun i : Nat => s.rb Reg.DN_SSTAT_GATED c.die.val i
  match e.owner with
  | .passX _ => passes
  | .passW _ => passes
  | .passO _ => passes
  | .streamSrc i => !gated i
  | .streamDst i => !gated i
  | .streamIdx i => !gated i
  | .ringSend _ _ => false

/-- True when every earlier instruction has completed as FENCE asks (R215). -/
def fenceDone (s : State) (c : CoreId) (passes : Bool) : Bool :=
  let x := s.cx c
  !(x.sb.any fun e => fenceWaits s c passes e) && x.reqs.isEmpty && (!passes || x.passes.isEmpty)

/-- FENCE: holds issue until every earlier instruction has completed; passes with FN[0] = 1. -/
def bodyFence (c : CoreId) (w : IFields) (s : State) : Eff :=
  waitSync c s (fenceDone s c (bit w.fn.toNat 0)) .done

/-- R215: FENCE. -/
def execFence (c : CoreId) (w : IFields) (s : State) : Host.Outcome State Fault Refusal :=
  .next (issue 0xF1 { fn := 1 } c w s (bodyFence c w))

/-- R215: TRAP raises SW_TRAP with IMM as information. -/
def execTrap (c : CoreId) (w : IFields) (s : State) : Host.Outcome State Fault Refusal :=
  .next (issue 0xF2 { imm := immAll } c w s fun _ => .trap trSwTrap w.imm.toNat)

/-- HALT: waits as FENCE with FN[0] = 1, then enters HALTED and reports to the die Punty. -/
def bodyHalt (c : CoreId) (s : State) : Eff :=
  waitSync c s (fenceDone s c true) fun _ => .wait fun s0 =>
    (s0.setCst c stHalted).send (.core c) (.dieNode c.die) (.error LogKind.coreHalted [coreU c])

/-- R215: HALT. -/
def execHalt (c : CoreId) (w : IFields) (s : State) : Host.Outcome State Fault Refusal :=
  .next (issue 0xF3 {} c w s (bodyHalt c))

/-- The opcodes of the opcode map (R189, R208): every OPC an instruction of this chapter carries. -/
def opcodeMap : List Nat :=
  (List.range 0x20) ++ [0x20, 0x21, 0x22, 0x23, 0x24, 0x25] ++ (List.range 10).map (0x30 + ·)
    ++ [0x40, 0x41, 0x42, 0x43, 0x50, 0x51] ++ (List.range 0x18).map (0x60 + ·)
    ++ (List.range 11).map (0x80 + ·) ++ [0x90, 0x91, 0x92, 0x93, 0xA0, 0xA1, 0xB0, 0xB1, 0xB2] ++ (List.range 9).map (0xC0 + ·) ++ (List.range 5).map (0xD0 + ·)
    ++ [0xE0, 0xE1, 0xF0, 0xF1, 0xF2, 0xF3]

/-- R188: the word at the PC carries an OPC not in the opcode map; ILLEGAL is raised at issue. -/
def execIllegal (c : CoreId) (s : State) : Host.Outcome State Fault Refusal :=
  .next (if canIssue s c && !opcodeMap.contains (imemWord s c (s.pc c) / 2 ^ 56) then takeTrap s c trIllegal 0
    else s)

/-- R185, R544: an uncorrectable error on an instruction fetch raises IMEM_UE and the core is dead: its router goes into
pass-through and its position waits to be fenced. -/
def execImemUe (c : CoreId) (s : State) : Host.Outcome State Fault Refusal :=
  .next (if canIssue s c then
      let s1 := takeTrap s c trImemUe (s.pc c)
      raiseCore (((s1.setCx c { s1.cx c with dead := true }).wb Reg.DN_RSTAT_PASSTHRU (coreU c) true).lg LogKind.coreDead (coreU c) [])
        c false (coreEvent s1 c 0 0x0E (2 ^ 17) [])
    else s)

/-! ## Actions on a trapped core -/

/-- Performs a CS_TRAPCTL action for a requester that may write it (R218); while the core is not TRAPPED it is ignored
and logged. -/
def trapAction (r : Requester) (c : CoreId) (s : State) (k : State → State) : State :=
  let u := coreU c
  if !mayWrite .punty r .core u then s.lg LogKind.ignoredWrite u [Reg.CS_TRAPCTL_ACTION.id]
  else if s.cst c ≠ stTrapped then s.lg LogKind.trapctlIgnored u []
  else k (s.wb Reg.CS_TRAP_VALID u false)

/-- RESUME: the trapped instruction is re-issued; after the run past instruction 8,191 (R628) nothing is left to
re-issue, and it is ignored and logged. -/
def resumeCore (s : State) (c : CoreId) : State :=
  if (s.cx c).ranOff then (s.wb Reg.CS_TRAP_VALID (coreU c) true).lg LogKind.trapctlIgnored (coreU c) []
  else s.setCst c stRun

/-- R218: RESUME. -/
def execResume (r : Requester) (c : CoreId) (s : State) : Host.Outcome State Fault Refusal :=
  .next (trapAction r c s fun t => resumeCore t c)

/-- SKIP: goes on at PC + 1; a blocked send is abandoned with TIMEOUT in sD. From instruction 8,191 the PC + 1 counts as a target beyond
the memory, which raises IFETCH (R628), and not as a run-on, so that a RESUME issues instruction 8,191 again (DESIGN CHOICE,
notes/assumptions/28). -/
def skipCore (s : State) (c : CoreId) : State :=
  let w := imemWord s c (s.pc c)
  let s1 := if s.rd Reg.CS_TRAP_CODE (coreU c) = trBlockedSend then wrS s c (bits w 50 6 % 32) (BitVec.ofNat 32 qsTimeout)
    else s
  if s.pc c + 1 ≥ 8192 then takeTrap s1 c trIfetch 8192
  else ((setLoops s1 c (loopsAfterJump (s.pc c + 1) (s.cx c).loops)).wr Reg.CS_PC_PC (coreU c) (s.pc c + 1)).setCst c stRun

/-- R218: SKIP. -/
def execSkip (r : Requester) (c : CoreId) (s : State) : Host.Outcome State Fault Refusal :=
  .next (trapAction r c s fun t => skipCore t c)

/-- GOTO: goes on at NEWPC. -/
def gotoCore (s : State) (c : CoreId) (n : Nat) : State :=
  ((setLoops (s.setCx c { s.cx c with ranOff := false }) c (loopsAfterJump n (s.cx c).loops)).wr Reg.CS_PC_PC (coreU c)
    n).setCst c stRun

/-- R218: GOTO. -/
def execGoto (r : Requester) (c : CoreId) (newpc : BitVec 13) (s : State) : Host.Outcome State Fault Refusal :=
  .next (trapAction r c s fun t => gotoCore t c newpc.toNat)

/-- Forces the trap STOPPED on a core that runs or waits (R218, R219): its wait is abandoned and an arrival at a barrier
withdrawn; one that waits for the next step stops at the entry of phase 0; a load in flight completes into no register. A QDESTROY that
has begun to destroy its queue completes first, since a trapping instruction has no effect (R216). A dead core does not answer (R544). -/
def stopCore (s : State) (c : CoreId) : State :=
  if coreLive s c && decide (s.cst c ≤ stWaitSync) then
    if (match (s.cx c).handleWait with | some (.destroy _ _ _) => true | _ => false) then
      s.setCx c { s.cx c with stopDue := true }
    else
    let s1 := match (s.cx c).barWait, gatherOf s c with
      | some (_, .boundary), some g => enterAt s c 0 (rungOf s g)
      | _, _ => withdraw s c
    let s2 := dropHandle s1 c
    let x := s2.cx c
    takeTrap (s2.setCx c { x with reqs := x.reqs.filter fun q => !q.read }) c trStopped 0
  else s

/-- R218: STOP through CS_TRAPCTL, the die Punty and module firmware only. -/
def execTrapctlStop (r : Requester) (c : CoreId) (s : State) : Host.Outcome State Fault Refusal :=
  .next (if mayWrite .punty r .core (coreU c) then stopCore s c
    else s.lg LogKind.ignoredWrite (coreU c) [Reg.CS_TRAPCTL_ACTION.id])

/-- A register of a core may be written while it is TRAPPED or HALTED, by its die Punty or module firmware (R222);
otherwise the write is ignored and logged. -/
def regWrite (r : Requester) (c : CoreId) (s : State) (k : State → State) : State :=
  if mayWrite .punty r .core (coreU c) && (s.cst c == stTrapped || s.cst c == stHalted) then k s
  else s.lg LogKind.ignoredWrite (coreU c) [Reg.CS_SREG_VALUE.id]

/-- R222: a write of CS_SREGn; CS_SREG0 discards it. -/
def execCsSregWrite (r : Requester) (c : CoreId) (n : Fin 32) (v : Word) (s : State) : Host.Outcome State Fault Refusal :=
  .next (regWrite r c s fun t => wrS t c n.val v)

/-- R222: a write of one word of CS_AREGn. -/
def execCsAregWrite (r : Requester) (c : CoreId) (n : Fin 16) (high : Bool) (v : Word) (s : State) :
    Host.Outcome State Fault Refusal :=
  .next (regWrite r c s fun t =>
    if high then t.wr Reg.CS_AREG_HI (coreU c) v.toNat n.val else t.wr Reg.CS_AREG_LO (coreU c) v.toNat n.val)

end Sys2Proof.Machine
end

