-- ==== Sys2Proof/Machine/Seal.lean ====
section
/-! DEFINITION. The seal unit: verdicts on phases, recalls, discards, flushes and reruns (R166-R180, R96, R289, R329,
R359), and a step given up (R178). -/

namespace Sys2Proof.Machine

/-- The core in whose sync leaf a gather's seal unit lies (R166). -/
def sealCore (s : State) (g : Gather) : CoreId :=
  ⟨g.die, Fin.ofNat 64 (8 * s.rd Reg.PZ_GATHER_R0 g.die.val g.idx.val + s.rd Reg.PZ_GATHER_C0 g.die.val g.idx.val)⟩

/-- Every gather the parison defines. -/
def definedGathers (s : State) : List Gather :=
  (allDies.flatMap dieGathers).filter fun g => gatherDefined s g

/-- The phases of a gather that list phase `q` of `g` as a dependency (R168, R374). -/
def dependents (s : State) (h g : Gather) (q : Nat) : List Nat :=
  (List.range (nph s h)).filter fun p => (phaseDeps s h p).any fun e => e.1 == g && e.2 == q

/-- The verdict message of a phase (R168). -/
def verdictOf (s : State) (g : Gather) (q cause : Nat) (recalled : Bool) : VerdictMsg :=
  { recalled := recalled, g := g, seq := BitVec.ofNat 16 q, step := BitVec.ofNat 16 (s.rd Reg.PZ_STEP_STEP 0),
    rung := BitVec.ofNat 2 (rungOf s g), cause := BitVec.ofNat 4 cause,
    layer := BitVec.ofNat 16 (s.rd Reg.PZ_PHREC_LAYER g.die.val g.idx.val q) }

/-- Sends a verdict to the cores of its gather, to the gathers that list the phase, and to the sequence-slot engine
(R168, R169). -/
def sendVerdict (s : State) (v : VerdictMsg) (own : Bool) : State :=
  let src := NodeId.core (sealCore s v.g)
  let s1 := if own then (gatherCores s v.g).foldl (fun t c => t.send src (.core c) (.verdict v)) s else s
  let s2 := ((definedGathers s).filter fun h => h != v.g && !(dependents s h v.g v.seq.toNat).isEmpty).foldl
    (fun t h => t.send src (.core (sealCore s h)) (.verdict v)) s1
  s2.send src (.hub 5) (.verdict v)

/-- Counts and records what the seal unit last judged (R182, R183). -/
def judged (s : State) (g : Gather) (q cause : Nat) (recalled : Bool) : State :=
  let d := g.die.val
  let i := g.idx.val
  (((s.wr Reg.SY_SEAL_PHASE_SEQ d q i).wb Reg.SY_SEAL_LAST d recalled i).wr Reg.SY_SEAL_CAUSE d cause i)

/-- Removes the phases of a gather from `q` on and orders the rerun of `q` (R174, R175): its cores are to flush, its
phase group's round restarts (R329). `first` is the cause of phase `q`; the later phases are discarded with bit 2. A
record is logged (R176) and a RECALL counted and shown in SY_SEAL for each, and RECALL goes to its consumers; one with a range
cause is an informational event (R534). -/
def recallFrom (s : State) (g : Gather) (q first rung : Nat) : State :=
  let d := g.die.val
  let i := g.idx.val
  let x := s.gx g
  let gone := x.phases.filter fun p => decide (q ≤ p.ph)
  let before := rungOf s g
  let s1 := s.setGx g { x with
    phases := x.phases.filter fun p => decide (p.ph < q), next := q, inPhase := false, rr := some q
    waitOn := x.waitOn.filter fun p => !rerunStarted s p, toFlush := (gatherCores s g).map fun c => c.lc.val }
  let s2 := setArrived s1 g.die (syncGroup s g) 0
  let s3 := gone.foldl (fun t p =>
    let cause := if p.ph = q then first else 4
    let v := verdictOf t g p.ph cause true
    let rec_ := [gatherU g, v.layer.toNat, p.ph, s.rd Reg.PZ_STEP_STEP 0, cause, before, rung]
    let t1 := (sendVerdict (judged (t.bump Reg.SY_VCNT_RECALLS d 1 i) g p.ph cause true) v (p.ph == q)).lg LogKind.recalled
      (coreU (sealCore s g)) rec_
    if bit cause 0 then noteAt t1 (.core (sealCore s g)) 0x20 rec_ else t1) s2
  updSeals (s3.wr Reg.SY_SEAL_RUNG d rung i)

/-- Gives up the step (R178, R456): every unsealed phase of the module is discarded, nothing held for it is released,
and no gather starts a phase until the next step boundary. `g` is the gather whose seal unit gave it up, if one did. -/
def giveUpStep (s : State) (g : Option Gather) : State :=
  let s2 := (definedGathers s).foldl (fun t h =>
    let x := t.gx h
    let t1 := match x.phases with
      | [] => t
      | p :: _ => recallFrom t h p.ph (if g = some h then 10 else 4) (rungOf t h)
    t1.setGx h { t1.gx h with quiet := true, rr := none, waitOn := [], memPh := none }) s
  { loseRuns s2 with stepLost := true }

/-- A seal unit gives up the step (R178, R182). -/
def giveUp (s : State) (g : Gather) : State :=
  giveUpStep (s.wb Reg.SY_SEAL_LOST g.die.val true g.idx.val) (some g)

/-- Seals the oldest phase of a gather. -/
def sealPhase (s : State) (g : Gather) (p : PhaseX) (cause : Nat) : State :=
  let x := s.gx g
  let s1 := s.setGx g { x with
    phases := x.phases.filter fun q => q.ph != p.ph, nsealed := p.ph + 1
    memPh := if x.memPh = some p.ph then none else x.memPh }
  let s2 := (judged s1 g p.ph cause false).bump Reg.SY_VCNT_SEALS g.die.val 1 g.idx.val
  updGates (updSeals (sendVerdict s2 (verdictOf s2 g p.ph cause false) true))

/-- The verdict on a phase with its causes (R167, R174, R177, R178). -/
def judge (s : State) (g : Gather) (p : PhaseX) : State :=
  let d := g.die.val
  let i := g.idx.val
  let rung := rungOf s g
  let top := decide (rung ≥ s.rd Reg.PZ_LADDER_NRUNG d i)
  let up := if p.range && !top then rung + 1 else rung
  let hold := fun t : State => if p.range && !top then
    t.setGx g { t.gx g with holdLeft := t.rd Reg.PZ_LADDER_HOLD_STEPS d i } else t
  let cause := b2n p.range + 2 * b2n p.mem
  if p.mem && p.afterMem then giveUp s g
  else if p.mem then
    let s1 := hold (recallFrom s g p.ph cause up)
    s1.setGx g { s1.gx g with memPh := some p.ph }
  else if p.range && top then { sealPhase s g p 9 with ladderOut := true }
  else if p.range then
    let s1 := hold (recallFrom s g p.ph cause up)
    s1.setGx g { s1.gx g with memPh := none }
  else sealPhase s g p 0

/-- R167: once the oldest phase of a gather has ended and its dependency list is sealed, the seal unit gives its
verdict. -/
def execSealVerdict (g : Gather) (s : State) : Host.Outcome State Fault Refusal :=
  .next (match (s.gx g).phases with
    | [] => s
    | p :: _ =>
      if p.ended && (phaseDeps s g p.ph).all fun q => phaseSealed s q.1 q.2 then judge s g p else s)

/-- R543: a forced recall of the oldest phase in progress, with a memory cause, without waiting for its barrier. -/
def forceRecall (s : State) (g : Gather) : State :=
  match (s.gx g).phases with
  | [] => s
  | p :: _ => judge s g { p with mem := true }

/-! ## Flushes -/

/-- What a flush does to one core (R96, R174, R219, R257, R289, R359): the phases are those flushed. -/
def flushCore (s : State) (c : CoreId) (phs : List Nat) : State :=
  let u := coreU c
  let s1 := if s.cst c = stTrapped then (s.lg LogKind.trapDropped u [s.rd Reg.CS_TRAP_CODE u]).wb Reg.CS_TRAP_VALID u false
    else s
  let s2 := flushStreams (flushQm (setPasses s1 c []) c phs) c phs
  let s3 := releaseSb s2 c fun o => match o with
    | .passX _ => true
    | .passW _ => true
    | .passO _ => true
    | _ => false
  let s3 := match gatherOf s3 c with
    | some g => unarrive s3 c (syncGroup s3 g)
    | none => s3
  let s3 := dropHandle s3 c
  let x := s3.cx c
  let s4 := s3.setCx c { x with
    shadow := none, reqs := x.reqs.filter fun q => !q.read, wpt := []
    heldWrites := x.heldWrites.filter fun h => !phs.contains h.phase, barWait := none, arrAgain := []
    phStarted := false, ranOff := false }
  (rcInvalidate (setLoops (s4.wb Reg.CA_STAT_FLUSHED u true) c []) c).setCst c stIdle

/-- A verdict reaches a core of its own gather: RECALL flushes it once, SEAL opens the commit gates of the phase
(R169, R174, R180). -/
def verdictCore (s : State) (c : CoreId) (v : VerdictMsg) : State :=
  if gatherOf s c ≠ some v.g then s
  else
    let q := v.seq.toNat
    if v.recalled then
      let x := s.gx v.g
      if x.toFlush.contains c.lc.val then
        flushCore (s.setGx v.g { x with toFlush := x.toFlush.filter (· ≠ c.lc.val) }) c
          ((List.range (nph s v.g)).filter fun p => decide (q ≤ p))
      else s
    else
      let s1 := releaseGates s c q
      let x := s1.cx c
      (x.heldWrites.filter fun h => h.phase == q).foldl (fun t h => postWrite t c h.mga h.value)
        (s1.setCx c { x with heldWrites := x.heldWrites.filter fun h => h.phase != q })

/-- A RECALL reaches a consumer gather (R175): its dependent phases, and its later ones, are discarded; of phases
already discarded only the rerun's wait is extended (R180). -/
def verdictGather (s : State) (h : Gather) (v : VerdictMsg) : State :=
  if !v.recalled then s
  else
    let x := s.gx h
    let ps := dependents s h v.g v.seq.toNat
    let more := fun t : State => t.setGx h { t.gx h with waitOn := (t.gx h).waitOn ++ [(gatherU v.g, v.seq.toNat)] }
    match x.phases.find? fun p => ps.contains p.ph with
    | some p => more (recallFrom s h p.ph 4 (rungOf s h))
    | none => if ps.any fun p => decide (x.next ≤ p ∧ p < x.started) then more s else s

/-- R175: a recalled or discarded phase starts its rerun once its cores have flushed, the reruns it waits for have
started, and no hold, shift or reload stands against it (R180, R543): every core goes to the phase's entry at the rung
in force, with its loop stack cleared (R186, R219). -/
def execRerunStart (g : Gather) (s : State) : Host.Outcome State Fault Refusal :=
  let x := s.gx g
  .next (match x.rr with
    | none => s
    | some q =>
      if x.toFlush.isEmpty && rerunsBegun s g q && startFree s g then
        startWakes ((gatherCores s g).foldl (fun t c => enterAt t c q (rungOf s g))
          (s.setGx g { x with rr := none })) g.die (gatherCores s g) true
      else s)

/-- R179: at a step boundary a gather on a higher rung returns to rung 0 once its held steps are over. -/
def rungReturn (s : State) (g : Gather) : State :=
  let x := s.gx g
  if rungOf s g = 0 then s
  else if x.holdLeft = 0 then s.wr Reg.SY_SEAL_RUNG g.die.val 0 g.idx.val
  else s.setGx g { x with holdLeft := x.holdLeft - 1 }

end Sys2Proof.Machine
end

