-- ==== Sys2Proof/Machine/Scratch.lean ====
section
/-! DEFINITION. Events of a scratchpad beside its instructions: the dynamic arbiter (R233-R238), ECC write-back, row
map-out, patrol and zeroing (R243-R248), and invalidation of the remote cache (R257). -/

namespace Sys2Proof.Machine

/-! ## The dynamic arbiter -/

/-- The number of a dynamic requester in round-robin order; DEBUG is outside it (R234). -/
def dynNum : DynReq → Nat
  | .qm => 0 | .rw => 1 | .rcf => 2 | .scalar => 3 | .debug => 4

/-- The requester code of CP_ECCLOG (R263). -/
def dynCode : DynReq → Nat
  | .qm => rqQm | .rw => rqRw | .rcf => rqRcf | .scalar => rqScalar | .debug => rqDebug

/-- The key of a requester at a bank. -/
def arbKey (bank : Nat) (q : DynReq) : Nat := 8 * bank + dynNum q

/-- What a bank remembers of a requester. -/
def arbOf (s : State) (c : CoreId) (bank : Nat) (q : DynReq) : ArbReq := smGet ⟨0, false⟩ (s.cx c).arb (arbKey bank q)

/-- Sets what a bank remembers of a requester. -/
def setArb (s : State) (c : CoreId) (bank : Nat) (q : DynReq) (a : ArbReq) : State :=
  let x := s.cx c
  s.setCx c { x with arb := smSet ⟨0, false⟩ x.arb (arbKey bank q) a }

/-- A loss (R235): L rises and the requester backs off; it is counted in CP_ARBLOSS. -/
def arbLose (bank : Nat) (c : CoreId) (s : State) (q : DynReq) : State :=
  (setArb s c bank q ⟨(arbOf s c bank q).losses + 1, true⟩).bump Reg.CP_ARBLOSS_COUNT (coreU c)

/-- The first requester in round-robin order from a pointer. -/
def roundRobin (ptr : Nat) (l : List DynReq) : Option DynReq :=
  ([0, 1, 2, 3].map fun k => (ptr + k) % 4).findSome? fun n => l.find? fun q => dynNum q == n

/-- The winner of a contest among requesters that are not backing off (R234): DEBUG, else an aged requester, else by
the bank's pointer. -/
def arbWinner (s : State) (c : CoreId) (bank : Nat) (l : List DynReq) : Option DynReq :=
  let ptr := smGet 0 (s.cx c).arbPtr bank
  let aged := l.filter fun q => decide ((arbOf s c bank q).losses ≥ 7)
  if l.contains .debug then some .debug
  else match roundRobin ptr aged with
    | some q => some q
    | none => roundRobin ptr l

/-- Marks what an access or the patrol scrubber finds in a word of a line (R243, R244), whose bytes stay as they are (DESIGN CHOICE,
notes/assumptions/97). -/
def markLine (s : State) (c : CoreId) (line word : Nat) (e : EccFind) : State :=
  let k := spBase c / 8 + 8 * line + word % 8
  match e with
  | .none => s
  | .ce => setBad s k 1
  | .ue => setBad s k 2

/-- A granted line access: what it reads may be in error (R243, R244); whole words are written without a read (R225). Which bits of a word
with an uncorrectable error are wrong the spec does not say: the word is marked and keeps its bytes, which are the data as read (DESIGN
CHOICE, notes/assumptions/97). -/
def lineAccess (s : State) (c : CoreId) (line : Nat) (a : BankAccess) (req : Nat) : State :=
  match a.how with
  | .write => s
  | .merge => spTouch (markLine s c line a.word a.ecc) c (64 * line + 8 * (a.word % 8)) 8 req
  | .read => spTouch (markLine s c line a.word a.ecc) c (64 * line) 64 req

/-- The owner of a bank in an NCLK of the bank slot table (R264). -/
def slotOwner (s : State) (c : CoreId) (bank t : Nat) : Nat :=
  if bank < 8 then bits (s.rd Reg.CP_BSLOT_LO (coreU c) t) (4 * bank) 4 else bits (s.rd Reg.CP_BSLOT_HI (coreU c) t) (4 * (bank - 8)) 4

/-- True when a bank is offered to the dynamic arbiter in an NCLK of its slot table: the slot is DYN's, or its owner has no access to
make in it (R228, R229); and the core has clock. -/
def bankOffered (s : State) (c : CoreId) (bank t : Nat) (ownerUses : Bool) : Bool :=
  (slotOwner s c bank t == 0 || !ownerUses) && !s.rb Reg.BT_CLKSTAT_STOPPED c.die.val && decide (cstateOf s c ≤ 2)

/-- R229, R234-R237: a bank offered to the dynamic arbiter grants one request. A grant that DEBUG pre-empts leaves the pointer
and the displaced requester's L; a winner that withdraws after its grant leaves the bank idle and changes nothing more. A bank that is
not offered makes a request wait without penalty. -/
def execBankGrant (c : CoreId) (bank : Fin 16) (a : BankAccess) (s : State) : Host.Outcome State Fault Refusal :=
  let b := bank.val
  let l := (a.reqs.eraseDups).filter fun q => q == .debug || !(arbOf s c b q).backoff
  let line := (a.line / 16 * 16 + b) % 393216
  .next (if !bankOffered s c b a.slot.val a.ownerUses then s else match arbWinner s c b l with
    | none => s
    | some q =>
      let s1 := (l.filter (· ≠ q)).foldl (arbLose b c) s
      if q = .debug then lineAccess s1 c line a rqDebug
      else if a.debugLate then lineAccess (s1.bump Reg.CP_PREEMPT_COUNT (coreU c)) c line a rqDebug
      else
        let s2 := setArb s1 c b q ⟨0, false⟩
        let x := s2.cx c
        let s3 := s2.setCx c { x with arbPtr := smSet 0 x.arbPtr b ((dynNum q + 1) % 4) }
        if a.withdrawn then s3 else lineAccess s3 c line a (dynCode q))

/-- R235: a back-off ends. -/
def execBankBackoffExpiry (c : CoreId) (bank : Fin 16) (q : DynReq) (s : State) : Host.Outcome State Fault Refusal :=
  .next (setArb s c bank.val q { arbOf s c bank.val q with backoff := false })

/-! ## ECC and rows -/

/-- R243: the corrected word is written back; a word written since carries no error any more. -/
def execEccWriteback (c : CoreId) (word : Nat) (s : State) : Host.Outcome State Fault Refusal :=
  let k := spBase c / 8 + word
  let x := s.cx c
  .next (if x.writeback.contains k then
      let s1 := s.setCx c { x with writeback := x.writeback.filter (· ≠ k) }
      if smGet 0 s1.eccBad k = 1 then setBad s1 k 0 else s1
    else s)

/-- R246: at a phase boundary, or at once in an idle core, a stoned row starts its copy into a free spare row. -/
def execRowMapOut (c : CoreId) (row : Nat) (s : State) : Host.Outcome State Fault Refusal :=
  let x := s.cx c
  let boundary := match gatherOf s c with
    | some g => !(s.gx g).inPhase
    | none => true
  .next (if x.mapWanted.contains row && x.mapping.isNone && (boundary || s.cst c == stIdle)
        && decide (sparesUsed s c row < 8) then
      s.setCx c { x with mapping := some row, mapWanted := x.mapWanted.filter (· ≠ row) }
    else s)

/-- R246: the copy has read the four lines of the row and is exact; the remap entry switches and firmware records the map-out. -/
def execMapOutComplete (c : CoreId) (s : State) : Host.Outcome State Fault Refusal :=
  .next (match (s.cx c).mapping with
    | none => s
    | some row =>
      let s1 := (rowLines row).foldl (fun t off => spTouch t c off 64 rqCopy) s
      (mapRow (s1.setCx c { s1.cx c with mapping := none }) (macroPos s c) row).lg LogKind.rowMapped (coreU c) [row])

/-- R248: the patrol scrubber reads the next line of a bank and reports what it finds. Which word of the line is in error the command
does not say: a free value (DESIGN CHOICE, notes/assumptions/97). -/
def execPatrolScrub (c : CoreId) (bank : Fin 16) (e : EccFind) (s : State) : Host.Outcome State Fault Refusal :=
  let x := s.cx c
  let n := smGet 0 x.patrol bank.val
  .next (if s.rb Reg.BT_CLKSTAT_STOPPED c.die.val then s
    else
      let line := 16 * n + bank.val
      let t := { s.setCx c { x with patrol := smSet 0 x.patrol bank.val ((n + 1) % 24576) } with free := s.free + 1 }
      spTouch (markLine t c line (Config.freeValue s.free) e) c (64 * line) 64 rqPatrol)

/-! ## Zeroing and invalidation -/

/-- R248, R262: zeroing starts while the sequencer is IDLE or HALTED; otherwise it is refused and logged. -/
def startZero (s : State) (c : CoreId) : State :=
  if s.cst c = stIdle ∨ s.cst c = stHalted then s.wb Reg.CP_STAT_ZEROING (coreU c) true
  else s.lg LogKind.zeroRefused (coreU c) []

/-- R248: CP_CMD.ZERO; module firmware only. -/
def execZero (r : Requester) (c : CoreId) (s : State) : Host.Outcome State Fault Refusal :=
  .next (if mayWrite .fw r .core (coreU c) then startZero s c
    else s.lg LogKind.ignoredWrite (coreU c) [Reg.CP_CMD_ZERO.id])

/-- The whole scratchpad of a core reads zeros with valid check bits (R248). -/
def zeroScratch (s : State) (c : CoreId) : State :=
  let a := spBase c
  let s1 := s.zeroRange a (a + 0x1800000)
  let x := s1.cx c
  { s1.setCx c { x with writeback := [] } with
    eccBad := s1.eccBad.filter fun p => decide (p.1 < a / 8 ∨ (a + 0x1800000) / 8 ≤ p.1) }

/-- R248: zeroing completes. -/
def execZeroComplete (c : CoreId) (s : State) : Host.Outcome State Fault Refusal :=
  .next (if s.rb Reg.CP_STAT_ZEROING (coreU c) then (zeroScratch s c).wb Reg.CP_STAT_ZEROING (coreU c) false else s)

/-- R257: CP_CMD.RCINV. -/
def execRcinv (r : Requester) (c : CoreId) (s : State) : Host.Outcome State Fault Refusal :=
  .next (if mayWrite .any r .core (coreU c) then rcInvalidate s c else s)

/-- R257: invalidation is complete. -/
def execRcinvComplete (c : CoreId) (s : State) : Host.Outcome State Fault Refusal :=
  .next (s.wb Reg.CP_STAT_RCINV (coreU c) false)

end Sys2Proof.Machine
end

