-- ==== Sys2Proof/Machine/Messages.lean ====
section
/-! DEFINITION. Arrivals at queue managers and sequencers over the control network: queue messages, markers, credits,
channel creation and destruction (R339-R345, R353, R354, R359, R362), replies (R199, R256, R318), and blocked sends
(R357, R358). -/

namespace Sys2Proof.Machine

/-! ## Waiting sends -/

/-- A blocking send that waits is tried again (R355): it completes with the credit that has come, or ends as its status
states (R211). -/
def retrySend (s : State) (c : CoreId) : State :=
  let w := imemWord s c (s.pc c)
  let f := fieldsOf w
  if s.cst c = stWaitSend && canIssue s c then
    if w / 2 ^ 56 = 0xC0 then commitEff s c (bodyQsend true c f s)
    else if w / 2 ^ 56 = 0xC2 then commitEff s c (bodyQsendr true c f s)
    else s
  else s

/-- The handle a waiting send names. -/
def sendHandle (s : State) (c : CoreId) : Nat :=
  match readSrc s c (bits (imemWord s c (s.pc c)) 44 6) with
  | .val v _ => v.toNat
  | _ => 0

/-! ## Sends of the sequence-slot engine (R479, R480) -/

/-- The hub's send-table entry of a handle on which the sequence-slot engine sends. -/
def hubEntry (s : State) (h : Nat) : Option HubSend := s.hubSend.find? fun e => e.handle == h && e.unit == 5

/-- Replaces a send-table entry of the hub. -/
def setHubSend (s : State) (e : HubSend) : State :=
  { s with hubSend := s.hubSend.map fun q => if q.handle = e.handle then e else q }

/-- Sends a message of the sequence-slot engine. -/
def hubMsg (s : State) (h : Nat) (b : QBody) : State :=
  s.send (.hub 5) (.core (handleCore h)) (.qmsg ⟨BitVec.ofNat 32 h, b⟩)

/-- The status of a send whose handle names no entry of its kind (R352, R483): 5 STALE where an entry for another
generation of the queue is held, else 6 BAD_HANDLE. -/
def hubMissing (s : State) (h : Nat) : Nat :=
  if s.hubSend.any fun e => e.unit == 5 && e.handle / 2 ^ 16 == h / 2 ^ 16 && e.handle != h then 5 else 6

/-- An attempt of a SEND: it completes when the message has left with its credit, and waits without credit. -/
def hubTrySend (s : State) (n : Nat) (r : SlotRun) : State :=
  let h := r.ent.arg
  match hubEntry s h with
  | none => finishRunOf s n r (hubMissing s h) 0 h
  | some e =>
    if e.ring then finishRunOf s n r 6 0 h
    else if e.ecred = 0 then s
    else
      let w := fun k => BitVec.ofNat 32 ((r.ent.data[k]?).getD 0)
      finishRunOf (hubMsg (setHubSend s { e with ecred := e.ecred - 1 }) h (.entry (w 0) (w 1) (w 2) (w 3) 0)) n r 0 0 h

/-- An attempt of a SENDR (R348, R350): the pad first, then the record; 7 TOO_LONG for one the ring cannot hold. -/
def hubTryRing (s : State) (n : Nat) (r : SlotRun) : State :=
  let h := r.ent.arg
  match hubEntry s h with
  | none => finishRunOf s n r (hubMissing s h) 0 h
  | some e =>
    let len := r.ent.len
    let l := 1 + (len + 63) / 64
    if !e.ring then finishRunOf s n r 6 0 h
    else if len > 65536 ∨ l > e.size then finishRunOf s n r 7 0 h
    else
      let tail := e.size - e.wr
      if l > tail ∧ e.lcred < tail then s
      else
        let e1 := if l > tail then { e with lcred := e.lcred - tail, wr := 0 } else e
        let s1 := setHubSend (if l > tail then hubMsg s h (.pad e.wr tail 0) else s) e1
        if e1.lcred < l ∨ e1.ecred = 0 then s1
        else
          let pay := (len + 63) / 64 * 64
          let data := recHeader h len e1.rseq 0 false ++ r.data ++ List.replicate (pay - len) 0
          let s2 := setHubSend s1 { e1 with
            lcred := e1.lcred - l, ecred := e1.ecred - 1, wr := (e1.wr + l) % e1.size, rseq := (e1.rseq + 1) % 2 ^ 32 }
          finishRunOf ((recBodies ⟨e1.wr, l, len, e1.rseq, 0⟩ e1.wr (chunks 256 data.length data)).foldl
            (fun t b => hubMsg t h b) s2) n r 0 0 h

/-- An attempt of a running SEND or SENDR; a SENDR first needs its record from the host. -/
def hubTry (s : State) (n : Nat) (r : SlotRun) : State :=
  if r.ent.opc = opSend then hubTrySend s n r
  else if r.data.length ≥ r.ent.len then hubTryRing s n r
  else s

/-- Tries again every SEND and SENDR that waits on a handle. -/
def hubRetry (s : State) (h : Nat) : State :=
  (runsOf s fun r => (r.ent.opc == opSend || r.ent.opc == opSendr) && r.ent.arg == h).foldl (fun t p => hubTry t p.1 p.2) s

/-- A channel of the hub ends (R341, R363): a send waiting on it ends STALE. -/
def hubStale (s : State) (h : Nat) : State :=
  (runsOf s fun r => (r.ent.opc == opSend || r.ent.opc == opSendr) && r.ent.arg == h).foldl
    (fun t p => finishRunOf t p.1 p.2 5 0 h) { s with hubSend := s.hubSend.filter fun e => e.handle != h }

/-! ## Queue traffic -/

/-- R354: a queue message lands. -/
def execQmsg (c : CoreId) (m : QMsg) (s : State) : Host.Outcome State Fault Refusal :=
  .next (toCore s c (.core (handleCore m.handle.toNat)) (.qmsg m) fun t => landMsg t c m)

/-- A FLUSH marker ends the discarding of arrivals tagged with a flushed phase; one that comes before the core has flushed
is remembered (R359). -/
def takeFlush (c : CoreId) (h : Nat) (s : State) : State :=
  let q := handleIdx h
  let x := s.cx c
  let early := match gatherOf s c with
    | some g => (s.gx g).toFlush.contains c.lc.val
    | none => false
  if early then s.setCx c { x with marked := q :: x.marked.filter (· ≠ q) }
  else s.setCx c { x with dropSet := smSet [] x.dropSet q [] }

/-- R359: a FLUSH marker arrives. -/
def execFlush (c : CoreId) (handle : Word) (s : State) : Host.Outcome State Fault Refusal :=
  .next (toCore s c (.core (handleCore handle.toNat)) (.flush handle.toNat) (takeFlush c handle.toNat))

/-- Credits return to a core; a send that waits for them completes (R345). -/
def takeCredit (c : CoreId) (h entries lines : Nat) (s : State) : State :=
  let u := coreU c
  match findSend s c h with
  | some e =>
    retrySend ((s.wr Reg.CQ_S_ECRED u (s.rd Reg.CQ_S_ECRED u e + entries) e).wr Reg.CQ_S_LCRED u
      (s.rd Reg.CQ_S_LCRED u e + lines) e) c
  | none => s

/-- R345: credits return to a sender. -/
def execQcredit (n : NodeId) (handle : Word) (entries lines : Nat) (s : State) : Host.Outcome State Fault Refusal :=
  let h := handle.toNat
  match n with
  | .core c => .next (toCore s c (.core (handleCore h)) (.qcredit h entries lines) (takeCredit c h entries lines))
  | _ => .next (hubRetry { s with hubSend := s.hubSend.map fun e =>
      if e.handle = h then { e with ecred := e.ecred + entries, lcred := e.lcred + lines } else e } h)

/-- R345: 64 NCLK after the oldest pending credit of a channel, its packet leaves. A die without its clock counts no NCLK (R65). -/
def execQcreditTimer (c : CoreId) (q : Fin 256) (s : State) : Host.Outcome State Fault Refusal :=
  .next (if s.rb Reg.BT_CLKSTAT_STOPPED c.die.val then s else sendCredit s c q.val)

/-- R353: a write of CQ_RREL releases popped records. -/
def execRingRelease (c : CoreId) (q : Fin 256) (count : BitVec 8) (s : State) : Host.Outcome State Fault Refusal :=
  .next (if s.rd Reg.CQ_Q_STATE (coreU c) q.val = 2 then ringRelease s c q.val count.toNat
    else s.lg LogKind.ringReleaseExcess (coreU c) [q.val, count.toNat])

/-! ## Channels -/

/-- Completes the handle instruction a core holds at: its operands are consumed and its result is in sD; a STOP that waited for it is
taken before the next instruction (R219). -/
def endHandle (s : State) (c : CoreId) (dest v : Nat) : State :=
  let s1 := takeOperands s c
  let s2 := advance ((wrS (s1.setCx c { s1.cx c with handleWait := none, stopDue := false }) c dest
    (BitVec.ofNat 32 v)).setCst c stRun) c
  if (s.cx c).stopDue && s2.cst c == stRun then takeTrap s2 c trStopped 0 else s2

/-- The sender's acknowledgement of a handle. -/
def ackHandle (n : NodeId) (h : Nat) (f : Option Nat) (s : State) : State :=
  s.send n (.core (handleCore h)) (.handleAck h f)

/-- The sender installs a send-table entry with full credit and acknowledges; a full table fails the creation with
SENDER_FULL (R339). -/
def takeCreate (c : CoreId) (h : Nat) (ring : Bool) (depth lines : Nat) (s : State) : State :=
  match installSend s c h ring depth lines with
  | some t => ackHandle (.core c) h none t
  | none => ackHandle (.core c) h (some 5) s

/-- R339: a HANDLE CREATE arrives. Module firmware installs the entry of a hub unit (R335). -/
def execHandleCreate (n : NodeId) (handle : Word) (ring : Bool) (depth lines : Nat) (s : State) :
    Host.Outcome State Fault Refusal :=
  let h := handle.toNat
  .next (match n with
    | .core c => toCore s c (.core (handleCore h)) (.handleCreate h ring depth lines) (takeCreate c h ring depth lines)
    | .hub u =>
      if s.hubSend.length < 1024 then
        ackHandle n h none { s with hubSend := s.hubSend ++
          [{ handle := h, unit := u.val, ring := ring, ecred := depth, size := lines, lcred := lines, wr := 0 }] }
      else ackHandle n h (some 5) s
    | _ => s)

/-- Removes a channel at its sender (R341, R363): its entry, and its messages at the commit gate, which are cancelled
and logged with no credit restored; a send blocked on it ends. -/
def dropChannel (s : State) (c : CoreId) (h : Nat) : State :=
  match findSend s c h with
  | none => s
  | some e =>
    let x := s.cx c
    let mine := x.gate.filter fun m => m.handle == h
    let s1 := s.setCx c { x with gate := x.gate.filter fun m => m.handle != h }
    let s2 := mine.foldl (fun t m => (releaseSb t c fun o => m.ring && o == .ringSend h m.sbId).lg
      LogKind.gateCancelled (coreU c) [h, m.phase]) s1
    retrySend (dropSend s2 c e) c

/-- R341: the sender removes its entry and acknowledges. -/
def execHandleDestroy (n : NodeId) (handle : Word) (s : State) : Host.Outcome State Fault Refusal :=
  let h := handle.toNat
  .next (match n with
    | .core c => toCore s c (.core (handleCore h)) (.handleDestroy h) fun t => ackHandle n h none (dropChannel t c h)
    | _ => ackHandle n h none (hubStale s h))

/-- R362: every queue manager, and the hub, removes the send-table entries that name a reset die. -/
def purgeDie (s : State) (d : DieId) : State :=
  let s1 := (allCores.filter fun c => !s.rb Reg.BT_CLKSTAT_STOPPED c.die.val).foldl (fun t c => (List.range 256).foldl (fun t e =>
    let h := t.rd Reg.CQ_S_HANDLE (coreU c) e
    if t.rb Reg.CQ_S_VALID (coreU c) e && (handleCore h).die == d then dropChannel t c h else t) t) s
  (s1.hubSend.filter fun e => (handleCore e.handle).die == d).foldl (fun t e => hubStale t e.handle) s1

/-- R362: HANDLE PURGE. -/
def execHandlePurge (d : DieId) (s : State) : Host.Outcome State Fault Refusal := .next (purgeDie s d)

/-- Frees an index whose destruction has been acknowledged (R341). -/
def endDestroy (s : State) (c : CoreId) (q : Nat) : State :=
  let u := coreU c
  if s.rd Reg.CQ_Q_STATE u q = 3 then
    (s.wr Reg.CQ_Q_STATE u 0 q).wr Reg.CQ_STAT_NQUEUE u (s.rd Reg.CQ_STAT_NQUEUE u - 1)
  else s

/-- The sender's acknowledgement completes QCREATE, with the handle or the failure's reason, or a destruction, and with
it a QDESTROY that waits for either (R339, R341). -/
def takeAck (c : CoreId) (h : Nat) (fail : Option Nat) (s : State) : State :=
  let q := handleIdx h
  match (s.cx c).handleWait with
  | some (.create k q _ d) =>
    if k ≠ h then endDestroy s c (handleIdx h)
    else match fail with
      | none => endHandle s c d h
      | some r => endHandle (createFail (freeQueue s c q) c r) c d 0
  | some (.destroy _ k d) => if k = q then endHandle (endDestroy s c q) c d qsOk else endDestroy s c q
  | some (.busyDestroy k d) => if k = q then endHandle (endDestroy s c q) c d qsOk else endDestroy s c q
  | none => endDestroy s c q

/-- R339, R341: a HANDLE acknowledgement arrives. -/
def execHandleAck (c : CoreId) (handle : Word) (fail : Option Nat) (s : State) : Host.Outcome State Fault Refusal :=
  .next (toCore s c (.hub 0) (.handleAck handle.toNat fail) (takeAck c handle.toNat fail))

/-- R341, R343: module firmware destroys a run-time queue; one of the parison is refused. A read waiting on the queue
raises QUEUE_FAULT. -/
def firmwareDestroy (s : State) (c : CoreId) (q : Nat) : State :=
  let u := coreU c
  let st := s.rd Reg.CQ_Q_STATE u q
  if s.rb Reg.CQ_Q_PZ u q then s.lg LogKind.frozenRefused u [q]
  else if st = 0 ∨ st = 3 then s
  else
    let h := handleOf s c q
    let s1 := (startDestroy s c q).1
    if s.cst c = stWaitQ ∧ smGet 0 (s.cx c).qbind (s.rd Reg.CS_STAT_QPORT u) = q + 1 then takeTrap s1 c trQueueFault h else s1

/-- R341: CQ_CMD.DESTROY. -/
def execCqCmdDestroy (r : Requester) (c : CoreId) (q : Fin 256) (s : State) : Host.Outcome State Fault Refusal :=
  .next (if mayWrite .fw r .core (coreU c) then firmwareDestroy s c q.val
    else s.lg LogKind.ignoredWrite (coreU c) [Reg.CQ_CMD_DESTROY.id, q.val])

/-! ## Replies -/

/-- The outstanding request a reply pairs with. -/
def findReq (s : State) (c : CoreId) (tag : Nat) (read : Bool) : Option NetReq :=
  (s.cx c).reqs.find? fun q => q.tag == tag && q.read == read

/-- Removes an outstanding request. -/
def dropReq (s : State) (c : CoreId) (q : NetReq) : State :=
  s.setCx c { s.cx c with reqs := (s.cx c).reqs.filter fun r => r.tag != q.tag }

/-- R199, R256, R257: a read response completes the RLW that waits for it, or raises ADDR_FAULT; a fill is installed unless the
cache has been invalidated since. A response after its timeout is discarded (R318), and none reaches a die without its clock
(R65). -/
def execRdrsp (c : CoreId) (tag : BitVec 12) (fault : Bool) (data : List Byte) (s : State) :
    Host.Outcome State Fault Refusal :=
  .next (match if s.rb Reg.BT_CLKSTAT_STOPPED c.die.val then none else findReq s c tag.toNat true with
    | none => s
    | some q =>
      let s1 := dropReq s c q
      if fault then takeTrap s1 c trAddrFault (q.mga % 2 ^ 32)
      else
        let s2 := if q.fill then rcInstall s1 c q.mga data else s1
        let word := (if data.length > 4 then data.drop (q.mga % 256) else data).take 4
        advance ((wrS s2 c q.dest (BitVec.ofNat 32 (ofLeBytes word))).setCst c stRun) c)

/-- A write status reaches its core; a fault sets RFAULT (R199). -/
def takeWrrsp (c : CoreId) (tag : Nat) (ok : Bool) (s : State) : State :=
  match findReq s c tag false with
  | none => s
  | some q =>
    let s1 := dropReq s c q
    if ok then s1 else s1.wb Reg.CS_STAT_RFAULT (coreU c) true

/-- R199: a write status arrives. -/
def execWrrsp (c : CoreId) (tag : BitVec 12) (ok : Bool) (s : State) : Host.Outcome State Fault Refusal :=
  .next (toCore s c (.hub 0) (.wrrsp tag.toNat ok) (takeWrrsp c tag.toNat ok))

/-- R318: no response within REQTO; the request completes with TIMEOUT, for an RLW as a fault of its target. -/
def execCnTimeout (c : CoreId) (tag : BitVec 12) (s : State) : Host.Outcome State Fault Refusal :=
  .next (match (s.cx c).reqs.find? fun q => q.tag == tag.toNat with
    | none => s
    | some q =>
      let s1 := (dropReq s c q).lg LogKind.cnTimeout (coreU c) [q.tag, q.mga]
      if q.read then takeTrap s1 c trAddrFault (q.mga % 2 ^ 32) else s1)

/-! ## Blocked sends -/

/-- The handle of the lowest full queue of a core whose sender is another core; 0 where none qualifies (R357). -/
def ownFull (s : State) (c o : CoreId) : Nat :=
  let u := coreU c
  match (List.range 256).find? fun q =>
      let st := s.rd Reg.CQ_Q_STATE u q
      (st == 1 || st == 2) && s.rd Reg.CQ_Q_SENDER u q == coreU o
        && decide (depthOf (s.rd Reg.CQ_Q_DEPTH u q) ≤ s.rd Reg.CQ_Q_COUNT u q) with
  | some q => handleOf s c q
  | none => 0

/-- R357: the watchdog of a send in WAIT_SEND expires; the send traps with no effect. -/
def execBlockedSend (c : CoreId) (s : State) : Host.Outcome State Fault Refusal :=
  .next (if s.cst c = stWaitSend && coreLive s c then
      let h := sendHandle s c
      let own := ownFull s c (handleCore h)
      noteAt (takeTrap ((s.bump Reg.CQ_WDFIRE_COUNT (coreU c)).wr Reg.CQ_BSOWN_HANDLE (coreU c) own) c trBlockedSend h own) (.core c)
        0x22 [h, own]
    else s)

/-- The reports a collector holds: a die Punty, or hub Punty 2 (kept under number 4). -/
def collectorOf (col : Collector) : Nat :=
  match col with
  | .die d => d.val
  | .hub _ => 4

/-- The collector's part of the state. -/
def State.bx (s : State) (k : Nat) : DieX := smGet {} s.dies k

/-- Sets the reports a collector holds. -/
def setReports (s : State) (k : Nat) (l : List BlockReport) : State :=
  { s with dies := smSet {} s.dies k { s.bx k with blocked := l } }

/-- R216, R358: a trap report reaches the die Punty. A BLOCKED_SEND report is collected there, or forwarded to hub Punty
2 where its destination lies on another die. -/
def execTrapPacket (c : CoreId) (code : Nat) (dest own : Nat) (s : State) : Host.Outcome State Fault Refusal :=
  let r : BlockReport := ⟨c, BitVec.ofNat 32 dest, BitVec.ofNat 32 own⟩
  let s1 := s.lg LogKind.trapReport (coreU c) [code, dest, own]
  .next (if s.rb Reg.BT_CLKSTAT_STOPPED c.die.val then s
    else if code ≠ trBlockedSend then s1
    else if (handleCore dest).die = c.die then setReports s1 c.die.val ((s1.bx c.die.val).blocked ++ [r])
    else setReports (s1.send (.dieNode c.die) (.hub 2) (.trap code 0 dest own)) 4 ((s1.bx 4).blocked ++ [r]))

/-- SKIP or RESUME of a core that is trapped in a blocked send (R218). -/
def endBlocked (s : State) (c : CoreId) (skip : Bool) : State :=
  if s.cst c = stTrapped ∧ s.rd Reg.CS_TRAP_CODE (coreU c) = trBlockedSend then
    let t := s.wb Reg.CS_TRAP_VALID (coreU c) false
    if skip then skipCore t c else resumeCore t c
  else s

/-- An unmatched report (R358): RESUME once, SKIP when it traps again. -/
def unmatched (s : State) (r : BlockReport) : State :=
  let again := (s.cx r.core).blockedTwice
  endBlocked (s.setCx r.core { s.cx r.core with blockedTwice := !again }) r.core again

/-- R358: a collector pairs two reports it holds, of which one names as its destination the other's own handle: the core with the lower
module-wide index is the victim and is skipped, the other resumes; reports that do not match are handled each alone. -/
def execDeadlockResolve (col : Collector) (a b : BlockReport) (s : State) : Host.Outcome State Fault Refusal :=
  let k := collectorOf col
  let l := (s.bx k).blocked
  let s1 := setReports s k (l.filter fun r => r != a && r != b)
  .next (if !(l.contains a && l.contains b) then s
    else if a.core ≠ b.core ∧ (a.dest = b.own ∨ b.dest = a.own) then
      let v := if coreU a.core < coreU b.core then (a, b) else (b, a)
      (endBlocked (endBlocked s1 v.1.core true) v.2.core false).lg LogKind.deadlock (if k < 4 then dieN k else hubN)
        [coreU v.1.core, v.1.dest.toNat, v.2.dest.toNat]
    else if a = b then unmatched s1 a
    else unmatched (unmatched s1 a) b)

end Sys2Proof.Machine
end

