-- ==== Sys2Proof/Machine/Rows.lean ====
section
/-! DEFINITION. Positions, row maps, fences and shifts (R29-R39, R295, R296, R539). -/

namespace Sys2Proof.Machine

/-- The states of a position (R539). -/
def psMapped : Nat := 0
def psSpare : Nat := 1
def psQuarantine : Nat := 2
def psScanning : Nat := 3
def psFuse : Nat := 4
def psField : Nat := 5
def psIsland : Nat := 6
def psPending : Nat := 7

/-- The FT_PSTAT field of a column. -/
def pstatF (c : Nat) : Field :=
  match c with
  | 0 => Reg.FT_PSTAT_STATE0 | 1 => Reg.FT_PSTAT_STATE1 | 2 => Reg.FT_PSTAT_STATE2 | 3 => Reg.FT_PSTAT_STATE3
  | 4 => Reg.FT_PSTAT_STATE4 | 5 => Reg.FT_PSTAT_STATE5 | 6 => Reg.FT_PSTAT_STATE6 | 7 => Reg.FT_PSTAT_STATE7
  | 8 => Reg.FT_PSTAT_STATE8 | _ => Reg.FT_PSTAT_STATE9

/-- The state of P[r,c] of a die. -/
def posState (s : State) (d r c : Nat) : Nat := s.rd (pstatF c) d r

/-- Sets the state of P[r,c]. -/
def setPos (s : State) (d r c v : Nat) : State := s.wr (pstatF c) d v r

/-- The columns of a row. -/
def cols : List Nat := List.range 10

/-- True of a healthy position: MAPPED or SPARE (R29). -/
def healthy (s : State) (d r c : Nat) : Bool := decide (posState s d r c ≤ psSpare)

/-- The FT_LMAP field of a logical column. -/
def lmapF (k : Nat) : Field :=
  match k with
  | 0 => Reg.FT_LMAP_PCOL0 | 1 => Reg.FT_LMAP_PCOL1 | 2 => Reg.FT_LMAP_PCOL2 | 3 => Reg.FT_LMAP_PCOL3
  | 4 => Reg.FT_LMAP_PCOL4 | 5 => Reg.FT_LMAP_PCOL5 | 6 => Reg.FT_LMAP_PCOL6 | _ => Reg.FT_LMAP_PCOL7

/-- The map in force of a row: the physical column of L[r,0..7]. -/
def lmapOf (s : State) (d r : Nat) : List Nat := (List.range 8).map fun k => pcolOf s d r k

/-- Sets the map of a row. -/
def setLmap (s : State) (d r : Nat) (l : List Nat) : State :=
  (List.range 8).foldl (fun t k => t.wr (lmapF k) d ((l[k]?).getD 15) r) s

/-- A row mapped in order (R29): L[r,k] on the (k+1)-th healthy position; absent beyond them. -/
def freshMap (hs : List Nat) : List Nat := (hs ++ List.replicate 8 15).take 8

/-- Places moving cores in logical order, each on the first healthy position to the right of the one before (R30);
none where they run out. -/
def placeRight : Nat → List Nat → Option (List Nat)
  | 0, _ => some []
  | _ + 1, [] => none
  | n + 1, h :: r => (placeRight n r).map (h :: ·)

/-- The map after positions are fenced (R30, R31): the cores from the leftmost fenced one move to the right; where the
positions do not suffice the row is mapped afresh. `hs` are the columns healthy after the fence. -/
def shiftMap (l hs : List Nat) : List Nat :=
  match (List.range l.length).find? fun k => ((l[k]?).getD 15 != 15) && !hs.contains ((l[k]?).getD 15) with
  | none => l
  | some k =>
    let from_ := if k = 0 then 0 else (l[k - 1]?).getD 15 + 1
    match placeRight (l.length - k) (hs.filter fun c => decide (from_ ≤ c)) with
    | some m => l.take k ++ m
    | none => freshMap hs

/-- FT_ROWMAP of a row, and BT_IDENT's PRESENT and DEGRADED (R31, R37, R44); an island of the row may rest (R505). -/
def updRow (s : State) (d r : Nat) : State :=
  let bad := cols.filter fun c => !healthy s d r c
  let s1 := s.wr Reg.FT_ROWMAP_FENCED d (bad.foldl (fun n c => n + 2 ^ c) 0) r
  let s2 := (s1.wr Reg.FT_ROWMAP_HEALTHY d (10 - bad.length) r).wb Reg.FT_ROWMAP_SHORT d (decide (bad.length > 2)) r
  let s3 := s2.wb Reg.FT_ROWMAP_PENDING d (s2.rd Reg.FT_ROWMAP_FENCE_REQ d r != 0) r
  let present := ((List.range 8).flatMap fun q => (lmapOf s3 d q).filter (· ≠ 15)).length
  let s4 := (s3.wr Reg.BT_IDENT_PRESENT d present).wb Reg.BT_IDENT_DEGRADED d
    ((List.range 8).any fun q => s3.rb Reg.FT_ROWMAP_SHORT d q)
  ((List.range 16).filter (islandRow · == r)).foldl (fun t n => restIsland t (Fin.ofNat 4 d) n) s4

/-- The state a fence leads to (R34, R541, R542): QUARANTINE unless recorded otherwise for the position. -/
def fenceTo (s : State) (d : DieId) (r c : Nat) : Nat := smGet psQuarantine (s.dx d).fenceTo (10 * r + c)

/-- True when a position hosts a logical core, or a running shift of its row is placing one on it (R34, R35). -/
def hostsCore (s : State) (d : DieId) (r c : Nat) : Bool :=
  posState s d.val r c == psMapped ||
    (posState s d.val r c == psSpare && (smGet none (s.dx d).shifts r).any fun x => x.lmap.contains c)

/-- Requests fences of positions of a row (R34, R37): a position that hosts no logical core is fenced at once. -/
def requestFence (s : State) (d : DieId) (r : Nat) (cs : List Nat) : State :=
  updRow (cs.foldl (fun t c =>
    if hostsCore t d r c then
      (setPos t d.val r c psPending).wr Reg.FT_ROWMAP_FENCE_REQ d.val
        (t.rd Reg.FT_ROWMAP_FENCE_REQ d.val r ||| 2 ^ c) r
    else if posState t d.val r c = psSpare then setPos t d.val r c (fenceTo t d r c)
    else t) s) d.val r

/-- R38: FENCE_REQ; the die's Punty and module firmware only. -/
def execFenceReq (r : Requester) (d : DieId) (row : Fin 8) (cols : BitVec 10) (s : State) :
    Host.Outcome State Fault Refusal :=
  .next (if mayWrite .punty r .die d.val then
      requestFence s d row.val ((List.range 10).filter fun c => bit cols.toNat c)
    else s.lg LogKind.ignoredWrite (dieN d.val) [Reg.FT_ROWMAP_FENCE_REQ.id, row.val])

/-- The pending fences of a row. -/
def pendingCols (s : State) (d r : Nat) : List Nat := cols.filter fun c => bit (s.rd Reg.FT_ROWMAP_FENCE_REQ d r) c

/-- The map of a row once its pending fences are applied, and the logical columns that move. -/
def plannedShift (s : State) (d r : Nat) : List Nat × List Nat :=
  let l := lmapOf s d r
  let m := shiftMap l (cols.filter fun c => healthy s d r c)
  (m, (List.range 8).filter fun k => (l[k]?).getD 15 != (m[k]?).getD 15)

/-- Applies every pending fence of a row as one shift (R34): the positions take their states, the spares it needs are woken (R36),
and the moving cores are in transit until the shift completes. -/
def applyFences (s : State) (d : DieId) (r : Nat) : State :=
  let cs := pendingCols s d.val r
  if cs.isEmpty then s
  else
    let p := plannedShift s d.val r
    let s1 := cs.foldl (fun t c => setPos t d.val r c (fenceTo t d r c)) s
    let s2 := updRow (s1.wr Reg.FT_ROWMAP_FENCE_REQ d.val 0 r) d.val r
    if p.2.isEmpty then s2
    else wakeSpares (s2.setDx d { s2.dx d with shifts := smSet none (s2.dx d).shifts r (some ⟨p.1, p.2⟩) }) d
      ((cols.filter fun c => p.1.contains c && posState s2 d.val r c == psSpare).map (10 * r + ·))

/-- The gather that owns every moving core of a row, if one does (R34). -/
def soleGather (s : State) (d : DieId) (r : Nat) : Option Gather :=
  match (plannedShift s d.val r).2.map fun k => gatherOf s ⟨d, Fin.ofNat 64 (8 * r + k)⟩ with
  | some g :: rest => if rest.all fun h => h == some g then some g else none
  | _ => none

/-- R34: the quiesce point of a row's pending fences is the phase boundary of the gather that owns every moving core;
the step boundary applies the others. -/
def execFenceShift (d : DieId) (row : Fin 8) (s : State) : Host.Outcome State Fault Refusal :=
  .next (match soleGather s d row.val with
    | some g =>
      if !(s.gx g).inPhase && (s.gx g).toFlush.isEmpty && (smGet none (s.dx d).shifts row.val).isNone then
        applyFences s d row.val
      else s
    | none => s)

/-- Marks every gather of a die that holds an absent core as degraded (R31). -/
def markDegraded (s : State) (d : DieId) : State :=
  (dieGathers d).foldl (fun t g =>
    if (gatherCores t g).any fun c => !corePresent t c then t.wb Reg.PZ_GATHER_DEGRADED d.val true g.idx.val else t) s

/-- The states of the positions of a row under its map: MAPPED where one hosts a core, SPARE where a healthy one does
not. -/
def settleRow (s : State) (d r : Nat) : State :=
  updRow (cols.foldl (fun t c =>
    if healthy t d r c then setPos t d r c (if (lmapOf t d r).contains c then psMapped else psSpare) else t) s) d r

/-- The refetch set of a core (R543): the streams to it that gathers beside its own own and that completed a run in the current step,
in increasing index. -/
def refetchSet (s : State) (c : CoreId) : List (Nat × Nat) :=
  ((List.range 32768).filter fun i =>
    let dst := sideOf s c.die i true
    s.rb Reg.DN_DESC_VALID c.die.val i && (dst.1 == skSp || dst.1 == skWpt) && mgaCore dst.2 == c
      && gatherOf s (ownerCore s c.die i) != gatherOf s c && (s.sx c.die i).ran).map fun i => (c.die.val, i)

/-- What follows a shift for the gathers that a recovery holds (R544): the refetch set of every moved core runs, each core's in
increasing index and different cores' in parallel; a gather with nothing to refetch is released. -/
def refetchMoved (s : State) (cs : List CoreId) : State :=
  let gs := (cs.filterMap (gatherOf s)).eraseDups.filter fun g => (s.gx g).recover
  let s1 := gs.foldl (fun t g =>
    let x := t.gx g
    let ls := if x.quiet then [] else ((cs.filter fun c => gatherOf t c == some g).map (refetchSet t)).filter fun l => !l.isEmpty
    (ls.filterMap (·.head?)).foldl refetchRun (t.setGx g { x with refetch := x.refetch ++ ls })) s
  endRecoveries s1

/-- R35, R296, R360: the shift of a row completes, once its spares are awake: the map changes, each moved core stands on a zeroed
scratchpad with its tables and queue configuration, and its channels are reset. -/
def execShiftComplete (d : DieId) (row : Fin 8) (s : State) : Host.Outcome State Fault Refusal :=
  .next (match smGet none (s.dx d).shifts row.val with
    | none => s
    | some x =>
      let ps := x.lmap.map (10 * row.val + ·)
      if sparesRising s d ps then s
      else
      let s0 := restSpares s d ps
      let s1 := s0.setDx d { s0.dx d with shifts := smSet none (s0.dx d).shifts row.val none }
      let s2 := settleRow (setLmap s1 d.val row.val x.lmap) d.val row.val
      let s3 := x.moved.foldl (fun t k =>
        let c : CoreId := ⟨d, Fin.ofNat 64 (8 * row.val + k)⟩
        let t1 := resetChannelsOf (zeroScratch t c) c
        (t1.setCx c { t1.cx c with dead := false, mapWanted := [], mapping := none }).wb
          Reg.DN_RSTAT_PASSTHRU (coreU c) (!corePresent t1 c || decide (2 ≤ cstateOf t1 c))) s2
      refetchMoved (markDegraded (reapplyMasks s s3 d) d) (x.moved.map fun k => ⟨d, Fin.ofNat 64 (8 * row.val + k)⟩))

/-- The wakes of a die's spares for shifts that no longer run end, and those awake go back to C3 (R36); a position in a scan stays
awake. -/
def endSpareWakes (s : State) (d : DieId) : State :=
  let keep := fun n : Nat => posState s d.val (n / 10) (n % 10) == psScanning
  let x := s.pw d.val
  let ups := (x.ups.map fun u => { u with cores := u.cores.filter fun k => decide (k < 64) || keep (k - 64) }).filter fun u =>
    u.main || !u.cores.isEmpty
  let t := (s.setPw d.val { x with ups := ups }).setDx d { s.dx d with shifts := [], awake := (s.dx d).awake.filter keep }
  (List.range 8).foldl (fun t k => consider t d.val k) ((List.range 16).foldl (fun t n =>
    if ups.any fun u => u.isl == n then t else t.wb Reg.LH_ISL_WAIT d.val false n) t)

/-- Maps every row of a die afresh (R29, R34): pending fences are applied first, and shifts in progress end. -/
def mapDie (s : State) (d : DieId) : State :=
  (List.range 8).foldl (fun t r =>
    let t1 := (pendingCols t d.val r).foldl (fun t c => setPos t d.val r c (fenceTo t d r c)) t
    let t2 := t1.wr Reg.FT_ROWMAP_FENCE_REQ d.val 0 r
    settleRow (setLmap t2 d.val r (freshMap (cols.filter fun c => healthy t2 d.val r c))) d.val r)
    (endSpareWakes s d)

end Sys2Proof.Machine
end

