-- ==== Sys2Proof/Machine/Wire.lean ====
section
/-! DEFINITION. A link group on its lanes (R396-R402): which wire carries which bit, the tags, the CRC-32s and the lane parity of the
LINK beat, and what the check of a group finds when wires flip bits. -/

namespace Sys2Proof.Machine

/-! ## CRC-32 (R402) -/

/-- The CRC register after the `n` low bits of `v`, in increasing bit index. -/
def crcRun : Nat → Nat → Nat → Nat
  | 0, _, c => c
  | n + 1, v, c => crcRun n (v / 2) ((c / 2) ^^^ (if (c + v) % 2 = 1 then 0xEDB88320 else 0))

/-- The CRC-32 of the `n` low bits of `v`: generator 0x04C1_1DB7, initial value all ones, result complemented. -/
def crc32 (n v : Nat) : Nat := 2 ^ 32 - 1 - crcRun n v (2 ^ 32 - 1)

/-! ## Lanes (R396, R397) -/

/-- True when a slot is claimed by the link layer at a width code (R398): full and half 0 and 1, quarter 2. -/
def claimed (flen width t : Nat) : Bool :=
  if width ≤ 1 then t % 16 == 15 || t + 1 == flen else t % 8 == 7 || t + 1 == flen

/-- The data beats of the link group that ends with the last slot claimed at or before slot `t` of a frame (R398): those since the slot
claimed before it. -/
def groupBeats (flen width t : Nat) : Nat :=
  let c := ((List.range 16).find? fun k => decide (k ≤ t) && claimed flen width (t - k)).elim (flen - 1) (t - ·)
  ((List.range 16).find? fun j => decide (c ≤ j) || claimed flen width (c - (j + 1))).getD 15

/-- Payloads of a link group with a number of data beats (R397, R401). -/
def groupCap (w beats : Nat) : Nat :=
  match w with
  | 0 => 4 * beats | 1 => 2 * beats | 2 => beats | _ => 0

/-- The width a set of usable groups allows (R396). -/
def groupsWidth (groups : Nat) : Nat :=
  let n := ((List.range 16).filter fun j => bit groups j).length
  if n = 16 then 0 else if n ≥ 8 then 1 else if n ≥ 4 then 2 else 3

/-- The width code of a number of usable span lanes (R418). -/
def spanWidth (n : Nat) : Nat := if n ≥ 8 then 0 else if n ≥ 4 then 1 else if n ≥ 2 then 2 else 3

/-- The transmit width code of a port. -/
def txWidth (s : State) (p : PortId) : Nat := rdP s p Reg.LK_STAT_TXW Reg.LKH_STAT_TXW

/-- Active groups, data beats and link flits of a group at a width. -/
def widthGroups (w : Nat) : Nat := match w with | 0 => 16 | 1 => 8 | _ => 4
def widthBeats (w : Nat) : Nat := if w ≤ 1 then 15 else 7
def widthFlits (w : Nat) : Nat := match w with | 0 => 30 | 1 => 15 | _ => 4

/-- LK_STAT.GROUPS of a port: its usable receive groups, on a span port of one lane each. -/
def usableGroups (s : State) (p : PortId) : Nat := rdP s p Reg.LK_STAT_GROUPS Reg.LKH_STAT_GROUPS

/-- The width that a receiver's usable groups allow (R396, R418). -/
def widthOf (p : PortId) (groups : Nat) : Nat :=
  match p with
  | .span _ => spanWidth ((List.range 8).filter fun l => bit groups l).length
  | _ => groupsWidth groups

/-- The groups of a receiver that are usable (R396, R409): no lane of the group fails without a spare, and its clock lane, which times
four groups, works. A span lane is a group of its own, and must be in lock (R418, R423). -/
def groupsNow (s : State) (p : PortId) : Nat :=
  let x := s.lx p
  let ok := fun j : Nat => !x.lost.contains j && match p with
    | .span m => decide (j < 8) && (smGet (0, 0) (s.spx m).lanes j).1 == 1
    | _ => !bit x.clocks (j / 4)
  ((List.range 16).filter ok).foldl (fun n j => n + 2 ^ j) 0

/-- The active lanes of a receiving port at a width, in ascending order (R396, R397): of the groups that the last change of width put
in force. -/
def activeLanes (s : State) (p : PortId) (w : Nat) : List Nat :=
  let gs := ((List.range 16).filter fun g => bit (s.lx p).groups g).take (widthGroups w)
  gs.flatMap fun g => (List.range 16).map (16 * g + ·)

/-- The wire of a lane under the sender's lane map (R397, R410): a steered lane uses its spare, 256 + spare. -/
def wireOf (x : LaneX) (lane : Nat) : Nat := if smGet 0 x.txMap lane = 0 then lane else 255 + smGet 0 x.txMap lane

/-- The bit of a data beat that active lane `i` carries in unit interval `ui`: its link flit and its bit there (R397, R401). -/
def dataBit (w beat i ui : Nat) : Nat × Nat :=
  match w with
  | 0 => (2 * beat + i / 128, 128 * ui + i % 128)
  | 1 => (beat, 128 * ui + i)
  | _ => (beat / 2, 64 * (ui + 16 * (beat % 2)) + i)

/-! ## Groups (R400, R401) -/

/-- The tag of a payload. -/
def tagOf (p : Payload) : Nat :=
  1 + 2 * p.sub + 2 ^ 3 * p.flit.stream + 2 ^ 18 * b2n p.flit.fmt + 2 ^ 19 * b2n p.flit.ovf + 2 ^ 20 * b2n p.flit.nan
    + 2 ^ 21 * b2n p.flit.last + 2 ^ 22 * (p.flit.pseq % 2 ^ 16) + 2 ^ 38 * (p.flit.seq % 4)

/-- The payload of a tag and 1,024 bits; none where V is 0. Of SEQ the tag has the two low bits. -/
def payloadOf (tag v : Nat) : Option Payload :=
  if bit tag 0 then some ⟨bits tag 1 2,
    { stream := bits tag 3 15, seq := bits tag 38 2, pseq := bits tag 22 16, fmt := bit tag 18, ovf := bit tag 19
      nan := bit tag 20, last := bit tag 21, payload := BitVec.ofNat 1024 v }⟩
  else none

/-- Two parts of the payload list as the numbers of a link flit: 2,048 payload bits and 80 tag bits. -/
def linkFlit (l : List Payload) (j : Nat) : Nat × Nat :=
  let v := fun n : Nat => (l[n]?).elim 0 fun p => p.flit.payload.toNat
  let t := fun n : Nat => (l[n]?).elim 0 tagOf
  (v (2 * j) + 2 ^ 1024 * v (2 * j + 1), t (2 * j) + 2 ^ 40 * t (2 * j + 1))

/-- The parity of active lane `i` over the data beats of a group (R402). -/
def laneParity (w : Nat) (fs : List Nat) (i : Nat) : Bool :=
  (List.range (widthBeats w)).foldl (fun a beat => (List.range 16).foldl (fun a ui =>
    let q := dataBit w beat i ui
    a != bit ((fs[q.1]?).getD 0) q.2) a) false

/-- The bits of a LINK beat, and where its lane parity and its CRC lie (R401). -/
def beatBits (w : Nat) : Nat := 256 * widthGroups w
def parityAt (w : Nat) : Nat := match w with | 0 => 3568 | 1 => 1888 | _ => 656

/-- LHDR of a group (R401). -/
def linkHdr (gseq ack w : Nat) (nak rpl ctrlv : Bool) : Nat :=
  gseq % 2 ^ 12 + 2 ^ 12 * (ack % 2 ^ 12) + 2 ^ 24 * b2n nak + 2 ^ 25 * b2n rpl + 2 ^ 26 * b2n ctrlv + 2 ^ 27 * w

/-- LCMD of a LINK beat (R410). -/
def lcmdWord (cmd lane spare width at_ : Nat) : Nat :=
  cmd % 2 ^ 4 + 2 ^ 4 * (lane % 2 ^ 8) + 2 ^ 12 * (spare % 2 ^ 3) + 2 ^ 15 * (width % 2 ^ 2) + 2 ^ 17 * (at_ % 2 ^ 12)

/-- The fields of a LINK beat that do not follow from the group's data: LHDR, LCMD, CTRL and, on a span, the GCM tag (R401). -/
structure BeatHead where
  hdr : Nat
  lcmd : Nat
  ctrl : Nat
  gcm : Nat := 0

/-- A LINK beat in the layout of a width: header, trailers of the link flits (payload and tag bits), lane parity, GCM tag and the CRC of
the rest (R401, R402). -/
def linkBeat (w : Nat) (h : BeatHead) (par : Nat) (fs : List (Nat × Nat)) : Nat :=
  let trailers := (fs.zip (List.range fs.length)).foldl (fun n q =>
    n + 2 ^ (208 + 112 * q.2) * (q.1.2 + 2 ^ 80 * crc32 2128 (q.1.1 + 2 ^ 2048 * q.1.2))) 0
  let v := h.hdr + 2 ^ 32 * h.lcmd + 2 ^ 64 * h.ctrl + trailers + 2 ^ parityAt w * par + 2 ^ 3824 * h.gcm
  v + 2 ^ (beatBits w - 32) * crc32 (beatBits w - 32) v

/-- The lane parity bits of a group at a cane port. -/
def lanePar (w : Nat) (fs : List Nat) : Nat :=
  (List.range (16 * widthGroups w)).foldl (fun n i => n + 2 ^ i * b2n (laneParity w fs i)) 0

/-- The lane parity bits of a span group (R397, R402, R418): lane i of W active ones carries every bit b of a link flit with b mod W = i
(DEDUCED, notes/assumptions/102). -/
def spanPar (lanes : Nat) (fs : List Nat) : Nat :=
  (List.range lanes).foldl (fun n i => n + 2 ^ i * b2n (fs.foldl (fun a v =>
    (List.range (2048 / lanes)).foldl (fun a k => a != bit v (lanes * k + i)) a) false)) 0

/-- The tags and the CRC of trailer `j` of a LINK beat. -/
def beatTags (beat j : Nat) : Nat := bits beat (208 + 112 * j) 80
def beatCrc (beat j : Nat) : Nat := bits beat (208 + 112 * j + 80) 32

/-- True when a LINK beat's own CRC and those of its link flits, given their payload bits, pass (R404). -/
def beatOk (w beat : Nat) (fs : List Nat) : Bool :=
  crc32 (beatBits w - 32) (beat % 2 ^ (beatBits w - 32)) == bits beat (beatBits w - 32) 32
    && (List.range (widthFlits w)).all fun j => crc32 2128 ((fs[j]?).getD 0 + 2 ^ 2048 * beatTags beat j) == beatCrc beat j

/-- A bit flipped on the way: active lane index, beat, unit interval. The errors of wires that no active lane uses change
nothing. -/
def flips (lanes : List Nat) (x : LaneX) (errs : List WireErr) : List (Nat × Nat × Nat) :=
  errs.filterMap fun e => ((List.range lanes.length).find? fun i => wireOf x ((lanes[i]?).getD 0) == e.wire.val).map fun i =>
    (i, e.beat.val, e.ui.val)

/-- Flips a bit of a number. -/
def flipBit (v b : Nat) : Nat := v ^^^ 2 ^ b

/-- What the check of a group finds (R404, R408): whether every CRC passes, the active lanes whose parity mismatches, and the
payloads and the LCMD as they arrive. -/
structure GroupFound where
  ok : Bool
  lanes : List Nat
  payloads : List Payload
  lcmd : Nat

/-- The check of a group of `nb` data beats that has met bit errors. The LINK beat's bit 16 x groups x ui + lane travels on an active lane
in a unit interval; a shorter group's unused link flits are idle ones (DESIGN CHOICE, notes/assumptions/86). -/
def checkFlipped (w nb : Nat) (h : BeatHead) (l : List Payload) (es : List (Nat × Nat × Nat)) : GroupFound :=
  let fs := (List.range (widthFlits w)).map (linkFlit l)
  let data := es.filter fun e => decide (e.2.1 < nb)
  let got := (List.range (widthFlits w)).map fun j =>
    (data.filter fun e => (dataBit w e.2.1 e.1 e.2.2).1 == j).foldl (fun v e => flipBit v (dataBit w e.2.1 e.1 e.2.2).2)
      ((fs.map (·.1))[j]?.getD 0)
  let beat := (es.filter fun e => e.2.1 == nb).foldl (fun v e => flipBit v (16 * widthGroups w * e.2.2 + e.1))
    (linkBeat w h (lanePar w (fs.map (·.1))) fs)
  { ok := beatOk w beat got
    lanes := (List.range (16 * widthGroups w)).filter fun i => laneParity w got i != bit beat (parityAt w + i)
    payloads := (List.range (2 * widthFlits w)).filterMap fun n =>
      payloadOf (bits (beatTags beat (n / 2)) (40 * (n % 2)) 40) (bits ((got[n / 2]?).getD 0) (1024 * (n % 2)) 1024)
    lcmd := bits beat 32 32 }

/-- The check of a group of `nb` data beats that sender `q` sends to receiver `p` at a width: without bit errors every check passes. The
lanes found are named by their wires. -/
def checkGroup (s : State) (p q : PortId) (w nb : Nat) (h : BeatHead) (l : List Payload) (errs : List WireErr) : GroupFound :=
  let lanes := activeLanes s p w
  match flips lanes (s.lx q) errs with
  | [] => ⟨true, [], l, h.lcmd⟩
  | es =>
    let r := checkFlipped w nb h l es
    { r with lanes := r.lanes.map fun i => wireOf (s.lx q) ((lanes[i]?).getD 0) }

end Sys2Proof.Machine
end

