-- ==== Sys2Proof/Machine/Links.lean ====
section
/-! DEFINITION. Cane and span links (R396-R426): link groups with their checks and replay, lane repair and width,
training and retraining, and the sideband messages. -/

namespace Sys2Proof.Machine

/-! ## Delivery -/

/-- The stream on a die that a payload arriving at one of its ports belongs to (R278): of those its sub-slot's entries name, on a
ring port the one whose PEER is the sender's stream; on CH and CM the same index. -/
def rxStream (s : State) (d : DieId) (n : Fin 9) (sub : Nat) (f : Flit) : Option Nat :=
  let l := tabStreams s d n true sub
  if n.val = 0 ∨ n.val ≥ 5 then l.find? fun i => i == f.stream
  else l.find? fun i => sd s d i Reg.DN_DESC_PEER == f.stream

/-- Drops a payload that matches no entry (R278, R419): at a die's port it is a misroute of the router of its attachment. -/
def dropPayload (s : State) (p : PortId) (sub : Nat) (f : Flit) : State :=
  match p with
  | .die d n => misroute s (attachOf d n sub).1 f
  | _ => s.lg LogKind.misroute (portN p) [portKey p, f.stream, f.seq, f.pseq]

/-- A flit bound for a stack reaches its base die (R281, R442): each line is a cane write. Its fold flags reach no seal unit
(R294). -/
def stackFlit (s : State) (k : Fin 16) (f : Flit) : State :=
  let d : DieId := Fin.ofNat 4 (k.val / 4)
  let i := f.stream
  let dst := mgaCore (sideOf s d i true).2
  let ls := flitLines s d i f
  if (s.sx d i).discard then s
  else
    let ok := ls.takeWhile fun q => (lineOff s d i true dst q.1).isSome
    let s1 := ok.foldl (fun t q => match lineOff s d i true dst q.1 with
      | some o => caneReq t k.val ⟨true, o, 64, flitHalf f q.2, .stream d.val i q.1⟩
      | none => t) (flitCame (readIndex s d i true (ls.map (·.1))) d i f)
    if ok.length < ls.length then endFaultAt s1 d i else fillRemote s1 d i (fullSeq s d i f) f

/-- A span port takes the flits that wait for a place in its transmit queue, oldest first (R405). -/
def fillSpan (s : State) (m : Fin 8) : State :=
  let x := s.px (.span m)
  let n := 512 - x.txq.length
  if x.waiting.isEmpty then s
  else updHold (s.setPx (.span m) { x with
    txq := x.txq ++ (x.waiting.take n).map fun f => ⟨0, f⟩, waiting := x.waiting.drop n }) (.span m)

/-- A flit from a die reaches the hub (R281, R419, R626): written to the host window, or sent on over a span port. -/
def hubFlit (s : State) (d : DieId) (f : Flit) : State :=
  let i := f.stream
  if (s.sx d i).discard then s
  else if (sideOf s d i true).1 = skHost then
    let ls := flitLines s d i f
    let c := mgaCore 0
    let ok := ls.takeWhile fun q => (lineOff s d i true c q.1).isSome
    let s1 := ok.foldl (fun t q => match lineOff s d i true c q.1 with
      | some o => t.emit (.hostWrite o (flitHalf f q.2))
      | none => t) (flitCame (readIndex s d i true (ls.map (·.1))) d i f)
    let s2 := foldFlags s1 f (gatherOf s (ownerCore s d i))
    if ok.length < ls.length then endFaultAt s2 d i
    else flitDone (fillRemote s2 d i (fullSeq s d i f) f) d i f.last (.hub 4)
  else
    match (List.finRange 8).findSome? fun m => (spanOut s m.val d i).map fun r => (m, r) with
    | none => dropPayload s (.hub d) 0 f
    | some (m, r) =>
      let x := s.px (.span m)
      fillSpan (s.setPx (.span m) { x with waiting := x.waiting ++ [{ f with stream := r }] }) m

/-- A flit from another module reaches the hub, tagged with this end's stream (R419): it goes towards the die of its inbound entry, in a
slot of CH that its stream owns. -/
def spanFlit (s : State) (m : Fin 8) (f : Flit) : State :=
  match spanEntry s m.val 1 fun e => s.rd Reg.SPMAP_LSTREAM 0 m.val e == f.stream with
  | none => dropPayload s (.span m) 0 f
  | some e =>
    let d : DieId := Fin.ofNat 4 (s.rd Reg.SPMAP_LDIE 0 m.val e)
    let x := s.px (.hub d)
    s.setPx (.hub d) { x with waiting := x.waiting ++ [f] }

/-- A payload leaves a receiver in order (R403). -/
def deliver (s : State) (p : PortId) (pl : Payload) : State :=
  match p with
  | .die d n => match rxStream s d n pl.sub pl.flit with
    | some i => routerIn s (attachOf d n pl.sub).1 (attachOf d n pl.sub).2 { pl.flit with stream := i } 4
    | none => dropPayload s p pl.sub pl.flit
  | .stack k => stackFlit s k pl.flit
  | .hub d => hubFlit s d pl.flit
  | .span m => spanFlit s m pl.flit

/-! ## Changes of lanes and width (R409-R412) -/

/-- Receive spares of a port in use. -/
def sparesOn (s : State) (p : PortId) : List Nat :=
  (List.range 8).filter fun k => rdP s p Reg.LK_SPARE_USED Reg.LKH_SPARE_USED k == 1

/-- Brings LK_STAT.SPARES up to date. -/
def countSpares (s : State) (p : PortId) : State :=
  wrP s p Reg.LK_STAT_SPARES Reg.LKH_STAT_SPARES (sparesOn s p).length

/-- Receive spares that are free: not in use, not failed, and neither announced nor about to be used (R409, R410). -/
def freeSpares (s : State) (p : PortId) : List Nat :=
  let x := s.lx p
  (List.range 8).filter fun k => !(sparesOn s p).contains k && !x.bad.contains k && !(x.steers.any fun q => q.2 == k)
    && !(x.changes.any fun c => !c.tx && c.width.isNone && c.spare == k)

/-- A receive spare stands for a data lane from now on; one that stood for it before is given up (R427). -/
def useSpare (s : State) (p : PortId) (lane k : Nat) : State :=
  let old := (sparesOn s p).filter fun j => rdP s p Reg.LK_SPARE_LANE Reg.LKH_SPARE_LANE j == lane
  let s0 := old.foldl (fun t j => wrP t p Reg.LK_SPARE_USED Reg.LKH_SPARE_USED 0 j) s
  let s1 := wrP (wrP s0 p Reg.LK_SPARE_LANE Reg.LKH_SPARE_LANE lane k) p Reg.LK_SPARE_USED Reg.LKH_SPARE_USED 1 k
  countSpares (wrP s1 p Reg.LK_SPARE_FIELD Reg.LKH_SPARE_FIELD 1 k) p

/-- The data lane of a receiver that a wire carries (R409): its own, or the one its spare stands for; none for an idle spare. -/
def dataLane (s : State) (p : PortId) (wire : Nat) : Option Nat :=
  if wire < 256 then some wire
  else if (sparesOn s p).contains (wire - 256) then some (rdP s p Reg.LK_SPARE_LANE Reg.LKH_SPARE_LANE (wire - 256))
  else none

/-- Gives up the group of a data lane (R409); a span lane is a group (R418). -/
def loseGroup (s : State) (p : PortId) (lane : Nat) : State :=
  let x := s.lx p
  let g := match p with
    | .span _ => lane % 8
    | _ => lane / 16
  let y := { x with lost := g :: x.lost.filter (· ≠ g) }
  let s1 := s.setLx p y
  wrP s1 p Reg.LK_STAT_GROUPS Reg.LKH_STAT_GROUPS (groupsNow s1 p)

/-- A spare wire that fails is used no more. -/
def loseSpare (s : State) (p : PortId) (wire : Nat) : State :=
  if wire < 256 then s
  else
    let x := s.lx p
    let s1 := s.setLx p { x with bad := (wire - 256) :: x.bad.filter (· ≠ wire - 256) }
    countSpares (wrP s1 p Reg.LK_SPARE_USED Reg.LKH_SPARE_USED 0 (wire - 256)) p

/-- A wire of a receiver that carries no data fails, or had failed before it trains: its data lane is steered to the lowest free spare at
once, or its group is given up (R409, R411, R413). -/
def steerNow (s : State) (p : PortId) (wire : Nat) : State :=
  match p with
  | .span _ => loseGroup s p wire
  | _ =>
    let lane := dataLane s p wire
    let s1 := loseSpare s p wire
    match lane with
    | none => s1
    | some l =>
      if decide (wire < 256) && (sparesOn s1 p).any fun k => rdP s1 p Reg.LK_SPARE_LANE Reg.LKH_SPARE_LANE k == l then s1
      else match freeSpares s1 p with
        | k :: _ => useSpare s1 p l k
        | [] => loseGroup s1 p l

/-- Puts the lanes and the width of a receiver in force at both ends, as training does: its usable groups, the width they allow, and the
lane map of the port that sends to it (R396, R397, R413). -/
def settleLanes (s : State) (p : PortId) : State :=
  let g := groupsNow s p
  let s1 := wrP s p Reg.LK_STAT_GROUPS Reg.LKH_STAT_GROUPS g
  let s2 := wrP (s1.setLx p { s1.lx p with groups := g }) p Reg.LK_STAT_RXW Reg.LKH_STAT_RXW (widthOf p g)
  match peerPort p with
  | some q =>
    let m := (sparesOn s2 p).foldl (fun m k => smSet 0 m (rdP s2 p Reg.LK_SPARE_LANE Reg.LKH_SPARE_LANE k) (k + 1)) ([] : SMap Nat)
    wrP (s2.setLx q { s2.lx q with txMap := m }) q Reg.LK_STAT_TXW Reg.LKH_STAT_TXW (widthOf p g)
  | none => s2

/-- Queues an LCMD word for the next LINK beat of a port (R410). -/
def sendLcmd (s : State) (p : PortId) (w : Nat) : State :=
  let x := s.lx p
  s.setLx p { x with lcmds := x.lcmds ++ [w] }

/-- Applies the announced changes of a port whose AT has come with group `gseq` (R410). A change to width down leaves the port fallen
(R412). -/
def applyChanges (s : State) (p : PortId) (tx : Bool) (gseq : Nat) : State :=
  let x := s.lx p
  let due := fun c : LaneChange => c.tx == tx && decide ((gseq + 4096 - c.at_) % 4096 < 2048)
  let now := x.changes.filter due
  now.foldl (fun t c =>
    match c.width with
    | some w =>
      let t1 := if w = 3 then t.setLx p { t.lx p with fallen := true } else t
      if tx then wrP t1 p Reg.LK_STAT_TXW Reg.LKH_STAT_TXW w
      else wrP (t1.setLx p { t1.lx p with groups := usableGroups t1 p }) p Reg.LK_STAT_RXW Reg.LKH_STAT_RXW w
    | none =>
      if tx then t.setLx p { t.lx p with txMap := smSet 0 (t.lx p).txMap c.lane (c.spare + 1) }
      else (useSpare t p c.lane c.spare).lg LogKind.laneSteered (portN p) [portKey p, c.lane, c.spare])
    (s.setLx p { x with changes := x.changes.filter fun c => !due c })

/-- An LCMD word reaches a port in a LINK beat: its command joins those that wait (R410). -/
def takeLcmd (s : State) (p : PortId) (w : Nat) : State :=
  let lane : Fin 256 := Fin.ofNat 256 (bits w 4 8)
  let spare : Fin 8 := Fin.ofNat 8 (bits w 12 3)
  let width : Fin 4 := Fin.ofNat 4 (bits w 15 2)
  let at_ := BitVec.ofNat 12 (bits w 17 12)
  let c : Option Instr := match bits w 0 4 with
    | 1 => some (.steer p lane spare at_)
    | 2 => some (.width p width at_)
    | 3 => some (.steerAck p lane spare at_)
    | 4 => some (.widthAck p width at_)
    | _ => none
  match c with
  | some i => { s with pending := s.pending ++ [i] }
  | none => s

/-! ## Link groups -/

/-- The die whose frame a port's link groups follow; none for a span port, whose groups follow no slots (R418). -/
def portDie : PortId → Option DieId
  | .die d _ => some d
  | .hub d => some d
  | .stack k => some (Fin.ofNat 4 (k.val / 4))
  | .span _ => none

/-- The data beats of the group that a port sends at its latest LINK beat (R398): full groups before a frame start token. -/
def beatsNow (s : State) (p : PortId) (w : Nat) : Nat :=
  match portDie p with
  | some d => if (s.dx d).token.isNone then widthBeats w else groupBeats (s.rd Reg.DN_FRAME_FLEN d.val) w (slotOf s d)
  | none => 15

/-- Payloads of a group of a port: a span group is 30 link flits at every width (R418). -/
def portCap (p : PortId) (w beats : Nat) : Nat :=
  match p with
  | .span _ => if w < 3 then 60 else 0
  | _ => groupCap w beats

/-- What the CTRL field of a port's next LINK beat carries: a control flit, or on a span port a stream credit (R401, R419). -/
def takeCross (s : State) (p : PortId) : State × Option CtlFlit × Option (Nat × Nat) :=
  match p with
  | .span m =>
    let x := s.spx m
    (s.setSpx m { x with credits := x.credits.drop 1 }, none, x.credits.head?)
  | _ => let r := takeCtrl s p; (r.1, r.2, none)

/-- The group a port sends next (R405): one to resend, in a whole link group, or the next new one where the replay buffer of 16 has
room, with the LCMD and the control flit that its LINK beat carries; a replay repeats those of its group (DEDUCED,
notes/assumptions/102). -/
def formGroup (s : State) (p : PortId) : State × Option (LGroup × Bool) :=
  let x := s.px p
  let w := txWidth s p
  let whole := beatsNow s p w == (match p with | .span _ => 15 | _ => widthBeats w)
  if portState s p ≠ lkUp then (s, none)
  else match (if whole then x.resend else none).bind fun g => x.replay.find? fun q => q.gseq == g with
    | some g =>
      let fresh := x.lastRpl != some g.gseq
      (bumpP (s.setPx p { x with resend := none, lastRpl := some g.gseq, fails := if fresh then 0 else x.fails }) p
        Reg.LK_REPLAY_COUNT Reg.LKH_REPLAY_COUNT, some (g, true))
    | none =>
      let again := if whole then none else x.resend
      if x.replay.length ≥ 16 then (s.setPx p { x with resend := again }, none)
      else
        let s1 := applyChanges s p true x.gseq
        let w := txWidth s1 p
        let n := portCap p w (beatsNow s1 p w)
        let r := takeCross s1 p
        let x1 := r.1.px p
        let g : LGroup :=
          { gseq := x1.gseq, payloads := x1.txq.take n, ctrl := r.2.1, credit := r.2.2, lcmd := x1.lane.lcmds.headD 0, width := w
            gn := x1.span.gnTx }
        let x2 := { x1 with
          resend := again, txq := x1.txq.drop n, gseq := (x1.gseq + 1) % 4096, replay := x1.replay ++ [g]
          lane := { x1.lane with lcmds := x1.lane.lcmds.drop 1 }, span := { x1.span with gnTx := x1.span.gnTx + 1 } }
        let s2 := updHold (r.1.setPx p x2) p
        (match p with | .span m => fillSpan s2 m | _ => s2, some (g, false))

/-- What a group's header says to the port that receives it (R401, R405): every group up to ACK is done; NAK asks for
the next one. -/
def takeHeader (s : State) (p : PortId) (ack : Nat) (nak : Bool) : State :=
  let x := s.px p
  let done := fun g : LGroup => decide ((ack + 4096 - g.gseq) % 4096 < 2048)
  let left := x.replay.filter fun g => !done g
  let clear := x.lastRpl.any fun g => !(left.any fun q => q.gseq == g)
  s.setPx p { x with
    replay := left, resend := if nak then some ((ack + 1) % 4096) else x.resend
    lastRpl := if clear then none else x.lastRpl, fails := if clear then 0 else x.fails }

/-- A bad group (R404, R408): it is counted and NAK is due; it is a seed of each lane at fault, or of the port. -/
def badGroup (s : State) (p : PortId) (lanes : List Nat) : State :=
  let x := s.px p
  let s1 := bumpP (s.setPx p { x with
    nak := true, lane := { x.lane with count := lanes.foldl (fun m l => smSet 0 m l (smGet 0 m l + 1)) x.lane.count } }) p
    Reg.LK_BADGRP_COUNT Reg.LKH_BADGRP_COUNT
  if lanes.isEmpty then raisePort (s1.lg LogKind.portBad (portN p) [portKey p]) p 0x06 none
  else lanes.foldl (fun t l => raisePort (t.lg LogKind.laneBad (portN p) [portKey p, l]) p 0x05 (some l)) s1

/-- The payloads of a group with the SEQ that the receiver counts for each stream, and the counts after them; none where a count
does not agree with the two bits of its tag (R400, R404). -/
def countSeq : SMap Nat → List Payload → Option (SMap Nat × List Payload)
  | m, [] => some (m, [])
  | m, p :: r =>
    let i := p.flit.stream
    let n := smGet 0 m i
    if n % 4 ≠ p.flit.seq % 4 then none
    else match countSeq (smSet 0 m i (if p.flit.last then 0 else n + 1)) r with
      | some (k, l) => some (k, { p with flit := { p.flit with seq := n % 65536 } } :: l)
      | none => none

/-- Stream credits that cross a span reach the sources of the stream, on the die of its outbound entry (R284, R419). -/
def spanCredit (s : State) (m : Fin 8) (q : Nat × Nat) : State :=
  match spanEntry s m.val 0 fun e => s.rd Reg.SPMAP_LSTREAM 0 m.val e == q.1 with
  | some e => returnCredit s (Fin.ofNat 4 (s.rd Reg.SPMAP_LDIE 0 m.val e)) q.1 q.2 (.hub 4)
  | none => s.lg LogKind.misroute (portN (.span m)) [portKey (.span m), q.1]

/-- What the CTRL field and LCMD of a group bring to the port that receives it. -/
def takeBeat (s : State) (p : PortId) (g : LGroup) : State :=
  let s1 := match g.ctrl with
    | some f => landCtrl s p f
    | none => s
  let s2 := match p, g.credit with
    | .span m, some q => spanCredit s1 m q
    | _, _ => s1
  takeLcmd s2 p g.lcmd

/-- Delivers a group and those held behind it, in GSEQ order (R404); a group whose SEQ checks fail is bad. `fuel` bounds the held
ones. -/
def deliverGroups : Nat → State → PortId → LGroup → State
  | 0, s, _, _ => s
  | fuel + 1, s, p, g =>
    match countSeq (s.px p).rxSeq g.payloads with
    | none => badGroup s p []
    | some (m, l) =>
      let x := s.px p
      let s2 := takeBeat (l.foldl (fun t pl => deliver t p pl)
        (s.setPx p { x with
          expect := (g.gseq + 1) % 4096, rxSeq := m, span := { x.span with gnRx := x.span.gnRx + 1 } })) p g
      match (s2.px p).rxHeld with
      | [] => s2
      | h :: r => if h.gseq = (s2.px p).expect then deliverGroups fuel (s2.setPx p { s2.px p with rxHeld := r }) p h else s2

/-- Inserts a group in GSEQ order. -/
def insertGroup (e : Nat) (g : LGroup) : List LGroup → List LGroup
  | [] => [g]
  | h :: r => if (g.gseq + 4096 - e) % 4096 < (h.gseq + 4096 - e) % 4096 then g :: h :: r else h :: insertGroup e g r

/-- A good group (R404): in order it is delivered; ahead of a missing one it is held, up to 8; one delivered before is
dropped. -/
def goodGroup (s : State) (p : PortId) (g : LGroup) : State :=
  let x := s.px p
  let ahead := (g.gseq + 4096 - x.expect) % 4096
  if ahead = 0 then deliverGroups 9 s p g
  else if ahead < 2048 ∧ x.rxHeld.length < 8 ∧ !(x.rxHeld.any fun h => h.gseq == g.gseq) then
    s.setPx p { x with rxHeld := insertGroup x.expect g x.rxHeld }
  else s

/-- The two ends of a link. -/
def linkEnds (p : PortId) : List PortId :=
  match peerPort p with
  | some q => [p, q]
  | none => [p]

/-- Begins a retrain at both ends of a link (R414): HOLD is asserted and no data is carried; control flits that wait at a die's CH for
other dies take the ring. -/
def startRetrain (s : State) (p : PortId) : State :=
  if portState s p = lkUp then
    (linkEnds p).foldl (fun t q =>
      let t1 := bumpP (wrP (holdPort t q true) q Reg.LK_STAT_STATE Reg.LKH_STAT_STATE lkRetrain) q Reg.LK_RETRAIN_COUNT
        Reg.LKH_RETRAIN_COUNT
      match q with
      | .die d n => if n.val = 0 then leaveCh t1 d else t1
      | _ => t1) s
  else s

/-- A replay of a group has failed again (R408): after the third the port retrains. -/
def failedReplay (s : State) (p : PortId) : State :=
  let x := s.px p
  if x.fails + 1 ≥ 3 then startRetrain (s.setPx p { x with fails := 0 }) p else s.setPx p { x with fails := x.fails + 1 }

/-! ## Ports that go down -/

/-- Takes a port and its peer down (R412, R425): a span port loses its group numbers and keys. -/
def portDown (s : State) (p : PortId) : State :=
  (linkEnds p).foldl (fun t q =>
    let t1 := wrP (wrP (wrP t q Reg.LK_STAT_STATE Reg.LKH_STAT_STATE lkDown) q Reg.LK_STAT_TXW Reg.LKH_STAT_TXW 3) q
      Reg.LK_STAT_RXW Reg.LKH_STAT_RXW 3
    let x := t1.px q
    t1.setPx q { x with
      lane := { x.lane with changes := [], steers := [], lcmds := [], fallen := false }
      span := { x.span with keyed := false, nonce := none, partner := none, gnTx := 0, gnRx := 0, credits := [] } }) s

/-- A link fault of a port (R67, R412). -/
def linkFault (s : State) (p : PortId) : State := (portDown s p).lg LogKind.linkFault (portN p) [portKey p]

/-! ## IDENT (R424) -/

/-- The module identity (R567). -/
def modId (s : State) : Nat :=
  s.rd Reg.BT_MODID_ID 0 0 + 2 ^ 32 * s.rd Reg.BT_MODID_ID 0 1 + 2 ^ 64 * s.rd Reg.BT_MODID_ID 0 2
    + 2 ^ 96 * s.rd Reg.BT_MODID_ID 0 3

/-- The low 480 bits of an IDENT message. -/
def identWord (ident slot port widths nonce : Nat) : Nat :=
  ident % 2 ^ 128 + 2 ^ 128 * (slot % 16) + 2 ^ 132 * (port % 16) + 2 ^ 136 * (widths % 256) + 2 ^ 144 * (nonce % 2 ^ 64)

/-- True when an IDENT message's CRC is good. -/
def identOk (m : IdentMsg) : Bool :=
  crc32 480 (identWord m.ident.toNat m.slot.toNat m.port.toNat m.widths.toNat m.nonce.toNat) == m.crc.toNat

/-- The widths a span port can run with its usable lanes (R418, R424). -/
def identWidths (s : State) (p : PortId) : Nat :=
  let n := ((List.range 8).filter fun l => bit (usableGroups s p) l).length
  b2n (decide (8 ≤ n)) + 2 * b2n (decide (4 ≤ n)) + 4 * b2n (decide (2 ≤ n))

/-- Sends the IDENT of a span port with its nonce: its 512 bits travel in the CTRL fields of four consecutive groups without payloads,
encryption or tag (R424). That their GSEQ count the four is a DESIGN CHOICE (notes/assumptions/102). -/
def emitIdent (s : State) (m : Fin 8) (nonce : Nat) : State :=
  let p : PortId := .span m
  let v := identWord (modId s) (s.rd Reg.BT_IDENT_SLOT 0) m.val (identWidths s p) nonce
  let msg := v + 2 ^ 480 * crc32 480 v
  let idle := List.replicate 30 (0, 0)
  [0, 1, 2, 3].foldl (fun t k =>
    t.emit (.group (portKey p) (idle.map (·.1)) (linkBeat 0 ⟨linkHdr k 0 (txWidth s p) false false true, 0, flitCtrl (bits msg (128 * k) 128), 0⟩
      0 idle))) s

/-- A span port that was DOWN draws its nonce and sends its IDENT. -/
def sendIdent (s : State) (m : Fin 8) : State :=
  let n := Config.freeValue s.free % 2 ^ 64
  emitIdent { s.setSpx m { s.spx m with nonce := some n, identAge := 0 } with free := s.free + 1 } m n

/-- A group passes on a span port in training: until it holds its partner's IDENT it repeats its own, with the nonce it drew, every 16
groups (R424). -/
def repeatIdent (s : State) (p : PortId) : State :=
  match p with
  | .span m =>
    let x := s.spx m
    match x.nonce with
    | some n =>
      if portState s p ≠ lkTraining ∨ x.keyed then s
      else if x.identAge + 1 < 16 then s.setSpx m { x with identAge := x.identAge + 1 }
      else emitIdent (s.setSpx m { x with identAge := 0 }) m n
    | none => s
  | _ => s

/-! ## Keys of a span (R420, R424, R425, R575) -/

/-- The key of one direction of a span port and epoch (R575). -/
def spanKey (secret idTx slotTx mTx idRx slotRx mRx nTx nRx epoch : Nat) : Nat :=
  Config.sm3 (leBytes 32 secret ++ [0x53, 0x50, 0x41, 0x4E] ++ leBytes 16 idTx ++ leBytes 1 slotTx ++ leBytes 1 mTx
    ++ leBytes 16 idRx ++ leBytes 1 slotRx ++ leBytes 1 mRx ++ leBytes 8 nTx ++ leBytes 8 nRx ++ leBytes 4 epoch) % 2 ^ 128

/-- The salt of the IV (R424). -/
def spanSalt (slotTx mTx slotRx mRx epoch : Nat) : Nat :=
  epoch % 2 ^ 8 + 2 ^ 8 * (mRx % 16) + 2 ^ 12 * (slotRx % 16) + 2 ^ 16 * (mTx % 16) + 2 ^ 20 * (slotTx % 16) + 2 ^ 24 * 0x53

/-- The IV of a group: the salt in its low 32 bits, then the group number (R420; the order of the bytes is DEDUCED,
notes/assumptions/102). -/
def spanIv (salt gn : Nat) : Nat := salt + 2 ^ 32 * (gn % 2 ^ 64)

/-- The key and the IV of a group that a span port sends, or receives (`tx` false). -/
def spanCrypt (s : State) (m : Fin 8) (tx : Bool) (gn : Nat) : Option (Nat × Nat) :=
  let x := s.spx m
  let slot := s.rd Reg.BT_IDENT_SLOT 0
  match x.partner, x.nonce with
  | some q, some n =>
    if !x.keyed then none
    else
      let e := gn / 2 ^ 32
      some (if tx then (spanKey q.secret (modId s) slot m.val q.ident q.slot q.port n q.nonce e, spanIv (spanSalt slot m.val q.slot q.port e) gn)
        else (spanKey q.secret q.ident q.slot q.port (modId s) slot m.val q.nonce n e, spanIv (spanSalt q.slot q.port slot m.val e) gn))
  | _, _ => none

/-- The keys in force of a span port, transmit and receive (R575): each of the epoch that its group number gives. -/
def spanKeys (s : State) (m : Fin 8) : Option (Nat × Nat) :=
  let x := s.spx m
  match spanCrypt s m true x.gnTx, spanCrypt s m false x.gnRx with
  | some a, some b => some (a.1, b.1)
  | _, _ => none

/-- The parts of a span group that SM4-GCM encrypts: payload and tag bits of its 30 link flits, then CTRL (R420). -/
def spanPlain (fs : List (Nat × Nat)) (ctrl : Nat) : List Nat := (fs.flatMap fun f => [f.1, f.2]) ++ [ctrl]

/-- The link flits and CTRL of the parts of a span group. -/
def spanParts (l : List Nat) : List (Nat × Nat) × Nat :=
  ((List.range 30).map fun j => ((l[2 * j]?).getD 0 % 2 ^ 2048, (l[2 * j + 1]?).getD 0 % 2 ^ 80), (l[60]?).getD 0 % 2 ^ 144)

/-- Active lanes of a span port at a width. -/
def spanLanes (w : Nat) : Nat := match w with | 0 => 8 | 1 => 4 | _ => 2

/-- Sends the next group of a span port to its partner (R418, R420): sealed under the key and IV of its group number, its CRCs over the
ciphertext; the link flits and the LINK beat are what the port sends. -/
def sendSpan (s : State) (m : Fin 8) : State :=
  let p : PortId := .span m
  match formGroup s p with
  | (t, some (g, rpl)) =>
    let x := t.px p
    let w := txWidth t p
    let hdr := linkHdr g.gseq ((x.expect + 4095) % 4096) w x.nak rpl g.credit.isSome
    let ctrl := g.credit.elim 0 fun q => flitCtrl (Config.creditFlit q.1 q.2 % 2 ^ 128)
    let c := (spanCrypt t m true g.gn).getD (0, 0)
    let r := Config.gcmSeal c.1 c.2 (hdr + 2 ^ 32 * g.lcmd) (spanPlain ((List.range 30).map (linkFlit g.payloads)) ctrl)
    let y := spanParts r.1
    (t.setPx p { x with nak := false }).emit (.group (portKey p) (y.1.map (·.1))
      (linkBeat 0 ⟨hdr, g.lcmd, y.2, r.2 % 2 ^ 128⟩ (spanPar (spanLanes w) (y.1.map (·.1))) y.1))
  | (t, none) => t

/-- The group number of a GSEQ received: the one nearest to that expected (R425). -/
def extendGn (want gseq : Nat) : Nat :=
  let d := (gseq + 4096 - want % 4096) % 4096
  if d < 2048 then want + d else want + d - 4096

/-- What a span port finds in a group of its partner: every CRC good with the group and its header, a tag that fails, or the lanes whose
parity mismatches (R404, R408, R420, R421). -/
inductive SpanFound where
  | good (g : LGroup) (ack : Nat) (nak rpl : Bool) | auth | bad (lanes : List Nat)

/-- The check of a group from the partner module: CRCs and parity over the ciphertext, then its tag. -/
def checkSpan (s : State) (m : Fin 8) (g : SpanGroup) : SpanFound :=
  let p : PortId := .span m
  let fs := g.flits.map BitVec.toNat
  let b := g.beat.toNat
  let w := rdP s p Reg.LK_STAT_RXW Reg.LKH_STAT_RXW
  if !beatOk 0 b fs then
    let on := (List.range 8).filter fun l => bit (s.lx p).groups l
    let par := spanPar (spanLanes w) fs
    .bad ((List.range (spanLanes w)).filterMap fun i => if bit par i != bit b (3568 + i) then on[i]? else none)
  else
    let gn := extendGn (s.spx m).gnRx (bits b 0 12)
    let c := (spanCrypt s m false gn).getD (0, 0)
    let tags := (List.range 30).map fun j => ((fs[j]?).getD 0, beatTags b j)
    match Config.gcmOpen c.1 c.2 (bits b 0 64) (spanPlain tags (bits b 64 144)) (bits b 3824 128) with
    | none => .auth
    | some l =>
      let y := spanParts l
      let pay := (List.range 60).filterMap fun n =>
        let f := (y.1[n / 2]?).getD (0, 0)
        payloadOf (bits f.2 (40 * (n % 2)) 40) (bits f.1 (1024 * (n % 2)) 1024)
      .good { gseq := bits b 0 12, payloads := pay, credit := if bit b 26 then Config.creditOf (y.2 % 2 ^ 128) else none
              lcmd := bits b 32 32, width := w, gn := gn } (bits b 12 12) (bit b 24) (bit b 25)

/-! ## Groups received -/

/-- A group fails its GCM tag (R421): SPAN_AUTH; module firmware takes the port down at the 16th in 1 s. -/
def authFails (s : State) (p : PortId) : State :=
  let x := s.px p
  let l := s.hclk :: x.span.auths.filter fun t => decide (s.hclk - t < 2800000000)
  let s1 := (bumpP (s.setPx p { x with span := { x.span with auths := l } }) p Reg.LK_AUTH_COUNT Reg.LKH_AUTH_COUNT).lg LogKind.spanAuth (portN p) [portKey p]
  let s2 := raiseHub s1 true (unitEvent s1 0 0x26 4 none (portUnit p).2 [])
  if l.length ≥ 16 then linkFault s2 p else s2

/-- The codewords of a span group that the FEC corrected, and those it could not (R427). -/
def countFec (s : State) (p : PortId) (g : SpanGroup) : State :=
  bumpP (bumpP s p Reg.LK_FECCE_COUNT Reg.LKH_FECCE_COUNT g.fecCe.toNat) p Reg.LK_FECUE_COUNT Reg.LKH_FECUE_COUNT g.fecUe.toNat

/-- A good group reaches its port; a replay whose SEQ checks fail has failed again (R404, R408). `q` is the sender. -/
def takeGroup (s : State) (p : PortId) (q : Option PortId) (rpl : Bool) (g : LGroup) : State :=
  let t := goodGroup s p g
  if rpl && g.gseq == (s.px p).expect && (t.px p).expect == g.gseq then (match q with | some q => failedReplay t q | none => t) else t

/-- A group of port `q` reaches the port `p` at the other end of its cane, with the bits its wires flipped (R404, R405, R408). A change due
with it applies, be it good or bad (R426). -/
def receiveCane (s : State) (p q : PortId) (errs : List WireErr) : State :=
  match formGroup s q with
  | (t, none) => t
  | (t, some (g, rpl)) =>
    let y := t.px q
    let ack := (y.expect + 4095) % 4096
    let t0 := t.setPx q { y with nak := false }
    let t1 := if rpl then t0 else applyChanges t0 p false g.gseq
    let w := txWidth t q
    let h : BeatHead := ⟨linkHdr g.gseq ack w y.nak rpl g.ctrl.isSome, g.lcmd, g.ctrl.elim 0 fun f => flitCtrl (flitBits f.pkt f.k), 0⟩
    let r := checkGroup t1 p q g.width (if rpl then widthBeats g.width else beatsNow t1 q w) h g.payloads errs
    if r.ok then takeGroup (takeHeader t1 p ack y.nak) p (some q) rpl { g with payloads := r.payloads, lcmd := r.lcmd }
    else
      let t2 := badGroup t1 p r.lanes
      if rpl then failedReplay t2 q else t2

/-- A group of the partner module reaches a span port, which has sent its own (R418-R421, R427). A NAK of the group last resent is a
failed replay (R408). -/
def receiveSpan (s : State) (m : Fin 8) (g : SpanGroup) : State :=
  let p : PortId := .span m
  let t := countFec (sendSpan s m) p g
  match checkSpan t m g with
  | .good y ack nak rpl =>
    let again := nak && (t.px p).lastRpl == some ((ack + 1) % 4096) && (t.px p).resend.isNone
    let t1 := takeHeader (applyChanges t p false y.gseq) p ack nak
    takeGroup (if again then failedReplay t1 p else t1) p none rpl y
  | .bad l => badGroup t p l
  | .auth => authFails (badGroup t p []) p

/-- A LINK beat of a port that is up (R404, R405): it takes what its peer sends; a span port sends a group of its own, and takes one where
its partner has sent it. -/
def linkBeatAt (s : State) (p : PortId) (errs : List WireErr) (grp : Option SpanGroup) : State :=
  match p, peerPort p, grp with
  | _, some q, _ => receiveCane s p q errs
  | .span m, none, some g => receiveSpan s m g
  | .span m, none, none => sendSpan s m
  | _, none, _ => s

/-- R405, R408: the ack timer lapses; the oldest unacknowledged group is resent, and where it was resent before that
replay has failed. -/
def execAckTimeout (p : PortId) (s : State) : Host.Outcome State Fault Refusal :=
  let x := s.px p
  .next (match x.replay with
    | [] => s
    | g :: _ =>
      if portState s p ≠ lkUp then s
      else
        let t := s.setPx p { x with resend := some g.gseq }
        if x.lastRpl = some g.gseq ∧ x.resend ≠ some g.gseq then failedReplay t p else t)

/-! ## Repair and width -/

/-- Announces a change at one end of a link. -/
def addChange (s : State) (p : PortId) (c : LaneChange) : State :=
  let x := s.lx p
  s.setLx p { x with changes := x.changes ++ [c] }

/-- R410: the receiver's STEER reaches the transmitter `p`, which acknowledges it and will use the spare from group AT. -/
def execSteer (p : PortId) (lane : Fin 256) (spare : Fin 8) (at_ : BitVec 12) (s : State) :
    Host.Outcome State Fault Refusal :=
  .next (sendLcmd (addChange s p ⟨at_.toNat, true, none, lane.val, spare.val⟩) p (lcmdWord 3 lane.val spare.val 0 at_.toNat))

/-- R410: the transmitter's acknowledgement reaches the receiver `p`, which changes its lane map from group AT. -/
def execSteerAck (p : PortId) (lane : Fin 256) (spare : Fin 8) (at_ : BitVec 12) (s : State) :
    Host.Outcome State Fault Refusal :=
  let x := s.lx p
  .next (addChange (s.setLx p { x with steers := x.steers.filter (· ≠ (lane.val, spare.val)) }) p
    ⟨at_.toNat, false, none, lane.val, spare.val⟩)

/-- R410: the receiver's WIDTH reaches the transmitter `p`, which acknowledges it. -/
def execWidth (p : PortId) (width : Fin 4) (at_ : BitVec 12) (s : State) : Host.Outcome State Fault Refusal :=
  .next (sendLcmd (addChange s p ⟨at_.toNat, true, some width.val, 0, 0⟩) p (lcmdWord 4 0 0 width.val at_.toNat))

/-- R410: the acknowledgement of a change of width reaches the receiver `p`. -/
def execWidthAck (p : PortId) (width : Fin 4) (at_ : BitVec 12) (s : State) : Host.Outcome State Fault Refusal :=
  .next (addChange s p ⟨at_.toNat, false, some width.val, 0, 0⟩)

/-- The group from which a receiver lets a change apply: 4 groups ahead (R410). -/
def changeAt (s : State) (p : PortId) : Nat := ((s.px p).expect + 4) % 4096

/-- A receiver announces a lane's steering, and keeps the spare for it (R409, R410). -/
def announceSteer (s : State) (p : PortId) (lane k : Nat) : State :=
  let x := s.lx p
  sendLcmd (s.setLx p { x with steers := x.steers ++ [(lane, k)] }) p (lcmdWord 1 lane k 0 (changeAt s p))

/-- A receiver announces the width that its usable groups allow. -/
def announceWidth (s : State) (p : PortId) : State :=
  sendLcmd s p (lcmdWord 2 0 0 (widthOf p (usableGroups s p)) (changeAt s p))

/-- R414: module firmware sets LK_CFG.RETRAIN; a request while retraining is ignored (R426). -/
def execRetrain (r : Requester) (p : PortId) (s : State) : Host.Outcome State Fault Refusal :=
  .next (if mayWrite .fw r .die 0 then startRetrain s p
    else s.lg LogKind.ignoredWrite (portN p) [portKey p, Reg.LK_CFG_RETRAIN.id])

/-- The base die's part of a CM port's training: its stack comes up (R431, R460). -/
def stackUp (s : State) (p : PortId) : State :=
  match p with
  | .die d n => if n.val ≥ 5 ∧ s.rd Reg.TS_STAT_STATE d.val (n.val - 5) ≤ 1 then
      s.wr Reg.TS_STAT_STATE d.val 2 (n.val - 5) else s
  | _ => s

/-- What training finds of an end's own lanes (R395, R413): data and spare lanes with an error are steered or their groups given up;
clock lanes that do not lock make the four groups they time unusable; sideband lanes that fail. -/
def findLanes (s : State) (p : PortId) (e : EndLanes) : State :=
  let s1 := e.data.foldl (fun t l => steerNow t p l.val) s
  (s1.setLx p { s1.lx p with clocks := e.clocks.toNat, changes := [], steers := [], lcmds := [] }).setSb p
    { s1.sb p with lost := e.sideband.toNat }

/-- Resumes a trained end of a link (R413): its received clock is present (R67), and transmission resumes with the oldest unacknowledged
group. -/
def resumePort (s : State) (p : PortId) (latency : Nat) : State :=
  let s1 := wrP (wrP s p Reg.LK_STAT_STATE Reg.LKH_STAT_STATE lkUp) p Reg.LK_LAT_MEASURED Reg.LKH_LAT_MEASURED latency
  let s2 := match p with
    | .die d n => s1.orF Reg.BT_CLKSTAT_PORT_CLK_OK d.val (2 ^ n.val)
    | _ => s1
  let x := s2.px p
  updHold (s2.setPx p { x with resend := (x.replay.head?).map LGroup.gseq, lastRpl := none, fails := 0 }) p

/-! ## Sideband -/

/-- Forwards HOLD or RELEASE of a stream to its source engines on a die, or over every port through which it enters
(R407). -/
def holdStream (s : State) (d : DieId) (i key : Nat) (on : Bool) : State :=
  let s1 := if (engines s d i).isEmpty then s else setHold s d i key on
  ((List.finRange 9).filter fun p => decide (1 ≤ p.val ∧ p.val ≤ 4)
      && (List.range 4).any fun k => (tabStreams s d p true k).contains i).foldl
    (fun t p => sbSend t (.die d p) 5 (holdPayload on (sd s d i Reg.DN_DESC_PEER))) s1

/-- R407: HOLD of a stream reaches a die; its source engine behaves as without credit. -/
def execSbHold (d : DieId) (p : Fin 9) (i : Fin 32768) (seq : Fin 16) (crc : BitVec 8) (s : State) :
    Host.Outcome State Fault Refusal :=
  .next (sbReceive s (.die d p) 5 (holdPayload true i.val) seq.val crc fun t => holdStream t d i.val (portKey (.die d p)) true)

/-- R407: RELEASE lifts it. -/
def execSbRelease (d : DieId) (p : Fin 9) (i : Fin 32768) (seq : Fin 16) (crc : BitVec 8) (s : State) :
    Host.Outcome State Fault Refusal :=
  .next (sbReceive s (.die d p) 5 (holdPayload false i.val) seq.val crc fun t => holdStream t d i.val (portKey (.die d p)) false)

/-- R284: stream credits across dies. -/
def execSbScredit (d : DieId) (p : Fin 9) (i : Fin 32768) (count : Fin 16) (seq : Fin 16) (crc : BitVec 8) (s : State) :
    Host.Outcome State Fault Refusal :=
  .next (sbReceive s (.die d p) 6 (creditPayload i.val count.val) seq.val crc fun t => returnCredit t d i.val count.val (.dieNode d))

/-- The stops for ratio changes on a die are abandoned (R58). -/
def abandonStops (s : State) (d : DieId) : State :=
  (dieGathers d).foldl (fun t g =>
    if (t.gx g).stop.isSome then (t.setGx g { t.gx g with stop := none }).wb Reg.LH_GACLK_STOPPING d.val false g.idx.val else t) s

/-- Stops a die (R65, R431): arithmetic and networks stop, its Punty runs on the ring oscillator, its ports drop, and its
neighbours receive no clock from it; each of its stacks goes into self-refresh by a command of its own. -/
def stopDie (s : State) (d : DieId) : State :=
  let s1 := ((s.wb Reg.BT_CLKSTAT_STOPPED d.val true).wb Reg.BT_CLKSTAT_RINGOSC d.val true).wb Reg.BT_CLKSTAT_FWD_OK
    d.val false
  let s2 := (List.finRange 9).foldl (fun t p =>
    let t1 := portDown t (.die d p)
    match peerPort (.die d p) with
    | some (.die e m) =>
      let v := t1.rd Reg.BT_CLKSTAT_PORT_CLK_OK e.val
      t1.wr Reg.BT_CLKSTAT_PORT_CLK_OK e.val (v - (v &&& 2 ^ m.val))
    | _ => t1) (s1.wr Reg.BT_CLKSTAT_PORT_CLK_OK d.val 0)
  abandonStops (s2.setDx d { s2.dx d with token := none }) d

/-- The hub stops HCLK to a die on purpose (R67): it signals an ordered stop on the CH sideband, with which the die stops, and forwards
no clock. -/
def orderStop (s : State) (d : DieId) : State :=
  let v := s.rd Reg.HB_CLKSTAT_DIE_CLK_EN 0
  let t := (sbSend s (.hub d) 4 0).wb Reg.BT_CLKSTAT_ORDERED_STOP d.val true
  (if t.rb Reg.BT_CLKSTAT_STOPPED d.val then t else stopDie t d).wr Reg.HB_CLKSTAT_DIE_CLK_EN 0 (v - (v &&& 2 ^ d.val))

/-- PAYLOAD [35:4] of MARK: an MCLK count or a strap (DESIGN CHOICE, notes/assumptions/100). -/
def markPayload : MarkMsg → Nat
  | .mclk n => 2 * n.toNat
  | .strap c => 1 + 2 * c.toNat

/-- R70, R42: a MARK from a die reaches the hub: the MCLK offset of the die, or its strap, which must name the hub port
that carries it; a die whose strap does not match is held in reset and logged. -/
def execMark (d : DieId) (m : MarkMsg) (seq : Fin 16) (crc : BitVec 8) (s : State) : Host.Outcome State Fault Refusal :=
  .next (sbReceive s (.hub d) 7 (markPayload m) seq.val crc fun t =>
    match m with
    | .mclk n => t.setDx d { t.dx d with offset := some ((t.hclk / 16 : Nat) - (n.toNat : Int)) }
    | .strap code =>
      let t1 := t.wr Reg.BT_IDENT_SITE d.val code.toNat
      if code.toNat = d.val then t1.wb Reg.BT_IDENT_SITE_OK d.val true
      else
        let t2 := (((t1.wr Reg.FT_DIE_STATE 0 4 d.val).wb Reg.BT_IDENT_SITE_OK d.val false).wb Reg.BT_STAT_READY 0 false).lg
          LogKind.strapMismatch (dieN d.val) [code.toNat]
        orderStop t2 d)

/-- R415, R67: the hub reads a CSR of a die over the sideband; the value returns the same way. -/
def execSbread (d : DieId) (off : Nat) (seq : Fin 16) (crc : BitVec 8) (s : State) : Host.Outcome State Fault Refusal :=
  .next (sbReceive s (.die d 0) sbtRead off seq.val crc fun t =>
    match csrRead t .die d.val off with
    | some (v, t1) => sbSend t1 (.die d 0) sbtRead v
    | none => sbSend t (.die d 0) sbtRead (2 ^ 32 - 1))

/-- R416: SBNAK reaches the sender `p`: one whose CRC fails is discarded as any other; else the messages from the one named are resent,
at most the 16 kept. -/
def execSbnak (p : PortId) (m : NakMsg) (s : State) : Host.Outcome State Fault Refusal :=
  let x := s.sb p
  let n := min ((x.next + 15 - m.want.val) % 16 + 1) x.sent.length
  let l := x.sent.drop (x.sent.length - n)
  .next (if crc8 40 (sbWord sbtNak 0 m.want.val) ≠ m.crc.toNat then sbSend s p sbtNak (sbWant s p)
    else s.setSb p { x with again := (List.range l.length).zip l |>.map fun q => ((x.next + 16 - n + q.1) % 16, q.2) })

/-! ## Clocks of ports and dies -/

/-- A die loses its forwarded clock (R65): it stops and reports to the hub over the sideband. -/
def loseClock (s : State) (d : DieId) : State :=
  if s.rb Reg.BT_CLKSTAT_STOPPED d.val then s
  else sbSend ((stopDie s d).lg LogKind.clockLost (dieN d.val) []) (.die d 0) 3 0

/-- R65: a die loses its forwarded clock. -/
def execClockLost (d : DieId) (s : State) : Host.Outcome State Fault Refusal := .next (loseClock s d)

/-- R67: an ordered stop reaches a die over the sideband: it stops, with no fault. -/
def execStop (d : DieId) (seq : Fin 16) (crc : BitVec 8) (s : State) : Host.Outcome State Fault Refusal :=
  .next (sbReceive s (.die d 0) 4 0 seq.val crc fun t => stopDie (t.wb Reg.BT_CLKSTAT_ORDERED_STOP d.val true) d)

/-- R55: an elastic buffer slips by one entry: a fault event; an on-die crossing is retrained at the next step boundary,
a cane port at once (R414). The routers of a die count NCLK together, so that of its first core stands for a position without one. -/
def execCrossSlip (x : Crossing) (s : State) : Host.Outcome State Fault Refusal :=
  .next (match x with
    | .onDie p inp =>
      let n := 16 * (10 * p.row.val + p.col.val) + (inp.val + 1)
      let u := 64 * p.die.val
      let t := (s.setDx p.die { s.dx p.die with slips := n :: (s.dx p.die).slips }).lgR LogKind.crossSlip u
        [p.row.val, p.col.val, inp.val]
      raiseDie t p.die false { unitEvent t 6 0x07 p.die.val (some (p.row, p.col)) 0 [] with
        count := BitVec.ofNat 56 (dnCycle t u), clock := 1 }
    | .cane p => startRetrain (raisePort (s.lg LogKind.crossSlip (portN p) [portKey p]) p 0x07 none) p)

/-! ## Span lanes (R423) -/

/-- The SYNC of a lane marker. -/
def markSync : Nat := 0x3CA5E1

/-- A lane marker. -/
def laneMarkWord (lane port count : Nat) : Nat :=
  let v := markSync + 2 ^ 24 * (lane % 8) + 2 ^ 27 * (port % 8) + 2 ^ 32 * (count % 2 ^ 16) + 2 ^ 48 * (2 ^ 24 - 1 - markSync)
  v + 2 ^ 72 * crc8 72 v

/-- True of a good marker: SYNC, NSYNC and CRC are correct. -/
def laneMarkGood (v : Nat) : Bool :=
  bits v 0 24 == markSync && bits v 48 24 == 2 ^ 24 - 1 - markSync && crc8 72 (v % 2 ^ 72) == bits v 72 8

/-- True at an HCLK in which a span port ends 4,096 codewords of 5,440 bits at 106.25 Gb/s since the HCLK count began: one in 587,202.56
HCLK. The markers' phase is a DESIGN CHOICE (notes/assumptions/102). -/
def markDue (n : Nat) : Bool := n * 100 / 58720256 != (n - 1) * 100 / 58720256

/-- A span port sends a marker on each lane in use, numbered after any narrowing; in training on all eight. -/
def sendMarks (s : State) (m : Fin 8) : State :=
  let p : PortId := .span m
  let st := portState s p
  if st ≠ lkTraining ∧ st ≠ lkUp ∧ st ≠ lkRetrain then s
  else
    let x := s.spx m
    let n := if st = lkUp then spanLanes (txWidth s p) else 8
    (List.range n).foldl (fun t l => t.emit (.marker (portKey p) l (laneMarkWord l m.val x.sentMarks)))
      (s.setSpx m { x with sentMarks := (x.sentMarks + 1) % 2 ^ 16 })

/-- R423: a lane marker is due: it comes, or it is missing. Two good ones lock a lane, three consecutive bad or missing ones lose it. The
MCOUNT of a good one is kept, by which the lanes are aligned. A lane out of lock is a failed lane of its port, whose width falls
(R418). -/
def execLaneMarker (p : Fin 8) (lane : Fin 8) (mark : Option (BitVec 80)) (s : State) : Host.Outcome State Fault Refusal :=
  let q : PortId := .span p
  let x := s.spx p
  let good := mark.any fun v => laneMarkGood v.toNat
  let st := smGet (0, 0) x.lanes lane.val
  let new := if st.1 = 0 then (if good then (if st.2 ≥ 1 then (1, 0) else (0, 1)) else (0, 0))
    else (if good then (1, 0) else if st.2 ≥ 2 then (0, 0) else (1, st.2 + 1))
  let s1 := s.setSpx p { x with
    lanes := smSet (0, 0) x.lanes lane.val new
    marks := if good then smSet 0 x.marks lane.val (mark.elim 0 fun v => bits v.toNat 32 16) else x.marks }
  let s2 := wrP s1 q Reg.LK_STAT_GROUPS Reg.LKH_STAT_GROUPS (groupsNow s1 q)
  .next (if st.1 = 1 ∧ new.1 = 0 ∧ portState s q = lkUp then
      let s3 := raisePort (s2.lg LogKind.laneBad (portN q) [portKey q, lane.val]) q 0x05 (some lane.val)
      let w := widthOf q (usableGroups s3 q)
      if w = 3 then linkFault s3 q
      else if w = rdP s3 q Reg.LK_STAT_RXW Reg.LKH_STAT_RXW then s3
      else announceWidth s3 q
    else s2)

end Sys2Proof.Machine
end

