-- ==== Sys2Proof/Machine/Transcend.lean ====
section
/-! DEFINITION. Transcendental operations (R206). The spec bounds their error and fixes no bits, so a result is any
binary32 value within the bound of the exact one, chosen by a free constant; VSQRT is correctly rounded. The exact
result is computed to some 300 bits by the series below, which serve the bound and give no result of their own. -/

namespace Sys2Proof.Machine

/-- Fraction bits of the fixed-point series. -/
def fxP : Nat := 320

/-- pi x 2^512, truncated. -/
def piFx : Nat := 42121870893450636219446821484559388105255997313489254605594685088103805782276098919793885372247726346443771296916333485327292916625599161542353774203832599

/-- ln 2 x 2^400, truncated. -/
def ln2Fx : Nat := 1789879222497203190815761498240779176894896805856420935579692301363062920687047601279850318367644315849030039181347319086

/-- Integer square root by its bits: adds 2^i for i below `k` while the square stays within `n`. -/
def isqrt (n : Nat) : Nat → Nat → Nat
  | 0, r => r
  | i + 1, r => if (r + 2 ^ i) * (r + 2 ^ i) ≤ n then isqrt n i (r + 2 ^ i) else isqrt n i r

/-- The integer square root of a number of at most `2k` bits. -/
def sqrtNat (k n : Nat) : Nat := isqrt n k 0

/-- A finite value in fixed point with `p` fraction bits. -/
def toFx (p : Nat) (s : Bool) (m : Nat) (e : Int) : Int :=
  let a : Int := if e + p ≥ 0 then (m * 2 ^ (e + p).toNat : Nat) else (m / 2 ^ (-(e + p)).toNat : Nat)
  if s then -a else a

/-- A fixed-point number as a value. -/
def fxVal (p : Nat) (x : Int) : Val := .fin (decide (x < 0)) x.natAbs (-(p : Int))

/-- Sum of r^k / k! from term `t` of index `k` on (fuel). -/
def expSeries (p : Nat) (r : Int) : Nat → Nat → Int → Int
  | 0, _, _ => 0
  | n + 1, k, t => t + expSeries p r n (k + 1) (t * r / 2 ^ p / (k + 1 : Nat))

/-- e^x for x in fixed point: a significand in fixed point and a power of two. -/
def expFx (x : Int) : Val :=
  let l2 : Int := (ln2Fx / 2 ^ (400 - fxP) : Nat)
  let n := x / l2
  (fxVal fxP (expSeries fxP (x - n * l2) 90 0 (2 ^ fxP))).scale n

/-- Sum of z^(2k+1) / (2k+1) (fuel). -/
def atanhSeries (z2 : Int) : Nat → Nat → Int → Int
  | 0, _, _ => 0
  | n + 1, k, t => t / (2 * k + 1 : Nat) + atanhSeries z2 n (k + 1) (t * z2 / 2 ^ fxP)

/-- ln of a positive value in fixed point, and its parts: the exponent and ln of the significand in [0.75, 1.5). -/
def lnParts (m : Nat) (e : Int) : Int × Int :=
  let k : Int := Nat.log2 m
  let t := toFx fxP false m (-k)
  let up := decide (t ≥ 3 * 2 ^ (fxP - 1))
  let t' := if up then t / 2 else t
  let z := (t' - 2 ^ fxP) * 2 ^ fxP / (t' + 2 ^ fxP)
  (e + k + (if up then 1 else 0), 2 * atanhSeries (z * z / 2 ^ fxP) 90 0 z)

/-- Alternating sums of r^k / k! over odd or even k, for sine and cosine (fuel). -/
def trigSeries (p : Nat) (r2 : Int) : Nat → Nat → Int → Int
  | 0, _, _ => 0
  | n + 1, k, t => t + trigSeries p r2 n (k + 2) (-(t * r2 / 2 ^ p / ((k + 1) * (k + 2) : Nat)))

/-- Sine and cosine of a finite value, in fixed point with 512 fraction bits, after reduction by pi / 2. -/
def sinCos (s : Bool) (m : Nat) (e : Int) : Int × Int :=
  let x := toFx 512 s m e
  let h : Int := (piFx / 2 : Nat)
  let k := (2 * x + h) / (2 * h)
  let r := x - k * h
  let r2 := r * r / 2 ^ 512
  let sn := trigSeries 512 r2 60 1 r
  let cs := trigSeries 512 r2 60 0 (2 ^ 512)
  match (k % 4).toNat with
  | 0 => (sn, cs)
  | 1 => (cs, -sn)
  | 2 => (-sn, -cs)
  | _ => (-cs, sn)

/-- Sum of the series of erf without its factor 2 / sqrt pi (fuel). -/
def erfSeries (x2 : Int) : Nat → Nat → Int → Int
  | 0, _, _ => 0
  | n + 1, k, t => t / (2 * k + 1 : Nat) + erfSeries x2 n (k + 1) (-(t * x2 / 2 ^ fxP / (k + 1 : Nat)))

/-- A quotient of two positive fixed-point numbers, as a value. -/
def quotVal (a b : Int) : Val := fxVal fxP (a * 2 ^ fxP / b)

/-- The exact result of each operation at a finite operand of its domain, to the precision of the series: 0 2^x,
1 e^x, 2 log2, 3 ln, 4 1/x, 5 1/sqrt x, 7 tanh, 8 sigmoid, 9 erf, 10 sine, 11 cosine. -/
def transExact (op : Nat) (s : Bool) (m : Nat) (e : Int) : Val :=
  let top : Int := (Nat.log2 m : Int) + e
  match op with
  | 0 =>
    if m = 0 then .fin false 1 0
    else if top > 9 then (if s then .fin false 1 (-1000) else .fin false 1 1000)
    else
      let x := toFx fxP s m e
      let n := x / 2 ^ fxP
      let f := x - n * 2 ^ fxP
      (fxVal fxP (expSeries fxP (f * (ln2Fx : Int) / 2 ^ 400) 90 0 (2 ^ fxP))).scale n
  | 1 =>
    if m = 0 then .fin false 1 0
    else if top > 9 then (if s then .fin false 1 (-1000) else .fin false 1 1000)
    else expFx (toFx fxP s m e)
  | 2 =>
    let q := lnParts m e
    fxVal fxP (q.1 * 2 ^ fxP + q.2 * 2 ^ 400 / (ln2Fx : Int))
  | 3 =>
    let q := lnParts m e
    fxVal fxP (q.1 * (ln2Fx / 2 ^ (400 - fxP) : Nat) + q.2)
  | 4 => .fin s (2 ^ 400 / m) (-400 - e)
  | 5 =>
    let odd := decide (e % 2 ≠ 0)
    let m' := if odd then 2 * m else m
    let e' := if odd then e - 1 else e
    .fin false (sqrtNat 400 (2 ^ 800 / m')) (-400 - e' / 2)
  | 7 =>
    if m = 0 then .fin s 0 0
    else if top > 5 then .fin s (2 ^ fxP - 1) (-(fxP : Int))
    else
      match expFx (2 * toFx fxP false m e) with
      | .fin _ a k =>
        let a' := toFx fxP false a k
        let y := quotVal (a' - 2 ^ fxP) (a' + 2 ^ fxP)
        if s then y.neg else y
      | v => v
  | 8 =>
    if top > 9 then (if s then .fin false 1 (-1000) else .fin false (2 ^ fxP - 1) (-(fxP : Int)))
    else
      match expFx (-(toFx fxP false m e)) with
      | .fin _ a k =>
        if s then
          let b := toFx fxP false a k
          .fin false (a * 2 ^ fxP / (2 ^ fxP + b).toNat) k
        else quotVal (2 ^ fxP) (2 ^ fxP + toFx fxP false a k)
      | v => v
  | 9 =>
    if m = 0 then .fin s 0 0
    else if top ≥ 3 then .fin s (2 ^ fxP - 1) (-(fxP : Int))
    else
      let x := toFx fxP false m e
      let sq : Int := (sqrtNat 520 piFx * 2 ^ (fxP - 256) : Nat)
      let y := quotVal (2 * erfSeries (x * x / 2 ^ fxP) 300 0 x) sq
      if s then y.neg else y
  | 10 => if m = 0 then .fin s 0 0 else fxVal 512 (sinCos s m e).1
  | _ => if m = 0 then .fin false 1 0 else fxVal 512 (sinCos s m e).2

/-- The error bound of each operation in ULP (R206). -/
def transUlp (op : Nat) : Nat :=
  match op with
  | 0 => 1 | 2 => 1 | 4 => 1 | 5 => 1 | _ => 2

/-- True when a value lies within `b` ULP of the exact one. -/
def withinUlp (b : Nat) (y r : Val) : Bool :=
  match y, r.sub y with
  | .fin _ m e, .fin _ d k =>
    m != 0 && (Val.fin false d k).cmp (.fin false b ((Nat.log2 m : Int) + e - 23)) ≤ 0
  | _, _ => false

/-- True when a value lies within 2^-20 of the exact one. -/
def within20 (y r : Val) : Bool :=
  match r.sub y with
  | .fin _ d k => (Val.fin false d k).cmp (.fin false 1 (-20)) ≤ 0
  | _ => false

/-- The binary32 result for an exact one: a subnormal or zero result is exactly rounded, a result beyond range is
infinite, any other is a value the bound admits, the one the free constant names where it is one of them. -/
def transPick (op code : Nat) (loose : Bool) (y : Val) : Nat :=
  let r := rne32 y
  let c := Config.ulpChoice op code % 2 ^ 32
  let small := decide (r % 2 ^ 31 < 2 ^ 23)
  let v := v32 c
  if (small && !loose) || !(v32 r).isFin || !v.isFin then r
  else if loose then (if within20 y v then c else r)
  else if withinUlp (transUlp op) y v && decide (2 ^ 23 ≤ c % 2 ^ 31) then c else r

/-- The special results of R206: at a NaN, an infinity, a zero or a negative operand outside the domain. -/
def transSpecial (op : Nat) (v : Val) : Option (Nat × VFlags) :=
  let nan : Nat × VFlags := (0x7FC00000, { nan := true })
  let pinf := 0x7F800000
  let ninf := 0xFF800000
  match v with
  | .nan => some nan
  | .inf s =>
    match op with
    | 0 => some (if s then 0 else pinf, {})
    | 1 => some (if s then 0 else pinf, {})
    | 2 => some (if s then nan else (pinf, {}))
    | 3 => some (if s then nan else (pinf, {}))
    | 4 => some (if s then 0x80000000 else 0, {})
    | 5 => some (if s then nan else (0, {}))
    | 6 => some (if s then nan else (pinf, {}))
    | 7 => some (if s then 0xBF800000 else 0x3F800000, {})
    | 8 => some (if s then 0 else 0x3F800000, {})
    | 9 => some (if s then 0xBF800000 else 0x3F800000, {})
    | _ => some nan
  | .fin s m _ =>
    if m = 0 then
      match op with
      | 2 => some (ninf, { ovf := true })
      | 3 => some (ninf, { ovf := true })
      | 4 => some (if s then ninf else pinf, { divz := true, ovf := true })
      | 5 => some (if s then ninf else pinf, { divz := true, ovf := true })
      | 6 => some (if s then 0x80000000 else 0, {})
      | _ => none
    else if s && (op = 2 || op = 3 || op = 5 || op = 6) then some nan else none

/-- The correctly rounded square root of a positive value: an integer root with a sticky bit (R206). -/
def sqrtExact (m : Nat) (e : Int) : Val :=
  let odd := decide (e % 2 ≠ 0)
  let m' := (if odd then 2 * m else m) * 2 ^ 120
  let e' := (if odd then e - 1 else e) - 120
  let r := sqrtNat 160 m'
  if r * r = m' then .fin false r (e' / 2) else .fin false (2 * r + 1) (e' / 2 - 1)

/-- One lane in binary32. -/
def trans32 (op code : Nat) (v : Val) : LaneRes :=
  match transSpecial op v with
  | some r => r
  | none =>
    match v with
    | .fin s m e =>
      let y := if op = 6 then sqrtExact m e else transExact op s m e
      let loose := (op = 10 || op = 11) && (Val.fin false m e).cmp (.fin false 32768 0) > 0
      let r := if op = 6 then rne32 y else transPick op code loose y
      (r, { ovf := !(v32 r).isFin, inx := (v32 r).cmp y != 0 })
    | _ => (0x7FC00000, { nan := true })

/-- One lane of T: a BF16 result is the FP32 result rounded once (R206). -/
def transLane (op t x : Nat) : LaneRes :=
  let r := trans32 op (decodeElem t x |> rne32) (decodeElem t x)
  if t = 0 then r
  else
    let q := convElem 2 2 (v32 r.1)
    (q.1, { r.2 with ovf := r.2.ovf || ((v32 r.1).isFin && q.2.ovf), inx := r.2.inx || q.2.inx })

/-- A transcendental instruction: T is FP32 or BF16. -/
def transBody (op : Nat) (c : CoreId) (w : IFields) (s : State) : Eff :=
  if vType w = 0 ∨ vType w = 2 then vec1 c w s (transLane op) else .trap trIllegal 0

/-- R206: VEXP2. -/
def execVexp2 (c : CoreId) (w : IFields) (s : State) : Host.Outcome State Fault Refusal :=
  .next (issue 0x80 form1 c w s (transBody 0 c w))
/-- R206: VEXP. -/
def execVexp (c : CoreId) (w : IFields) (s : State) : Host.Outcome State Fault Refusal :=
  .next (issue 0x81 form1 c w s (transBody 1 c w))
/-- R206: VLOG2. -/
def execVlog2 (c : CoreId) (w : IFields) (s : State) : Host.Outcome State Fault Refusal :=
  .next (issue 0x82 form1 c w s (transBody 2 c w))
/-- R206: VLN. -/
def execVln (c : CoreId) (w : IFields) (s : State) : Host.Outcome State Fault Refusal :=
  .next (issue 0x83 form1 c w s (transBody 3 c w))
/-- R206: VRCP. -/
def execVrcp (c : CoreId) (w : IFields) (s : State) : Host.Outcome State Fault Refusal :=
  .next (issue 0x84 form1 c w s (transBody 4 c w))
/-- R206: VRSQRT. -/
def execVrsqrt (c : CoreId) (w : IFields) (s : State) : Host.Outcome State Fault Refusal :=
  .next (issue 0x85 form1 c w s (transBody 5 c w))
/-- R206: VSQRT. -/
def execVsqrt (c : CoreId) (w : IFields) (s : State) : Host.Outcome State Fault Refusal :=
  .next (issue 0x86 form1 c w s (transBody 6 c w))
/-- R206: VTANH. -/
def execVtanh (c : CoreId) (w : IFields) (s : State) : Host.Outcome State Fault Refusal :=
  .next (issue 0x87 form1 c w s (transBody 7 c w))
/-- R206: VSIGM. -/
def execVsigm (c : CoreId) (w : IFields) (s : State) : Host.Outcome State Fault Refusal :=
  .next (issue 0x88 form1 c w s (transBody 8 c w))
/-- R206: VERF. -/
def execVerf (c : CoreId) (w : IFields) (s : State) : Host.Outcome State Fault Refusal :=
  .next (issue 0x89 form1 c w s (transBody 9 c w))

/-- VSIN and VCOS share an opcode; FN[0] selects (R206). -/
def formTrig : Form := { form1 with fn := 1 }

/-- R206: VSIN, FN[0] = 0. -/
def execVsin (c : CoreId) (w : IFields) (s : State) : Host.Outcome State Fault Refusal :=
  .next (if bit w.fn.toNat 0 then s else issue 0x8A formTrig c w s (transBody 10 c w))
/-- R206: VCOS, FN[0] = 1. -/
def execVcos (c : CoreId) (w : IFields) (s : State) : Host.Outcome State Fault Refusal :=
  .next (if bit w.fn.toNat 0 then issue 0x8A formTrig c w s (transBody 11 c w) else s)

end Sys2Proof.Machine
end

