-- ==== Sys2Proof/Machine/Stacks.lean ====
section
/-! DEFINITION. Toane stacks (R429-R464): refresh and the port arbiter, cane reads and writes, layer updates of the update
engine, working copies, scrubbing and zeroing. -/

namespace Sys2Proof.Machine

/-! ## Registers -/

/-- A field of a stack's window, entry `j` (R432). -/
def rdT (s : State) (k : Nat) (F : Field) (j : Nat := 0) : Nat := s.rd F (k / 4) (k % 4) j

/-- Sets a field of a stack's window. -/
def wrT (s : State) (k : Nat) (F : Field) (v : Nat) (j : Nat := 0) : State := s.wr F (k / 4) v (k % 4) j

/-- Adds to a counter of a stack that stops at its largest value (R461). -/
def bumpT (s : State) (k : Nat) (F : Field) (n : Nat := 1) : State := s.bump F (k / 4) n (k % 4)

/-- The states of TS_STAT and of a layer (R443, R460). -/
def tsUp : Nat := 2
def tsSelfRefresh : Nat := 3
def lyIdle : Nat := 0
def lyArmed : Nat := 1
def lyPass1 : Nat := 2
def lyCombine : Nat := 3
def lyPass2 : Nat := 4
def lyLost : Nat := 5

/-- The state of a layer in a stack. -/
def layerState (s : State) (k l : Nat) : Nat := rdT s k Reg.TS_LAYER_STATE l

/-- Sets the state of a layer in a stack. -/
def setLayer (s : State) (k l v : Nat) : State := wrT s k Reg.TS_LAYER_STATE v l

/-- The stacks of a view, list[0] first (R463). -/
def viewList (s : State) (k v : Nat) : List Nat :=
  let w := rdT s k Reg.TS_VIEW_LISTLO v + 2 ^ 32 * rdT s k Reg.TS_VIEW_LISTHI v
  (List.range (rdT s k Reg.TS_VIEW_NST v)).map fun i => bits w (4 * i) 4

/-- The stacks that hold a layer (R434). -/
def layerStacks (s : State) (k l : Nat) : List Nat := viewList s k (rdT s k Reg.TS_LAYER_VIEW l)

/-- Rows of a layer in a stack (R434): rows c of the layer with floor(c / RB) mod NST at the stack's list position. -/
def layerRows (s : State) (k l : Nat) : Nat :=
  let v := rdT s k Reg.TS_LAYER_VIEW l
  let lst := viewList s k v
  let rb := rdT s k Reg.TS_VIEW_RB v
  let n := rdT s k Reg.TS_LAYER_NROWS l
  let blk := rb * lst.length
  if blk = 0 then 0
  else n / blk * rb + min rb (n % blk - lst.idxOf k * rb)

/-- True with FP32 master weights (R156). -/
def wpMaster (s : State) (k : Nat) : Bool := s.rb Reg.PZ_WIDE_WP_MASTER (k / 4)

/-- Elements per row, bytes of an element of W, M and V, and of G (R435). -/
def layerK (s : State) (k l : Nat) : Nat := rdT s k Reg.TS_LAYER_K l
def elemBytes (s : State) (k : Nat) : Nat := if wpMaster s k then 4 else 2
def gradBytes (s : State) (k l : Nat) : Nat := if rdT s k Reg.TS_LAYER_GFMT l = 0 then 4 else 2

/-- Elements of a layer in a stack: its share. -/
def layerElems (s : State) (k l : Nat) : Nat := layerRows s k l * layerK s k l

/-- The base offsets of a layer's regions (R464). -/
def wBase (s : State) (k l : Nat) : Nat := s.rd64 Reg.TS_LAYER_WBASE_LO Reg.TS_LAYER_WBASE_HI (k / 4) (k % 4) l
def mBase (s : State) (k l : Nat) : Nat := s.rd64 Reg.TS_LAYER_MBASE_LO Reg.TS_LAYER_MBASE_HI (k / 4) (k % 4) l
def vBase (s : State) (k l : Nat) : Nat := s.rd64 Reg.TS_LAYER_VBASE_LO Reg.TS_LAYER_VBASE_HI (k / 4) (k % 4) l
def cBase (s : State) (k l : Nat) : Nat := s.rd64 Reg.TS_LAYER_CBASE_LO Reg.TS_LAYER_CBASE_HI (k / 4) (k % 4) l
def gBase (s : State) (k l : Nat) : Nat := s.rd64 Reg.TS_LAYER_GBASE_LO Reg.TS_LAYER_GBASE_HI (k / 4) (k % 4) l

/-- Bytes of a row of the working copy (R435). -/
def copyRow (s : State) (k l : Nat) : Nat :=
  match rdT s k Reg.TS_LAYER_CFMT l with
  | 0 => 2 * layerK s k l
  | 3 => 0
  | _ => (layerK s k l + 127) / 128 * 192

/-- The bytes of a layer's G region in a stack. -/
def gRegion (s : State) (k l : Nat) : Nat × Nat := (gBase s k l, layerElems s k l * gradBytes s k l)

/-- The regions of a layer in a stack: offset and bytes (R435, R447). -/
def layerRegions (s : State) (k l : Nat) : List (Nat × Nat) :=
  let e := layerElems s k l * elemBytes s k
  [(wBase s k l, e), (mBase s k l, e), (vBase s k l, if rdT s k Reg.TS_LAYER_RULE l = 2 then 0 else e),
   (cBase s k l, layerRows s k l * copyRow s k l), gRegion s k l]

/-- True when two ranges of bytes overlap. -/
def overlap (a n : Nat) (p : Nat × Nat) : Bool := decide (a < p.1 + p.2 ∧ p.1 < a + n ∧ 0 < p.2)

/-- The entries in use of a stack. -/
def layersInUse (s : State) (k : Nat) : List Nat :=
  (List.range 1024).filter fun l => rdT s k Reg.TS_LAYER_EN l == 1

/-- TS_STAT.UPDATING and LAYER (R460). -/
def updStack (s : State) (k : Nat) : State :=
  let s1 := wrT s k Reg.TS_STAT_UPDATING (b2n ((layersInUse s k).any fun l => layerState s k l != lyIdle))
  match (s.tx k).queue with
  | l :: _ => wrT s1 k Reg.TS_STAT_LAYER l
  | [] => s1

/-! ## Errors -/

/-- The DRAM row of a stack offset: pseudo-channel and row of 32 lines (R429, R534). -/
def dramRow (off : Nat) : List Nat := [off / 64 % 24, off / 64 / 24 / 32]

/-- A read of one marked word of a stack (R455-R457, R460): logged and counted; each is a fault event of its DRAM row. -/
def stackEcc (k req : Nat) (s : State) (p : Nat × Nat) : State :=
  let off := 8 * p.1 - stackBase k
  let ue := decide (p.2 ≥ 2)
  let s1 := wrT (wrT s k Reg.TS_ECCLOG_LO off) k Reg.TS_ECCLOG_HI (off / 2 ^ 32)
  let s2 := wrT (wrT (wrT s1 k Reg.TS_ECCFLG_UE (b2n ue)) k Reg.TS_ECCFLG_VALID 1) k Reg.TS_ECCFLG_REQ req
  let s3 := if ue then (bumpT s2 k Reg.TS_ECC_UE).lg LogKind.dramUe (stackN k) (dramRow off)
    else (bumpT s2 k Reg.TS_ECC_CE).lg LogKind.dramCe (stackN k) (dramRow off)
  s3.raise (.stack (Fin.ofNat 16 k)) (.dieNode (Fin.ofNat 4 (k / 4)))
    (.event (unitEvent s3 1 (if ue then 0x04 else 0x03) (16 + k) none (off / 64 % 24 + 2 ^ 5 * (off / 64 / 24 / 32)) (dramRow off)))

/-- A read of bytes of a stack by a requester: the data, whether a word of it is uncorrectable, and its events. -/
def stackRead (s : State) (k off n req : Nat) : List Byte × Bool × State :=
  let bad := badWords s (stackBase k + off) n
  (s.rdBytes (stackBase k + off) n, bad.any fun p => decide (p.2 ≥ 2), bad.foldl (stackEcc k req) s)

/-- Writes bytes of a stack: words covered whole, or merged with corrected bytes, carry valid check bits afterwards. -/
def stackWrite (s : State) (k off : Nat) (bs : List Byte) : State :=
  let a := stackBase k + off
  ((badWords s a bs.length).filter fun p => decide (p.2 = 1 ∨ (a ≤ 8 * p.1 ∧ 8 * p.1 + 8 ≤ a + bs.length))).foldl
    (fun t p => setBad t p.1 0) (s.wrBytes a bs)

/-! ## Lost layers -/

/-- The layer leaves the engine of a stack. -/
def leaveEngine (s : State) (k l : Nat) : State :=
  let x := s.tx k
  s.setTx k { x with
    queue := x.queue.filter (· ≠ l), consts := smSet [] x.consts l [] }

/-- A layer that is lost takes its partials with it (R459): those its members have sent are no longer present at the lead, or are
discarded when they arrive. -/
def dropPartials (s : State) (k l : Nat) : State :=
  let lst := layerStacks s k l
  let lead := lst.headD k
  let s1 := s.setTx lead { s.tx lead with parts := if layerState s lead l = lyPass1 then (s.tx lead).parts else (s.tx lead).parts.filter (· ≠ 0) }
  (lst.zipIdx.filter fun p => (s.tx p.1).sent.contains l).foldl (fun t p =>
    let x := t.tx lead
    let t1 := t.setTx lead (if x.parts.contains p.2 then { x with parts := x.parts.filter (· ≠ p.2) } else { x with late := p.2 :: x.late })
    t1.setTx p.1 { t1.tx p.1 with sent := (t1.tx p.1).sent.filter (· ≠ l) }) s1

/-- A layer becomes LOST in the stack that detects it, which sends LOST to every stack of the view (R455); the step is
reported lost. -/
def layerLost (s : State) (k l : Nat) : State :=
  let s1 := leaveEngine (bumpT (setLayer (dropPartials s k l) k l lyLost) k Reg.TS_LOST_COUNT) k l
  let s2 := (layerStacks s k l).foldl (fun t m => t.send (.stack (Fin.ofNat 16 k)) (.stack (Fin.ofNat 16 m)) (.lost l)) s1
  updStack (noteAt ({ s2 with stepLost := true }.lg LogKind.layerLost (stackN k) [l]) (.stack (Fin.ofNat 16 k)) 0x0F [l]) k

/-- True when a layer is held in a stack (R444, R454). -/
def layerHeld (s : State) (k l : Nat) : Bool :=
  (decide (lyPass1 ≤ layerState s k l) && decide (layerState s k l ≤ lyPass2)) || (s.tx k).copies.contains l

/-- True when a cane request is held for an update of a layer it touches (R444). -/
def updateHolds (s : State) (k : Nat) (r : CaneReq) : Bool :=
  (layersInUse s k).any fun l => layerHeld s k l && (layerRegions s k l).any (overlap r.off r.n)

/-- True when a cane request is held before arbitration (R444, R458). -/
def caneHeld (s : State) (k : Nat) (r : CaneReq) : Bool := rdT s k Reg.TS_STAT_ZEROING == 1 || updateHolds s k r

/-- True when a stack holds a cane request for an update (TS_HOLD, R444). -/
def anyHeld (s : State) (k : Nat) : Bool := (s.tx k).cane.any (updateHolds s k)

/-! ## Arithmetic of the update engine (R446) -/

/-- Binary32 sum, difference and product, each rounded. -/
def fAdd (a b : Nat) : Nat := rne32 ((v32 a).add (v32 b))
def fSub (a b : Nat) : Nat := rne32 ((v32 a).sub (v32 b))
def fMul (a b : Nat) : Nat := rne32 ((v32 a).mul (v32 b))

/-- Binary32 division, correctly rounded: an integer quotient with a sticky bit. -/
def fDiv (a b : Nat) : Nat :=
  match v32 a, v32 b with
  | .nan, _ => 0x7FC00000
  | _, .nan => 0x7FC00000
  | .inf _, .inf _ => 0x7FC00000
  | .inf x, .fin y _ _ => rne32 (.inf (xor x y))
  | .fin x _ _, .inf y => rne32 (.fin (xor x y) 0 0)
  | .fin x m e, .fin y n f =>
    if n = 0 then (if m = 0 then 0x7FC00000 else rne32 (.inf (xor x y)))
    else
      let q := m * 2 ^ 64 / n
      rne32 (.fin (xor x y) (2 * q + (if q * n = m * 2 ^ 64 then 0 else 1)) (e - f - 65))

/-- Binary32 square root, correctly rounded. -/
def fSqrt (a : Nat) : Nat :=
  match v32 a with
  | .nan => 0x7FC00000
  | .inf x => if x then 0x7FC00000 else 0x7F800000
  | .fin x m e => if m = 0 then rne32 (.fin x 0 e) else if x then 0x7FC00000 else rne32 (sqrtExact m e)

/-- 1.0 in binary32. -/
def fOne : Nat := 0x3F800000

/-- True of a binary32 NaN and of a zero. -/
def fNan (a : Nat) : Bool := v32 a == .nan
def fZero (a : Nat) : Bool := (v32 a).isZero

/-- What a layer's update is computed with (R446): its rule, its entry's constants and those of the step. -/
structure UpdConst where
  rule : Nat
  lre : Nat
  b1 : Nat
  b2 : Nat
  omb1 : Nat
  omb2 : Nat
  eps : Nat
  wd : Nat
  gs : Nat
  c1 : Nat
  c2 : Nat
deriving DecidableEq, Repr

/-- The constants of a layer's update (R446). -/
def updConst (s : State) (k l : Nat) : UpdConst :=
  let st := smGet [] (s.tx k).consts l
  let at_ := fun n => (st[n]?).getD fOne
  let b1 := rdT s k Reg.TS_LAYER_B1 l
  let b2 := rdT s k Reg.TS_LAYER_B2 l
  { rule := rdT s k Reg.TS_LAYER_RULE l, lre := fMul (rdT s k Reg.TS_LAYER_LR l) (at_ 1), b1 := b1, b2 := b2
    omb1 := fSub fOne b1, omb2 := fSub fOne b2, eps := rdT s k Reg.TS_LAYER_EPS l, wd := rdT s k Reg.TS_LAYER_WD l
    gs := at_ 0, c1 := at_ 2, c2 := at_ 3 }

/-- One element: w, m, v and g in binary32. -/
structure UpdElem where
  w : Nat
  m : Nat
  v : Nat
  g : Nat
deriving DecidableEq, Repr

/-- The update u of an element (R446, R447). -/
def updU (c : UpdConst) (e : UpdElem) : Nat :=
  let g1 := fMul e.g c.gs
  if c.rule = 2 then fAdd g1 (fMul c.wd e.w)
  else
    let m1 := fAdd (fMul c.b1 e.m) (fMul c.omb1 g1)
    let v1 := fAdd (fMul c.b2 e.v) (fMul c.omb2 (fMul g1 g1))
    let den := fAdd (fSqrt (fMul v1 c.c2)) c.eps
    fAdd (fDiv (fMul m1 c.c1) den) (fMul c.wd e.w)

/-- The new w, m and v of an element under the layer ratio r (R446, R447). -/
def updNew (c : UpdConst) (r : Nat) (e : UpdElem) : Nat × Nat × Nat :=
  let g1 := fMul e.g c.gs
  let u := updU c e
  if c.rule = 2 then
    let m1 := fAdd (fMul c.b1 e.m) (fMul r u)
    (fSub e.w (fMul c.lre m1), m1, e.v)
  else
    (fSub e.w (fMul (fMul c.lre r) u), fAdd (fMul c.b1 e.m) (fMul c.omb1 g1),
     fAdd (fMul c.b2 e.v) (fMul c.omb2 (fMul g1 g1)))

/-- A partial sum of squares in the order of R448: chains of 16, groups of 64 chains by the tree of R79, groups in
sequence. -/
def accSum (l : List Nat) : Nat :=
  let sq := l.map fun x => fMul x x
  let chain := fun c : List Nat => match c with | [] => 0 | x :: r => r.foldl fAdd x
  let group := fun g : List Nat => pairTree fAdd 0 8 ((chunks 16 g.length g).map chain)
  match (chunks 1024 sq.length sq).map group with
  | [] => 0
  | x :: r => r.foldl fAdd x

/-! ## Elements in memory -/

/-- A stored element converted exactly to binary32 (R446). -/
def readElem (s : State) (a n : Nat) : Nat :=
  if n = 4 then s.rdLe a 4 else rne32 (decodeElem 2 (s.rdLe a 2))

/-- Element `i` of a layer's share, in the order of R448. -/
def layerElem (s : State) (k l i : Nat) : UpdElem :=
  let e := elemBytes s k
  let b := stackBase k
  { w := readElem s (b + wBase s k l + i * e) e, m := readElem s (b + mBase s k l + i * e) e
    v := readElem s (b + vBase s k l + i * e) e
    g := readElem s (b + gBase s k l + i * gradBytes s k l) (gradBytes s k l) }

/-- The word of W: binary32, or BF16 as the copy where WP_MASTER is clear (R451). -/
def storeW (s : State) (k a w : Nat) : State :=
  if wpMaster s k then s.wrLe a 4 w else s.wrLe a 2 (convElem 2 0 (v32 w)).1

/-- A moment as stored: binary32, or BF16 to nearest even (R446). -/
def storeM (s : State) (k a v : Nat) : State :=
  if wpMaster s k then s.wrLe a 4 v else s.wrLe a 2 (rneBf16 (v32 v))

/-- Writes one updated element (R447): W, M and, but for LARS, V. -/
def storeElem (k l i : Nat) (rule : Nat) (s : State) (n : Nat × Nat × Nat) : State :=
  let e := elemBytes s k
  let b := stackBase k
  let s1 := storeM (storeW s k (b + wBase s k l + i * e) n.1) k (b + mBase s k l + i * e) n.2.1
  if rule = 2 then s1 else storeM s1 k (b + vBase s k l + i * e) n.2.2

/-- One tile row of an 8-bit working copy (R436, R451): the scale line, then the elements. -/
def copyTile (fd rule b : Nat) (s : State) (a : Nat) (ws : List Nat) : State :=
  let blocks := (chunks b ws.length (ws.map v32)).map (scaleBlock fd 0 rule)
  let s1 := s.wrBytes a (blocks.map fun q => BitVec.ofNat 8 q.1)
  s1.wrBytes (a + 64) ((blocks.flatMap fun q => q.2.1).map fun r => BitVec.ofNat 8 r.1.1)

/-- Row `lc` of the working copy, from the row of w in binary32 (R435, R436, R451). -/
def copyLine (k l lc : Nat) (s : State) (ws : List Nat) : State :=
  let a := stackBase k + cBase s k l + lc * copyRow s k l
  match rdT s k Reg.TS_LAYER_CFMT l with
  | 0 => s.wrBytes a (ws.flatMap fun w => leBytes 2 (convElem 2 0 (v32 w)).1)
  | 3 => s
  | f =>
    let fd := if f = 1 then 3 else 4
    ((chunks 128 ws.length ws).zipIdx).foldl (fun t p =>
      copyTile fd (rdT s k Reg.TS_LAYER_CRULE l) (blkSize (rdT s k Reg.TS_LAYER_CBLK l)) t (a + 192 * p.2) p.1) s

/-- Forms the working copy of the stored w of a layer's first `n` rows (R451, R454). -/
def copyLayer (s : State) (k l n : Nat) : State :=
  if wpMaster s k then
    (List.range n).foldl (fun t lc => copyLine k l lc t ((List.range (layerK s k l)).map fun j =>
      readElem t (stackBase k + wBase s k l + (lc * layerK s k l + j) * 4) 4)) s
  else s

/-- Writes the results of an update for the first `n` elements of the share (R447): the copy for every row written
whole. -/
def storeLayer (s : State) (k l r n : Nat) : State :=
  let c := updConst s k l
  let s1 := (List.range n).foldl (fun t i => storeElem k l i c.rule t (updNew c r (layerElem s k l i))) s
  copyLayer s1 k l (n / max 1 (layerK s k l))

/-- Clears the marks of the words an update has written. -/
def clearMarks (s : State) (k : Nat) (p : Nat × Nat) : State :=
  (badWords s (stackBase k + p.1) p.2).foldl (fun t q => if p.2 = 0 then t else setBad t q.1 0) s

/-- The regions a pass reads (R447): pass 1 of LARS reads w and g, its pass 2 w, m and g. -/
def passReads (s : State) (k l : Nat) (second : Bool) : List (Nat × Nat) :=
  let rg := layerRegions s k l
  let pick := fun l : List Nat => l.filterMap fun i => rg[i]?
  if rdT s k Reg.TS_LAYER_RULE l ≠ 2 then pick [0, 1, 2, 4] else if second then pick [0, 1, 4] else pick [0, 4]

/-- The errors a pass meets: whether a word is uncorrectable, and the state with their events (R455). -/
def passErrors (s : State) (k l : Nat) (second : Bool) : Bool × State :=
  (passReads s k l second).foldl (fun p rg =>
    if rg.2 = 0 then p
    else
      let bad := badWords p.2 (stackBase k + rg.1) rg.2
      (p.1 || bad.any fun q => decide (q.2 ≥ 2), bad.foldl (stackEcc k 2) p.2)) (false, s)

/-- A layer's update stops while it writes: a part of the results, of open extent, has been written (R455). -/
def partWrites (s : State) (k l : Nat) : State :=
  if layerState s k l = lyPass2 ∨ (layerState s k l = lyPass1 ∧ rdT s k Reg.TS_LAYER_RULE l = 0) then
    { storeLayer s k l (smGet fOne (s.tx k).ratio l) (Config.freeValue s.free % (layerElems s k l + 1)) with
      free := s.free + 1 }
  else s

/-! ## The arbiter -/

/-- The pseudo-channel of an offset (R429). -/
def pcOf (off : Nat) : Nat := off / 64 % 24

/-- True when two requests share a line. -/
def sameLine (a b : CaneReq) : Bool := overlap (a.off / 64) ((a.off + a.n + 63) / 64 - a.off / 64) (b.off / 64, (b.off + b.n + 63) / 64 - b.off / 64)

/-- The next cane request of one kind at a pseudo-channel (R442): the oldest that is not held, unless an earlier one of
the other kind to the same line stands before it. `seen` are the requests before it. -/
def nextCane (s : State) (k pc : Nat) (write : Bool) (seen : List CaneReq) : List CaneReq → Option CaneReq
  | [] => none
  | r :: t =>
    if r.write = write ∧ pcOf r.off = pc ∧ !caneHeld s k r then
      (if seen.any fun q => q.write != write && sameLine q r then none else some r)
    else nextCane s k pc write (r :: seen) t

/-- The requesters of R437 by number: CR, CW, UE, SCR. -/
def offered (s : State) (k pc : Nat) (o : StackOffer) : List Nat :=
  let x := s.tx k
  (List.range 4).filter fun q =>
    (match q with
      | 0 => (nextCane s k pc false [] x.cane).isSome
      | 1 => (nextCane s k pc true [] x.cane).isSome
      | 2 => o.ue
      | _ => !(smGet [] x.scrubs pc).isEmpty)
    && !(smGet (⟨0, false⟩ : StackArb) x.arb (4 * pc + q)).backoff

/-- What a pseudo-channel remembers of a requester. -/
def stackArb (s : State) (k pc q : Nat) : StackArb := smGet ⟨0, false⟩ (s.tx k).arb (4 * pc + q)

/-- Sets what a pseudo-channel remembers of a requester. -/
def setStackArb (s : State) (k pc q : Nat) (a : StackArb) : State :=
  let x := s.tx k
  s.setTx k { x with arb := smSet ⟨0, false⟩ x.arb (4 * pc + q) a }

/-- The winner among requesters that are not backing off (R438): aged ones first, in round-robin order from the
pointer. -/
def stackWinner (s : State) (k pc : Nat) (l : List Nat) : Option Nat :=
  let order := (List.range 4).map fun i => (smGet 0 (s.tx k).ptr pc + i) % 4
  let aged := l.filter fun q => decide ((stackArb s k pc q).losses ≥ 7)
  match order.find? fun q => aged.contains q with
  | some q => some q
  | none => order.find? fun q => l.contains q

/-- A loss (R439). -/
def stackLose (k pc : Nat) (s : State) (q : Nat) : State :=
  bumpT (setStackArb s k pc q ⟨(stackArb s k pc q).losses + 1, true⟩) k Reg.TS_ARBLOSS_COUNT

/-! ## Serving requests -/

/-- What the transfer finds in one word of its line. -/
def markWord (s : State) (k off : Nat) (word : Fin 8) (e : EccFind) : State :=
  let w := stackBase k / 8 + off / 64 * 8 + word.val
  match e with
  | .none => s
  | .ce => setBad s w 1
  | .ue => setBad s w 2

/-- A line of a remote-cache fill has been read (R256, R437): the response leaves with the fourth. -/
def fillRead (s : State) (k node tag : Nat) (r : CaneReq) (data : List Byte) (bad : Bool) : State :=
  let x := s.tx k
  let key := 4096 * node + tag
  let l := smGet [] x.fills key ++ [(r.off, data, bad)]
  if l.length < 4 then s.setTx k { x with fills := smSet [] x.fills key l }
  else
    let t := s.setTx k { x with fills := smSet [] x.fills key [] }
    let bytes := (List.range 4).flatMap fun i => ((l.find? fun p => p.1 / 64 % 4 == i).map fun p => p.2.1).getD []
    let err := l.any fun p => p.2.2
    match nodeOfNum node with
    | some dst => t.send (.stack (Fin.ofNat 16 k)) dst (.rdrsp tag err (if err then List.replicate 256 255 else bytes))
    | none => t

/-- A line of a BAR2 read has been read (R474): the read is answered with its bytes once all of them have, with an error status where
one holds an uncorrectable error (R456). -/
def hostPiece (s : State) (id off : Nat) (data : List Byte) (bad : Bool) : State :=
  let a := smGet {} s.host.asks id
  let got := a.got ++ [(off, data, bad)]
  let put := fun (t : State) (x : HostAsk) => { t with host := { t.host with asks := smSet {} t.host.asks id x } }
  if got.length < a.offs.length then put s { a with got := got }
  else if a.offs.isEmpty then s
  else
    let bytes := a.offs.flatMap fun o => ((got.find? fun p => p.1 == o).map fun p => p.2.1).getD []
    (put s {}).emit (if got.any fun p => p.2.2 then .readError bytes.length else .data bytes)

/-- A cane read is served (R437, R456). -/
def serveRead (s : State) (k : Nat) (r : CaneReq) : State :=
  let q := stackRead s k r.off r.n 0
  let t := q.2.2
  match r.src with
  | .stream d i n =>
    let d' : DieId := Fin.ofNat 4 d
    if q.2.1 then giveUpStep (stopStream t d' i) none else lineArrives t d' i n q.1
  | .req node tag true => fillRead t k node tag r q.1 q.2.1
  | .req node tag false => match nodeOfNum node with
    | some dst => t.send (.stack (Fin.ofNat 16 k)) dst (.rdrsp tag q.2.1 (if q.2.1 then List.replicate r.n 255 else q.1))
    | none => t
  | .host id => hostPiece t id r.off q.1 q.2.1
  | .copy n uid h =>
    let at_ := h - (((s.slx n).running.find? fun x => x.uid == uid).map fun x => x.ent.haddr).getD h
    if q.2.1 then copyFail t n uid 2 at_ else copyMoved (t.emit (.hostWrite h q.1)) n uid r.n

/-- A gradient line lands (R443): the first cane write into a layer's G region arms it, and the last line starts its
update with the step constants in force. -/
def gradLine (k : Nat) (r : CaneReq) (s : State) (l : Nat) : State :=
  let s1 := if layerState s k l = lyIdle then setLayer s k l lyArmed else s
  let n := rdT s1 k Reg.TS_LAYER_GLINES l + (if r.n ≥ 64 then 1 else 0)
  let s2 := wrT s1 k Reg.TS_LAYER_GLINES n l
  if layerState s2 k l = lyArmed ∧ n * 64 ≥ (gRegion s2 k l).2 then
    let s3 := setLayer s2 k l lyPass1
    let x := s3.tx k
    s3.setTx k { x with
      queue := x.queue ++ [l]
      consts := smSet [] x.consts l [rdT s3 k Reg.TS_GS_GS, rdT s3 k Reg.TS_LRS_LRS, rdT s3 k Reg.TS_C1_C1, rdT s3 k Reg.TS_C2_C2] }
  else s2

/-- A write that covers part of an uncorrectable word is dropped and the error reported (R474). -/
def partDropped (s : State) (k : Nat) (r : CaneReq) : List (Nat × Nat) :=
  let a := stackBase k + r.off
  (badWords s a r.n).filter fun p => decide ((8 * p.1 < a ∨ a + r.n < 8 * p.1 + 8) ∧ 2 ≤ p.2)

/-- A cane write is served: a pending scrub of its line is withdrawn (R457), and gradients are counted. -/
def serveWrite (s : State) (k : Nat) (r : CaneReq) : State :=
  let x := s.tx k
  let pc := pcOf r.off
  let s1 := s.setTx k { x with
    scrubs := smSet [] x.scrubs pc ((smGet [] x.scrubs pc).filter fun p => p.1 != r.off / 64 / 24) }
  let bad := partDropped s1 k r
  let s2 := if bad.isEmpty then stackWrite s1 k r.off r.data else bad.foldl (stackEcc k 1) s1
  let hit := (layersInUse s2 k).filter fun l => overlap r.off r.n (gRegion s2 k l)
  let s3 := if hit.isEmpty then s2 else updStack (hit.foldl (gradLine k r) s2) k
  match r.src with
  | .stream d i n =>
    let d' : DieId := Fin.ofNat 4 d
    let left := (s3.tx k).cane.any fun q => match q.src with
      | .stream d2 i2 n2 => d2 == d && i2 == i && n2 / 2 == n / 2
      | _ => false
    if left then s3
    else flitDone s3 d' i (decide ((s3.sx d' i).written + 1 = runFlits s3 d' i)) (.stack (Fin.ofNat 16 k))
  | .req node tag _ => match nodeOfNum node with
    | some dst => s3.send (.stack (Fin.ofNat 16 k)) dst (.wrrsp tag bad.isEmpty)
    | none => s3
  | .host _ => s3
  | .copy n uid _ => copyMoved s3 n uid r.n

/-- Removes one request from the list. -/
def dropCane (s : State) (k : Nat) (r : CaneReq) : State :=
  let x := s.tx k
  s.setTx k { x with cane := x.cane.erase r }

/-- The scrubber's transfer (R457): a read of its line, corrected by a write-back that is a second request. -/
def serveScrub (s : State) (k pc : Nat) (word : Fin 8) (e : EccFind) : State :=
  let x := s.tx k
  match smGet [] x.scrubs pc with
  | [] => s
  | (line, back) :: rest =>
    let off := (24 * line + pc) * 64
    let a := stackBase k + off
    let s1 := s.setTx k { x with scrubs := smSet [] x.scrubs pc rest }
    if back then ((badWords s1 a 64).filter fun p => p.2 == 1).foldl (fun t p => setBad t p.1 0) s1
    else
      let s2 := (stackRead (markWord s1 k off word e) k off 64 3).2.2
      if (badWords s2 a 64).any fun p => p.2 == 1 then
        let y := s2.tx k
        s2.setTx k { y with scrubs := smSet [] y.scrubs pc ((line, true) :: smGet [] y.scrubs pc) }
      else s2

/-- True of a host write that covers part of a 64-bit word (R474). -/
def partialHost (r : CaneReq) : Bool :=
  (match r.src with | .host _ => true | _ => false) && (r.off % 8 != 0 || r.n % 8 != 0)

/-- The first grant of a partial host write reads its line (R474), with the errors of its words; the write itself takes a second grant
and holds later requests to the line until then. -/
def mergeRead (s : State) (k : Nat) (r : CaneReq) (o : StackOffer) : State :=
  let t := markWord s k r.off o.word o.ecc
  let a := stackBase k + r.off / 64 * 64
  ((badWords t a 64).filter fun p => p.2 == 1).foldl (stackEcc k 1) t

/-- The update engine reads a word in error (R455, R460). Which line of its layer on the pseudo-channel it is reading the spec leaves
open: its place in the layer's W region is a free value. -/
def updateError (s : State) (k pc l : Nat) (word : Fin 8) (e : EccFind) : State :=
  let w := (layerRegions s k l).headD (0, 0)
  let lines := ((List.range (w.2 / 64)).map fun i => w.1 / 64 + i).filter fun n => n % 24 == pc
  let line := (lines[Config.freeValue s.free % max 1 lines.length]?).getD (w.1 / 64)
  stackEcc k 2 { s with free := s.free + 1 }
    ((stackBase k + 64 * line) / 8 + word.val, if e == .ue then 2 else 1)

/-- The transfer of a granted requester. -/
def serve (s : State) (k pc : Nat) (o : StackOffer) (q : Nat) : State :=
  match q with
  | 0 => match nextCane s k pc false [] (s.tx k).cane with
    | some r => serveRead (markWord (dropCane s k r) k r.off o.word o.ecc) k r
    | none => s
  | 1 => match nextCane s k pc true [] (s.tx k).cane with
    | some r =>
      let x := s.tx k
      if partialHost r && !x.merged.contains r then
        mergeRead (s.setTx k { x with merged := r :: x.merged }) k r o
      else
        let t := dropCane s k r
        serveWrite (t.setTx k { t.tx k with merged := x.merged.erase r }) k r
    | none => s
  | 2 => match (s.tx k).queue, o.ecc with
    | _, .none => s
    | [], _ => s
    | l :: _, e =>
      let t := updateError s k pc l o.word e
      if e == .ue then layerLost (partWrites t k l) k l else t
  | _ => serveScrub s k pc o.word o.ecc

/-- R430: a refresh takes the next three available slots of a pseudo-channel. -/
def execRefresh (k : StackId) (pc : Fin 24) (s : State) : Host.Outcome State Fault Refusal :=
  let x := s.tx k.val
  .next (if rdT s k.val Reg.TS_STAT_STATE = tsUp then
      s.setTx k.val { x with refresh := smSet 0 x.refresh pc.val (smGet 0 x.refresh pc.val + 3) }
    else s)

/-- R438-R440: one available slot of a pseudo-channel. Refresh takes it, displacing a grant; a debug request wins or
displaces a grant; a winner that withdraws leaves a dead slot and the arbiter as it was. -/
def execStackGrant (k : StackId) (pc : Fin 24) (o : StackOffer) (s : State) : Host.Outcome State Fault Refusal :=
  let kk := k.val
  let p := pc.val
  let x := s.tx kk
  let l := offered s kk p o
  .next (if rdT s kk Reg.TS_STAT_STATE ≠ tsUp then s
    else if smGet 0 x.refresh p ≠ 0 then
      let s1 := s.setTx kk { x with refresh := smSet 0 x.refresh p (smGet 0 x.refresh p - 1) }
      if !l.isEmpty && !o.withdrawn then bumpT s1 kk Reg.TS_PREEMPT_COUNT else s1
    else match stackWinner s kk p l with
      | none => s
      | some q =>
        if o.debug then l.foldl (stackLose kk p) s
        else if o.debugLate then bumpT ((l.filter (· ≠ q)).foldl (stackLose kk p) s) kk Reg.TS_PREEMPT_COUNT
        else if o.withdrawn then s
        else
          let s1 := setStackArb ((l.filter (· ≠ q)).foldl (stackLose kk p) s) kk p q ⟨0, false⟩
          let y := s1.tx kk
          serve (s1.setTx kk { y with ptr := smSet 0 y.ptr p ((q + 1) % 4) }) kk p o q)

/-- R439: a back-off ends. -/
def execStackBackoffExpiry (k : StackId) (pc : Fin 24) (q : Fin 4) (s : State) : Host.Outcome State Fault Refusal :=
  .next (setStackArb s k.val pc.val q.val { stackArb s k.val pc.val q.val with backoff := false })

/-! ## The end of an update -/

/-- The end of a layer's update in a stack (R443, R461). -/
def layerDone (s : State) (k l : Nat) : State :=
  updStack (bumpT (wrT (setLayer (leaveEngine s k l) k l lyIdle) k Reg.TS_LAYER_GLINES 0 l) k Reg.TS_UPD_COUNT) k

/-- Writes the results and their copy (R447). -/
def applyLayer (s : State) (k l r : Nat) : State :=
  let s1 := storeLayer s k l r (layerElems s k l)
  ((layerRegions s k l).take 4).foldl (fun t p => clearMarks t k p) s1

/-! ## The exchange (R449, R450) -/

/-- The ratio r of a rule from the norms (R449). -/
def ratioR (rule nw nu tmax : Nat) : Nat :=
  if rule = 0 then fOne
  else if fZero nw || fZero nu then fOne
  else rne32 ((v32 (fDiv nw nu)).min (v32 tmax))

/-- The update-to-weight ratio (R450). -/
def ratioRho (lre r nw nu : Nat) : Nat :=
  if fNan nw || fNan nu || fNan r || fNan lre then 0x7FC00000
  else if fZero nu then 0
  else if fZero nw then 0x7F800000
  else fMul (fMul lre r) (fDiv nu nw)

/-- The lead stack forms the ratio once every partial is present and its own pass 1 has ended, and gives it to every stack
of the view (R449, R450, R165); with ADAMW nothing is left to do. -/
def combine (s : State) (k l : Nat) : State :=
  let lst := layerStacks s k l
  let x := s.tx k
  if layerState s k l ≠ lyCombine ∨ lst.head? ≠ some k ∨ !(List.range lst.length).all fun j => x.parts.contains j then s
  else
    let part := fun (F : Field) => (List.range lst.length).map fun j => rdT s k F j
    let total := fun (v : List Nat) => match v with | [] => 0 | a :: r => r.foldl fAdd a
    let nw := fSqrt (total (part Reg.TS_NPART_SW))
    let nu := fSqrt (total (part Reg.TS_NPART_SU))
    let c := updConst s k l
    let r := ratioR c.rule nw nu (rdT s k Reg.TS_LAYER_TMAX l)
    let rho := ratioRho c.lre r nw nu
    let s0 := lst.foldl (fun t m => t.setTx m { t.tx m with sent := (t.tx m).sent.filter (· ≠ l) }) (s.setTx k { x with parts := [] })
    let s1 := wrT (wrT s0 k Reg.TS_LAYER_RATIO rho l) k Reg.TS_LAYER_RSTEP
      (rdT s k Reg.TS_STEP_STEP) l
    let out := fNan rho || decide ((v32 rho).cmp (v32 (rdT s k Reg.TS_LAYER_RATIO_LO l)) < 0)
      || decide ((v32 rho).cmp (v32 (rdT s k Reg.TS_LAYER_RATIO_HI l)) > 0)
    let rec_ := [rdT s k Reg.TS_LAYER_LAYER l, s.rd Reg.PZ_STEP_STEP 0, rho]
    let s2 := if rdT s k Reg.TS_LAYER_RWATCH l = 1 ∧ out then
        noteAt ({ wrT s1 k Reg.TS_LAYER_OUT 1 l with ratioOut := true }.lg LogKind.ratioEvent (stackN k) rec_)
          (.stack (Fin.ofNat 16 k)) 0x27 rec_
      else s1
    lst.foldl (fun t m =>
      if layerState t m l ≠ lyCombine then t
      else
        let t1 := wrT (wrT t m Reg.TS_LAYER_NORMW nw l) m Reg.TS_LAYER_NORMU nu l
        if c.rule = 0 then layerDone t1 m l
        else setLayer (t1.setTx m { t1.tx m with ratio := smSet 0 (t1.tx m).ratio l r }) m l lyPass2) s2

/-- A partial reaches the lead (R449, R459, R462): it is kept until the lead has all of its layer's, but one of a layer that has been lost
is discarded. -/
def partialArrives (s : State) (k j sw su : Nat) : State :=
  if (s.tx k).late.contains j then s.setTx k { s.tx k with late := (s.tx k).late.erase j }
  else
    let s1 := wrT (wrT s k Reg.TS_NPART_SW sw j) k Reg.TS_NPART_SU su j
    let x := s1.tx k
    let s2 := s1.setTx k { x with parts := j :: x.parts.filter (· ≠ j) }
    match x.queue with
    | l :: _ => combine s2 k l
    | [] => s2

/-! ## Passes -/

/-- R447-R449: pass 1 of the layer at the head of the queue ends. ADAMW's single pass has written its results; without
ratio watching it forms no norms and the update is done. The partials go to the lead. -/
def execPass1Complete (k : StackId) (l : Fin 1024) (s : State) : Host.Outcome State Fault Refusal :=
  let kk := k.val
  let ll := l.val
  .next (if (s.tx kk).queue.head? ≠ some ll ∨ layerState s kk ll ≠ lyPass1 then s
    else
      let e := passErrors s kk ll false
      let c := updConst s kk ll
      if e.1 then layerLost (partWrites e.2 kk ll) kk ll
      else
        let l1 := (List.range (layerElems s kk ll)).map (layerElem s kk ll)
        let sw := accSum (l1.map fun q => q.w)
        let su := accSum (l1.map (updU c))
        let s1 := if c.rule = 0 then applyLayer e.2 kk ll fOne else e.2
        if c.rule = 0 ∧ rdT s kk Reg.TS_LAYER_RWATCH ll = 0 then layerDone s1 kk ll
        else
          let s2 := setLayer s1 kk ll lyCombine
          let lst := layerStacks s kk ll
          let j := lst.idxOf kk
          if j = 0 then partialArrives s2 kk 0 sw su
          else
            let lead := lst.headD 0
            (s2.setTx kk { s2.tx kk with sent := ll :: (s2.tx kk).sent }).send (.stack k) (.stack (Fin.ofNat 16 lead))
              (.wrreq 0 (2 * 2 ^ 48 + lead / 4 * 2 ^ 46 + 0x800000 + 0x40000 * (lead % 4) + 0x100 + 8 * j) (leBytes 4 sw ++ leBytes 4 su)))

/-- R443, R447: pass 2 ends: the results are written and the layer returns to IDLE. -/
def execPass2Complete (k : StackId) (l : Fin 1024) (s : State) : Host.Outcome State Fault Refusal :=
  let kk := k.val
  let ll := l.val
  .next (if (s.tx kk).queue.head? ≠ some ll ∨ layerState s kk ll ≠ lyPass2 then s
    else
      let e := passErrors s kk ll true
      if e.1 then layerLost (partWrites e.2 kk ll) kk ll
      else layerDone (applyLayer e.2 kk ll (smGet fOne (s.tx kk).ratio ll)) kk ll)

/-- R455: a partial is missing at the lead after NTO. -/
def execUpdateTimeout (k : StackId) (l : Fin 1024) (s : State) : Host.Outcome State Fault Refusal :=
  .next (if layerState s k.val l.val = lyCombine ∧ (layerStacks s k.val l.val).head? = some k.val then
      layerLost s k.val l.val else s)

/-- R455: LOST reaches a stack of the view, which stops the layer and returns it to IDLE; what pass 2 had written so far
stands. -/
def execLayerLost (k : StackId) (l : Fin 1024) (s : State) : Host.Outcome State Fault Refusal :=
  let kk := k.val
  let ll := l.val
  .next (if layerState s kk ll = lyIdle then s
    else
      let s1 := if layerState s kk ll = lyLost then s else bumpT (partWrites (dropPartials s kk ll) kk ll) kk Reg.TS_LOST_COUNT
      updStack ({ wrT (setLayer (leaveEngine s1 kk ll) kk ll lyIdle) kk Reg.TS_LAYER_GLINES 0 ll with stepLost := true }) kk)

/-! ## Clock, copies, zeroing, scrubbing -/

/-- Every layer of a stack that is not IDLE is lost (R431, R455, R459). -/
def loseAll (s : State) (k : Nat) : State :=
  ((layersInUse s k).filter fun l => layerState s k l != lyIdle && layerState s k l != lyLost).foldl
    (fun t l => layerLost (partWrites t k l) k l) s

/-- R431: a stack's forwarded clock stops: self-refresh, with its contents kept. -/
def execSelfRefreshEntry (k : StackId) (s : State) : Host.Outcome State Fault Refusal :=
  .next (if rdT s k.val Reg.TS_STAT_STATE = tsUp then loseAll (wrT s k.val Reg.TS_STAT_STATE tsSelfRefresh) k.val else s)

/-- R431: the clock and the CM port are back: the stack leaves self-refresh. -/
def execSelfRefreshExit (k : StackId) (s : State) : Host.Outcome State Fault Refusal :=
  .next (if rdT s k.val Reg.TS_STAT_STATE = tsSelfRefresh ∧ portState s (.stack k) = lkUp then
      wrT s k.val Reg.TS_STAT_STATE tsUp else s)

/-- R454, R459: TS_CMD.COPY; ignored and logged for a layer that is not IDLE. -/
def execCopy (r : Requester) (k : StackId) (l : Fin 1024) (s : State) : Host.Outcome State Fault Refusal :=
  let x := s.tx k.val
  .next (if !mayWrite .any r .die (k.val / 4) ∨ layerState s k.val l.val ≠ lyIdle
        ∨ rdT s k.val Reg.TS_LAYER_EN l.val = 0 ∨ x.copies.contains l.val then
      s.lg LogKind.copyIgnored (stackN k.val) [l.val]
    else s.setTx k.val { x with copies := x.copies ++ [l.val] })

/-- R454: the copy is formed from the stored w; w, m and v are unchanged and the hold ends. -/
def execLayerCopyComplete (k : StackId) (l : Fin 1024) (s : State) : Host.Outcome State Fault Refusal :=
  let x := s.tx k.val
  .next (if x.copies.contains l.val then
      let rg := (layerRegions s k.val l.val).headD (0, 0)
      let s1 := if rg.2 = 0 then s else (badWords s (stackBase k.val + rg.1) rg.2).foldl (stackEcc k.val 2) s
      let s2 := clearMarks (copyLayer s1 k.val l.val (layerRows s k.val l.val)) k.val (((layerRegions s k.val l.val)[3]?).getD (0, 0))
      s2.setTx k.val { s2.tx k.val with copies := x.copies.filter (· ≠ l.val) }
    else s)

/-- R458, R459: TS_CMD.ZERO, module firmware only; a layer that is not IDLE is lost. -/
def execStackZero (r : Requester) (k : StackId) (s : State) : Host.Outcome State Fault Refusal :=
  .next (if !mayWrite .fw r .die (k.val / 4) then s.lg LogKind.ignoredWrite (stackN k.val) [Reg.TS_CMD_ZERO.id]
    else wrT (loseAll s k.val) k.val Reg.TS_STAT_ZEROING 1)

/-- Zeroes a stack with valid check bits. -/
def zeroStack (s : State) (k : Nat) : State :=
  let lo := stackBase k
  { s.zeroRange lo (lo + stackSize) with
    eccBad := s.eccBad.filter fun p => decide (p.1 < lo / 8 ∨ (lo + stackSize) / 8 ≤ p.1) }

/-- R458: zeroing completes, and held cane requests proceed; a clock that stopped meanwhile lets it start again (R459). -/
def execStackZeroComplete (k : StackId) (s : State) : Host.Outcome State Fault Refusal :=
  .next (if rdT s k.val Reg.TS_STAT_ZEROING = 1 ∧ rdT s k.val Reg.TS_STAT_STATE = tsUp then
      wrT (zeroStack s k.val) k.val Reg.TS_STAT_ZEROING 0 else s)

/-- Lines of a pseudo-channel (R429). -/
def pcLines : Nat := 33554432

/-- R457: the scrubber requests the next line of each pseudo-channel. -/
def execStackScrub (k : StackId) (s : State) : Host.Outcome State Fault Refusal :=
  let x := s.tx k.val
  .next (if rdT s k.val Reg.TS_STAT_STATE ≠ tsUp ∨ rdT s k.val Reg.TS_SCRUB_INTV = 0 then s
    else
      let s1 := s.setTx k.val { x with
        scrub := (x.scrub + 1) % pcLines
        scrubs := (List.range 24).foldl (fun m p => smSet [] m p (smGet [] m p ++ [(x.scrub, false)])) x.scrubs }
      if x.scrub + 1 = pcLines then bumpT s1 k.val Reg.TS_SCRUB_PASSES else s1)

end Sys2Proof.Machine
end

