-- ==== Sys2Proof/Machine/Access.lean ====
section
/-! DEFINITION. Accesses from outside a core: the fault rule of the module's address space (R47), write windows of a
scratchpad (R249-R252), locked staging ranges (R380), and the host's reads and writes of scratchpads and stacks (R433,
R473, R474). -/

namespace Sys2Proof.Machine

/-! ## Statuses -/

/-- The status codes of R483 that an access ends with. -/
def acOk : Nat := 0
def acAddr : Nat := 2
def acWindow : Nat := 3
def acNoCredit : Nat := 4
def acLocked : Nat := 8

/-- The sender identity of the hub, and of a core (R249). -/
def hubSender : Nat := 0x100

/-! ## The fault rule -/

/-- True when `n` bytes at an MGA of class 0 or 3 are served (R45-R47, R432): the die has its clock, the core is present
and the offset populated, or the stack's port is up; requests wait while it retrains (R414). -/
def served (s : State) (m n : Nat) : Bool :=
  mgaFormed m &&
    match mgaClass m with
    | 0 => corePresent s (mgaCore m) && !s.rb Reg.BT_CLKSTAT_STOPPED (mgaDie m) && decide (mgaOff25 m + n ≤ spLimit s (mgaCore m))
    | 3 => portReached s (.stack (Fin.ofNat 16 (mgaStack m))) && decide (mgaOff36 m + n ≤ stackSize)
    | _ => false

/-- True when a range of stack memory lies in a locked staging range (R380). -/
def lockedAt (s : State) (m n : Nat) : Bool :=
  mgaClass m == 3 && s.locks.any fun l => decide (m < l.hi ∧ l.lo < m + n)

/-! ## Windows -/

/-- What the windows of a core say to a remote write. -/
inductive WinRes where
  | accept (credit : Option Nat)
  | noCredit
  | fault
deriving DecidableEq, Repr

/-- The check of a remote write against the eight windows (R249, R251): every byte in one enabled window that admits it. -/
def winCheck (s : State) (c : CoreId) (off n sender : Nat) : WinRes :=
  let u := coreU c
  let covers := fun w => s.rb Reg.CP_WIN_EN u w && decide (s.rd Reg.CP_WIN_BASE u w ≤ off / 64)
    && decide ((off + n - 1) / 64 ≤ s.rd Reg.CP_WIN_LIMIT u w)
  let open_ := fun w => covers w && s.rd Reg.CP_WIN_KIND u w == 0 && !s.rb Reg.CP_CFG_SVC u
  let named := fun w => covers w && s.rd Reg.CP_WIN_KIND u w == 1 && s.rd Reg.CP_WIN_SENDER u w == sender
  if (List.range 8).any open_ then .accept none
  else match (List.range 8).find? fun w => named w && decide (n ≤ s.rd Reg.CP_WIN_CREDIT u w) with
    | some w => .accept (some w)
    | none => if (List.range 8).any named then .noCredit else .fault

/-- A write that no window admits is counted while the core has clock (R267). -/
def countWin (s : State) (u : Nat) : State := if s.rd Reg.LH_CSTATE_STATE u < 3 then s.bump Reg.CP_WINFLT_COUNT u else s

/-- A remote write reaches a scratchpad (R249-R252): its status and what it does. -/
def remoteWrite (s : State) (c : CoreId) (off : Nat) (bs : List Byte) (sender : Nat) : Nat × State :=
  let u := coreU c
  if bs.isEmpty then (acOk, s)
  else match winCheck s c off bs.length sender with
    | .accept none => (acOk, spWrite s c off bs rqRw)
    | .accept (some w) =>
      (acOk, spWrite (s.wr Reg.CP_WIN_CREDIT u (s.rd Reg.CP_WIN_CREDIT u w - bs.length) w) c off bs rqRw)
    | .noCredit => (acNoCredit, countWin s u)
    | .fault => 
      (acWindow, noteAt ((countWin s u).lg LogKind.windowFault u [sender, off, bs.length]) (.core c) 0x24
        [sender, off, bs.length])

/-! ## Pieces -/

/-- A run of bytes split at 64-byte lines: offset within the run and bytes (fuel: the number of bytes). -/
def linePieces : Nat → Nat → Nat → Nat → List (Nat × Nat)
  | 0, _, _, _ => []
  | fuel + 1, a, done, n =>
    if n = 0 then []
    else
      let k := min n (64 - a % 64)
      (done, k) :: linePieces fuel (a + k) (done + k) (n - k)

/-- The enabled runs of a write with byte enables: start and bytes (R474). -/
def enabledRuns : Nat → List (Option Byte) → List (Nat × List Byte)
  | _, [] => []
  | a, none :: r => enabledRuns (a + 1) r
  | a, some b :: r =>
    match enabledRuns (a + 1) r with
    | (x, l) :: t => if x = a + 1 then (a, b :: l) :: t else (a, [b]) :: (x, l) :: t
    | [] => [(a, [b])]

/-! ## Writes and reads by the hub -/

/-- The requester of a cane request of the hub: the host's own access, or the sequence-slot engine's (R308). -/
def caneNode : CaneSrc → NodeId
  | .host _ => .hub 4
  | _ => .hub 5

/-- The hub writes bytes of one line at an MGA of class 0 or 3 (R433, R474, R480): windows in a scratchpad, a cane write at a
stack. -/
def hubWrite (s : State) (m : Nat) (bs : List Byte) (src : CaneSrc) : Nat × State :=
  if lockedAt s m bs.length then (acLocked, s)
  else if !served s m bs.length then (acAddr, addrFault s (caneNode src) m)
  else if mgaClass m = 0 then remoteWrite s (mgaCore m) (mgaOff25 m) bs hubSender
  else (acOk, caneReq s (mgaStack m) ⟨true, mgaOff36 m, bs.length, bs, src⟩)

/-- R473: a fault of a BAR2 access is an address fault, recorded in HB_HERR. -/
def bar2Fault (s : State) (m : Nat) : State := addrFault (hostErr s 1 0) (.hub 4) m

/-- The MGA of a BAR2 offset (R473): none through a disabled aperture or one of another class, before READY (R558), or while
the module is UNOWNED (R571). -/
def bar2Mga (s : State) (o : Nat) : Option Nat :=
  let a := bits o 32 4
  let m := s.rd Reg.HB_WIN_BASE 0 a * 2 ^ 32 + bits o 0 32
  if s.rb Reg.HB_WIN_EN 0 a && s.rb Reg.BT_STAT_READY 0 && s.rd Reg.BT_STAT_OWNER 0 != 0 && (mgaClass m == 0 || mgaClass m == 3) then some m else none

/-- What the endpoint does with a memory request (R469, R476): serves it, completes it with Unsupported Request, or, with
the link down or in D3hot, never sees it. -/
def hostRequest (s : State) (k : State → State) : State :=
  if !s.host.link || s.host.d3 then s else if hostOpen s then k s else s.emit .unsupported

/-- R473, R474: a host read through an aperture. A scratchpad answers at once; a read of a stack is answered when the cane reads of
its lines have been granted. A zero-length read returns one doubleword of open value. An error met in a scratchpad names RW (DESIGN CHOICE,
notes/assumptions/97). -/
def execBar2Read (o : BitVec 36) (n : Nat) (s : State) : Host.Outcome State Fault Refusal :=
  .next (hostRequest s fun s =>
    if n = 0 then { s.emit (.words [Config.freeValue s.free % 2 ^ 32]) with free := s.free + 1 }
    else match bar2Mga s o.toNat with
      | none => (bar2Fault s o.toNat).emit (.data (List.replicate n 255))
      | some m =>
        if !served s m n then (bar2Fault s m).emit (.data (List.replicate n 255))
        else if mgaClass m = 0 then
          let r := spRead s (mgaCore m) (mgaOff25 m) n rqRw
          r.2.emit (.data r.1)
        else
          let ps := linePieces n m 0 n
          let ask : HostAsk := { offs := ps.map fun p => mgaOff36 m + p.1 }
          ps.foldl (fun t p => caneReq t (mgaStack m) ⟨false, mgaOff36 m + p.1, p.2, [], .host s.hostId⟩)
            { s with hostId := s.hostId + 1, host := { s.host with asks := smSet {} s.host.asks s.hostId ask } })

/-- R473, R474: a host write through an aperture, with byte enables; each run of enabled bytes of a line is one access. -/
def execBar2Write (o : BitVec 36) (data : List (Option Byte)) (s : State) : Host.Outcome State Fault Refusal :=
  .next (hostRequest s fun s =>
    if data.all Option.isNone then s
    else match bar2Mga s o.toNat with
      | none => bar2Fault s o.toNat
      | some m =>
        (enabledRuns 0 data).foldl (fun t run =>
          (linePieces run.2.length (m + run.1) 0 run.2.length).foldl (fun t p =>
            let r := hubWrite t (m + run.1 + p.1) ((run.2.drop p.1).take p.2) (.host 0)
            if r.1 = acAddr then hostErr r.2 1 0 else if r.1 = acLocked then bar2Fault r.2 (m + run.1 + p.1) else r.2) t) s)

end Sys2Proof.Machine
end

