-- ==== Sys2Proof/Machine/Hub.lean ====
section
/-! DEFINITION. The hub and its host interface (R465-R499): resets of the interface, doorbells and rings, the operations
of the sequence slots, records, held steps and mailboxes. -/

namespace Sys2Proof.Machine

/-! ## Disabling and enabling slots -/

/-- Drops the cane requests of a copy from a host address on. -/
def dropCopy (s : State) (n uid : Nat) (keep : Nat) : State :=
  (List.range 16).foldl (fun t k =>
    let x := t.tx k
    t.setTx k { x with cane := x.cane.filter fun r => match r.src with
      | .copy m u h => !(m == n && u == uid && decide (h ≥ keep))
      | _ => true }) s

/-- Drops every request of a copy that has ended. -/
def endCopy (s : State) (n uid : Nat) : State :=
  dropCopy { s with hostReads := s.hostReads.filter fun q => match q.what with
    | .copy m u _ => !(m == n && u == uid)
    | _ => true } n uid 0

/-- The host address, or for a copy in the offset from it, that ends the 4 KiB a copy is moving. -/
def copyStop (r : SlotRun) : Nat := r.ent.haddr + (r.done / 4096 + 1) * 4096

/-- True while a copy has cane requests or a host read outstanding. -/
def copyBusy (s : State) (n uid : Nat) : Bool :=
  (s.hostReads.any fun q => match q.what with
    | .copy m u _ => m == n && u == uid
    | _ => false)
  || (List.range 16).any fun k => (s.tx k).cane.any fun r => match r.src with
    | .copy m u _ => m == n && u == uid
    | _ => false

/-- Disables a slot (R487): a gated record is discarded; a copy in flight finishes its current 4 KiB, while the slot is DISABLING; every
other entry's record is written CANCELLED while the ring has room, and counted where it does not fit. After a reset of the interface
(`link` false) no host read of a copy returns. -/
def disableSlot (link : Bool) (s : State) (n : Nat) : State :=
  if s.rd Reg.HB_SLOT_STATE 0 n = slDisabled ∨ (s.rd Reg.HB_SLOT_STATE 0 n = slDisabling ∧ link) then s
  else
    let x := s.slx n
    let copy := fun r : SlotRun => r.ent.opc == opCopyIn || r.ent.opc == opCopyOut
    let s1 := (x.running.filter copy).foldl (fun t r => dropCopy t n r.uid (copyStop r)) s
    let s2 := { s1 with hostReads := s1.hostReads.filter fun q => match q.what with
      | .entry m => m != n
      | .copy m u _ => m != n || (link && x.running.any fun r => r.uid == u && copy r)
      | _ => true }
    let busy := x.running.filter fun r => copy r && r.fault.isNone && copyBusy s2 n r.uid
    let gone := x.running.filter fun r => r.gate.isNone && !busy.contains r
    let s3 := s2.setSlx n { x with waiting := [], running := busy, asked := 0 }
    let ends : List (SqEntry × Nat) := gone.map (fun r => (r.ent, if copy r then r.done else 0)) ++ x.waiting.map fun e => (e, 0)
    let s4 := ends.foldl (fun t e =>
      if cqRoom t n = 0 then t.bump Reg.HB_SLOT_DROPPED 0 1 n else writeRecord t n e.1 10 0 e.2) s3
    (s4.wr Reg.HB_SLOT_STATE 0 (if busy.isEmpty then slDisabled else slDisabling) n).wb Reg.HB_SLOT_EN 0 false n

/-- R487: EN of a slot is cleared. -/
def execSlotDisable (r : Requester) (slot : Fin 64) (s : State) : Host.Outcome State Fault Refusal :=
  .next (if mayWrite .any r .hub 0 && decide (slot.val < s.rd Reg.HB_ID_SLOTS 0) then disableSlot true s slot.val else s)

/-- R477: EN of a slot is set: ignored and logged above the licensed count, refused for a size of 9 to 15, without effect on
an enabled slot; one that is still being disabled ignores it (DEDUCED, notes/assumptions/105). -/
def execSlotEnable (r : Requester) (slot : Fin 64) (s : State) : Host.Outcome State Fault Refusal :=
  let n := slot.val
  .next (if s.rd Reg.HB_ID_SLOTS 0 ≤ n ∨ !mayWrite .any r .hub 0 then s.lg LogKind.ignoredWrite hubN [n, Reg.HB_SLOT_EN.id]
    else if s.rb Reg.HB_SLOT_EN 0 n then s
    else if s.rd Reg.HB_SLOT_STATE 0 n = slDisabling then s.lg LogKind.ignoredWrite hubN [n, Reg.HB_SLOT_EN.id]
    else if s.rd Reg.HB_SLOT_SQSIZE 0 n > 8 ∨ s.rd Reg.HB_SLOT_CQSIZE 0 n > 8 then
      (hostErr s 3 n).lg LogKind.slotRefused hubN [n]
    else
      let s1 := ((s.wr Reg.HB_SLOT_SQTAIL 0 0 n).wr Reg.HB_SLOT_SQHEAD 0 0 n).wr Reg.HB_SLOT_CQTAIL 0 0 n
      let s2 := ((s1.wr Reg.HB_SLOT_CQHEAD 0 0 n).wr Reg.HB_SLOT_WPHASE 0 1 n).wb Reg.HB_SLOT_EN 0 true n
      s2.wr Reg.HB_SLOT_STATE 0 slEnabled n)

/-! ## Resets of the host interface (R468, R469) -/

/-- Returns every instance of a field to its reset value. -/
def resetField (s : State) (F : Field) : State :=
  (List.range F.n1).foldl (fun t i => (List.range F.n2).foldl (fun t j => t.wr F 0 (fieldReset F 0 i) i j) t) s

/-- The registers the reset of the host interface returns to their reset values (R468). -/
def hostRegs : List Field :=
  [Reg.HB_WIN_EN, Reg.HB_WIN_BASE, Reg.HB_PAGE_EN, Reg.HB_PAGE_CLASS, Reg.HB_PAGE_DIE, Reg.HB_PAGE_LCORE,
   Reg.HB_HRANGE_EN, Reg.HB_HRANGE_BASE_LO, Reg.HB_HRANGE_BASE_HI, Reg.HB_HRANGE_LIMIT_LO, Reg.HB_HRANGE_LIMIT_HI,
   Reg.HB_MBCTL_LEN, Reg.HB_MBCTL_PUBLISHED, Reg.HB_MBCTL_WAITING, Reg.HB_MB_WORD]

/-- Resets the host interface only: the slots are disabled, steps are held, its registers return to reset and its
endpoint ID on PCIe VDM to 0 (R583). -/
def resetHost (s : State) : State :=
  let s1 := (List.range 64).foldl (disableSlot false) s
  let s2 := hostRegs.foldl resetField ((s1.wb Reg.HB_STEPCTL_HOLD 0 true).wr Reg.HB_MGMT_EID_VDM 0 0)
  { s2 with mails := [], host := { s2.host with asks := [], vecs := [] } }

/-- R468: Function Level Reset. -/
def execFunctionLevelReset (s : State) : Host.Outcome State Fault Refusal := .next (resetHost s)

/-- R468: hot reset. -/
def execHotReset (s : State) : Host.Outcome State Fault Refusal := .next (resetHost s)

/-- The link goes down, with the resets of R468. -/
def linkDown (s : State) : State :=
  let t := resetHost s
  { t with host := { t.host with link := false } }

/-- R468: link down. -/
def execLinkDown (s : State) : Host.Outcome State Fault Refusal := .next (linkDown s)

/-- R469: D3hot: the slots are disabled and the interface is left as R468 leaves it; only configuration requests are
accepted. -/
def execD3hotEntry (s : State) : Host.Outcome State Fault Refusal :=
  let t := resetHost s
  .next { t with host := { t.host with d3 := true } }

/-- R469: return to D0. -/
def execD0Return (s : State) : Host.Outcome State Fault Refusal := .next { s with host := { s.host with d3 := false } }

/-- R465, R597: a hub Punty's watchdog lapses; it is reset and the event is logged. Jacks on Punty 2 ends its command without
status and discards the input it holds. -/
def execPuntyWatchdog (p : Fin 4) (s : State) : Host.Outcome State Fault Refusal :=
  let s1 := s.lg LogKind.puntyReset (512 + p.val) [if p.val = 0 then 1 else 0]
  .next (if p.val = 2 then
      { s1.wb Reg.JK_STAT_BUSY 0 false with manage := { s1.manage with held := [], scan := none } }
    else s1)

/-! ## Fetching -/

/-- Fetches the entries the tail announces, up to 4 KiB and the end of the ring, one read at a time and while a record has
room (R485, R486). -/
def fetchMore (s : State) (n : Nat) : State :=
  let x := s.slx n
  let head := s.rd Reg.HB_SLOT_SQHEAD 0 n
  let tail := s.rd Reg.HB_SLOT_SQTAIL 0 n
  let k := min 64 (if head ≤ tail then tail - head else sqSize s n - head)
  if s.rd Reg.HB_SLOT_STATE 0 n ≠ slEnabled ∨ x.asked ≠ 0 ∨ k = 0 ∨ cqRoom s n = 0 ∨ !hostOpen s then s
  else hostRead (s.setSlx n { x with asked := k })
    (s.rd64 Reg.HB_SLOT_SQBASE_LO Reg.HB_SLOT_SQBASE_HI 0 n + 64 * head) (64 * k) (.entry n)

/-- A slot enters FAULTED (R470, R486). -/
def slotFault (s : State) (n reason : Nat) : State :=
  signal ((s.wr Reg.HB_SLOT_STATE 0 slFaulted n).wr Reg.HB_SLOT_REASON 0 reason n) 67

/-- A doorbell of a slot is heard after READY (R558) where the slot is licensed (R6) and enabled; otherwise it is discarded, and logged:
above the licensed count in the fault log. -/
def doorbell (s : State) (n : Nat) (k : State → State) : State :=
  hostRequest s fun s =>
    if !s.rb Reg.BT_STAT_READY 0 then s
    else if decide (n < s.rd Reg.HB_ID_SLOTS 0) && s.rd Reg.HB_SLOT_STATE 0 n == slEnabled then k s
    else
      let t := s.lg LogKind.doorbellDropped hubN [n]
      if n < s.rd Reg.HB_ID_SLOTS 0 then t else noteAt t (.hub 5) (Config.eventCode 0) [n]

/-- R486: the submission tail doorbell. -/
def execSqTailDoorbell (slot : Fin 64) (t : Word) (s : State) : Host.Outcome State Fault Refusal :=
  let n := slot.val
  .next (doorbell s n fun s =>
    if t.toNat = s.rd Reg.HB_SLOT_SQTAIL 0 n then s
    else if t.toNat ≥ sqSize s n then slotFault (hostErr s 3 n) n 1
    else fetchMore (s.wr Reg.HB_SLOT_SQTAIL 0 t.toNat n) n)

/-- R486: the completion head doorbell; beyond the records written it faults the slot. -/
def execCqHeadDoorbell (slot : Fin 64) (h : Word) (s : State) : Host.Outcome State Fault Refusal :=
  let n := slot.val
  .next (doorbell s n fun s =>
    let z := cqSize s n
    let head := s.rd Reg.HB_SLOT_CQHEAD 0 n
    if h.toNat = head then s
    else if h.toNat ≥ z ∨ (h.toNat + z - head) % z > (s.rd Reg.HB_SLOT_CQTAIL 0 n + z - head) % z then
      slotFault (hostErr s 3 n) n 1
    else fetchMore (s.wr Reg.HB_SLOT_CQHEAD 0 h.toNat n) n)

/-- Word `k` of an entry. -/
def entWord (bs : List Byte) (k : Nat) : Nat := ofLeBytes ((bs.drop (4 * k)).take 4)

/-- A submission entry from its 64 bytes (R478). -/
def parseEntry (bs : List Byte) : SqEntry :=
  let w0 := entWord bs 0
  { opc := bits w0 0 8, irq := bit w0 8, fence := bit w0 9, tag := bits w0 16 16, len := entWord bs 1
    haddr := entWord bs 2 + 2 ^ 32 * entWord bs 3, mga := entWord bs 4 + 2 ^ 32 * (entWord bs 5 % 2 ^ 20)
    arg := entWord bs 6, arg2 := entWord bs 7, data := (List.range 4).map fun k => entWord bs (8 + k)
    bad := bits w0 10 6 != 0 || bits (entWord bs 5) 20 12 != 0 || (List.range 4).any fun k => entWord bs (12 + k) != 0 }

/-- The entries of a completed read reach the slot. -/
def entriesArrive (s : State) (n : Nat) (data : List Byte) : State :=
  let x := s.slx n
  let k := x.asked
  if k = 0 then s
  else
    let es := (List.range k).map fun i => parseEntry ((data.drop (64 * i)).take 64)
    let s1 := s.setSlx n { x with waiting := x.waiting ++ es, asked := 0 }
    fetchMore (s1.wr Reg.HB_SLOT_SQHEAD 0 ((s.rd Reg.HB_SLOT_SQHEAD 0 n + k) % sqSize s n) n) n

/-- Removes a host read. -/
def dropRead (s : State) (id : Nat) : State := { s with hostReads := s.hostReads.filter fun q => q.id != id }

/-- R486: a DMA read of submission entries returns. -/
def execEntryFetch (slot : Fin 64) (data : List Byte) (s : State) : Host.Outcome State Fault Refusal :=
  .next (match s.hostReads.find? fun q => q.what == .entry slot.val with
    | some q => entriesArrive (dropRead s q.id) slot.val data
    | none => s)

/-! ## Starting entries -/

/-- True when every field an operation does not use is 0 (R478, R479). -/
def unusedZero (e : SqEntry) : Bool :=
  let noData := e.data.all (· == 0)
  !e.bad && match e.opc with
    | 0 => e.len == 0 && e.haddr == 0 && e.mga == 0 && e.arg == 0 && e.arg2 == 0 && noData
    | 1 => decide (e.arg ≤ 1) && e.arg2 == 0 && noData
    | 2 => e.arg == 0 && e.arg2 == 0 && noData
    | 3 => e.len == 0 && e.haddr == 0 && e.mga == 0 && e.arg2 == 0
    | 4 => e.mga == 0 && e.arg2 == 0 && noData
    | 5 => e.len == 0 && e.haddr == 0 && e.mga == 0 && decide (e.arg < 2 ^ 17) && e.arg2 == 0 && noData
    | 6 => e.len == 0 && e.haddr == 0 && e.mga == 0 && noData
    | 7 => e.haddr == 0 && e.mga == 0 && e.arg == 0 && e.arg2 == 0 && noData
    | 8 => e.len == 0 && e.haddr == 0 && e.mga == 0 && decide (e.arg ≤ 3) && decide (e.arg2 < 16) && noData
    | _ => false

/-- True when an entry keeps its row of R479. -/
def entryOk (e : SqEntry) : Bool :=
  unusedZero e && match e.opc with
    | 1 => e.len % 64 == 0 && e.haddr % 64 == 0 && e.mga % 64 == 0 && (mgaClass e.mga == 0 || mgaClass e.mga == 3)
    | 2 => e.len % 64 == 0 && e.haddr % 64 == 0 && e.mga % 64 == 0 && (mgaClass e.mga == 0 || mgaClass e.mga == 3)
    | 7 => decide (1 ≤ e.len ∧ e.len ≤ 65535)
    | _ => true

/-- Starts the next entry of a slot where it is the operation asked for (R480, R485): in ring order, a fenced one after
every earlier entry has completed, and with room for its record; one that breaks its row completes BAD_ENTRY. -/
def startEntry (s : State) (slot : Fin 64) (is : SqEntry → Bool) (k : State → Nat → SlotRun → State) : State :=
  let n := slot.val
  let x := s.slx n
  match x.waiting with
  | [] => s
  | e :: rest =>
    if !is e || s.rd Reg.HB_SLOT_STATE 0 n != slEnabled || !startRoom s n || (e.fence && !x.running.isEmpty) then s
    else
      let r : SlotRun := { uid := x.uid, ent := e }
      let s1 := s.setSlx n { x with waiting := rest, running := x.running ++ [r], uid := x.uid + 1 }
      if entryOk e then k s1 n r else finishRunOf s1 n r 1 0 0

/-- R479: NOP; an entry of no operation at all completes BAD_ENTRY here. -/
def execSqNop (slot : Fin 64) (s : State) : Host.Outcome State Fault Refusal :=
  .next (startEntry s slot (fun e => e.opc == opNop || decide (e.opc > opQuery)) fun t n r => finishRunOf t n r 0 0 0)

/-! ## Copies -/

/-- The 64-byte lines of a transfer of `n` bytes. -/
def copyLines (n : Nat) : List Nat := (List.range (n / 64)).map (64 * ·)

/-- The host address of a line of a copy, admitted by a host range (R497). -/
def copyHost (s : State) (e : SqEntry) (o : Nat) : Bool := hostAdmits s (e.haddr + o) 64

/-- Writes one line of a copy into the module; a fault stops it there (R483). -/
def copyLine1 (n : Nat) (r : SlotRun) (bs : Nat → List Byte) (s : State) (o : Nat) : State :=
  match ((s.slx n).running.find? fun q => q.uid == r.uid).bind fun q => q.fault with
  | some _ => s
  | none =>
    let w := hubWrite s (r.ent.mga + o) (bs o) (.copy n r.uid (r.ent.haddr + o))
    if w.1 ≠ acOk then copyFail w.2 n r.uid w.1 o
    else if mgaClass r.ent.mga = 0 then copyMoved w.2 n r.uid 64 else w.2

/-- Asks the host for the next 4 KiB of a copy in, or of a ring record. -/
def copyAsk (s : State) (n : Nat) (r : SlotRun) (o : Nat) : State :=
  let k := min 4096 (r.ent.len - o)
  if k = 0 then s
  else if !(List.range ((k + 63) / 64)).all fun j => hostAdmits s (r.ent.haddr + o + 64 * j) (min 64 (k - 64 * j)) then
    copyFail s n r.uid acAddr o
  else hostRead s (r.ent.haddr + o) k (.copy n r.uid o)

/-- R479: COPY_IN: the host is read 4 KiB at a time. -/
def execCopyIn (slot : Fin 64) (s : State) : Host.Outcome State Fault Refusal :=
  .next (startEntry s slot (fun e => e.opc == opCopyIn && e.arg % 2 == 0) fun t n r => copyAsk t n r 0)

/-- R481: COPY_IN with ZFILL: zeros are written and nothing is read from the host. -/
def execZfill (slot : Fin 64) (s : State) : Host.Outcome State Fault Refusal :=
  .next (startEntry s slot (fun e => e.opc == opCopyIn && e.arg % 2 == 1) fun t n r =>
    (copyLines r.ent.len).foldl (copyLine1 n r fun _ => List.replicate 64 0) t)

/-- Reads one line of a copy out; a scratchpad line goes to the host at once, a stack line when it is granted. -/
def copyOut1 (n : Nat) (r : SlotRun) (s : State) (o : Nat) : State :=
  match ((s.slx n).running.find? fun q => q.uid == r.uid).bind fun q => q.fault with
  | some _ => s
  | none =>
    let m := r.ent.mga + o
    if !copyHost s r.ent o || !served s m 64 then copyFail s n r.uid acAddr o
    else if mgaClass m = 0 then
      let q := spRead s (mgaCore m) (mgaOff25 m) 64 rqRw
      copyMoved (q.2.emit (.hostWrite (r.ent.haddr + o) q.1)) n r.uid 64
    else caneReq s (mgaStack m) ⟨false, mgaOff36 m, 64, [], .copy n r.uid (r.ent.haddr + o)⟩

/-- R479: COPY_OUT. -/
def execCopyOut (slot : Fin 64) (s : State) : Host.Outcome State Fault Refusal :=
  .next (startEntry s slot (fun e => e.opc == opCopyOut) fun t n r => (copyLines r.ent.len).foldl (copyOut1 n r) t)

/-- R483, R487: the first copy of a slot that has moved every byte, has stopped at a fault, or has finished its last 4 KiB while the slot
is being disabled, ends: its record gives the bytes moved. -/
def execHostCopyComplete (slot : Fin 64) (s : State) : Host.Outcome State Fault Refusal :=
  let n := slot.val
  .next (match (s.slx n).running.find? fun r => (r.ent.opc == opCopyIn || r.ent.opc == opCopyOut)
        && (r.fault.isSome || (!copyBusy s n r.uid
          && (decide (r.done ≥ r.ent.len) || s.rd Reg.HB_SLOT_STATE 0 n == slDisabling))) with
    | none => s
    | some r =>
      if s.rd Reg.HB_SLOT_STATE 0 n = slDisabling then finishRunOf (endCopy s n r.uid) n r 10 0 r.done
      else match r.fault with
      | some f => finishRunOf (endCopy s n r.uid) n r f.1 0 f.2
      | none => finishRunOf s n r 0 0 r.ent.len)

/-- Asks for the next part of a ring record; an address the host ranges do not allow ends the entry. -/
def sendrAsk (s : State) (n : Nat) (r : SlotRun) : State :=
  let t := copyAsk s n r r.data.length
  match ((t.slx n).running.find? fun q => q.uid == r.uid).bind fun q => q.fault with
  | some f => finishRunOf t n r f.1 0 0
  | none => t

/-- Data of a host read of a copy or of a ring record arrive. -/
def copyData (s : State) (n uid o : Nat) (data : List Byte) : State :=
  match (s.slx n).running.find? fun r => r.uid == uid with
  | none => s
  | some r =>
    if r.ent.opc = opSendr then
      let r1 := { r with data := r.data ++ data }
      let s1 := setRun s n r1
      if r1.data.length < r.ent.len then sendrAsk s1 n r1 else hubTry s1 n r1
    else
      let t := (copyLines data.length).foldl (fun t l => copyLine1 n r (fun x => (data.drop (x - o)).take 64) t (o + l)) s
      if s.rd Reg.HB_SLOT_STATE 0 n = slDisabling then t else copyAsk t n r (o + data.length)

/-! ## Completions from the host (R470) -/

/-- A host read fails (R470): a fetch faults its slot, a copy ends HOST_ERR, a stream's run ends as an address fault. -/
def readFails (s : State) (q : HostRead) : State :=
  let s1 := (hostErr (dropRead s q.id) 4 (match q.what with | .entry n => n | .copy n _ _ => n | _ => 0)).lg
    LogKind.hostRead hubN [q.addr]
  match q.what with
  | .entry n => slotFault (s1.setSlx n { s1.slx n with asked := 0 }) n 2
  | .stream d i n => lineFails s1 (Fin.ofNat 4 d) i n
  | .copy n uid o => match (s1.slx n).running.find? fun r => r.uid == uid with
    | some r => if r.ent.opc = opSendr then finishRunOf s1 n r 9 0 0 else copyFail s1 n uid 9 o
    | none => s1

/-- R470: a host completion arrives: data, Unsupported Request or Completer Abort. -/
def execHostCompletion (id : Nat) (c : Completion) (s : State) : Host.Outcome State Fault Refusal :=
  .next (match s.hostReads.find? fun q => q.id == id, c with
    | none, _ => s
    | some q, .data bs =>
      let s1 := dropRead s id
      match q.what with
      | .entry n => entriesArrive s1 n bs
      | .stream d i k => lineArrives s1 (Fin.ofNat 4 d) i k bs
      | .copy n uid o => copyData s1 n uid o bs
    | some q, .ur => readFails s q
    | some q, .ca => readFails s q)

/-- R470: no completion within the timeout in force. -/
def execCompletionTimeout (id : Nat) (s : State) : Host.Outcome State Fault Refusal :=
  .next (match s.hostReads.find? fun q => q.id == id with
    | some q => readFails s q
    | none => s)

/-- The IDE stream leaves the secure state (R476): the copy engine stops and its transfers complete HOST_ERR. -/
def ideLost (s : State) : State :=
  let s1 := s.wb Reg.HB_HOSTCFG_IDE_OK 0 false
  (runsOf s1 fun r => r.ent.opc == opCopyIn || r.ent.opc == opCopyOut || (r.ent.opc == opSendr && decide (r.data.length < r.ent.len))).foldl (fun t p =>
    finishRunOf (endCopy t p.1 p.2.uid) p.1 p.2 9 0 p.2.done) s1

/-- R476: the secure state is lost. -/
def execIdeSecureLoss (s : State) : Host.Outcome State Fault Refusal := .next (ideLost s)

/-! ## Messages and waits -/

/-- R479: SEND. -/
def execSend (slot : Fin 64) (s : State) : Host.Outcome State Fault Refusal :=
  .next (startEntry s slot (fun e => e.opc == opSend) hubTry)

/-- R479: SENDR: the record is read from the host, then placed. -/
def execSendr (slot : Fin 64) (s : State) : Host.Outcome State Fault Refusal :=
  .next (startEntry s slot (fun e => e.opc == opSendr) fun t n r =>
    if r.ent.len = 0 then hubTry t n r else sendrAsk t n r)

/-- R480: a SEND or SENDR has waited SENDTO for credit. -/
def execSendtoExpiry (slot : Fin 64) (tag : BitVec 16) (s : State) : Host.Outcome State Fault Refusal :=
  .next (match (s.slx slot.val).running.find? fun r =>
      (r.ent.opc == opSend || (r.ent.opc == opSendr && decide (r.data.length ≥ r.ent.len))) && r.ent.tag == tag.toNat with
    | some r => finishRunOf s slot.val r 4 0 r.ent.arg
    | none => s)

/-- R479: AWAIT_RUN waits for the next completed run of its stream. -/
def execAwaitRun (slot : Fin 64) (s : State) : Host.Outcome State Fault Refusal :=
  .next (startEntry s slot (fun e => e.opc == opAwaitRun) fun t _ _ => t)

/-- The step a STEP_WAIT names. -/
def waitStep (e : SqEntry) : Nat := e.arg + 2 ^ 32 * e.arg2

/-- R479: STEP_WAIT waits for the boundary that ends its step; one already past ends at once. -/
def execStepWait (slot : Fin 64) (s : State) : Host.Outcome State Fault Refusal :=
  .next (startEntry s slot (fun e => e.opc == opStepWait) fun t n r =>
    if waitStep r.ent < t.rd Reg.PZ_STEP_STEP 0 0 + 2 ^ 32 * t.rd Reg.PZ_STEP_STEP 0 1 then finishRunOf t n r 0 0 r.ent.arg
    else t)

/-- The end of a step completes what waits for it (R479, R482). -/
def stepEnds (s : State) (step flags : Nat) : State :=
  (runsOf s fun r => r.ent.opc == opStepWait && waitStep r.ent == step).foldl
    (fun t p => finishRunOf t p.1 p.2 0 flags (step % 2 ^ 32)) s

/-! ## Holding steps (R490) -/

/-- Releases phase 0 of the step to every gather that no reload withholds (R375, R387). -/
def releaseStep (s : State) : State :=
  (definedGathers s).foldl (fun t g =>
    let x := t.gx g
    let st := t.rd Reg.PZ_GATHER_STATE g.die.val g.idx.val
    if st = gsRun ∧ !x.withheld then beginStep t g
    else if st = gsWaiting then t.setGx g { x with withheld := true }
    else t) (s.wb Reg.HB_STEPCTL_HELD 0 false)

/-- Spends a banked release on a withheld step, or releases it where steps are no longer held. -/
def spendRelease (s : State) : State :=
  if !s.rb Reg.HB_STEPCTL_HELD 0 then s
  else if !s.rb Reg.HB_STEPCTL_HOLD 0 then releaseStep s
  else if s.rd Reg.HB_STEPCTL_BANK 0 ≠ 0 then releaseStep (s.wr Reg.HB_STEPCTL_BANK 0 (s.rd Reg.HB_STEPCTL_BANK 0 - 1))
  else s

/-- Banks releases: at most 65,535, the excess discarded and logged. -/
def bankSteps (s : State) (k : Nat) : State :=
  let b := s.rd Reg.HB_STEPCTL_BANK 0 + k
  let s1 := if b > 65535 then s.lg LogKind.bankFull hubN [b - 65535] else s
  spendRelease (s1.wr Reg.HB_STEPCTL_BANK 0 (min b 65535))

/-- R479: STEP_GO banks LEN releases. -/
def execStepGo (slot : Fin 64) (s : State) : Host.Outcome State Fault Refusal :=
  .next (startEntry s slot (fun e => e.opc == opStepGo) fun t n r => finishRunOf (bankSteps t r.ent.len) n r 0 0 0)

/-- R490: HOLD is written; clearing it releases a withheld step. -/
def execStepHoldWrite (r : Requester) (v : Bool) (s : State) : Host.Outcome State Fault Refusal :=
  .next (if mayWrite .any r .hub 0 then spendRelease (s.wb Reg.HB_STEPCTL_HOLD 0 v) else s)

/-- R490: a write of 1 to GO banks one release. -/
def execStepctlGo (r : Requester) (s : State) : Host.Outcome State Fault Refusal :=
  .next (if mayWrite .any r .hub 0 then bankSteps s 1 else s)

/-- R489: the moderation time of a slot has passed since its oldest unsignalled record. -/
def execIrqModerationTimeout (slot : Fin 64) (s : State) : Host.Outcome State Fault Refusal :=
  let x := s.slx slot.val
  .next (if x.irqs = 0 ∨ s.rd Reg.HB_SLOT_IMODT 0 slot.val = 0 then s
    else signal (s.setSlx slot.val { x with irqs := 0 }) slot.val)

/-! ## Mailboxes (R491, R492) -/

/-- R491: COMMIT, by cores and module firmware only. -/
def execMailboxCommit (r : Requester) (m : Fin 16) (tag : Option (Gather × BitVec 16)) (s : State) :
    Host.Outcome State Fault Refusal :=
  .next (if mayWrite .corefw r .hub 0 then
      commitMail s m.val (s.rd Reg.HB_MBCTL_LEN 0 m.val) (tag.map fun p => (p.1, p.2.toNat))
    else s.lg LogKind.ignoredWrite hubN [m.val, Reg.HB_MBCTL_COMMIT.id])

/-- The queries that wait for a mailbox's publication complete (R479). -/
def endQueries (s : State) (m : Nat) : State :=
  if (s.mbx m).commit.isSome then s
  else (runsOf s fun r => r.ent.opc == opQuery && r.ent.arg2 == m).foldl (fun t p => finishRunOf t p.1 p.2 0 0 0) s

/-- R492: RELEASE, by host software only; a commit that waits is published then. -/
def execMailboxRelease (r : Requester) (m : Fin 16) (s : State) : Host.Outcome State Fault Refusal :=
  .next (if mayWrite .host r .hub 0 then
      endQueries (publish (s.wb Reg.HB_MBCTL_PUBLISHED 0 false m.val) m.val 0) m.val
    else s.lg LogKind.ignoredWrite hubN [m.val, Reg.HB_MBCTL_RELEASE.id])

/-- R492: a read of word 0 of a mailbox. -/
def execMailboxStatusRead (m : Fin 16) (s : State) : Host.Outcome State Fault Refusal :=
  .next (hostRequest s fun s => match csrRead s .hub 0 (0x10000 + 0x400 * m.val) with
    | some (v, t) => t.emit (.words [v])
    | none => s)

/-! ## Verdicts at the sequence-slot engine (R466) -/

/-- A verdict reaches the sequence-slot engine: SEAL opens the gate of the phase, RECALL clears what waits for it. -/
def verdictSlots (s : State) (v : VerdictMsg) : State :=
  let q := v.seq.toNat
  if v.recalled then recallMails (recallRuns s v.g q) v.g q else sealMails (sealRuns s v.g q) v.g q

/-- R168, R169, R466: a verdict packet reaches a core, a consumer gather or the sequence-slot engine. -/
def execVerdict (dest : VerdictTo) (v : VerdictMsg) (s : State) : Host.Outcome State Fault Refusal :=
  .next (match dest with
    | .core c =>
      if s.rb Reg.BT_CLKSTAT_STOPPED c.die.val then s else
      let s1 := retrySend (verdictCore s c v) c
      if cstateOf s1 c < 3 then s1 else startWakes s1 c.die [c] false
    | .gather g => if s.rb Reg.BT_CLKSTAT_STOPPED g.die.val then s else verdictGather s g v
    | .slots => verdictSlots s v)

end Sys2Proof.Machine
end

