-- ==== Sys2Proof/Machine/Power.lean ====
section
/-! DEFINITION. The Lehr and the module clock (R43, R50-R64, R500-R528): ratio changes, margins, estimates, calibration,
sense pairs, staging of power-ups, the input cap and its steps. -/

namespace Sys2Proof.Machine

/-- A quotient as a register shows it: exact where it is a whole number; otherwise the spec states no rounding, and one of
the two neighbours is a free value. -/
def openRound (s : State) (num den : Nat) : Nat × State :=
  if num % den = 0 then (num / den, s)
  else (num / den + Config.freeValue s.free % 2, { s with free := s.free + 1 })

/-! ## The module reference (R50, R51) and straps (R43) -/

/-- R43: a change of the SLOT_ID pins while running is ignored and logged. -/
def execSlotIdChange (slot : BitVec 4) (s : State) : Host.Outcome State Fault Refusal :=
  .next ({ s with chip := { s.chip with slotPin := slot.toNat } }.lg LogKind.strapIgnored hubN [slot.toNat])

/-- R50, R51: the reference is lost; HCLK is held in holdover. -/
def execRefLost (s : State) : Host.Outcome State Fault Refusal :=
  .next (if s.rb Reg.HB_CLKSTAT_HOLDOVER 0 || !s.rb Reg.HB_CLKSTAT_PLL_LOCK 0 then s
    else
      let s1 := ((s.wb Reg.HB_CLKSTAT_REF_OK 0 false).wb Reg.HB_CLKSTAT_PLL_LOCK 0 false).wb Reg.HB_CLKSTAT_HOLDOVER 0 true
      let s2 := { s1.wr Reg.HB_CLKSTAT_HOLD_SEC 0 0 with chip := { s.chip with holdAt := some s.hclk } }
      signal (s2.lg LogKind.refLost hubN []) 68)

/-- R51: the holdover has lasted 60 s: every trained span port is taken down. -/
def execHoldExpired (s : State) : Host.Outcome State Fault Refusal :=
  .next (if !s.rb Reg.HB_CLKSTAT_HOLDOVER 0 || s.rb Reg.HB_CLKSTAT_HOLD_EXPIRED 0 then s
    else
      let s1 := (s.wb Reg.HB_CLKSTAT_HOLD_EXPIRED 0 true).wr Reg.HB_CLKSTAT_HOLD_SEC 0
        (max 60 (s.rd Reg.HB_CLKSTAT_HOLD_SEC 0))
      signal ((List.finRange 8).foldl (fun t m =>
        if portState t (.span m) ≠ lkUp ∧ portState t (.span m) ≠ lkRetrain then t
        else
          let t1 := portDown t (.span m)
          (t1.setSpx m { t1.spx m with heldOver := true }).lg LogKind.spanHeldOver hubN [m.val]) s1) 68)

/-- The span secret; 0 where there is none (R575). -/
def spanSecret (s : State) : Nat := (s.chip.owner.map Owner.secret).getD 0

/-- True when a span port may train (R6, R575, R611): licensed, with the module OWNED and a span secret, and its cable present. -/
def spanMayTrain (s : State) (m : Nat) : Bool :=
  decide (m < s.rd Reg.HB_ID_SPAN 0) && (s.spx (Fin.ofNat 8 m)).cable && spanSecret s != 0

/-- Starts a span port's training. -/
def startSpan (s : State) (m : Nat) : State :=
  let n := Fin.ofNat 8 m
  let p : PortId := .span n
  if spanMayTrain s m && portState s p == lkDown then
    wrP (s.setSpx n { s.spx n with heldOver := false, lanes := [], marks := [], sentMarks := 0 }) p Reg.LK_STAT_STATE Reg.LKH_STAT_STATE lkTraining
  else s

/-- The loop is locked to its reference (R50, R51): a holdover ends, which is logged, and the span ports taken down for it train again. -/
def locked (s : State) : State :=
  let s1 := (s.wb Reg.HB_CLKSTAT_REF_OK 0 true).wb Reg.HB_CLKSTAT_PLL_LOCK 0 true
  if !s.rb Reg.HB_CLKSTAT_HOLDOVER 0 then s1
  else
    let s2 := (s1.wb Reg.HB_CLKSTAT_HOLDOVER 0 false).wb Reg.HB_CLKSTAT_HOLD_EXPIRED 0 false
    let s3 := { s2.lg LogKind.relock hubN [] with chip := { s2.chip with holdAt := none } }
    (List.range 8).foldl (fun t m => if (t.spx (Fin.ofNat 8 m)).heldOver then startSpan t m else t) s3

/-- R51: the reference returns and the loop relocks. -/
def execRelock (s : State) : Host.Outcome State Fault Refusal := .next (if s.rb Reg.HB_CLKSTAT_HOLDOVER 0 then locked s else s)

/-! ## Ratios (R56-R60) -/

/-- R60: a request of a ratio: the die's Lehr and module firmware only, clamped between CEIL and FLOOR. -/
def execAclkRequest (r : Requester) (g : Gather) (code : BitVec 2) (s : State) : Host.Outcome State Fault Refusal :=
  let d := g.die.val
  let i := g.idx.val
  .next (if !gatherDefined s g then s
    else if !mayWrite .lehr r .die d then s.lg LogKind.ignoredWrite (dieN d) [Reg.LH_GACLK_REQ.id, i]
    else
      let v := clampNat (s.rd Reg.LH_GACLK_CEIL d i) (s.rd Reg.LH_GACLK_FLOOR d i) code.toNat
      setReq (if v = code.toNat then s else s.lg LogKind.clamped (dieN d) [Reg.LH_GACLK_REQ.id, code.toNat, v]) g v)

/-- R56-R58: at a phase boundary the stop for the requested ratio begins, once at each; a faster ratio only where VDDL supports
it. -/
def execAclkRatioChange (g : Gather) (s : State) : Host.Outcome State Fault Refusal :=
  let d := g.die.val
  let i := g.idx.val
  let req := s.rd Reg.LH_GACLK_REQ d i
  let up := decide (req < s.rd Reg.LH_GACLK_APPLIED d i)
  let x := s.gx g
  .next (if gatherDefined s g && s.rb Reg.LH_GACLK_PENDING d i && !x.inPhase && !x.changed && x.stop.isNone
        && !s.rb Reg.BT_CLKSTAT_STOPPED d && (!up || decide (vminOf s d req ≤ s.rd Reg.LH_VDDL_VSET d)) then startStop s g req
    else s)

/-! ## Margins (R62-R64, R510) -/

/-- The gathers with a core in an island. -/
def islandGathers (s : State) (d : DieId) (n : Nat) : List Gather :=
  (gathersOn s d).filter fun g => (gatherCores s g).any fun c => corePresent s c && islandOfCore s c == n

/-- Demands the next slower ratio of the gathers in an island (R64). -/
def slowIsland (s : State) (d : DieId) (n : Nat) : State :=
  (islandGathers s d n).foldl (fun t g =>
    let i := g.idx.val
    let x := t.pw d.val
    let v := min (t.rd Reg.LH_GACLK_FLOOR d.val i) (t.rd Reg.LH_GACLK_REQ d.val i + 1)
    reqFromDemand (t.setPw d.val { x with mdem := smSet 0 x.mdem i v }) g) s

/-- Raises CRZOFF by `k` steps, to at most 6; none where it stands there or VSET would pass VMAX (R503). -/
def raiseCrz (s : State) (d : DieId) (k : Nat) : Option State :=
  let now := s.rd Reg.LH_VDDL_CRZOFF d.val
  let v := min 6 (now + k)
  if v = now ∨ vsetRaw s d v > s.rd Reg.LH_VMAX_VMAX d.val then none else some (updVset (s.wr Reg.LH_VDDL_CRZOFF d.val v) d)

/-- R62, R64: the replicas of an island report their margins. CRIT raises VDDL where it can and slows the island's gathers; WARN raises
VDDL, or where it cannot slows them. -/
def execMarginSample (d : DieId) (isl : Fin 16) (marginA marginN : BitVec 4) (s : State) :
    Host.Outcome State Fault Refusal :=
  let u := d.val
  let n := isl.val
  let m := min marginA.toNat marginN.toNat
  let warn := decide (m < s.rd Reg.LH_CRZ_WARN_LVL u n)
  let crit := decide (m < s.rd Reg.LH_CRZ_CRIT_LVL u n)
  let s1 := (s.wr Reg.LH_CRZ_MARGIN_A u marginA.toNat n).wr Reg.LH_CRZ_MARGIN_N u marginN.toNat n
  let s2 := if warn then
      noteAt (((s1.wb Reg.LH_CRZ_WARN u true n).bump Reg.LH_CRZ_COUNT u 1 n).lg LogKind.margin (dieN u) [n, m, b2n crit]) (.dieNode d)
        0x27 [n, m, b2n crit]
    else s1
  .next (if crit then
      let s3 := s2.wb Reg.LH_CRZ_CRIT u true n
      slowIsland ((raiseCrz s3 d 2).getD s3) d n
    else if warn then (raiseCrz s2 d 1).getD (slowIsland s2 d n)
    else s2)

/-- R63: the margin levels of an island; CRIT_LVL at or above WARN_LVL is refused whole. -/
def execCrzLevelWrite (r : Requester) (d : DieId) (isl : Fin 16) (warn crit : BitVec 4) (s : State) :
    Host.Outcome State Fault Refusal :=
  .next (if !mayWrite .any r .die d.val || decide (warn.toNat ≤ crit.toNat) then
      s.lg LogKind.ignoredWrite (dieN d.val) [Reg.LH_CRZ_WARN_LVL.id, isl.val]
    else (s.wr Reg.LH_CRZ_WARN_LVL d.val warn.toNat isl.val).wr Reg.LH_CRZ_CRIT_LVL d.val crit.toNat isl.val)

/-- R510: 100 ms without a margin warning on the die. -/
def execCrzoffDecay (d : DieId) (s : State) : Host.Outcome State Fault Refusal :=
  .next (updVset (s.wr Reg.LH_VDDL_CRZOFF d.val (s.rd Reg.LH_VDDL_CRZOFF d.val - 1)) d)

/-! ## Sense pairs (R502) -/

/-- R502: a sense pair is excluded; with none left the regulator uses its local sense. -/
def execSenseInvalid (d : DieId) (f : Fin 4) (s : State) : Host.Outcome State Fault Refusal :=
  let v := s.rd Reg.LH_VDDL_SENSEOK d.val
  .next (if bit v f.val then
      let w := v - 2 ^ f.val
      ((s.wr Reg.LH_VDDL_SENSEOK d.val w).wb Reg.LH_VDDL_LOCAL d.val (w == 0)).lg LogKind.senseInvalid (dieN d.val) [f.val]
    else s)

/-- R502: a sense pair is used again. -/
def execSensePairValid (d : DieId) (f : Fin 4) (s : State) : Host.Outcome State Fault Refusal :=
  .next ((s.wr Reg.LH_VDDL_SENSEOK d.val (s.rd Reg.LH_VDDL_SENSEOK d.val ||| 2 ^ f.val)).wb Reg.LH_VDDL_LOCAL d.val false)

/-! ## Estimates (R507-R509) -/

/-- `2^(k/20)` in units of `2^-40`, rounded down. -/
def exp20 : List Nat :=
  [1099511627776, 1138285821592, 1178427384400, 1219984536363, 1263007198126, 1307547050779, 1353657597944,
   1401394230043, 1450814290837, 1501977146311]
  ++ [1554944255987, 1609779246752, 1666547989290, 1725318677211, 1786161908965, 1849150772653, 1914360933822,
   1981870726358, 2051761246586, 2124116450688]

/-- The leakage of a position in cW at 0.700 V and 85 °C (R508). -/
def leakOf (c : Nat) : Nat :=
  match c with
  | 0 => 120 | 1 => 120 | 2 => 70 | 3 => 30 | _ => 0

/-- The leakage of P[r,c] (R508): of the core it hosts, of a spare in C3 or awake (R36), of nothing where it is fenced. -/
def leakAt (s : State) (d : DieId) (r c : Nat) : Nat :=
  match (dieCores d).find? fun e => e.lc.val / 8 == r && pcolOf s d.val r (e.lc.val % 8) == c with
  | some e => leakOf (cstateOf s e)
  | none => if (s.dx d).awake.contains (10 * r + c) then leakOf 0 else if healthy s d.val r c then leakOf 3 else 0

/-- The energy an island's events stand for, in pJ x 32,768 (R508). -/
def energyOf (x : IslandSample) : Nat :=
  32800 * x.row8 + 24000 * x.row4 + 113600 * x.row16
    + 32768 * (28 * x.line + 520 * x.vop + 1100 * x.vtr + 70 * x.flit + 90 * x.fold + 2600 * x.core + 600 * x.idle)

/-- The power of an island in µW (R507), rounded down. -/
def islandPower (s : State) (d : DieId) (n : Nat) (x : IslandSample) : Nat :=
  let v := 550 + 5 * s.rd Reg.LH_VDDL_VSET d.val
  let k := (s.pw d.val).kcal
  let dyn := energyOf x * v * v * 1000000000 / (32768 * 490000 * 5851)
  let leak := (islandCols n).foldl (fun a c => a + leakAt s d (islandRow n) c) 0
  let lk := leak * v * 10000 * ((exp20[(x.tj + 15) % 20]?).getD 0) * 2 ^ ((x.tj + 15) / 20) / (700 * 2 ^ 45)
  k.1 * (dyn + lk) / k.2

/-- One island of an estimate: IEST, TEMP and its power in µW. -/
def estimateIsland (d : DieId) (acc : Nat × State) (p : IslandSample × Nat) : Nat × State :=
  let s := acc.2
  let u := d.val
  let pw := islandPower s d p.2 p.1
  let i := openRound s pw (1000 * (550 + 5 * s.rd Reg.LH_VDDL_VSET u))
  let s1 := (i.2.wr Reg.LH_ISL_IEST u (min 1023 i.1) p.2).wr Reg.LH_ISL_TEMP u p.1.tj p.2
  (acc.1 + pw, if p.1.tj ≥ 90 then s1.lg LogKind.hot (dieN u) [p.2, p.1.tj] else s1)

/-- The stacks of a die that throttle (R524): from 95 °C until below 90 °C. -/
def stackHeat (d : DieId) (acc : State) (p : Nat × Nat) : State :=
  let x := acc.pw d.val
  let k := 4 * d.val + p.2
  let s1 := if p.1 ≥ 95 then acc.setPw d.val { x with stackHot := k :: x.stackHot.filter (· ≠ k) }
    else if p.1 < 90 then acc.setPw d.val { x with stackHot := x.stackHot.filter (· ≠ k) }
    else acc
  if p.1 ≥ 88 then s1.lg LogKind.hot (stackN k) [p.1] else s1

/-- The four codes of LH_VSENSE. -/
def setSense (s : State) (d : Nat) (l : List Nat) : State :=
  let g := fun k : Nat => (l[k]?).getD 0
  (((s.wr Reg.LH_VSENSE_SENSE0 d (g 0)).wr Reg.LH_VSENSE_SENSE1 d (g 1)).wr Reg.LH_VSENSE_SENSE2 d (g 2)).wr
    Reg.LH_VSENSE_SENSE3 d (g 3)

/-- R507, R515, R524: an estimate of a die: its islands and the die, the sensors, and a look at what waits for admission. -/
def execPowerEstimate (d : DieId) (p : PowerSample) (s : State) : Host.Outcome State Fault Refusal :=
  let u := d.val
  let r := (p.islands.zip (List.range 16)).foldl (estimateIsland d) (0, setSense s u p.sense)
  let q := openRound r.2 (r.1 + (p.vddm + p.vddk) * 1000000) 1000000
  let s1 := q.2.wr Reg.LH_STAT_PDIE u (min 4095 q.1)
  let x := s1.pw u
  let s2 := s1.setPw u { x with
    estSum := x.estSum + r.1, estN := x.estN + 1, bucket := (x.bucket.1 + q.1, x.bucket.2 + 1) }
  let s3 := (p.stackSt.zip (List.range 4)).foldl (stackHeat d) s2
  let s3 := s3.setPw u { s3.pw u with temps := p.stackSt }
  let s3 := s3.setPw 4 { s3.pw 4 with temps := p.hub }
  let s4 := p.hub.foldl (fun t c => if c ≥ 95 then t.lg LogKind.hot hubN [c] else t) s3
  .next ((List.range 8).foldl (fun t k => consider t u k) s4)

/-- R509: once per second kcal becomes the ratio of the measured VDDL power (in mW) to the estimates' average, clamped. -/
def execKcalCalibrate (d : DieId) (mw : Nat) (s : State) : Host.Outcome State Fault Refusal :=
  let x := s.pw d.val
  let n := mw * 1000 * x.estN
  let k : Nat × Nat := if 5 * n < 4 * x.estSum then (4, 5) else if 4 * n > 5 * x.estSum then (5, 4) else (n, x.estSum)
  .next (if x.estSum = 0 then s
    else
      let s1 := (s.setPw d.val { x with kcal := k, estSum := 0, estN := 0 }).wr Reg.LH_STAT_KCAL d.val
        ((32 * k.1 + k.2) / (2 * k.2))
      if 5 * n < 4 * x.estSum ∨ 4 * n > 5 * x.estSum then s1.lg LogKind.kcalClamped (dieN d.val) [] else s1)

/-! ## Boosts and power-ups -/

/-- R512: a boost ends 100 µs after its phase. -/
def execBoostExpiry (g : Gather) (s : State) : Host.Outcome State Fault Refusal :=
  let x := s.pw g.die.val
  .next (updBoost (s.setPw g.die.val { x with boost := smSet 0 x.boost g.idx.val 0 }) g.die)

/-- Replaces the first power-up of an island's phase group. -/
def setUp (s : State) (d : Nat) (p q : PowerUp) : State :=
  let x := s.pw d
  s.setPw d { x with ups := x.ups.map fun r => if r = p then q else r }

/-- R515: a power-up has waited ADMIT_US and is staged. -/
def execStaging (d : DieId) (isl : Fin 16) (s : State) : Host.Outcome State Fault Refusal :=
  let u := d.val
  .next (match (s.pw u).ups.find? fun p => groupOf p.isl == groupOf isl.val with
    | some p =>
      if p.isl ≠ isl.val ∨ p.staged ∨ !s.rb Reg.LH_ISL_WAIT u isl.val then s
      else
        let q := { p with staged := true, main := p.main && s.rd Reg.LH_ISL_HDR u isl.val == 2 }
        let s1 := ((setUp s u p q).wr Reg.LH_ISL_HDR u 1 isl.val).wb Reg.LH_ISL_WAIT u false isl.val
        (p.cores.filter (· < 64)).foldl (fun t l => t.bump Reg.LH_STAGED_COUNT (64 * u + l)) s1
    | none => s)

/-- R515: the main switch, or the next core switch, has closed; after the last one the next power-up of the group is
considered. -/
def execStagedSwitchClose (d : DieId) (isl : Fin 16) (s : State) : Host.Outcome State Fault Refusal :=
  let u := d.val
  .next (match (s.pw u).ups.find? fun p => p.isl == isl.val && p.staged with
    | some p =>
      let q : PowerUp := if p.main then { p with main := false } else { p with cores := p.cores.drop 1 }
      let s1 := s.setDx d { s.dx d with awake := (s.dx d).awake ++ ((if p.main then [] else p.cores.take 1).filter (64 ≤ ·)).map (· - 64) }
      if q.cores.isEmpty then consider (powerDone s u p) u (groupOf isl.val) else setUp s1 u p q
    | none => s)

/-! ## The cap (R522, R523) -/

/-- Closes a bucket of 1 ms: the window's buckets, newest first. -/
def pushBucket (s : State) (d v : Nat) : State :=
  let x := s.pw d
  s.setPw d { x with bucket := (0, 0), buckets := (v :: x.buckets).take (s.rd Reg.LH_MCAP_WIN 0) }

/-- The average of the buckets kept: a sum and how many. -/
def windowSum (s : State) (d : Nat) : Nat × Nat :=
  let l := (s.pw d).buckets
  (l.sum, max 1 l.length)

/-- R522: the module Lehr samples the input, in mV and mA; ten samples make a bucket, in units of 0.1 µW. -/
def execInputSample (mv ma : Nat) (s : State) : Host.Outcome State Fault Refusal :=
  let p := openRound { s with chip := { s.chip with lastIn := (mv, ma) } } (mv * ma) 1000000
  let s1 := p.2.wr Reg.LH_MSTAT_PIN 0 (min 8191 p.1)
  let x := s1.pw 4
  let b := (x.bucket.1 + mv * ma, x.bucket.2 + 1)
  .next (if b.2 < 10 then s1.setPw 4 { x with bucket := b }
    else
      let s2 := pushBucket s1 4 b.1
      let w := windowSum s2 4
      let a := openRound s2 w.1 (w.2 * 10000000)
      a.2.wr Reg.LH_MSTAT_AVG 0 (min 8191 a.1))

/-- The sum of the four shares (R522). -/
def shareSum (s : State) : Nat := [0, 1, 2, 3].foldl (fun a d => a + s.rd Reg.LH_SHARE_PZ d) 0

/-- The next effective share of a die (R522), with the window average as a fraction in W. -/
def nextShare (d : Nat) (num den : Nat) (s : State) : State :=
  let cap := s.rd Reg.LH_MCAP_CAP 0
  let eff := s.rd Reg.LH_SHARE_EFF d
  let sh := s.rd Reg.LH_SHARE_PZ d
  if s.rd Reg.FT_DIE_STATE 0 d = 4 then s
  else if num > cap * den then
    let cut := (num - cap * den) * sh
    let q := openRound s (eff * den * shareSum s - cut) (den * shareSum s)
    q.2.wr Reg.LH_SHARE_EFF d (max 400 q.1)
  else if 100 * num < 97 * cap * den then
    let q := openRound s (100 * eff + sh) 100
    q.2.wr Reg.LH_SHARE_EFF d (min sh q.1)
  else s

/-- R522: every 10 ms each die's effective share follows the input average. -/
def execCapShareUpdate (s : State) : Host.Outcome State Fault Refusal :=
  let w := windowSum s 4
  let s1 := [0, 1, 2, 3].foldl (fun t d => nextShare d w.1 (w.2 * 10000000) t) s
  .next (s1.wb Reg.LH_MSTAT_TRIM 0 ([0, 1, 2, 3].any fun d => decide (s1.rd Reg.LH_SHARE_EFF d < s1.rd Reg.LH_SHARE_PZ d)))

/-- The islands of a gather are all, or any, at a test of their temperature. -/
def anyIsland (s : State) (g : Gather) (f : Nat → Bool) : Bool :=
  (gatherCores s g).any fun c => corePresent s c && f (s.rd Reg.LH_ISL_TEMP g.die.val (islandOfCore s c))

/-- Sets the demand of the cap for a gather. -/
def setDem (s : State) (g : Gather) (v : Nat) : State :=
  let x := s.pw g.die.val
  s.setPw g.die.val { x with dem := smSet none x.dem g.idx.val (some v) }

/-- The first gather of a list with the best priority (R523): `f` is true where the first number beats the second. -/
def pickPrio (s : State) (f : Nat → Nat → Bool) : List Gather → Option Gather
  | [] => none
  | g :: r => match pickPrio s f r with
    | none => some g
    | some h => if f (s.rd Reg.LH_GPRI_PRIO h.die.val h.idx.val) (s.rd Reg.LH_GPRI_PRIO g.die.val g.idx.val) then some h
      else some g

/-- The cap of a die is not met in this step: it is logged once per second while that persists (R523). -/
def unmet (s : State) (d : DieId) : State :=
  let x := s.pw d.val
  let due := match x.unmetAt with
    | none => true
    | some t => decide (s.hclk - t ≥ 2800000000)
  if due then (s.setPw d.val { x with unmetAt := some s.hclk }).lg LogKind.capUnmet (dieN d.val) [] else s

/-- The cap of a die is met in this step. -/
def met (s : State) (d : DieId) : State := s.setPw d.val { s.pw d.val with unmetAt := none }

/-- R523: a die Lehr's step of every millisecond. -/
def execCapStep (d : DieId) (s : State) : Host.Outcome State Fault Refusal :=
  let u := d.val
  let b := (s.pw u).bucket
  let s0 := if b.2 = 0 then s else pushBucket s u (b.1 * 1000000 / b.2)
  let w := windowSum s0 u
  let a := openRound s0 w.1 (w.2 * 1000000)
  let s1 := a.2.wr Reg.LH_STAT_AVG u (min 4095 a.1)
  let gs := gathersOn s1 d
  let hotStack := !(s1.pw u).stackHot.isEmpty
  let hot := gs.filter fun g => hotStack || anyIsland s1 g fun t => decide (t ≥ 95)
  let floor := fun g : Gather => s1.rd Reg.LH_GACLK_FLOOR u g.idx.val
  let ceil := fun g : Gather => s1.rd Reg.LH_GACLK_CEIL u g.idx.val
  let s2 := (hot.foldl (fun t g => setDem t g (min (floor g) (demOf t g + 1))) s1).wb Reg.LH_STAT_THERM u (!hot.isEmpty)
  let eff := s2.rd Reg.LH_SHARE_EFF u * 1000000 * w.2
  let s3 := if w.1 > eff then
      match pickPrio s2 (fun x y => decide (x < y)) (gs.filter fun g => !hot.contains g && decide (demOf s2 g < floor g)) with
      | some g => met (setDem s2 g (demOf s2 g + 1)) d
      | none =>
        unmet ((s2.wb Reg.LH_STAT_UNMET u true).wb Reg.LH_MSTAT_UNMET 0 true) d
    else if 100 * w.1 < 95 * eff then
      match pickPrio s2 (fun x y => decide (x > y)) (gs.filter fun g => !hot.contains g && decide (demOf s2 g > ceil g)
          && !anyIsland s2 g fun t => decide (t ≥ 90)) with
      | some g => met (setDem s2 g (demOf s2 g - 1)) d
      | none => met s2 d
    else met s2 d
  .next (gs.foldl reqFromDemand s3)

end Sys2Proof.Machine
end

