-- ==== Sys2Proof/Machine/Image.lean ====
section
/-! DEFINITION. The parison image (R368-R372): its header, sections and records, what a section may write, and the effect of
a record's words on the registers (R384). -/

namespace Sys2Proof.Machine

/-! ## The header -/

/-- The little-endian number in `n` bytes of a staged image; an image that does not lie in stack memory reads as ones
(R47, R380). -/
def imgRead (s : State) (src o n : Nat) : Nat :=
  if mgaClass src = 3 ∧ mgaFormed src ∧ src % 64 = 0 ∧ mgaOff36 src + o + n ≤ stackSize then
    s.rdLe (stackBase (mgaStack src) + mgaOff36 src + o) n
  else 2 ^ (8 * n) - 1

/-- True when a word of `n` bytes of a staged image is uncorrectable (R381). -/
def imgUe (s : State) (src n : Nat) : Bool :=
  (badWords s (stackBase (mgaStack src) + mgaOff36 src) n).any fun p => p.2 == 2

/-- The hub's read of a staged image, with the events of the words it meets up to the first uncorrectable one (R456, R460). -/
def imgTouch (s : State) (src n : Nat) : State :=
  let bad := badWords s (stackBase (mgaStack src) + mgaOff36 src) n
  let upTo := bad.takeWhile (fun p => p.2 != 2) ++ (bad.find? fun p => p.2 == 2).toList
  upTo.foldl (stackEcc (mgaStack src) 0) s

/-- The header fields of a staged image (R368). -/
def imgKind (s : State) (src : Nat) : Nat := imgRead s src 8 1
def imgDie (s : State) (src : Nat) : Nat := imgRead s src 9 1
def imgGather (s : State) (src : Nat) : Nat := imgRead s src 10 1
def imgLen (s : State) (src : Nat) : Nat := imgRead s src 12 4
def imgNsect (s : State) (src : Nat) : Nat := imgRead s src 16 4
def imgFeatures (s : State) (src : Nat) : Nat := imgRead s src 20 4
def imgId (s : State) (src : Nat) : Nat := imgRead s src 24 8
def imgBase (s : State) (src : Nat) : Nat := imgRead s src 32 32
def imgKeyIdx (s : State) (src : Nat) : Nat := imgRead s src 68 4

/-- The digest of a staged image (R370). -/
def imgDigest (s : State) (src : Nat) : Nat :=
  Config.sm3 (s.rdBytes (stackBase (mgaStack src) + mgaOff36 src) (imgLen s src - 128)) % 2 ^ 256

/-- The signature of a staged image. -/
def imgSig (s : State) (src : Nat) : Nat := imgRead s src (imgLen s src - 128) 64

/-- True when a header keeps R368: reserved bytes and bits 0, KIND, SDIE and SGATHER in range, NSECT in range. R381 names no status for a
full image with a BASE other than 0, nor for KIND, a segment's SDIE or KEYIDX out of range: they fail here, as BAD_SECTION (DESIGN CHOICE,
notes/assumptions/98). -/
def headerOk (s : State) (src : Nat) : Bool :=
  let full := imgKind s src == 0
  decide (imgKind s src ≤ 1) && imgRead s src 11 1 == 0 && imgRead s src 0x48 56 == 0 && decide (imgFeatures s src < 32)
    && (!full || (imgDie s src == 0 && imgGather s src == 0 && imgBase s src == 0))
    && decide (imgDie s src ≤ 3) && decide (imgGather s src ≤ 63) && decide (imgKeyIdx s src ≤ 3)
    && imgRead s src (imgLen s src - 64) 64 == 0
    && decide (1 ≤ imgNsect s src ∧ imgNsect s src ≤ 4096)
    && decide (0x80 + 16 * imgNsect s src ≤ imgLen s src - 128)

/-! ## Sections -/

/-- What a section may write (R372): ranges of offsets, in core space or in die space. -/
def sectRanges (ty : Nat) (dieSpace : Bool) : List (Nat × Nat) :=
  let tabs := (List.range 9).map fun n => (0x400000 + 0x20000 * n, 0x408000 + 0x20000 * n)
  let rxs := (List.range 9).map fun n => (0x410000 + 0x20000 * n, 0x418000 + 0x20000 * n)
  let stk := fun (a b : Nat) => (List.range 4).map fun k => (0x800000 + 0x40000 * k + a, 0x800000 + 0x40000 * k + b)
  match ty, dieSpace with
  | 1, true => [(0x40, 0x44), (0x3000, 0x3004), (0x4000, 0x4004)]
  | 2, true => [(0x2000, 0x2100), (0x3600, 0x3A00)]
  | 3, false => [(0x4000, 0x4800)]
  | 3, true => [(0x300000, 0x380000)]
  | 4, false => [(0x800000, 0x810000)]
  | 5, false => [(0xC00, 0xC10), (0xE00, 0xE04), (0xE80, 0xFC0), (0x1000, 0x1100)]
  | 6, true => [(0x3100, 0x3300)]
  | 7, true => [(0x5400, 0x5800)]
  | 8, false => [(0x100000, 0x124000)]
  | 9, true => tabs ++ rxs
  | 10, true => [(0x100000, 0x200000)]
  | 11, false => [(0x2000, 0x4000)]
  | 12, false => [(0x100000, 0x124000)]
  | 12, true => (0x1D8, 0x1DC) :: (tabs ++ rxs)
  | 13, true => [(0x7004, 0x7008), (0x7100, 0x7200), (0x8000, 0x10000)]
  | 14, true => stk 0x1000 0x1400 ++ stk 0x20000 0x40000
  | _, _ => []

/-- True when a section of a type may stand in a segment (R372). -/
def inSegment (ty : Nat) : Bool := decide (1 < ty ∧ ty < 14)

/-- Parses the records of a section from byte `pos` (fuel: the records left); none where one breaks R371, R372 or R554. -/
def parseRecs (s : State) (src sec ty set stop : Nat) : Nat → Nat → Bool → Option (List ImgRec)
  | 0, _, _ => some []
  | n + 1, pos, first =>
    if stop < pos + 8 then none
    else
      let w0 := imgRead s src pos 4
      let w1 := imgRead s src (pos + 4) 4
      let cnt := w0 / 2 ^ 16
      let sp := bit w0 14
      let off := bits w1 0 25
      let size := 8 + (4 * cnt + 7) / 8 * 8
      let r0 := bits w0 2 3
      let c0 := bits w0 5 3
      let r1 := bits w0 8 3
      let c1 := bits w0 11 3
      let ok := cnt != 0 && !bit w0 15 && w1 / 2 ^ 25 == 0 && off % 4 == 0 && decide (pos + size ≤ stop)
        && (if sp then bits w0 2 12 == 0 else decide (r0 ≤ r1 ∧ c0 ≤ c1))
        && (sectRanges ty sp).any (fun p => decide (p.1 ≤ off ∧ off + 4 * cnt ≤ p.2))
        && (cnt % 2 == 0 || imgRead s src (pos + 8 + 4 * cnt) 4 == 0)
        && (ty != 12 || !first || (sp && off == 0x1D8))
      if !ok then none
      else
        (parseRecs s src sec ty set stop n (pos + size) false).map fun r =>
          ⟨sec, ty, set, bits w0 0 2, r0, c0, r1, c1, sp, off,
            (List.range cnt).map fun k => imgRead s src (pos + 8 + 4 * k) 4⟩ :: r

/-- One entry of the section table (R369): type, set, offset and bytes. -/
structure SectEnt where
  ty : Nat
  set : Nat
  off : Nat
  len : Nat
  nrec : Nat
  rsv : Nat
deriving DecidableEq, Repr

/-- Entry `i` of the section table. -/
def sectEnt (s : State) (src i : Nat) : SectEnt :=
  let w := imgRead s src (0x80 + 16 * i) 4
  ⟨bits w 0 16, bits w 16 8, imgRead s src (0x84 + 16 * i) 4, imgRead s src (0x88 + 16 * i) 4,
   imgRead s src (0x8C + 16 * i) 4, w / 2 ^ 24⟩

/-- True when an entry keeps R369 and R372 beside its records; `before` are the earlier entries. -/
def sectOk (s : State) (src : Nat) (e : SectEnt) (before : List SectEnt) : Bool :=
  e.rsv == 0 && decide (1 ≤ e.ty ∧ e.ty ≤ 14) && ((e.set == 0) == (e.ty != 12))
    && (imgKind s src == 0 || inSegment e.ty) && e.off % 64 == 0
    && decide (0x80 + 16 * imgNsect s src ≤ e.off ∧ e.off + e.len ≤ imgLen s src - 128)
    && before.all fun b => decide (e.off + e.len ≤ b.off ∨ b.off + b.len ≤ e.off)

/-- Parses the sections from `i` (fuel: the sections left): the records, or the index of the section that fails. -/
def parseSects (s : State) (src : Nat) : Nat → Nat → List SectEnt → Except Nat (List ImgRec)
  | 0, _, _ => .ok []
  | n + 1, i, before =>
    let e := sectEnt s src i
    if !sectOk s src e before then .error i
    else match parseRecs s src i e.ty e.set (e.off + e.len) e.nrec e.off true with
      | none => .error i
      | some l => match parseSects s src n (i + 1) (e :: before) with
        | .ok r => .ok (l ++ r)
        | .error j => .error j

/-- The records of an image, or the section that breaks R368, R369, R371 or R372 (0xFFFF for the header, and for a full
image without MODULE, GATHER, PHASE or IMEM). -/
def parseImage (s : State) (src : Nat) : Except Nat (List ImgRec) :=
  if !headerOk s src then .error 0xFFFF
  else match parseSects s src (imgNsect s src) 0 [] with
    | .error i => .error i
    | .ok l =>
      let types := (List.range (imgNsect s src)).map fun i => (sectEnt s src i).ty
      if imgKind s src = 0 ∧ !([1, 2, 3, 4].all fun t => types.contains t) then .error 0xFFFF else .ok l

/-! ## Writing records -/

/-- The logical cores of a record's rectangle. -/
def recCores (r : ImgRec) : List CoreId :=
  (dieCores (Fin.ofNat 4 r.die)).filter fun c =>
    decide (r.r0 ≤ c.lc.val / 8 ∧ c.lc.val / 8 ≤ r.r1 ∧ r.c0 ≤ c.lc.val % 8 ∧ c.lc.val % 8 ≤ r.c1)

/-- The offset a slot-table word lands at: records name bank A and the die writes bank `b` (R303, R371, R428). -/
def bankOffset (dieSpace : Bool) (off b : Nat) : Nat :=
  if !dieSpace ∧ 0x100000 ≤ off ∧ off < 0x124000 then off + 0x40000 * b
  else if dieSpace ∧ 0x400000 ≤ off ∧ off < 0x520000 then off + 0x8000 * b
  else off

/-- Writes one word of a record in die space (R384): a gather, a view become defined; the divisor goes to the hub. -/
def writeDieWord (s : State) (d b off v : Nat) : State :=
  if off = 0x40 then s.wr Reg.HB_CLKSTAT_NCLK_DIV 0 (bits v 12 1)
  else
    let s1 := loadWord s .die d (bankOffset true off b) v
    if 0x3600 ≤ off ∧ off < 0x3A00 then s1.wb Reg.PZ_GATHER_VALID d true ((off - 0x3600) / 16)
    else if 0x800000 ≤ off ∧ off % 0x40000 ≥ 0x1000 ∧ off % 0x40000 < 0x1400 then
      s1.wb Reg.TS_VIEW_VALID d true ((off - 0x800000) / 0x40000) ((off % 0x40000 - 0x1000) / 16)
    else s1

/-- Writes one word of a record in core space: a format profile becomes valid, a queue becomes the parison's. -/
def writeCoreWord (s : State) (c : CoreId) (b off v : Nat) : State :=
  let u := coreU c
  let s1 := loadWord s .core u (bankOffset false off b) v
  if 0xC00 ≤ off ∧ off < 0xC10 then s1.wb Reg.CA_FMT_VALID u true ((off - 0xC00) / 4)
  else if 0x2000 ≤ off ∧ off < 0x3000 then s1.wb Reg.CQ_Q_PZ u true ((off - 0x2000) / 16)
  else s1

/-- Writes words from an offset upwards. -/
def writeWords (f : State → Nat → Nat → State) : State → Nat → List Nat → State
  | s, _, [] => s
  | s, off, v :: r => writeWords f (f s off v) (off + 4) r

/-- The port of a die whose cane tables hold a die-space offset; 9 for every other offset. -/
def offPort (off : Nat) : Nat := if 0x400000 ≤ off ∧ off < 0x520000 then (off - 0x400000) / 0x20000 else 9

/-- The bank in force at a die's cane engine, or for number 9 at its routers (R279, R297). -/
def bankIn (s : State) (d n : Nat) : Nat := if n < 9 then portBank s d n else bankOf s d

/-- The effect of a record with its slot tables in the banks that `bk` gives for each die and port, or 9 for its routers. -/
def writeRec (bk : Nat → Nat → Nat) (s : State) (r : ImgRec) : State :=
  if r.dieSpace then writeWords (fun t o v => writeDieWord t r.die (bk r.die (offPort o)) o v) s r.off r.words
  else (recCores r).foldl (fun t c => writeWords (fun t o v => writeCoreWord t c (bk r.die 9) o v) t r.off r.words) s

/-- True when a record writes a word of a core, or of a die's space. -/
def recTouches (r : ImgRec) (c : Option CoreId) (d off : Nat) : Bool :=
  decide (r.off ≤ off ∧ off < r.off + 4 * r.words.length) && match c with
    | some k => !r.dieSpace && (recCores r).contains k
    | none => r.dieSpace && r.die == d

/-- The section that last writes a word; 0xFFFF where none does. -/
def secOf (recs : List ImgRec) (c : Option CoreId) (d off : Nat) : Nat :=
  match (recs.filter fun r => r.ty != 12 && recTouches r c d off).getLast? with
  | some r => r.sec
  | none => 0xFFFF

/-- True when some record of an image writes a word. -/
def imgWrites (recs : List ImgRec) (c : Option CoreId) (d off : Nat) : Bool :=
  recs.any fun r => r.ty != 12 && recTouches r c d off

/-- Fields that host software writes before a load (R428) or that belong to no section: a load leaves them. -/
def hostWritten (F : Field) : Bool := F.space == .hub

/-- The registers at the start of a full load (R383): every field of a parison at its value before one, windows closed, no
gather, profile or view defined, no queue or send-table entry; generations stay (R337). -/
def clearParison (s : State) : State :=
  let extra := [Reg.PZ_GATHER_VALID, Reg.PZ_GATHER_DEGRADED, Reg.PZ_GATHER_SEGS, Reg.PZ_GATHER_STATE, Reg.CA_FMT_VALID,
    Reg.TS_VIEW_VALID, Reg.CP_WIN_EN, Reg.CP_CFG_SVC, Reg.CQ_Q_STATE, Reg.CQ_Q_COUNT, Reg.CQ_Q_WORD, Reg.CQ_Q_PZ,
    Reg.CQ_Q_FREEPTR, Reg.CQ_Q_POPPED, Reg.CQ_S_LCRED, Reg.CQ_S_WR, Reg.CQ_STAT_FREEENT, Reg.CQ_STAT_NQUEUE,
    Reg.CQ_STAT_NSEND, Reg.SY_GRP_SENSE, Reg.SY_GRP_OPEN, Reg.SY_ARR_LO, Reg.SY_ARR_HI, Reg.SY_SEAL_PHASE_SEQ,
    Reg.SY_SEAL_RUNG, Reg.SY_SEAL_PROV, Reg.SY_SEAL_LAST, Reg.SY_SEAL_CAUSE, Reg.SY_SEAL_DEPTH, Reg.SY_SEAL_RA_WAIT,
    Reg.SY_SEAL_LOST, Reg.LH_GACLK_APPLIED, Reg.LH_GACLK_REQ, Reg.LH_GACLK_PENDING, Reg.LH_GACLK_CHANGES,
    Reg.LH_GACLK_STOPPING, Reg.SY_VCNT_SEALS, Reg.SY_VCNT_RECALLS, Reg.PZ_WATCH_SHADOW_EN,
    Reg.TS_LAYER_STATE, Reg.TS_LAYER_GLINES, Reg.DN_TBLSEL_ACTIVE, Reg.DN_TBLSEL_SWAP, Reg.DN_TBLSEL_PEND,
    Reg.DN_TBLSEL_STBY_SET, Reg.DN_TBLSEL_ACT_SET, Reg.DN_SSTAT_RUNS, Reg.DN_SSTAT_ACTIVE, Reg.DN_SSTAT_CREDIT0,
    Reg.DN_SSTAT_GATED, Reg.DN_SSTAT_STALLED, Reg.DN_SSTAT_FAULT, Reg.DN_SSTAT_STOPPED, Reg.DN_SSTAT_PENDING,
    Reg.DN_RSTAT_BANK]
  let s1 := clearRegs s fun F _ i => (F.acc == .rwf && !hostWritten F && !(F.base == 0x400000))
    || (F.base == 0x400000 && F.space == .die) || (F.base == 0x100000 && F.space == .core && decide (i < 2))
    || extra.contains F
  { s1 with pend := [], dies := s1.dies.map fun p => (p.1, { p.2 with flips := [] }) }

end Sys2Proof.Machine
end

