-- ==== Sys2Proof/Machine/Checks.lean ====
section
/-! DEFINITION. The checks of a staged image (R381): each compares the registers as the image would leave them with the
limits its rule states. -/

namespace Sys2Proof.Machine

/-- A check that fails (R381): status, section index and detail. -/
structure Fail where
  status : Nat
  sect : Nat
  detail : Nat
deriving DecidableEq, Repr

/-- What the checks look at: the state in force, the registers as the image would leave them, its records, the gather of
a segment, its FEATURES and the images in force. -/
structure Ck where
  cur : State
  h : State
  recs : List ImgRec
  seg : Option Gather
  feat : Nat

/-- A detail that names a die, a gather or a stream (R391). -/
def detD (d : Nat) : Nat := d * 2 ^ 14
def detG (g : Gather) : Nat := g.die.val * 2 ^ 14 + g.idx.val * 2 ^ 8
def detS (d i : Nat) : Nat := d * 2 ^ 14 + i % 2 ^ 14

/-- A failure at a word of a core's or a die's space. -/
def failAt (k : Ck) (st : Nat) (c : Option CoreId) (d off det : Nat) : Option Fail := some ⟨st, secOf k.recs c d off, det⟩

/-- True when a record is written at an application: a FALLBACK record only where its set is in force on its die and the
image is a segment, a primary table only where the primary set is in force (R386, R387). -/
def recApplies (cur : State) (seg : Option Gather) (r : ImgRec) : Bool :=
  let set := cur.rd Reg.DN_TBLSEL_ACT_SET r.die
  if r.ty = 12 then seg.isSome && r.set == set && set != 0
  else if r.ty = 8 ∨ r.ty = 9 then seg.isNone || set == 0
  else true

/-- The registers as an image would leave them (R383, R387). -/
def hypState (cur : State) (seg : Option Gather) (recs : List ImgRec) : State :=
  match seg with
  | none => recs.foldl (fun t r => if r.ty = 12 then t else writeRec (fun _ _ => 0) t r) (allDies.foldl mapDie (clearParison cur))
  | some _ => recs.foldl (fun t r => if recApplies cur seg r then writeRec (bankIn cur) t r else t) cur

/-- Slot tables of dies that are emptied: of the routers, and of the ports, in the banks that `bk` names. -/
def emptyTables (s : State) (ds : List DieId) (bk : Nat → Nat → Nat) : State :=
  clearAt s fun F u i j =>
    (F.space == .core && F.base == 0x100000 && ds.any (fun d => d.val == u / 64) && i == bk (u / 64) 9)
      || (F.space == .die && (F.base == 0x400000 || F.base == 0x400004) && ds.any (fun d => d.val == u) && j / 4096 % 2 == bk u i)

/-- The records of a fallback set: those of the images in force, and after them those of a segment (R386). -/
def setRecs (k : Ck) (n : Nat) : List ImgRec :=
  let held := if k.seg.isSome then k.cur.load.images.flatMap Image.recs else []
  (held ++ k.recs).filter fun r => r.ty == 12 && r.set == n

/-- The registers with the primary tables on every die, as the image would leave them (R276, R386): where a set is in force, those held of
the images in force with those of the segment. -/
def primState (k : Ck) : State :=
  let ds := allDies.filter fun d => k.h.rd Reg.DN_TBLSEL_ACT_SET d.val != 0
  let flat := { k.h with dies := k.h.dies.map fun p => (p.1, { p.2 with flips := [] }) }
  if ds.isEmpty then flat
  else
    let held := k.cur.load.images.flatMap Image.recs ++ k.recs
    (held.filter fun r => (r.ty == 8 || r.ty == 9) && ds.any fun d => d.val == r.die).foldl (writeRec (bankIn flat))
      (emptyTables flat ds (bankIn flat))

/-- The registers with a fallback set on the dies it names, over the primary tables (R297). -/
def setState (k : Ck) (n : Nat) : State :=
  let p := primState k
  let l := setRecs k n
  l.foldl (writeRec (bankIn p)) (emptyTables p (l.map fun r => Fin.ofNat 4 r.die).eraseDups (bankIn p))

/-! ## Licences, cores and dies (statuses 9 to 11) -/

/-- True when a format is licensed (R5, R76). -/
def fmtLicensed (s : State) (f : Nat) : Bool := (f != 7 || s.rb Reg.HB_ID_FP4 0) && (f != 10 || s.rb Reg.HB_ID_PAIR 0)

/-- The format of a rung of a gather's ladder (R181). -/
def rungFmt (s : State) (g : Gather) (r : Nat) : Nat :=
  let F := match r with
    | 0 => Reg.PZ_LADDER_FMT0 | 1 => Reg.PZ_LADDER_FMT1 | 2 => Reg.PZ_LADDER_FMT2 | _ => Reg.PZ_LADDER_FMT3
  s.rd F g.die.val g.idx.val

/-- The rungs of a gather's ladder that have a format, with it. -/
def rungs (s : State) (g : Gather) : List (Nat × Nat) :=
  ((List.range (s.rd Reg.PZ_LADDER_NRUNG g.die.val g.idx.val + 1)).map fun r => (r, rungFmt s g r)).filter
    fun p => p.1 == 0 || p.2 != 15

/-- Status 9 (R6, R76, R173). -/
def ckLicence (k : Ck) : Option Fail :=
  let s := k.cur
  if (bit k.feat 0 && !s.rb Reg.HB_ID_FP4 0) || (bit k.feat 1 && !s.rb Reg.HB_ID_PAIR 0)
      || (bit k.feat 2 && !s.rb Reg.HB_ID_HERITAGE 0) || decide (([0, 2, 4, 8][bits k.feat 3 2]?).getD 0 > s.rd Reg.HB_ID_SPAN 0)
  then some ⟨9, 0xFFFF, 0⟩
  else
    let prof := allCores.findSome? fun c => (List.range 4).findSome? fun p =>
      let u := coreU c
      if k.h.rb Reg.CA_FMT_VALID u p
          && !(fmtLicensed s (k.h.rd Reg.CA_FMT_WFMT u p) && fmtLicensed s (k.h.rd Reg.CA_FMT_XFMT u p)) then
        failAt k 9 (some c) 0 (0xC00 + 4 * p) (detD c.die.val)
      else none
    let pd := allCores.findSome? fun c => (List.range 8).findSome? fun p =>
      if imgWrites k.recs (some c) 0 (0x1018 + 32 * p) && k.h.rb Reg.CA_PD_HERITAGE (coreU c) p
          && !s.rb Reg.HB_ID_HERITAGE 0 then
        failAt k 9 (some c) 0 (0x1018 + 32 * p) (detD c.die.val)
      else none
    let lad := (definedGathers k.h).findSome? fun g =>
      if (rungs k.h g).all fun p => fmtLicensed s p.2 then none
      else failAt k 9 none g.die.val (0x3100 + 4 * g.idx.val) (detG g)
    prof.or (pd.or lad)

/-- Status 10 (R31): a record in an absent core's space, or, in a full image, a gather that holds an absent core. -/
def ckAbsent (k : Ck) : Option Fail :=
  let r := k.recs.findSome? fun r =>
    if !r.dieSpace && (recCores r).any fun c => !corePresent k.h c then some ⟨10, r.sec, detD r.die⟩ else none
  let g := if k.seg.isSome then none else (definedGathers k.h).findSome? fun g =>
    if (gatherCores k.h g).any fun c => !corePresent k.h c then
      failAt k 10 none g.die.val (0x3600 + 16 * g.idx.val) (detG g)
    else none
  r.or g

/-- True when a die is held in reset, stopped or lost. -/
def dieDown (s : State) (d : Nat) : Bool := s.rd Reg.FT_DIE_STATE 0 d != 0 || s.rb Reg.BT_CLKSTAT_STOPPED d

/-- Status 11. -/
def ckDown (k : Ck) : Option Fail :=
  k.recs.findSome? fun r => if dieDown k.cur r.die then some ⟨11, r.sec, detD r.die⟩ else none

/-! ## Gathers and phases (statuses 12 and 13) -/

/-- The rectangle of a gather: R0, R1, C0, C1. -/
def rectOf (s : State) (g : Gather) : Nat × Nat × Nat × Nat :=
  let r := fun F : Field => s.rd F g.die.val g.idx.val
  (r Reg.PZ_GATHER_R0, r Reg.PZ_GATHER_R1, r Reg.PZ_GATHER_C0, r Reg.PZ_GATHER_C1)

/-- The stream range of a gather: first index and the index after the last. -/
def rangeOf (s : State) (g : Gather) : Nat × Nat :=
  let b := s.rd Reg.PZ_GATHER_STRM_BASE g.die.val g.idx.val
  (b, b + s.rd Reg.PZ_GATHER_STRM_CNT g.die.val g.idx.val)

/-- True when two ranges share a number. -/
def meet (a b c d : Nat) : Bool := decide (a < d ∧ c < b)

/-- Every stream index of a die with a valid descriptor. -/
def validStreams (s : State) (d : Nat) : List Nat := (List.range 32768).filter fun i => s.rb Reg.DN_DESC_VALID d i

/-- Status 12 (R373). -/
def ckGather (k : Ck) : Option Fail :=
  let s := k.h
  let gs := definedGathers s
  let shape := gs.findSome? fun g =>
    let d := g.die.val
    let i := g.idx.val
    let a := rectOf s g
    let ra := rangeOf s g
    let ok := decide (a.1 ≤ a.2.1 ∧ a.2.2.1 ≤ a.2.2.2) && decide (1 ≤ nph s g ∧ nph s g ≤ 256)
      && decide (s.rd Reg.LH_GACLK_CEIL d i ≤ s.rd Reg.LH_GACLK_FLOOR d i) && decide (ra.2 ≤ 32768)
      && gs.all fun h => h == g || (
        let b := rectOf s h
        let rb := rangeOf s h
        !(h.die == g.die && meet a.1 (a.2.1 + 1) b.1 (b.2.1 + 1) && meet a.2.2.1 (a.2.2.2 + 1) b.2.2.1 (b.2.2.2 + 1))
          && !meet ra.1 ra.2 rb.1 rb.2)
    if ok then none else failAt k 12 none d (0x3600 + 16 * i) (detG g)
  let owner := allDies.findSome? fun d => (validStreams s d.val).findSome? fun i =>
    match streamGather s i with
    | some g => if inGather s g (ownerCore s d i).lc then none
      else failAt k 12 none d.val (0x100000 + 32 * i) (detS d.val i)
    | none => failAt k 12 none d.val (0x100000 + 32 * i) (detS d.val i)
  shape.or owner

/-- Removes the phases all of whose dependencies are removed, again and again (fuel): the phases that remain lie on, or
depend on, a cycle (R374). -/
def cyclic (deps : Gather × Nat → List (Gather × Nat)) : Nat → List (Gather × Nat) → List (Gather × Nat)
  | 0, l => l
  | n + 1, l =>
    let r := l.filter fun p => (deps p).any fun q => l.contains q
    if r.length = l.length then l else cyclic deps n r

/-- What a phase depends on: its list and the phase before it (R374). -/
def allDeps (s : State) (p : Gather × Nat) : List (Gather × Nat) :=
  phaseDeps s p.1 p.2 ++ (if p.2 = 0 then [] else [(p.1, p.2 - 1)])

/-- True when a phase of a gather has an entry PC on a rung in every core of the gather that is present (R374, R393). -/
def hasEntry (s : State) (g : Gather) (ph r : Nat) : Bool :=
  (gatherCores s g).all fun c => !corePresent s c || bit (s.rd Reg.PZ_PHASE_HI (coreU c) ph) (20 + r)

/-- Status 13 (R374). -/
def ckPhase (k : Ck) : Option Fail :=
  let s := k.h
  let gs := definedGathers s
  let one := gs.findSome? fun g => (List.range (nph s g)).findSome? fun ph =>
    let ok := decide (s.rd Reg.PZ_PHREC_NDEP g.die.val g.idx.val ph ≤ 8)
      && (phaseDeps s g ph).all (fun p => gatherDefined s p.1 && decide (p.2 < nph s p.1))
      && (rungs s g).all fun r => hasEntry s g ph r.1
    if ok then none
    else failAt k 13 none g.die.val (0x300000 + 0x2000 * g.idx.val + 32 * ph) (detG g)
  let all := gs.flatMap fun g => (List.range (nph s g)).map fun ph => (g, ph)
  let cyc := match cyclic (allDeps s) all.length all with
    | [] => none
    | p :: _ => failAt k 13 none p.1.die.val (0x300000 + 0x2000 * p.1.idx.val + 32 * p.2) (detG p.1)
  one.or cyc

/-! ## Formats, ladders and folds (statuses 14 to 16) -/

/-- True for FP16, BF16 and BF16 pair. -/
def noBlock (f : Nat) : Bool := f == 1 || f == 2 || f == 10

/-- Status 14 (R120). -/
def ckFormat (k : Ck) : Option Fail :=
  allCores.findSome? fun c => (List.range 4).findSome? fun p =>
    let r := fun F : Field => k.h.rd F (coreU c) p
    if r Reg.CA_FMT_VALID = 1 ∧ ((r Reg.CA_FMT_WBLK ≠ 0 ∧ noBlock (r Reg.CA_FMT_WFMT))
        ∨ (r Reg.CA_FMT_XBLK ≠ 0 ∧ noBlock (r Reg.CA_FMT_XFMT))) then
      failAt k 14 (some c) 0 (0xC00 + 4 * p) (detD c.die.val)
    else none

/-- The place of a format in its chain: whether the chain is of integers, and the width order (R173). -/
def fmtRank (f : Nat) : Option (Bool × Nat) :=
  match f with
  | 7 => some (false, 0) | 5 => some (false, 1) | 6 => some (false, 1) | 3 => some (false, 2) | 4 => some (false, 2)
  | 9 => some (true, 0) | 8 => some (true, 1)
  | 1 => some (false, 3) | 2 => some (false, 3) | 10 => some (false, 4)
  | _ => none

/-- True when format `b` is strictly wider than `a` (R173). -/
def wider (b a : Nat) : Bool :=
  match fmtRank b, fmtRank a with
  | some y, some x => decide (x.2 < y.2) && (x.1 == y.1 || decide (y.2 ≥ 3))
  | _, _ => false

/-- True when each format of a list is wider than the one before it. -/
def widening : List Nat → Bool
  | a :: b :: r => wider b a && widening (b :: r)
  | _ => true

/-- Status 15 (R173). -/
def ckLadder (k : Ck) : Option Fail :=
  (definedGathers k.h).findSome? fun g =>
    if widening ((rungs k.h g).map Prod.snd) then none
    else failAt k 15 none g.die.val (0x3100 + 4 * g.idx.val) (detG g)

/-- The cores that contribute to a fold stream on a die (R627). -/
def contributors (s : State) (d : DieId) (i : Nat) : List CoreId :=
  (engines s d i).filterMap fun n => match n with
    | .core c => some c
    | _ => none

/-- The first and last line of the rows of a stream's source in a scratchpad (R626). -/
def srcLines (s : State) (d : DieId) (i : Nat) : Nat × Nat :=
  let lo := mgaOff25 (srcMga s d i) / 64
  (lo, lo + sd s d i Reg.DN_DESC_SSTRIDE * (sd s d i Reg.DN_DESC_ROWS - 1) + sd s d i Reg.DN_DESC_ROWLEN - 1)

/-- Status 16 (R154): a preset heritage pass whose output lines a fold stream takes, in a form other than LINEAR in FP32. -/
def ckFold (k : Ck) : Option Fail :=
  let s := k.h
  allDies.findSome? fun d => (validStreams s d.val).findSome? fun i =>
    let plain := sd s d i Reg.DN_DESC_FOLD == 0 || (sd s d i Reg.DN_DESC_FFORM == 1 && sd s d i Reg.DN_DESC_FFMT == 0)
    let w := srcLines s d i
    if !plain && sd s d i Reg.DN_DESC_SRCK == skSp && (contributors s d i).any fun c => (List.range 8).any fun p =>
        let u := coreU c
        let o := s.rd Reg.CA_PD_OLINE u p
        imgWrites k.recs (some c) 0 (0x1018 + 32 * p) && s.rb Reg.CA_PD_HERITAGE u p
          && meet o (o + 8 * s.rd Reg.CA_PD_NCH u p) w.1 (w.2 + 1) then
      failAt k 16 none d.val (0x100000 + 32 * i) (detS d.val i)
    else none

/-! ## Scratchpads and sync (statuses 17 to 19) -/

/-- The owner code of a bank in an NCLK of a core's bank slot table (R227). -/
def slotCode (s : State) (c : CoreId) (t b : Nat) : Nat :=
  bits (s.rd64 Reg.CP_BSLOT_LO Reg.CP_BSLOT_HI (coreU c) t) (4 * b) 4

/-- Status 17 (R228). -/
def ckSlots (k : Ck) : Option Fail :=
  allCores.findSome? fun c =>
    let held := fun b o => ((List.range 16).filter fun t => slotCode k.h c t b == o).length
    let ok := (List.range 16).all (fun t => (List.range 16).all fun b => decide (slotCode k.h c t b ≤ 5))
      && (List.range 16).all (fun b => (List.range 6).all fun o => held b o == held 0 o) && held 0 0 != 0
    if ok then none else failAt k 17 (some c) 0 0xE80 (detD c.die.val)

/-- Status 18 (R255, R266). -/
def ckRange (k : Ck) : Option Fail :=
  allCores.findSome? fun c => (List.range 4).findSome? fun n =>
    let u := coreU c
    let a := k.h.rd64 Reg.CP_RCRNG_BASE_LO Reg.CP_RCRNG_BASE_HI u n
    let b := k.h.rd64 Reg.CP_RCRNG_LIMIT_LO Reg.CP_RCRNG_LIMIT_HI u n
    if k.h.rb Reg.CP_RCRNG_EN u n && !((mgaClass a == 0 || mgaClass a == 3) && mgaClass a == mgaClass b
        && a % 4096 == 0 && b % 4096 == 4095) then
      failAt k 18 (some c) 0 (0xF80 + 16 * n) (detD c.die.val)
    else none

/-- Status 19 (R323): one group for each gather and each general group, at most 64 on a die. -/
def ckSync (k : Ck) : Option Fail :=
  allDies.findSome? fun d =>
    let gen := (List.range 64).filter fun g => k.h.rd Reg.SY_GRP_PHASE d.val g == 0
      && (k.h.rd Reg.SY_GRP_MEMLO d.val g != 0 || k.h.rd Reg.SY_GRP_MEMHI d.val g != 0)
    if gen.length + (gathersOn k.h d).length > 64 then failAt k 19 none d.val 0x5400 (detD d.val) else none

/-! ## Streams (status 20) -/

/-- The identifiers of the fallback sets of an image, by section. -/
def setsOf (recs : List ImgRec) : List Nat := ((recs.filter fun r => r.ty == 12).map ImgRec.set).eraseDups

/-- True when an endpoint kind and its MGA agree (R281). -/
def sideOk (s : State) (d : DieId) (i : Nat) (dst : Bool) : Bool :=
  let p := sideOf s d i dst
  match p.1 with
  | 1 => mgaFormed p.2 && mgaClass p.2 == 0 && p.2 % 64 == 0
  | 2 => mgaFormed p.2 && mgaClass p.2 == 3 && p.2 % 64 == 0
  | 3 => dst && mgaClass p.2 == 0
  | 4 => mgaClass p.2 == 5 && p.2 % 64 == 0
  | _ => false

/-- The cores whose routers add their own flits to a fold stream (R627): its contributors beside the core that SRC names. -/
def foldCores (s : State) (d : DieId) (i : Nat) : List CoreId :=
  if sd s d i Reg.DN_DESC_FOLD = 1 then (dieCores d).filter fun c => foldsLocal s c i else []

/-- True when the rows of a side that no list chooses lie in the populated range of every core that holds them (R626, R627). -/
def rowsOk (s : State) (d : DieId) (i : Nat) (dst : Bool) : Bool :=
  let p := sideOf s d i dst
  let stride := if dst then sd s d i Reg.DN_DESC_DSTRIDE else sd s d i Reg.DN_DESC_SSTRIDE
  let n := 64 * (stride * (sd s d i Reg.DN_DESC_ROWS - 1) + sd s d i Reg.DN_DESC_ROWLEN)
  if sd s d i Reg.DN_DESC_INDEXED = 1 ∧ (sd s d i Reg.DN_DESC_IDXSIDE == 1) = dst then true
  else match p.1 with
    | 1 => (mgaCore p.2 :: (if dst then [] else foldCores s d i)).all fun c => decide (mgaOff25 p.2 + n ≤ spLimit s c)
    | 2 => decide (mgaOff36 p.2 + n ≤ stackSize)
    | _ => true

/-- True when a stream index appears in a span map (R419). -/
def inSpanMap (s : State) (i : Nat) : Bool :=
  i != 0x7FFF && (List.range 8).any fun m => (List.range 1024).any fun e =>
    s.rb Reg.SPMAP_V 0 m e && s.rd Reg.SPMAP_LSTREAM 0 m e == i

/-- True when a descriptor keeps R280, R281, R293, R305, R419, R626 and R627. -/
def descOk (s : State) (d : DieId) (i : Nat) : Bool :=
  let f := fun F : Field => sd s d i F
  f Reg.DN_DESC_VALID == 0 || (
    sideOk s d i false && sideOk s d i true && rowsOk s d i false && rowsOk s d i true
      && f Reg.DN_DESC_ROWLEN != 0 && f Reg.DN_DESC_CREDIT != 0 && f Reg.DN_DESC_ROWS != 0
      && (if f Reg.DN_DESC_FOLD = 1 then f Reg.DN_DESC_SRCK == skSp && decide (f Reg.DN_DESC_CREDIT ≤ 64)
          && !inSpanMap s (f Reg.DN_DESC_PEER)
        else f Reg.DN_DESC_RANK == 0))

/-- The entries of a router's tables in a bank, for the slots of its frame: output, slot, entry. -/
def tabEntries (s : State) (c : CoreId) : List (Nat × Nat × TabEnt) :=
  (List.range 9).flatMap fun p => (List.range (s.rd Reg.DN_FRAME_FLEN c.die.val)).map fun t => (p, t, tabEnt s c p t)

/-- True when a record writes a 1 to a reserved bit of a stream descriptor (R305). -/
def descReserved (r : ImgRec) : Bool :=
  r.dieSpace && ((List.range r.words.length).zip r.words).any fun p =>
    let o := r.off + 4 * p.1
    decide (0x100000 ≤ o ∧ o < 0x200000) && ((o % 32 == 0 && bits p.2 14 2 != 0) || (o % 32 == 28 && bits p.2 27 5 != 0))

/-- The first router whose fold streams have CREDIT summing to more than its buffer (R293). -/
def foldsBad (s : State) (l : List CoreId) : Option CoreId :=
  l.find? fun c =>
    let is := (((tabEntries s c).filter fun e => e.2.2.v && e.2.2.fold).map fun e => e.2.2.stream).eraseDups
    decide ((is.map fun i => sd s c.die i Reg.DN_DESC_CREDIT).sum > 128)

/-- The section of an image that holds a fallback set. -/
def setSec (k : Ck) (n : Nat) : Nat := ((k.recs.find? fun r => r.ty == 12 && r.set == n).map ImgRec.sec).getD 0xFFFF

/-- Status 20 (R281, R293, R305, R419, R626, R627). -/
def ckStream (k : Ck) : Option Fail :=
  let s := k.h
  let rsv := k.recs.findSome? fun r => if descReserved r then some ⟨20, r.sec, detD r.die⟩ else none
  let one := allDies.findSome? fun d => (List.range 32768).findSome? fun i =>
    if descOk s d i then none else failAt k 20 none d.val (0x100000 + 32 * i) (detS d.val i)
  let fold := ((foldsBad s allCores).or (foldsBad (primState k) allCores)).map fun c => ⟨20, 0xFFFF, detD c.die.val⟩
  let sets := (setsOf k.recs).findSome? fun n =>
    let ds := ((setRecs k n).map fun r => (Fin.ofNat 4 r.die : DieId)).eraseDups
    (foldsBad (setState k n) (ds.flatMap dieCores)).map fun c => ⟨20, setSec k n, detD c.die.val⟩
  rsv.or (one.or (fold.or sets))

/-! ## Schedules (status 21) -/

/-- True when a router port leads to another router or to a cane port, or is the core itself (R269, R270, R273). -/
def hasPartner (c : CoreId) (p : Nat) : Bool :=
  p == 0 || (linkOf c p).isSome || (edgeOf c p false).isSome

/-- True when an entry of a router's table keeps R276; `primary` forbids the skip ports. -/
def entryOk276 (s : State) (c : CoreId) (primary : Bool) (all : List (Nat × Nat × TabEnt)) (p t : Nat) (e : TabEnt) : Bool :=
  let ins := if e.fold then [e.inp, e.in2] else [e.inp]
  !e.v || (
    s.rb Reg.DN_DESC_VALID c.die.val e.stream && hasPartner c p
      && e.inp != p && ins.all (fun i => hasPartner c i && !(primary && decide (i ≥ 5)))
      && (!e.fold || (e.in2 != e.inp && sd s c.die e.stream Reg.DN_DESC_FOLD == 1))
      && (!e.alt || (p == 3 && decide (c.lc.val ≥ 62))) && !(primary && decide (p ≥ 5))
      && all.all fun q => q.1 == p || q.2.1 != t || !q.2.2.v || q.2.2.stream != e.stream
        || !(ins.any fun i => i == q.2.2.inp || (q.2.2.fold && i == q.2.2.in2)))

/-- The first entry of a die's routers that breaks R276. -/
def routersBad (s : State) (d : DieId) (primary : Bool) : Option (CoreId × Nat × Nat) :=
  (dieCores d).findSome? fun c =>
    let l := tabEntries s c
    l.findSome? fun e => if entryOk276 s c primary l e.1 e.2.1 e.2.2 then none else some (c, e.1, e.2.1)

/-- The words of an image's records that lie in router or cane tables at or beyond the frame's end and are not 0 (R276). -/
def beyondFrame (s : State) (r : ImgRec) : Bool :=
  let n := s.rd Reg.DN_FRAME_FLEN r.die
  ((List.range r.words.length).zip r.words).any fun p =>
    let o := r.off + 4 * p.1
    p.2 != 0 && ((!r.dieSpace && decide (0x100000 ≤ o ∧ o < 0x124000 ∧ n ≤ (o - 0x100000) % 0x4000 / 4))
      || (r.dieSpace && decide (0x400000 ≤ o ∧ o < 0x520000 ∧ n ≤ (o - 0x400000) % 0x8000 / 8)))

/-- Sub-slots a port carries at a width, and the idle ones R406 asks for. -/
def subsAt (width : Nat) : Nat := match width with | 0 => 4 | 1 => 2 | _ => 1
def idleAt (width : Nat) : Nat := match width with | 0 => 120 | 1 => 60 | _ => 14

/-- True when one direction of a die port's table keeps R276, R399 and R406 at a width. A receiving entry belongs to the sender's slot
24 earlier (R278, R403). -/
def caneOk (s : State) (d : DieId) (n : Fin 9) (rx : Bool) (width : Nat) : Bool :=
  let flen := s.rd Reg.DN_FRAME_FLEN d.val
  let base := (if rx then 8192 else 0) + 4096 * portBank s d.val n.val
  let two := n.val == 0 || decide (n.val ≥ 5)
  let slots := List.range flen
  let used := fun t j => laneTab s (.die d n) (base + t) j
  let taken := fun t => claimed flen width (if rx then (t + flen - 24) % flen else t)
  slots.all (fun t => (List.range 4).all fun j => match used t j with
    | none => true
    | some i => s.rb Reg.DN_DESC_VALID d.val i && !taken t && !(two && decide (j ≥ 2)))
  && decide (idleAt width ≤ ((slots.filter fun t => !taken t).map fun t =>
      ((List.range (subsAt width)).filter fun j => (used t j).isNone).length).sum)

/-- True when the receiving end of a port holds the pattern that the sending end holds, 24 slots earlier, each stream under the index
that `same` accepts (R278, R403). -/
def tablesMatch (s : State) (flen : Nat) (tx rx : PortId) (btx brx : Nat) (same : Nat → Nat → Bool) : Bool :=
  (List.range flen).all fun t => (List.range 4).all fun j =>
    match laneTab s tx (4096 * btx + t) j, laneTab s rx (8192 + 4096 * brx + (t + 24) % flen) j with
    | none, none => true
    | some i, some q => same i q
    | _, _ => false

/-- True when what a port of a die sends matches what the port it faces receives (R278): on a ring port by PEER, at the hub, in both
directions, by the same index. A stack's end has no table of its own. -/
def portMatch (s : State) (d : DieId) (n : Fin 9) : Bool :=
  let flen := s.rd Reg.DN_FRAME_FLEN d.val
  let b := portBank s d.val n.val
  match peerPort (.die d n) with
  | some (.die e m) =>
    tablesMatch s flen (.die d n) (.die e m) b (portBank s e.val m.val) fun i q => sd s e q Reg.DN_DESC_PEER == i
  | some (.hub e) =>
    tablesMatch s flen (.die d n) (.hub e) b b (· == ·) && tablesMatch s flen (.hub e) (.die d n) b b (· == ·)
  | _ => true

/-- True when a port of a die and the port it faces match in both directions. -/
def bothMatch (s : State) (d : DieId) (n : Fin 9) : Bool :=
  portMatch s d n && match peerPort (.die d n) with
    | some (.die e m) => portMatch s e m
    | _ => true

/-- The first fault of the cane tables of some dies at the widths given by port and direction, with the ports whose ends are matched. -/
def canesBad (s : State) (ds : List DieId) (matched : List (Fin 9)) (width : DieId → Fin 9 → Bool → Nat) : Option (DieId × Nat) :=
  ds.findSome? fun d => (List.finRange 9).findSome? fun n =>
    if !caneOk s d n false (width d n false) then some (d, 0x400000 + 0x20000 * n.val)
    else if !caneOk s d n true (width d n true) then some (d, 0x410000 + 0x20000 * n.val)
    else if matched.contains n && !bothMatch s d n then some (d, 0x400000 + 0x20000 * n.val)
    else none

/-- The width at which a fallback set's tables of a port are checked in one direction (R399, R406, R553): that of its key, for the key's
port in the key's direction, 0 receive and 1 transmit, and for the port it faces in the other; else full. -/
def setWidth (recs : List ImgRec) (d : DieId) (n : Fin 9) (rx : Bool) : Nat :=
  match recs.find? fun r => r.dieSpace && r.off == 0x1D8 with
  | some r =>
    let w := (r.words[0]?).getD 0
    let p : PortId := .die (Fin.ofNat 4 r.die) (Fin.ofNat 9 (bits w 2 4))
    let tx := bit w 9
    if bits w 0 2 = 2 ∧ ((p = .die d n ∧ rx = !tx) ∨ (peerPort p = some (.die d n) ∧ rx = tx)) then bits w 11 2 else 0
  | none => 0

/-- Checks one fallback set. The hub's end of CH follows its die's table. -/
def ckSet (k : Ck) (n : Nat) : Option Fail :=
  let l := setRecs k n
  let s := setState k n
  let ds := (l.map fun r => Fin.ofNat 4 r.die).eraseDups
  match ds.findSome? fun d => routersBad s d false with
  | some p => some ⟨21, setSec k n, detD p.1.die.val⟩
  | none => (canesBad s ds [1, 2, 3, 4] (setWidth l)).map fun p => ⟨21, setSec k n, detD p.1.val⟩

/-- Checks the router and cane tables of some dies in a state: `primary` forbids skip ports and also matches CH with the hub's table. -/
def ckTables (k : Ck) (s : State) (ds : List DieId) (primary : Bool) : Option Fail :=
  let routers := ds.findSome? fun d => (routersBad s d primary).bind fun p =>
    failAt k 21 (some p.1) 0 (0x100000 + 0x4000 * p.2.1 + 4 * p.2.2) (detD p.1.die.val)
  let canes := (canesBad s (ds.filter fun d => s.rd Reg.DN_FRAME_FLEN d.val != 0)
    (if primary then [0, 1, 2, 3, 4] else [1, 2, 3, 4]) fun _ _ _ => 0).bind fun p => failAt k 21 none p.1.val p.2 (detD p.1.val)
  routers.or canes

/-- Status 21 (R274, R276, R278, R301, R399, R406): the primary tables, those in force where a segment finds a fallback set in force,
whose width its own check has judged, and every fallback set. -/
def ckSched (k : Ck) : Option Fail :=
  let s := k.h
  let frame := allDies.findSome? fun d =>
    let n := s.rd Reg.DN_FRAME_FLEN d.val
    let named := fun e : DieId => k.recs.any fun r => r.die == e.val
    if named d && (n == 0 || allDies.any fun e => named e && s.rd Reg.DN_FRAME_FLEN e.val != n) then
      failAt k 21 none d.val 0x4000 (detD d.val)
    else none
  let far := k.recs.findSome? fun r => if beyondFrame s r then some ⟨21, r.sec, detD r.die⟩ else none
  let act := (allDies.filter fun d => s.rd Reg.DN_TBLSEL_ACT_SET d.val != 0).findSome? fun d =>
    (routersBad s d false).bind fun p => failAt k 21 (some p.1) 0 (0x100000 + 0x4000 * p.2.1 + 4 * p.2.2) (detD p.1.die.val)
  let sets := (setsOf k.recs).findSome? (ckSet k)
  frame.or (far.or ((ckTables k (primState k) allDies true).or (act.or sets)))

/-! ## Queues (status 22) -/

/-- The queues of a core that an image writes. -/
def imgQueues (k : Ck) (c : CoreId) : List Nat :=
  (List.range 256).filter fun q => (List.range 4).any fun j => imgWrites k.recs (some c) 0 (0x2000 + 16 * q + 4 * j)

/-- True when a node identity may send on a queue (R334, R338). -/
def senderOk (n : Nat) : Bool :=
  match nodeOfNum n with
  | some (.core _) => true
  | some (.hub u) => u.val != 4 && decide (u.val < 6)
  | _ => false

/-- True when a sender's send-table entry agrees with a queue (R366, R381). -/
def sendAgrees (s : State) (c : CoreId) (q : Nat) : Bool :=
  let u := coreU c
  let h := handleOf s c q
  match nodeOfNum (s.rd Reg.CQ_Q_SENDER u q) with
  | some (.core e) =>
    let v := coreU e
    (List.range 256).any fun i => s.rb Reg.CQ_S_VALID v i && s.rd Reg.CQ_S_HANDLE v i == h
      && s.rd Reg.CQ_S_KIND v i == b2n (s.rd Reg.CQ_Q_RSIZE u q != 0)
      && s.rd Reg.CQ_S_ECRED v i == depthOf (s.rd Reg.CQ_Q_DEPTH u q)
      && s.rd Reg.CQ_S_RSIZE v i == s.rd Reg.CQ_Q_RSIZE u q
  | _ => true

/-- Status 22 (R338, R347, R366). -/
def ckQueue (k : Ck) : Option Fail :=
  let s := k.h
  allCores.findSome? fun c =>
    let u := coreU c
    let qs := imgQueues k c
    qs.findSome? fun q =>
      let base := s.rd Reg.CQ_Q_RBASE u q
      let size := s.rd Reg.CQ_Q_RSIZE u q
      let ok := s.rd Reg.CQ_Q_GEN u q != 0 && senderOk (s.rd Reg.CQ_Q_SENDER u q) && decide (size ≤ 4096)
        && (size == 0 || (decide ((base + size) * 4096 ≤ spLimit s c) && qs.all fun p => p == q
          || !meet base (base + size) (s.rd Reg.CQ_Q_RBASE u p) (s.rd Reg.CQ_Q_RBASE u p + s.rd Reg.CQ_Q_RSIZE u p)))
        && sendAgrees s c q
      if ok then none else failAt k 22 (some c) 0 (0x2000 + 16 * q) (detD c.die.val)

/-! ## Power and stacks (statuses 23 and 24) -/

/-- Status 23 (R511, R513): only an image with a POWER section. -/
def ckPower (k : Ck) : Option Fail :=
  match k.recs.find? fun r => r.ty == 13 with
  | none => none
  | some r0 =>
    let sh := fun d : DieId => k.h.rd Reg.LH_SHARE_PZ d.val
    let share := allDies.findSome? fun d =>
      if 400 ≤ sh d ∧ sh d ≤ 1400 then none else failAt k 23 none d.val 0x7004 (detD d.val)
    let sum := if (allDies.map sh).sum > k.cur.rd Reg.LH_MCAP_CAP 0 - 1000 then some ⟨23, r0.sec, 0⟩ else none
    let hint := (definedGathers k.h).findSome? fun g => (List.range 256).findSome? fun p =>
      if bits (hintOf k.h g p) 0 4 > 8 then
        failAt k 23 none g.die.val (0x8000 + 512 * g.idx.val + p / 2 * 4) (detG g)
      else none
    share.or (sum.or hint)

/-- True when a view of a stack keeps R463. -/
def viewOk (s : State) (k v : Nat) : Bool :=
  let n := rdT s k Reg.TS_VIEW_NST v
  let l := viewList s k v
  decide (1 ≤ n ∧ n ≤ 16) && rdT s k Reg.TS_VIEW_RB v != 0 && l.eraseDups.length == l.length

/-- The FROZEN fields of a layer entry (R464). -/
def layerFields : List Field :=
  [Reg.TS_LAYER_RULE, Reg.TS_LAYER_GFMT, Reg.TS_LAYER_CFMT, Reg.TS_LAYER_CBLK, Reg.TS_LAYER_CRULE, Reg.TS_LAYER_RWATCH,
   Reg.TS_LAYER_VIEW, Reg.TS_LAYER_EN, Reg.TS_LAYER_LAYER, Reg.TS_LAYER_NROWS, Reg.TS_LAYER_K, Reg.TS_LAYER_WBASE_LO,
   Reg.TS_LAYER_WBASE_HI, Reg.TS_LAYER_MBASE_LO, Reg.TS_LAYER_MBASE_HI, Reg.TS_LAYER_VBASE_LO, Reg.TS_LAYER_VBASE_HI,
   Reg.TS_LAYER_CBASE_LO, Reg.TS_LAYER_CBASE_HI, Reg.TS_LAYER_GBASE_LO, Reg.TS_LAYER_GBASE_HI, Reg.TS_LAYER_LR,
   Reg.TS_LAYER_B1, Reg.TS_LAYER_B2, Reg.TS_LAYER_EPS, Reg.TS_LAYER_WD, Reg.TS_LAYER_TMAX, Reg.TS_LAYER_RATIO_LO,
   Reg.TS_LAYER_RATIO_HI]

/-- The fields of a view. -/
def viewFields : List Field := [Reg.TS_VIEW_LISTLO, Reg.TS_VIEW_LISTHI, Reg.TS_VIEW_NST, Reg.TS_VIEW_RB, Reg.TS_VIEW_VALID]

/-- True when a layer entry in use keeps R435, R451 and R464. -/
def layerOk (s : State) (k l : Nat) : Bool :=
  let v := rdT s k Reg.TS_LAYER_VIEW l
  let cf := rdT s k Reg.TS_LAYER_CFMT l
  let cb := rdT s k Reg.TS_LAYER_CBLK l
  let kk := layerK s k l
  let same := fun j => layerFields.all (fun F => rdT s j F l == rdT s k F l) && viewFields.all fun F => rdT s j F v == rdT s k F v
  rdT s k Reg.TS_VIEW_VALID v == 1 && (layerStacks s k l).contains k && (layerStacks s k l).all same
    && decide (rdT s k Reg.TS_LAYER_RULE l ≤ 2) && rdT s k Reg.TS_LAYER_NROWS l != 0
    && decide (32 ≤ kk ∧ kk ≤ 65536) && kk % 32 == 0
    && [wBase s k l, mBase s k l, vBase s k l, cBase s k l, gBase s k l].all (fun b => b % 64 == 0)
    && (if cf = 1 ∨ cf = 2 then decide (1 ≤ cb ∧ cb ≤ 5) else cb == 0) && (wpMaster s k || cf == 3)

/-- Status 24 (R463, R464): only an image with a STACK section. -/
def ckView (k : Ck) : Option Fail :=
  if !k.recs.any fun r => r.ty == 14 then none
  else
    let s := k.h
    let at_ := fun j o : Nat => failAt k 24 none (j / 4) (0x800000 + 0x40000 * (j % 4) + o) (detD (j / 4))
    let view := (List.range 16).findSome? fun j => (List.range 64).findSome? fun v =>
      if rdT s j Reg.TS_VIEW_VALID v = 1 ∧ !viewOk s j v then at_ j (0x1000 + 16 * v) else none
    let layer := (List.range 16).findSome? fun j => (List.range 1024).findSome? fun l =>
      if rdT s j Reg.TS_LAYER_EN l = 1 ∧ !layerOk s j l then at_ j (0x20000 + 128 * l) else none
    view.or layer

/-! ## Segments (status 25) -/

/-- The word of a slot table that a fallback set, or the primary set where another is in force, holds in the images in
force (R386). -/
def heldWord (images : List Image) (set : Nat) (c : Option CoreId) (d off : Nat) : Nat :=
  images.foldl (fun v im => im.recs.foldl (fun v r =>
    if (if set = 0 then r.ty == 8 || r.ty == 9 else r.ty == 12 && r.set == set) && recTouches r c d off then
      (r.words[(off - r.off) / 4]?).getD v
    else v) v) 0

/-- The word of a slot table, for a set: from the bank in force where the set is in force, else as held. -/
def tableWord (s : State) (set : Nat) (c : Option CoreId) (d off : Nat) : Nat :=
  if s.rd Reg.DN_TBLSEL_ACT_SET d = set then
    match c with
    | some e => wordOf s (coreU e) (wordFields .core (bankOffset false off (bankIn s d 9)))
    | none => wordOf s d (wordFields .die (bankOffset true off (bankIn s d (offPort off))))
  else heldWord s.load.images set c d off

/-- True when a half of a table entry is idle or names a stream of a range. -/
def entryMine (lo hi v : Nat) : Bool := !bit v 15 || decide (lo ≤ v % 2 ^ 15 ∧ v % 2 ^ 15 < hi)

/-- True when a segment may write a word of a slot table (R386). -/
def tableMay (s : State) (g : Gather) (set : Nat) (c : Option CoreId) (d off v : Nat) : Bool :=
  let p := rangeOf s g
  let w := tableWord s set c d off
  match c with
  | some _ => w == v || entryMine p.1 p.2 w
  | none => (w % 2 ^ 16 == v % 2 ^ 16 || entryMine p.1 p.2 (w % 2 ^ 16))
    && (w / 2 ^ 16 == v / 2 ^ 16 || entryMine p.1 p.2 (w / 2 ^ 16))

/-- The die-space ranges that belong to a gather (R386): from, bytes. -/
def ownWords (s : State) (g : Gather) : List (Nat × Nat) :=
  let i := g.idx.val
  [(0x2000 + 4 * i, 4), (0x3600 + 16 * i, 16), (0x3100 + 4 * i, 4), (0x3200 + 4 * i, 4), (0x300000 + 0x2000 * i, 0x2000),
   (0x5400 + 16 * s.rd Reg.PZ_GATHER_SYNCG g.die.val i, 16), (0x7100 + 4 * i, 4), (0x8000 + 0x200 * i, 0x200)]

/-- True when a segment may write one word (R386). -/
def segmentMay (s : State) (g : Gather) (r : ImgRec) (c : Option CoreId) (off v : Nat) : Bool :=
  let set := if r.ty = 12 then r.set else 0
  match c with
  | some e =>
    if 0x100000 ≤ off ∧ off < 0x124000 then tableMay s g set c r.die off v else e.die == g.die && inGather s g e.lc
  | none =>
    if 0x400000 ≤ off ∧ off < 0x520000 then tableMay s g set none r.die off v
    else if r.ty = 12 then off == 0x1D8
    else if 0x100000 ≤ off ∧ off < 0x200000 then
      decide ((rangeOf s g).1 ≤ (off - 0x100000) / 32 ∧ (off - 0x100000) / 32 < (rangeOf s g).2)
    else
      let i := g.idx.val
      r.die == g.die.val && (ownWords s g).any (fun p => decide (p.1 ≤ off ∧ off < p.1 + p.2))
        && (off != 0x3600 + 16 * i || v % 2 ^ 12 == wordOf s r.die (wordFields .die off) % 2 ^ 12)
        && (off != 0x3604 + 16 * i || v == wordOf s r.die (wordFields .die off))

/-- The words of a record: core (none in die space), offset, value. -/
def recWords (r : ImgRec) : List (Option CoreId × Nat × Nat) :=
  let ws := ((List.range r.words.length).zip r.words).map fun p => (r.off + 4 * p.1, p.2)
  if r.dieSpace then ws.map fun p => (none, p.1, p.2)
  else (recCores r).flatMap fun c => ws.map fun p => (some c, p.1, p.2)

/-- True when a record's table words name a stream of a range. -/
def namesRange (lo hi : Nat) (r : ImgRec) : Bool :=
  ((List.range r.words.length).zip r.words).any fun p =>
    let o := r.off + 4 * p.1
    let named := fun v : Nat => bit v 15 && decide (lo ≤ v % 2 ^ 15 ∧ v % 2 ^ 15 < hi)
    (!r.dieSpace && decide (0x100000 ≤ o ∧ o < 0x124000) && named (p.2 % 2 ^ 16))
      || (r.dieSpace && decide (0x400000 ≤ o ∧ o < 0x520000) && (named (p.2 % 2 ^ 16) || named (p.2 / 2 ^ 16)))

/-- The fallback sets of the images in force whose tables name a gather's streams (R386). -/
def setsNeeded (s : State) (g : Gather) : List Nat :=
  (s.load.images.flatMap fun im => (im.recs.filter fun r => r.ty == 12
    && namesRange (rangeOf s g).1 (rangeOf s g).2 r).map ImgRec.set).eraseDups

/-- R301: a segment without entries for the set in force. -/
def ckActive (k : Ck) (g : Gather) : Option Fail :=
  let act := (allDies.map fun d => k.cur.rd Reg.DN_TBLSEL_ACT_SET d.val).filter (· ≠ 0)
  if (setsNeeded k.cur g).any fun n => act.contains n && !(setsOf k.recs).contains n then some ⟨21, 0xFFFF, detG g⟩
  else none

/-- Status 25 (R386). -/
def ckSegment (k : Ck) (g : Gather) : Option Fail :=
  let word := k.recs.findSome? fun r =>
    if (recWords r).all fun p => segmentMay k.cur g r p.1 p.2.1 p.2.2 then none else some ⟨25, r.sec, detG g⟩
  let set := if (setsNeeded k.cur g).all fun n => (setsOf k.recs).contains n then none else some ⟨25, 0xFFFF, detG g⟩
  if gatherDefined k.cur g then word.or set else some ⟨25, 0xFFFF, detG g⟩

/-! ## All checks, in order -/

/-- The checks from 9 on, for records that parse. -/
def ckContent (cur : State) (seg : Option Gather) (feat : Nat) (recs : List ImgRec) : Option Fail :=
  let k : Ck := ⟨cur, hypState cur seg recs, recs, seg, feat⟩
  let early := (ckLicence k).or ((ckAbsent k).or ((ckDown k).or ((ckGather k).or ((ckPhase k).or ((ckFormat k).or
    ((ckLadder k).or (ckFold k)))))))
  let late := (ckSlots k).or ((ckRange k).or ((ckSync k).or ((ckStream k).or (ckSched k))))
  let last := (ckQueue k).or ((ckPower k).or (ckView k))
  match seg with
  | none => early.or (late.or last)
  | some g => early.or (late.or ((ckActive k g).or (last.or (ckSegment k g))))

/-- The image at a staging address, once its checks have passed. -/
def imageOf (s : State) (src : Nat) (recs : List ImgRec) : Image :=
  { seg := if imgKind s src = 0 then none else some (64 * imgDie s src + imgGather s src)
    src := src, len := imgLen s src, digest := imgDigest s src, id := imgId s src, features := imgFeatures s src
    nsect := imgNsect s src, recs := recs }

/-- The digest in force, as a number (R391). -/
def digestInForce (s : State) : Nat := (List.range 8).foldl (fun a k => a + s.rd Reg.PZ_DIGEST_DIGEST 0 k * 2 ^ (32 * k)) 0

/-- The checks of R381 in their order: the first that fails, or the image. -/
def checkImage (s : State) (src len : Nat) : Except Fail Image :=
  let h := fun st : Nat => Except.error (⟨st, 0xFFFF, 0⟩ : Fail)
  let keys := (s.chip.owner.map Owner.pzKeys).getD []
  let key := (keys[imgKeyIdx s src]?).getD 0
  let kind := imgKind s src
  let seg : Option Gather := if kind = 1 then some ⟨Fin.ofNat 4 (imgDie s src), Fin.ofNat 64 (imgGather s src)⟩ else none
  if imgUe s src 128 then h 28
  else if imgRead s src 0 4 ≠ 0x5052534E then h 3
  else if imgRead s src 4 2 ≠ 3 ∨ imgRead s src 6 2 > 255 then h 4
  else if imgLen s src ≠ len ∨ imgLen s src % 64 ≠ 0 ∨ imgLen s src > 2 ^ 29 then h 5
  else if imgUe s src (imgLen s src) then h 28
  else if key = 0 ∨ !Config.sm2Verify key (imgDigest s src) (imgSig s src) then h 6
  else if kind = 1 ∧ (!s.rb Reg.PZ_HSTAT_SEALED 0 ∨ imgBase s src ≠ digestInForce s) then h 7
  else match parseImage s src with
    | .error i => .error ⟨8, i, 0⟩
    | .ok recs => match ckContent s seg (imgFeatures s src) recs with
      | some f => .error f
      | none => .ok (imageOf s src recs)

end Sys2Proof.Machine
end

