-- ==== Sys2Proof/Machine/Parison.lean ====
section
/-! DEFINITION. Loading a parison (R380-R391) and the step boundary (R375): staging, checking, waiting, applying and sealing
of full images and segments, and what the hub does when a step ends. -/

namespace Sys2Proof.Machine

/-! ## Stages -/

/-- The stages of PZ_HSTAT (R391); SEALING passes within the event that ends APPLYING. -/
def pzIdle : Nat := 0
def pzChecking : Nat := 1
def pzWaiting : Nat := 2
def pzApplying : Nat := 3
def pzSealing : Nat := 4

/-- The stage of the load in progress. -/
def pzStage (s : State) : Nat := s.rd Reg.PZ_HSTAT_STAGE 0

/-- Sets the stage. -/
def setStage (s : State) (v : Nat) : State := s.wr Reg.PZ_HSTAT_STAGE 0 v

/-- A load ends with a status (R391): DONE is set and its interrupt raised. -/
def endLoad (s : State) (status : Nat) : State :=
  let s1 := ((setStage s pzIdle).wr Reg.PZ_HSTAT_STATUS 0 status).wb Reg.PZ_HSTAT_DONE 0 true
  signal { s1 with load := { s1.load with img := none, ready := false, sect := 0, acks := [] } } 64

/-- Unlocks the staging ranges a test names (R380). -/
def unlock (s : State) (f : LockFor → Bool) : State := { s with locks := s.locks.filter fun l => !f l.for_ }

/-- The gather of a unit number. -/
def gatherOfU (u : Nat) : Gather := ⟨Fin.ofNat 4 (u / 64), Fin.ofNat 64 u⟩

/-- Sets PZ_GATHER.STATE (R392). -/
def setGst (s : State) (g : Gather) (v : Nat) : State := s.wr Reg.PZ_GATHER_STATE g.die.val v g.idx.val

/-- True while the module is given up by its owner (R573). -/
def releasing (s : State) : Bool := s.rd Reg.BT_STAT_OWNER 0 == 2

/-! ## LOAD, checks, ABORT -/

/-- R380, R389, R390: LOAD, by host software and module firmware only; BUSY while a load is in progress. -/
def execLoad (r : Requester) (s : State) : Host.Outcome State Fault Refusal :=
  .next (if !mayWrite .hostfw r .hub 0 then s.lg LogKind.ignoredWrite hubN [Reg.PZ_HCMD_OP.id]
    else if pzStage s ≠ pzIdle then
      signal ((s.wr Reg.PZ_HSTAT_STATUS 0 1).wb Reg.PZ_HSTAT_DONE 0 true) 64
    else if releasing s then endLoad s 1
    else
      let src := s.rd64 Reg.PZ_HSRC_LO Reg.PZ_HSRC_HI 0
      let len := s.rd Reg.PZ_HLEN_LEN 0
      let s1 := setStage s pzChecking
      { s1 with locks := s1.locks ++ [⟨src, src + len, .loading⟩], load := { s1.load with src := src, len := len } })

/-- A load ends that did not fail: after a full one FAILED is 0 (R391). -/
def fullEnded (s : State) (full : Bool) : State := if full then s.wb Reg.PZ_HSTAT_FAILED 0 false else s

/-- A load is refused (R381): its kind, status, section and detail are reported, the range is unlocked, and the refusal is logged with
the image's identifier and digest. -/
def refuseLoad (s : State) (f : Fail) : State :=
  let src := s.load.src
  let seg := imgKind s src == 1
  let s0 := ((s.wb Reg.PZ_HSTAT_KIND 0 seg).wr Reg.PZ_HSTAT_SDIE 0 (if seg then imgDie s src else s.rd Reg.PZ_HSTAT_SDIE 0)).wr
    Reg.PZ_HSTAT_SGATHER 0 (if seg then imgGather s src else s.rd Reg.PZ_HSTAT_SGATHER 0)
  let s1 := (s0.wr Reg.PZ_HERR_SECTION 0 f.sect).wr Reg.PZ_HERR_DETAIL 0 f.detail
  let s2 := (fullEnded s1 (!seg)).lg LogKind.loadRefused hubN [f.status, imgId s src, imgDigest s src]
  endLoad (unlock s2 (· == .loading)) f.status

/-- The hub has read the image that it checks, or its header where that stands against the rest (R381, R456). -/
def checkReads (s : State) : State :=
  let whole := !imgUe s s.load.src 128 && imgLen s s.load.src == s.load.len && decide (s.load.len ≤ 2 ^ 29)
  imgTouch s s.load.src (if whole then s.load.len else 128)

/-- R381, R387: the checks end. An image that passes waits: a segment's gather is WAITING. -/
def execParisonCheckComplete (s0 : State) : Host.Outcome State Fault Refusal :=
  let s := checkReads s0
  .next (if pzStage s0 ≠ pzChecking then s0
    else match checkImage s s.load.src s.load.len with
      | .error f => refuseLoad s f
      | .ok im =>
        let s1 := (setStage s pzWaiting).wb Reg.PZ_HSTAT_KIND 0 im.seg.isSome
        match im.seg with
        | none => { s1 with load := { s1.load with img := some im, ready := false } }
        | some u =>
          let g := gatherOfU u
          let once := s1.rb Reg.PZ_GATHER_DEGRADED g.die.val g.idx.val
            || s1.rd Reg.PZ_GATHER_STATE g.die.val g.idx.val == gsFailed
          let s2 := (s1.wr Reg.PZ_HSTAT_SDIE 0 g.die.val).wr Reg.PZ_HSTAT_SGATHER 0 g.idx.val
          setGst { s2 with load := { s2.load with
            img := some im, ready := once, was := s.rd Reg.PZ_GATHER_STATE g.die.val g.idx.val } } g gsWaiting)

/-- Offers the release of phase 0 (R375, R490): withheld while HOLD is set, until a banked release is spent. -/
def offerStep (s : State) : State :=
  if s.rb Reg.HB_STEPCTL_HOLD 0 then spendRelease (signal (s.wb Reg.HB_STEPCTL_HELD 0 true) 65) else releaseStep s

/-- Takes back what a wait withholds (R390): the phase 0 of a segment's gather, which keeps the state it had, or of every gather. -/
def endWait (s : State) : State :=
  match s.load.img with
  | some im => match im.seg with
    | some u =>
      let g := gatherOfU u
      let x := s.gx g
      let s1 := setGst s g s.load.was
      if x.withheld then beginStep s1 g else s1
    | none =>
      if s.load.ready then
        offerStep ((definedGathers s).foldl (fun t g => t.setGx g { t.gx g with withheld := false }) s)
      else s
  | none => s

/-- R390: ABORT; in APPLYING it is ignored and logged, and with no load in progress there is nothing to end. -/
def execAbort (r : Requester) (s : State) : Host.Outcome State Fault Refusal :=
  .next (if !mayWrite .hostfw r .hub 0 then s.lg LogKind.ignoredWrite hubN [Reg.PZ_HCMD_OP.id]
    else if pzStage s = pzChecking ∨ pzStage s = pzWaiting then
      endLoad (unlock (fullEnded (if pzStage s = pzWaiting then endWait s else s) (imgKind s s.load.src != 1)) (· == .loading)) 2
    else if pzStage s = pzIdle then s
    else s.lg LogKind.abortIgnored hubN [])

/-- R387: a segment's wait has exceeded PZ_HQTO. -/
def execQuiesceTo (s : State) : Host.Outcome State Fault Refusal :=
  .next (match s.load.img with
    | some im =>
      if pzStage s = pzWaiting ∧ im.seg.isSome then endLoad (unlock (endWait s) (· == .loading)) 26 else s
    | none => s)

/-! ## Records on the network (R319, R384) -/

/-- The packets of one record: its 8-byte header travels with the first words, 256 bytes to a packet. -/
def recPackets (r : ImgRec) : List ParisonPkt :=
  let d : DieId := Fin.ofNat 4 r.die
  let scope : Scope := if r.dieSpace then .dieNodes
    else .rect d (Fin.ofNat 8 r.r0) (Fin.ofNat 8 r.c0) (Fin.ofNat 8 r.r1) (Fin.ofNat 8 r.c1)
  let ws := r.words.map (BitVec.ofNat 32)
  let pk := fun off l => ({ scope := scope, die := d, dieSpace := r.dieSpace, off := off, words := l } : ParisonPkt)
  { pk r.off (ws.take 62) with head := true } ::
    ((chunks 64 ws.length (ws.drop 62)).zip (List.range ws.length)).map fun p => pk (r.off + 248 + 256 * p.2) p.1

/-- The records of an image that are sent at its application; the divisor goes to the hub (R372). -/
def sentRecs (s : State) (im : Image) : List ImgRec :=
  im.recs.filter fun r => recApplies s (im.seg.map gatherOfU) r && !(r.dieSpace && r.off == 0x40)

/-- The dies an image's records name. -/
def targetDies (s : State) (im : Image) : List Nat := ((sentRecs s im).map ImgRec.die).eraseDups

/-- The targets of a broadcast among the cores (R319). -/
def scopeCores : Scope → List CoreId
  | .dieCores d => dieCores d
  | .allCores => allCores
  | .rect d r0 c0 r1 c1 => (dieCores d).filter fun c =>
    decide (r0.val ≤ c.lc.val / 8 ∧ c.lc.val / 8 ≤ r1.val ∧ c0.val ≤ c.lc.val % 8 ∧ c.lc.val % 8 ≤ c1.val)
  | .dieNodes => []

/-- The words of a packet in a core's space (R371, R384). -/
def parisonCore (s : State) (c : CoreId) (p : ParisonPkt) : State :=
  writeWords (fun t o v => writeCoreWord t c (bankIn t c.die.val 9) o v) s p.off (p.words.map BitVec.toNat)

/-- The words of a packet in a die's space. -/
def parisonDie (s : State) (d : Nat) (p : ParisonPkt) : State :=
  writeWords (fun t o v => writeDieWord t d (bankIn t d (offPort o)) o v) s p.off (p.words.map BitVec.toNat)

/-- R319, R384: a PARISON broadcast is delivered: to each logical core of its scope that a position carries, or in scope 3 to the
die nodes, of which the one it names writes the words. Only Puntys may broadcast. -/
def execParison (src : NodeId) (pkt : ParisonPkt) (s : State) : Host.Outcome State Fault Refusal :=
  let allowed := match src with
    | .hub u => decide (u.val < 4)
    | .dieNode _ => true
    | _ => false
  .next (if !allowed then badSource (s.lg LogKind.badPacket (nodeNum src) [nodeNum src]) src 0x26
    else if pkt.dieSpace then
      (if pkt.scope = .dieNodes ∧ !s.rb Reg.BT_CLKSTAT_STOPPED pkt.die.val then parisonDie s pkt.die.val pkt else s)
    else ((scopeCores pkt.scope).filter fun c => corePresent s c).foldl
      (fun t c => toCore t c src (.parison pkt) fun t => parisonCore t c pkt) s)

/-- Sends the records of a section. -/
def sendSection (s : State) (im : Image) (n : Nat) : State :=
  ((sentRecs s im).filter fun r => r.sec == n).foldl (fun t r =>
    (recPackets r).foldl (fun t p => t.emit (.broadcast p.scope (.parison p))) t) s

/-! ## Sealing (R385) -/

/-- The queue manager of a core takes over the queues and send-table entries its parison pre-allocates (R340, R366): those
that `q` and `e` name. -/
def takeQueues (s : State) (c : CoreId) (q e : Nat → Bool) : State :=
  let u := coreU c
  let s1 := ((List.range 256).filter fun i => q i && s.rb Reg.CQ_Q_PZ u i).foldl (fun t i =>
    let t1 := t.wr Reg.CQ_Q_STATE u (if t.rd Reg.CQ_Q_RSIZE u i = 0 then 1 else 2) i
    ((t1.wr Reg.CQ_Q_COUNT u 0 i).wr Reg.CQ_Q_WORD u 0 i).wr Reg.CQ_Q_FREEPTR u 0 i) s
  let s2 := ((List.range 256).filter fun i => e i && s.rb Reg.CQ_S_VALID u i).foldl (fun t i =>
    (t.wr Reg.CQ_S_LCRED u (64 * t.rd Reg.CQ_S_RSIZE u i) i).wr Reg.CQ_S_WR u 0 i) s1
  let live := (List.range 256).filter fun i => s2.rd Reg.CQ_Q_STATE u i != 0
  let ents := ((live.filter fun i => s2.rd Reg.CQ_Q_STATE u i != 3).map fun i => depthOf (s2.rd Reg.CQ_Q_DEPTH u i)).sum
  ((s2.wr Reg.CQ_STAT_FREEENT u (4096 - ents)).wr Reg.CQ_STAT_NQUEUE u live.length).wr Reg.CQ_STAT_NSEND u
    ((List.range 256).filter fun i => s2.rb Reg.CQ_S_VALID u i).length

/-- The hub's send-table entries for the parison's queues of some cores whose sender is a hub unit (R334, R335). -/
def takeHubSends (s : State) (cs : List CoreId) (q : CoreId → Nat → Bool) : State :=
  let new := cs.flatMap fun c => ((List.range 256).filter fun i => q c i && s.rb Reg.CQ_Q_PZ (coreU c) i).filterMap fun i =>
    let u := coreU c
    match nodeOfNum (s.rd Reg.CQ_Q_SENDER u i) with
    | some (.hub n) =>
      let size := 64 * s.rd Reg.CQ_Q_RSIZE u i
      some ({ handle := handleOf s c i, unit := n.val, ring := size != 0, ecred := depthOf (s.rd Reg.CQ_Q_DEPTH u i)
              size := size, lcred := size, wr := 0 } : HubSend)
    | _ => none
  { s with hubSend := s.hubSend.filter (fun e => new.all fun n => n.handle / 2 ^ 16 != e.handle / 2 ^ 16) ++ new }

/-- A gather starts at its ceiling with no change pending (R60, R387). -/
def startRatio (s : State) (g : Gather) : State :=
  let d := g.die.val
  let i := g.idx.val
  let v := s.rd Reg.LH_GACLK_CEIL d i
  let x := s.pw d
  let s1 := s.setPw d { x with dem := smSet none x.dem i none, mdem := smSet 0 x.mdem i 0 }
  updVset (((s1.wr Reg.LH_GACLK_APPLIED d v i).wr Reg.LH_GACLK_REQ d v i).wb Reg.LH_GACLK_PENDING d false i) g.die

/-- The chain of measurement index 7 after one more digest (R570). -/
def chainNext (l digest : Nat) : Nat := Config.sm3 (leBytes 32 l ++ leBytes 32 digest) % 2 ^ 256

/-- Idle cores of running gathers go to the entry of phase 0; idle cores outside every gather rest in C3 (R186, R387,
R517). -/
def enterIdle (s : State) : State :=
  let s1 := ((definedGathers s).filter fun g => s.rd Reg.PZ_GATHER_STATE g.die.val g.idx.val == gsRun).foldl (fun t g =>
    let cs := (gatherCores t g).filter fun c => t.cst c == stIdle && corePresent t c && !(t.cx c).dead
    startWakes (cs.foldl (fun t c => enterAt t c 0 (rungOf t g)) t) g.die cs true) s
  (allCores.filter fun c => s1.cst c == stIdle && corePresent s1 c && (gatherOf s1 c).isNone && decide (cstateOf s1 c < 3)).foldl
    (fun t c => enterState t c 3) s1

/-- Ends a load with status 0 at its seal, the image kept with those in force. -/
def sealLoad (s : State) (im : Image) (keep : List Image) (l : Nat) (f : LockFor) (gone : LockFor → Bool) : State :=
  let s1 := unlock s fun x => gone x || x == .loading
  let s2 := { s1 with frozen := true, locks := s1.locks ++ [⟨im.src, im.src + im.len, f⟩],
                      load := { s1.load with images := keep ++ [im], chain := chainNext l im.digest } }
  endLoad s2 0

/-- Shadow watching of a gather whose image names no PZ_WATCH (R163): on for 16 cores or fewer. -/
def watchDefault (s : State) (im : Image) (g : Gather) : State :=
  if imgWrites im.recs none g.die.val (0x3200 + 4 * g.idx.val) then s
  else s.wb Reg.PZ_WATCH_SHADOW_EN g.die.val (decide ((gatherCores s g).length ≤ 16)) g.idx.val

/-- The seal of a full image (R163, R375, R385, R522). -/
def sealFull (s : State) (im : Image) : State :=
  let s1 := allCores.foldl (fun t c => takeQueues (t.wb Reg.CP_CFG_SVC (coreU c) true) c (fun _ => true) fun _ => true) s
  let s2 := takeHubSends s1 allCores fun _ _ => true
  let s3 := (definedGathers s2).foldl (fun t g => (watchDefault (startRatio t g) im g).wr Reg.LH_GACLK_CHANGES g.die.val 0 g.idx.val) s2
  let s4 := allDies.foldl (fun t d => markDegraded (t.wr Reg.LH_SHARE_EFF d.val (t.rd Reg.LH_SHARE_PZ d.val)) d) s3
  let s5 := (List.range 8).foldl (fun t k => t.wr Reg.PZ_DIGEST_DIGEST 0 (im.digest / 2 ^ (32 * k)) k) s4
  let s6 := (((s5.wr Reg.PZ_IMGID_ID 0 im.id 0).wr Reg.PZ_IMGID_ID 0 (im.id / 2 ^ 32) 1).wr Reg.PZ_SEGCNT_COUNT 0 0).wb
    Reg.PZ_HSTAT_SEALED 0 true
  let s7 := ((s6.wb Reg.PZ_HSTAT_FAILED 0 false).wr Reg.PZ_STEP_STEP 0 0 0).wr Reg.PZ_STEP_STEP 0 0 1
  let s8 := allDies.foldl (fun t d => sbSend t (.hub d) 1 0) s7
  offerStep (enterIdle (sealLoad s8 im [] 0 .full fun _ => true))

/-- HCd's tables of a bank as its die's CH tables require (R278, R403; DEDUCED, notes/assumptions/99). -/
def formHub (b : Nat) (s : State) (d : DieId) : State :=
  let fs := [(Reg.LK_TAB_STREAM0, Reg.LKH_TAB_STREAM0), (Reg.LK_TAB_V0, Reg.LKH_TAB_V0), (Reg.LK_TAB_STREAM1, Reg.LKH_TAB_STREAM1),
    (Reg.LK_TAB_V1, Reg.LKH_TAB_V1)]
  let n := s.rd Reg.DN_FRAME_FLEN d.val
  (List.range n).foldl (fun t k => fs.foldl (fun t F =>
    let late := (k + 24) % n
    (t.wr F.2 0 (s.rd F.1 d.val 0 (8192 + 4096 * b + late)) d.val (4096 * b + k)).wr F.2 0 (s.rd F.1 d.val 0 (4096 * b + k)) d.val
      (8192 + 4096 * b + late)) t) s

/-- True when some defined gather lists a phase of a gather. -/
def hasDependents (s : State) (g : Gather) : Bool :=
  (definedGathers s).any fun h => h != g && (List.range (nph s h)).any fun p => (phaseDeps s h p).any fun e => e.1 == g

/-- True when the step in progress has not begun for a gather: steps are held and its phase 0 is not released (R490). -/
def unstarted (s : State) (g : Gather) : Bool := s.rb Reg.HB_STEPCTL_HELD 0 && !(s.gx g).released

/-- The seal of a segment (R385, R387): its gather starts on rung 0, with the phase 0 that was withheld, with the step in
progress where other gathers wait for it, with the step that is held, or at the next step boundary. -/
def sealSegment (s : State) (im : Image) (u : Nat) : State :=
  let g := gatherOfU u
  let d := g.die.val
  let i := g.idx.val
  let cs := gatherCores s g
  let k : Ck := ⟨s, s, im.recs, some g, 0⟩
  let wq := fun c q => (imgQueues k c).contains q
  let we := fun c e => (List.range 4).any fun j => imgWrites im.recs (some c) 0 (0x3000 + 16 * e + 4 * j)
  let s0 := (allDies.filter fun d => s.rd Reg.DN_TBLSEL_ACT_SET d.val != 0).foldl (fun t d => formHub (bankIn t d.val 0) t d) s
  let s1 := cs.foldl (fun t c => takeQueues (t.wb Reg.CP_CFG_SVC (coreU c) true) c (wq c) (we c)) s0
  let s2 := startRatio (takeHubSends s1 cs wq) g
  let s3 := ((s2.bump Reg.PZ_GATHER_SEGS d 1 i).bump Reg.PZ_SEGCNT_COUNT 0).wr Reg.SY_SEAL_RUNG d 0 i
  let x := s3.gx g
  let now := x.withheld || (s.load.ready && hasDependents s g && !s.stepLost)
  let x1 := if unstarted s g && !now then
      { x with quiet := false, nsealed := 0, next := 0, started := 0, phases := [], rr := none, waitOn := [] }
    else if now then
      { x with withheld := false, released := true, nsealed := 0, next := 0, started := 0, quiet := false, phases := [], rr := none, waitOn := [] }
    else { x with quiet := true, next := 0, started := 0, phases := [], rr := none, waitOn := [] }
  let s4 := (setGst (s3.setGx g x1) g gsRun).wb Reg.PZ_GATHER_DEGRADED d (cs.any fun c => !corePresent s c) i
  let keep := s4.load.images.filter fun m => m.seg != some u
  enterIdle (sealLoad s4 im keep s4.load.chain (.segment u) fun f => f == .segment u)

/-- The seal of a load in SEALING (R383, R385). -/
def endSealing (s : State) : State :=
  match s.load.img with
  | some im => if pzStage s = pzSealing then (match im.seg with
      | none => sealFull s im
      | some u => sealSegment s im u) else s
  | none => s

/-- Goes on with a load (R384): the next section that has records to send, or the stage SEALING, in which the next HCLK finds it. -/
def nextSection : Nat → State → Image → Nat → State
  | 0, s, _, _ => setStage s pzSealing
  | n + 1, s, im, k =>
    if (sentRecs s im).any fun r => r.sec == k then
      sendSection { s with load := { s.load with sect := k, acks := [] } } im k
    else nextSection n s im (k + 1)

/-! ## Applying (R383, R387) -/

/-- A core at the start of a load: nothing of its program runs any more; registers, map-outs and the scratchpad stay. -/
def freshCore (s : State) (c : CoreId) : State :=
  let x := s.cx c
  let s1 := (rcInvalidate s c).setCx c {
    vregs := x.vregs, arb := x.arb, arbPtr := x.arbPtr, writeback := x.writeback, mapping := x.mapping
    mapWanted := x.mapWanted, patrol := x.patrol, dead := x.dead, waking := x.waking }
  (setLoops ((emptyStat s1 c).wb Reg.CS_TRAP_VALID (coreU c) false) c []).setCst c stIdle

/-- Stops every active stream of a die (R288, R383). -/
def stopStreams (s : State) (d : DieId) (f : Nat → Bool) : State :=
  ((validStreams s d.val).filter fun i => f i && s.rb Reg.DN_SSTAT_ACTIVE d.val i).foldl (fun t i => stopStream t d i) s

/-- Maps a die afresh (R29) and zeroes the scratchpad of each core whose position changes, which is no longer dead on its new
position (R34, R35). -/
def remapDie (s : State) (d : DieId) : State :=
  let s1 := mapDie s d
  ((dieCores d).filter fun c => pcolOf s d.val (c.lc.val / 8) (c.lc.val % 8) != pcolOf s1 d.val (c.lc.val / 8) (c.lc.val % 8)).foldl
    (fun t c =>
      let t1 := zeroScratch t c
      let t2 := t1.setCx c { t1.cx c with dead := (t1.cx c).dead && !corePresent t1 c }
      t2.wb Reg.DN_RSTAT_PASSTHRU (coreU c) (!corePresent t2 c || decide (2 ≤ cstateOf t2 c))) s1

/-- The NCLK divisor an image names (R61). -/
def imgDivisor (im : Image) : Option Nat :=
  ((im.recs.filter fun r => r.ty == 1 && r.dieSpace && r.off == 0x40).getLast?).map fun r => bits ((r.words[0]?).getD 0) 12 1

/-- Every on-die crossing of a die is retrained (R54, R61). Whether one reaches its design latency the spec leaves to the hardware; one
that does not is a failed link. -/
def retrainDie (s : State) (d : DieId) : State :=
  let l := ((List.range 80).flatMap fun n => (List.range 8).map fun k => 16 * n + k + 1).filter fun n => Config.crossingFails (s.free + n)
  let t := { s.setDx d { s.dx d with slips := [], cut := l } with free := s.free + 1280 }
  l.foldl (fun t n => t.lg LogKind.linkFault (dieN d.val) [n]) t

/-- Every crossing is retrained after a change of NCLK (R61). -/
def retrainAll (s : State) : State :=
  let s1 := allDies.foldl retrainDie s
  (allDies.flatMap (fun d => (List.finRange 9).map fun n => PortId.die d n) ++ (List.finRange 8).map PortId.span).foldl startRetrain s1

/-- Clears the module for a full image (R383). -/
def clearModule (s : State) (im : Image) : State :=
  let s1 := allDies.foldl (fun t d => stopStreams t d fun _ => true) s
  let s2 := s1.hubSend.foldl (fun t e => hubStale t e.handle) s1
  let s3 := allCores.foldl freshCore (clearParison s2)
  let s4 := { s3 with dies := s3.dies.map fun p => (p.1, { p.2 with token := none, swapReady := false, wantSet := none, syncDue := none })
                      streams := [], gathers := []
                      stackSt := s3.stackSt.map fun p => (p.1, { p.2 with queue := [], consts := [], parts := [], sent := [], late := [] })
                      hubSync := [], stepLost := false, ladderOut := false, ratioOut := false
                      power := s3.power.map fun p => (p.1, { p.2 with dem := [], mdem := [], boost := [], hints := [] }) }
  let s5 := match imgDivisor im with
    | some v => if v = s4.rd Reg.HB_CLKSTAT_NCLK_DIV 0 then s4 else retrainAll (s4.wr Reg.HB_CLKSTAT_NCLK_DIV 0 v)
    | none => s4
  (List.range 16).foldl updStack (allDies.foldl remapDie s5)

/-- True while a layer of some stack is between its passes (R383). -/
def updating (s : State) : Bool :=
  (List.range 16).any fun k => (layersInUse s k).any fun l => decide (lyPass1 ≤ layerState s k l ∧ layerState s k l ≤ lyPass2)

/-- No parison is in force. -/
def dropParison (s : State) : State :=
  let s1 := (List.range 8).foldl (fun t k => t.wr Reg.PZ_DIGEST_DIGEST 0 0 k) (s.wb Reg.PZ_HSTAT_SEALED 0 false)
  { (s1.wr Reg.PZ_IMGID_ID 0 0 0).wr Reg.PZ_IMGID_ID 0 0 1 with load := { s1.load with images := [], chain := 0 } }

/-- R383, R459: a full load leaves WAITING with no update between its passes: at once with no parison in force, else at the step boundary
that has withheld phase 0. -/
def execParisonApply (s : State) : Host.Outcome State Fault Refusal :=
  .next (match s.load.img with
    | some im =>
      if pzStage s = pzWaiting ∧ im.seg = none ∧ (!s.rb Reg.PZ_HSTAT_SEALED 0 ∨ s.load.ready) ∧ !updating s then
        nextSection im.nsect (dropParison (clearModule (setStage s pzApplying) im)) im 0
      else s
    | none => s)

/-- True when no side effect of a list of cores is held at a commit gate (R169, R375). -/
def coresFree (s : State) (cs : List CoreId) : Bool :=
  cs.all fun c => (s.cx c).gate.isEmpty && (s.cx c).heldWrites.isEmpty

/-- True when a stream of the module waits at a commit gate. -/
def gatedStreams (s : State) (f : Nat → Bool) : Bool :=
  allDies.any fun d => (validStreams s d.val).any fun i => f i && s.rb Reg.DN_SSTAT_GATED d.val i

/-- True when an index lies in a gather's stream range. -/
def inRange (s : State) (g : Gather) (i : Nat) : Bool := decide ((rangeOf s g).1 ≤ i ∧ i < (rangeOf s g).2)

/-- True when a segment's gather may be reloaded (R387): degraded or failed at once; else when its step is sealed or a held
step has not begun for it, its side effects are released, and no shift or stop of it is in progress (R390). -/
def segmentReady (s : State) (g : Gather) : Bool :=
  let x := s.gx g
  !(allDies.any fun d => s.rb Reg.DN_TBLSEL_PEND d.val && (s.dx d).swapReady) &&
  (s.load.ready || ((x.withheld || unstarted s g || decide (nph s g ≤ x.nsealed)) && coresFree s (gatherCores s g)
      && !gatedStreams s (inRange s g)))
    && !s.rb Reg.LH_GACLK_STOPPING g.die.val g.idx.val
    && (gatherCores s g).all fun c => (smGet none (s.dx g.die).shifts (c.lc.val / 8)).isNone

/-- A core of a reloading gather is idle (R219, R257, R361): its traps, waits and passes end, its run-time queues are
destroyed and its parison queues reset. What is left at its commit gate is cancelled as in R359. -/
def idleCore (s : State) (c : CoreId) : State :=
  let u := coreU c
  let s1 := (List.range 256).foldl (fun t q =>
    let st := t.rd Reg.CQ_Q_STATE u q
    if st ≠ 1 ∧ st ≠ 2 then t else if t.rb Reg.CQ_Q_PZ u q then resetChannel t c q
    else (startDestroy (t.bump Reg.CQ_DISCARD_COUNT u (smGet [] (t.cx c).entries q).length) c q).1) (cancelGates s c fun _ => true)
  let s2 := setPasses (s1.wb Reg.CS_TRAP_VALID u false) c []
  let x := s2.cx c
  let s3 := s2.setCx c { x with
    shadow := none, capture := none, heldWrites := [], handleWait := none, stopDue := false, barWait := none, arrAgain := []
    phStarted := false, wpt := [], sb := [], ranOff := false, reqs := x.reqs.filter fun q => !q.read }
  (rcInvalidate (setLoops s3 c []) c).setCst c stIdle

/-- What a segment breaks where it applies, after the swap of the same boundary (R301). -/
def segmentLate (s : State) (im : Image) (g : Gather) : Option Fail :=
  let k : Ck := ⟨s, hypState s (some g) im.recs, im.recs, some g, im.features⟩
  (ckSched k).or (ckActive k g)

/-- R387: a segment is applied to its quiescent gather, unless a set that has come into force since its checks finds it without entries
(R301). -/
def execSegmentApply (s : State) : Host.Outcome State Fault Refusal :=
  .next (match s.load.img with
    | some im => match im.seg with
      | some u =>
        let g := gatherOfU u
        if pzStage s ≠ pzWaiting ∨ !segmentReady s g then s
        else match segmentLate s im g with
        | some f => refuseLoad (endWait s) f
        | none =>
          let s0 := match (s.gx g).phases with
            | [] => s
            | p :: _ => (gatherCores s g).foldl (fun t c => flushCore t c ((List.range (nph s g)).filter fun q => decide (p.ph ≤ q)))
                (recallFrom s g p.ph 4 (rungOf s g))
          let s1 := setGst (setStage s0 pzApplying) g gsApplying
          let s2 := s1.setGx g { s1.gx g with phases := [], rr := none, waitOn := [], memPh := none, toFlush := [], inPhase := false, stop := none }
          let s3 := allDies.foldl (fun t d => stopStreams t d (inRange s g))
            ((s2.wb Reg.LH_GACLK_PENDING g.die.val false g.idx.val).wb Reg.LH_GACLK_STOPPING g.die.val false g.idx.val)
          let s4 := setArrived ((gatherCores s3 g).foldl idleCore s3) g.die (syncGroup s g) 0
          nextSection im.nsect s4 im 0
      | none => s
    | none => s)

/-- True when no record still waits for a core of a die to wake. -/
def delivered (s : State) (d : DieId) : Bool :=
  (dieCores d).all fun c => (smGet [] s.ejected (coreU c)).all fun p => match p.2 with
    | .parison _ => false
    | _ => true

/-- R384: a die node acknowledges the end of a section, once its cores have taken it; on the last die's the hub goes on. -/
def execParisonSectionAck (d : DieId) (sect : Nat) (s : State) : Host.Outcome State Fault Refusal :=
  .next (match s.load.img with
    | some im =>
      let l := s.load
      if pzStage s ≠ pzApplying ∨ sect ≠ l.sect ∨ !delivered s d ∨ !(targetDies s im).contains d.val then s
      else
        let acks := d.val :: l.acks.filter (· ≠ d.val)
        if (targetDies s im).all fun e => acks.contains e then nextSection (im.nsect - (l.sect + 1)) s im (l.sect + 1)
        else { s with load := { l with acks := acks } }
    | none => s)

/-! ## A load that does not complete (R382) -/

/-- The gathers that depend on a gather, directly or through others (fuel: rounds). -/
def dependOn (s : State) : Nat → List Gather → List Gather
  | 0, l => l
  | n + 1, l => dependOn s n (l ++ (definedGathers s).filter fun h => !l.contains h
      && (List.range (nph s h)).any fun p => (phaseDeps s h p).any fun e => l.contains e.1)

/-- An application that did not complete (R382): with a full image no parison is in force; with a segment its gather is FAILED,
and each gather that will wait for it is logged once. -/
def appFails (s : State) (im : Image) : State :=
  match im.seg with
  | none => (dropParison { s with locks := [] }).wb Reg.PZ_HSTAT_FAILED 0 true
  | some u =>
    let g := gatherOfU u
    ((dependOn s 256 [g]).filter (· ≠ g)).foldl (fun t h =>
      if (t.gx h).waitLogged then t
      else (t.setGx h { t.gx h with waitLogged := true }).lg LogKind.waitFailed (dieN h.die.val) [gatherU h, u]) (setGst s g gsFailed)

/-- The load in APPLYING or SEALING fails. Its staging lock ends, a segment's too, of which R380 says nothing (DESIGN CHOICE,
notes/assumptions/98). -/
def failLoad (s : State) : State :=
  match s.load.img with
  | some im => if pzStage s < pzApplying then s else endLoad (appFails (unlock s (· == .loading)) im) 27
  | none => s

/-- A die is lost or reset: the load in APPLYING fails, a segment's only when a record of it targets that die (R390). -/
def failLoadFor (s : State) (d : DieId) : State :=
  match s.load.img with
  | some im => if im.seg.isSome && !(targetDies s im).contains d.val then s else failLoad s
  | none => s

/-- A staged image in force that can no longer be read without an uncorrectable error (R456): handled as an application that
did not complete; without a parison in force no gather runs. -/
def imageLost (s : State) (im : Image) : State :=
  let s0 := imgTouch s im.src im.len
  let s1 := if im.seg.isNone then appFails (giveUpStep s0 none) im else appFails s0 im
  signal ((s1.wr Reg.PZ_HSTAT_STATUS 0 27).wb Reg.PZ_HSTAT_DONE 0 true) 64

/-- The first image in force, of those a test names, whose staging range holds an uncorrectable error. -/
def badImage (s : State) (f : Image → Bool) : Option Image := s.load.images.find? fun im => f im && imgUe s im.src im.len

/-! ## Fallback sets in STANDBY (R297, R546, R551, R554) -/

/-- The key word of a fallback set on a die, where the images in force hold it (R554). -/
def keyWords (s : State) (d : Nat) : List (Nat × Nat) :=
  s.load.images.flatMap fun im => (im.recs.filter fun r => r.ty == 12 && r.dieSpace && r.die == d && r.off == 0x1D8).map fun r =>
    (r.set, (r.words[0]?).getD 0)

/-- The fallback set whose key names a failure on a die: kind, column or port, row, direction and width. -/
def keyedSet (s : State) (d kind col row dir width : Nat) : Option Nat :=
  ((keyWords s d).find? fun p => bits p.2 0 2 == kind && bits p.2 2 4 == col
    && (kind == 2 || bits p.2 6 3 == row) && (kind != 1 || bits p.2 9 2 == dir)
    && (kind != 2 || (bits p.2 9 1 == dir && bits p.2 11 2 == width))).map (·.1)

/-- The dies that a fallback set's records name. -/
def setDies (s : State) (n : Nat) : List DieId :=
  allDies.filter fun d => s.load.images.any fun im => im.recs.any fun r => r.ty == 12 && r.set == n && r.die == d.val

/-- Asks for a fallback set at the next step boundary, on every die it names (R551). -/
def wantSet (s : State) (n : Nat) : State :=
  (setDies s n).foldl (fun t d => t.setDx d { t.dx d with wantSet := some n }) s

/-- Copies the tables of a die's port from one bank to the other. -/
def copyTables (s : State) (p : DieId × Fin 9) : State :=
  let b := portBank s p.1.val p.2.val
  let fs := [Reg.LK_TAB_STREAM0, Reg.LK_TAB_V0, Reg.LK_TAB_STREAM1, Reg.LK_TAB_V1, Reg.LK_TAB_STREAM2, Reg.LK_TAB_V2, Reg.LK_TAB_STREAM3,
    Reg.LK_TAB_V3]
  let js := (List.range (s.rd Reg.DN_FRAME_FLEN p.1.val)).flatMap fun t => [t, 8192 + t]
  js.foldl (fun t j => fs.foldl (fun t F =>
    t.wr F p.1.val (s.rd F p.1.val p.2.val (4096 * b + j)) p.2.val (4096 * (1 - b) + j)) t) s

/-- The ports of other dies that face those of the dies of a set (R297). -/
def facing (ds : List DieId) : List (DieId × Fin 9) :=
  (ds.flatMap fun d => (List.finRange 9).filterMap fun n => match peerPort (.die d n) with
    | some (.die e m) => some (e, m)
    | _ => none).filter fun p => !ds.contains p.1

/-- Writes a fallback set into the banks not in force, on every die it names, and requests the swap (R297, R546). The set is the whole of
the tables of these dies; a port of another die that faces them, and so changes bank with them, keeps its table in the other bank, and
HCd follows its die (DEDUCED, notes/assumptions/99). -/
def standbySet (s : State) (n : Nat) : State :=
  match badImage s fun im => im.recs.any fun r => r.ty == 12 && r.set == n with
  | some im => imageLost s im
  | none =>
  let recs := s.load.images.flatMap fun im => im.recs.filter fun r => r.ty == 12 && r.set == n && r.off != 0x1D8
  let ds := setDies s n
  let bk := fun d p : Nat => 1 - bankIn s d p
  let s1 := recs.foldl (writeRec bk) ((facing ds).foldl copyTables (emptyTables s ds bk))
  let s2 := ds.foldl (fun t d => formHub (bk d.val 0) t d) s1
  if ds.all (setUsable s2) then
    ds.foldl (fun t d => ((t.wr Reg.DN_TBLSEL_STBY_SET d.val n).wb Reg.DN_TBLSEL_SWAP d.val true).wb Reg.DN_TBLSEL_PEND d.val true) s2
  else s2.lg LogKind.noFallback hubN [n]

end Sys2Proof.Machine
end

