-- ==== Sys2Proof/Machine/Faults.lean ====
section
/-! DEFINITION. Faults, seeds, stones and recovery (R529-R556): how a collector judges an event, the records it sends, the
actions on a stone, dead cores and lost dies, the cullet and its scans, and the losses of ports (R412, R551). -/

namespace Sys2Proof.Machine

/-! ## Management events (R586) -/

/-- True when a transport of the management interfaces serves (R582, R583): I3C from stage 2 on, PCIe VDM while the link is
up. -/
def transportUp (s : State) (tr : Nat) : Bool :=
  if tr = 0 then s.rd Reg.BT_STAT_STAGE 0 != 1 else s.host.link

/-- The in-band interrupt that announces a packet on I3C (R582), where it is enabled and the hub has an address. -/
def announce (s : State) (tr : Nat) : State :=
  if tr = 0 ∧ s.manage.ibi ∧ s.rd Reg.HB_MGMT_DADDR 0 ≠ 0 then s.emit .ibi else s

/-- Sends a PLDM event to the receivers that are set (R586). -/
def sendEvent (s : State) (e : PldmEvent) : State :=
  [0, 1].foldl (fun t tr =>
    if (smGet none t.manage.recv tr).isSome && transportUp t tr then
      { (announce t tr).emit (.pldm tr e) with manage := { t.manage with unacked := t.manage.unacked ++ [(tr, e, 0)] } }
    else t) s

/-- R586: an event has not been acknowledged for 1 s; it is retried 3 times, then it stays only in the fault log. -/
def execPldmEventRetry (tr : Fin 2) (e : PldmEvent) (s : State) : Host.Outcome State Fault Refusal :=
  let m := s.manage
  .next (match m.unacked.find? fun u => u.1 == tr.val && u.2.1 == e with
    | none => s
    | some u =>
      if u.2.2 ≥ 3 then { s with manage := { m with unacked := m.unacked.erase u } }
      else { (announce s tr.val).emit (.pldm tr.val e) with
        manage := { m with unacked := m.unacked.map fun v => if v = u then (u.1, u.2.1, u.2.2 + 1) else v } })

/-! ## Records (R535-R537) -/

/-- Records the fault log holds (R594). -/
def logCap : Nat := 52224

/-- A full fault log gives up its oldest record that is no STONE, else its oldest (R535). -/
def dropOldest (l : List FaultRec) : List FaultRec :=
  match l.find? fun r => r.kind != 1 with
  | some r => l.erase r
  | none => l.drop 1

/-- Hub Punty 2 writes a record to flash under the next Record ID, and sends it as an event (R535, R536). -/
def storeRec (s : State) (r : FaultRec) : State :=
  let id := s.rd Reg.FT_LASTID_ID 0 0 + 2 ^ 32 * s.rd Reg.FT_LASTID_ID 0 1 + 1
  let l := if s.faults.log.length ≥ logCap then dropOldest s.faults.log else s.faults.log
  let s1 := { s with faults := { s.faults with log := l ++ [{ r with id := id }] } }
  let s2 := (s1.wr Reg.FT_LASTID_ID 0 id 0).wr Reg.FT_LASTID_ID 0 (id / 2 ^ 32) 1
  sendEvent (s2.wr Reg.FT_LOG_RECORDS 0 (l.length + 1)) (.record id)

/-- The collector of a unit: a die Punty, or 4 for hub Punty 2 (R531). -/
def unitCollector (unit : Nat) : Nat := if unit ≤ 4 then unit else (unit - 16) / 4

/-- A collector sends a record: a die Punty in an ERROR packet, hub Punty 2 to its own log (R535). -/
def reportRec (s : State) (k : Nat) (r : FaultRec) : State :=
  if k < 4 then s.send (.dieNode (Fin.ofNat 4 k)) (.hub 2) (.report r) else storeRec s r

/-- POS of a record: row, column x 16, or 0xFFFF (R537). -/
def posCode (p : Option (Fin 8 × Fin 10)) : Nat :=
  match p with
  | some q => q.1.val + 16 * q.2.val
  | none => 0xFFFF

/-- The logical core that a position of a die hosts. -/
def hostOf (s : State) (d : DieId) (r c : Nat) : Option CoreId :=
  (dieCores d).find? fun e => e.lc.val / 8 == r && pcolOf s d.val r (e.lc.val % 8) == c

/-- The node that reports for a unit. -/
def unitNode (unit : Nat) : Nat := if unit < 4 then dieN unit else if unit = 4 then hubN else stackN (unit - 16)

/-- The bound on the travel of an event's report (R69): none for what its collector itself detects, that of a core or router for a
position. -/
def eventTravel (e : FaultEvent) : Nat :=
  let n := unitNode e.unit
  if e.own then 0 else if e.pos.isSome then min (travelOf n (posCode e.pos)) 100 else travelOf n e.item

/-- A record of an event (R536, R537), stamped by its collector (R68, R69) and with the slot the module holds (R43). -/
def mkRec (s : State) (e : FaultEvent) (sev cls kind n thresh action left : Nat) : FaultRec :=
  let host := e.pos.bind fun p => if e.unit < 4 then hostOf s (Fin.ofNat 4 e.unit) p.1.val p.2.val else none
  let g := host.bind (gatherOf s)
  let ph := (g.bind fun g => curPhase (s.gx g)).map PhaseX.ph
  let layer := match g, ph with
    | some g, some p => s.rd Reg.PZ_PHREC_LAYER g.die.val g.idx.val p
    | _, _ => 0
  { id := 0, sev := sev, event := e.code, cls := cls, kind := kind, slot := s.rd Reg.BT_IDENT_SLOT 0
    unit := e.unit, pos := posCode e.pos
    lcore := (host.map fun c => c.lc.val).getD 0xFF, gather := (g.map fun g => g.idx.val).getD 0xFF, item := e.item
    count := min n 0xFFFF, thresh := thresh, action := action, left := left
    stamp := stampWith s (unitNode e.unit) e.count.toNat e.clock.val (eventTravel e)
    step := s.rd Reg.PZ_STEP_STEP 0 0 + 2 ^ 32 * s.rd Reg.PZ_STEP_STEP 0 1, layer := layer, pseq := ph.getD 0
    detail := e.detail.take 10 }

/-- An event that a unit's own firmware raises, stamped with the collector's MCLK. -/
def ownEvent (s : State) (cls code unit : Nat) (pos : Option (Fin 8 × Fin 10)) (item : Nat) : FaultEvent :=
  { cls := Fin.ofNat 9 cls, code := code, unit := unit, pos := pos, item := item
    count := BitVec.ofNat 56 (mclkOf s (unitCollector unit)), clock := 2, detail := [], noRefetch := false, own := true }

/-- Sends a record of an event that is judged no further (R534, R536). -/
def noteRec (s : State) (e : FaultEvent) (sev action left : Nat) : State :=
  reportRec s (unitCollector e.unit) (mkRec s e sev 0xFF 2 1 0 action left)

/-- A fatal record of the hub or of a held die (R536, R550, R562). -/
def fatalRec (s : State) (code unit item : Nat) (action : Nat) : State := noteRec s (ownEvent s 8 code unit none item) 1 action 0

/-- Adds an entry to the field repair log, once (R533). -/
def addRepair (s : State) (r : Repair) : State :=
  if s.faults.repair.contains r then s else { s with faults := { s.faults with repair := s.faults.repair ++ [r] } }

/-- Removes a position's fence from the field repair log: it has passed its scan (R29, R541). -/
def dropFence (s : State) (d : DieId) (r c : Nat) : State :=
  { s with faults := { s.faults with
    repair := s.faults.repair.filter fun x => !(x.kind == 2 && x.item == 0 && x.unit == d.val && x.pos == r + 16 * c) } }

/-! ## Giving up a step -/

/-- Module firmware gives up the step in progress, where a parison runs one (R178, R545). -/
def loseStep (s : State) (unit : Nat) : State :=
  if s.rb Reg.PZ_HSTAT_SEALED 0 && !s.stepLost then
    giveUpStep (noteRec s (ownEvent s 0 0x15 unit none 0) 0 8 0) none
  else s

/-! ## Holds, recalls, dead cores (R543-R546) -/

/-- Firmware forces a recall of a gather and holds it; the recall is recorded (R543, R544). -/
def recallHold (s : State) (g : Gather) : State :=
  if !gatherDefined s g then s
  else
    let s1 := if (s.gx g).phases.isEmpty then s
      else noteRec s { ownEvent s 0 0x20 g.die.val none 0 with detail := [g.idx.val] } 0 7 0
    let s2 := setHeld (forceRecall s1 g) g true
    s2.setGx g { s2.gx g with recover := true }

/-- The number of a position. -/
def posNum (d r c : Nat) : Nat := 80 * d + 10 * r + c

/-- Spares of a row. -/
def rowSpares (s : State) (d r : Nat) : Nat := (cols.filter fun c => posState s d r c == psSpare).length

/-- Requests the fence of a position after a stone and records it (R38, R529, R533). -/
def stoneFence (s : State) (d : DieId) (r c : Nat) : State :=
  requestFence (addRepair s ⟨2, d.val, r + 16 * c, 0⟩) d r [c]

/-- A position taken out by a core or router stone: when it has come back from quarantine before, its fence leads to
FENCED_FIELD (R541). -/
def markStoned (s : State) (d : DieId) (r c : Nat) : State :=
  let n := posNum d.val r c
  let s1 := if s.faults.returned.contains n then
      s.setDx d { s.dx d with fenceTo := smSet psQuarantine (s.dx d).fenceTo (10 * r + c) psField }
    else s
  { s1 with faults := { s1.faults with stoned := n :: s1.faults.stoned.filter (· ≠ n) } }

/-- The first two steps on a dead core (R544), and the step given up where R545 asks it: its row has no spare, its shift waits
for a step boundary, or data is needed that no refetch restores. -/
def deadCore (s : State) (c : CoreId) (noRefetch : Bool) : State :=
  let r := c.lc.val / 8
  let col := pcolOf s c.die.val r (c.lc.val % 8)
  let spares := rowSpares s c.die.val r
  let s1 := (s.setCx c { s.cx c with dead := true }).wb Reg.DN_RSTAT_PASSTHRU (coreU c) true
  let s2 := stoneFence (markStoned s1 c.die r col) c.die r col
  let s3 := match gatherOf s2 c with
    | some g => recallHold s2 g
    | none => s2
  if spares = 0 ∨ (soleGather s3 c.die r).isNone ∨ noRefetch then loseStep s3 c.die.val else s3

/-- R218, R544: a core has not answered an ordered STOP within 10 µs: it is dead. -/
def execStopTimeout (c : CoreId) (noRefetch : Bool) (s : State) : Host.Outcome State Fault Refusal :=
  .next (if coreLive s c && decide (s.cst c ≤ stWaitSync) then
      deadCore (s.lg LogKind.coreDead (coreU c) []) c noRefetch
    else s)

/-- A position fails that a scan is running on, or that a shift is waking (R552): it is fenced for good, and the shift moves on
to the next spare, or the step is given up. -/
def lateStone (s : State) (d : DieId) (r c : Nat) : State :=
  let s1 := updRow (setPos (addRepair s ⟨2, d.val, r + 16 * c, 0⟩) d.val r c psField) d.val r
  match smGet none (s1.dx d).shifts r with
  | none => s1
  | some x =>
    let hs := cols.filter fun k => healthy s1 d.val r k
    let m := shiftMap x.lmap hs
    let l := lmapOf s1 d.val r
    let s2 := s1.setDx d { s1.dx d with
      shifts := smSet none (s1.dx d).shifts r (some ⟨m, (List.range 8).filter fun k => (l[k]?).getD 15 != (m[k]?).getD 15⟩) }
    let s3 := wakeSpares s2 d ((m.filter fun k => k < 10 && posState s2 d.val r k == psSpare).map (10 * r + ·))
    if m.contains 15 then loseStep s3 d.val else s3

/-- Ends a scan as a fail (R541, R552). -/
def scanFails (s : State) (d : DieId) (r c : Nat) : State :=
  let s1 := lateStone s d r c
  (s1.wb Reg.FT_SCAN_BUSY d.val false).wr Reg.FT_SCAN_RESULT d.val 2

/-! ## Actions on a stone (R529, R533) -/

/-- An action on a stone: its code in R537, the repair capacity left, and the state. -/
abbrev Acted := Nat × Nat × State

/-- A fence as an action: the spares of the row that it leaves. -/
def fenceAct (s : State) (d : DieId) (r c : Nat) (t : State) : Acted :=
  (2, if posState s d.val r c = psMapped then rowSpares s d.val r - 1 else rowSpares t d.val r, t)

/-- The fence of a position without a logical core: of a spare that a shift is waking, at once, and the shift moves on (R552). -/
def fenceIdle (s : State) (d : DieId) (r c : Nat) (t : State) : Acted :=
  if (smGet none (s.dx d).shifts r).any fun x => x.lmap.contains c then (2, rowSpares s d.val r, lateStone t d r c)
  else fenceAct s d r c (stoneFence t d r c)

/-- An SRAM row (R246, R247): mapped out where its macro has a spare row, else its position is fenced. -/
def actSram (s : State) (e : FaultEvent) (d : DieId) : Acted :=
  match e.pos with
  | none => (0, 0, s)
  | some p =>
    let row := bits e.item 0 4 * 8192 + bits e.item 4 4 * 512 + bits e.item 8 9
    match hostOf s d p.1.val p.2.val with
    | none => fenceIdle s d p.1.val p.2.val s
    | some c =>
      let x := s.cx c
      let used := sparesUsed s c row + ((x.mapWanted ++ x.mapping.toList).filter fun q => q / 512 == row / 512 && q != row).length
      if bits e.item 17 3 = 0 ∧ used < 8 then
        (1, 7 - used, addRepair (s.setCx c { x with mapWanted := row :: x.mapWanted.filter (· ≠ row) })
          ⟨0, d.val, posCode e.pos, e.item⟩)
      else if e.code = 0x0E ∨ x.dead then fenceAct s d p.1.val p.2.val (deadCore s c e.noRefetch)
      else fenceAct s d p.1.val p.2.val (stoneFence s d p.1.val p.2.val)

/-- A DRAM row (R533): retired at the next reset while its pseudo-channel has spare rows. -/
def actDram (s : State) (e : FaultEvent) : Acted :=
  let r : Repair := ⟨4, e.unit, 0xFFFF, e.item⟩
  let used := (s.faults.repair.filter fun x => x.kind == 4 && x.unit == e.unit && bits x.item 0 5 == bits e.item 0 5).length
  if s.faults.repair.contains r then (11, 32 - used, s)
  else if used < 32 then (11, 31 - used, addRepair s r)
  else (0, 0, s)

/-- The port an item code names on a unit (R537). -/
def itemPort (unit item : Nat) : Option PortId :=
  let n := bits item 0 5
  if n ≤ 8 then
    if unit < 4 then some (.die (Fin.ofNat 4 unit) (Fin.ofNat 9 n))
    else if 16 ≤ unit then some (.stack (Fin.ofNat 16 (unit - 16)))
    else none
  else if 9 ≤ n ∧ n ≤ 12 then some (.hub (Fin.ofNat 4 (n - 9)))
  else if 16 ≤ n then some (.span (Fin.ofNat 8 (n - 16)))
  else none

/-- The receiving end that a cane item concerns: of its own port, or of the port at the other end (R410). -/
def itemReceiver (unit item : Nat) : Option PortId :=
  (itemPort unit item).bind fun p => if bit item 14 then peerPort p else some p

/-- The partner of a ring port: CA0 of CA1, CB0 of CB1. -/
def partnerPort (n : Nat) : Nat := if n % 2 = 1 then n + 1 else n - 1

/-- A die is lost (R549, R550): steps 1 and 2. The die is stopped, every stream towards it ends, the sync groups that name it are
reset 1 ms later (R330, notes/assumptions/103), its stacks keep their contents in self-refresh, a load in application fails, and
the third loss within one hour holds it in reset. One lost while the module is RELEASING is scrubbed at its release from reset
(R574). -/
def loseDie (s : State) (d : DieId) : State :=
  let u := d.val
  if s.rd Reg.FT_DIE_STATE 0 u ≠ 0 ∧ s.rd Reg.FT_DIE_STATE 0 u ≠ 3 then s
  else
    let s1 := (s.wr Reg.HB_CLKSTAT_DIE_CLK_LOST 0 (s.rd Reg.HB_CLKSTAT_DIE_CLK_LOST 0 ||| 2 ^ u)).wb Reg.HB_STEPCTL_HOLD 0 true
    let s2 := loseStep (failLoadFor s1 d) u
    let s3 := if s2.rb Reg.BT_CLKSTAT_STOPPED u then s2 else stopDie s2 d
    let s4 := (allDies.filter (· ≠ d)).foldl (fun t e => stopStreams t e fun i =>
      (List.finRange 9).any (fun n => decide (1 ≤ n.val ∧ n.val ≤ 4) && peerPort (.die e n) == (some (.die d
        (if n.val ≤ 2 then Fin.ofNat 9 (n.val + 2) else Fin.ofNat 9 (n.val - 2))))
        && (List.range 4).any fun k => (tabStreams t e n false k).contains i)) s3
    let s6 := s4.setDx d { s4.dx d with syncDue := some (s4.hclk + 2800000) }
    let s7 := [0, 1, 2, 3].foldl (fun t k =>
      if rdT t (4 * u + k) Reg.TS_STAT_STATE = tsUp then loseAll (wrT t (4 * u + k) Reg.TS_STAT_STATE tsSelfRefresh) (4 * u + k)
      else t) s6
    let recent := (s7.dx d).losses.filter fun t => decide (s7.hclk - t ≤ 2800000000 * 3600)
    let held := recent.length ≥ 2
    let s8 := (s7.setDx d { s7.dx d with losses := s7.hclk :: recent, scrub := (s7.dx d).scrub || releasing s7 }).bump Reg.FT_DIE_RESETS 0 1 u
    let s9 := if s8.rb Reg.FT_SCAN_BUSY u then (s8.wb Reg.FT_SCAN_BUSY u false).wr Reg.FT_SCAN_RESULT u 3 else s8
    if held then fatalRec (orderStop (s9.wr Reg.FT_DIE_STATE 0 4 u) d) 0x16 4 u 12 else s9.wr Reg.FT_DIE_STATE 0 1 u

/-- A port of a die is at width down (R412, R551): a ring port whose partner is up has its fallback set written; a CM port
without such a set leaves its stack unreachable; the loss of CH cuts the die off. The step is given up. -/
def portLost (s : State) (p0 : PortId) : State :=
  let p : PortId := match p0 with
    | .stack k => .die (Fin.ofNat 4 (k.val / 4)) (Fin.ofNat 9 (5 + k.val % 4))
    | q => q
  let s1 := linkFault s p0
  match p with
  | .die d n =>
    if n.val = 0 then loseDie s1 d
    else
      let s2 := loseStep s1 d.val
      let partnerUp := decide (n.val ≥ 5) || portState s2 (.die d (Fin.ofNat 9 (partnerPort n.val))) == lkUp
      match [0, 1].findSome? fun dir => keyedSet s2 d.val 2 n.val 0 dir 3 with
      | some k => if partnerUp then wantSet s2 k else s2
      | none => s2
  | .hub d => loseDie s1 d
  | .stack k => loseStep s1 (k.val / 4)
  | .span _ => s1

/-- The fallback set keyed to a width of a receiver (R551, R553): its die's port in the receive direction, or the die's port that sends
to the hub or a stack, in the transmit direction. -/
def widthSet (s : State) (p : PortId) (w : Nat) : Option Nat :=
  match p with
  | .die d n => keyedSet s d.val 2 n.val 0 0 w
  | .hub d => keyedSet s d.val 2 0 0 1 w
  | .stack k => keyedSet s (k.val / 4) 2 (5 + k.val % 4) 0 1 w
  | .span _ => none

/-- LK_CFG.AUTOSPARE of a receiver: it steers without firmware (R427); a base die's port follows its die's. -/
def autoSpare (s : State) (p : PortId) : Bool :=
  match p with
  | .stack k => s.rb Reg.LK_CFG_AUTOSPARE (k.val / 4) (5 + k.val % 4)
  | _ => rdP s p Reg.LK_CFG_AUTOSPARE Reg.LKH_CFG_AUTOSPARE == 1

/-- A receiver's usable groups have become fewer (R411, R412): it announces the width they allow, and asks for the fallback set keyed to
that; at width down the port is lost. -/
def narrow (s : State) (p : PortId) : Acted :=
  let w := widthOf p (usableGroups s p)
  if w = 3 then (4, 0, portLost s p)
  else if w = rdP s p Reg.LK_STAT_RXW Reg.LKH_STAT_RXW then (4, 0, s)
  else
    let s1 := if portState s p = lkUp then announceWidth s p else s
    (4, 0, match widthSet s1 p w with
      | some k => wantSet s1 k
      | none => match p with
        | .span _ => s1
        | _ => s1.lg LogKind.noFallback (portN p) [portKey p, w])

/-- A cane lane (R409-R411, R551): the receiver steers it to the lowest free spare, or gives up its group and narrows the port; each is
recorded in the field repair log. A failed idle spare is used no more; where AUTOSPARE is 0 the port waits for firmware. A span lane has
no spare: it is a group (R418). -/
def actLane (s : State) (e : FaultEvent) : Acted :=
  match itemReceiver e.unit e.item with
  | none => (0, 0, s)
  | some p =>
    let wire := bits e.item 5 9
    let rec_ := fun t : State => addRepair t ⟨1, e.unit, 0xFFFF, e.item⟩
    match p, dataLane s p wire with
    | .span _, _ => narrow (loseGroup (rec_ s) p wire) p
    | _, none => let t := loseSpare (rec_ s) p wire; (0, (freeSpares t p).length, t)
    | _, some lane =>
      if !autoSpare s p then (0, (freeSpares s p).length, s)
      else
        let t := rec_ s
        match (freeSpares t p).filter (256 + · ≠ wire) with
        | k :: rest => (3, rest.length, announceSteer t p lane k)
        | [] => narrow (loseGroup t p lane) p

/-- Marks the router of a position failed in CN_FAIL (R309). -/
def failRouter (s : State) (d : DieId) (r c : Nat) : State :=
  let n := 10 * r + c
  s.wr Reg.CN_FAIL_FAIL d.val (s.rd Reg.CN_FAIL_FAIL d.val (n / 32) ||| 2 ^ (n % 32)) (n / 32)

/-- The streams whose path crosses the router of a core: those its tables name. -/
def routerStreams (s : State) (c : CoreId) : List Nat :=
  ((tabEntries s c).filterMap fun x => if x.2.2.v then some x.2.2.stream else none).eraseDups

/-- The gathers that own a stream or hold its destination. -/
def streamGathers (s : State) (d : DieId) (i : Nat) : List Gather :=
  let dst := sideOf s d i true
  (gatherOf s (ownerCore s d i)).toList
    ++ (if dst.1 = skSp ∨ dst.1 = skWpt then (gatherOf s (mgaCore dst.2)).toList else [])

/-- A router stone (R546, R547): the router is marked failed, which is recorded, the streams through it are stopped and their gathers
recalled and held; then its position is fenced, or the fallback set keyed to it is requested. -/
def actRouter (s : State) (d : DieId) (r c : Nat) : Acted :=
  let s1 := failRouter (addRepair s ⟨2, d.val, r + 16 * c, 1⟩) d r c
  match hostOf s1 d r c with
  | none => fenceIdle s d r c (markStoned s1 d r c)
  | some core =>
    let l := routerStreams s1 core
    let gs := (l.flatMap fun i => streamGathers s1 d i).eraseDups
    let s2 := gs.foldl recallHold (l.foldl (fun t i => if t.rb Reg.DN_SSTAT_ACTIVE d.val i then stopStream t d i else t) s1)
    if rowSpares s2 d.val r ≠ 0 then fenceAct s d r c (deadCore s2 core false)
    else match keyedSet s2 d.val 0 c r 0 0 with
      | some k => (10, 0, loseStep (standbySet s2 k) d.val)
      | none => (0, 0, loseStep (s2.lg LogKind.noFallback (dieN d.val) [r, c]) d.val)

/-! ## Seams (R26-R28) -/

/-- The wires of a seam bundle known to have failed: the one the fuses repair, and those in the field repair log. -/
def seamWires (s : State) (d : DieId) (b : Nat) : List Nat :=
  let f := smGet 0 s.chip.seamFuse (bundleKey d b)
  ((if f = 0 then [] else [f - 1]) ++ ((s.faults.repair.filter fun r : Repair => r.kind == 5 && r.unit == d.val && r.item / 64 == b).map
    fun r : Repair => r.item % 64)).eraseDups

/-- The streams whose tables use a link across a seam. -/
def seamStreams (s : State) (d : DieId) (k : Nat) : List Nat :=
  ((dieCores d).flatMap fun c => (tabEntries s c).filterMap fun x =>
    match linkOf c x.1 with
    | some n => if x.2.2.v && (crossed s c n.1 x.1).contains k then some x.2.2.stream else none
    | none => none).eraseDups

/-- A failed link takes the course of a router stone with the fallback set keyed to it (R28, R546): its streams are stopped, their
gathers recalled and held, and the step is given up. -/
def linkCourse (s : State) (d : DieId) (l : List Nat) (keys : List (Nat × Nat × Nat)) : Acted :=
  let gs := (l.flatMap fun i => streamGathers s d i).eraseDups
  let s1 := gs.foldl recallHold (l.foldl (fun t i => if t.rb Reg.DN_SSTAT_ACTIVE d.val i then stopStream t d i else t) s)
  match keys.findSome? fun q => keyedSet s1 d.val 1 q.1 q.2.1 q.2.2 0 with
  | some k => (10, 0, loseStep (standbySet s1 k) d.val)
  | none => (0, 0, loseStep (s1.lg LogKind.noFallback (dieN d.val) (keys.flatMap fun q => [q.1, q.2.1, q.2.2])) d.val)

/-- The link keys of a link across a seam (R553): column, row and direction, from either end. -/
def seamKeys (link : Nat) : List (Nat × Nat × Nat) :=
  let k := link % 18
  if k < 8 then [(4, k, 1), (5, k, 3)] else [(k - 8, 3, 2), (k - 8, 4, 0)]

/-- The positions whose forwarded clock or sync path takes a link across a seam (R28, R53, R322): from row 7 columns 0 to 4, from a
column its four northern positions. -/
def farSide (link : Nat) : List (Nat × Nat) :=
  let k := link % 18
  if k = 7 then (List.range 8).flatMap fun r => (List.range 5).map fun c => (r, c)
  else if 8 ≤ k then (List.range 4).map fun r => (r, k - 8)
  else []

/-- A seam bundle has two failed wires: its link or function is disabled (R28). -/
def failBundle (s : State) (d : DieId) (b : Nat) : Acted :=
  let n := bundleKey d b
  let k := b / 128
  if s.faults.links.contains n then (0, 0, s)
  else
    let s1 := { s with faults := { s.faults with links := s.faults.links ++ [n] } }.lg LogKind.seamFailed (dieN d.val) [b]
    if k / 18 = 3 ∨ k / 18 = 4 then (2, 0, (farSide k).foldl (fun t p => stoneFence t d p.1 p.2) s1)
    else if k / 18 = 5 then (0, 0, s1)
    else linkCourse s1 d (seamStreams s1 d k) (seamKeys k)

/-- A wire of a seam bundle has failed: it is recorded, and the second one of a bundle disables it (R26-R28). -/
def wireFails (s : State) (d : DieId) (b w : Nat) : State :=
  if (seamWires s d b).contains w then s
  else
    let s1 := addRepair s ⟨5, d.val, 0xFFFF, 64 * b + w⟩
    if (seamWires s1 d b).length ≥ 2 then (failBundle s1 d b).2.2 else s1

/-- The bundles of a die of which a wire is known to have failed. -/
def hurtBundles (s : State) (d : DieId) : List Nat :=
  ((s.chip.seamFuse.filter fun p : Nat × Nat => p.1 / 16384 == d.val && p.2 != 0).map (fun p : Nat × Nat => p.1 % 16384)
    ++ (s.faults.repair.filter fun r : Repair => r.kind == 5 && r.unit == d.val).map fun r : Repair => r.item / 64).eraseDups

/-- The seam repairs of a die take effect before its links train (R27): one failed wire of a bundle is shifted onto the spare, and a
bundle with two is disabled. -/
def applySeams (s : State) (d : DieId) : State :=
  (hurtBundles s d).foldl (fun t b =>
    let n := bundleKey d b
    match seamWires t d b with
    | [] => t
    | [w] => { t with faults := { t.faults with seams := smSet 0 t.faults.seams n (w + 1) } }
    | _ => { t with faults := { t.faults with links := n :: t.faults.links.filter (· ≠ n) } }) s

/-- A short of an island (R506, R548): its switch opens for good, its five routers are marked failed, its positions are fenced,
and the step is given up. -/
def shortIsland (s : State) (d : DieId) (n : Nat) : State :=
  let r := islandRow n
  let s1 := (s.wr Reg.LH_ISL_HDR d.val 3 n).wb Reg.LH_ISL_WAIT d.val false n
  let x := s1.pw d.val
  let s2 := s1.setPw d.val { x with ups := x.ups.filter fun p => p.isl != n }
  let s3 := (islandCols n).foldl (fun t c =>
    let q := 10 * r + c
    let t1 := failRouter t d r c
    let t2 := match hostOf t1 d r c with
      | some e => ((t1.setCx e { t1.cx e with dead := true, waking := none }).wb Reg.DN_RSTAT_PASSTHRU (coreU e) true).wr
          Reg.FT_ROWMAP_FENCE_REQ d.val (t1.rd Reg.FT_ROWMAP_FENCE_REQ d.val r ||| 2 ^ c) r
      | none => t1
    setPos (t2.setDx d { t2.dx d with fenceTo := smSet psQuarantine (t2.dx d).fenceTo q psIsland }) d.val r c psIsland) s2
  loseStep (updRow (addRepair s3 ⟨3, d.val, 0xFFFF, n⟩) d.val r) d.val

/-- The class action on a stone (R529). -/
def classAct (s : State) (e : FaultEvent) : Acted :=
  let d : DieId := Fin.ofNat 4 e.unit
  match e.cls.val with
  | 0 => if e.unit < 4 then actSram s e d else (0, 0, s)
  | 1 => actDram s e
  | 2 => actLane s e
  | 3 => match itemPort e.unit e.item with
    | some p => (5, 0, startRetrain s p)
    | none => (0, 0, s)
  | 4 => match e.pos with
    | some p =>
      let r := p.1.val
      let c := p.2.val
      if posState s d.val r c = psScanning then (2, rowSpares s d.val r, scanFails s d r c)
      else match hostOf s d r c with
        | some core => fenceAct s d r c (deadCore s core e.noRefetch)
        | none => fenceIdle s d r c (markStoned s d r c)
    | none => (0, 0, s)
  | 5 => match e.pos with
    | some p => if posState s d.val p.1.val p.2.val = psScanning then (2, 0, scanFails s d p.1.val p.2.val)
      else actRouter s d p.1.val p.2.val
    | none => (0, 0, s)
  | 6 => match e.pos with
    | some p =>
      let n := posNum d.val p.1.val p.2.val
      (0, 0, { s with faults := { s.faults with flagged := n :: s.faults.flagged.filter (· ≠ n) } })
    | none => (0, 0, s)
  | 7 => (2, rowSpares s d.val (islandRow (bits e.item 0 4)), shortIsland s d (bits e.item 0 4))
  | _ =>
    let q : DieId := Fin.ofNat 4 e.item
    (9, 0, loseDie s q)

/-! ## Judging (R530-R532) -/

/-- What an event does to its item: whether it is a STONE, the COUNT of the record that is due, and the item after it. `t`, `w`
are the class's threshold and window in MCLK, `nclk` the NCLK in progress. -/
def weigh (t w now nclk : Nat) (ue : Bool) (x : FaultItem) : Bool × Option Nat × FaultItem :=
  let st := x.stamps.filter fun a => decide (now - a ≤ w)
  let n := st.length + 1 + (x.late.filter fun a => decide (w < now - a)).length
  let full := decide (t ≤ 1) || decide (t - 1 ≤ st.length) || ue
  if full && x.stoneAt != some nclk then
    (true, some n, { x with stamps := [], late := [], last := now, stoneAt := some nclk })
  else
    let due := match x.seedAt with
      | some a => decide (w < now - a)
      | none => true
    let y := { x with stamps := (now :: st).take (t - 1), last := now }
    if due then (false, some n, { y with late := [], seedAt := some now }) else (false, none, { y with late := x.late ++ [now] })

/-- True when an item is the one an event names. -/
def isItem (e : FaultEvent) (x : FaultItem) : Bool :=
  x.cls == e.cls.val && x.unit == e.unit && x.pos == posCode e.pos && x.item == e.item

/-- The item with the oldest latest stamp. -/
def oldestItem : List FaultItem → Option FaultItem
  | [] => none
  | x :: r => match oldestItem r with
    | some y => if y.last < x.last then some y else some x
    | none => some x

/-- Tracks an item; a full table gives up the item with the oldest latest stamp, which FT_EVICT of a die counts (R531). -/
def track (s : State) (k : Nat) (e : FaultEvent) (x : FaultItem) : State :=
  let l := smGet [] s.faults.items k
  let put := fun (t : State) (m : List FaultItem) => { t with faults := { t.faults with items := smSet [] t.faults.items k m } }
  if l.any (isItem e) then put s (l.map fun y => if isItem e y then x else y)
  else if l.length < 4096 then put s (l ++ [x])
  else
    let s1 := put s ((match oldestItem l with | some y => l.erase y | none => l) ++ [x])
    if k < 4 then s1.bump Reg.FT_EVICT_COUNT k else s1

/-- A STONE is counted by its collector and by its class (R553, R555). -/
def countStone (s : State) (k cls : Nat) : State :=
  let t := if k < 4 then s.bump Reg.FT_EVCNT_STONES k else s
  { t with faults := { t.faults with stones := smSet 0 t.faults.stones cls (satAdd 32 (smGet 0 t.faults.stones cls) 1) } }

/-- An event reaches its collector (R529-R533): it is a SEED or a STONE of its item; a STONE takes its class action, then its
record is sent. -/
def judgeEvent (s : State) (e : FaultEvent) : State :=
  let k := unitCollector e.unit
  let t := s.rd Reg.FT_THR_T 0 e.cls.val
  let w := s.rd Reg.FT_THR_W_MS 0 e.cls.val * 175000
  let x := ((smGet [] s.faults.items k).find? (isItem e)).getD
    { cls := e.cls.val, unit := e.unit, pos := posCode e.pos, item := e.item }
  let ue := decide (e.cls.val ≤ 1) && (e.code == 0x02 || e.code == 0x04 || e.code == 0x0E)
  let r := weigh t w (mclkOf s k) (s.hclk / (if s.rb Reg.HB_CLKSTAT_NCLK_DIV 0 then 4 else 2)) ue x
  let s1 := track s k e r.2.2
  if r.1 then
    let s3 := countStone s1 k e.cls.val
    let a := classAct s3 e
    reportRec a.2.2 k (mkRec s3 e 0 e.cls.val 1 (r.2.1.getD 1) t a.1 a.2.1)
  else
    let s2 := if k < 4 then s1.bump Reg.FT_EVCNT_SEEDS k else s1
    match r.2.1 with
    | none => s2
    | some n =>
      reportRec s2 k (mkRec s2 e 2 e.cls.val 0 n t 0 0)

/-- A high-priority packet that cannot be reconstructed is lost (R321), or a retained input of a sealed phase cannot be read (R178):
the step is given up. The loss of a PARISON packet ends the load in application (R382). -/
def lostControl (s0 : State) (unit : Nat) : State :=
  let s := if s0.ctl.lostPz then failLoad { s0 with ctl := { s0.ctl with lostPz := false } } else s0
  if s.ctl.lost || s.lossDue then loseStep { s with ctl := { s.ctl with lost := false }, lossDue := false } unit else s

/-- What a control router does with the flit it reports (R320): a corrected word is counted; an uncorrectable flit's packet is dropped.
The event's words are 1 for a control flit, then the input port + 16 where the header itself is uncorrectable. -/
def controlError (s : State) (e : FaultEvent) : State :=
  match e.pos, e.detail with
  | some p, 1 :: w :: _ =>
    let d : DieId := Fin.ofNat 4 e.unit
    if e.unit < 4 ∧ e.cls = 6 ∧ e.code = 0x0B then
      match hostOf s d p.1.val p.2.val with
      | some c => s.bump Reg.CN_CE_COUNT (coreU c)
      | none => s
    else if e.unit < 4 ∧ e.cls = 5 ∧ e.code = 0x0A then
      lostControl (dropControl s d p.1.val p.2.val (w % 16) (bit w 4)) d.val
    else s
  | _, _ => s

/-- An event whose first word is 2 names the seam bundle and the wire that failed (R26). -/
def seamError (s : State) (e : FaultEvent) : State :=
  match e.detail with
  | 2 :: b :: w :: _ => if e.unit < 4 ∧ b < 16128 ∧ w < 33 then wireFails s (Fin.ofNat 4 e.unit) b w else s
  | _ => s

/-- The core that an event of a position concerns. -/
def eventCore (s : State) (e : FaultEvent) : Option CoreId :=
  match e.pos with
  | some p => if e.unit < 4 then hostOf s (Fin.ofNat 4 e.unit) p.1.val p.2.val else none
  | none => none

/-- R334: an entry delivered with an uncorrectable error of the entry store (memory 2 of R537) is reported as R244 has it. -/
def entryError (s : State) (e : FaultEvent) : State :=
  match eventCore s e with
  | some c =>
    if e.cls = 0 ∧ e.code = 0x02 ∧ bits e.item 17 3 = 2 then
      if phaseRuns s c then reportCause s c false true else s.lg LogKind.ueToFirmware (coreU c) [e.item]
    else s
  | none => s

/-- R272, R306: words of a data flit corrected at a router input, where no output takes the flit; the event's first word is 0. -/
def flitError (s : State) (e : FaultEvent) : State :=
  match eventCore s e, e.detail with
  | some c, 0 :: _ => if e.cls = 6 ∧ e.code = 0x0B then s.bump Reg.DN_CE_COUNT (coreU c) else s
  | _, _ => s

/-- A collector takes an event: what its router, its queue manager or its seam has met, then its judgement. -/
def takeEvent (s : State) (e : FaultEvent) : State := judgeEvent (seamError (entryError (controlError s e) e) e) e

/-- R530: a collector judges an event. -/
def execFaultEvent (e : FaultEvent) (s : State) : Host.Outcome State Fault Refusal := .next (takeEvent (flitError s e) e)

/-- R534, R535: an ERROR packet reaches its collector; hub Punty 2 writes a die's record to flash. -/
def execError (col : Collector) (e : ErrorReport) (s : State) : Host.Outcome State Fault Refusal :=
  .next (match col, e with
    | .hub _, .record r => storeRec s r
    | .die _, .record _ => s.lg LogKind.badPacket hubN []
    | _, .event e => takeEvent s e
    | _, .info e => noteRec s e 3 (if e.code = 0x20 then 7 else 0) 0)

/-- A core fails its self-test, which is handled as a core stone (R544, R561). No event code is stated for it: that of its record is a
free value (DESIGN CHOICE, notes/assumptions/106). -/
def selftestStone (s0 : State) (c : CoreId) : State :=
  let s := { s0 with free := s0.free + 1 }
  let r := c.lc.val / 8
  let col := pcolOf s c.die.val r (c.lc.val % 8)
  let e := ownEvent s 4 (Config.freeValue s0.free % 65536) c.die.val (some (Fin.ofNat 8 r, Fin.ofNat 10 col)) 0
  let a := fenceAct s c.die r col (deadCore (countStone s c.die.val 4) c false)
  reportRec a.2.2 c.die.val (mkRec s e 0 4 1 1 (s.rd Reg.FT_THR_T 0 4) a.1 a.2.1)

/-! ## Shorts and trips (R506, R524) -/

/-- R506, R525: an island draws a short-circuit current, or its voltage collapses, with its main switch closed, or while a power-up of it
is staged. -/
def execIslandShort (d : DieId) (isl : Fin 16) (s : State) : Host.Outcome State Fault Refusal :=
  .next (if s.rd Reg.LH_ISL_HDR d.val isl.val ≤ 1 then
      judgeEvent s (ownEvent s 7 0x0D d.val none isl.val)
    else s)

/-- A die's supply is off: the die is lost. -/
def tripDie (s : State) (d : DieId) (code cause : Nat) : State :=
  if s.rd Reg.FT_DIE_STATE 0 d.val ≠ 0 ∧ s.rd Reg.FT_DIE_STATE 0 d.val ≠ 3 then s
  else judgeEvent s (ownEvent s 8 code d.val none (d.val + 4 * cause))

/-- R506: a short on the shared VDDL trips the die's regulator. -/
def execVddlTrip (d : DieId) (s : State) : Host.Outcome State Fault Refusal :=
  .next (let t := tripDie s d 0x11 1
    t.setDx d { t.dx d with tripped := true })

/-- R524: an island reaches 115 °C; the die restarts only with every sensor below 85 °C. -/
def execThermalTrip (d : DieId) (s : State) : Host.Outcome State Fault Refusal :=
  .next (let t := tripDie s d 0x12 2
    t.setDx d { t.dx d with hot := true })

/-- R524: a stack reaches 105 °C: self-refresh, and its CM port goes down. -/
def execStackThermalTrip (k : StackId) (s : State) : Host.Outcome State Fault Refusal :=
  let n := k.val
  .next (if rdT s n Reg.TS_STAT_STATE = tsUp then
      portLost (loseAll (wrT s n Reg.TS_STAT_STATE tsSelfRefresh) n) (.die (Fin.ofNat 4 (n / 4)) (Fin.ofNat 9 (5 + n % 4)))
    else s)

/-- R65: a die's CLKLOST reaches the hub: the die is lost (R529, R549). -/
def execClklost (d : DieId) (seq : Fin 16) (crc : BitVec 8) (s : State) : Host.Outcome State Fault Refusal :=
  .next (sbReceive s (.hub d) 3 0 seq.val crc fun t => tripDie (t.lg LogKind.dieClockLost (dieN d.val) []) d 0x10 0)

/-! ## Losses of ports -/

/-- A port that has fallen to width down at either end is lost (R412). -/
def endFallen (s : State) (p : PortId) : State :=
  if (linkEnds p).any fun q => (s.lx q).fallen then portLost s p else s

/-- R404, R405: at its LINK beat a port checks the group its peer sends, with the bits its wires flipped; a span port checks one that
its partner module sent, and sends its own next. In training a span port sends its IDENT (R424). -/
def execLinkGroupReceive (p : PortId) (errs : List WireErr) (grp : Option SpanGroup) (s : State) :
    Host.Outcome State Fault Refusal :=
  .next (if portState s p ≠ lkUp then repeatIdent s p else endFallen (linkBeatAt s p errs grp) p)

/-- The item of a lane of a receiver in the field repair log (R537). -/
def laneRepair (p : PortId) (wire : Nat) : Repair :=
  let u := portUnit p
  ⟨1, u.1, 0xFFFF, u.2 + 32 * wire⟩

/-- The lanes of both ends of a link after stages 1 to 3 of its training (R413): each repair is recorded (R411), and lanes and widths are
in force at both ends. A span port's transmit width is what its partner's lanes allow. -/
def trainLanes (s : State) (p : PortId) (near far : EndLanes) : State :=
  let rec_ := fun (t : State) (q : PortId) (e : EndLanes) => e.data.foldl (fun t l => addRepair t (laneRepair q l.val)) t
  match peerPort p with
  | some q => settleLanes (settleLanes (findLanes (findLanes (rec_ (rec_ s p near) q far) p near) q far) p) q
  | none =>
    let s1 := settleLanes (findLanes (rec_ s p near) p near) p
    wrP s1 p Reg.LK_STAT_TXW Reg.LKH_STAT_TXW (spanWidth ((List.range 8).filter fun l => !(far.data.any fun x => x.val == l)).length)

/-- True when a link has trained (R54, R412, R413): its stages passed, each end has a width, and stage 4 reached the design latency, which
a span port does not have. -/
def trained (s : State) (p : PortId) (ok : Bool) (latency : Nat) : Bool :=
  ok && (linkEnds p).all (fun q => rdP s q Reg.LK_STAT_TXW Reg.LKH_STAT_TXW != 3 && rdP s q Reg.LK_STAT_RXW Reg.LKH_STAT_RXW != 3)
    && ((peerPort p).isNone || latency == 24)

/-- R413, R412, R424: training ends. A port that cannot reach its design latency, or is left at width down, is a link
fault; a span port that trained from DOWN first exchanges IDENT, with a nonce drawn. A CH port that has lost every clock lane is the
loss of its die's clock (R65, R412). -/
def execLinkTrainingComplete (p : PortId) (ok : Bool) (near far : EndLanes) (latency : BitVec 8) (s : State) :
    Host.Outcome State Fault Refusal :=
  .next (if portState s p ≠ lkTraining ∧ portState s p ≠ lkRetrain then s
    else
      let t := trainLanes s p near far
      let dark := match p with
        | .die d n => if n.val = 0 ∧ near.clocks = 15 then some d else none
        | .hub d => if far.clocks = 15 then some d else none
        | _ => none
      match dark with
      | some d => loseClock t d
      | none =>
        if !trained t p ok latency.toNat then portLost t p
        else match p with
          | .span m => if (t.spx m).keyed then resumePort t p 0 else sendIdent t m
          | _ => stackUp ((linkEnds p).foldl (fun u q => resumePort u q latency.toNat) t) p)

/-- R67: loss of the received clock on a port other than CH is a link fault of that port. -/
def execPortClockLoss (d : DieId) (p : Fin 9) (s : State) : Host.Outcome State Fault Refusal :=
  .next (if p.val = 0 ∨ !bit (s.rd Reg.BT_CLKSTAT_PORT_CLK_OK d.val) p.val then s
    else portLost (s.wr Reg.BT_CLKSTAT_PORT_CLK_OK d.val (s.rd Reg.BT_CLKSTAT_PORT_CLK_OK d.val - 2 ^ p.val)) (.die d p))

/-! ## Scans and rotation (R540-R542) -/

/-- Starts the scan that FT_SCAN names: of a position in QUARANTINE, one at a time on a die (R540); the position is woken for it
(R36). -/
def startScan (s : State) (d : DieId) : State :=
  let r := s.rd Reg.FT_SCAN_ROW d.val
  let c := s.rd Reg.FT_SCAN_COL d.val
  if s.rb Reg.FT_SCAN_BUSY d.val ∨ c ≥ 10 ∨ posState s d.val r c ≠ psQuarantine then s.lg LogKind.scanIgnored (dieN d.val) [r, c]
  else
    let s1 := updRow (setPos s d.val r c psScanning) d.val r
    wakeSpares (((s1.wb Reg.FT_SCAN_BUSY d.val true).wr Reg.FT_SCAN_RESULT d.val 0).wr Reg.FT_SCAN_PATTERN d.val 0) d [10 * r + c]

/-- R540: FT_SCAN.START; the die Punty and module firmware only. -/
def execScanStart (r : Requester) (d : DieId) (s : State) : Host.Outcome State Fault Refusal :=
  .next (if mayWrite .punty r .die d.val then startScan s d else s.lg LogKind.ignoredWrite (dieN d.val) [Reg.FT_SCAN_START.id])

/-- The position of a die that is being scanned. -/
def scanned (s : State) (d : DieId) : Option (Nat × Nat) :=
  ((List.range 80).map fun n => (n / 10, n % 10)).find? fun p => posState s d.val p.1 p.2 == psScanning

/-- A scan ends (R541): the position becomes a spare, at rest again (R36), or is fenced for good. -/
def scanEnds (s : State) (d : DieId) (pass : Bool) (pattern : Nat) : State :=
  match scanned s d with
  | none => s
  | some (r, c) =>
    let n := posNum d.val r c
    let s := restSpares s d [10 * r + c]
    let s1 := { s with faults := { s.faults with
      scans := s.faults.scans.filter (· ≠ n) ++ [n], flagged := s.faults.flagged.filter (· ≠ n)
      stoned := s.faults.stoned.filter (· ≠ n)
      returned := if pass && s.faults.stoned.contains n then n :: s.faults.returned.filter (· ≠ n) else s.faults.returned } }
    let s2 := (s1.wb Reg.FT_SCAN_BUSY d.val false).wr Reg.FT_SCAN_RESULT d.val (if pass then 1 else 2)
    let s3 := s2.wr Reg.FT_SCAN_PATTERN d.val (if pass then 0 else pattern)
    let s4 := if pass then setPos (dropFence s3 d r c) d.val r c psSpare
      else setPos (addRepair s3 ⟨2, d.val, r + 16 * c, 0⟩) d.val r c psField
    noteRec (updRow s4 d.val r) (ownEvent s4 4 (if pass then 0x13 else 0x14) d.val (some (Fin.ofNat 8 r, Fin.ofNat 10 c)) 0) 3 0
      (rowSpares s4 d.val r)

/-- Firmware's first choice of a list of positions: one flagged, else the one scanned longest ago; never scanned in the field
counts as scanned at the cold start, in column order of its island (R542, R560). -/
def rotationPick (s : State) (d : DieId) (l : List (Nat × Nat)) : Option (Nat × Nat) :=
  let num := fun p : Nat × Nat => posNum d.val p.1 p.2
  match l.find? fun p => s.faults.flagged.contains (num p) with
  | some p => some p
  | none =>
    if s.rd Reg.FT_ROT_INTV 0 = 0 then none
    else match (List.range 5).findSome? fun k => l.find? fun p => p.2 % 5 == k && !s.faults.scans.contains (num p) with
      | some p => some p
      | none => s.faults.scans.findSome? fun n => l.find? fun p => num p == n

/-- True while a recovery runs on a die: a gather is held, or a fence or shift is not finished (R552). -/
def recovering (s : State) (d : DieId) : Bool :=
  s.rd Reg.FT_GHOLD_HELD d.val 0 != 0 || s.rd Reg.FT_GHOLD_HELD d.val 1 != 0
    || (List.range 8).any fun r => s.rb Reg.FT_ROWMAP_PENDING d.val r || (smGet none (s.dx d).shifts r).isSome

/-- R542: firmware rotates one mapped position of a die out for a scan; during a recovery it waits. -/
def execRotation (d : DieId) (s : State) : Host.Outcome State Fault Refusal :=
  let l := ((List.range 80).map fun n => (n / 10, n % 10)).filter fun p =>
    posState s d.val p.1 p.2 == psMapped && rowSpares s d.val p.1 != 0
  .next (if recovering s d then s
    else match rotationPick s d l with
      | some p => requestFence s d p.1 [p.2]
      | none => s)

/-! ## Firmware's tools (R543) -/

/-- R543: FT_GCMD.RECALL. -/
def execForcedRecall (r : Requester) (g : Gather) (s : State) : Host.Outcome State Fault Refusal :=
  .next (if !mayWrite .punty r .die g.die.val then s.lg LogKind.ignoredWrite (dieN g.die.val) [Reg.FT_GCMD_RECALL.id]
    else if gatherDefined s g then forceRecall s g else s)

/-- R543: FT_GCMD.HOLD. -/
def execGatherHold (r : Requester) (g : Gather) (s : State) : Host.Outcome State Fault Refusal :=
  .next (if !mayWrite .punty r .die g.die.val then s.lg LogKind.ignoredWrite (dieN g.die.val) [Reg.FT_GCMD_HOLD.id]
    else if gatherDefined s g then setHeld s g true else s)

/-- R543: FT_GCMD.RELEASE. -/
def execGatherRelease (r : Requester) (g : Gather) (s : State) : Host.Outcome State Fault Refusal :=
  .next (if !mayWrite .punty r .die g.die.val then s.lg LogKind.ignoredWrite (dieN g.die.val) [Reg.FT_GCMD_RELEASE.id]
    else setHeld s g false)

/-- R543: FT_REFETCH.GO: the stream runs once more with the tag of its last run; one that is ACTIVE is not run. -/
def execRefetch (r : Requester) (d : DieId) (i : Fin 32768) (s : State) : Host.Outcome State Fault Refusal :=
  .next (if !mayWrite .punty r .die d.val then s.lg LogKind.ignoredWrite (dieN d.val) [Reg.FT_REFETCH_GO.id]
    else if s.rb Reg.DN_SSTAT_ACTIVE d.val i.val then s.lg LogKind.refetchIgnored (dieN d.val) [i.val]
    else if s.rb Reg.DN_DESC_VALID d.val i.val then trigger s d i.val (s.sx d i.val).pseq
    else s)

/-! ## Interrupts and firmware commands (R312) -/

/-- R312: an interrupt reaches a Punty or the hub, which records it. -/
def execIntr (dest : NodeId) (cause : Nat) (s : State) : Host.Outcome State Fault Refusal :=
  .next (match dest with
    | .dieNode _ => s.lg LogKind.interrupt (nodeNum dest) [cause]
    | .hub _ => s.lg LogKind.interrupt (nodeNum dest) [cause]
    | _ => s.lg LogKind.badPacket (nodeNum dest) [cause])

/-- R57, R312, R520: a firmware command reaches its target: a core takes its gather's new ratio and reports done; STOP waits for a
core in a deep state, which it wakes. A die without its clock takes none (R65). -/
def execCtrl (dest : NodeId) (cmd : CtrlCmd) (s : State) : Host.Outcome State Fault Refusal :=
  .next (if (nodeDie dest).any fun d => s.rb Reg.BT_CLKSTAT_STOPPED d.val then s
    else match cmd with
    | .ratio g => match dest with
      | .core c => toCore s c dest (.ctrl cmd) fun t => ratioDone t g c
      | _ => s
    | .stop c => toCore s c dest (.ctrl cmd) fun t => stopCore t c
    | .fence p => requestFence s p.die p.row.val [p.col.val]
    | .recalled g => if gatherDefined s g then forceRecall s g else s
    | .hold g => if gatherDefined s g then setHeld s g true else s
    | .release g => setHeld s g false
    | .wake c => startWakes s c.die [c] false)

end Sys2Proof.Machine
end

