-- ==== Sys2Proof/Machine/Boot.lean ====
section
/-! DEFINITION. Starting and stopping the module (R557-R566), firmware (R568), licences (R576, R577), the debug level (R578),
the release of ownership (R573, R574), resets of a die (R549, R550, R566), and the module's pins and input (R601-R618). -/

namespace Sys2Proof.Machine

/-! ## What survives -/

/-- Fields whose value lies in fuses or flash (R379, R535, R567). -/
def fuseFields : List Field :=
  [Reg.BT_MODID_ID, Reg.BT_SVN_FUSED, Reg.HB_ID_REV, Reg.LH_VMAX_VMAX, Reg.LH_VMIN_VMIN0, Reg.LH_VMIN_VMIN1,
   Reg.LH_VMIN_VMIN2, Reg.LH_VMIN_VMIN3, Reg.FT_LOG_RECORDS, Reg.FT_LASTID_ID]

/-- True of a field instance that a loss of input leaves: fuses and flash, with the positions that fuses fence. -/
def keepsCold (s : State) (F : Field) (u i : Nat) : Bool :=
  fuseFields.contains F || (cols.any (fun c => pstatF c == F) && s.rd F u i == psFuse)

/-- Fields of the hub that a warm reset of the module leaves (R563, R565): clocks, what is known of the dies, the owner's
state, what is known of the input, and the record of STONEs since cold start. -/
def warmFields : List Field :=
  [Reg.HB_CLKSTAT_REF_OK, Reg.HB_CLKSTAT_PLL_LOCK, Reg.HB_CLKSTAT_HOLDOVER, Reg.HB_CLKSTAT_HOLD_EXPIRED,
   Reg.HB_CLKSTAT_DIE_CLK_EN, Reg.HB_CLKSTAT_HOLD_SEC, Reg.FT_DIE_STATE, Reg.FT_DIE_RESETS, Reg.BT_STAT_OWNER,
   Reg.HB_HOSTCFG_IDE_REQ]

/-- True of a field instance that a warm reset of the module leaves. -/
def keepsWarm (s : State) (F : Field) (u i : Nat) : Bool :=
  keepsCold s F u i || F.acc == .rws || warmFields.contains F

/-- The cable inputs of the span ports, which no reset changes (R611). -/
def keepCables (s : State) : SMap PortX :=
  (List.finRange 8).foldl (fun m p => if (s.spx p).cable then m else smSet {} m (portKey (.span p)) { span := { cable := false } }) []

/-- The module's flash and pins after a loss of power (R604). -/
def coldChip (x : ModX) : ModX :=
  { slotPin := x.slotPin, pwrEn := x.pwrEn, pinBtest := x.pinBtest, pinOwnclr := x.pinOwnclr, perst := x.perst
    valid := false, input := x.input, lastIn := x.lastIn, failIn := x.failIn, needNew := x.needNew, owner := x.owner, relMark := x.relMark
    unclean := x.unclean, imgs := x.imgs, lics := x.lics, train := x.train, hubSite := x.hubSite, seamFuse := x.seamFuse, rowFuse := x.rowFuse }

/-- The module without power (R604): everything but fuses and flash is lost. -/
def unpowered (s : State) : State :=
  { State.reset with
    regs := (clearRegs s fun F u i => !keepsCold s F u i).regs
    faults := { log := s.faults.log, repair := s.faults.repair }
    ports := keepCables s, chip := coldChip s.chip, ctl := freshControl s, log := s.log, out := s.out, free := s.free, pending := s.pending }

/-- An input fail (R604): headers open, the rails discharge and MOD_READY falls; the next start finds no clean stop. -/
def inputFails (s : State) : State :=
  if s.chip.valid then unpowered { s.lg LogKind.inputFail hubN [s.chip.lastIn.1, s.chip.lastIn.2] with
    chip := { s.chip with unclean := true, failIn := s.chip.lastIn } }
  else { s with chip := { s.chip with charging := false } }

/-! ## Licences (R5, R576, R577) -/

/-- A number in a licence. -/
def licNum (l : List Byte) (o n : Nat) : Nat := ofLeBytes ((l.drop o).take n)

/-- True when a licence's signature verifies under a certified key. -/
def licSigned (l : List Byte) : Bool :=
  Config.certKey (licNum l 32 4) != 0 && Config.sm2Verify (Config.certKey (licNum l 32 4)) (Config.sm3 (l.take 64)) (licNum l 64 64)

/-- True when the layout, KIND and VALUE of a licence are legal. -/
def licLegal (l : List Byte) : Bool :=
  let v := licNum l 7 1
  licNum l 0 4 == 0x524C4943 && licNum l 4 2 == 1 && licNum l 36 28 == 0 && match licNum l 6 1 with
    | 1 => v == 1
    | 2 => v == 1
    | 3 => v == 1
    | 4 => v == 4 || v == 8
    | 5 => v == 32 || v == 64
    | 6 => v == 1
    | _ => false

/-- BT_LIC.STATE of a stored licence at a reset. -/
def licState (s : State) (l : List Byte) : Nat :=
  if l.isEmpty then 0
  else if !licSigned l then 2
  else if licNum l 8 16 ≠ modId s then 3
  else if !licLegal l then 4
  else 1

/-- The places that hold licences of one state. -/
def licPlaces : List Nat := List.range 32

/-- The licence in a place; empty where there is none. -/
def licAt (s : State) (n : Nat) : List Byte := smGet [] s.chip.lics n

/-- The largest VALUE in force of a KIND, at least `base`. -/
def licValue (l : List (List Byte)) (kind base : Nat) : Nat :=
  l.foldl (fun a x => if licNum x 6 1 = kind then max a (licNum x 7 1) else a) base

/-- The debug level of a reset (R578). -/
def debugLevel (s : State) : Bool :=
  licValue s.chip.inForce 6 0 == 1 && (s.rd Reg.BT_STAT_OWNER 0 == 0
    || (s.rd Reg.BT_STAT_OWNER 0 == 1 && (s.chip.owner.map Owner.consent).getD false))

/-- Firmware reads the licences at a reset (R7, R577): BT_LIC, HB_ID, the ports held in reset (R6), and the debug level. -/
def readLicences (s : State) : State :=
  let s1 := licPlaces.foldl (fun t n =>
    let l := licAt s n
    let st := licState s l
    let t1 := ((t.wr Reg.BT_LIC_STATE 0 st n).wr Reg.BT_LIC_KIND 0 (licNum l 6 1) n).wr Reg.BT_LIC_VALUE 0 (licNum l 7 1) n
    if st ≥ 2 then t1.lg LogKind.licenceIgnored hubN [n, st] else t1) s
  let l := (licPlaces.filter fun n => licState s (licAt s n) == 1).map (licAt s)
  let s2 := ((((s1.wr Reg.HB_ID_SPAN 0 (licValue l 4 2)).wr Reg.HB_ID_SLOTS 0 (licValue l 5 16)).wr Reg.HB_ID_FP4 0
    (licValue l 1 0)).wr Reg.HB_ID_PAIR 0 (licValue l 2 0)).wr Reg.HB_ID_HERITAGE 0 (licValue l 3 0)
  let s3 := { s2 with chip := { s2.chip with inForce := l } }
  let s4 := s3.wb Reg.BT_STAT_DEBUG 0 (debugLevel s3)
  (List.finRange 8).foldl (fun t m =>
    if m.val < s4.rd Reg.HB_ID_SPAN 0 then t
    else wrP t (.span m) Reg.LK_STAT_STATE Reg.LKH_STAT_STATE lkHeld) s4

/-! ## Firmware (R568) -/

/-- The image in a flash slot: 0 A, 1 B. -/
def imgAt (s : State) (n : Nat) : FwImage := smGet {} s.chip.imgs n

/-- Replaces the image in a flash slot. -/
def setImg (s : State) (n : Nat) (x : FwImage) : State := { s with chip := { s.chip with imgs := smSet {} s.chip.imgs n x } }

/-- True when the boot ROM finds an image valid. -/
def imgValid (s : State) (n : Nat) : Bool := (imgAt s n).good && decide (s.rd Reg.BT_SVN_FUSED 0 ≤ (imgAt s n).svn)

/-- The image the boot ROM starts: the valid one with the higher version, the other after two starts that failed. -/
def pickImage (s : State) : Option Nat :=
  let first := if (imgAt s 0).version < (imgAt s 1).version then 1 else 0
  let other := 1 - first
  if imgValid s first && !(imgValid s other && decide ((imgAt s first).fails ≥ 2)) then some first
  else if imgValid s other then some other
  else none

/-- A start stops (R562): FAILSTEP names the stage, and from stage 3 on a fatal record is written, for which no event code is
stated. -/
def stopStart (s : State) (n : Nat) : State :=
  let s1 := (s.wr Reg.BT_STAT_FAILSTEP 0 n).lg LogKind.startStopped hubN [n]
  if n < 3 then s1
  else fatalRec { s1 with free := s1.free + 1 } (Config.freeValue s1.free % 65536) 4 n 0

/-- The boot ROM starts firmware, which reads the licences (R568, R577); without a valid image the start stops in stage 2. -/
def bootFirmware (s : State) : State :=
  match pickImage s with
  | none => ((stopStart s 2).wb Reg.JK_STAT_ROM 0 true).wr Reg.BT_STAT_STAGE 0 2
  | some n =>
    let x := imgAt s n
    let s1 := (setImg s n { x with fails := x.fails + 1 }).wr Reg.BT_STAT_IMAGE 0 n
    readLicences ((s1.wr Reg.BT_SVN_IMAGE 0 x.svn).wb Reg.JK_STAT_ROM 0 false)

/-- The digest of the firmware image in force. -/
def fwDigest (s : State) : Nat := (imgAt s (s.rd Reg.BT_STAT_IMAGE 0)).digest

/-- The digest of the image that a start now would bring into force (R564, R568). -/
def nextDigest (s : State) : Nat := (imgAt s ((pickImage s).getD (s.rd Reg.BT_STAT_IMAGE 0))).digest

/-! ## Dies -/

/-- A die is held in reset (R550, R562): it is stopped in order (R67); DIE_HELD is fatal. -/
def holdDie (s : State) (d : DieId) : State :=
  if s.rd Reg.FT_DIE_STATE 0 d.val = 4 then s
  else
    fatalRec (orderStop (s.wr Reg.FT_DIE_STATE 0 4 d.val) d) 0x16 4 d.val 12

/-- True of a die that is held. -/
def dieHeld (s : State) (d : DieId) : Bool := s.rd Reg.FT_DIE_STATE 0 d.val == 4

/-- The readings of a die's islands and stacks. -/
def dieTemps (s : State) (d : DieId) : List Nat :=
  ((List.range 16).map fun n => s.rd Reg.LH_ISL_TEMP d.val n) ++ (s.pw d.val).temps

/-- The entries of the field repair log that concern a die. -/
def dieRepairs (d : DieId) (l : List Repair) : List Repair :=
  l.filter fun r => r.unit == d.val || (decide (16 ≤ r.unit) && (r.unit - 16) / 4 == d.val)

/-- True when two lists of readings lie within 15 °C of each other. -/
def closeTemps : List Nat → List Nat → Bool
  | [], [] => true
  | a :: r, b :: q => decide (a ≤ b + 15 ∧ b ≤ a + 15) && closeTemps r q
  | _, _ => false

/-- True when a die's reset may take the fast path (R564); `fw` is the digest of the image it will run under. -/
def fastOk (s : State) (fw : Nat) (d : DieId) (full : Bool) : Bool :=
  !full && !(s.dx d).tripped && match s.chip.train with
    | some t => t.digest == fw && closeTemps (dieTemps s d) (smGet [] t.temps d.val)
        && dieRepairs d s.faults.repair == dieRepairs d t.repair
    | none => false

/-- The field repair log brings the positions and routers of a die to their states (R29, R506, R533, R547); the switch of an island with
a short stays open until a cold start (R505). -/
def applyRepairs (s : State) (d : DieId) (warm : Bool) : State :=
  (s.faults.repair.filter fun r => r.unit == d.val).foldl (fun t r =>
    match r.kind with
    | 2 => if r.item = 1 then failRouter t d (r.pos % 16) (r.pos / 16) else setPos t d.val (r.pos % 16) (r.pos / 16) psField
    | 3 =>
      let u := (islandCols r.item).foldl (fun t c => failRouter (setPos t d.val (islandRow r.item) c psIsland) d (islandRow r.item) c) t
      if warm then u.wr Reg.LH_ISL_HDR d.val 3 r.item else u
    | _ => t) s

/-- The scratchpad rows of a die that the fuses mark or the field repair log records, at every position (R245). -/
def applyRowRepairs (s : State) (d : DieId) : State :=
  let fused := (s.chip.rowFuse.filter fun p => p.1 / 80 == d.val).flatMap fun p => p.2.map fun row => (p.1, row)
  let logged := (s.faults.repair.filter fun r : Repair => r.kind == 0 && r.unit == d.val && bits r.item 17 3 == 0).map fun r : Repair =>
    (80 * d.val + 10 * (r.pos % 16) + r.pos / 16, bits r.item 0 4 * 8192 + bits r.item 4 4 * 512 + bits r.item 8 9)
  (fused ++ logged).eraseDups.foldl (fun t p => mapRow t p.1 p.2) { s with rowMaps := s.rowMaps.filter fun p => p.1 / 80 != d.val }

/-- The lanes that the field repair log names, at the receivers that a test names, before they train (R411, R427). -/
def applyLaneRepairs (s : State) (at_ : PortId → Bool) : State :=
  (s.faults.repair.filter fun r => r.kind == 1).foldl (fun t r =>
    match itemReceiver r.unit r.item with
    | some p => if at_ p then steerNow t p (bits r.item 5 9) else t
    | none => t) s

/-- True of a die's own ports, of those of its stacks, and of the hub's port that faces it. -/
def diePort (d : DieId) (p : PortId) : Bool := portDie p == some d

/-- The cores of a die after mapping: memories zeroed, the self-test has run and halted (R561). -/
def freshCores (s : State) (d : DieId) : State :=
  (dieCores d).foldl (fun t c => (zeroScratch t c).setCst c stHalted)
    (clearRegs s fun F u _ => F.space == .core && u / 64 == d.val && (F == Reg.IMEM_LO || F == Reg.IMEM_HI))

/-- True when the other end of a die's port forwards its clock (R52): the hub to a die it serves, a die with its clock, a stack that
is up. -/
def clockComes (s : State) (d : DieId) (n : Fin 9) : Bool :=
  match peerPort (.die d n) with
  | some (.hub _) => bit (s.rd Reg.HB_CLKSTAT_DIE_CLK_EN 0) d.val
  | some (.die e _) => s.rb Reg.BT_CLKSTAT_FWD_OK e.val
  | some (.stack k) => !s.chip.badStacks.contains k
  | _ => false

/-- The received clocks of a die's ports (R67). -/
def portClocks (s : State) (d : DieId) : Nat :=
  ((List.finRange 9).filter (clockComes s d)).foldl (fun n p => n + 2 ^ p.val) 0

/-- Starts the ports of a die at which a clock arrives (R413); its neighbours on the ring receive its clock (R52). -/
def trainPorts (s0 : State) (d : DieId) : State :=
  let s := s0.wr Reg.BT_CLKSTAT_PORT_CLK_OK d.val (portClocks s0 d)
  let s1 := [d - 1, d + 1].foldl (fun t e =>
    if dieHeld t e || t.rb Reg.BT_CLKSTAT_STOPPED e.val then t else t.wr Reg.BT_CLKSTAT_PORT_CLK_OK e.val (portClocks t e)) s
  (List.finRange 9).foldl (fun t n =>
    let p : PortId := .die d n
    if !clockComes t d n || portState t p == lkUp then t
    else (linkEnds p).foldl (fun t q => wrP t q Reg.LK_STAT_STATE Reg.LKH_STAT_STATE lkTraining) t) s1

/-- Starts the clock of a die, which the hub forwards (R52, R65). -/
def clockDie (s0 : State) (d : DieId) : State :=
  let s := s0.orF Reg.HB_CLKSTAT_DIE_CLK_EN 0 (2 ^ d.val)
  (((s.wb Reg.BT_CLKSTAT_STOPPED d.val false).wb Reg.BT_CLKSTAT_RINGOSC d.val false).wb Reg.BT_CLKSTAT_FWD_OK d.val true).wb
    Reg.BT_CLKSTAT_ORDERED_STOP d.val false

/-- The contents of a stack after a memory test: nothing a program has written is left (R564). -/
def testStack (s : State) (k : Nat) : State := zeroStack s k

/-- Drops the entries of a sparse map that a test of the key names. -/
def smDrop {α : Type} (f : Nat → Bool) (m : SMap α) : SMap α := m.filter fun p => !f p.1

/-- A die in reset (R549, R565): its registers and units return to their state after reset, but for fuses, generation
counters and what is known of its losses. The ports that face it start afresh with it, as their numbers must agree (DEDUCED,
notes/assumptions/102). -/
def clearDie (s : State) (d : DieId) : State :=
  let u := d.val
  let s1 := clearRegs s fun F v i => ((F.space == .core && v / 64 == u) || (F.space == .die && v == u))
    && !keepsCold s F v i && F.acc != .rws && F != Reg.BT_IDENT_SLOT
  let x := s1.dx d
  { s1 with
    cores := smDrop (fun k => k / 64 == u) s1.cores, routers := smDrop (fun k => if k < 320 then k / 80 == u else (k - 320) / 64 == u) s1.routers
    streams := smDrop (fun k => k / 32768 == u) s1.streams, gathers := smDrop (fun k => k / 64 == u) s1.gathers
    ports := smDrop (fun k => decide (9 * u ≤ k ∧ k < 9 * u + 9) || k == 36 + u || decide (48 + 4 * u ≤ k ∧ k < 52 + 4 * u)
      || ([1, 2, 3, 4] : List (Fin 9)).any fun n => (peerPort (.die d n)).any fun q => portKey q == k) s1.ports
    ctl := dropDieControl s1 d, stackSt := smDrop (fun k => k / 4 == u) s1.stackSt, ejected := smDrop (fun k => k / 64 == u) s1.ejected
    power := smSet {} (smDrop (fun k => k == u) s1.power) u { temps := (s.pw u).temps }
    dies := smSet {} s1.dies u { losses := x.losses, tripped := x.tripped, scrub := x.scrub } }

/-- A die's logical cores stand afresh on its positions (R29): repairs, map, short die held. -/
def mapAfresh (s : State) (warm : Bool) (d : DieId) : State :=
  let s1 := applyRowRepairs (mapDie (applyRepairs s d warm) d) d
  if (List.range 8).all fun r => s1.rb Reg.FT_ROWMAP_SHORT d.val r then holdDie s1 d else s1

/-! ## Releasing (R573, R574) -/

/-- Aborts the load in progress. -/
def abortLoad (s : State) : State :=
  if pzStage s = pzIdle then s
  else if pzApplying ≤ pzStage s then failLoad s
  else endLoad (unlock (fullEnded (if pzStage s = pzWaiting then endWait s else s) (imgKind s s.load.src != 1)) (· == .loading)) 2

/-- True of the tables that the release zeroes: instruction memories, slot tables, stream descriptors and cane tables. -/
def scrubbed (F : Field) : Bool :=
  F == Reg.IMEM_LO || F == Reg.IMEM_HI || (F.space == .core && F.base == 0x100000)
    || (F.space == .die && decide (0x100000 ≤ F.base ∧ F.base < 0x600000)) || (F.space == .hub && F.base == 0x400000)
    || F == Reg.HB_MB_WORD

/-- Scrubs a core (R573): its program ends, its stores and tags are zeroed and its scratchpad starts to zero. -/
def scrubCore (s : State) (c : CoreId) : State :=
  let s1 := freshCore s c
  startZero (s1.setCx c { s1.cx c with vregs := [], patrol := [] }) c

/-- A die that is away misses the scrub of a release, which it gets when it next leaves reset (R573, R574). -/
def markScrub (s : State) (d : DieId) : State := s.setDx d { s.dx d with scrub := true }

/-- A die leaves reset: where it missed a scrub, its stacks are zeroed before it runs any stream (R573, R574); its scratchpads and
instruction memories every reset zeroes. -/
def scrubDie (s : State) (d : DieId) : State :=
  if (s.dx d).scrub then
    ([0, 1, 2, 3].foldl (fun t k => testStack t (4 * d.val + k)) (s.setDx d { s.dx d with scrub := false })).wb
      Reg.BT_STAT_STACKS_KEPT 0 false
  else s

/-- The release of the module begins (R573): steps 1 to 4. `keep` is the session that asked for it. -/
def startRelease (s : State) (keep : Option Nat) : State :=
  let s1 := (s.wr Reg.BT_STAT_OWNER 0 2).wb Reg.HB_STEPCTL_HOLD 0 true
  let s2 := (definedGathers s1).foldl (fun t g => setHeld (forceRecall t g) g true) s1
  let s3 := allDies.foldl (fun t d => stopStreams t d fun _ => true) s2
  let s4 := ideLost (abortLoad ((List.range 64).foldl (disableSlot false) s3))
  let s5 := (List.finRange 8).foldl (fun t m => if (t.spx m).keyed then portDown t (.span m) else t) s4
  let s6 := { s5 with
    mails := [], chip := { s5.chip with relMark := true }
    manage := { s5.manage with sess := s5.manage.sess.filter fun x => some x.id == keep } }
  let live := allDies.filter fun d => s6.rd Reg.FT_DIE_STATE 0 d.val = 0
  let away := (allDies.filter fun d => !live.contains d).foldl markScrub (clearRegs s6 fun F _ _ => scrubbed F)
  let s7 := (live.flatMap dieCores).foldl scrubCore away
  (List.range 16).foldl (fun t k =>
    if rdT t k Reg.TS_STAT_STATE = tsUp then wrT (loseAll t k) k Reg.TS_STAT_ZEROING 1 else t) s7

/-- True while a scratchpad or a stack is still being zeroed. -/
def scrubbing (s : State) : Bool :=
  (allCores.any fun c => s.rb Reg.CP_STAT_ZEROING (coreU c))
    || (List.range 16).any fun k => rdT s k Reg.TS_STAT_ZEROING == 1 && rdT s k Reg.TS_STAT_STATE == tsUp

/-! ## Warm reset (R563-R565) -/

/-- A warm reset of the module: what it keeps, firmware and licences read again, stage 3 in progress. -/
def warmReset (s : State) (full : Bool) : State :=
  let fast := allDies.filter fun d => !dieHeld s d && fastOk s (nextDigest s) d full
  let slow := allDies.filter fun d => !fast.contains d
  let path := if slow.all (dieHeld s) then 1 else if fast.isEmpty then 2 else 3
  let x := s.chip
  let t : State := { State.reset with
    regs := (clearRegs s fun F u i => !keepsWarm s F u i).regs
    mem := s.mem.filter fun p => decide (3 * 2 ^ 48 ≤ p.1)
    eccBad := s.eccBad.filter fun p => decide (3 * 2 ^ 48 ≤ 8 * p.1)
    faults := { log := s.faults.log, repair := s.faults.repair, stones := s.faults.stones }
    ports := keepCables s
    dies := s.dies.map fun p => (p.1, ({ losses := p.2.losses, scrub := p.2.scrub } : DieX))
    power := s.power.map fun p => (p.1, ({ temps := p.2.temps } : PowerX))
    chip := { x with cold := false, fast := fast, startAt := s.hclk, warmHeld := none, badStacks := [], inForce := [] }
    ctl := freshControl s, hclk := s.hclk, log := s.log, out := s.out, free := s.free, pending := s.pending }
  let t1 := allDies.foldl (fun t d =>
    let t := t.wr Reg.BT_IDENT_SLOT d.val s.chip.slotPin
    if dieHeld t d then t else (t.wr Reg.FT_DIE_STATE 0 0 d.val).wb Reg.FT_DIE_FAST 0 (fast.contains d) d.val) t
  let t2 := (List.range 16).foldl (fun t k =>
    if fast.contains (Fin.ofNat 4 (k / 4)) then wrT t k Reg.TS_STAT_STATE tsSelfRefresh else t) t1
  bootFirmware (((t2.wr Reg.BT_STAT_STAGE 0 3).wr Reg.BT_STAT_PATH 0 path).wb Reg.BT_STAT_STACKS_KEPT 0 (path == 1))

/-- Orders a warm reset of the module (R563, R574, R580). -/
def orderWarm (s : State) (full : Bool) : State :=
  if s.rd Reg.BT_STAT_STAGE 0 ≠ 0 then s.lg LogKind.warmIgnored hubN []
  else if releasing s then { s with chip := { s.chip with warmHeld := some full } }
  else warmReset s full

/-- R563, R580: BT_CMD.WARM, by host software, the management port and module firmware. -/
def execWarm (r : Requester) (full : Bool) (s : State) : Host.Outcome State Fault Refusal :=
  .next (if mayWrite .mgmt r .hub 0 then orderWarm s full else s.lg LogKind.ignoredWrite hubN [Reg.BT_CMD_WARM.id])

/-- The release ends (R573): steps 5 to 7, once every line is zero. A warm reset that waited is applied. -/
def endRelease (s : State) : State :=
  if !releasing s || scrubbing s then s
  else
    let s1 := dropParison { s with locks := [] }
    let s2 := (s1.wr Reg.BT_STAT_OWNER 0 0).wb Reg.HB_HOSTCFG_IDE_REQ 0 false
    let s3 := allDies.foldl (fun t d => (t.wr Reg.FT_GHOLD_HELD d.val 0 0).wr Reg.FT_GHOLD_HELD d.val 0 1) s2
    let s4 := { s3 with
      chip := { s3.chip with owner := none, relMark := false, warmHeld := none }, manage := { s3.manage with sess := [] } }
    match s.chip.warmHeld with
    | some full => orderWarm s4 full
    | none => s4

/-! ## The stages of a start (R557) -/

/-- Goes to a stage. -/
def toStage (s : State) (n : Nat) : State := s.wr Reg.BT_STAT_STAGE 0 n

/-- The dies that a start uses. -/
def startDies (s : State) : List DieId := allDies.filter fun d => !dieHeld s d

/-- A die fails a stage (R562, R564): from the fast path it goes to the full path, where its stacks are tested; else it is held. -/
def failDie (s : State) (d : DieId) : State :=
  if s.chip.fast.contains d then
    let s1 := { s with chip := { s.chip with fast := s.chip.fast.filter (· ≠ d) } }
    let s2 := [0, 1, 2, 3].foldl (fun t k => testStack t (4 * d.val + k)) s1
    ((s2.wb Reg.FT_DIE_FAST 0 false d.val).wb Reg.BT_STAT_STACKS_KEPT 0 false).wr Reg.BT_STAT_PATH 0
      (if (s2.chip.fast.filter fun e => !dieHeld s2 e).isEmpty then 2 else 3)
  else holdDie s d

/-- Stage 2 ends: firmware runs (R568). A cold start that finds no clean stop writes its record (R604). -/
def endBoot (s : State) : State :=
  let s1 := bootFirmware s
  if s1.rd Reg.BT_STAT_FAILSTEP 0 ≠ 0 then s1
  else
    let s2 := if s1.chip.unclean then
        let x := s1.chip
        noteRec { s1 with chip := { x with unclean := false } }
          { ownEvent s1 0 0x28 4 none 0 with detail := [x.failIn.1, x.failIn.2] } 3 0 0
      else s1
    toStage s2 3

/-- Stage 3 ends (R42, R50): HCLK is locked and forwarded, every die has reported its strap, and the hub has confirmed its own. -/
def endClocks (s : State) : State :=
  let ds := startDies s
  if s.chip.hubSite ≠ 7 then stopStart (s.lg LogKind.strapMismatch hubN [s.chip.hubSite]) 3
  else if !ds.all fun d => s.rb Reg.BT_IDENT_SITE_OK d.val then s
  else
    let s1 := (locked s).wr Reg.HB_CLKSTAT_DIE_CLK_EN 0 (ds.foldl (fun n d => n + 2 ^ d.val) 0)
    let s2 := ds.foldl clockDie s1
    toStage (ds.foldl (fun t d => t.wr Reg.BT_CLKSTAT_PORT_CLK_OK d.val (portClocks s2 d)) s2) 4

/-- Stage 4 ends: stacks of full-path dies have been tested (R562, R564), seam and lane repairs are in force (R27, R411), and an
ownership clear starts (R574, R613). Training of every port begins. -/
def endMemories (s : State) (r : StageResult) : State :=
  let s1 := (List.range 16).foldl (fun t k =>
    if t.chip.fast.contains (Fin.ofNat 4 (k / 4)) then t else wrT (testStack t k) k Reg.TS_STAT_STATE 1) s
  let s2 := (startDies s1).foldl scrubDie ((startDies s1).foldl applySeams { s1 with chip := { s1.chip with badStacks := r.stackSt } })
  let s3 := if (s2.chip.cold && s2.chip.ownclr) || s2.chip.relMark then startRelease s2 none else s2
  let s4 := (startDies s3).foldl trainPorts (applyLaneRepairs s3 fun _ => true)
  toStage ((List.range 8).foldl startSpan s4) 5

/-- The lanes of a receiver settle while no data runs: at width down its link has a fault (R412). -/
def settleDown (s : State) (p : PortId) : State :=
  let t := settleLanes s p
  if rdP t p Reg.LK_STAT_RXW Reg.LKH_STAT_RXW = 3 then linkFault t p else t

/-- A cane lane fails its qualification (R559): it is steered, and its STONE recorded; a span lane narrows its port. -/
def badLane (s : State) (x : PortId × Fin 264) : State :=
  let p := x.1
  let s0 := settleDown (steerNow s p x.2.val) p
  match p with
  | .span _ => s0.lg LogKind.laneBad hubN [portKey p, x.2.val]
  | _ =>
    let r := laneRepair p x.2.val
    let act := if (dataLane s p x.2.val).isNone then 0 else if ((freeSpares s p).filter (256 + · ≠ x.2.val)).isEmpty then 4 else 3
    let s1 := countStone (addRepair s0 r) (unitCollector r.unit) 2
    let m := mkRec s1 (ownEvent s1 2 0x05 r.unit none r.item) 0 2 1 1 (s1.rd Reg.FT_THR_T 0 2) act (freeSpares s1 p).length
    reportRec s1 (unitCollector r.unit) m

/-- True of a port that the fast path does not qualify (R564): one of a die on that path, or of the stack or the hub's port that faces
such a die; a span port where every die is on it (DESIGN CHOICE, notes/assumptions/90). -/
def skipsScan (s : State) (p : PortId) : Bool :=
  match p with
  | .die d _ => s.chip.fast.contains d
  | .hub d => s.chip.fast.contains d
  | .stack k => s.chip.fast.contains (Fin.ofNat 4 (k.val / 4))
  | .span _ => (startDies s).all s.chip.fast.contains

/-- Stage 5 ends: lanes that failed their qualification are steered (R559); dies whose CH is not up fail (R562). -/
def endLinks (s : State) (r : StageResult) : State :=
  let s1 := (r.lanes.filter fun x => !skipsScan s x.1).foldl badLane s
  toStage ((startDies s1).foldl (fun t d => if portState t (.die d 0) = lkUp then t else failDie t d) s1) 6

/-- A position fails the scan of a start (R560). -/
def scanFailsAt (s : State) (p : Pos) : State :=
  addRepair (setPos s p.die.val p.row.val p.col.val psField) ⟨2, p.die.val, p.row.val + 16 * p.col.val, 0⟩

/-- A router fails the scan of a start (R560). -/
def routerFailsAt (s : State) (p : Pos) : State :=
  failRouter (addRepair s ⟨2, p.die.val, p.row.val + 16 * p.col.val, 1⟩) p.die p.row.val p.col.val

/-- Stage 6 ends: scans, which the fast path skips, mapping and self-test (R560, R561, R564); instruction memories and scratchpads
are zero. -/
def endCores (s : State) (r : StageResult) : State :=
  let scanned := fun l : List Pos => l.filter fun p => !s.chip.fast.contains p.die
  let s1 := (scanned r.routers).foldl routerFailsAt ((scanned r.positions).foldl scanFailsAt s)
  let s2 := (startDies s1).foldl (fun t d => mapAfresh t (!s.chip.cold) d) s1
  let s3 := r.cores.foldl (fun t c => if corePresent t c then selftestStone t c else t) s2
  let s4 := (startDies s3).foldl (fun t d => mapAfresh t (!s.chip.cold) d) s3
  toStage ((startDies s4).foldl freshCores s4) 7

/-- The training record of a complete cold start (R564). -/
def trainNow (s : State) : TrainRec :=
  { digest := fwDigest s, temps := allDies.foldl (fun m d => smSet [] m d.val (dieTemps s d)) [], repair := s.faults.repair }

/-- Stage 7 ends: the module is READY (R557, R562); not while it is RELEASING (R613), nor with a strap that does not match
(R42). -/
def declareReady (s : State) : State :=
  if releasing s || allDies.any fun d => dieHeld s d && !s.rb Reg.BT_IDENT_SITE_OK d.val then s
  else
    let n := s.rd Reg.BT_STAT_IMAGE 0
    let stacksOk := (List.finRange 16).all fun k => !s.chip.badStacks.contains k && portState s (.stack k) == lkUp
    let s1 := ((toStage s 0).wb Reg.BT_STAT_READY 0 true).wb Reg.BT_STAT_DEGRADED 0 (!stacksOk || allDies.any (dieHeld s))
    let s2 := setImg s1 n { imgAt s1 n with fails := 0 }
    let s3 := s2.wr Reg.BT_TIME_MS 0 (min (2 ^ 24 - 1) ((s.hclk - s.chip.startAt) / 2800000))
    if s.chip.cold then { s3 with chip := { s3.chip with train := some (trainNow s3) } } else s3

/-- R557, R562: the stage in progress ends with what it found, and the next begins, or the start stops. With BTEST# low no
stage after the first runs (R612). -/
def execColdStartStageEnd (r : StageResult) (s : State) : Host.Outcome State Fault Refusal :=
  let st := s.rd Reg.BT_STAT_STAGE 0
  .next (if !s.chip.valid ∨ st = 0 ∨ s.rd Reg.BT_STAT_FAILSTEP 0 ≠ 0 ∨ s.chip.btest then s
    else if !r.ok then stopStart s st
    else
      let t := (r.dies.filter fun d => !dieHeld s d).foldl failDie s
      match st with
      | 1 => (toStage t 2).wb Reg.JK_STAT_ROM 0 true
      | 2 => endBoot t
      | 3 => endClocks t
      | 4 => endMemories t r
      | 5 => endLinks t r
      | 6 => endCores t r
      | _ => declareReady t)

/-- R616: MREF has not become valid within 10 s of stage 3. -/
def execMrefTimeout (s : State) : Host.Outcome State Fault Refusal :=
  .next (if s.rd Reg.BT_STAT_STAGE 0 = 3 ∧ s.rd Reg.BT_STAT_FAILSTEP 0 = 0 ∧ !s.rb Reg.HB_CLKSTAT_REF_OK 0 then stopStart s 3
    else s)

/-- R561: a core has not reported its self-test within 100 ms. -/
def execSelftestTimeout (c : CoreId) (s : State) : Host.Outcome State Fault Refusal :=
  .next (if corePresent s c && !(s.cx c).dead && (s.rd Reg.BT_STAT_STAGE 0 == 6 || s.rd Reg.FT_DIE_STATE 0 c.die.val == 2) then
      selftestStone s c
    else s)

/-- R558: 1.0 s after reset configuration requests are served normally. -/
def execConfigRetryEnd (s : State) : Host.Outcome State Fault Refusal :=
  .next { s with host := { s.host with crs := false } }

/-! ## Reset of one die (R549, R550, R566) -/

/-- R566, R580: BT_CMD.DIE_RST, by module firmware only: an isolated die goes into reset; one that runs is lost first, with cause
3, for which no event code is stated: a free value (DESIGN CHOICE, notes/assumptions/106). It waits
while the module is RELEASING (R574), and after a thermal trip for every sensor to read below 85 °C (R524). -/
def execDieRst (r : Requester) (d : DieId) (full : Bool) (s : State) : Host.Outcome State Fault Refusal :=
  let u := d.val
  let s1 := if s.rd Reg.FT_DIE_STATE 0 u = 0 ∨ s.rd Reg.FT_DIE_STATE 0 u = 3 then
      tripDie { s with free := s.free + 1 } d (Config.freeValue s.free % 65536) 3
    else s
  let cool := (List.range 16).all fun n => decide (s1.rd Reg.LH_ISL_TEMP u n < 85)
  .next (if !mayWrite .fw r .hub 0 then s.lg LogKind.ignoredWrite hubN [Reg.BT_CMD_DIE_RST.id]
    else if s.rd Reg.BT_STAT_STAGE 0 ≠ 0 ∨ s1.rd Reg.FT_DIE_STATE 0 u ≠ 1 ∨ releasing s1 ∨ ((s1.dx d).hot ∧ !cool) then s1
    else
      let fast := fastOk s1 (fwDigest s1) d full
      let s2 := (clearDie (if (s1.dx d).syncDue.isSome then resetCross s1 d else s1) d).wb Reg.BT_IDENT_SITE_OK u false
      let s3 := ((s2.wr Reg.FT_DIE_STATE 0 2 u).wb Reg.FT_DIE_FAST 0 fast u).wr Reg.BT_IDENT_SLOT u (s1.rd Reg.BT_IDENT_SLOT u)
      let s4 := [0, 1, 2, 3].foldl (fun t k =>
        if fast then wrT t (4 * u + k) Reg.TS_STAT_STATE tsSelfRefresh
        else wrT (testStack t (4 * u + k)) (4 * u + k) Reg.TS_STAT_STATE 1) s3
      trainPorts (applyLaneRepairs (applySeams (clockDie s4 d) d) (diePort d)) d)

/-- The records of the images in force that a die holds (R549), in load order. -/
def reloadRecs (s : State) (d : DieId) : List ImgRec :=
  s.load.images.flatMap fun im => im.recs.filter fun r => r.die == d.val && r.ty != 12 && !(r.dieSpace && r.off == 0x40)

/-- Steps 4 to 6 of R549: handles purged, the map, the records re-sent and sealed for the die only, and its start token. -/
def reloadDie (s : State) (d : DieId) : State :=
  let u := d.val
  let s1 := freshCores (mapAfresh s true d) d
  let s2 := purgeDie (s1.emit (.broadcast .allCores (.purge d))) d
  if dieHeld s2 d then s2
  else match badImage s2 fun _ => true with
    | some im => imageLost (s2.wr Reg.FT_DIE_STATE 0 3 u) im
    | none =>
      let s3 := (reloadRecs s2 d).foldl (writeRec (bankIn s2)) (s2.wr Reg.FT_DIE_STATE 0 3 u)
      let s4 := (dieCores d).foldl (fun t c =>
        (takeQueues (t.wb Reg.CP_CFG_SVC (coreU c) true) c (fun _ => true) fun _ => true).setCst c
          (if s3.rb Reg.PZ_HSTAT_SEALED 0 then stIdle else stHalted)) s3
      let s5 := takeHubSends s4 (dieCores d) fun _ _ => true
      let s6 := (gathersOn s5 d).foldl (fun t g => startRatio (t.setGx g { t.gx g with quiet := true }) g) s5
      let s7 := markDegraded ((s6.wr Reg.LH_SHARE_EFF u (s6.rd Reg.LH_SHARE_PZ u))) d
      enterIdle ((sbSend (scrubDie s7 d) (.hub d) 1 0).wr Reg.FT_DIE_STATE 0 0 u)

/-- R549, R550: the reset of a die ends. On the fast path a failure repeats the reset on the full path (R564); on the full
path it holds the die. -/
def execDieResetComplete (d : DieId) (ok : Bool) (s : State) : Host.Outcome State Fault Refusal :=
  let u := d.val
  .next (if s.rd Reg.FT_DIE_STATE 0 u ≠ 2 then s
    else if ok && s.rb Reg.BT_IDENT_SITE_OK u && portState s (.die d 0) == lkUp then
      reloadDie (s.setDx d { s.dx d with tripped := false }) d
    else if s.rb Reg.FT_DIE_FAST 0 u then
      [0, 1, 2, 3].foldl (fun t k => wrT (testStack t (4 * u + k)) (4 * u + k) Reg.TS_STAT_STATE 1) (s.wb Reg.FT_DIE_FAST 0 false u)
    else holdDie s d)

/-! ## The input (R601-R605) -/

/-- R601, R605, R622: PWR_EN is asserted with the input at `mv`, after `lowMs` ms low: the bulk charges while the input lies
within 40.0-50.0 V. After a trip of the hub PWR_EN must have been low for 1 s. -/
def execPwrEnAssert (mv lowMs : Nat) (s : State) : Host.Outcome State Fault Refusal :=
  let x := s.chip
  .next (if x.valid ∨ (x.needNew ∧ lowMs < 1000) then { s with chip := { x with pwrEn := true } }
    else
      let ok := decide (40000 ≤ mv ∧ mv ≤ 50000)
      { s with chip := { x with
        pwrEn := true, charging := ok, needNew := false
        input := if ok then .normal else if mv < 40000 then .low else .high } })

/-- R557, R601, R612: charging is complete and the input valid: pins are sampled and the cold start begins. -/
def execColdStart (s : State) : Host.Outcome State Fault Refusal :=
  .next (if !s.chip.charging ∨ !s.chip.pwrEn then s
    else
      let t := unpowered s
      let x := t.chip
      allDies.foldl (fun t d => t.wr Reg.BT_IDENT_SLOT d.val x.slotPin) { t with chip := { x with
        valid := true, charging := false, btest := x.pinBtest, ownclr := x.pinOwnclr, cold := true, startAt := t.hclk } })

/-- R602: the input falls below 40 V: the module runs on from the input or its bulk. -/
def execInputUndervoltage (s : State) : Host.Outcome State Fault Refusal :=
  .next { s with chip := { s.chip with input := .low, charging := false } }

/-- R602: the input rises above 50 V; above 54 V the switch opens at once. -/
def execInputOvervoltage (mv : Nat) (s : State) : Host.Outcome State Fault Refusal :=
  let t := { s with chip := { s.chip with input := .high, charging := false } }
  .next (if mv > 54000 then inputFails t else t)

/-- R602: more than 160 A for 1 ms: the switch opens. -/
def execInputOvercurrent (s : State) : Host.Outcome State Fault Refusal := .next (inputFails s)

/-- R602, R604: the input has stayed outside its range for too long, or the bulk has fallen to 36.0 V. -/
def execInputFail (s : State) : Host.Outcome State Fault Refusal :=
  .next (if s.chip.input = .normal then s else inputFails s)

/-- R602, R605: the input is within 40.0-50.0 V again; a module without power charges again, which after a trip of the hub
needs an input that was removed. -/
def execInputReturn (s : State) : Host.Outcome State Fault Refusal :=
  let x := s.chip
  let start := !x.valid && x.pwrEn && (!x.needNew || x.input == .low)
  .next { s with chip := { x with
    input := .normal, charging := x.charging || start, needNew := if start then false else x.needNew } }

/-- R605: PWR_EN is deasserted: an input fail. -/
def execPwrEnDeassert (s : State) : Host.Outcome State Fault Refusal :=
  .next (inputFails { s with chip := { s.chip with pwrEn := false } })

/-- R524: the hub reaches 115 °C: every rail goes down until a new valid input (R605). -/
def execHubThermalTrip (s : State) : Host.Outcome State Fault Refusal :=
  .next (if s.chip.valid then inputFails { s with chip := { s.chip with needNew := true } } else s)

/-! ## Pins -/

/-- R612: a change of BTEST# (or OWNCLR#): `level` is true for low. While the module runs it is ignored and logged. -/
def execStrapInputChange (btest level : Bool) (s : State) : Host.Outcome State Fault Refusal :=
  let x := if btest then { s.chip with pinBtest := level } else { s.chip with pinOwnclr := level }
  let t := { s with chip := x }
  .next (if s.chip.valid then t.lg LogKind.strapIgnored hubN [b2n btest, b2n level] else t)

/-- R615, R468: PERST# goes low: the link goes down and the host interface is reset. -/
def execPerstAssert (s : State) : Host.Outcome State Fault Refusal :=
  let t := linkDown s
  .next { t with host := { t.host with crs := true }, chip := { t.chip with perst := true } }

/-- R615: PERST# is deasserted: link training starts. -/
def execPerstDeassert (s : State) : Host.Outcome State Fault Refusal :=
  .next { s with chip := { s.chip with perst := false } }

/-- Records that waited for the endpoint go out, oldest first, then the vectors that wait. -/
def flushOwed (s : State) : State :=
  if !hostOpen s then s
  else
    let t := (List.range 64).foldl (fun t n =>
      let x := t.slx n
      x.owed.foldl (fun t p => t.emit (.hostWrite p.1 p.2)) (t.setSlx n { x with owed := [] })) s
    s.host.vecs.foldl (fun t v => t.emit (.msix v)) { t with host := { t.host with vecs := [] } }

/-- R583, R615: the link has trained: from stage 2 on with PERST# high. -/
def execPcieLinkUp (s : State) : Host.Outcome State Fault Refusal :=
  .next (if s.chip.perst ∨ !s.chip.valid ∨ s.chip.btest ∨ s.rd Reg.BT_STAT_STAGE 0 = 1 then s
    else flushOwed { s with host := { s.host with link := true } })

/-- R618: liquid is sensed for 1 s: LEAK# goes low until the next input fail, and an informational record is written. -/
def execLeak (s : State) : Host.Outcome State Fault Refusal :=
  .next (if s.chip.leak ∨ !s.chip.valid then s
    else noteRec { s with chip := { s.chip with leak := true } } (ownEvent s 0 0x29 4 none 0) 3 0 0)

/-- R611, R622: a span cable is removed or present. Without it the port goes down, or stops training. -/
def execCblChange (p : Fin 8) (present : Bool) (s : State) : Host.Outcome State Fault Refusal :=
  let q : PortId := .span p
  let t := s.setSpx p { s.spx p with cable := present }
  let st := portState t q
  .next (if present then (if decide (5 ≤ t.rd Reg.BT_STAT_STAGE 0) || t.rb Reg.BT_STAT_READY 0 then startSpan t p.val else t)
    else if st = lkUp ∨ st = lkRetrain then portLost t q
    else if st = lkTraining then portDown t q
    else t)

/-- MOD_READY, true while it is released high (R607). -/
def modReady (s : State) : Bool := s.rb Reg.BT_STAT_READY 0

/-- LEAK#, true while it is driven low (R618). -/
def leakLow (s : State) : Bool := s.chip.leak

/-! ## The TAP (R596) -/

/-- Selects a TAP instruction; those that drive pins take effect only with BTEST# sampled low, else they select BYPASS. -/
def tapSelect (s : State) (i : TapInstr) : State :=
  let pins := i == .extest || i == .clamp || i == .highz || i == .extestPulse || i == .extestTrain
  { s with chip := { s.chip with tap := if pins && !s.chip.btest then .bypass else i } }

/-- The device identification code. -/
def tapId (s : State) : Nat := s.rd Reg.HB_ID_REV 0 % 16 * 2 ^ 28 + 0x0416 * 2 ^ 12 + Config.jep106 % 2 ^ 11 * 2 + 1

/-- R596: BYPASS. -/
def execBypass (s : State) : Host.Outcome State Fault Refusal := .next (tapSelect s .bypass)
/-- R596: IDCODE. -/
def execIdcode (s : State) : Host.Outcome State Fault Refusal := .next ((tapSelect s .idcode).emit (.words [tapId s]))
/-- R596: SAMPLE/PRELOAD. -/
def execSamplePreload (s : State) : Host.Outcome State Fault Refusal := .next (tapSelect s .sample)
/-- R596: EXTEST. -/
def execExtest (s : State) : Host.Outcome State Fault Refusal := .next (tapSelect s .extest)
/-- R596: CLAMP. -/
def execClamp (s : State) : Host.Outcome State Fault Refusal := .next (tapSelect s .clamp)
/-- R596: HIGHZ. -/
def execHighz (s : State) : Host.Outcome State Fault Refusal := .next (tapSelect s .highz)
/-- R596: EXTEST_PULSE. -/
def execExtestPulse (s : State) : Host.Outcome State Fault Refusal := .next (tapSelect s .extestPulse)
/-- R596: EXTEST_TRAIN. -/
def execExtestTrain (s : State) : Host.Outcome State Fault Refusal := .next (tapSelect s .extestTrain)

/-! ## Span partners (R422, R424, R575) -/

/-- True when the partner is the one LK_PEER names, with its SLOT and port; 0 admits any (R422, R427). -/
def peerOk (s : State) (p : PortId) (m : IdentMsg) : Bool :=
  let w := Config.peerWord m.ident.toNat m.slot.toNat m.port.toNat
  (List.range 4).all (fun j => rdP s p Reg.LK_PEER_ID Reg.LKH_PEER_ID j == 0)
    || (List.range 4).all fun j => rdP s p Reg.LK_PEER_ID Reg.LKH_PEER_ID j == bits w (32 * j) 32

/-- R422, R424: an IDENT message: with a good CRC the partner is checked and the keys derived; a partner that differs from
LK_PEER leaves the port HELD. -/
def execIdent (p : Fin 8) (m : IdentMsg) (s : State) : Host.Outcome State Fault Refusal :=
  let q : PortId := .span p
  let x := s.px q
  .next (match x.span.nonce with
    | none => s
    | some _ =>
      if !identOk m ∨ portState s q ≠ lkTraining ∨ x.span.keyed then s
      else if !peerOk s q m then
        noteRec ((wrP s q Reg.LK_STAT_STATE Reg.LKH_STAT_STATE lkHeld).lg LogKind.spanPeer hubN [portKey q, m.ident.toNat])
          (ownEvent s 0 0x26 4 none p.val) 3 0 0
      else
        let s1 := s.setPx q { x with
          gseq := 0, expect := 0, replay := [], rxHeld := [], nak := false
          span := { x.span with
            keyed := true, gnTx := 0, gnRx := 0
            partner := some ⟨spanSecret s, m.ident.toNat, m.slot.toNat, m.port.toNat, m.nonce.toNat⟩ } }
        resumePort s1 q 0)

end Sys2Proof.Machine
end

