-- ==== Sys2Proof/Machine/Boundary.lean ====
section
/-! DEFINITION. The step boundary (R375) and what waits for it in other chapters: fences (R34), swaps (R297, R551), crossings that
slipped (R55). -/

namespace Sys2Proof.Machine

/-- True when the verdicts of a step are complete: each gather that has not failed has sealed its last phase, or its step
was given up and its cores have flushed. -/
def stepDone (s : State) : Bool :=
  (definedGathers s).all fun g =>
    let x := s.gx g
    let st := s.rd Reg.PZ_GATHER_STATE g.die.val g.idx.val
    st == gsFailed || (st != gsApplying && x.toFlush.isEmpty && (x.quiet || decide (nph s g ≤ x.nsealed)))

/-- True when no side effect of the module is held at a commit gate. -/
def effectsFree (s : State) : Bool :=
  coresFree s allCores && !gatedStreams s (fun _ => true)
    && (runsOf s fun r => r.gate.isSome).isEmpty
    && (List.range 16).all fun m => match (s.mbx m).commit with
      | some (_, some _) => false
      | _ => true

/-- The flags of the step that ends (R482): RATIO, LADDER_EXHAUSTED, STEP_LOST. -/
def stepFlags (s : State) : Nat := b2n s.ratioOut + 2 * b2n s.ladderOut + 4 * b2n s.stepLost

/-- The streams whose tables take an input of a router. -/
def inputStreams (s : State) (c : CoreId) (inp : Nat) : List Nat :=
  ((tabEntries s c).filterMap fun x =>
    if x.2.2.v && (x.2.2.inp == inp || x.2.2.fold && x.2.2.in2 == inp) then some x.2.2.stream else none).eraseDups

/-- The keys of the link into an input of a router (R553): from its position, and from the neighbour's. -/
def inputKeys (s : State) (c : CoreId) (inp : Nat) : List (Nat × Nat × Nat) :=
  let p := posOfCore s c
  let dir := (inp - 1) % 4
  (p.2, p.1, dir) :: match linkOf c inp with
    | some n => [((posOfCore s n.1).2, (posOfCore s n.1).1, (dir + 2) % 4)]
    | none => []

/-- An on-die crossing is retrained (R54, R55). Whether it reaches its design latency the spec leaves to the hardware; one that does
not is a failed link. -/
def retrainCrossing (d : DieId) (s : State) (n : Nat) : State :=
  let x := s.dx d
  let t := { s with free := s.free + 1 }
  if Config.crossingFails s.free then
    let t1 := t.setDx d { x with cut := n :: x.cut.filter (· ≠ n) }
    match hostOf t1 d (n / 160) (n / 16 % 10) with
    | some c => (linkCourse t1 d (inputStreams t1 c (n % 16)) (inputKeys t1 c (n % 16))).2.2
    | none => t1
  else t.setDx d { x with cut := x.cut.filter (· ≠ n) }

/-- What waits for a step boundary in other chapters: fences (R34), swaps (R297, R551), retrained crossings (R55). -/
def applyBoundary (s : State) (d : DieId) : State :=
  let s0 := (List.range 8).foldl (fun t r => if (smGet none (t.dx d).shifts r).isNone then applyFences t d r else t) s
  let s1 := match (s0.dx d).wantSet with
    | some n => standbySet (s0.setDx d { s0.dx d with wantSet := none }) n
    | none => s0
  let s2 := (s1.dx d).slips.foldl (retrainCrossing d) s1
  s2.setDx d { s2.dx d with slips := [], swapReady := s2.rb Reg.DN_TBLSEL_PEND d.val }

/-- A gather at the start of a step. -/
def newStep (s : State) (g : Gather) : State :=
  let x := s.gx g
  rungReturn (s.setGx g { x with
    quiet := false, phases := [], nsealed := 0, next := 0, started := 0, released := false, inPhase := false, rr := none, waitOn := []
    memPh := none, withheld := false, waitLogged := false }) g

/-- R375: the step boundary: pending writes, the requests of other chapters, the step count, the release of phase 0. -/
def execStepBoundary (s : State) : Host.Outcome State Fault Refusal :=
  .next (if !s.rb Reg.PZ_HSTAT_SEALED 0 || !stepDone s || !effectsFree s || s.load.ready && pzStage s == pzWaiting
        && (s.load.img.any fun im => im.seg.isNone) then s
    else
      let n := s.rd Reg.PZ_STEP_STEP 0 0 + 2 ^ 32 * s.rd Reg.PZ_STEP_STEP 0 1
      let s1 := allDies.foldl applyBoundary (applyPending s)
      let s2 := { stepEnds s1 n (stepFlags s) with stepLost := false, ladderOut := false, ratioOut := false }
      let s3 := (s2.wr Reg.PZ_STEP_STEP 0 (n + 1) 0).wr Reg.PZ_STEP_STEP 0 ((n + 1) / 2 ^ 32) 1
      let s4 := (List.range 16).foldl (fun t k => wrT t k Reg.TS_STEP_STEP (n + 1)) s3
      let s4 := { s4 with streams := s4.streams.map fun p => (p.1, { p.2 with ran := false }) }
      let s5 := enterIdle ((definedGathers s4).foldl newStep s4)
      match s5.load.img with
      | some im =>
        if pzStage s5 = pzWaiting ∧ im.seg.isNone then
          { (definedGathers s5).foldl (fun t g => t.setGx g { t.gx g with withheld := true }) s5 with
            load := { s5.load with ready := true } }
        else offerStep s5
      | none => offerStep s5)

end Sys2Proof.Machine
end

