-- ==== Sys2Proof/Machine/Store.lean ====
section
/-! DEFINITION. Stores to CSR words from every path (R13-R18, R45, R472, R623): a word write whose fields have an event of their
own performs that event; CSRW, register writes and register reads. -/

namespace Sys2Proof.Machine

/-- The state an event leaves. -/
def after (o : Host.Outcome State Fault Refusal) (s : State) : State :=
  match o with
  | .next t => t
  | _ => s

/-- The raw bits of a field in a word. -/
def fieldBits (F : Field) (v : Nat) : Nat := bits v F.lo F.w

/-- The events of a word in core space. -/
def coreEvents (r : Requester) (u off v : Nat) (s : State) : State :=
  let c := coreOf u
  if off = 0x34 then
    match fieldBits Reg.CS_TRAPCTL_ACTION v with
    | 1 => after (execResume r c s) s
    | 2 => after (execSkip r c s) s
    | 3 => after (execGoto r c (BitVec.ofNat 13 (fieldBits Reg.CS_TRAPCTL_NEWPC v)) s) s
    | 4 => after (execTrapctlStop r c s) s
    | _ => s
  else if 0x200 ≤ off ∧ off < 0x280 then after (execCsSregWrite r c (Fin.ofNat 32 ((off - 0x200) / 4)) (BitVec.ofNat 32 v) s) s
  else if 0x280 ≤ off ∧ off < 0x300 then
    after (execCsAregWrite r c (Fin.ofNat 16 ((off - 0x280) / 8)) (decide (off % 8 = 4)) (BitVec.ofNat 32 v) s) s
  else if off = Reg.CP_CMD_ZERO.base then
    let s1 := if fieldBits Reg.CP_CMD_ZERO v = 1 then after (execZero r c s) s else s
    if fieldBits Reg.CP_CMD_RCINV v = 1 then after (execRcinv r c s1) s1 else s1
  else if off = Reg.CQ_RREL_QIDX.base then
    after (execRingRelease c (Fin.ofNat 256 (fieldBits Reg.CQ_RREL_QIDX v)) (BitVec.ofNat 8 (fieldBits Reg.CQ_RREL_COUNT v)) s) s
  else if off = Reg.CQ_CMD_QIDX.base then
    if fieldBits Reg.CQ_CMD_DESTROY v = 1 then after (execCqCmdDestroy r c (Fin.ofNat 256 (fieldBits Reg.CQ_CMD_QIDX v)) s) s else s
  else s

/-- The events of a word of a stack's registers, in die space (R460, R462). -/
def stackEvents (r : Requester) (d off v : Nat) (s : State) : State :=
  let k := 4 * d + (off - 0x800000) / 0x40000
  let o := (off - 0x800000) % 0x40000
  if o = 0xC then
    let s1 := if fieldBits Reg.TS_CMD_ZERO v = 1 then after (execStackZero r (Fin.ofNat 16 k) s) s else s
    if fieldBits Reg.TS_CMD_COPY v = 1 then
      after (execCopy r (Fin.ofNat 16 k) (Fin.ofNat 1024 (fieldBits Reg.TS_CMD_LIDX v)) s1) s1
    else s1
  else if 0x100 ≤ o ∧ o < 0x180 then
    let j := (o - 0x100) / 8
    let crucible := match r with
      | .crucible _ => true
      | .hardware => true
      | _ => false
    if !crucible then s.lg LogKind.ignoredWrite (dieN d) [Reg.TS_NPART_SW.id, j]
    else if o % 8 = 4 then partialArrives s k j (rdT s k Reg.TS_NPART_SW j) v
    else if (s.tx k).late.contains j then s
    else wrT s k Reg.TS_NPART_SW v j
  else s

/-- The events of a word in die space. -/
def dieEvents (r : Requester) (u off v : Nat) (s : State) : State :=
  let d : DieId := Fin.ofNat 4 u
  if 0x100 ≤ off ∧ off < 0x120 then
    let cs := fieldBits Reg.FT_ROWMAP_FENCE_REQ v
    if cs = 0 then s else after (execFenceReq r d (Fin.ofNat 8 ((off - 0x100) / 4)) (BitVec.ofNat 10 cs) s) s
  else if 0x2000 ≤ off ∧ off < 0x2100 then
    let i := (off - 0x2000) / 4
    let q := fieldBits Reg.LH_GACLK_REQ v
    if q = s.rd Reg.LH_GACLK_REQ u i then s else after (execAclkRequest r ⟨d, Fin.ofNat 64 i⟩ (BitVec.ofNat 2 q) s) s
  else if 0x2100 ≤ off ∧ off < 0x2140 then
    let n := (off - 0x2100) / 4
    let w := fieldBits Reg.LH_CRZ_WARN_LVL v
    let k := fieldBits Reg.LH_CRZ_CRIT_LVL v
    let s1 := if fieldBits Reg.LH_CRZ_WARN v = 1 then s.wr Reg.LH_CRZ_COUNT u 0 n else s
    if w = s.rd Reg.LH_CRZ_WARN_LVL u n ∧ k = s.rd Reg.LH_CRZ_CRIT_LVL u n then s1
    else after (execCrzLevelWrite r d (Fin.ofNat 16 n) (BitVec.ofNat 4 w) (BitVec.ofNat 4 k) s1) s1
  else if off = Reg.FT_SCAN_START.base then
    if fieldBits Reg.FT_SCAN_START v = 1 then after (execScanStart r d s) s else s
  else if off = Reg.FT_GCMD_GATHER.base then
    let g : Gather := ⟨d, Fin.ofNat 64 (fieldBits Reg.FT_GCMD_GATHER v)⟩
    let s1 := if fieldBits Reg.FT_GCMD_RECALL v = 1 then after (execForcedRecall r g s) s else s
    let s2 := if fieldBits Reg.FT_GCMD_HOLD v = 1 then after (execGatherHold r g s1) s1 else s1
    if fieldBits Reg.FT_GCMD_RELEASE v = 1 then after (execGatherRelease r g s2) s2 else s2
  else if off = Reg.FT_REFETCH_STREAM.base then
    if fieldBits Reg.FT_REFETCH_GO v = 1 then
      after (execRefetch r d (Fin.ofNat 32768 (fieldBits Reg.FT_REFETCH_STREAM v)) s) s
    else s
  else if off = Reg.DN_TBLSEL_SWAP.base then
    if fieldBits Reg.DN_TBLSEL_SWAP v = 1 then after (execSwap r d s) s else s
  else if off = Reg.DN_SCMD_STREAM.base then
    if fieldBits Reg.DN_SCMD_STOP v = 1 then after (execStreamStop r d (Fin.ofNat 32768 (fieldBits Reg.DN_SCMD_STREAM v)) s) s
    else s
  else if 0x6000 ≤ off ∧ off < 0x6900 then
    if off % 0x100 = 4 ∧ fieldBits Reg.LK_CFG_RETRAIN v = 1 then
      after (execRetrain r (.die d (Fin.ofNat 9 ((off - 0x6000) / 0x100))) s) s
    else s
  else if 0x800000 ≤ off then stackEvents r u off v s
  else s

/-- The phase a mailbox commit names (R491). -/
def mailTag (v : Nat) : Option (Gather × BitVec 16) :=
  if fieldBits Reg.HB_MBCTL_TAGGED v = 1 then
    some (⟨Fin.ofNat 4 (fieldBits Reg.HB_MBCTL_DIE v), Fin.ofNat 64 (fieldBits Reg.HB_MBCTL_GATHER v)⟩,
      BitVec.ofNat 16 (fieldBits Reg.HB_MBCTL_PSEQ v))
  else none

/-- The events of a word in hub space. -/
def hubEvents (r : Requester) (off v : Nat) (s : State) : State :=
  if off = Reg.PZ_HCMD_OP.base then
    match fieldBits Reg.PZ_HCMD_OP v with
    | 1 => after (execLoad r s) s
    | 2 => after (execAbort r s) s
    | _ => s
  else if off = Reg.HB_STEPCTL_HOLD.base then
    let h := fieldBits Reg.HB_STEPCTL_HOLD v == 1
    let s1 := if h == s.rb Reg.HB_STEPCTL_HOLD 0 then s else after (execStepHoldWrite r h s) s
    if fieldBits Reg.HB_STEPCTL_GO v = 1 then after (execStepctlGo r s1) s1 else s1
  else if 0x2000 ≤ off ∧ off < 0x3000 then
    let n := (off - 0x2000) / 64
    let e := fieldBits Reg.HB_SLOT_EN v == 1
    if (off - 0x2000) % 64 ≠ 0x10 ∨ e = s.rb Reg.HB_SLOT_EN 0 n then s
    else if e then after (execSlotEnable r (Fin.ofNat 64 n) s) s
    else after (execSlotDisable r (Fin.ofNat 64 n) s) s
  else if 0x3000 ≤ off ∧ off < 0x3100 then
    let m : Fin 16 := Fin.ofNat 16 ((off - 0x3000) / 16)
    if (off - 0x3000) % 16 = 0 then
      if fieldBits Reg.HB_MBCTL_COMMIT v = 1 then after (execMailboxCommit r m (mailTag v) s) s else s
    else if fieldBits Reg.HB_MBCTL_RELEASE v = 1 then after (execMailboxRelease r m s) s
    else s
  else if 0x6000 ≤ off ∧ off < 0x7000 then
    let n := (off - 0x6000) / 0x100
    if off % 0x100 = 4 ∧ fieldBits Reg.LKH_CFG_RETRAIN v = 1 ∧ (n < 4 ∨ 8 ≤ n) then
      after (execRetrain r (if n < 4 then .hub (Fin.ofNat 4 n) else .span (Fin.ofNat 8 (n - 8))) s) s
    else s
  else if off = Reg.BT_CMD_WARM.base then
    let full := fieldBits Reg.BT_CMD_FULL v == 1
    if fieldBits Reg.BT_CMD_WARM v = 1 then after (execWarm r full s) s
    else if fieldBits Reg.BT_CMD_DIE_RST v = 1 then after (execDieRst r (Fin.ofNat 4 (fieldBits Reg.BT_CMD_DIE v)) full s) s
    else s
  else s

/-- The word as it may be written: JK_CFG.BAUD ignores 6 and 7 (R598). -/
def admitWord (s : State) (sp : Space) (off v : Nat) : Nat × State :=
  if sp = .hub ∧ off = Reg.JK_CFG_BAUD.base ∧ fieldBits Reg.JK_CFG_BAUD v ≥ 6 then
    (v - fieldBits Reg.JK_CFG_BAUD v + s.rd Reg.JK_CFG_BAUD 0, s.lg LogKind.ignoredWrite hubN [Reg.JK_CFG_BAUD.id])
  else (v, s)

/-- True of a word of LH_CRZ that would leave CRIT_LVL at or above WARN_LVL: it is refused whole (R63). -/
def badLevels (sp : Space) (off v : Nat) : Bool :=
  sp == .die && decide (0x2100 ≤ off ∧ off < 0x2140 ∧ fieldBits Reg.LH_CRZ_WARN_LVL v ≤ fieldBits Reg.LH_CRZ_CRIT_LVL v)

/-- A word write reaches a register (R13-R18, R377, R623), with the events of its fields: none where no register occupies the
offset; the Bool is true when it was refused with status FROZEN. -/
def csrStore (s : State) (r : Requester) (sp : Space) (u off v : Nat) : Option (State × Bool) :=
  let a := admitWord s sp off v
  if badLevels sp off v then some (s.lg LogKind.ignoredWrite (spaceN sp u) [Reg.LH_CRZ_WARN_LVL.id, (off - 0x2100) / 4], false)
  else match csrWrite a.2 r sp u off a.1 with
  | none => none
  | some (t, true) => some (t, true)
  | some (t, false) => some (if wordReserved a.2 r sp u off then t else match sp with
    | .core => coreEvents r u off a.1 t
    | .die => dieEvents r u off a.1 t
    | .hub => hubEvents r off a.1 t, false)

/-! ## Access from outside -/

/-- True when an enabled BAR0 page names a unit (R472). -/
def pageOpen (s : State) (at_ : CsrAddr) : Bool :=
  match at_.space with
  | .hub => true
  | .die => [1, 2, 3].any fun n => s.rb Reg.HB_PAGE_EN 0 n && s.rb Reg.HB_PAGE_CLASS 0 n && s.rd Reg.HB_PAGE_DIE 0 n == at_.unit
  | .core => [1, 2, 3].any fun n => s.rb Reg.HB_PAGE_EN 0 n && !s.rb Reg.HB_PAGE_CLASS 0 n
      && 64 * s.rd Reg.HB_PAGE_DIE 0 n + s.rd Reg.HB_PAGE_LCORE 0 n == at_.unit

/-- True when the window of a stack's registers can be reached: its port is not down (R432); accesses wait while it retrains (R414). -/
def stackReached (s : State) (at_ : CsrAddr) : Bool :=
  if at_.space == .die && decide (0x800000 ≤ at_.off) && decide (at_.off < 0x900000) then
    portReached s (.stack (Fin.ofNat 16 (4 * at_.unit + (at_.off - 0x800000) / 0x40000)))
  else true

/-- True when a requester reaches the unit of an address (R45, R47, R432, R549): a core that is present, a die that is not lost
and has clock (R65) but for its own units and firmware, a stack behind its port, and for host software an open page. -/
def unitServed (s : State) (r : Requester) (at_ : CsrAddr) : Bool :=
  let d := dieOfUnit at_.space at_.unit
  let present := match at_.space with
    | .core => decide (at_.unit < 256) && corePresent s (coreOf at_.unit)
    | .die => decide (at_.unit < 4)
    | .hub => at_.unit == 0
  let up := at_.space == .hub || (s.rd Reg.FT_DIE_STATE 0 d == 0 && !s.rb Reg.BT_CLKSTAT_STOPPED d)
  present && stackReached s at_ && match r with
    | .host => up && pageOpen s at_
    | .debug => up
    | .core c => up || c.die.val == d
    | _ => true

/-- The MGA of a register word (R45). -/
def csrMga (at_ : CsrAddr) : Nat :=
  match at_.space with
  | .core => 2 ^ 48 + 2 ^ 40 * at_.unit + at_.off
  | .die => 2 * 2 ^ 48 + 2 ^ 46 * at_.unit + at_.off
  | .hub => 4 * 2 ^ 48 + at_.off

/-- A requester's word access: host software through BAR0, and not while the endpoint is closed (R476); a narrow or unaligned
one has no effect, reads all ones and is logged (R16). -/
def wordAccess (s : State) (r : Requester) (at_ : CsrAddr) (ok read : Bool) (k : State → State) : State :=
  let narrow := fun s : State =>
    let t := s.lg LogKind.narrowAccess (nodeNum (requesterNode r)) [at_.unit, at_.off]
    if read then t.emit (.words [2 ^ 32 - 1]) else t
  let go := fun s : State => if ok && at_.off % 4 == 0 then k s else narrow s
  match r with
  | .host => hostRequest s go
  | _ => go s

/-- An address fault of a register access (R47); one through a page of BAR0 is recorded in HB_HERR too (R472, R496). -/
def accessFault (s : State) (r : Requester) (at_ : CsrAddr) : State :=
  let t := if r == .host && at_.space != .hub then hostErr s 2 0 else s
  addrFault t (requesterNode r) (csrMga at_)

/-- R13: a write to a register word. -/
def execRegisterWrite (r : Requester) (at_ : CsrAddr) (bytes : Nat) (v : Word) (s : State) :
    Host.Outcome State Fault Refusal :=
  .next (wordAccess s r at_ (bytes == 4) false fun s =>
    if !unitServed s r at_ then accessFault s r at_
    else match csrStore s r at_.space at_.unit at_.off v.toNat with
      | some (t, _) => t
      | none => accessFault s r at_)

/-- R68: a read of a register word answers it; the low word of a 64-bit counter latches the high word. A read that names no
register, or of less than a word, returns all ones (R16, R47). -/
def execLowWordLatchRead (r : Requester) (at_ : CsrSpan) (s : State) : Host.Outcome State Fault Refusal :=
  let w := at_.addr
  .next (wordAccess s r w (at_.bytes == 4) true fun s =>
    match if unitServed s r w then csrRead s w.space w.unit w.off else none with
    | some (v, t) => t.emit (.words [v])
    | none => (accessFault s r w).emit (.words [2 ^ 32 - 1]))

/-- CSRW: writes the core CSR at IMM[24:0] as its own core; sD := OK or FROZEN; CSR_FAULT where no register occupies it. -/
def bodyCsrw (c : CoreId) (w : IFields) (s : State) : Eff :=
  withSrc c w.a s fun x t =>
    match csrStore t (.core c) .core (coreU c) w.imm.toNat x.toNat with
    | none => .trap trCsrFault w.imm.toNat
    | some (t1, frozen) => doneS c w (BitVec.ofNat 32 (if frozen then qsFrozen else qsOk)) t1

/-- R214: CSRW. -/
def execCsrw (c : CoreId) (w : IFields) (s : State) : Host.Outcome State Fault Refusal :=
  .next (issue 0xE1 { d := .s, a := .sq, imm := 0x1FFFFFF } c w s (bodyCsrw c w))

end Sys2Proof.Machine
end

