-- ==== Sys2Proof/Machine/Net.lean ====
section
/-! DEFINITION. Requests of the control network at their target (R45-R47, R199, R256, R311, R312) and the completion of a wake
with the packets that waited for it (R519-R521). -/

namespace Sys2Proof.Machine

/-- The requester a node's packets make (R38, R623). -/
def nodeRequester : NodeId → Requester
  | .core c => .core c
  | .dieNode d => .punty d
  | .stack k => .crucible k
  | .hub u => if u.val < 4 then .firmware else .host

/-- The sender identity of R249 a node's writes carry; a die node or stack has none, which no window names. -/
def nodeSender : NodeId → Nat
  | .core c => coreU c
  | .hub _ => hubSender
  | _ => 0x200

/-- The CSR address an MGA of class 1, 2 or 4 names (R45). -/
def mgaCsr (m : Nat) : Option CsrAddr :=
  match mgaClass m with
  | 1 => some ⟨.core, coreU (mgaCore m), mgaOff25 m⟩
  | 2 => some ⟨.die, mgaDie m, mgaOff24 m⟩
  | 4 => some ⟨.hub, 0, mgaOff24 m⟩
  | _ => none

/-- An address fault at a target (R47), logged with the requester's identity. -/
def reqFault (s : State) (src : NodeId) (m : Nat) : State := addrFault s src m

/-- The node that answers a request to an MGA. -/
def answerNode (m : Nat) : NodeId := (mgaNode m).getD (.hub 4)

/-- A read response with its data, or all ones for a fault (R47). -/
def sendRdrsp (s : State) (src : NodeId) (tag m n : Nat) (r : Option (List Byte)) : State :=
  s.send (answerNode m) src (.rdrsp tag r.isNone (r.getD (List.replicate n 255)))

/-- A read request at its target: 4 bytes, or the 256 of a fill (R256), which a stack reads in four transfers (R437). An error
that a remote read of a scratchpad meets names RW as its requester in CP_ECCLOG (DESIGN CHOICE, notes/assumptions/97). -/
def takeRead (src : NodeId) (tag m : Nat) (fill : Bool) (s : State) : State :=
  let n := if fill then 256 else 4
  let fault := sendRdrsp (reqFault s src m) src tag m n none
  if mgaClass m = 3 then
    if !served s m n then fault
    else if fill then
      (List.range 4).foldl (fun t i => caneReq t (mgaStack m) ⟨false, mgaOff36 m + 64 * i, 64, [], .req (nodeNum src) tag true⟩)
        (s.setTx (mgaStack m) { s.tx (mgaStack m) with fills := smSet [] (s.tx (mgaStack m)).fills (4096 * nodeNum src + tag) [] })
    else caneReq s (mgaStack m) ⟨false, mgaOff36 m, n, [], .req (nodeNum src) tag false⟩
  else if mgaClass m = 0 then
    if served s m n then
      let r := spRead s (mgaCore m) (mgaOff25 m) n rqRw
      sendRdrsp r.2 src tag m n (some r.1)
    else fault
  else match if mgaFormed m && !fill then mgaCsr m else none with
    | none => fault
    | some a => match if unitServed s (nodeRequester src) a then csrRead s a.space a.unit a.off else none with
      | some (v, t) => sendRdrsp t src tag m n (some (leBytes 4 v))
      | none => fault

/-- The words of a write, each with its offset. -/
def writeWordsOf (data : List Byte) : List (Nat × Nat) :=
  (List.range (data.length / 4)).map fun k => (4 * k, ofLeBytes ((data.drop (4 * k)).take 4))

/-- Writes words to consecutive registers. A request with a word that a FROZEN field refuses, or that no register occupies, is
refused whole (R15, R47); the Bool is true where it was accepted. -/
def storeWords (s : State) (r : Requester) (src : NodeId) (a : CsrAddr) (l : List (Nat × Nat)) : State × Bool :=
  if l.any fun p => (wordFields a.space (a.off + p.1)).isEmpty then (reqFault s src (csrMga a), false)
  else match l.find? fun p => (wordFields a.space (a.off + p.1)).any (asksFrozen s a.unit p.2) with
    | some p => (s.lg LogKind.frozenRefused (nodeNum src) [a.off + p.1, p.2], false)
    | none => (l.foldl (fun t p => match csrStore t r a.space a.unit (a.off + p.1) p.2 with
      | some u => u.1
      | none => t) s, true)

/-- A write request at its target: windows at a scratchpad (R249), the gate of locked ranges at a stack (R380), register
writes (R13-R18). -/
def takeWriteReq (src : NodeId) (tag m : Nat) (data : List Byte) (s : State) : State :=
  let n := data.length
  let reply := fun (t : State) (ok : Bool) => t.send (answerNode m) src (.wrrsp tag ok)
  if mgaClass m = 3 then
    if lockedAt s m n then reply (reqFault s src m) false
    else if served s m n then caneReq s (mgaStack m) ⟨true, mgaOff36 m, n, data, .req (nodeNum src) tag false⟩
    else reply (reqFault s src m) false
  else if mgaClass m = 0 then
    if served s m n then
      let r := remoteWrite s (mgaCore m) (mgaOff25 m) data (nodeSender src)
      reply r.2 (r.1 == acOk)
    else reply (reqFault s src m) false
  else match if mgaFormed m then mgaCsr m else none with
    | none => reply (reqFault s src m) false
    | some a =>
      if !unitServed s (nodeRequester src) a then reply (reqFault s src m) false
      else if m % 4 ≠ 0 ∨ n % 4 ≠ 0 then reply (s.lg LogKind.narrowAccess (nodeNum src) [m, n]) false
      else
        let r := storeWords s (nodeRequester src) src a (writeWordsOf data)
        reply r.1 r.2

/-- A request reaches its target; one for a core that sleeps waits (R520). -/
def toTarget (s : State) (src : NodeId) (m : Nat) (p : Packet) (k : State → State) : State :=
  if mgaClass m ≤ 1 ∧ mgaFormed m ∧ corePresent s (mgaCore m) ∧ !s.rb Reg.BT_CLKSTAT_STOPPED (mgaDie m) then toCore s (mgaCore m) src p k else k s

/-- R312: a read request arrives. -/
def execRdreq (src : NodeId) (tag : BitVec 12) (mga : Mga) (fill : Bool) (s : State) : Host.Outcome State Fault Refusal :=
  let m := mga.toNat
  .next (toTarget s src m (.rdreq tag.toNat m fill) (takeRead src tag.toNat m fill))

/-- R312: a write request arrives. -/
def execWrreq (src : NodeId) (tag : BitVec 12) (mga : Mga) (data : List Byte) (s : State) : Host.Outcome State Fault Refusal :=
  let m := mga.toNat
  .next (toTarget s src m (.wrreq tag.toNat m data) (takeWriteReq src tag.toNat m data))

/-- A packet that waited for a core takes effect (R520). -/
def takePacket (c : CoreId) (p : Nat × Packet) (s : State) : State :=
  let src := (nodeOfNum p.1).getD (.hub 0)
  match p.2 with
  | .qmsg m => landMsg s c m
  | .flush h => takeFlush c h s
  | .qcredit h e l => takeCredit c h e l s
  | .handleCreate h ring depth lines => takeCreate c h ring depth lines s
  | .handleDestroy h => ackHandle (.core c) h none (dropChannel s c h)
  | .handleAck h f => takeAck c h f s
  | .wrrsp tag ok => takeWrrsp c tag ok s
  | .rdreq tag m fill => takeRead src tag m fill s
  | .wrreq tag m data => takeWriteReq src tag m data s
  | .parison k => parisonCore s c k
  | .ctrl (.stop d) => stopCore s d
  | .ctrl (.ratio g) => ratioDone s g c
  | _ => s

/-- The register values of a core after C4 (R521): numbers that nothing states, but for s0, which reads 0 (R184, R222). -/
def loseRegs (s : State) (c : CoreId) : State :=
  let n := s.free
  let s1 := (List.range 31).foldl (fun t i => t.wr Reg.CS_SREG_VALUE (coreU c) (Config.freeValue (n + i)) (i + 1)) s
  let s2 := (List.range 16).foldl (fun t i => wrA t c i (Config.freeValue (n + 32 + i))) s1
  let s3 := (List.range 32).foldl (fun t i => wrV t c i (BitVec.ofNat 2048 (Config.freeValue (n + 48 + i)))) s2
  { s3 with free := n + 80 }

/-- R519-R521: a wake completes: the core returns to C0, late where a released phase waits for it; from C4 its scratchpad reads
zeros, its registers hold nothing known and its cycle count starts again. Then the packets that waited take effect. -/
def execWakeComplete (c : CoreId) (s : State) : Host.Outcome State Fault Refusal :=
  .next (match (s.cx c).waking with
    | none => s
    | some late =>
      let u := coreU c
      if (s.pw c.die.val).ups.any fun p => p.cores.contains c.lc.val then s
      else
        let s1 := if cstateOf s c = 4 then ((loseRegs (zeroScratch s c) c).wr Reg.CS_CYCLE_COUNT u 0 0).wr Reg.CS_CYCLE_COUNT u 0 1
          else s
        let s2 := ((s1.setCx c { s1.cx c with waking := none }).wr Reg.LH_CSTATE_STATE u 0).wb Reg.DN_RSTAT_PASSTHRU u false
        let s3 := if late then s2.bump Reg.LH_LATE_COUNT u else s2
        let l := smGet [] s3.ejected u
        l.foldl (fun t p => takePacket c p t) { s3 with ejected := smSet [] s3.ejected u [] })

end Sys2Proof.Machine
end

