-- ==== Sys2Proof/Machine/Manage.lean ====
section
/-! DEFINITION. Management (R581-R587): the reports, QUERY, MCTP and PLDM messages, sensors and ALERT#, I3C; and security over
SPDM (R567-R572, R576, R577): sessions, measurements, ownership, licences, firmware, IDE keys. -/

namespace Sys2Proof.Machine

/-! ## Reports (R587) -/

/-- The word a field of a register lies in, at index `i`. -/
def wordAt (s : State) (u : Nat) (F : Field) (i : Nat) : Nat := wordOf s u (wordFields F.space (F.base + F.s1 * i))

/-- The sixteen latest STONE records, newest first, as four words each. -/
def stoneWords (s : State) : List Nat :=
  let l := (s.faults.log.filter fun r => r.kind == 1).reverse.take 16
  let ws := l.flatMap fun r =>
    [r.event % 2 ^ 16 + 2 ^ 16 * (r.cls % 256) + 2 ^ 24 * (r.unit % 256), r.item % 2 ^ 32,
     r.action % 2 ^ 16 + 2 ^ 16 * (r.left % 2 ^ 16), r.id % 2 ^ 32]
  ws ++ List.replicate (64 - ws.length) 0

/-- The halfword of a gather in report 2; a held die's gathers and an undefined one read 0. -/
def gatherHalf (s : State) (d i : Nat) : Nat :=
  if s.rd Reg.FT_DIE_STATE 0 d = 4 ∨ !s.rb Reg.PZ_GATHER_VALID d i then 0
  else s.rd Reg.PZ_GATHER_STATE d i + 4 * s.rd Reg.PZ_GATHER_DEGRADED d i + 8 + 16 * s.rd Reg.SY_SEAL_RUNG d i
    + 64 * s.rd Reg.SY_SEAL_LAST d i + 128 * s.rd Reg.SY_SEAL_PROV d i + 256 * s.rd Reg.LH_GACLK_APPLIED d i
    + 1024 * (s.rd Reg.FT_GHOLD_HELD d (i / 32) / 2 ^ (i % 32) % 2) + 2048 * s.rd Reg.SY_SEAL_RA_WAIT d i

/-- The words of report 2 for one die. -/
def gatherWords (s : State) (d : Nat) : List Nat :=
  (List.range 32).map fun k => gatherHalf s d (2 * k) + 2 ^ 16 * gatherHalf s d (2 * k + 1)

/-- Four readings of 8 bits in a word. -/
def packTemps (l : List Nat) : Nat :=
  (List.range 4).foldl (fun a k => a + 2 ^ (8 * k) * ((l[k]?).getD 0 % 256)) 0

/-- The words of a report, word 1 first. -/
def reportWords (s : State) (n : Nat) : List Nat :=
  match n with
  | 0 => (List.range 4).map (wordAt s 0 Reg.BT_MODID_ID) ++ [wordAt s 0 Reg.HB_ID_REV 0, wordAt s 0 Reg.BT_SVN_FUSED 0,
      wordAt s 0 Reg.BT_STAT_STAGE 0, (imgAt s (s.rd Reg.BT_STAT_IMAGE 0)).version % 2 ^ 32, s.rd Reg.BT_IDENT_SLOT 0]
      ++ (List.range 32).map (wordAt s 0 Reg.BT_LIC_STATE)
  | 1 => [wordAt s 0 Reg.FT_LOG_RECORDS 0, s.rd Reg.FT_LASTID_ID 0 0, s.rd Reg.FT_LASTID_ID 0 1,
      (List.range 4).foldl (fun a d => a + 2 ^ (8 * d) * s.rd Reg.FT_DIE_STATE 0 d) 0]
      ++ ((List.range 4).map fun d => wordAt s d Reg.FT_EVCNT_SEEDS 0)
      ++ ((List.range 9).map fun c => min (smGet 0 s.faults.stones c) (2 ^ 32 - 1)) ++ stoneWords s
  | 2 => [s.rd Reg.PZ_STEP_STEP 0 0, s.rd Reg.PZ_STEP_STEP 0 1] ++ (List.range 4).flatMap (gatherWords s)
  | _ => [wordAt s 0 Reg.LH_MSTAT_PIN 0, wordAt s 0 Reg.LH_MCAP_CAP 0] ++ ((List.range 4).map fun d => wordAt s d Reg.LH_SHARE_PZ 0)
      ++ ((List.range 4).map fun d => wordAt s d Reg.LH_STAT_PDIE 0) ++ ((List.range 4).map fun d => wordAt s d Reg.LH_VDDL_VSET 0)
      ++ ((List.range 64).map fun k => wordAt s (k / 16) Reg.LH_ISL_IEST (k % 16))
      ++ [packTemps (s.pw 4).temps] ++ ((List.range 4).map fun d => packTemps (s.pw d).temps)

/-- R479: QUERY: the report is staged in the mailbox and published; the entry completes then. -/
def execQuery (slot : Fin 64) (s : State) : Host.Outcome State Fault Refusal :=
  .next (startEntry s slot (fun e => e.opc == opQuery) fun t _ r =>
    let ws := reportWords t r.ent.arg
    let m := r.ent.arg2
    let t1 := t.setMbx m { t.mbx m with
      staged := (ws.zip (List.range ws.length)).foldl (fun a p => smSet 0 a (p.2 + 1) p.1) [] }
    endQueries (commitMail t1 m ws.length none) m)

/-! ## Sensors (R585, R610) -/

/-- The largest of a list. -/
def maxOf (l : List Nat) : Nat := l.foldl max 0

/-- The sensors by number. -/
def sensorIds : List Nat :=
  [1, 2, 3, 4, 0x10, 0x11, 0x12, 0x13, 0x20, 0x21, 0x22, 0x23, 0x30] ++ (List.range 16).map (0x40 + ·) ++ [0x50]

/-- A sensor's reading with its upper warning, critical and fatal thresholds, where it has them; none while it is unavailable.
Input voltage and current are in mV and mA. -/
def sensorNow (s : State) (n : Nat) : Option (Nat × Option Nat × Option Nat × Option Nat) :=
  if n = 1 then some (s.chip.lastIn.1, none, some 50000, none)
  else if n = 2 then some (s.chip.lastIn.2, none, some 140000, none)
  else if n = 3 then some (s.rd Reg.LH_MSTAT_PIN 0, none, some (s.rd Reg.LH_MCAP_CAP 0), none)
  else if n = 4 then some (s.rd Reg.LH_MSTAT_AVG 0, none, some (s.rd Reg.LH_MCAP_CAP 0), none)
  else if 0x10 ≤ n ∧ n < 0x14 then
    if s.rd Reg.FT_DIE_STATE 0 (n - 0x10) = 4 then none
    else some (s.rd Reg.LH_STAT_AVG (n - 0x10), none, some (s.rd Reg.LH_SHARE_EFF (n - 0x10)), none)
  else if 0x20 ≤ n ∧ n < 0x24 then
    if s.rd Reg.FT_DIE_STATE 0 (n - 0x20) = 4 then none
    else some (maxOf ((List.range 16).map fun k => s.rd Reg.LH_ISL_TEMP (n - 0x20) k), some 90, some 95, some 115)
  else if n = 0x30 then some (maxOf (s.pw 4).temps, some 95, none, some 115)
  else if 0x40 ≤ n ∧ n < 0x50 then
    if portState s (.stack (Fin.ofNat 16 (n - 0x40))) ≠ lkUp then none
    else some (((s.pw ((n - 0x40) / 4)).temps[(n - 0x40) % 4]?).getD 0, some 88, some 95, some 105)
  else if n = 0x50 then some (s.rd Reg.LH_MSTAT_UNMET 0, none, some 1, none)
  else none

/-- True when a reading is at or beyond a threshold. -/
def beyond (v : Nat) (t : Option Nat) : Bool :=
  match t with
  | some x => decide (x ≤ v)
  | none => false

/-- The level of a reading: 3 fatal, 2 critical, 1 warning, 0 normal. -/
def levelOf (p : Nat × Option Nat × Option Nat × Option Nat) : Nat :=
  if beyond p.1 p.2.2.2 then 3 else if beyond p.1 p.2.2.1 then 2 else if beyond p.1 p.2.1 then 1 else 0

/-- Refreshes one sensor: a change of level is an event (R586); one that is unavailable has none. -/
def refreshSensor (s : State) (n : Nat) : State :=
  let m := s.manage
  match sensorNow s n with
  | none => { s with manage := { m with readings := smSet none m.readings n none, levels := smSet 0 m.levels n 0 } }
  | some p =>
    let l := levelOf p
    let t := { s with manage := { m with
      readings := smSet none m.readings n (some p.1), levels := smSet 0 m.levels n l } }
    if l = smGet 0 m.levels n then t else sendEvent t (.sensor n l)

/-- R585: every 100 ms the readings are refreshed. -/
def execSensorRefresh (s : State) : Host.Outcome State Fault Refusal :=
  .next (if s.chip.valid then sensorIds.foldl refreshSensor s else s)

/-- ALERT#, true while it is driven low (R610). -/
def alertLow (s : State) : Bool :=
  sensorIds.any (fun n => decide (2 ≤ smGet 0 s.manage.levels n)) || leakLow s || s.rd Reg.BT_STAT_FAILSTEP 0 != 0

/-! ## MCTP (R581, R583, R584, R586) -/

/-- Answers a request of a transport that serves. -/
def mgmt (s : State) (tr : Fin 2) (r : MgmtReply) : State := (announce s tr.val).emit (.mgmt tr.val r)

/-- A request on a transport that serves. -/
def served2 (s : State) (tr : Fin 2) (k : State → State) : State := if transportUp s tr.val then k s else s

/-- The message types of R581. -/
def msgTypes : List Nat := [0, 1, 5, 6, 0x7E]

/-- R581: Set Endpoint ID, by the bus owner; the special IDs 0 and 0xFF are refused. -/
def execSetEndpointId (tr : Fin 2) (eid : BitVec 8) (s : State) : Host.Outcome State Fault Refusal :=
  .next (served2 s tr fun s =>
    if eid.toNat = 0 ∨ eid.toNat = 0xFF then mgmt s tr .refused
    else mgmt (s.wr (if tr = 0 then Reg.HB_MGMT_EID_I3C else Reg.HB_MGMT_EID_VDM) 0 eid.toNat) tr .done)

/-- R581: Get Endpoint ID. -/
def execGetEndpointId (tr : Fin 2) (s : State) : Host.Outcome State Fault Refusal :=
  .next (served2 s tr fun s =>
    mgmt s tr (.value (s.rd (if tr = 0 then Reg.HB_MGMT_EID_I3C else Reg.HB_MGMT_EID_VDM) 0)))

/-- R581: Get MCTP Version Support: the versions of a supported type, which the spec does not state. -/
def execGetMctpVersionSupport (tr : Fin 2) (ty : BitVec 8) (s : State) : Host.Outcome State Fault Refusal :=
  .next (served2 s tr fun s =>
    if msgTypes.contains ty.toNat then { mgmt s tr (.value (Config.freeValue s.free % 2 ^ 32)) with free := s.free + 1 }
    else mgmt s tr .refused)

/-- R581: Get Message Type Support. -/
def execGetMessageTypeSupport (tr : Fin 2) (s : State) : Host.Outcome State Fault Refusal :=
  .next (served2 s tr fun s => mgmt s tr (.list msgTypes))

/-- R581: Get Vendor Defined Message Support: one set, Rhofa's PCI vendor ID. -/
def execGetVendorDefinedMessageSupport (tr : Fin 2) (sel : Nat) (s : State) : Host.Outcome State Fault Refusal :=
  .next (served2 s tr fun s => mgmt s tr (if sel = 0 then .value (Config.pciVendor % 2 ^ 16) else .refused))

/-- R581: a message of another type is dropped and counted. -/
def execUnsupportedMctpMessage (tr : Fin 2) (ty : BitVec 8) (s : State) : Host.Outcome State Fault Refusal :=
  .next (served2 s tr fun s => if msgTypes.contains ty.toNat then s else s.bump Reg.HB_MGMT_DROPS 0)

/-- R584: GET_REPORT. -/
def execGetReport (tr : Fin 2) (n : Nat) (s : State) : Host.Outcome State Fault Refusal :=
  .next (served2 s tr fun s => mgmt s tr (if n ≤ 3 then .words (reportWords s n) else .refused))

/-- R584: WARM_RESET: the status, then the reset of R563 and R580. -/
def execWarmReset (tr : Fin 2) (full : Bool) (s : State) : Host.Outcome State Fault Refusal :=
  .next (served2 s tr fun s =>
    orderWarm (mgmt s tr (if s.rd Reg.BT_STAT_STAGE 0 = 0 then .done else .refused)) full)

/-- R584: READ_FAULT_LOG: records from an ID onward, oldest first. -/
def execReadFaultLog (tr : Fin 2) (id n : Nat) (s : State) : Host.Outcome State Fault Refusal :=
  .next (served2 s tr fun s =>
    mgmt s tr (if 1 ≤ n ∧ n ≤ 12 then .records ((s.faults.log.filter fun r => decide (id ≤ r.id)).take n) else .refused))

/-- The sensor reading a PLDM request is answered with: its operational state (0 enabled, 1 unavailable) and reading. -/
def sensorReply (s : State) (n : Nat) : MgmtReply :=
  if !sensorIds.contains n then .refused
  else match smGet none s.manage.readings n with
    | some v => .list [0, v]
    | none => .list [1]

/-- R581, R585, R586: a PLDM request. -/
def execPldmMessage (tr : Fin 2) (m : PldmReq) (s : State) : Host.Outcome State Fault Refusal :=
  let x := s.manage
  .next (served2 s tr fun s => match m with
    | .discovery => mgmt s tr (.list [0, 2])
    | .pdrs => mgmt s tr (.list sensorIds)
    | .reading n => mgmt s tr (sensorReply s n)
    | .setReceiver e => mgmt { s with manage := { x with recv := smSet none x.recv tr.val e } } tr .done
    | .ack e => { s with manage := { x with unacked := match x.unacked.find? fun u => u.1 == tr.val && u.2.1 == e with
        | some u => x.unacked.erase u
        | none => x.unacked } })

/-! ## I3C (R582) -/

/-- A CCC on the management port. -/
def i3c (s : State) (k : State → State) : State := if transportUp s 0 then k s else s

/-- The provisioned ID: manufacturer, part, instance. -/
def provId (s : State) : List Nat := [Config.mipiId % 2 ^ 16, 0x0416, s.rd Reg.BT_IDENT_SLOT 0]

/-- R582: ENTDAA: a hub without a dynamic address takes the one assigned. -/
def execEntdaa (addr : BitVec 7) (s : State) : Host.Outcome State Fault Refusal :=
  .next (i3c s fun s =>
    if s.rd Reg.HB_MGMT_DADDR 0 = 0 then (s.wr Reg.HB_MGMT_DADDR 0 addr.toNat).emit (.i3c (provId s)) else s)

/-- R582: RSTDAA. -/
def execRstdaa (s : State) : Host.Outcome State Fault Refusal := .next (i3c s fun s => s.wr Reg.HB_MGMT_DADDR 0 0)

/-- R582: GETPID. -/
def execGetpid (s : State) : Host.Outcome State Fault Refusal := .next (i3c s fun s => s.emit (.i3c (provId s)))

/-- Answers a CCC with a value the spec does not state. -/
def i3cOpen (s : State) (bytes : Nat) : State :=
  i3c s fun s => { s.emit (.i3c [Config.freeValue s.free % 2 ^ (8 * bytes)]) with free := s.free + 1 }

/-- R582: GETBCR. -/
def execGetbcr (s : State) : Host.Outcome State Fault Refusal := .next (i3cOpen s 1)
/-- R582: GETDCR. -/
def execGetdcr (s : State) : Host.Outcome State Fault Refusal := .next (i3cOpen s 1)
/-- R582: GETMRL. -/
def execGetmrl (s : State) : Host.Outcome State Fault Refusal := .next (i3cOpen s 3)
/-- R582: GETMWL. -/
def execGetmwl (s : State) : Host.Outcome State Fault Refusal := .next (i3cOpen s 2)

/-- R582: ENEC enables in-band interrupts. -/
def execEnec (ibi : Bool) (s : State) : Host.Outcome State Fault Refusal :=
  .next (i3c s fun s => { s with manage := { s.manage with ibi := s.manage.ibi || ibi } })

/-- R582: DISEC disables in-band interrupts. -/
def execDisec (ibi : Bool) (s : State) : Host.Outcome State Fault Refusal :=
  .next (i3c s fun s => { s with manage := { s.manage with ibi := s.manage.ibi && !ibi } })

/-- R582: RSTACT is answered; the spec gives the module nothing that a reset action selects. -/
def execRstact (action : BitVec 8) (s : State) : Host.Outcome State Fault Refusal :=
  .next (i3c s fun s => s.emit (.i3c [action.toNat]))

/-! ## SPDM (R567, R569, R570) -/

/-- True when a request's transport serves: I3C, PCIe VDM, or DOE in configuration space. -/
def spdmUp (s : State) (c : SpdmCtx) : Bool :=
  if c.tr = 2 then s.host.link && !s.host.crs else transportUp s c.tr.val

/-- Answers an SPDM request. -/
def spdm (s : State) (c : SpdmCtx) (r : SpdmReply) : State := (announce s c.tr.val).emit (.spdm c.tr.val r)

/-- A request whose transport serves. -/
def onSpdm (s : State) (c : SpdmCtx) (k : State → State) : State := if spdmUp s c then k s else s

/-- The session a request is sent in: its own transport's, with its handshake finished. -/
def session (s : State) (c : SpdmCtx) : Option SpdmSess :=
  c.sess.bind fun i => s.manage.sess.find? fun x => x.id == i && x.up && x.doe == decide (c.tr = 2)

/-- Replaces a session. -/
def setSess (s : State) (x : SpdmSess) : State :=
  { s with manage := { s.manage with sess := s.manage.sess.map fun y => if y.id = x.id then x else y } }

/-- R569: GET_VERSION: 1.2 and 1.3. -/
def execGetVersion (c : SpdmCtx) (s : State) : Host.Outcome State Fault Refusal :=
  .next (onSpdm s c fun s => spdm s c (.versions [0x12, 0x13]))

/-- R569: GET_CAPABILITIES. -/
def execGetCapabilities (c : SpdmCtx) (s : State) : Host.Outcome State Fault Refusal :=
  .next (onSpdm s c fun s => spdm s c .capabilities)

/-- R569: NEGOTIATE_ALGORITHMS: the one algorithm of each kind, where the requester offers it. -/
def execNegotiateAlgorithms (c : SpdmCtx) (offered : Bool) (s : State) : Host.Outcome State Fault Refusal :=
  .next (onSpdm s c fun s => spdm s c (.algorithms offered))

/-- R567, R569: GET_DIGESTS: the digest of the chain in slot 0. -/
def execGetDigests (c : SpdmCtx) (s : State) : Host.Outcome State Fault Refusal :=
  .next (onSpdm s c fun s => spdm s c (.digest (Config.sm3 Config.certChain % 2 ^ 256)))

/-- R567, R569: GET_CERTIFICATE: slot 0 holds the device certificate chain; no other slot holds one. -/
def execGetCertificate (c : SpdmCtx) (slot : Fin 8) (s : State) : Host.Outcome State Fault Refusal :=
  .next (onSpdm s c fun s => spdm s c (if slot = 0 then .certificate Config.certChain else .refused))

/-- The device key's signature over a transcript (R567), whose digest the SPDM specification defines and this one does not
state. -/
def signOpen (s : State) : Nat := Config.deviceSign (Config.freeValue s.free)

/-- R569: CHALLENGE. -/
def execChallenge (c : SpdmCtx) (_nonce : Nat) (s : State) : Host.Outcome State Fault Refusal :=
  .next (onSpdm s c fun s => { spdm s c (.challenge (signOpen s)) with free := s.free + 1 })

/-- Licences in KIND order, then serial order. -/
def licBefore (a b : List Byte) : Bool :=
  decide (licNum a 6 1 < licNum b 6 1 ∨ (licNum a 6 1 = licNum b 6 1 ∧ licNum a 24 8 ≤ licNum b 24 8))

/-- Inserts a licence in order; one whose serial number is already held is counted once. -/
def licInsert (x : List Byte) : List (List Byte) → List (List Byte)
  | [] => [x]
  | y :: r => if licNum x 24 8 = licNum y 24 8 then y :: r else if licBefore x y then x :: y :: r else y :: licInsert x r

/-- The bytes of words of 32 bits. -/
def wordBytes (l : List Nat) : List Byte := l.flatMap (leBytes 4)

/-- Every port that holds lane spares. -/
def sparePorts : List PortId :=
  (allDies.flatMap fun d => (List.finRange 9).map fun p => PortId.die d p) ++ allDies.map PortId.hub

/-- The state that index 6 measures: FT_PSTAT of every die, the lane spares of every port, the retired DRAM rows. -/
def repairBytes (s : State) : List Byte :=
  wordBytes ((List.range 4).flatMap fun d => (List.range 8).map fun r => wordAt s d Reg.FT_PSTAT_STATE0 r)
    ++ wordBytes (sparePorts.flatMap fun p => (List.range 8).map fun k =>
      rdP s p Reg.LK_SPARE_LANE Reg.LKH_SPARE_LANE k + 2 ^ 16 * rdP s p Reg.LK_SPARE_USED Reg.LKH_SPARE_USED k)
    ++ wordBytes ((s.faults.repair.filter fun r => r.kind == 4).flatMap fun r => [r.unit, r.item])

/-- The measurement blocks by index (R570). -/
def measure (s : State) : List (Nat × Nat) :=
  let o := s.chip.owner
  [(1, Config.bootRom % 2 ^ 256), (2, fwDigest s),
   (3, Config.sm3 [BitVec.ofNat 8 (s.rd Reg.BT_SVN_FUSED 0), BitVec.ofNat 8 (s.rd Reg.BT_SVN_IMAGE 0)] % 2 ^ 256),
   (4, Config.sm3 ((s.chip.inForce.foldl (fun a x => licInsert x a) []).flatten) % 2 ^ 256),
   (5, Config.sm3 (leBytes 64 ((o.map Owner.key).getD 0) ++ [BitVec.ofNat 8 (b2n ((o.map Owner.ideReq).getD false)),
      BitVec.ofNat 8 (s.rd Reg.BT_STAT_DEBUG 0), BitVec.ofNat 8 (s.rd Reg.BT_STAT_OWNER 0)]) % 2 ^ 256),
   (6, Config.sm3 (repairBytes s) % 2 ^ 256), (7, s.load.chain)]

/-- R570: GET_MEASUREMENTS: all blocks at one instant, signed. -/
def execGetMeasurements (c : SpdmCtx) (_nonce : Nat) (s : State) : Host.Outcome State Fault Refusal :=
  .next (onSpdm s c fun s => { spdm s c (.measurements (measure s) (signOpen s)) with free := s.free + 1 })

/-- R569: KEY_EXCHANGE opens a session: at most four, and one on DOE. -/
def execKeyExchange (c : SpdmCtx) (s : State) : Host.Outcome State Fault Refusal :=
  let x := s.manage
  let doe := decide (c.tr = 2)
  .next (onSpdm s c fun s =>
    if x.sess.length ≥ 4 ∨ (doe ∧ x.sess.any SpdmSess.doe) then spdm s c .sessionLimit
    else spdm { s with manage := { x with sess := x.sess ++ [{ id := x.nextSess, doe := doe }], nextSess := x.nextSess + 1 } } c
      (.session x.nextSess))

/-- R569: FINISH completes the handshake of a session; `leaf` is the key the requester's chain authenticates, if one was
sent. -/
def execFinish (c : SpdmCtx) (leaf : Option Nat) (s : State) : Host.Outcome State Fault Refusal :=
  .next (onSpdm s c fun s =>
    match c.sess.bind fun i => s.manage.sess.find? fun x => x.id == i && !x.up && x.doe == decide (c.tr = 2) with
    | some x => spdm (setSess s { x with up := true, leaf := leaf }) c .ack
    | none => spdm s c .refused)

/-- A request that must be sent in a secured session. -/
def secured (s : State) (c : SpdmCtx) (k : State → SpdmSess → State) : State :=
  onSpdm s c fun s => match session s c with
    | some x => k s x
    | none => spdm s c .refused

/-- R569: HEARTBEAT. -/
def execHeartbeat (c : SpdmCtx) (s : State) : Host.Outcome State Fault Refusal :=
  .next (secured s c fun s _ => spdm s c .ack)

/-- R569: KEY_UPDATE: the session goes on with new keys. -/
def execKeyUpdate (c : SpdmCtx) (s : State) : Host.Outcome State Fault Refusal :=
  .next (secured s c fun s x => spdm (setSess s { x with gen := x.gen + 1 }) c .ack)

/-- R569: END_SESSION. -/
def execEndSession (c : SpdmCtx) (s : State) : Host.Outcome State Fault Refusal :=
  .next (secured s c fun s x =>
    spdm { s with manage := { s.manage with sess := s.manage.sess.filter fun y => y.id != x.id } } c .ack)

/-- R569: a request outside the list. -/
def execUnsupportedSpdmRequest (c : SpdmCtx) (code : BitVec 8) (s : State) : Host.Outcome State Fault Refusal :=
  .next (onSpdm s c fun s => (spdm s c .unsupportedRequest).lg LogKind.spdmUnsupported hubN [code.toNat])

/-! ## Ownership (R571-R573) -/

/-- A vendor request whose condition does not hold: ERROR, logged (R572). -/
def vendorRefused (s : State) (c : SpdmCtx) (code : Nat) : State := (spdm s c .refused).lg LogKind.vendorRefused hubN [code]

/-- A vendor request (R572): outside a secured session it is answered with ERROR and logged. -/
def vendor (s : State) (c : SpdmCtx) (code : Nat) (k : State → SpdmSess → State) : State :=
  onSpdm s c fun s => match session s c with
    | some x => k s x
    | none => vendorRefused s c code

/-- True when a session is authenticated with the owner key of an OWNED module. -/
def byOwner (s : State) (x : SpdmSess) : Bool :=
  s.rd Reg.BT_STAT_OWNER 0 == 1 && match s.chip.owner with
    | some o => x.leaf == some o.key
    | none => false

/-- HB_HOSTCFG.IDE_REQ follows the owner record (R572). -/
def followIde (s : State) : State :=
  flushOwed (s.wb Reg.HB_HOSTCFG_IDE_REQ 0 ((s.chip.owner.map Owner.ideReq).getD false))

/-- R572: CLAIM. An OPEN module becomes LOCKED at once where the record does not consent (R578). -/
def execClaim (c : SpdmCtx) (o : Owner) (s : State) : Host.Outcome State Fault Refusal :=
  .next (vendor s c 1 fun s x =>
    if s.rd Reg.BT_STAT_OWNER 0 ≠ 0 ∨ x.leaf ≠ some o.key then vendorRefused s c 1
    else
      let s1 := { s with chip := { s.chip with owner := some o } }.wr Reg.BT_STAT_OWNER 0 1
      spdm (followIde (if o.consent then s1 else s1.wb Reg.BT_STAT_DEBUG 0 false)) c .ack)

/-- R572, R573: RELEASE. -/
def execRelease (c : SpdmCtx) (s : State) : Host.Outcome State Fault Refusal :=
  .next (vendor s c 2 fun s x => if byOwner s x then startRelease (spdm s c .ack) (some x.id) else vendorRefused s c 2)

/-- An owner record with some of its fields replaced. -/
def changeOwner (o : Owner) (k : KeyChange) : Owner :=
  { o with
    pzKeys := k.pzKeys.foldl (fun l p => ((List.range 4).map fun i => if i = p.1.val then p.2 else (l[i]?).getD 0)) o.pzKeys
    secret := k.secret.getD o.secret, ideReq := k.ideReq.getD o.ideReq, consent := k.consent.getD o.consent }

/-- R572: SET_KEYS; the parison in force stays. -/
def execSetKeys (c : SpdmCtx) (k : KeyChange) (s : State) : Host.Outcome State Fault Refusal :=
  .next (vendor s c 3 fun s x =>
    if byOwner s x then
      spdm (followIde { s with chip := { s.chip with owner := s.chip.owner.map fun o => changeOwner o k } }) c .ack
    else vendorRefused s c 3)

/-- R572: OWNER_INFO. -/
def execOwnerInfo (c : SpdmCtx) (s : State) : Host.Outcome State Fault Refusal :=
  .next (vendor s c 6 fun s _ => spdm s c (match s.chip.owner with
    | some o => .ownerInfo o.key o.ideReq o.consent
    | none => .ownerInfo 0 false false))

/-! ## Licences and firmware (R568, R577) -/

/-- The place a new licence takes: an empty one, else one of an ignored licence, else one installed since the reset; none
where all hold licences in force. -/
def licPlace (s : State) : Option Nat :=
  let has := fun (f : Nat → Bool) => licPlaces.find? fun n => f (s.rd Reg.BT_LIC_STATE 0 n)
  (has (· == 0)).or ((has fun v => decide (2 ≤ v ∧ v ≤ 4)).or (has (· == 5)))

/-- R7, R577: installs a licence whose signature and identity hold, any other being ignored and logged; the Bool says whether it
was. -/
def installLicence (s : State) (l : List Byte) : State × Bool :=
  if l.length ≠ 128 ∨ !licSigned l ∨ licNum l 8 16 ≠ modId s then (s.lg LogKind.licenceIgnored hubN [licNum l 6 1, licNum l 7 1], false)
  else match licPlace s with
    | none => (s, false)
    | some n =>
      let s1 := { s with chip := { s.chip with lics := smSet [] s.chip.lics n l } }
      (((s1.wr Reg.BT_LIC_STATE 0 5 n).wr Reg.BT_LIC_KIND 0 (licNum l 6 1) n).wr Reg.BT_LIC_VALUE 0 (licNum l 7 1) n, true)

/-- R572, R577: INSTALL_LICENCE over SPDM. -/
def execInstallLicence (c : SpdmCtx) (lic : List Byte) (s : State) : Host.Outcome State Fault Refusal :=
  .next (vendor s c 4 fun s _ =>
    let r := installLicence s lic
    if r.2 then spdm r.1 c .ack else vendorRefused r.1 c 4)

/-- R584: INSTALL_LICENCE over MCTP. -/
def execMctpInstallLicence (tr : Fin 2) (lic : List Byte) (s : State) : Host.Outcome State Fault Refusal :=
  .next (served2 s tr fun s =>
    let r := installLicence s lic
    mgmt r.1 tr (if r.2 then .done else .refused))

/-- True when the firmware requests are admitted in a session (R572). -/
def fwAdmitted (s : State) (x : SpdmSess) : Bool := byOwner s x || s.rd Reg.BT_STAT_OWNER 0 == 0

/-- True when a firmware image verifies (R568). -/
def fwVerified (s : State) (w : FwBlob) : Bool :=
  Config.certKey w.keyId != 0 && Config.sm2Verify (Config.certKey w.keyId) w.digest w.sig
    && decide (s.rd Reg.BT_SVN_FUSED 0 ≤ w.svn.val)

/-- A firmware image is written to a slot, and marked valid only where it verifies. -/
def writeFw (s : State) (n : Nat) (w : FwBlob) : State :=
  setImg s n { version := w.version, svn := w.svn.val, digest := w.digest, good := fwVerified s w }

/-- R568: FW_STAGE: into the slot that is not in force. -/
def execFwStage (c : SpdmCtx) (w : FwBlob) (s : State) : Host.Outcome State Fault Refusal :=
  .next (vendor s c 5 fun s x =>
    if !fwAdmitted s x then vendorRefused s c 5
    else
      let t := writeFw s (1 - s.rd Reg.BT_STAT_IMAGE 0) w
      if fwVerified s w then spdm t c .ack else vendorRefused t c 5)

/-- R568: FW_COMMIT raises the fused SVN to that of the image in force. -/
def execFwCommit (c : SpdmCtx) (svn : Fin 65) (s : State) : Host.Outcome State Fault Refusal :=
  .next (vendor s c 5 fun s x =>
    if fwAdmitted s x && s.rd Reg.BT_SVN_IMAGE 0 == svn.val then
      spdm (s.wr Reg.BT_SVN_FUSED 0 (max (s.rd Reg.BT_SVN_FUSED 0) svn.val)) c .ack
    else vendorRefused s c 5)

/-! ## IDE and DOE (R467, R476) -/

/-- R476: IDE_KM over secured SPDM on DOE brings the stream into the secure state. -/
def execIdeKm (c : SpdmCtx) (s : State) : Host.Outcome State Fault Refusal :=
  .next (secured s c fun s x =>
    if x.doe then spdm (flushOwed (s.wb Reg.HB_HOSTCFG_IDE_OK 0 true)) c .ack else spdm s c .refused)

/-- R467: a DOE discovery: the vendor ID of the PCI-SIG, the protocol (0 discovery, 1 SPDM, 2 secured SPDM) and the next index,
0 at the end. -/
def execDoeDiscovery (index : Nat) (s : State) : Host.Outcome State Fault Refusal :=
  .next (if s.host.link && !s.host.crs then s.emit (.doe (if index < 3 then [1, index, (index + 1) % 3] else [0xFFFF, 0, 0])) else s)

end Sys2Proof.Machine
end

