-- ==== Sys2Proof/Machine/Jacks.lean ====
section
/-! DEFINITION. The Jacks monitor and the boot ROM's monitor (R588-R593, R597, R598): lines, their commands and status lines,
Ctrl-C, and the end of a scan on display. -/

namespace Sys2Proof.Machine

/-- Prints output words. -/
def console (s : State) (l : List Nat) : State := s.emit (.console l)

/-- The rates of JK_CFG.BAUD (R588). -/
def baudRates : List Nat := [115200, 230400, 460800, 921600, 1500000, 3000000]

/-- The debug level is OPEN (R578). -/
def debugOpen (s : State) : Bool := s.rb Reg.BT_STAT_DEBUG 0

/-- True when the CSRs of a die answer DIE_DOWN: a held or resetting die, or a start before stage 7 (R590, R597). -/
def jkDieDown (s : State) (d : Nat) : Bool :=
  let st := s.rd Reg.FT_DIE_STATE 0 d
  let stage := s.rd Reg.BT_STAT_STAGE 0
  st == 2 || st == 4 || decide (1 ≤ stage ∧ stage < 7)

/-! ## peek and poke (R590, R591) -/

/-- The registers that are not read at LOCKED (R578). -/
def lockedFields : List Field :=
  [Reg.CS_SREG_VALUE, Reg.CS_AREG_LO, Reg.CS_AREG_HI, Reg.IMEM_LO, Reg.IMEM_HI, Reg.HB_MB_WORD, Reg.PZ_PHREC_LAYER,
   Reg.PZ_PHREC_NDEP, Reg.PZ_PHREC_DEP0, Reg.PZ_PHREC_DEP1, Reg.PZ_PHREC_DEP2, Reg.PZ_PHREC_DEP3, Reg.PZ_PHREC_DEP4,
   Reg.PZ_PHREC_DEP5, Reg.PZ_PHREC_DEP6, Reg.PZ_PHREC_DEP7]

/-- True when LOCKED forbids reading a word (R578). -/
def readLocked (m : Nat) : Bool :=
  match mgaCsr m with
  | some a => (wordFields a.space a.off).any fun p => lockedFields.contains p.1
  | none => mgaClass m == 0 || mgaClass m == 3

/-- The die whose state decides on an access: none for stacks and the hub. -/
def accessDie (m : Nat) : Option Nat := if mgaClass m ≤ 2 then some (mgaDie m) else none

/-- One word read by the debug requester, and whether it holds an uncorrectable error (R244, R460). -/
def peekWord (s : State) (m : Nat) : Option (Nat × Bool × State) :=
  match mgaCsr m with
  | some a => if mgaFormed m && unitServed s .debug a then (csrRead s a.space a.unit a.off).map fun r => (r.1, false, r.2) else none
  | none =>
    if !served s m 4 then none
    else if mgaClass m = 0 then
      let r := spRead s (mgaCore m) (mgaOff25 m) 4 rqDebug
      some (ofLeBytes r.1, (badWords s (spBase (mgaCore m) + mgaOff25 m) 4).any (fun p => decide (2 ≤ p.2)), r.2)
    else
      let r := stackRead s (mgaStack m) (mgaOff36 m) 4 4
      some (ofLeBytes r.1, r.2.1, r.2.2)

/-- Words from an address upwards, and whether one is in error; none where one is an address fault. -/
def peekWords : Nat → Nat → State → Option (List Nat × Bool × State)
  | 0, _, s => some ([], false, s)
  | n + 1, m, s => match peekWord s m with
    | none => none
    | some (v, e, t) => (peekWords n (m + 4) t).map fun r => (v :: r.1, e || r.2.1, r.2.2)

/-- peek: a DIE_DOWN, LOCKED or ADDR_FAULT refuses it whole; data with an uncorrectable error is printed with an error status (R244). -/
def runPeek (s : State) (m n : Nat) : State × JkStatus :=
  let addrs := (List.range n).map fun k => m + 4 * k
  if m % 4 ≠ 0 ∨ n = 0 ∨ 256 < n then (s, .other 1)
  else if !debugOpen s && addrs.any readLocked then (s, .locked)
  else if addrs.any fun a => match accessDie a with
    | some d => jkDieDown s d
    | none => false then (s, .dieDown)
  else match peekWords n m s with
    | some (l, e, t) => (console t l, if e then .ecc else .ok)
    | none => (addrFault s (.hub 2) m, .addrFault)

/-- A word written by the debug requester, as module firmware's; in a start a die's CSRs answer DIE_DOWN until stage 7 (R597). -/
def pokeWord (s : State) (m v : Nat) : State × JkStatus :=
  let stage := s.rd Reg.BT_STAT_STAGE 0
  if m % 4 ≠ 0 then (s, .other 1)
  else if (mgaClass m = 1 ∨ mgaClass m = 2) ∧ 1 ≤ stage ∧ stage < 7 then (s, .dieDown)
  else if lockedAt s m 4 then (s, .frozen)
  else match mgaCsr m with
  | some a =>
    if !(mgaFormed m && unitServed s .debug a) then (addrFault s (.hub 2) m, .addrFault)
    else match csrStore s .firmware a.space a.unit a.off v with
      | some (t, false) => (t, .ok)
      | some (t, true) => (t, .frozen)
      | none => (addrFault s (.hub 2) m, .addrFault)
  | none =>
    if !served s m 4 then (addrFault s (.hub 2) m, .addrFault)
    else if mgaClass m = 0 then (spWrite s (mgaCore m) (mgaOff25 m) (leBytes 4 v) rqDebug, .ok)
    else (stackWrite s (mgaStack m) (mgaOff36 m) (leBytes 4 v), .ok)

/-- The number under which a poke's outcome is recorded. -/
def statusNum : JkStatus → Nat
  | .ok => 0
  | .line => 1
  | .locked => 2
  | .dieDown => 3
  | .frozen => 4
  | .addrFault => 5
  | .retrain => 6
  | .ecc => 7
  | .other n => 8 + n

/-- poke: carried out at OPEN; every poke is logged with address, value and outcome as an informational record, whose event code
the spec does not state. -/
def runPoke (s : State) (m v : Nat) : State × JkStatus :=
  let r := if debugOpen s then pokeWord s m v else (s, .locked)
  let t := { r.1 with free := r.1.free + 1 }
  (noteRec t { ownEvent t 0 (Config.freeValue r.1.free % 65536) 4 none 0 with detail := [m, v, statusNum r.2] } 3 0 0, r.2)

/-! ## The other commands (R590, R592, R593) -/

/-- The image in force: its header and section table as words of staging memory. -/
def imageHead (s : State) : List Nat :=
  match s.load.images.find? fun im => im.seg == none with
  | some im => (List.range ((0x80 + 16 * im.nsect) / 4)).map fun k => imgRead s im.src (4 * k) 4
  | none => []

/-- The records of a section of the image in force, as numbers: each with its die, rectangle, space, offset and words. -/
def sectionWords (s : State) (n : Nat) : List Nat :=
  match s.load.images.find? fun im => im.seg == none with
  | some im => (im.recs.filter fun r => r.sec == n).flatMap fun r =>
      [r.die, r.r0, r.c0, r.r1, r.c1, b2n r.dieSpace, r.off, r.words.length] ++ r.words
  | none => []

/-- log: records from an ID, or the newest. -/
def runLog (s : State) (first : Option Nat) (n : Nat) : State × JkStatus :=
  let l := s.faults.log
  if n > 4096 then (s, .other 1)
  else (s.emit (.records (match first with
    | some id => (l.filter fun r => decide (id ≤ r.id)).take n
    | none => l.drop (l.length - n))), .ok)

/-- eye: the counts of the sweep with the Q values, or a span lane's error rate (R592). -/
def runEye (s : State) (p : PortId) (counts : List Nat) (retrained : Bool) : State × JkStatus :=
  if match p with
    | .die d _ => jkDieDown s d.val
    | _ => false then (s, .dieDown)
  else if retrained then (s, .retrain)
  else match p with
    | .span _ => (console s counts, .ok)
    | _ => (console s (counts ++ [(Config.eyeQ counts).1, (Config.eyeQ counts).2]), .ok)

/-- recover (R593): only while FAILSTEP is 2, into the slot with the lower version. -/
def runRecover (s : State) (w : FwBlob) : State × JkStatus :=
  if s.rd Reg.BT_STAT_FAILSTEP 0 ≠ 2 then (s, .other 1)
  else
    let n := if (imgAt s 0).version < (imgAt s 1).version then 0 else 1
    (writeFw s n w, if fwVerified s w then .ok else .other 2)

/-- The islands of a die that a command names, with the positions of their rows. -/
def islandWords (s : State) (d : Nat) (l : List Nat) : List Nat :=
  l.flatMap fun n => [wordAt s d Reg.LH_ISL_IEST n, wordAt s d Reg.FT_PSTAT_STATE0 (islandRow n)]

/-- True of the commands that the boot ROM's monitor accepts (R593). -/
def romAccepts : JkCmd → Bool
  | .help => true
  | .baud _ => true
  | .id => true
  | .log _ _ => true
  | .recover _ => true
  | _ => false

/-- The code of each command in the list that help prints. -/
def helpList (s : State) : List Nat := if s.rb Reg.JK_STAT_ROM 0 then [0, 1, 2, 7, 15] else List.range 15

/-- Runs a command: the state and how it ends; none where it goes on (a scan). -/
def runJk (s : State) (k : JkCmd) : State × Option JkStatus :=
  let fin := fun p : State × JkStatus => (p.1, some p.2)
  if s.rb Reg.JK_STAT_ROM 0 && !romAccepts k then (s, some (.other 3))
  else match k with
  | .help => (console s (helpList s), some .ok)
  | .baud r => match baudRates.findIdx? (· == r) with
    | some n => (s.wr Reg.JK_CFG_BAUD 0 n, some .ok)
    | none => (s, some (.other 1))
  | .id => (console s (reportWords s 0), some .ok)
  | .faults => (console s (reportWords s 1), some .ok)
  | .gather none => (console s (reportWords s 2), some .ok)
  | .gather (some d) => (console s (gatherWords s d.val), some .ok)
  | .power => (console s (reportWords s 3), some .ok)
  | .island d n =>
    if jkDieDown s d.val then (s, some .dieDown)
    else (console s (islandWords s d.val (match n with
      | some i => [i.val]
      | none => List.range 16)), some .ok)
  | .clk =>
    if allDies.any fun d => jkDieDown s d.val && decide (1 ≤ s.rd Reg.BT_STAT_STAGE 0) then (s, some .dieDown)
    else (console s (wordAt s 0 Reg.HB_CLKSTAT_REF_OK 0 :: (List.range 4).map fun d => wordAt s d Reg.BT_CLKSTAT_FWD_OK 0), some .ok)
  | .log first n => fin (runLog s first n)
  | .peek m n => fin (runPeek s m.toNat n)
  | .poke m v => fin (runPoke s m.toNat v.toNat)
  | .eye p _ counts retrained => fin (runEye s p counts retrained)
  | .scan d row col =>
    if !debugOpen s then (s, some .locked)
    else if jkDieDown s d.val then (s, some .dieDown)
    else
      let s1 := (s.wr Reg.FT_SCAN_COL d.val col.val).wr Reg.FT_SCAN_ROW d.val row.val
      let s2 := after (execScanStart .firmware d s1) s1
      if !s.rb Reg.FT_SCAN_BUSY d.val && s2.rb Reg.FT_SCAN_BUSY d.val then ({ s2 with manage := { s2.manage with scan := some d } }, none)
      else (s2, some (.other 1))
  | .parison => (console s (wordAt s 0 Reg.PZ_HSTAT_STAGE 0 :: ((List.range 2).map fun k => wordAt s 0 Reg.PZ_IMGID_ID k)
      ++ ((List.range 8).map fun k => wordAt s 0 Reg.PZ_DIGEST_DIGEST k) ++ [wordAt s 0 Reg.PZ_SEGCNT_COUNT 0] ++ imageHead s), some .ok)
  | .dump n =>
    if !debugOpen s then (s, some .locked)
    else (console s (sectionWords s n), some .ok)
  | .warm full =>
    if !debugOpen s then (s, some .locked)
    else if s.rd Reg.BT_STAT_STAGE 0 ≠ 0 then (orderWarm s full, some (.other 1))
    else (s, some .ok)
  | .recover w => fin (runRecover s w)

/-- Runs a line that has been read: its command counts, its status line follows, and a baud or a warm reset acts after the
status line (R588). -/
def runLine (s : State) (len : Nat) (k : JkCmd) : State :=
  if len > 255 then s.emit (.jacks .line)
  else
    let r := runJk (s.bump Reg.JK_CMDS_COUNT 0) k
    match r.2 with
    | none => r.1.wb Reg.JK_STAT_BUSY 0 true
    | some st =>
      let t := r.1.emit (.jacks st)
      match k, st with
      | .warm full, .ok => orderWarm t full
      | _, _ => t

/-- The characters held while a command runs. -/
def heldChars (s : State) : Nat := (s.manage.held.map fun p => p.1 + 1).sum

/-- R589: a line arrives at the monitor port: while a command runs it is held, up to 256 characters in all, and what does not fit
is dropped and counted. -/
def jkLine (s : State) (len : Nat) (k : JkCmd) : State :=
  if !s.chip.valid ∨ s.chip.btest ∨ s.rd Reg.BT_STAT_STAGE 0 = 1 then s
  else if s.rb Reg.JK_STAT_BUSY 0 then
    if heldChars s + len + 1 ≤ 256 then { s with manage := { s.manage with held := s.manage.held ++ [(len, k)] } }
    else s.bump Reg.JK_STAT_OVERRUN 0 (heldChars s + len + 1 - 256)
  else runLine s len k

/-- A command that went on ends with ok; the lines held are read (R589). -/
def endBusy (s : State) : State :=
  let l := s.manage.held
  l.foldl (fun t p => jkLine t p.1 p.2)
    { (s.wb Reg.JK_STAT_BUSY 0 false).emit (.jacks .ok) with manage := { s.manage with held := [], scan := none } }

/-- R590: help. -/
def execJkHelp (len : Nat) (s : State) : Host.Outcome State Fault Refusal := .next (jkLine s len .help)
/-- R588: baud. -/
def execJkBaud (len rate : Nat) (s : State) : Host.Outcome State Fault Refusal := .next (jkLine s len (.baud rate))
/-- R590: id. -/
def execJkId (len : Nat) (s : State) : Host.Outcome State Fault Refusal := .next (jkLine s len .id)
/-- R590: faults. -/
def execJkFaults (len : Nat) (s : State) : Host.Outcome State Fault Refusal := .next (jkLine s len .faults)
/-- R590: gather. -/
def execJkGather (len : Nat) (d : Option DieId) (s : State) : Host.Outcome State Fault Refusal := .next (jkLine s len (.gather d))
/-- R590: power. -/
def execJkPower (len : Nat) (s : State) : Host.Outcome State Fault Refusal := .next (jkLine s len .power)
/-- R590: island. -/
def execJkIsland (len : Nat) (d : DieId) (n : Option (Fin 16)) (s : State) : Host.Outcome State Fault Refusal :=
  .next (jkLine s len (.island d n))
/-- R590: clk. -/
def execJkClk (len : Nat) (s : State) : Host.Outcome State Fault Refusal := .next (jkLine s len .clk)
/-- R590: log. -/
def execJkLog (len : Nat) (first : Option Nat) (n : Nat) (s : State) : Host.Outcome State Fault Refusal :=
  .next (jkLine s len (.log first n))
/-- R591: peek. -/
def execJkPeek (len : Nat) (mga : Mga) (n : Nat) (s : State) : Host.Outcome State Fault Refusal :=
  .next (jkLine s len (.peek mga n))
/-- R591: poke. -/
def execJkPoke (len : Nat) (mga : Mga) (v : Word) (s : State) : Host.Outcome State Fault Refusal :=
  .next (jkLine s len (.poke mga v))
/-- R592: eye. -/
def execJkEye (len : Nat) (p : PortId) (lane : Nat) (counts : List Nat) (retrained : Bool) (s : State) :
    Host.Outcome State Fault Refusal := .next (jkLine s len (.eye p lane counts retrained))
/-- R590: scan. -/
def execJkScan (len : Nat) (d : DieId) (row : Fin 8) (col : Fin 10) (s : State) : Host.Outcome State Fault Refusal :=
  .next (jkLine s len (.scan d row col))
/-- R590: parison. -/
def execJkParison (len : Nat) (s : State) : Host.Outcome State Fault Refusal := .next (jkLine s len .parison)
/-- R590: parison dump. -/
def execJkParisonDump (len sect : Nat) (s : State) : Host.Outcome State Fault Refusal := .next (jkLine s len (.dump sect))
/-- R590: warm. -/
def execJkWarm (len : Nat) (full : Bool) (s : State) : Host.Outcome State Fault Refusal := .next (jkLine s len (.warm full))
/-- R593: recover. -/
def execJkRecover (len : Nat) (w : FwBlob) (s : State) : Host.Outcome State Fault Refusal := .next (jkLine s len (.recover w))

/-- R589: Ctrl-C ends a scan display; the scan itself goes on. -/
def execJkCtrlC (s : State) : Host.Outcome State Fault Refusal :=
  .next (if s.rb Reg.JK_STAT_BUSY 0 then endBusy s else s)

/-- R541: a scan ends; one on display prints its result (R590). -/
def execScanComplete (d : DieId) (pass : Bool) (pattern : BitVec 16) (s : State) : Host.Outcome State Fault Refusal :=
  let t := scanEnds s d pass pattern.toNat
  .next (if (scanned s d).isSome ∧ s.manage.scan = some d then endBusy (console t [wordAt t d.val Reg.FT_SCAN_COL 0]) else t)

end Sys2Proof.Machine
end

