-- ==== Sys2Proof/Machine/Scalar.lean ====
section
/-! DEFINITION. The scalar ALU, control-flow and address-descriptor instructions (R194-R197, R628). -/

namespace Sys2Proof.Machine

/-- A register-register operation: sD := s[A] op s[B]. -/
def aluRR (f : Word → Word → Word) (c : CoreId) (w : IFields) (s : State) : Eff :=
  withSrc2 c w s fun x y t => doneS c w (f x y) t

/-- A register-immediate operation: IMM in place of s[B]. -/
def aluRI (f : Word → Word → Word) (c : CoreId) (w : IFields) (s : State) : Eff :=
  withSrc c w.a s fun x t => doneS c w (f x w.imm) t

/-- The result of each ALU operation (R194). -/
def opAdd (x y : Word) : Word := x + y
def opSub (x y : Word) : Word := x - y
def opAnd (x y : Word) : Word := x &&& y
def opOr (x y : Word) : Word := x ||| y
def opXor (x y : Word) : Word := x ^^^ y
def opSll (x y : Word) : Word := x <<< (y.toNat % 32)
def opSrl (x y : Word) : Word := x >>> (y.toNat % 32)
def opSra (x y : Word) : Word := x.sshiftRight (y.toNat % 32)
def opSlt (x y : Word) : Word := if x.slt y then 1 else 0
def opSltu (x y : Word) : Word := if x.ult y then 1 else 0
def opMul (x y : Word) : Word := x * y
def opMulh (x y : Word) : Word := BitVec.ofInt 32 ((x.toInt * y.toInt) / 2 ^ 32)
def opMin (x y : Word) : Word := if x.slt y then x else y
def opMax (x y : Word) : Word := if x.slt y then y else x
def opEq (x y : Word) : Word := if x = y then 1 else 0
def opNe (x y : Word) : Word := if x = y then 0 else 1

/-- R194: ADD. -/
def execAdd (c : CoreId) (w : IFields) (s : State) : Host.Outcome State Fault Refusal :=
  .next (issue 0x00 formRRR c w s (aluRR opAdd c w))

/-- R194: SUB. -/
def execSub (c : CoreId) (w : IFields) (s : State) : Host.Outcome State Fault Refusal :=
  .next (issue 0x01 formRRR c w s (aluRR opSub c w))

/-- R194: AND. -/
def execAnd (c : CoreId) (w : IFields) (s : State) : Host.Outcome State Fault Refusal :=
  .next (issue 0x02 formRRR c w s (aluRR opAnd c w))

/-- R194: OR. -/
def execOr (c : CoreId) (w : IFields) (s : State) : Host.Outcome State Fault Refusal :=
  .next (issue 0x03 formRRR c w s (aluRR opOr c w))

/-- R194: XOR. -/
def execXor (c : CoreId) (w : IFields) (s : State) : Host.Outcome State Fault Refusal :=
  .next (issue 0x04 formRRR c w s (aluRR opXor c w))

/-- R194: SLL. -/
def execSll (c : CoreId) (w : IFields) (s : State) : Host.Outcome State Fault Refusal :=
  .next (issue 0x05 formRRR c w s (aluRR opSll c w))

/-- R194: SRL. -/
def execSrl (c : CoreId) (w : IFields) (s : State) : Host.Outcome State Fault Refusal :=
  .next (issue 0x06 formRRR c w s (aluRR opSrl c w))

/-- R194: SRA. -/
def execSra (c : CoreId) (w : IFields) (s : State) : Host.Outcome State Fault Refusal :=
  .next (issue 0x07 formRRR c w s (aluRR opSra c w))

/-- R194: SLT. -/
def execSlt (c : CoreId) (w : IFields) (s : State) : Host.Outcome State Fault Refusal :=
  .next (issue 0x08 formRRR c w s (aluRR opSlt c w))

/-- R194: SLTU. -/
def execSltu (c : CoreId) (w : IFields) (s : State) : Host.Outcome State Fault Refusal :=
  .next (issue 0x09 formRRR c w s (aluRR opSltu c w))

/-- R194: MUL. -/
def execMul (c : CoreId) (w : IFields) (s : State) : Host.Outcome State Fault Refusal :=
  .next (issue 0x0A formRRR c w s (aluRR opMul c w))

/-- R194: MULH. -/
def execMulh (c : CoreId) (w : IFields) (s : State) : Host.Outcome State Fault Refusal :=
  .next (issue 0x0B formRRR c w s (aluRR opMulh c w))

/-- R194: MIN. -/
def execMin (c : CoreId) (w : IFields) (s : State) : Host.Outcome State Fault Refusal :=
  .next (issue 0x0C formRRR c w s (aluRR opMin c w))

/-- R194: MAX. -/
def execMax (c : CoreId) (w : IFields) (s : State) : Host.Outcome State Fault Refusal :=
  .next (issue 0x0D formRRR c w s (aluRR opMax c w))

/-- R194: EQ. -/
def execEq (c : CoreId) (w : IFields) (s : State) : Host.Outcome State Fault Refusal :=
  .next (issue 0x0E formRRR c w s (aluRR opEq c w))

/-- R194: NE. -/
def execNe (c : CoreId) (w : IFields) (s : State) : Host.Outcome State Fault Refusal :=
  .next (issue 0x0F formRRR c w s (aluRR opNe c w))

/-- R194: ADDI. -/
def execAddi (c : CoreId) (w : IFields) (s : State) : Host.Outcome State Fault Refusal :=
  .next (issue 0x10 formRRI c w s (aluRI opAdd c w))

/-- R194: SUBI. -/
def execSubi (c : CoreId) (w : IFields) (s : State) : Host.Outcome State Fault Refusal :=
  .next (issue 0x11 formRRI c w s (aluRI opSub c w))

/-- R194: ANDI. -/
def execAndi (c : CoreId) (w : IFields) (s : State) : Host.Outcome State Fault Refusal :=
  .next (issue 0x12 formRRI c w s (aluRI opAnd c w))

/-- R194: ORI. -/
def execOri (c : CoreId) (w : IFields) (s : State) : Host.Outcome State Fault Refusal :=
  .next (issue 0x13 formRRI c w s (aluRI opOr c w))

/-- R194: XORI. -/
def execXori (c : CoreId) (w : IFields) (s : State) : Host.Outcome State Fault Refusal :=
  .next (issue 0x14 formRRI c w s (aluRI opXor c w))

/-- R194: SLLI. -/
def execSlli (c : CoreId) (w : IFields) (s : State) : Host.Outcome State Fault Refusal :=
  .next (issue 0x15 formRRI c w s (aluRI opSll c w))

/-- R194: SRLI. -/
def execSrli (c : CoreId) (w : IFields) (s : State) : Host.Outcome State Fault Refusal :=
  .next (issue 0x16 formRRI c w s (aluRI opSrl c w))

/-- R194: SRAI. -/
def execSrai (c : CoreId) (w : IFields) (s : State) : Host.Outcome State Fault Refusal :=
  .next (issue 0x17 formRRI c w s (aluRI opSra c w))

/-- R194: SLTI. -/
def execSlti (c : CoreId) (w : IFields) (s : State) : Host.Outcome State Fault Refusal :=
  .next (issue 0x18 formRRI c w s (aluRI opSlt c w))

/-- R194: SLTUI. -/
def execSltui (c : CoreId) (w : IFields) (s : State) : Host.Outcome State Fault Refusal :=
  .next (issue 0x19 formRRI c w s (aluRI opSltu c w))

/-- R194: MULI. -/
def execMuli (c : CoreId) (w : IFields) (s : State) : Host.Outcome State Fault Refusal :=
  .next (issue 0x1A formRRI c w s (aluRI opMul c w))

/-- R194: MULHI. -/
def execMulhi (c : CoreId) (w : IFields) (s : State) : Host.Outcome State Fault Refusal :=
  .next (issue 0x1B formRRI c w s (aluRI opMulh c w))

/-- R194: MINI. -/
def execMini (c : CoreId) (w : IFields) (s : State) : Host.Outcome State Fault Refusal :=
  .next (issue 0x1C formRRI c w s (aluRI opMin c w))

/-- R194: MAXI. -/
def execMaxi (c : CoreId) (w : IFields) (s : State) : Host.Outcome State Fault Refusal :=
  .next (issue 0x1D formRRI c w s (aluRI opMax c w))

/-- R194: EQI. -/
def execEqi (c : CoreId) (w : IFields) (s : State) : Host.Outcome State Fault Refusal :=
  .next (issue 0x1E formRRI c w s (aluRI opEq c w))

/-- R194: NEI. -/
def execNei (c : CoreId) (w : IFields) (s : State) : Host.Outcome State Fault Refusal :=
  .next (issue 0x1F formRRI c w s (aluRI opNe c w))

/-- A conditional branch: PC + IMM where the comparison holds (R195). -/
def branch (p : Word → Word → Bool) (c : CoreId) (w : IFields) (s : State) : Eff :=
  withSrc2 c w s fun x y t =>
    if p x y then .jump t ((s.pc c : Int) + w.imm.toInt) else .done t

/-- The comparisons of the branches. -/
def brEq (x y : Word) : Bool := x == y
def brNe (x y : Word) : Bool := x != y
def brLt (x y : Word) : Bool := x.slt y
def brGe (x y : Word) : Bool := !x.slt y
def brLtu (x y : Word) : Bool := x.ult y
def brGeu (x y : Word) : Bool := !x.ult y

/-- R195: BEQ. -/
def execBeq (c : CoreId) (w : IFields) (s : State) : Host.Outcome State Fault Refusal :=
  .next (issue 0x30 formBr c w s (branch brEq c w))

/-- R195: BNE. -/
def execBne (c : CoreId) (w : IFields) (s : State) : Host.Outcome State Fault Refusal :=
  .next (issue 0x31 formBr c w s (branch brNe c w))

/-- R195: BLT. -/
def execBlt (c : CoreId) (w : IFields) (s : State) : Host.Outcome State Fault Refusal :=
  .next (issue 0x32 formBr c w s (branch brLt c w))

/-- R195: BGE. -/
def execBge (c : CoreId) (w : IFields) (s : State) : Host.Outcome State Fault Refusal :=
  .next (issue 0x33 formBr c w s (branch brGe c w))

/-- R195: BLTU. -/
def execBltu (c : CoreId) (w : IFields) (s : State) : Host.Outcome State Fault Refusal :=
  .next (issue 0x34 formBr c w s (branch brLtu c w))

/-- R195: BGEU. -/
def execBgeu (c : CoreId) (w : IFields) (s : State) : Host.Outcome State Fault Refusal :=
  .next (issue 0x35 formBr c w s (branch brGeu c w))

/-- J: PC := PC + IMM. -/
def bodyJ (c : CoreId) (w : IFields) (s : State) : Eff := .jump s ((s.pc c : Int) + w.imm.toInt)

/-- R195: J. -/
def execJ (c : CoreId) (w : IFields) (s : State) : Host.Outcome State Fault Refusal :=
  .next (issue 0x36 { imm := immAll } c w s (bodyJ c w))

/-- JAL: sD := PC + 1; PC := PC + IMM. -/
def bodyJal (c : CoreId) (w : IFields) (s : State) : Eff :=
  .jump (wrS s c w.d.toNat (BitVec.ofNat 32 (s.pc c + 1))) ((s.pc c : Int) + w.imm.toInt)

/-- R195: JAL. -/
def execJal (c : CoreId) (w : IFields) (s : State) : Host.Outcome State Fault Refusal :=
  .next (issue 0x37 { d := .s, imm := immAll } c w s (bodyJal c w))

/-- JR: PC := s[A][12:0]. -/
def bodyJr (c : CoreId) (w : IFields) (s : State) : Eff :=
  withSrc c w.a s fun x t => .jump t (x.toNat % 8192 : Nat)

/-- R195: JR. -/
def execJr (c : CoreId) (w : IFields) (s : State) : Host.Outcome State Fault Refusal :=
  .next (issue 0x38 { a := .sq } c w s (bodyJr c w))

/-- LOOP (R195, R196): pushes a body of the next IMM[11:0] instructions to run s[A] times; a count of 0 skips it. A
body of length 0 or one not wholly inside the enclosing body is ILLEGAL, a fifth loop raises LOOP_DEPTH, a body that
ends at or beyond 8,192 raises IFETCH. Where several apply, and whatever the count, they are raised in that order before the count is
read; and a count of 0 whose body ends at 8,191 runs off the memory, the trap naming 8,191, which never ran (DESIGN CHOICE,
notes/assumptions/89). -/
def bodyLoop (c : CoreId) (w : IFields) (s : State) : Eff :=
  let n := w.imm.toNat
  let pc := s.pc c
  let ls := (s.cx c).loops
  let inside := match ls with
    | [] => true
    | l :: _ => decide (pc + n ≤ l.last)
  if n = 0 ∨ !inside then .trap trIllegal 0
  else if ls.length ≥ 4 then .trap trLoopDepth 0
  else if pc + n ≥ 8192 then .trap trIfetch (pc + n)
  else withSrc c w.a s fun x t =>
    if x = 0 then .done (t.wr Reg.CS_PC_PC (coreU c) (pc + n))
    else .done (setLoops t c (⟨pc + 1, pc + n, x.toNat⟩ :: (t.cx c).loops))

/-- R196: LOOP. -/
def execLoop (c : CoreId) (w : IFields) (s : State) : Host.Outcome State Fault Refusal :=
  .next (issue 0x39 { a := .sq, imm := 0xFFF } c w s (bodyLoop c w))

/-- ASET: BASE := s[A][24:0], LEN := s[B][24:0], INC := IMM[13:0] (R197). -/
def bodyAset (c : CoreId) (w : IFields) (s : State) : Eff :=
  withSrc2 c w s fun x y t =>
    .done (wrA t c (w.d.toNat - 0x20)
      (x.toNat % 2 ^ 25 + (y.toNat % 2 ^ 25) * 2 ^ 25 + (w.imm.toNat % 2 ^ 14) * 2 ^ 50))

/-- R197: ASET. -/
def execAset (c : CoreId) (w : IFields) (s : State) : Host.Outcome State Fault Refusal :=
  .next (issue 0x40 { d := .a, a := .sq, b := .sq, imm := 0x3FFF } c w s (bodyAset c w))

/-- AINC: aD.BASE := aD.BASE + 64 x aD.INC. -/
def bodyAinc (c : CoreId) (w : IFields) (s : State) : Eff :=
  .done (wrA s c (w.d.toNat - 0x20) (aIncrement (rdA s c (w.d.toNat - 0x20))))

/-- R197: AINC. -/
def execAinc (c : CoreId) (w : IFields) (s : State) : Host.Outcome State Fault Refusal :=
  .next (issue 0x41 { d := .a } c w s (bodyAinc c w))

/-- AADD: aD.BASE := aD.BASE + s[A]. -/
def bodyAadd (c : CoreId) (w : IFields) (s : State) : Eff :=
  withSrc c w.a s fun x t =>
    let n := w.d.toNat - 0x20
    .done (wrA t c n (aWithBase (rdA t c n) (aBase (rdA t c n) + x.toNat : Nat)))

/-- R197: AADD. -/
def execAadd (c : CoreId) (w : IFields) (s : State) : Host.Outcome State Fault Refusal :=
  .next (issue 0x42 { d := .a, a := .sq } c w s (bodyAadd c w))

/-- AGET: sD := the field FN[1:0] of a[A]: BASE, LEN, or INC sign-extended; 3 is ILLEGAL. -/
def bodyAget (c : CoreId) (w : IFields) (s : State) : Eff :=
  let v := rdA s c (w.a.toNat - 0x20)
  match w.fn.toNat with
  | 0 => doneS c w (BitVec.ofNat 32 (aBase v)) s
  | 1 => doneS c w (BitVec.ofNat 32 (aLen v)) s
  | 2 => doneS c w (BitVec.ofInt 32 (aInc v)) s
  | _ => .trap trIllegal 0

/-- R197: AGET. -/
def execAget (c : CoreId) (w : IFields) (s : State) : Host.Outcome State Fault Refusal :=
  .next (issue 0x43 { d := .s, a := .a, fn := 3 } c w s (bodyAget c w))

end Sys2Proof.Machine
end

