-- ==== Sys2Proof/Machine/Dispatch.lean ====
section
/-! DEFINITION. One arm per command: a direct call of its meaning. -/

namespace Sys2Proof.Machine

def exec (i : Instr) (s : State) : Host.Outcome State Fault Refusal :=
  match i with
  | .registerWrite r at_ bytes v => Sys2Proof.Machine.execRegisterWrite r at_ bytes v s
  | .lowWordLatchRead r at_ => Sys2Proof.Machine.execLowWordLatchRead r at_ s
  | .fenceReq r d row cols => Sys2Proof.Machine.execFenceReq r d row cols s
  | .fenceShift d row => Sys2Proof.Machine.execFenceShift d row s
  | .shiftComplete d row => Sys2Proof.Machine.execShiftComplete d row s
  | .slotIdChange slot => Sys2Proof.Machine.execSlotIdChange slot s
  | .refLost => Sys2Proof.Machine.execRefLost s
  | .relock => Sys2Proof.Machine.execRelock s
  | .holdExpired => Sys2Proof.Machine.execHoldExpired s
  | .crossSlip x => Sys2Proof.Machine.execCrossSlip x s
  | .aclkRequest r g code => Sys2Proof.Machine.execAclkRequest r g code s
  | .aclkRatioChange g => Sys2Proof.Machine.execAclkRatioChange g s
  | .marginSample d isl marginA marginN => Sys2Proof.Machine.execMarginSample d isl marginA marginN s
  | .crzLevelWrite r d isl warn crit => Sys2Proof.Machine.execCrzLevelWrite r d isl warn crit s
  | .clockLost d => Sys2Proof.Machine.execClockLost d s
  | .stop d seq crc => Sys2Proof.Machine.execStop d seq crc s
  | .mpass c w => Sys2Proof.Machine.execMpass c w s
  | .mwait c w => Sys2Proof.Machine.execMwait c w s
  | .tileLoadComplete c parity => Sys2Proof.Machine.execTileLoadComplete c parity s
  | .passSwap c => Sys2Proof.Machine.execPassSwap c s
  | .rowGroupEntry c parity => Sys2Proof.Machine.execRowGroupEntry c parity s
  | .passComplete c => Sys2Proof.Machine.execPassComplete c s
  | .cvt c w => Sys2Proof.Machine.execCvt c w s
  | .cvtx c w => Sys2Proof.Machine.execCvtx c w s
  | .cvts c w => Sys2Proof.Machine.execCvts c w s
  | .sclx c w => Sys2Proof.Machine.execSclx c w s
  | .shadowRecompute c => Sys2Proof.Machine.execShadowRecompute c s
  | .sealVerdict g => Sys2Proof.Machine.execSealVerdict g s
  | .rerunStart g => Sys2Proof.Machine.execRerunStart g s
  | .add c w => Sys2Proof.Machine.execAdd c w s
  | .sub c w => Sys2Proof.Machine.execSub c w s
  | .and c w => Sys2Proof.Machine.execAnd c w s
  | .or c w => Sys2Proof.Machine.execOr c w s
  | .xor c w => Sys2Proof.Machine.execXor c w s
  | .sll c w => Sys2Proof.Machine.execSll c w s
  | .srl c w => Sys2Proof.Machine.execSrl c w s
  | .sra c w => Sys2Proof.Machine.execSra c w s
  | .slt c w => Sys2Proof.Machine.execSlt c w s
  | .sltu c w => Sys2Proof.Machine.execSltu c w s
  | .mul c w => Sys2Proof.Machine.execMul c w s
  | .mulh c w => Sys2Proof.Machine.execMulh c w s
  | .min c w => Sys2Proof.Machine.execMin c w s
  | .max c w => Sys2Proof.Machine.execMax c w s
  | .eq c w => Sys2Proof.Machine.execEq c w s
  | .ne c w => Sys2Proof.Machine.execNe c w s
  | .addi c w => Sys2Proof.Machine.execAddi c w s
  | .subi c w => Sys2Proof.Machine.execSubi c w s
  | .andi c w => Sys2Proof.Machine.execAndi c w s
  | .ori c w => Sys2Proof.Machine.execOri c w s
  | .xori c w => Sys2Proof.Machine.execXori c w s
  | .slli c w => Sys2Proof.Machine.execSlli c w s
  | .srli c w => Sys2Proof.Machine.execSrli c w s
  | .srai c w => Sys2Proof.Machine.execSrai c w s
  | .slti c w => Sys2Proof.Machine.execSlti c w s
  | .sltui c w => Sys2Proof.Machine.execSltui c w s
  | .muli c w => Sys2Proof.Machine.execMuli c w s
  | .mulhi c w => Sys2Proof.Machine.execMulhi c w s
  | .mini c w => Sys2Proof.Machine.execMini c w s
  | .maxi c w => Sys2Proof.Machine.execMaxi c w s
  | .eqi c w => Sys2Proof.Machine.execEqi c w s
  | .nei c w => Sys2Proof.Machine.execNei c w s
  | .beq c w => Sys2Proof.Machine.execBeq c w s
  | .bne c w => Sys2Proof.Machine.execBne c w s
  | .blt c w => Sys2Proof.Machine.execBlt c w s
  | .bge c w => Sys2Proof.Machine.execBge c w s
  | .bltu c w => Sys2Proof.Machine.execBltu c w s
  | .bgeu c w => Sys2Proof.Machine.execBgeu c w s
  | .j c w => Sys2Proof.Machine.execJ c w s
  | .jal c w => Sys2Proof.Machine.execJal c w s
  | .jr c w => Sys2Proof.Machine.execJr c w s
  | .loop c w => Sys2Proof.Machine.execLoop c w s
  | .aset c w => Sys2Proof.Machine.execAset c w s
  | .ainc c w => Sys2Proof.Machine.execAinc c w s
  | .aadd c w => Sys2Proof.Machine.execAadd c w s
  | .aget c w => Sys2Proof.Machine.execAget c w s
  | .lw c w => Sys2Proof.Machine.execLw c w s
  | .sw c w => Sys2Proof.Machine.execSw c w s
  | .la c w => Sys2Proof.Machine.execLa c w s
  | .sa c w => Sys2Proof.Machine.execSa c w s
  | .vld c w => Sys2Proof.Machine.execVld c w s
  | .vst c w => Sys2Proof.Machine.execVst c w s
  | .rlw c w => Sys2Proof.Machine.execRlw c w s
  | .rsw c w => Sys2Proof.Machine.execRsw c w s
  | .vadd c w => Sys2Proof.Machine.execVadd c w s
  | .vsub c w => Sys2Proof.Machine.execVsub c w s
  | .vmul c w => Sys2Proof.Machine.execVmul c w s
  | .vfma c w => Sys2Proof.Machine.execVfma c w s
  | .vmin c w => Sys2Proof.Machine.execVmin c w s
  | .vmax c w => Sys2Proof.Machine.execVmax c w s
  | .vabs c w => Sys2Proof.Machine.execVabs c w s
  | .vneg c w => Sys2Proof.Machine.execVneg c w s
  | .vcmp c w => Sys2Proof.Machine.execVcmp c w s
  | .vsel c w => Sys2Proof.Machine.execVsel c w s
  | .vmov c w => Sys2Proof.Machine.execVmov c w s
  | .vbcast c w => Sys2Proof.Machine.execVbcast c w s
  | .vand c w => Sys2Proof.Machine.execVand c w s
  | .vor c w => Sys2Proof.Machine.execVor c w s
  | .vxor c w => Sys2Proof.Machine.execVxor c w s
  | .vshl c w => Sys2Proof.Machine.execVshl c w s
  | .vrsum c w => Sys2Proof.Machine.execVrsum c w s
  | .vrmax c w => Sys2Proof.Machine.execVrmax c w s
  | .vrmin c w => Sys2Proof.Machine.execVrmin c w s
  | .vramax c w => Sys2Proof.Machine.execVramax c w s
  | .vperm c w => Sys2Proof.Machine.execVperm c w s
  | .vslide c w => Sys2Proof.Machine.execVslide c w s
  | .vext c w => Sys2Proof.Machine.execVext c w s
  | .vins c w => Sys2Proof.Machine.execVins c w s
  | .vexp2 c w => Sys2Proof.Machine.execVexp2 c w s
  | .vexp c w => Sys2Proof.Machine.execVexp c w s
  | .vlog2 c w => Sys2Proof.Machine.execVlog2 c w s
  | .vln c w => Sys2Proof.Machine.execVln c w s
  | .vrcp c w => Sys2Proof.Machine.execVrcp c w s
  | .vrsqrt c w => Sys2Proof.Machine.execVrsqrt c w s
  | .vsqrt c w => Sys2Proof.Machine.execVsqrt c w s
  | .vtanh c w => Sys2Proof.Machine.execVtanh c w s
  | .vsigm c w => Sys2Proof.Machine.execVsigm c w s
  | .verf c w => Sys2Proof.Machine.execVerf c w s
  | .vsin c w => Sys2Proof.Machine.execVsin c w s
  | .vcos c w => Sys2Proof.Machine.execVcos c w s
  | .strig c w => Sys2Proof.Machine.execStrig c w s
  | .swait c w => Sys2Proof.Machine.execSwait c w s
  | .sstat c w => Sys2Proof.Machine.execSstat c w s
  | .qsend c w => Sys2Proof.Machine.execQsend c w s
  | .qsendn c w => Sys2Proof.Machine.execQsendn c w s
  | .qsendr c w => Sys2Proof.Machine.execQsendr c w s
  | .qsendrn c w => Sys2Proof.Machine.execQsendrn c w s
  | .qbind c w => Sys2Proof.Machine.execQbind c w s
  | .qunbind c w => Sys2Proof.Machine.execQunbind c w s
  | .qpop c w => Sys2Proof.Machine.execQpop c w s
  | .qcount c w => Sys2Proof.Machine.execQcount c w s
  | .qcreate c w => Sys2Proof.Machine.execQcreate c w s
  | .qdestroy c w => Sys2Proof.Machine.execQdestroy c w s
  | .bar c w => Sys2Proof.Machine.execBar c w s
  | .bara c w => Sys2Proof.Machine.execBara c w s
  | .barw c w => Sys2Proof.Machine.execBarw c w s
  | .phstart c w => Sys2Proof.Machine.execPhstart c w s
  | .phend c w => Sys2Proof.Machine.execPhend c w s
  | .csrr c w => Sys2Proof.Machine.execCsrr c w s
  | .csrw c w => Sys2Proof.Machine.execCsrw c w s
  | .nop c w => Sys2Proof.Machine.execNop c w s
  | .fence c w => Sys2Proof.Machine.execFence c w s
  | .trap c w => Sys2Proof.Machine.execTrap c w s
  | .halt c w => Sys2Proof.Machine.execHalt c w s
  | .resume r c => Sys2Proof.Machine.execResume r c s
  | .skip r c => Sys2Proof.Machine.execSkip r c s
  | .goto r c newpc => Sys2Proof.Machine.execGoto r c newpc s
  | .trapctlStop r c => Sys2Proof.Machine.execTrapctlStop r c s
  | .csSregWrite r c n v => Sys2Proof.Machine.execCsSregWrite r c n v s
  | .csAregWrite r c n high v => Sys2Proof.Machine.execCsAregWrite r c n high v s
  | .bankGrant c bank a => Sys2Proof.Machine.execBankGrant c bank a s
  | .bankBackoffExpiry c bank q => Sys2Proof.Machine.execBankBackoffExpiry c bank q s
  | .eccWriteback c word => Sys2Proof.Machine.execEccWriteback c word s
  | .rowMapOut c row => Sys2Proof.Machine.execRowMapOut c row s
  | .mapOutComplete c => Sys2Proof.Machine.execMapOutComplete c s
  | .patrolScrub c bank e => Sys2Proof.Machine.execPatrolScrub c bank e s
  | .zero r c => Sys2Proof.Machine.execZero r c s
  | .zeroComplete c => Sys2Proof.Machine.execZeroComplete c s
  | .rcinv r c => Sys2Proof.Machine.execRcinv r c s
  | .rcinvComplete c => Sys2Proof.Machine.execRcinvComplete c s
  | .token d seq crc => Sys2Proof.Machine.execToken d seq crc s
  | .flitForward c port slot ecc => Sys2Proof.Machine.execFlitForward c port slot ecc s
  | .flitExpire c port => Sys2Proof.Machine.execFlitExpire c port s
  | .streamRunStart d ix => Sys2Proof.Machine.execStreamRunStart d ix s
  | .streamRunComplete d ix => Sys2Proof.Machine.execStreamRunComplete d ix s
  | .scredit n ix count => Sys2Proof.Machine.execScredit n ix count s
  | .streamStall d ix => Sys2Proof.Machine.execStreamStall d ix s
  | .streamStop r d ix => Sys2Proof.Machine.execStreamStop r d ix s
  | .swap r d => Sys2Proof.Machine.execSwap r d s
  | .fallbackSwap d => Sys2Proof.Machine.execFallbackSwap d s
  | .verdict dest v => Sys2Proof.Machine.execVerdict dest v s
  | .trapPacket c code dest own => Sys2Proof.Machine.execTrapPacket c code dest own s
  | .error col e => Sys2Proof.Machine.execError col e s
  | .intr dest cause => Sys2Proof.Machine.execIntr dest cause s
  | .ctrl dest cmd => Sys2Proof.Machine.execCtrl dest cmd s
  | .qmsg c m => Sys2Proof.Machine.execQmsg c m s
  | .flush c handle => Sys2Proof.Machine.execFlush c handle s
  | .qcredit n handle entries lines => Sys2Proof.Machine.execQcredit n handle entries lines s
  | .qcreditTimer c q => Sys2Proof.Machine.execQcreditTimer c q s
  | .rdreq src tag mga fill => Sys2Proof.Machine.execRdreq src tag mga fill s
  | .rdrsp c tag fault data => Sys2Proof.Machine.execRdrsp c tag fault data s
  | .wrreq src tag mga data => Sys2Proof.Machine.execWrreq src tag mga data s
  | .wrrsp c tag ok => Sys2Proof.Machine.execWrrsp c tag ok s
  | .parison src pkt => Sys2Proof.Machine.execParison src pkt s
  | .handleCreate n handle ring depth lines => Sys2Proof.Machine.execHandleCreate n handle ring depth lines s
  | .handleDestroy n handle => Sys2Proof.Machine.execHandleDestroy n handle s
  | .handlePurge d => Sys2Proof.Machine.execHandlePurge d s
  | .handleAck c handle fail => Sys2Proof.Machine.execHandleAck c handle fail s
  | .cnTimeout c tag => Sys2Proof.Machine.execCnTimeout c tag s
  | .barrierRelease d g => Sys2Proof.Machine.execBarrierRelease d g s
  | .barrierStall d g => Sys2Proof.Machine.execBarrierStall d g s
  | .syncParity d bundle at_ => Sys2Proof.Machine.execSyncParity d bundle at_ s
  | .sync m seq crc => Sys2Proof.Machine.execSync m seq crc s
  | .ringRelease c q count => Sys2Proof.Machine.execRingRelease c q count s
  | .cqCmdDestroy r c q => Sys2Proof.Machine.execCqCmdDestroy r c q s
  | .blockedSend c => Sys2Proof.Machine.execBlockedSend c s
  | .deadlockResolve col a b => Sys2Proof.Machine.execDeadlockResolve col a b s
  | .load r => Sys2Proof.Machine.execLoad r s
  | .abort r => Sys2Proof.Machine.execAbort r s
  | .parisonCheckComplete => Sys2Proof.Machine.execParisonCheckComplete s
  | .parisonApply => Sys2Proof.Machine.execParisonApply s
  | .segmentApply => Sys2Proof.Machine.execSegmentApply s
  | .quiesceTo => Sys2Proof.Machine.execQuiesceTo s
  | .parisonSectionAck d sect => Sys2Proof.Machine.execParisonSectionAck d sect s
  | .stepBoundary => Sys2Proof.Machine.execStepBoundary s
  | .linkGroupReceive p errs grp => Sys2Proof.Machine.execLinkGroupReceive p errs grp s
  | .ackTimeout p => Sys2Proof.Machine.execAckTimeout p s
  | .sbHold d p ix seq crc => Sys2Proof.Machine.execSbHold d p ix seq crc s
  | .sbRelease d p ix seq crc => Sys2Proof.Machine.execSbRelease d p ix seq crc s
  | .steer p lane spare at_ => Sys2Proof.Machine.execSteer p lane spare at_ s
  | .width p width at_ => Sys2Proof.Machine.execWidth p width at_ s
  | .steerAck p lane spare at_ => Sys2Proof.Machine.execSteerAck p lane spare at_ s
  | .widthAck p width at_ => Sys2Proof.Machine.execWidthAck p width at_ s
  | .retrain r p => Sys2Proof.Machine.execRetrain r p s
  | .linkTrainingComplete p ok near far latency => Sys2Proof.Machine.execLinkTrainingComplete p ok near far latency s
  | .sbScredit d p ix count seq crc => Sys2Proof.Machine.execSbScredit d p ix count seq crc s
  | .mark d m seq crc => Sys2Proof.Machine.execMark d m seq crc s
  | .sbread d off seq crc => Sys2Proof.Machine.execSbread d off seq crc s
  | .sbnak p m => Sys2Proof.Machine.execSbnak p m s
  | .clklost d seq crc => Sys2Proof.Machine.execClklost d seq crc s
  | .ident p m => Sys2Proof.Machine.execIdent p m s
  | .laneMarker p lane mark => Sys2Proof.Machine.execLaneMarker p lane mark s
  | .cblChange p present => Sys2Proof.Machine.execCblChange p present s
  | .refresh k pc => Sys2Proof.Machine.execRefresh k pc s
  | .stackGrant k pc o => Sys2Proof.Machine.execStackGrant k pc o s
  | .stackBackoffExpiry k pc q => Sys2Proof.Machine.execStackBackoffExpiry k pc q s
  | .selfRefreshEntry k => Sys2Proof.Machine.execSelfRefreshEntry k s
  | .selfRefreshExit k => Sys2Proof.Machine.execSelfRefreshExit k s
  | .pass1Complete k l => Sys2Proof.Machine.execPass1Complete k l s
  | .pass2Complete k l => Sys2Proof.Machine.execPass2Complete k l s
  | .updateTimeout k l => Sys2Proof.Machine.execUpdateTimeout k l s
  | .layerLost k l => Sys2Proof.Machine.execLayerLost k l s
  | .stackZero r k => Sys2Proof.Machine.execStackZero r k s
  | .stackZeroComplete k => Sys2Proof.Machine.execStackZeroComplete k s
  | .copy r k l => Sys2Proof.Machine.execCopy r k l s
  | .layerCopyComplete k l => Sys2Proof.Machine.execLayerCopyComplete k l s
  | .stackScrub k => Sys2Proof.Machine.execStackScrub k s
  | .puntyWatchdog p => Sys2Proof.Machine.execPuntyWatchdog p s
  | .functionLevelReset => Sys2Proof.Machine.execFunctionLevelReset s
  | .hotReset => Sys2Proof.Machine.execHotReset s
  | .linkDown => Sys2Proof.Machine.execLinkDown s
  | .d3hotEntry => Sys2Proof.Machine.execD3hotEntry s
  | .d0Return => Sys2Proof.Machine.execD0Return s
  | .hostCompletion id c => Sys2Proof.Machine.execHostCompletion id c s
  | .completionTimeout id => Sys2Proof.Machine.execCompletionTimeout id s
  | .bar2Read o n => Sys2Proof.Machine.execBar2Read o n s
  | .bar2Write o data => Sys2Proof.Machine.execBar2Write o data s
  | .ideSecureLoss => Sys2Proof.Machine.execIdeSecureLoss s
  | .sqTailDoorbell slot t => Sys2Proof.Machine.execSqTailDoorbell slot t s
  | .cqHeadDoorbell slot h => Sys2Proof.Machine.execCqHeadDoorbell slot h s
  | .slotEnable r slot => Sys2Proof.Machine.execSlotEnable r slot s
  | .slotDisable r slot => Sys2Proof.Machine.execSlotDisable r slot s
  | .entryFetch slot data => Sys2Proof.Machine.execEntryFetch slot data s
  | .sqNop slot => Sys2Proof.Machine.execSqNop slot s
  | .copyIn slot => Sys2Proof.Machine.execCopyIn slot s
  | .zfill slot => Sys2Proof.Machine.execZfill slot s
  | .copyOut slot => Sys2Proof.Machine.execCopyOut slot s
  | .send slot => Sys2Proof.Machine.execSend slot s
  | .sendr slot => Sys2Proof.Machine.execSendr slot s
  | .awaitRun slot => Sys2Proof.Machine.execAwaitRun slot s
  | .stepWait slot => Sys2Proof.Machine.execStepWait slot s
  | .stepGo slot => Sys2Proof.Machine.execStepGo slot s
  | .query slot => Sys2Proof.Machine.execQuery slot s
  | .hostCopyComplete slot => Sys2Proof.Machine.execHostCopyComplete slot s
  | .sendtoExpiry slot tag => Sys2Proof.Machine.execSendtoExpiry slot tag s
  | .irqModerationTimeout slot => Sys2Proof.Machine.execIrqModerationTimeout slot s
  | .stepHoldWrite r v => Sys2Proof.Machine.execStepHoldWrite r v s
  | .stepctlGo r => Sys2Proof.Machine.execStepctlGo r s
  | .mailboxCommit r m tag => Sys2Proof.Machine.execMailboxCommit r m tag s
  | .mailboxRelease r m => Sys2Proof.Machine.execMailboxRelease r m s
  | .mailboxStatusRead m => Sys2Proof.Machine.execMailboxStatusRead m s
  | .powerEstimate d p => Sys2Proof.Machine.execPowerEstimate d p s
  | .kcalCalibrate d mw => Sys2Proof.Machine.execKcalCalibrate d mw s
  | .crzoffDecay d => Sys2Proof.Machine.execCrzoffDecay d s
  | .senseInvalid d f => Sys2Proof.Machine.execSenseInvalid d f s
  | .islandShort d isl => Sys2Proof.Machine.execIslandShort d isl s
  | .vddlTrip d => Sys2Proof.Machine.execVddlTrip d s
  | .boostExpiry g => Sys2Proof.Machine.execBoostExpiry g s
  | .staging d isl => Sys2Proof.Machine.execStaging d isl s
  | .stagedSwitchClose d isl => Sys2Proof.Machine.execStagedSwitchClose d isl s
  | .wakeComplete c => Sys2Proof.Machine.execWakeComplete c s
  | .inputSample mv ma => Sys2Proof.Machine.execInputSample mv ma s
  | .capShareUpdate => Sys2Proof.Machine.execCapShareUpdate s
  | .capStep d => Sys2Proof.Machine.execCapStep d s
  | .thermalTrip d => Sys2Proof.Machine.execThermalTrip d s
  | .hubThermalTrip => Sys2Proof.Machine.execHubThermalTrip s
  | .stackThermalTrip k => Sys2Proof.Machine.execStackThermalTrip k s
  | .faultEvent e => Sys2Proof.Machine.execFaultEvent e s
  | .dieResetComplete d ok => Sys2Proof.Machine.execDieResetComplete d ok s
  | .scanStart r d => Sys2Proof.Machine.execScanStart r d s
  | .scanComplete d pass pattern => Sys2Proof.Machine.execScanComplete d pass pattern s
  | .rotation d => Sys2Proof.Machine.execRotation d s
  | .forcedRecall r g => Sys2Proof.Machine.execForcedRecall r g s
  | .gatherHold r g => Sys2Proof.Machine.execGatherHold r g s
  | .gatherRelease r g => Sys2Proof.Machine.execGatherRelease r g s
  | .refetch r d ix => Sys2Proof.Machine.execRefetch r d ix s
  | .stopTimeout c noRefetch => Sys2Proof.Machine.execStopTimeout c noRefetch s
  | .pldmEventRetry tr e => Sys2Proof.Machine.execPldmEventRetry tr e s
  | .pwrEnAssert mv lowMs => Sys2Proof.Machine.execPwrEnAssert mv lowMs s
  | .coldStart => Sys2Proof.Machine.execColdStart s
  | .coldStartStageEnd r => Sys2Proof.Machine.execColdStartStageEnd r s
  | .selftestTimeout c => Sys2Proof.Machine.execSelftestTimeout c s
  | .configRetryEnd => Sys2Proof.Machine.execConfigRetryEnd s
  | .warm r full => Sys2Proof.Machine.execWarm r full s
  | .dieRst r d full => Sys2Proof.Machine.execDieRst r d full s
  | .getVersion c => Sys2Proof.Machine.execGetVersion c s
  | .getCapabilities c => Sys2Proof.Machine.execGetCapabilities c s
  | .negotiateAlgorithms c offered => Sys2Proof.Machine.execNegotiateAlgorithms c offered s
  | .getDigests c => Sys2Proof.Machine.execGetDigests c s
  | .getCertificate c slot => Sys2Proof.Machine.execGetCertificate c slot s
  | .challenge c nonce => Sys2Proof.Machine.execChallenge c nonce s
  | .getMeasurements c nonce => Sys2Proof.Machine.execGetMeasurements c nonce s
  | .keyExchange c => Sys2Proof.Machine.execKeyExchange c s
  | .finish c leaf => Sys2Proof.Machine.execFinish c leaf s
  | .heartbeat c => Sys2Proof.Machine.execHeartbeat c s
  | .keyUpdate c => Sys2Proof.Machine.execKeyUpdate c s
  | .endSession c => Sys2Proof.Machine.execEndSession c s
  | .claim c o => Sys2Proof.Machine.execClaim c o s
  | .release c => Sys2Proof.Machine.execRelease c s
  | .setKeys c k => Sys2Proof.Machine.execSetKeys c k s
  | .installLicence c lic => Sys2Proof.Machine.execInstallLicence c lic s
  | .fwStage c w => Sys2Proof.Machine.execFwStage c w s
  | .fwCommit c svn => Sys2Proof.Machine.execFwCommit c svn s
  | .ownerInfo c => Sys2Proof.Machine.execOwnerInfo c s
  | .setEndpointId tr eid => Sys2Proof.Machine.execSetEndpointId tr eid s
  | .getEndpointId tr => Sys2Proof.Machine.execGetEndpointId tr s
  | .getMctpVersionSupport tr ty => Sys2Proof.Machine.execGetMctpVersionSupport tr ty s
  | .getMessageTypeSupport tr => Sys2Proof.Machine.execGetMessageTypeSupport tr s
  | .getVendorDefinedMessageSupport tr sel => Sys2Proof.Machine.execGetVendorDefinedMessageSupport tr sel s
  | .unsupportedMctpMessage tr ty => Sys2Proof.Machine.execUnsupportedMctpMessage tr ty s
  | .pldmMessage tr m => Sys2Proof.Machine.execPldmMessage tr m s
  | .getReport tr n => Sys2Proof.Machine.execGetReport tr n s
  | .warmReset tr full => Sys2Proof.Machine.execWarmReset tr full s
  | .mctpInstallLicence tr lic => Sys2Proof.Machine.execMctpInstallLicence tr lic s
  | .readFaultLog tr id n => Sys2Proof.Machine.execReadFaultLog tr id n s
  | .entdaa addr => Sys2Proof.Machine.execEntdaa addr s
  | .rstdaa => Sys2Proof.Machine.execRstdaa s
  | .getpid => Sys2Proof.Machine.execGetpid s
  | .getbcr => Sys2Proof.Machine.execGetbcr s
  | .getdcr => Sys2Proof.Machine.execGetdcr s
  | .getmrl => Sys2Proof.Machine.execGetmrl s
  | .getmwl => Sys2Proof.Machine.execGetmwl s
  | .enec ibi => Sys2Proof.Machine.execEnec ibi s
  | .disec ibi => Sys2Proof.Machine.execDisec ibi s
  | .rstact action => Sys2Proof.Machine.execRstact action s
  | .sensorRefresh => Sys2Proof.Machine.execSensorRefresh s
  | .jkHelp len => Sys2Proof.Machine.execJkHelp len s
  | .jkBaud len rate => Sys2Proof.Machine.execJkBaud len rate s
  | .jkId len => Sys2Proof.Machine.execJkId len s
  | .jkFaults len => Sys2Proof.Machine.execJkFaults len s
  | .jkGather len d => Sys2Proof.Machine.execJkGather len d s
  | .jkPower len => Sys2Proof.Machine.execJkPower len s
  | .jkIsland len d n => Sys2Proof.Machine.execJkIsland len d n s
  | .jkClk len => Sys2Proof.Machine.execJkClk len s
  | .jkLog len first n => Sys2Proof.Machine.execJkLog len first n s
  | .jkPeek len mga n => Sys2Proof.Machine.execJkPeek len mga n s
  | .jkPoke len mga v => Sys2Proof.Machine.execJkPoke len mga v s
  | .jkEye len p lane counts retrained => Sys2Proof.Machine.execJkEye len p lane counts retrained s
  | .jkScan len d row col => Sys2Proof.Machine.execJkScan len d row col s
  | .jkParison len => Sys2Proof.Machine.execJkParison len s
  | .jkParisonDump len sect => Sys2Proof.Machine.execJkParisonDump len sect s
  | .jkWarm len full => Sys2Proof.Machine.execJkWarm len full s
  | .jkCtrlC => Sys2Proof.Machine.execJkCtrlC s
  | .jkRecover len w => Sys2Proof.Machine.execJkRecover len w s
  | .bypass => Sys2Proof.Machine.execBypass s
  | .idcode => Sys2Proof.Machine.execIdcode s
  | .samplePreload => Sys2Proof.Machine.execSamplePreload s
  | .extest => Sys2Proof.Machine.execExtest s
  | .clamp => Sys2Proof.Machine.execClamp s
  | .highz => Sys2Proof.Machine.execHighz s
  | .extestPulse => Sys2Proof.Machine.execExtestPulse s
  | .extestTrain => Sys2Proof.Machine.execExtestTrain s
  | .inputUndervoltage => Sys2Proof.Machine.execInputUndervoltage s
  | .inputOvervoltage mv => Sys2Proof.Machine.execInputOvervoltage mv s
  | .inputOvercurrent => Sys2Proof.Machine.execInputOvercurrent s
  | .inputFail => Sys2Proof.Machine.execInputFail s
  | .pwrEnDeassert => Sys2Proof.Machine.execPwrEnDeassert s
  | .perstAssert => Sys2Proof.Machine.execPerstAssert s
  | .perstDeassert => Sys2Proof.Machine.execPerstDeassert s
  | .mrefTimeout => Sys2Proof.Machine.execMrefTimeout s
  | .strapInputChange btest level => Sys2Proof.Machine.execStrapInputChange btest level s
  | .leak => Sys2Proof.Machine.execLeak s
  | .ideKm c => Sys2Proof.Machine.execIdeKm c s
  | .pcieLinkUp => Sys2Proof.Machine.execPcieLinkUp s
  | .doeDiscovery index => Sys2Proof.Machine.execDoeDiscovery index s
  | .unsupportedSpdmRequest c code => Sys2Proof.Machine.execUnsupportedSpdmRequest c code s
  | .illegal c => Sys2Proof.Machine.execIllegal c s
  | .imemUe c => Sys2Proof.Machine.execImemUe c s
  | .portClockLoss d p => Sys2Proof.Machine.execPortClockLoss d p s
  | .sensePairValid d f => Sys2Proof.Machine.execSensePairValid d f s
  | .inputReturn => Sys2Proof.Machine.execInputReturn s

end Sys2Proof.Machine
end

