-- ==== Sys2Proof/Machine/Tick.lean ====
section
/-! DEFINITION. One HCLK of the module (R48-R51, R68): what its counters of time count, and the end of a release (R573). It is
what a step does when no command waits. -/

namespace Sys2Proof.Machine

/-- An ACLK in which the scoreboard holds the instruction at a core's PC is counted, as held against an entry and as short of entries
(R239, R240, R267). -/
def sbCount (s : State) (c : CoreId) : State :=
  match (s.cx c).sbHeld with
  | some (pc, new) =>
    if canIssue s c && s.cst c == stRun && s.pc c == pc then
      let s1 := if sbHolds (s.cx c).sb new then s.bump Reg.CP_SBHOLD_COUNT (coreU c) else s
      if sbFull (s.cx c).sb new then s1.bump Reg.CP_SBFULL_COUNT (coreU c) else s1
    else s
  | none => s

/-- What one ACLK of a core counts (R68, R91, R267, R367): its cycle count, issue held by the scoreboard, WAIT_SEND, rows missing at the
arrays and a swap that waits for its load. -/
def aclkTick (s : State) (c : CoreId) : State :=
  let u := coreU c
  let s1 := sbCount (s.bump64 Reg.CS_CYCLE_COUNT u) c
  let s2 := if s1.cst c = stWaitSend ∧ coreLive s1 c then s1.bump Reg.CQ_WAITS_COUNT u else s1
  let s3 := if rowsWait s2 c then s2.bump Reg.CA_STALLW_COUNT u else s2
  if swapWaits s3 c then s3.bump Reg.CA_STALLL_COUNT u else s3

/-- The counters of one core at HCLK `n`: NCLK at its router, ACLK in C0 to C2, µs in C2 or deeper (R68, R527). -/
def tickCore (n : Nat) (s : State) (c : CoreId) : State :=
  let u := coreU c
  let s1 := if n % nclkDiv s = 0 then s.bump64 Reg.DN_CYCLE_COUNT u else s
  let s2 := if cstateOf s c ≤ 2 ∧ aclkRuns s c ∧ n % aclkDiv s c = 0 then aclkTick s1 c else s1
  if 2 ≤ cstateOf s c ∧ n % 2800 = 0 then s2.bump Reg.LH_TDEEP_COUNT u else s2

/-- The counters of a port at an NCLK (R427). -/
def tickPort (s : State) (p : PortId) : State :=
  if rdP s p Reg.LK_STAT_HOLD Reg.LKH_STAT_HOLD = 0 then s
  else wrP s p Reg.LK_HOLDCYC_COUNT Reg.LKH_HOLDCYC_COUNT
    (satAdd 32 (rdP s p Reg.LK_HOLDCYC_COUNT Reg.LKH_HOLDCYC_COUNT) 1)

/-- The ports of a die that have counters. -/
def diePorts (d : DieId) : List PortId := (List.finRange 9).map fun p => .die d p

/-- The ports of the hub. -/
def hubPorts : List PortId := allDies.map PortId.hub ++ (List.finRange 8).map PortId.span

/-- A die at HCLK `n`, while it has its clock. -/
def tickDie (n : Nat) (s : State) (d : DieId) : State :=
  if s.rb Reg.BT_CLKSTAT_STOPPED d.val then s
  else
    let s1 := if n % 16 = 0 then s.setDx d { s.dx d with mclk := (s.dx d).mclk + 1 } else s
    let s2 := ((dieCores d).filter fun c => corePresent s c).foldl (tickCore n) s1
    if n % nclkDiv s = 0 then
      let s3 := (diePorts d).foldl tickPort s2
      offerSlots ([0, 1, 2, 3].foldl (fun t k =>
        if anyHeld t (4 * d.val + k) then bumpT t (4 * d.val + k) Reg.TS_HOLD_COUNT else t) s3) d
    else s2

/-- The seconds since holdover began (R51). -/
def tickHold (s : State) : State :=
  match s.chip.holdAt with
  | some t0 =>
    if s.rb Reg.HB_CLKSTAT_HOLDOVER 0 then
      s.wr Reg.HB_CLKSTAT_HOLD_SEC 0 (min (2 ^ Reg.HB_CLKSTAT_HOLD_SEC.w - 1) ((s.hclk - t0) / 2800000000))
    else s
  | none => s

/-- One HCLK passes. A load that waits in SEALING is sealed (DEDUCED, notes/assumptions/98). -/
def tick (s : State) : State :=
  let s0 := { s with hclk := s.hclk + 1 }
  if !s.chip.valid then s0
  else
    let s1 := allDies.foldl (fun t d => tickDie s0.hclk (dueCross t d) d) (lostControl (controlTick (endSealing s0)) 4)
    let s2 := if s0.hclk % nclkDiv s = 0 then hubPorts.foldl tickPort s1 else s1
    let s3 := if markDue s0.hclk then (List.finRange 8).foldl sendMarks s2 else s2
    endRelease (tickHold (sidebandTick s3))

end Sys2Proof.Machine
end

