-- ==== Sys2Proof/WellFormed.lean ====
section
/-! DEFINITION. Which commands are well formed: operands that a bit vector or a bounded number does not already hold to
their range. -/

namespace Sys2Proof

open Sys2Proof.Machine (Space)

/-- The scratchpad rows a map-out can name: bank [3:0], macro [7:4], row [16:8] (R246, R537). -/
def rowCount : Nat := 131072

/-- A CSR offset: word aligned, in 25 bits (R371). -/
def offOk (off : Nat) : Bool := decide (off < 2 ^ 25) && decide (off % 4 = 0)

/-- A CSR address names a unit of its space and a byte in its window (R45). -/
def addrOk (a : CsrAddr) : Bool :=
  decide (a.off < 2 ^ 25) && match a.space with
    | .core => decide (a.unit < 256)
    | .die => decide (a.unit < 4)
    | .hub => decide (a.unit = 0)

/-- What a check of a flit finds: at most the 17 words of its payload and header (R268). -/
def flitOk : FlitCheck → Bool
  | .fixed n => decide (1 ≤ n ∧ n ≤ 17)
  | _ => true

/-- An offer of a bank: a requester at least, each once, a line of the bank and a word of it (R233). -/
def bankOk (a : BankAccess) : Bool := !a.reqs.isEmpty && decide (a.reqs.Nodup) && decide (a.word < 2 ^ 22)

/-- A queue depth (R338). -/
def depthOk (n : Nat) : Bool := [8, 16, 32, 64].contains n

/-- A queue message's body: a record's packet holds 1 to 4 whole lines (R354), a pad at least one line (R351). -/
def bodyOk : QBody → Bool
  | .entry .. => true
  | .ring _ data push => decide (data.length ≤ 256 ∧ data.length % 64 = 0) && (push.isSome || decide (1 ≤ data.length))
  | .pad _ lines _ => decide (1 ≤ lines)

/-- A PARISON broadcast: 1 to 64 words at an aligned offset (R319, R371). -/
def pktOk (p : ParisonPkt) : Bool := decide (1 ≤ p.words.length ∧ p.words.length ≤ 64) && offOk p.off

/-- A span group has 30 link flits (R418). -/
def spanOk (g : SpanGroup) : Bool := decide (g.flits.length = 30)

/-- A power sample: 16 islands, 4 sense pairs, 4 stacks and 4 sensors of the hub (R507, R524). -/
def sampleOk (p : PowerSample) : Bool :=
  decide (p.islands.length = 16 ∧ p.sense.length = 4 ∧ p.stackSt.length = 4 ∧ p.hub.length = 4)

/-- The counts of an eye scan: one of 64 steps, or a span lane's error rate (R592). -/
def eyeOk (p : PortId) (counts : List Nat) : Bool :=
  match p with
  | .span _ => decide (counts.length = 1)
  | _ => decide (counts.length = 64)

/-- A unit of the fault log: a die, the hub, or a stack (R537). -/
def unitOk (u : Nat) : Bool := decide (u ≤ 4 ∨ 16 ≤ u ∧ u < 32)

/-- A fault event (R529, R537). -/
def eventOk (e : FaultEvent) : Bool := unitOk e.unit && decide (e.code < 2 ^ 16) && decide (e.detail.length ≤ 10)

/-- A report's event (R535). -/
def reportOk : ErrorReport → Bool
  | .event e => eventOk e
  | .info e => eventOk e
  | .record r => unitOk r.unit && decide (r.event < 2 ^ 16)

/-- An owner record has four places for parison keys (R571). -/
def ownerOk (o : Owner) : Bool := decide (o.pzKeys.length = 4)

/-- A command is well formed. -/
def Instr.wellFormed (i : Instr) : Bool :=
  match i with
  | .registerWrite _ at_ bytes _ => addrOk at_ && decide (1 ≤ bytes ∧ bytes ≤ 4)
  | .lowWordLatchRead _ at_ => addrOk at_.addr && decide (1 ≤ at_.bytes ∧ at_.bytes ≤ 4)
  | .fenceReq .. => true
  | .fenceShift .. => true
  | .shiftComplete .. => true
  | .slotIdChange .. => true
  | .refLost => true
  | .relock => true
  | .holdExpired => true
  | .crossSlip .. => true
  | .aclkRequest .. => true
  | .aclkRatioChange .. => true
  | .marginSample .. => true
  | .crzLevelWrite .. => true
  | .clockLost .. => true
  | .stop .. => true
  | .mpass .. => true
  | .mwait .. => true
  | .tileLoadComplete .. => true
  | .passSwap .. => true
  | .rowGroupEntry .. => true
  | .passComplete .. => true
  | .cvt .. => true
  | .cvtx .. => true
  | .cvts .. => true
  | .sclx .. => true
  | .shadowRecompute .. => true
  | .sealVerdict .. => true
  | .rerunStart .. => true
  | .add .. => true
  | .sub .. => true
  | .and .. => true
  | .or .. => true
  | .xor .. => true
  | .sll .. => true
  | .srl .. => true
  | .sra .. => true
  | .slt .. => true
  | .sltu .. => true
  | .mul .. => true
  | .mulh .. => true
  | .min .. => true
  | .max .. => true
  | .eq .. => true
  | .ne .. => true
  | .addi .. => true
  | .subi .. => true
  | .andi .. => true
  | .ori .. => true
  | .xori .. => true
  | .slli .. => true
  | .srli .. => true
  | .srai .. => true
  | .slti .. => true
  | .sltui .. => true
  | .muli .. => true
  | .mulhi .. => true
  | .mini .. => true
  | .maxi .. => true
  | .eqi .. => true
  | .nei .. => true
  | .beq .. => true
  | .bne .. => true
  | .blt .. => true
  | .bge .. => true
  | .bltu .. => true
  | .bgeu .. => true
  | .j .. => true
  | .jal .. => true
  | .jr .. => true
  | .loop .. => true
  | .aset .. => true
  | .ainc .. => true
  | .aadd .. => true
  | .aget .. => true
  | .lw .. => true
  | .sw .. => true
  | .la .. => true
  | .sa .. => true
  | .vld .. => true
  | .vst .. => true
  | .rlw .. => true
  | .rsw .. => true
  | .vadd .. => true
  | .vsub .. => true
  | .vmul .. => true
  | .vfma .. => true
  | .vmin .. => true
  | .vmax .. => true
  | .vabs .. => true
  | .vneg .. => true
  | .vcmp .. => true
  | .vsel .. => true
  | .vmov .. => true
  | .vbcast .. => true
  | .vand .. => true
  | .vor .. => true
  | .vxor .. => true
  | .vshl .. => true
  | .vrsum .. => true
  | .vrmax .. => true
  | .vrmin .. => true
  | .vramax .. => true
  | .vperm .. => true
  | .vslide .. => true
  | .vext .. => true
  | .vins .. => true
  | .vexp2 .. => true
  | .vexp .. => true
  | .vlog2 .. => true
  | .vln .. => true
  | .vrcp .. => true
  | .vrsqrt .. => true
  | .vsqrt .. => true
  | .vtanh .. => true
  | .vsigm .. => true
  | .verf .. => true
  | .vsin .. => true
  | .vcos .. => true
  | .strig .. => true
  | .swait .. => true
  | .sstat .. => true
  | .qsend .. => true
  | .qsendn .. => true
  | .qsendr .. => true
  | .qsendrn .. => true
  | .qbind .. => true
  | .qunbind .. => true
  | .qpop .. => true
  | .qcount .. => true
  | .qcreate .. => true
  | .qdestroy .. => true
  | .bar .. => true
  | .bara .. => true
  | .barw .. => true
  | .phstart .. => true
  | .phend .. => true
  | .csrr .. => true
  | .csrw .. => true
  | .nop .. => true
  | .fence .. => true
  | .trap .. => true
  | .halt .. => true
  | .resume .. => true
  | .skip .. => true
  | .goto .. => true
  | .trapctlStop .. => true
  | .csSregWrite .. => true
  | .csAregWrite .. => true
  | .bankGrant _ _ a => bankOk a
  | .bankBackoffExpiry .. => true
  | .eccWriteback _ word => decide (word < 2 ^ 22)
  | .rowMapOut _ row => decide (row < rowCount)
  | .mapOutComplete .. => true
  | .patrolScrub .. => true
  | .zero .. => true
  | .zeroComplete .. => true
  | .rcinv .. => true
  | .rcinvComplete .. => true
  | .token .. => true
  | .flitForward _ _ _ ecc => flitOk ecc.first && flitOk ecc.second
  | .flitExpire .. => true
  | .streamRunStart .. => true
  | .streamRunComplete .. => true
  | .scredit _ _ count => decide (1 ≤ count ∧ count ≤ 4096)
  | .streamStall .. => true
  | .streamStop .. => true
  | .swap .. => true
  | .fallbackSwap .. => true
  | .verdict .. => true
  | .trapPacket _ code dest own => decide (code < 32 ∧ dest < 2 ^ 32 ∧ own < 2 ^ 32)
  | .error _ e => reportOk e
  | .intr _ cause => decide (cause < 256)
  | .ctrl .. => true
  | .qmsg _ m => bodyOk m.body
  | .flush .. => true
  | .qcredit _ _ entries lines => decide (entries ≤ 64 ∧ lines ≤ 2 ^ 18)
  | .qcreditTimer .. => true
  | .rdreq .. => true
  | .rdrsp _ _ fault data => decide (data.length = 4 ∨ data.length = 256) || fault
  | .wrreq _ _ _ data => decide (1 ≤ data.length ∧ data.length ≤ 256)
  | .wrrsp .. => true
  | .parison _ pkt => pktOk pkt
  | .handleCreate _ _ _ depth lines => depthOk depth && decide (lines ≤ 2 ^ 18)
  | .handleDestroy .. => true
  | .handlePurge .. => true
  | .handleAck .. => true
  | .cnTimeout .. => true
  | .barrierRelease .. => true
  | .barrierStall .. => true
  | .syncParity .. => true
  | .sync .. => true
  | .ringRelease .. => true
  | .cqCmdDestroy .. => true
  | .blockedSend .. => true
  | .deadlockResolve .. => true
  | .load .. => true
  | .abort .. => true
  | .parisonCheckComplete => true
  | .parisonApply => true
  | .segmentApply => true
  | .quiesceTo => true
  | .parisonSectionAck _ sect => decide (sect < 4096)
  | .stepBoundary => true
  | .linkGroupReceive _ _ grp => grp.all spanOk
  | .ackTimeout .. => true
  | .sbHold .. => true
  | .sbRelease .. => true
  | .steer .. => true
  | .width .. => true
  | .steerAck .. => true
  | .widthAck .. => true
  | .retrain .. => true
  | .linkTrainingComplete .. => true
  | .sbScredit .. => true
  | .mark .. => true
  | .sbread _ off _ _ => offOk off
  | .sbnak .. => true
  | .clklost .. => true
  | .ident .. => true
  | .laneMarker .. => true
  | .cblChange .. => true
  | .refresh .. => true
  | .stackGrant .. => true
  | .stackBackoffExpiry .. => true
  | .selfRefreshEntry .. => true
  | .selfRefreshExit .. => true
  | .pass1Complete .. => true
  | .pass2Complete .. => true
  | .updateTimeout .. => true
  | .layerLost .. => true
  | .stackZero .. => true
  | .stackZeroComplete .. => true
  | .copy .. => true
  | .layerCopyComplete .. => true
  | .stackScrub .. => true
  | .puntyWatchdog .. => true
  | .functionLevelReset => true
  | .hotReset => true
  | .linkDown => true
  | .d3hotEntry => true
  | .d0Return => true
  | .hostCompletion .. => true
  | .completionTimeout .. => true
  | .bar2Read .. => true
  | .bar2Write .. => true
  | .ideSecureLoss => true
  | .sqTailDoorbell .. => true
  | .cqHeadDoorbell .. => true
  | .slotEnable .. => true
  | .slotDisable .. => true
  | .entryFetch _ data => decide (data.length % 64 = 0)
  | .sqNop .. => true
  | .copyIn .. => true
  | .zfill .. => true
  | .copyOut .. => true
  | .send .. => true
  | .sendr .. => true
  | .awaitRun .. => true
  | .stepWait .. => true
  | .stepGo .. => true
  | .query .. => true
  | .hostCopyComplete .. => true
  | .sendtoExpiry .. => true
  | .irqModerationTimeout .. => true
  | .stepHoldWrite .. => true
  | .stepctlGo .. => true
  | .mailboxCommit .. => true
  | .mailboxRelease .. => true
  | .mailboxStatusRead .. => true
  | .powerEstimate _ p => sampleOk p
  | .kcalCalibrate .. => true
  | .crzoffDecay .. => true
  | .senseInvalid .. => true
  | .islandShort .. => true
  | .vddlTrip .. => true
  | .boostExpiry .. => true
  | .staging .. => true
  | .stagedSwitchClose .. => true
  | .wakeComplete .. => true
  | .inputSample .. => true
  | .capShareUpdate => true
  | .capStep .. => true
  | .thermalTrip .. => true
  | .hubThermalTrip => true
  | .stackThermalTrip .. => true
  | .faultEvent e => eventOk e
  | .dieResetComplete .. => true
  | .scanStart .. => true
  | .scanComplete .. => true
  | .rotation .. => true
  | .forcedRecall .. => true
  | .gatherHold .. => true
  | .gatherRelease .. => true
  | .refetch .. => true
  | .stopTimeout .. => true
  | .pldmEventRetry .. => true
  | .pwrEnAssert .. => true
  | .coldStart => true
  | .coldStartStageEnd .. => true
  | .selftestTimeout .. => true
  | .configRetryEnd => true
  | .warm .. => true
  | .dieRst .. => true
  | .getVersion .. => true
  | .getCapabilities .. => true
  | .negotiateAlgorithms .. => true
  | .getDigests .. => true
  | .getCertificate .. => true
  | .challenge .. => true
  | .getMeasurements .. => true
  | .keyExchange .. => true
  | .finish .. => true
  | .heartbeat .. => true
  | .keyUpdate .. => true
  | .endSession .. => true
  | .claim _ o => ownerOk o
  | .release .. => true
  | .setKeys .. => true
  | .installLicence _ lic => decide (lic.length = 128)
  | .fwStage .. => true
  | .fwCommit .. => true
  | .ownerInfo .. => true
  | .setEndpointId .. => true
  | .getEndpointId .. => true
  | .getMctpVersionSupport .. => true
  | .getMessageTypeSupport .. => true
  | .getVendorDefinedMessageSupport .. => true
  | .unsupportedMctpMessage .. => true
  | .pldmMessage .. => true
  | .getReport .. => true
  | .warmReset .. => true
  | .mctpInstallLicence _ lic => decide (lic.length = 128)
  | .readFaultLog _ _ n => decide (1 ≤ n ∧ n ≤ 12)
  | .entdaa .. => true
  | .rstdaa => true
  | .getpid => true
  | .getbcr => true
  | .getdcr => true
  | .getmrl => true
  | .getmwl => true
  | .enec .. => true
  | .disec .. => true
  | .rstact .. => true
  | .sensorRefresh => true
  | .jkHelp .. => true
  | .jkBaud .. => true
  | .jkId .. => true
  | .jkFaults .. => true
  | .jkGather .. => true
  | .jkPower .. => true
  | .jkIsland .. => true
  | .jkClk .. => true
  | .jkLog _ _ n => decide (1 ≤ n)
  | .jkPeek _ _ n => decide (1 ≤ n ∧ n ≤ 256)
  | .jkPoke .. => true
  | .jkEye _ p _ counts _ => eyeOk p counts
  | .jkScan .. => true
  | .jkParison .. => true
  | .jkParisonDump _ sect => decide (sect < 4096)
  | .jkWarm .. => true
  | .jkCtrlC => true
  | .jkRecover .. => true
  | .bypass => true
  | .idcode => true
  | .samplePreload => true
  | .extest => true
  | .clamp => true
  | .highz => true
  | .extestPulse => true
  | .extestTrain => true
  | .inputUndervoltage => true
  | .inputOvervoltage mv => decide (50000 < mv)
  | .inputOvercurrent => true
  | .inputFail => true
  | .pwrEnDeassert => true
  | .perstAssert => true
  | .perstDeassert => true
  | .mrefTimeout => true
  | .strapInputChange .. => true
  | .leak => true
  | .ideKm .. => true
  | .pcieLinkUp => true
  | .doeDiscovery .. => true
  | .unsupportedSpdmRequest .. => true
  | .illegal .. => true
  | .imemUe .. => true
  | .portClockLoss .. => true
  | .sensePairValid .. => true
  | .inputReturn => true

end Sys2Proof
end

