-- ==== Sys2Proof/Safety.lean ====
section
/-! DEFINITION. What counts as a safe run, in the terms the statements use: when a core stands at an instruction, what
it leaves when it completes, and what a command may leave unchanged. -/

namespace Sys2Proof.Machine

/-- A state is safe when its memory is in canonical form. -/
abbrev Safe (s : State) : Prop := Memory.wf s.mem

/-- A core stands at an instruction word whose operand codes are those its form names and whose unused bits are 0
(R186-R188). -/
abbrev Issues (s : State) (c : CoreId) (opc : Nat) (f : Form) (w : IFields) : Prop :=
  atInstr s c opc w = true ∧ formOk f w = true

/-- The source code reads a value (R191): a scalar register, or a q port whose queue holds an entry. -/
abbrev Reads (s : State) (c : CoreId) (code : BitVec 6) (x : Word) (t : State) : Prop := readSrc s c code.toNat = .val x t

/-- Both sources read values, A first (R191). -/
def Reads2 (s : State) (c : CoreId) (w : IFields) (x y : Word) (t : State) : Prop :=
  ∃ s1, Reads s c w.a x s1 ∧ Reads s1 c w.b y t

/-- An instruction is complete: nothing holds its issue, the core runs, one instruction on (R186, R196, R267). -/
def completed (t : State) (c : CoreId) : State := advance ((unhold t c).setCst c stRun) c

/-- An instruction is complete with a scalar result. -/
def wroteS (t : State) (c : CoreId) (w : IFields) (v : Word) : State := completed (wrS t c w.d.toNat v) c

/-- An instruction is complete with a Marver register as its result. -/
def wroteV (t : State) (c : CoreId) (w : IFields) (v : VReg) : State := completed (wrV t c w.d.toNat v) c

/-- A lane operation is complete: the lanes in vD, the OR of their flags in CV_VFLAGS (R202, R223). -/
def wroteLanes (t : State) (c : CoreId) (w : IFields) (width : Nat) (l : List LaneRes) : State :=
  completed (addVFlags (wrV t c w.d.toNat (packV width (l.map Prod.fst))) c (l.foldl (fun f r => f.or r.2) {})) c

/-- A convert is complete: its elements from destination element `k` on, and its flags (R135, R142, R143). -/
def converted (t : State) (c : CoreId) (w : IFields) (k : Nat) (l : List ElemRes) : State :=
  completed (addCFlags (putElems t c (cvFD w) w.d.toNat k l) c (sumFlags l).1 (sumFlags l).2.1 (sumFlags l).2.2) c

/-- The operands with which a convert of `n` source elements runs: formats and an overflow mode that exist, pairs at even registers, and
PART in its range (R119, R135, R207). -/
abbrev ConvertTakes (w : IFields) (n : Nat) : Prop :=
  cvFS w ≤ 10 ∧ cvFD w ≤ 10 ∧ cvOM w ≠ 3 ∧ (cvFS w = 10 → w.a.toNat % 2 = 0) ∧ (cvFD w = 10 → w.d.toNat % 2 = 0) ∧
    (n ≤ fmtCount (cvFD w) → cvPart w < fmtCount (cvFD w) / n) ∧ (fmtCount (cvFD w) < n → cvPart w < n / fmtCount (cvFD w))

/-- The further operands of CVTX: a block size for the block form and none for the lane form, and a format of codes 3 to 9 on the
scaled side (R137). -/
abbrev ScaleTakes (w : IFields) : Prop :=
  (cvForm w = 0 → 1 ≤ cvBS w ∧ cvBS w ≤ 6) ∧ (cvForm w ≠ 0 → cvBS w = 0) ∧
    scalable (if cvSide w = 0 then cvFD w else cvFS w) = true

/-- The first source element, how many convert, and the first destination element (R135). -/
def convertSpan (w : IFields) (n : Nat) : Nat × Nat × Nat :=
  if n ≤ fmtCount (cvFD w) then (0, n, n * cvPart w) else (fmtCount (cvFD w) * cvPart w, fmtCount (cvFD w), 0)

/-- An element converted with the scale of CVTX at an index: by blocks or by lanes, to divide by or to multiply with
(R137). -/
def scaledTo (c : CoreId) (w : IFields) (s : State) (i : Nat) (v : Val) : ElemRes :=
  match scaleExp (bits (rdV s c w.b.toNat).toNat (8 * (if cvForm w = 0 then i / blkSize (cvBS w) else i % 256)) 8) with
  | none => convTo (cvFD w) (cvOM w) .nan
  | some x => convTo (cvFD w) (cvOM w) (v.scale (if cvSide w = 0 then -x else x))

/-- The source registers of CVTS: enough for one block (R138). -/
def cvtsRegs (w : IFields) : Nat := max 1 (blkSize (cvBS w) / fmtCount (cvFS w))

/-- The further operands of CVTS: a destination format of codes 3 to 9, a block size, and a group that starts at a multiple of its
size and ends within the registers (R138, R207). -/
abbrev GroupTakes (w : IFields) : Prop :=
  scalable (cvFD w) = true ∧ 1 ≤ cvBS w ∧ cvBS w ≤ 6 ∧ w.a.toNat % cvtsRegs w = 0 ∧
    w.a.toNat + cvtsRegs w * (if cvFS w = 10 then 2 else 1) ≤ 32

/-- The blocks of CVTS under the scale rule, from source element `k` on (R138-R140). -/
def cvtsBlocks (c : CoreId) (w : IFields) (s : State) (k n : Nat) : List (Nat × List ElemRes × CFlags) :=
  (chunks (blkSize (cvBS w)) n (((((List.range (cvtsRegs w)).flatMap fun i =>
    vecVals s c (cvFS w) (w.a.toNat + (if cvFS w = 10 then 2 else 1) * i)).drop k).take n).map
      (timesTmul (tmulOf s c w)))).map (scaleBlock (cvFD w) (cvOM w) (cvRule w))

/-- Control is at an instruction of the memory, with the loops that hold it still active (R195, R196). -/
def wentTo (t : State) (c : CoreId) (n : Nat) : State :=
  (setLoops ((unhold t c).setCst c stRun) c (loopsAfterJump n (t.cx c).loops)).wr Reg.CS_PC_PC (coreU c) n

/-- The lanes of a Marver register for the type an instruction names. -/
def lanesOf (s : State) (c : CoreId) (w : IFields) (n : Nat) : List Nat := lanes (tBits (vType w)) (rdV s c n)

/-- What lies outside a command: fields of other units than a core's, fields of that core not named, and memory. -/
def Frame (touched : List Nat) (u : Nat) (s t : State) : Prop :=
  (∀ (F : Field) (v i j : Nat), v ≠ u ∨ F.id ∉ touched → t.rd F v i j = s.rd F v i j) ∧ ∀ a, t.rdByte a = s.rdByte a

/-- A core takes a control packet as it arrives: its die has clock (R65), and it is in no state deeper than C2 (R520). -/
abbrev Takes (c : CoreId) (s : State) : Prop := s.rb Reg.BT_CLKSTAT_STOPPED c.die.val = false ∧ cstateOf s c < 3

/-- Every byte outside a range reads as before. -/
def SameOutside (lo n : Nat) (s t : State) : Prop := ∀ a, a < lo ∨ lo + n ≤ a → t.rdByte a = s.rdByte a

/-- Every byte reads as before. -/
def SameMemory (s t : State) : Prop := ∀ a, t.rdByte a = s.rdByte a

/-- Every register field reads as before. -/
def SameRegs (s t : State) : Prop := ∀ (F : Field) (u i j : Nat), t.rd F u i j = s.rd F u i j

end Sys2Proof.Machine
end

