-- ==== Sys2Proof/Certificates/Slice0/Obligations.lean ====
section
/-! DEFINITION. The statements for the provers, formalised from the numbered rules of the spec. -/

open Sys2Proof Sys2Proof.Machine

/-- R12, 00_scope: A step runs the command at the front of the queue. -/
def Obligations.StepRunsFrontCommand : Prop :=
  (∀ (i : Instr) (rest : List Instr) (s : State),
      step { s with pending := i :: rest } = exec i { s with pending := rest }) ∧
    ∀ s : State, step { s with pending := [] } = .next (tick { s with pending := [] })

/-- R220, R37, R67, R391: Reset values of the sequencer, row map, clock status and load status. -/
def Obligations.ResetRegisters : Prop :=
  (∀ u < 256, State.reset.rd Reg.CS_STAT_STATE u = 6 ∧ State.reset.rb Reg.CS_TRAP_VALID u = false) ∧
    (∀ d < 4, ∀ r < 8, State.reset.rd Reg.FT_ROWMAP_HEALTHY d r = 10 ∧ State.reset.rd Reg.FT_ROWMAP_FENCED d r = 0) ∧
    (∀ d < 4, State.reset.rb Reg.BT_CLKSTAT_STOPPED d = true) ∧
    State.reset.rb Reg.PZ_HSTAT_SEALED 0 = false ∧ State.reset.rd Reg.PZ_HSTAT_STAGE 0 = 0

/-- R225, R429: Memory after reset is in canonical form and reads as zero. -/
def Obligations.ResetMemoryCanonical : Prop :=
  Safe State.reset ∧ ∀ a, State.reset.rdByte a = 0

/-- R187: Every instruction word gives back its opcode and its fields. -/
def Obligations.InstructionWordRoundTrip : Prop :=
  (∀ (opc : BitVec 8) (w : IFields),
      encodeI opc.toNat w < 2 ^ 64 ∧ encodeI opc.toNat w / 2 ^ 56 = opc.toNat ∧ fieldsOf (encodeI opc.toNat w) = w) ∧
    ∀ (o p : BitVec 8) (v w : IFields), encodeI o.toNat v = encodeI p.toNat w → o = p ∧ v = w

/-- R45, R225, R429, R248, R458: Every step keeps memory in canonical form. -/
def Obligations.MemoryCanonicalKept : Prop :=
  ∀ s t : State, Safe s → step s = .next t → Safe t

/-- R194, R187, R188, R191: The sixteen register-register instructions write their result and complete. -/
def Obligations.ScalarRegisterResults : Prop :=
  ∀ (c : CoreId) (w : IFields) (s t : State) (x y : Word), Reads2 s c w x y t →
      (Issues s c 0x00 formRRR w → exec (.add c w) s = .next (wroteS t c w (x + y))) ∧
      (Issues s c 0x01 formRRR w → exec (.sub c w) s = .next (wroteS t c w (x - y))) ∧
      (Issues s c 0x02 formRRR w → exec (.and c w) s = .next (wroteS t c w (x &&& y))) ∧
      (Issues s c 0x03 formRRR w → exec (.or c w) s = .next (wroteS t c w (x ||| y))) ∧
      (Issues s c 0x04 formRRR w → exec (.xor c w) s = .next (wroteS t c w (x ^^^ y))) ∧
      (Issues s c 0x05 formRRR w → exec (.sll c w) s = .next (wroteS t c w (x <<< (y.toNat % 32)))) ∧
      (Issues s c 0x06 formRRR w → exec (.srl c w) s = .next (wroteS t c w (x >>> (y.toNat % 32)))) ∧
      (Issues s c 0x07 formRRR w → exec (.sra c w) s = .next (wroteS t c w (x.sshiftRight (y.toNat % 32)))) ∧
      (Issues s c 0x08 formRRR w → exec (.slt c w) s = .next (wroteS t c w (if x.slt y then 1 else 0))) ∧
      (Issues s c 0x09 formRRR w → exec (.sltu c w) s = .next (wroteS t c w (if x.ult y then 1 else 0))) ∧
      (Issues s c 0x0A formRRR w → exec (.mul c w) s = .next (wroteS t c w (x * y))) ∧
      (Issues s c 0x0B formRRR w → exec (.mulh c w) s = .next (wroteS t c w (BitVec.ofInt 32 ((x.toInt * y.toInt) / 2 ^ 32)))) ∧
      (Issues s c 0x0C formRRR w → exec (.min c w) s = .next (wroteS t c w (if x.slt y then x else y))) ∧
      (Issues s c 0x0D formRRR w → exec (.max c w) s = .next (wroteS t c w (if x.slt y then y else x))) ∧
      (Issues s c 0x0E formRRR w → exec (.eq c w) s = .next (wroteS t c w (if x = y then 1 else 0))) ∧
      (Issues s c 0x0F formRRR w → exec (.ne c w) s = .next (wroteS t c w (if x = y then 0 else 1)))

/-- R194, R187, R188, R191: The sixteen register-immediate instructions write their result and complete. -/
def Obligations.ScalarImmediateResults : Prop :=
  ∀ (c : CoreId) (w : IFields) (s t : State) (x : Word), Reads s c w.a x t →
      (Issues s c 0x10 formRRI w → exec (.addi c w) s = .next (wroteS t c w (x + w.imm))) ∧
      (Issues s c 0x11 formRRI w → exec (.subi c w) s = .next (wroteS t c w (x - w.imm))) ∧
      (Issues s c 0x12 formRRI w → exec (.andi c w) s = .next (wroteS t c w (x &&& w.imm))) ∧
      (Issues s c 0x13 formRRI w → exec (.ori c w) s = .next (wroteS t c w (x ||| w.imm))) ∧
      (Issues s c 0x14 formRRI w → exec (.xori c w) s = .next (wroteS t c w (x ^^^ w.imm))) ∧
      (Issues s c 0x15 formRRI w → exec (.slli c w) s = .next (wroteS t c w (x <<< (w.imm.toNat % 32)))) ∧
      (Issues s c 0x16 formRRI w → exec (.srli c w) s = .next (wroteS t c w (x >>> (w.imm.toNat % 32)))) ∧
      (Issues s c 0x17 formRRI w → exec (.srai c w) s = .next (wroteS t c w (x.sshiftRight (w.imm.toNat % 32)))) ∧
      (Issues s c 0x18 formRRI w → exec (.slti c w) s = .next (wroteS t c w (if x.slt w.imm then 1 else 0))) ∧
      (Issues s c 0x19 formRRI w → exec (.sltui c w) s = .next (wroteS t c w (if x.ult w.imm then 1 else 0))) ∧
      (Issues s c 0x1A formRRI w → exec (.muli c w) s = .next (wroteS t c w (x * w.imm))) ∧
      (Issues s c 0x1B formRRI w → exec (.mulhi c w) s = .next (wroteS t c w (BitVec.ofInt 32 ((x.toInt * w.imm.toInt) / 2 ^ 32)))) ∧
      (Issues s c 0x1C formRRI w → exec (.mini c w) s = .next (wroteS t c w (if x.slt w.imm then x else w.imm))) ∧
      (Issues s c 0x1D formRRI w → exec (.maxi c w) s = .next (wroteS t c w (if x.slt w.imm then w.imm else x))) ∧
      (Issues s c 0x1E formRRI w → exec (.eqi c w) s = .next (wroteS t c w (if x = w.imm then 1 else 0))) ∧
      (Issues s c 0x1F formRRI w → exec (.nei c w) s = .next (wroteS t c w (if x = w.imm then 0 else 1)))

/-- R195, R196, R186, R191: Branches and jumps go to PC + IMM, or past the instruction. -/
def Obligations.BranchesAndJumps : Prop :=
  ∀ (c : CoreId) (w : IFields) (s t : State) (x y : Word),
      (Reads2 s c w x y t → 0 ≤ (s.pc c : Int) + w.imm.toInt → (s.pc c : Int) + w.imm.toInt < 8192 →
        (Issues s c 0x30 formBr w → exec (.beq c w) s =
          .next (if x = y then wentTo t c ((s.pc c : Int) + w.imm.toInt).toNat else completed t c)) ∧
        (Issues s c 0x31 formBr w → exec (.bne c w) s =
          .next (if x ≠ y then wentTo t c ((s.pc c : Int) + w.imm.toInt).toNat else completed t c)) ∧
        (Issues s c 0x32 formBr w → exec (.blt c w) s =
          .next (if x.slt y = true then wentTo t c ((s.pc c : Int) + w.imm.toInt).toNat else completed t c)) ∧
        (Issues s c 0x33 formBr w → exec (.bge c w) s =
          .next (if x.slt y = false then wentTo t c ((s.pc c : Int) + w.imm.toInt).toNat else completed t c)) ∧
        (Issues s c 0x34 formBr w → exec (.bltu c w) s =
          .next (if x.ult y = true then wentTo t c ((s.pc c : Int) + w.imm.toInt).toNat else completed t c)) ∧
        (Issues s c 0x35 formBr w → exec (.bgeu c w) s =
          .next (if x.ult y = false then wentTo t c ((s.pc c : Int) + w.imm.toInt).toNat else completed t c))) ∧
      (0 ≤ (s.pc c : Int) + w.imm.toInt → (s.pc c : Int) + w.imm.toInt < 8192 →
        (Issues s c 0x36 { imm := immAll } w → exec (.j c w) s = .next (wentTo s c ((s.pc c : Int) + w.imm.toInt).toNat)) ∧
        (Issues s c 0x37 { d := .s, imm := immAll } w → exec (.jal c w) s =
          .next (wentTo (wrS s c w.d.toNat (BitVec.ofNat 32 (s.pc c + 1))) c ((s.pc c : Int) + w.imm.toInt).toNat))) ∧
      (Reads s c w.a x t → Issues s c 0x38 { a := .sq } w → exec (.jr c w) s = .next (wentTo t c (x.toNat % 8192)))

/-- R195, R216, R217: A branch taken or a jump to a target outside the instruction memory takes IFETCH with nothing done.
-/
def Obligations.JumpOutsideMemoryTraps : Prop :=
  ∀ (c : CoreId) (w : IFields) (s t : State) (x : Word), (s.pc c : Int) + w.imm.toInt < 0 ∨ 8192 ≤ (s.pc c : Int) + w.imm.toInt →
      (Reads2 s c w x x t → Issues s c 0x30 formBr w →
        exec (.beq c w) s = .next (takeTrap s c trIfetch (unsgn 32 ((s.pc c : Int) + w.imm.toInt)))) ∧
      (Issues s c 0x36 { imm := immAll } w →
        exec (.j c w) s = .next (takeTrap s c trIfetch (unsgn 32 ((s.pc c : Int) + w.imm.toInt)))) ∧
      (Issues s c 0x37 { d := .s, imm := immAll } w →
        exec (.jal c w) s = .next (takeTrap s c trIfetch (unsgn 32 ((s.pc c : Int) + w.imm.toInt))))

/-- R195, R196, R197, R217: LOOP pushes or skips its body; ASET, AINC, AADD and AGET write and read address descriptors.
-/
def Obligations.LoopAndDescriptorResults : Prop :=
  ∀ (c : CoreId) (w : IFields) (s t : State) (x y : Word),
      (Reads s c w.a x t → Issues s c 0x39 { a := .sq, imm := 0xFFF } w → w.imm.toNat ≠ 0 → s.pc c + w.imm.toNat < 8192 →
        (s.cx c).loops.length < 4 → (∀ l ∈ (s.cx c).loops.head?, s.pc c + w.imm.toNat ≤ l.last) →
        exec (.loop c w) s = .next (completed (if x = 0 then t.wr Reg.CS_PC_PC (coreU c) (s.pc c + w.imm.toNat)
          else setLoops t c (⟨s.pc c + 1, s.pc c + w.imm.toNat, x.toNat⟩ :: (t.cx c).loops)) c)) ∧
      (Reads2 s c w x y t → Issues s c 0x40 { d := .a, a := .sq, b := .sq, imm := 0x3FFF } w →
        exec (.aset c w) s = .next (completed (wrA t c (w.d.toNat - 0x20)
          (x.toNat % 2 ^ 25 + (y.toNat % 2 ^ 25) * 2 ^ 25 + (w.imm.toNat % 2 ^ 14) * 2 ^ 50)) c)) ∧
      (Issues s c 0x41 { d := .a } w → exec (.ainc c w) s = .next (completed (wrA s c (w.d.toNat - 0x20)
        (aWithBase (rdA s c (w.d.toNat - 0x20))
          (aBase (rdA s c (w.d.toNat - 0x20)) + 64 * aInc (rdA s c (w.d.toNat - 0x20))))) c)) ∧
      (Reads s c w.a x t → Issues s c 0x42 { d := .a, a := .sq } w →
        exec (.aadd c w) s = .next (completed (wrA t c (w.d.toNat - 0x20)
          (aWithBase (rdA t c (w.d.toNat - 0x20)) (aBase (rdA t c (w.d.toNat - 0x20)) + x.toNat : Nat))) c)) ∧
      (Issues s c 0x43 { d := .s, a := .a, fn := 3 } w →
        (w.fn = 0 → exec (.aget c w) s = .next (wroteS s c w (BitVec.ofNat 32 (aBase (rdA s c (w.a.toNat - 0x20)))))) ∧
        (w.fn = 1 → exec (.aget c w) s = .next (wroteS s c w (BitVec.ofNat 32 (aLen (rdA s c (w.a.toNat - 0x20)))))) ∧
        (w.fn = 2 → exec (.aget c w) s = .next (wroteS s c w (BitVec.ofInt 32 (aInc (rdA s c (w.a.toNat - 0x20)))))) ∧
        (w.fn = 3 → exec (.aget c w) s = .next (takeTrap s c trIllegal 0)))

/-- R198, R225, R239, R254, R629: LW, SW, LA, SA, VLD and VST move bytes between a register and the scratchpad. -/
def Obligations.LocalLoadsAndStores : Prop :=
  ∀ (c : CoreId) (w : IFields) (s t : State) (x y : Word) (a : Nat),
      (Reads s c w.a x t → (x + w.imm).toNat = a → a + 4 ≤ spLimit t c → a % 4 = 0 →
        sbAdmits (t.cx c).sb [bytesRange a 4 false] = true → Issues s c 0x20 formRRI w →
        exec (.lw c w) s = .next (wroteS (spRead t c a 4 rqScalar).2 c w
          (BitVec.ofNat 32 (ofLeBytes (t.rdBytes (spBase c + a) 4))))) ∧
      (Reads2 s c w x y t → (x + w.imm).toNat = a → a + 4 ≤ spLimit t c → a % 4 = 0 →
        sbAdmits (t.cx c).sb [bytesRange a 4 true] = true → Issues s c 0x21 { a := .sq, b := .sq, imm := immAll } w →
        exec (.sw c w) s = .next (completed (spWrite t c a (leBytes 4 y.toNat) rqScalar) c)) ∧
      (Reads s c w.a x t → (x + w.imm).toNat = a → a + 8 ≤ spLimit t c → a % 8 = 0 →
        sbAdmits (t.cx c).sb [bytesRange a 8 false] = true → Issues s c 0x22 { d := .a, a := .sq, imm := immAll } w →
        exec (.la c w) s = .next (completed (wrA (spRead t c a 8 rqScalar).2 c (w.d.toNat - 0x20)
          (ofLeBytes (t.rdBytes (spBase c + a) 8))) c)) ∧
      (Reads s c w.a x t → (x + w.imm).toNat = a → a + 8 ≤ spLimit t c → a % 8 = 0 →
        sbAdmits (t.cx c).sb [bytesRange a 8 true] = true → Issues s c 0x23 { a := .sq, b := .a, imm := immAll } w →
        exec (.sa c w) s = .next (completed (spWrite t c a (leBytes 8 (rdA t c (w.b.toNat - 0x20))) rqScalar) c)) ∧
      (aBase (rdA s c (w.a.toNat - 0x20)) + 64 * (w.imm.toNat % 2 ^ 16) = a → a + 256 ≤ spLimit s c → a % 64 = 0 →
        bankShare s c ownVec ≠ 0 →
        (sbAdmits (s.cx c).sb [bytesRange a 256 false] = true → Issues s c 0xA0 { d := .v, a := .a, fn := 1, imm := 0xFFFF } w →
          exec (.vld c w) s = .next (completed (vecPost c w (wrV (spRead s c a 256 rqVec).2 c w.d.toNat
            (BitVec.ofNat 2048 (ofLeBytes (s.rdBytes (spBase c + a) 256))))) c)) ∧
        (sbAdmits (s.cx c).sb [bytesRange a 256 true] = true → Issues s c 0xA1 { a := .a, b := .v, fn := 1, imm := 0xFFFF } w →
          exec (.vst c w) s = .next (completed (vecPost c w (spWrite s c a (leBytes 256 (rdV s c w.b.toNat).toNat) rqVec)) c)))

/-- R198, R225: What SW, SA and VST leave unchanged: every byte of memory outside the stored bytes. -/
def Obligations.StoresChangeOnlyTheirBytes : Prop :=
  ∀ (c : CoreId) (w : IFields) (s t : State) (x y : Word) (u : State),
      (Reads2 s c w x y t → Issues s c 0x21 { a := .sq, b := .sq, imm := immAll } w → exec (.sw c w) s = .next u →
        SameOutside (spBase c + (x + w.imm).toNat) 4 s u) ∧
      (Reads s c w.a x t → Issues s c 0x23 { a := .sq, b := .a, imm := immAll } w → exec (.sa c w) s = .next u →
        SameOutside (spBase c + (x + w.imm).toNat) 8 s u) ∧
      (Issues s c 0xA1 { a := .a, b := .v, fn := 1, imm := 0xFFFF } w → exec (.vst c w) s = .next u →
        SameOutside (spBase c + (aBase (rdA s c (w.a.toNat - 0x20)) + 64 * (w.imm.toNat % 2 ^ 16))) 256 s u)

/-- R203, R202, R119, R223, R184: Lane-wise Marver arithmetic, comparison, selection and bitwise operations. -/
def Obligations.VectorLaneResults : Prop :=
  ∀ (c : CoreId) (w : IFields) (s t : State), tKnown (vType w) = true →
      (okArith (vType w) = true →
        (Issues s c 0x60 form2 w → exec (.vadd c w) s = .next (wroteLanes s c w (tBits (vType w)) (map2 (laneAdd (vType w)) (lanesOf s c w w.a.toNat) (lanesOf s c w w.b.toNat)))) ∧
        (Issues s c 0x61 form2 w → exec (.vsub c w) s = .next (wroteLanes s c w (tBits (vType w)) (map2 (laneSub (vType w)) (lanesOf s c w w.a.toNat) (lanesOf s c w w.b.toNat)))) ∧
        (Issues s c 0x62 form2 w → exec (.vmul c w) s = .next (wroteLanes s c w (tBits (vType w)) (map2 (laneMul (vType w)) (lanesOf s c w w.a.toNat) (lanesOf s c w w.b.toNat))))) ∧
      (Issues s c 0x64 form2 w → exec (.vmin c w) s = .next (wroteLanes s c w (tBits (vType w)) (map2 (laneMin (vType w)) (lanesOf s c w w.a.toNat) (lanesOf s c w w.b.toNat)))) ∧
      (Issues s c 0x65 form2 w → exec (.vmax c w) s = .next (wroteLanes s c w (tBits (vType w)) (map2 (laneMax (vType w)) (lanesOf s c w w.a.toNat) (lanesOf s c w w.b.toNat)))) ∧
      (Issues s c 0x66 form1 w → exec (.vabs c w) s = .next (wroteLanes s c w (tBits (vType w)) ((lanesOf s c w w.a.toNat).map (laneAbs (vType w))))) ∧
      (Issues s c 0x67 form1 w → exec (.vneg c w) s = .next (wroteLanes s c w (tBits (vType w)) ((lanesOf s c w w.a.toNat).map (laneNeg (vType w))))) ∧
      (okFma (vType w) = true → Issues s c 0x63 form3 w → exec (.vfma c w) s = .next (wroteLanes s c w (tBits (vType w))
        (map3 (laneFma (vType w)) (lanesOf s c w w.a.toNat) (lanesOf s c w w.b.toNat) (lanesOf s c w (vSrcC w))))) ∧
      (w.fn ≠ 7 → Issues s c 0x68 { form2 with fn := 7 } w → exec (.vcmp c w) s = .next (wroteLanes s c w (tBits (vType w))
        (map2 (laneCmp w.fn.toNat (vType w)) (lanesOf s c w w.a.toNat) (lanesOf s c w w.b.toNat)))) ∧
      (Issues s c 0x69 form3 w → exec (.vsel c w) s = .next (wroteLanes s c w (tBits (vType w))
        (map3 (laneSel (vType w)) (lanesOf s c w w.a.toNat) (lanesOf s c w w.b.toNat) (lanesOf s c w (vSrcC w))))) ∧
      (vType w = 15 →
        (Issues s c 0x6C form2 w → exec (.vand c w) s = .next (wroteLanes s c w (tBits (vType w)) (map2 (fun x y => (x &&& y, {})) (lanesOf s c w w.a.toNat) (lanesOf s c w w.b.toNat)))) ∧
        (Issues s c 0x6D form2 w → exec (.vor c w) s = .next (wroteLanes s c w (tBits (vType w)) (map2 (fun x y => (x ||| y, {})) (lanesOf s c w w.a.toNat) (lanesOf s c w w.b.toNat)))) ∧
        (Issues s c 0x6E form2 w → exec (.vxor c w) s = .next (wroteLanes s c w (tBits (vType w)) (map2 (fun x y => (x ^^^ y, {})) (lanesOf s c w w.a.toNat) (lanesOf s c w w.b.toNat)))) ∧
        (Issues s c 0x6F { d := .v, a := .v, fn := 1, imm := 0x1F0F } w → exec (.vshl c w) s = .next (wroteLanes s c w (tBits (vType w))
          ((lanesOf s c w w.a.toNat).map (laneShift (bit w.fn.toNat 0) (bits w.imm.toNat 8 5))))))

/-- R203, R204, R119: VMOV, VBCAST, VPERM, VSLIDE, VEXT and VINS move lanes and words. -/
def Obligations.VectorMovesAndPermutes : Prop :=
  ∀ (c : CoreId) (w : IFields) (s t : State) (x : Word),
      (tKnown (vType w) = true →
        (Issues s c 0x6A form1 w → exec (.vmov c w) s = .next (wroteLanes s c w (tBits (vType w))
          ((lanesOf s c w w.a.toNat).map (laneMove (vType w))))) ∧
        (Reads s c w.a x t → t8 (vType w) = false → Issues s c 0x6B { d := .v, a := .sq, imm := 0xF } w →
          exec (.vbcast c w) s = .next (wroteLanes t c w (tBits (vType w))
            (List.replicate (2048 / tBits (vType w)) (laneMove (vType w) (x.toNat % 2 ^ tBits (vType w)))))) ∧
        (∀ k, laneMove 15 k = (k, {}) ∧ (vType w ≠ 15 → (decodeElem (vType w) k == .nan) = false →
          laneMove (vType w) k = (k, {}))) ∧ laneMove 0 0xFFC12345 = (0x7FC00000, { nan := true }) ∧
        (Issues s c 0x74 form2 w → exec (.vperm c w) s = .next (wroteLanes s c w (tBits (vType w))
          ((lanesOf s c w w.b.toNat).map fun k =>
            laneMove (vType w) ((lanesOf s c w w.a.toNat).getD (k % (lanesOf s c w w.a.toNat).length) 0)))) ∧
        (Issues s c 0x75 { d := .v, a := .v, imm := 0x3FF } w → exec (.vslide c w) s = .next (wroteLanes s c w
          (tBits (vType w)) ((slide (lanesOf s c w w.a.toNat) (sgn 10 (w.imm.toNat % 1024))).map (laneMove (vType w)))))) ∧
      (Issues s c 0x76 { d := .s, a := .v, imm := 0x3F } w → exec (.vext c w) s = .next (wroteS s c w
        (BitVec.ofNat 32 (bits (rdV s c w.a.toNat).toNat (32 * w.imm.toNat) 32)))) ∧
      (Reads s c w.a x t → Issues s c 0x77 { d := .v, a := .sq, imm := 0x3F } w → exec (.vins c w) s = .next (wroteV t c w
        (BitVec.ofNat 2048 (setBits (rdV t c w.d.toNat).toNat (32 * w.imm.toNat) 32 x.toNat))))

/-- R204, R205, R188: VRSUM, VRMAX, VRMIN and VRAMAX reduce each segment to one 32-bit lane. -/
def Obligations.SegmentedReductions : Prop :=
  ∀ (c : CoreId) (w : IFields) (s t : State), tKnown (vType w) = true →
      (∀ (o : Nat) (f : Form) (g : Nat → List Nat → LaneRes) (i : Instr),
        (o, f, g, i) ∈ [(0x70, { formRed with fn := 0x1F }, segSum (bit w.fn.toNat 4), Instr.vrsum c w),
          (0x71, formRed, fun t => segExt t Val.max false, .vrmax c w), (0x72, formRed, fun t => segExt t Val.min false, .vrmin c w),
          (0x73, formRed, fun t => segExt t Val.max true, .vramax c w)] →
        Issues s c o f w →
        (2 ^ (w.fn.toNat % 16) ≤ (lanesOf s c w w.a.toNat).length →
          (lanesOf s c w w.a.toNat).length / 2 ^ (w.fn.toNat % 16) ≤ 64 →
          exec i s = .next (wroteLanes s c w 32 ((chunks (2 ^ (w.fn.toNat % 16)) (lanesOf s c w w.a.toNat).length
            (lanesOf s c w w.a.toNat)).map (g (vType w))))) ∧
        ((lanesOf s c w w.a.toNat).length < 2 ^ (w.fn.toNat % 16) ∨
          64 < (lanesOf s c w w.a.toNat).length / 2 ^ (w.fn.toNat % 16) → exec i s = .next (takeTrap s c trIllegal 0)))

/-- R206, R202, R223: The twelve transcendental operations complete with one result per lane; special operands give the
special results. -/
def Obligations.TranscendentalResults : Prop :=
  ∀ (c : CoreId) (w : IFields) (s t : State), vType w = 0 ∨ vType w = 2 →
      (Issues s c 0x80 form1 w → exec (.vexp2 c w) s = .next (wroteLanes s c w (tBits (vType w)) ((lanesOf s c w w.a.toNat).map (transLane 0 (vType w))))) ∧
      (Issues s c 0x81 form1 w → exec (.vexp c w) s = .next (wroteLanes s c w (tBits (vType w)) ((lanesOf s c w w.a.toNat).map (transLane 1 (vType w))))) ∧
      (Issues s c 0x82 form1 w → exec (.vlog2 c w) s = .next (wroteLanes s c w (tBits (vType w)) ((lanesOf s c w w.a.toNat).map (transLane 2 (vType w))))) ∧
      (Issues s c 0x83 form1 w → exec (.vln c w) s = .next (wroteLanes s c w (tBits (vType w)) ((lanesOf s c w w.a.toNat).map (transLane 3 (vType w))))) ∧
      (Issues s c 0x84 form1 w → exec (.vrcp c w) s = .next (wroteLanes s c w (tBits (vType w)) ((lanesOf s c w w.a.toNat).map (transLane 4 (vType w))))) ∧
      (Issues s c 0x85 form1 w → exec (.vrsqrt c w) s = .next (wroteLanes s c w (tBits (vType w)) ((lanesOf s c w w.a.toNat).map (transLane 5 (vType w))))) ∧
      (Issues s c 0x86 form1 w → exec (.vsqrt c w) s = .next (wroteLanes s c w (tBits (vType w)) ((lanesOf s c w w.a.toNat).map (transLane 6 (vType w))))) ∧
      (Issues s c 0x87 form1 w → exec (.vtanh c w) s = .next (wroteLanes s c w (tBits (vType w)) ((lanesOf s c w w.a.toNat).map (transLane 7 (vType w))))) ∧
      (Issues s c 0x88 form1 w → exec (.vsigm c w) s = .next (wroteLanes s c w (tBits (vType w)) ((lanesOf s c w w.a.toNat).map (transLane 8 (vType w))))) ∧
      (Issues s c 0x89 form1 w → exec (.verf c w) s = .next (wroteLanes s c w (tBits (vType w)) ((lanesOf s c w w.a.toNat).map (transLane 9 (vType w))))) ∧
      (Issues s c 0x8A formTrig w →
        (bit w.fn.toNat 0 = false → exec (.vsin c w) s =
          .next (wroteLanes s c w (tBits (vType w)) ((lanesOf s c w w.a.toNat).map (transLane 10 (vType w))))) ∧
        (bit w.fn.toNat 0 = true → exec (.vcos c w) s =
          .next (wroteLanes s c w (tBits (vType w)) ((lanesOf s c w w.a.toNat).map (transLane 11 (vType w)))))) ∧
      (∀ k < 12, (transLane k 0 0x7FC00000).1 = 0x7FC00000 ∧ (transLane k 0 0x7FC00000).2.nan = true) ∧
      (transLane 0 0 0x7F800000).1 = 0x7F800000 ∧ (transLane 0 0 0xFF800000).1 = 0 ∧
      (transLane 1 0 0x7F800000).1 = 0x7F800000 ∧ (transLane 1 0 0xFF800000).1 = 0 ∧
      (∀ k ∈ [2, 3], (transLane k 0 0).1 = 0xFF800000 ∧ (transLane k 0 0x80000000).1 = 0xFF800000 ∧
        (transLane k 0 0xBF800000).1 = 0x7FC00000) ∧
      (transLane 4 0 0).1 = 0x7F800000 ∧ (transLane 4 0 0x80000000).1 = 0xFF800000 ∧ (transLane 4 0 0).2.divz = true ∧
      (transLane 4 0 0x7F800000).1 = 0 ∧ (transLane 4 0 0xFF800000).1 = 0x80000000 ∧
      (transLane 5 0 0).1 = 0x7F800000 ∧ (transLane 5 0 0x80000000).1 = 0xFF800000 ∧ (transLane 5 0 0x80000000).2.divz = true ∧
      (transLane 5 0 0xBF800000).1 = 0x7FC00000 ∧ (transLane 6 0 0x80000000).1 = 0x80000000 ∧
      (transLane 6 0 0xBF800000).1 = 0x7FC00000 ∧ (transLane 7 0 0x7F800000).1 = 0x3F800000 ∧
      (transLane 7 0 0xFF800000).1 = 0xBF800000 ∧ (transLane 8 0 0xFF800000).1 = 0 ∧ (transLane 8 0 0x7F800000).1 = 0x3F800000 ∧
      (transLane 9 0 0x7F800000).1 = 0x3F800000 ∧ (transLane 9 0 0xFF800000).1 = 0xBF800000 ∧
      ∀ k ∈ [10, 11], (transLane k 0 0x7F800000).1 = 0x7FC00000 ∧ (transLane k 0 0xFF800000).1 = 0x7FC00000

/-- R136, R137, R138, R141, R135, R134, R207, R142, R143, R188: CVT, CVTX, CVTS and SCLX convert elements and compute
scales, or take ILLEGAL. -/
def Obligations.ConvertResults : Prop :=
  ∀ (c : CoreId) (w : IFields) (s : State),
      (Issues s c 0x90 { d := .v, a := .v, imm := 0x7FFFF } w →
        (ConvertTakes w (fmtCount (cvFS w)) → exec (.cvt c w) s = .next (converted s c w (convertSpan w (fmtCount (cvFS w))).2.2
          ((((vecVals s c (cvFS w) w.a.toNat).drop (convertSpan w (fmtCount (cvFS w))).1).take (convertSpan w (fmtCount (cvFS w))).2.1).map
            fun v => convTo (cvFD w) (cvOM w) (timesTmul (tmulOf s c w) v)))) ∧
        (¬ ConvertTakes w (fmtCount (cvFS w)) → exec (.cvt c w) s = .next (takeTrap s c trIllegal 0))) ∧
      (Issues s c 0x91 { d := .v, a := .v, b := .v, imm := 0xFFFFFF } w →
        (ConvertTakes w (fmtCount (cvFS w)) → ScaleTakes w →
          exec (.cvtx c w) s = .next (converted s c w (convertSpan w (fmtCount (cvFS w))).2.2
            (((((vecVals s c (cvFS w) w.a.toNat).drop (convertSpan w (fmtCount (cvFS w))).1).take
              (convertSpan w (fmtCount (cvFS w))).2.1).zipIdx).map fun v =>
                scaledTo c w s ((if cvSide w = 0 then (convertSpan w (fmtCount (cvFS w))).2.2 else (convertSpan w (fmtCount (cvFS w))).1) + v.2)
                  (timesTmul (tmulOf s c w) v.1)))) ∧
        (¬ ConvertTakes w (fmtCount (cvFS w)) ∨ ¬ ScaleTakes w → exec (.cvtx c w) s = .next (takeTrap s c trIllegal 0))) ∧
      (Issues s c 0x92 { d := .v, a := .v, b := .v, imm := 0x13FFFFF } w →
        (∀ k n p, ConvertTakes w (max (blkSize (cvBS w)) (fmtCount (cvFS w))) → GroupTakes w →
          convertSpan w (max (blkSize (cvBS w)) (fmtCount (cvFS w))) = (k, n, p) →
          exec (.cvts c w) s = .next (completed (addCFlags
            (wrV (putElems s c (cvFD w) w.d.toNat p ((cvtsBlocks c w s k n).flatMap fun q => q.2.1)) c w.b.toNat
              (putBytes (p / blkSize (cvBS w)) ((cvtsBlocks c w s k n).map Prod.fst)
                (rdV (putElems s c (cvFD w) w.d.toNat p ((cvtsBlocks c w s k n).flatMap fun q => q.2.1)) c w.b.toNat))) c
            ((cvtsBlocks c w s k n).foldl (fun f q => f.or q.2.2) (sumFlags ((cvtsBlocks c w s k n).flatMap fun q => q.2.1)).1)
            (sumFlags ((cvtsBlocks c w s k n).flatMap fun q => q.2.1)).2.1
            (sumFlags ((cvtsBlocks c w s k n).flatMap fun q => q.2.1)).2.2) c)) ∧
        (¬ ConvertTakes w (max (blkSize (cvBS w)) (fmtCount (cvFS w))) ∨ ¬ GroupTakes w →
          exec (.cvts c w) s = .next (takeTrap s c trIllegal 0))) ∧
      (Issues s c 0x93 { a := .v, b := .v, imm := 0x107FCF0 } w →
        (scalable (cvFD w) = true → cvPart w ≤ 3 → exec (.sclx c w) s = .next (completed (addCFlags (wrV s c w.b.toNat
          (putBytes (64 * cvPart w) ((vecVals s c 0 w.a.toNat).map fun v => (scaleCode w (timesTmul (tmulOf s c w) v.abs)).1)
            (rdV s c w.b.toNat))) c
          (((vecVals s c 0 w.a.toNat).map fun v => scaleCode w (timesTmul (tmulOf s c w) v.abs)).foldl (fun f r => f.or r.2) {}) 0 0) c)) ∧
        (scalable (cvFD w) = false ∨ 3 < cvPart w → exec (.sclx c w) s = .next (takeTrap s c trIllegal 0)))

/-- R191, R184, R220: What a scalar source gives: a register, a queue word, ILLEGAL on an unbound port, a wait on an empty
queue. -/
def Obligations.OperandPorts : Prop :=
  ∀ (c : CoreId) (s : State),
      (∀ code : BitVec 6, code.toNat < 0x20 → Reads s c code (rdS s c code.toNat) s) ∧ rdS s c 0 = 0 ∧
      (∀ (p q : Nat) (code : BitVec 6) (e : QEnt) (r : List QEnt), code.toNat = 0x30 + p →
        smGet 0 (s.cx c).qbind p = q + 1 → smGet [] (s.cx c).entries q = e :: r →
        Reads s c code (BitVec.ofNat 32 (e.word (s.rd Reg.CQ_Q_WORD (coreU c) q)))
          (if s.rd Reg.CQ_Q_WORD (coreU c) q = 3 then popHead s c q
           else s.wr Reg.CQ_Q_WORD (coreU c) (s.rd Reg.CQ_Q_WORD (coreU c) q + 1) q)) ∧
      ∀ (w : IFields) (p : Nat), w.a.toNat = 0x30 + p → Issues s c 0 formRRR w →
        (smGet 0 (s.cx c).qbind p = 0 → exec (.add c w) s = .next (takeTrap s c trIllegal 0)) ∧
        ∀ q, smGet 0 (s.cx c).qbind p = q + 1 → smGet [] (s.cx c).entries q = [] →
          exec (.add c w) s = .next ((s.setCst c stWaitQ).wr Reg.CS_STAT_QPORT (coreU c) p)

/-- R214, R215, R217, R220: NOP, FENCE, TRAP, HALT and CSRR have the effects their rules give. -/
def Obligations.SystemInstructions : Prop :=
  ∀ (c : CoreId) (w : IFields) (s : State),
      (Issues s c 0xF0 {} w → exec (.nop c w) s = .next (completed s c)) ∧
      (Issues s c 0xF1 { fn := 1 } w → exec (.fence c w) s =
        .next (if fenceDone s c (bit w.fn.toNat 0) then completed s c else s.setCst c stWaitSync)) ∧
      (Issues s c 0xF2 { imm := immAll } w → exec (.trap c w) s = .next (takeTrap s c trSwTrap w.imm.toNat)) ∧
      (Issues s c 0xF3 {} w → exec (.halt c w) s = .next (if fenceDone s c true then
        (s.setCst c stHalted).send (.core c) (.dieNode c.die) (.error LogKind.coreHalted [coreU c])
        else s.setCst c stWaitSync)) ∧
      (Issues s c 0xE0 { d := .s, imm := 0x1FFFFFF } w →
        (∀ v t, csrRead s .core (coreU c) w.imm.toNat = some (v, t) →
          exec (.csrr c w) s = .next (wroteS t c w (BitVec.ofNat 32 v))) ∧
        (csrRead s .core (coreU c) w.imm.toNat = none →
          exec (.csrr c w) s = .next (takeTrap s c trCsrFault w.imm.toNat)))

/-- R216, R217, R188, R185, R544: Taking a trap records code, PC, word and information, enters TRAPPED, reports, and
changes nothing else the program sees. -/
def Obligations.TrapsArePrecise : Prop :=
  ∀ (c : CoreId) (s : State),
      (∀ (code info own : Nat), code < 16 →
        (takeTrap s c code info own).rd Reg.CS_TRAP_CODE (coreU c) = code ∧
        (takeTrap s c code info own).rb Reg.CS_TRAP_VALID (coreU c) = true ∧
        (takeTrap s c code info own).rd Reg.CS_TRAPINFO_INFO (coreU c) = info % 2 ^ 32 ∧
        (takeTrap s c code info own).rd Reg.CS_TRAPPC_PC (coreU c) = s.pc c % 2 ^ 13 ∧
        (takeTrap s c code info own).rd Reg.CS_TRAPIW_WORD (coreU c) = imemWord s c (s.pc c) % 2 ^ 32 ∧
        (takeTrap s c code info own).rd Reg.CS_TRAPIW_WORD (coreU c) 1 = imemWord s c (s.pc c) / 2 ^ 32 % 2 ^ 32 ∧
        (takeTrap s c code info own).cst c = stTrapped ∧
        (takeTrap s c code info own).out = s.out ++ [.packet (.core c) (.dieNode c.die) (.trap code (s.pc c) info own)] ∧
        (takeTrap s c code info own).pc c = s.pc c ∧ (takeTrap s c code info own).cores = s.cores ∧
        (∀ n, rdS (takeTrap s c code info own) c n = rdS s c n) ∧
        (∀ n, rdA (takeTrap s c code info own) c n = rdA s c n) ∧
        SameMemory s (takeTrap s c code info own)) ∧
      (canIssue s c = true → opcodeMap.contains (imemWord s c (s.pc c) / 2 ^ 56) = false →
        exec (.illegal c) s = .next (takeTrap s c trIllegal 0)) ∧
      (canIssue s c = true → ∃ t, exec (.imemUe c) s = .next t ∧ t.rd Reg.CS_TRAP_CODE (coreU c) = trImemUe ∧
        t.rd Reg.CS_TRAPINFO_INFO (coreU c) = s.pc c % 2 ^ 32 ∧ t.cst c = stTrapped ∧ (t.cx c).dead = true ∧
        t.rb Reg.DN_RSTAT_PASSTHRU (coreU c) = true ∧ SameMemory s t)

/-- R218, R222, R219, R623, R195: RESUME, SKIP, GOTO, STOP and writes of a trapped core's registers. -/
def Obligations.TrappedCoreActions : Prop :=
  ∀ (r : Requester) (c : CoreId) (s : State), mayWrite .punty r .core (coreU c) = true →
      (s.cst c = stTrapped → (s.cx c).ranOff = false →
        exec (.resume r c) s = .next ((s.wb Reg.CS_TRAP_VALID (coreU c) false).setCst c stRun)) ∧
      (∀ n : BitVec 13, s.cst c = stTrapped → ∃ t, exec (.goto r c n) s = .next t ∧ t.pc c = n.toNat ∧ t.cst c = stRun ∧
        t.rb Reg.CS_TRAP_VALID (coreU c) = false ∧ SameMemory s t) ∧
      (s.cst c = stTrapped → s.pc c + 1 < 8192 → ∃ t, exec (.skip r c) s = .next t ∧ t.pc c = s.pc c + 1 ∧ t.cst c = stRun ∧
        t.rb Reg.CS_TRAP_VALID (coreU c) = false ∧ SameMemory s t ∧
        ∀ n, n < 32 → rdS t c n = if s.rd Reg.CS_TRAP_CODE (coreU c) = trBlockedSend ∧
          n = bits (imemWord s c (s.pc c)) 50 6 % 32 ∧ n ≠ 0 then 6 else rdS s c n) ∧
      (s.cst c ≠ stTrapped → (∀ n, exec (.goto r c n) s = .next (s.lg LogKind.trapctlIgnored (coreU c) [])) ∧
        exec (.resume r c) s = .next (s.lg LogKind.trapctlIgnored (coreU c) []) ∧
        exec (.skip r c) s = .next (s.lg LogKind.trapctlIgnored (coreU c) [])) ∧
      (coreLive s c = true → s.cst c ≤ stWaitSync →
        ((∀ k q d, (s.cx c).handleWait ≠ some (.destroy k q d)) → ∃ t, exec (.trapctlStop r c) s = .next t ∧ t.cst c = stTrapped ∧
          t.rd Reg.CS_TRAP_CODE (coreU c) = trStopped ∧ t.rd Reg.CS_TRAPINFO_INFO (coreU c) = 0 ∧ SameMemory s t) ∧
        ∀ k q d, (s.cx c).handleWait = some (.destroy k q d) →
          exec (.trapctlStop r c) s = .next (s.setCx c { s.cx c with stopDue := true })) ∧
      (s.cst c = stTrapped ∨ s.cst c = stHalted → ∀ v : Word,
        (∀ n : Fin 32, exec (.csSregWrite r c n v) s = .next (wrS s c n.val v)) ∧
        ∀ n : Fin 16, exec (.csAregWrite r c n false v) s = .next (s.wr Reg.CS_AREG_LO (coreU c) v.toNat n.val) ∧
          exec (.csAregWrite r c n true v) s = .next (s.wr Reg.CS_AREG_HI (coreU c) v.toNat n.val)) ∧
      (s.cst c ≠ stTrapped → s.cst c ≠ stHalted → ∀ (n : Fin 32) (v : Word), exec (.csSregWrite r c n v) s =
        .next (s.lg LogKind.ignoredWrite (coreU c) [Reg.CS_SREG_VALUE.id]))

/-- R214, R15, R13, R211: CSRW writes a core CSR and returns OK, or FROZEN with nothing written, or raises CSR_FAULT. -/
def Obligations.CsrWriteStatus : Prop :=
  ∀ (c : CoreId) (w : IFields) (s t : State) (x : Word), Reads s c w.a x t → Issues s c 0xE1 { d := .s, a := .sq, imm := 0x1FFFFFF } w →
      (wordFields .core w.imm.toNat ≠ [] → t.frozen = false ∨ (∀ p ∈ wordFields .core w.imm.toNat, (accOf t p.1 (coreU c) p.2.1 p.2.2).1 ≠ .rwf) →
        ∃ u, csrStore t (.core c) .core (coreU c) w.imm.toNat x.toNat = some (u, false) ∧ exec (.csrw c w) s = .next (wroteS u c w 0)) ∧
      (∀ p ∈ wordFields .core w.imm.toNat, asksFrozen t (coreU c) x.toNat p = true →
        exec (.csrw c w) s = .next (wroteS (t.lg LogKind.frozenRefused (coreU c) [w.imm.toNat, x.toNat]) c w 5)) ∧
      (wordFields .core w.imm.toNat = [] → exec (.csrw c w) s = .next (takeTrap s c trCsrFault w.imm.toNat)) ∧
      (∀ u, csrStore t (.core c) .core (coreU c) w.imm.toNat x.toNat = some (u, false) →
        exec (.csrw c w) s = .next (wroteS u c w 0)) ∧
      (∀ u, csrStore t (.core c) .core (coreU c) w.imm.toNat x.toNat = some (u, true) →
        exec (.csrw c w) s = .next (wroteS u c w 5)) ∧
      (csrStore t (.core c) .core (coreU c) w.imm.toNat x.toNat = none →
        exec (.csrw c w) s = .next (takeTrap s c trCsrFault w.imm.toNat))

/-- R200, R201, R84, R103, R217: MPASS puts a pass into the array block under its ranges, or traps or holds; MWAIT waits
for passes. -/
def Obligations.MatrixInstructions : Prop :=
  ∀ (c : CoreId) (w : IFields) (s : State) (d : PassDesc) (g : Geo),
      (Issues s c 0x50 (formMpass w) w → mpassDesc s c w = d → geoOf s c d.fmtp d.mode d.heritage = g →
        (d.heritage = true → s.rb Reg.HB_ID_HERITAGE 0 = true) →
        (bit w.fn.toNat 3 = true → aBase (rdA s c (w.a.toNat - 0x20)) % 64 ≠ 0 →
          exec (.mpass c w) s = .next (takeTrap s c trMisalign (aBase (rdA s c (w.a.toNat - 0x20))))) ∧
        ((bit w.fn.toNat 3 = true → aBase (rdA s c (w.a.toNat - 0x20)) % 64 = 0) →
          (bit w.fn.toNat 4 = true → aBase (rdA s c (w.b.toNat - 0x20)) % 64 = 0) →
          (descCheck s c g d ≠ 0 → exec (.mpass c w) s = .next (takeTrap s c trArrayDesc (descCheck s c g d))) ∧
          (descCheck s c g d = 0 → blockFull (s.cx c).passes = true → exec (.mpass c w) s = .next (s.setCst c stRun)) ∧
          (descCheck s c g d = 0 → blockFull (s.cx c).passes = false →
            sbAdmits (s.cx c).sb (passRanges g d (s.cx c).passId) = false → exec (.mpass c w) s = .next
              ((s.setCx c { s.cx c with sbHeld := some (s.pc c, passRanges g d (s.cx c).passId) }).setCst c stRun)) ∧
          (descCheck s c g d = 0 → blockFull (s.cx c).passes = false →
            sbAdmits (s.cx c).sb (passRanges g d (s.cx c).passId) = true →
            exec (.mpass c w) s = .next (completed (mpassPost c w (enterPass s c g d)) c)))) ∧
      (Issues s c 0x51 { imm := 3 } w → exec (.mwait c w) s =
        .next (if (s.cx c).passes.length ≤ w.imm.toNat % 4 then completed s c else s.setCst c stWaitSync))

/-- R209, R217, R286, R192: STRIG triggers its stream, SWAIT waits for runs, SSTAT reads the status word. -/
def Obligations.StreamInstructions : Prop :=
  ∀ (c : CoreId) (w : IFields) (s t : State) (x : Word), Reads s c w.a x t →
      (Issues s c 0xB0 { a := .sq } w →
        ((x.toNat ≥ 32768 ∨ t.rb Reg.DN_DESC_VALID c.die.val x.toNat = false ∨ sd t c.die x.toNat Reg.DN_DESC_TRIG = 0 ∨
          ownerCore t c.die x.toNat ≠ c ∨ t.rb Reg.DN_SSTAT_PENDING c.die.val x.toNat = true) →
          exec (.strig c w) s = .next (takeTrap s c trStreamFault x.toNat)) ∧
        (x.toNat < 32768 → t.rb Reg.DN_DESC_VALID c.die.val x.toNat = true → sd t c.die x.toNat Reg.DN_DESC_TRIG ≠ 0 →
          ownerCore t c.die x.toNat = c → t.rb Reg.DN_SSTAT_PENDING c.die.val x.toNat = false →
          ∀ new, (streamRanges t c x.toNat).filter (fun e => !(t.cx c).sb.any fun o => o.owner == e.owner) = new →
          sbAdmits (t.cx c).sb new = true → exec (.strig c w) s =
            .next (completed (trigger (setSb t c ((t.cx c).sb ++ new)) c.die x.toNat (phaseTag t c)) c))) ∧
      (Issues s c 0xB1 { a := .sq, imm := 0xFFFF } w → exec (.swait c w) s =
        .next (if w.imm.toNat % 2 ^ 16 ≤ t.rd Reg.DN_SSTAT_RUNS c.die.val (x.toNat % 32768) then completed t c
          else s.setCst c stWaitSync)) ∧
      (Issues s c 0xB2 { d := .s, a := .sq } w → exec (.sstat c w) s = .next (wroteS t c w
        (BitVec.ofNat 32 (wordOf t c.die.val (wordFields .die (0x200000 + 4 * (x.toNat % 32768)))))))

/-- R199, R217, R256: RLW sends a read request and holds for the reply; RSW posts a write, or holds it for a seal, or sets
RFAULT. -/
def Obligations.RemoteLoadsAndStores : Prop :=
  ∀ (c : CoreId) (w : IFields) (s t : State) (m : Nat), mgaOperand c w s = m →
      (w.a.toNat % 2 = 1 ∨ mgaClass m = 5 →
        (Issues s c 0x24 { d := .s, a := .s } w → exec (.rlw c w) s = .next (takeTrap s c trIllegal 0)) ∧
        (Issues s c 0x25 { a := .s, b := .sq } w → exec (.rsw c w) s = .next (takeTrap s c trIllegal 0))) ∧
      (w.a.toNat % 2 = 0 → mgaClass m ≠ 5 →
        (Issues s c 0x24 { d := .s, a := .s } w →
          (m % 4 ≠ 0 → exec (.rlw c w) s = .next (takeTrap s c trMisalign (m % 2 ^ 32))) ∧
          (m % 4 = 0 → mgaNode m = none →
            exec (.rlw c w) s = .next (takeTrap (addrFault s (.core c) m) c trAddrFault (m % 2 ^ 32))) ∧
          (∀ n, m % 4 = 0 → mgaNode m = some n → cacheable s c m = false → reachable s c n = false →
            exec (.rlw c w) s = .next (takeTrap (s.lg LogKind.unreach (coreU c) [m]) c trAddrFault (m % 2 ^ 32))) ∧
          (∀ n, m % 4 = 0 → mgaNode m = some n → cacheable s c m = false → reachable s c n = true →
            exec (.rlw c w) s = .next ((newReq s c m w.d.toNat true false).1.send (.core c) n (.rdreq (s.cx c).tag m false)))) ∧
        (Issues s c 0x25 { a := .s, b := .sq } w →
          (m % 4 ≠ 0 → exec (.rsw c w) s = .next (takeTrap s c trMisalign (m % 2 ^ 32))) ∧
          (∀ y : Word, m % 4 = 0 → Reads s c w.b y t →
            (mgaClass m ≠ 3 ∨ coreGateOpen (if cacheable t c m then rcDrop t c m else t) c
                (phaseTag (if cacheable t c m then rcDrop t c m else t) c) = true →
              exec (.rsw c w) s = .next (completed (postWrite (if cacheable t c m then rcDrop t c m else t) c m y.toNat) c)) ∧
            (mgaClass m = 3 → cacheable t c m = false → coreGateOpen t c (phaseTag t c) = false → exec (.rsw c w) s =
              .next (completed (t.setCx c { t.cx c with
                heldWrites := (t.cx c).heldWrites ++ [⟨m, y.toNat, phaseTag t c⟩] }) c))))) ∧
      (∀ (u : State) (v : Nat), mgaNode m = none → postWrite u c m v =
        addrFault (u.wb Reg.CS_STAT_RFAULT (coreU c) true) (.core c) m)

/-- R213, R324, R95, R186, R171, R217: BAR, BARA, BARW, PHSTART and PHEND arrive and wait as their rules say. -/
def Obligations.BarriersAndPhases : Prop :=
  ∀ (c : CoreId) (w : IFields) (s : State) (g : Nat), w.imm.toNat % 64 = g →
      (Issues s c 0xD0 { imm := 63 } w →
        (hasArrived s c g = false → arraysBusy s c g = true → exec (.bar c w) s = .next (s.setCst c stWaitSync)) ∧
        (hasArrived s c g = false → arraysBusy s c g = false → exec (.bar c w) s =
          .next ((setBarWait (arrive s c g) c (some (g, .bar))).setCst c stWaitSync)) ∧
        (hasArrived s c g = true → exec (.bar c w) s = .next ((setBarWait (s.setCx c { s.cx c with arrAgain := [g] }) c
          (some (g, .bar))).setCst c stWaitSync))) ∧
      (Issues s c 0xD1 { imm := 63 } w →
        (hasArrived s c g = false → arraysBusy s c g = true → exec (.bara c w) s = .next (s.setCst c stWaitSync)) ∧
        (hasArrived s c g = false → arraysBusy s c g = false → exec (.bara c w) s = .next (completed (arrive s c g) c)) ∧
        (hasArrived s c g = true → exec (.bara c w) s = .next ((setBarWait (s.setCx c { s.cx c with arrAgain := [g] }) c
          (some (g, .bara))).setCst c stWaitSync))) ∧
      (Issues s c 0xD2 { imm := 63 } w → exec (.barw c w) s =
        .next ((setBarWait s c (some (g, .barw))).setCst c stWaitSync)) ∧
      (∀ k, gatherOf s c = some k →
        (Issues s c 0xD3 {} w →
          ((s.cx c).phStarted = true → exec (.phstart c w) s = .next (completed s c)) ∧
          ((s.cx c).phStarted = false → exec (.phstart c w) s = .next (restAt
            ((setBarWait (arrive s c (syncGroup s k)) c (some (syncGroup s k, .phstart))).setCst c stWaitSync) c k
            (s.gx k).next (nph s k)))) ∧
        (Issues s c 0xD4 {} w →
          ((s.cx c).phStarted = false → exec (.phend c w) s = .next (restAt
            ((setBarWait (arrive s c (syncGroup s k)) c (some (syncGroup s k, .phend))).setCst c stWaitSync) c k
            ((arrive s c (syncGroup s k)).gx k).next
            (nph ((setBarWait (arrive s c (syncGroup s k)) c (some (syncGroup s k, .phend))).setCst c stWaitSync) k))) ∧
          ((s.cx c).phStarted = true → (s.cx c).passes ≠ [] → exec (.phend c w) s = .next (s.setCst c stWaitSync)) ∧
          ((s.cx c).phStarted = true → (s.cx c).passes = [] → ∃ t, exec (.phend c w) s = .next t ∧ t.cst c = stWaitSync ∧
            (t.cx c).barWait = some (syncGroup s k, .phend) ∧ (t.cx c).endAt = some s.hclk ∧ t.pc c = s.pc c))) ∧
      (gatherOf s c = none →
        (Issues s c 0xD3 {} w → exec (.phstart c w) s = .next (takeTrap s c trIllegal 0)) ∧
        (Issues s c 0xD4 {} w → exec (.phend c w) s = .next (takeTrap s c trIllegal 0)))

/-- R210, R211, R346, R355, R356, R351: QSEND, QSENDN, QSENDR and QSENDRN send under credit, answer a status word, wait or
raise QUEUE_FAULT. -/
def Obligations.QueueSends : Prop :=
  ∀ (c : CoreId) (w : IFields) (s t : State) (h : Word) (u : State), Reads s c w.a h t →
      (∀ (n : Nat) (i : Instr) (blocking : Bool) (o : Nat) (f : Form) (try_ : State → SendRes),
        ((w.b.toNat ≤ 0x1C ∧ (try_ = fun u => trySend u c h.toNat w.b.toNat) ∧
            ((i = .qsend c w ∧ blocking = true ∧ o = 0xC0 ∧ f = { d := .s, a := .sq, b := .s }) ∨
             (i = .qsendn c w ∧ blocking = false ∧ o = 0xC1 ∧ f = { d := .s, a := .sq, b := .s }))) ∨
          ((try_ = fun u => trySendRing u c h.toNat (aBase (rdA t c (w.b.toNat - 0x20))) (aLen (rdA t c (w.b.toNat - 0x20)))) ∧
            (aLen (rdA t c (w.b.toNat - 0x20)) ≤ 65536 → 0 < aLen (rdA t c (w.b.toNat - 0x20)) →
              aBase (rdA t c (w.b.toNat - 0x20)) + aLen (rdA t c (w.b.toNat - 0x20)) ≤ spLimit t c ∧
              sbAdmits (t.cx c).sb [bytesRange (aBase (rdA t c (w.b.toNat - 0x20))) (aLen (rdA t c (w.b.toNat - 0x20))) false]
                = true) ∧
            ((i = .qsendr c w ∧ blocking = true ∧ o = 0xC2 ∧ f = { d := .s, a := .sq, b := .a }) ∨
             (i = .qsendrn c w ∧ blocking = false ∧ o = 0xC3 ∧ f = { d := .s, a := .sq, b := .a })))) →
        Issues s c o f w →
        (try_ t = .status n u → blocking = false → exec i s = .next (wroteS u c w (BitVec.ofNat 32 n))) ∧
        (try_ t = .noCredit u → blocking = false → exec i s = .next (wroteS u c w 1)) ∧
        (try_ t = .status 0 u → blocking = true →
          exec i s = .next (completed (u.setCx c { u.cx c with blockedTwice := false }) c)) ∧
        (try_ t = .status n u → n ≠ 0 → blocking = true → exec i s = .next (takeTrap s c trQueueFault h.toNat)) ∧
        (try_ t = .noCredit u → blocking = true → ∃ v, exec i s = .next v ∧ v.cst c = stWaitSend ∧ v.pc c = s.pc c ∧ SameMemory s v)) ∧
      (∀ e, lookSend t c h.toNat false = .entry e → t.rd Reg.CQ_S_ECRED (coreU c) e ≠ 0 → outsideGather t c h.toNat = false →
        trySend t c h.toNat w.b.toNat = .status 0 (sendEntry
          (t.wr Reg.CQ_S_ECRED (coreU c) (t.rd Reg.CQ_S_ECRED (coreU c) e - 1) e) c h.toNat
          ⟨(rdS t c w.b.toNat).toNat, (rdS t c (w.b.toNat + 1)).toNat, (rdS t c (w.b.toNat + 2)).toNat,
            (rdS t c (w.b.toNat + 3)).toNat, phaseTag t c⟩)) ∧
      (0x1C < w.b.toNat → Issues s c 0xC0 { d := .s, a := .sq, b := .s } w → exec (.qsend c w) s = .next (takeTrap s c trIllegal 0))

/-- R210, R343, R191: QBIND, QUNBIND, QPOP and QCOUNT. -/
def Obligations.QueuePortInstructions : Prop :=
  ∀ (c : CoreId) (w : IFields) (s t : State) (x : Word) (p : Nat), w.fn.toNat % 8 = p →
      (Reads s c w.a x t → Issues s c 0xC4 { a := .sq, fn := 7, imm := 1 } w →
        (bit w.imm.toNat 0 = true → exec (.qunbind c w) s =
            .next (completed (t.setCx c { t.cx c with qbind := smSet 0 (t.cx c).qbind p 0 }) c) ∧
          exec (.qbind c w) s = exec (.qunbind c w) s) ∧
        (bit w.imm.toNat 0 = false →
          (t.rd Reg.CQ_Q_STATE (coreU c) (x.toNat % 256) ≠ 0 → t.rd Reg.CQ_Q_STATE (coreU c) (x.toNat % 256) ≠ 3 →
            exec (.qbind c w) s =
              .next (completed (t.setCx c { t.cx c with qbind := smSet 0 (t.cx c).qbind p (x.toNat % 256 + 1) }) c)) ∧
          (t.rd Reg.CQ_Q_STATE (coreU c) (x.toNat % 256) = 0 ∨ t.rd Reg.CQ_Q_STATE (coreU c) (x.toNat % 256) = 3 → exec (.qbind c w) s = .next (takeTrap s c trQueueFault
            (handleOf t c (x.toNat % 256) / 2 ^ 16 * 2 ^ 16))))) ∧
      (Issues s c 0xC5 { fn := 7 } w →
        (smGet 0 (s.cx c).qbind p = 0 → exec (.qpop c w) s = .next (takeTrap s c trIllegal 0)) ∧
        ∀ q, smGet 0 (s.cx c).qbind p = q + 1 → exec (.qpop c w) s =
          .next (completed (if (smGet [] (s.cx c).entries q).isEmpty then s else popHead s c q) c)) ∧
      (Issues s c 0xC6 { d := .s, fn := 7 } w →
        (∀ q, smGet 0 (s.cx c).qbind p = q + 1 → exec (.qcount c w) s =
          .next (wroteS s c w (BitVec.ofNat 32 (smGet [] (s.cx c).entries q).length))) ∧
        (smGet 0 (s.cx c).qbind p = 0 → ∃ v, exec (.qcount c w) s = .next (wroteS { s with free := s.free + 1 } c w v)))

/-- R338, R339, R341, R364, R211: QCREATE reserves a queue and asks the sender, or answers 0 with its reason; QDESTROY
starts the destruction or answers a status. -/
def Obligations.ChannelCreateAndDestroy : Prop :=
  ∀ (c : CoreId) (w : IFields) (s t : State) (x y : Word),
      (Reads2 s c w x y t → Issues s c 0xC7 { d := .s, a := .sq, b := .sq } w →
        (∀ r, createCheck t c x.toNat y.toNat = .error r → exec (.qcreate c w) s = .next (wroteS (createFail t c r) c w 0)) ∧
        (∀ q n, createCheck t c x.toNat y.toNat = .ok q → nodeOfNum (bits x.toNat 12 10) = some n →
          reachable t c n = true → ∃ u, exec (.qcreate c w) s = .next u ∧
            u.out = s.out ++ [.packet (.core c) n (.handleCreate (handleOf (reserveQueue s c x.toNat y.toNat q) c q)
              (bit x.toNat 9) (depthOf (bits x.toNat 10 2)) (64 * bits y.toNat 13 13))] ∧
            (u.cx c).handleWait = some (.create (handleOf (reserveQueue s c x.toNat y.toNat q) c q) q
              (depthOf (bits x.toNat 10 2)) w.d.toNat) ∧
            u.rd Reg.CQ_Q_STATE (coreU c) q = (if bit x.toNat 9 then 2 else 1) ∧
            u.rd Reg.CQ_Q_GEN (coreU c) q = nextGen (s.rd Reg.CQ_Q_GEN (coreU c) q) % 2 ^ 16 ∧ SameMemory s u)) ∧
      (Reads s c w.a x t → Issues s c 0xC8 { d := .s, a := .sq } w →
        (handleCore x.toNat ≠ c ∨ t.rd Reg.CQ_Q_STATE (coreU c) (handleIdx x.toNat) = 0 →
          exec (.qdestroy c w) s = .next (wroteS t c w 4)) ∧
        (handleCore x.toNat = c → t.rd Reg.CQ_Q_STATE (coreU c) (handleIdx x.toNat) ≠ 0 →
          (handleGen x.toNat ≠ t.rd Reg.CQ_Q_GEN (coreU c) (handleIdx x.toNat) → exec (.qdestroy c w) s = .next (wroteS t c w 2)) ∧
          (handleGen x.toNat = t.rd Reg.CQ_Q_GEN (coreU c) (handleIdx x.toNat) →
            t.rd Reg.CQ_Q_STATE (coreU c) (handleIdx x.toNat) ≠ 3 → t.rb Reg.CQ_Q_PZ (coreU c) (handleIdx x.toNat) = true →
            exec (.qdestroy c w) s = .next (wroteS (t.lg LogKind.frozenRefused (coreU c) [handleIdx x.toNat]) c w 5)) ∧
          (∀ n, handleGen x.toNat = t.rd Reg.CQ_Q_GEN (coreU c) (handleIdx x.toNat) →
            t.rd Reg.CQ_Q_STATE (coreU c) (handleIdx x.toNat) ≠ 3 → t.rb Reg.CQ_Q_PZ (coreU c) (handleIdx x.toNat) = false →
            (∀ v ∈ [s, t], nodeOfNum (v.rd Reg.CQ_Q_SENDER (coreU c) (handleIdx x.toNat)) = some n ∧ reachable v c n = true) →
            ∃ u, exec (.qdestroy c w) s = .next u ∧
              u.out = s.out ++ [.packet (.core c) n (.handleDestroy (handleOf s c (handleIdx x.toNat)))] ∧
              (u.cx c).handleWait = some (.destroy x.toNat (handleIdx x.toNat) w.d.toNat) ∧
              u.rd Reg.CQ_Q_STATE (coreU c) (handleIdx x.toNat) = 3 ∧ smGet [] (u.cx c).entries (handleIdx x.toNat) = [] ∧
              SameMemory s u)))

/-- R194, R184, R190, R225, R628: What the 32 register instructions leave unchanged: everything but sD, the PC and the
loop stack. -/
def Obligations.ScalarInstructionsFrame : Prop :=
  ∀ (c : CoreId) (w : IFields) (s t : State) (x y : Word) (i : Instr) (o : Nat),
      ((Reads2 s c w x y t ∧ Issues s c o formRRR w ∧
          (o, i) ∈ [(0, Instr.add c w), (1, Instr.sub c w), (2, Instr.and c w), (3, Instr.or c w), (4, Instr.xor c w), (5, Instr.sll c w), (6, Instr.srl c w), (7, Instr.sra c w), (8, Instr.slt c w), (9, Instr.sltu c w), (10, Instr.mul c w), (11, Instr.mulh c w), (12, Instr.min c w), (13, Instr.max c w), (14, Instr.eq c w), (15, Instr.ne c w)]) ∨
        (Reads s c w.a x t ∧ Issues s c o formRRI w ∧
          (o, i) ∈ [(16, Instr.addi c w), (17, Instr.subi c w), (18, Instr.andi c w), (19, Instr.ori c w), (20, Instr.xori c w), (21, Instr.slli c w), (22, Instr.srli c w), (23, Instr.srai c w), (24, Instr.slti c w), (25, Instr.sltui c w), (26, Instr.muli c w), (27, Instr.mulhi c w), (28, Instr.mini c w), (29, Instr.maxi c w), (30, Instr.eqi c w), (31, Instr.nei c w)])) →
      ∃ u, exec i s = .next u ∧ SameMemory t u ∧
        (∀ (F : Field) (v j k : Nat), v ≠ coreU c ∨ F.id ∉ [Reg.CS_SREG_VALUE.id, Reg.CS_PC_PC.id, Reg.CS_STAT_STATE.id,
            Reg.CS_STAT_LDEPTH.id, Reg.CS_TRAP_CODE.id, Reg.CS_TRAP_VALID.id, Reg.CS_TRAP_COUNT.id, Reg.CS_TRAPPC_PC.id,
            Reg.CS_TRAPIW_WORD.id, Reg.CS_TRAPINFO_INFO.id] → u.rd F v j k = t.rd F v j k) ∧
        (∀ n, n ≠ w.d.toNat ∨ n = 0 → rdS u c n = rdS t c n) ∧ (∀ n, rdV u c n = rdV t c n) ∧
        ((t.cx c).loops = [] → s.pc c + 1 < 8192 → t.pc c = s.pc c → u.pc c = s.pc c + 1)

/-- R186, R184, R220, R516: An instruction command does nothing unless its core can issue and stands at its word. -/
def Obligations.InstructionsNeedTheirCore : Prop :=
  ∀ (c : CoreId) (w : IFields) (s : State) (i : Instr) (o : Nat),
      (o, i) ∈ [(0x20, Instr.lw c w), (0x21, .sw c w), (0x24, .rlw c w), (0x25, .rsw c w), (0x36, .j c w), (0x39, .loop c w),
        (0x40, .aset c w), (0x50, .mpass c w), (0x51, .mwait c w), (0x60, .vadd c w), (0x70, .vrsum c w), (0x80, .vexp2 c w),
        (0x90, .cvt c w), (0xA0, .vld c w), (0xA1, .vst c w), (0xB0, .strig c w), (0xC0, .qsend c w), (0xC5, .qpop c w),
        (0xC7, .qcreate c w), (0xD0, .bar c w), (0xD4, .phend c w), (0xE0, .csrr c w), (0xE1, .csrw c w), (0xF0, .nop c w),
        (0xF2, .trap c w), (0xF3, .halt c w)] →
      (canIssue s c = false ∨ imemWord s c (s.pc c) ≠ encodeI o w → exec i s = .next s) ∧
      (s.rb Reg.BT_CLKSTAT_STOPPED c.die.val = true ∨ (s.cx c).dead = true ∨ stTrapped ≤ s.cst c ∨ (s.cx c).barWait ≠ none ∨
        3 ≤ s.rd Reg.LH_CSTATE_STATE (coreU c) ∨ (2 ≤ s.rd Reg.LH_CSTATE_STATE (coreU c) ∧ (s.cx c).waking = none) → canIssue s c = false)

/-- R85, R86, R91, R102, R160, R629: Tile loads, swaps, row groups, pass completion and the shadow recompute move passes
through the array block. -/
def Obligations.ArrayBlockEvents : Prop :=
  ∀ (c : CoreId) (s : State),
      (∀ p, loadingPass s c = some p →
        (bankShare s c ownTile = 0 → ∀ e, exec (.tileLoadComplete c e) s = .next s) ∧
        (bankShare s c ownTile ≠ 0 → p.stage ≠ .streaming → ∀ e, ∃ t, exec (.tileLoadComplete c e) s = .next t ∧
          (t.cx c).shadow.isSome = true ∧ (∀ q ∈ (t.cx c).passes, q.id = p.id → q.stage = .loaded) ∧ SameMemory s t)) ∧
      (∀ p x, (s.cx c).passes.find? (fun q => q.stage != .draining) = some p → (s.cx c).shadow = some x → p.stage = .loaded →
        aclkRuns s c = true → s.rd Reg.LH_CSTATE_STATE (coreU c) < 2 → ∃ t, exec (.passSwap c) s = .next t ∧ (t.cx c).tile = x ∧
          (t.cx c).shadow = none ∧ t.rb Reg.CA_STAT_XVALID (coreU c) = true ∧
          t.rd Reg.CA_STAT_XFMTP (coreU c) = x.fmtp % 4 ∧ ∀ q ∈ (t.cx c).passes, q.id = p.id → q.stage = .streaming) ∧
      (∀ p, streamingPass s c = some p → p.desc.wsrc = false → bankShare s c ownWgt ≠ 0 →
        (geoOf s c p.desc.fmtp p.desc.mode p.desc.heritage).isPair = false → ∀ e, ∃ t, exec (.rowGroupEntry c e) s = .next t ∧
          ∀ q ∈ (t.cx c).passes, q.id = p.id → (p.group + 1 < (p.desc.nch + 3) / 4 →
            q.group = p.group + 1 ∧ q.stage = .streaming) ∧ ((p.desc.nch + 3) / 4 ≤ p.group + 1 → q.stage = .draining)) ∧
      (∀ p r, (s.cx c).passes = p :: r → p.stage = .draining → aclkRuns s c = true → ∃ t, exec (.passComplete c) s = .next t ∧
        (t.cx c).passes = r ∧ t.rd Reg.CA_PASSES_COUNT (coreU c) = satAdd 32 (s.rd Reg.CA_PASSES_COUNT (coreU c)) 1 % 2 ^ 32 ∧
        (p.ovf = true → t.rb Reg.CA_FLAGS_OVF (coreU c) = true) ∧ (p.nan = true → t.rb Reg.CA_FLAGS_NAN (coreU c) = true) ∧
        (p.sat = true → t.rb Reg.CA_FLAGS_SAT (coreU c) = true) ∧ (p.ue = true → t.rb Reg.CA_FLAGS_UE (coreU c) = true)) ∧
      (∀ q, (s.cx c).capture = some q → ∃ t, exec (.shadowRecompute c) s = .next t ∧ (t.cx c).capture = none ∧
        t.rd Reg.CV_SHSAMP_COUNT (coreU c) = satAdd 32 (s.rd Reg.CV_SHSAMP_COUNT (coreU c)) 1 % 2 ^ 32 ∧ SameMemory s t)

/-- R234, R235, R243, R246, R248, R257, R262: Bank grants, ECC write-back, row map-out, patrol, zeroing and invalidation
at a scratchpad. -/
def Obligations.ScratchpadEvents : Prop :=
  ∀ (c : CoreId) (s : State),
      (∀ (b : Fin 16) (a : BankAccess) (q : DynReq), bankOffered s c b.val a.slot.val a.ownerUses = true →
        a.debugLate = false → q ≠ .debug →
        arbWinner s c b.val ((a.reqs.eraseDups).filter fun q => q == .debug || !(arbOf s c b.val q).backoff) = some q →
        ∃ t, exec (.bankGrant c b a) s = .next t ∧ arbOf t c b.val q = ⟨0, false⟩ ∧
          smGet 0 (t.cx c).arbPtr b.val = (dynNum q + 1) % 4 ∧ SameMemory s t ∧
          ∀ r ∈ (a.reqs.eraseDups).filter (fun q => q == .debug || !(arbOf s c b.val q).backoff), r ≠ q →
            arbOf t c b.val r = ⟨(arbOf s c b.val r).losses + 1, true⟩) ∧
      (∀ (b : Fin 16) (a : BankAccess), bankOffered s c b.val a.slot.val a.ownerUses = false → exec (.bankGrant c b a) s = .next s) ∧
      (∀ (b : Fin 16) (q : DynReq), exec (.bankBackoffExpiry c b q) s =
        .next (setArb s c b.val q { arbOf s c b.val q with backoff := false })) ∧
      (∀ word, (s.cx c).writeback.contains (spBase c / 8 + word) = true → ∃ t, exec (.eccWriteback c word) s = .next t ∧
        (t.cx c).writeback.contains (spBase c / 8 + word) = false ∧ smGet 0 t.eccBad (spBase c / 8 + word) ≠ 1 ∧ SameMemory s t) ∧
      (∀ row, (s.cx c).mapWanted.contains row = true → (s.cx c).mapping = none → s.cst c = stIdle → sparesUsed s c row < 8 →
        ∃ t, exec (.rowMapOut c row) s = .next t ∧ (t.cx c).mapping = some row ∧
          (t.cx c).mapWanted.contains row = false ∧ SameRegs s t) ∧
      (∀ row, (s.cx c).mapping = some row → sparesUsed s c row < 8 → ∃ t, exec (.mapOutComplete c) s = .next t ∧
        (t.cx c).mapping = none ∧ SameMemory s t ∧ ∃ k < 8, smGet 0 (rowMap s (macroPos s c)) (8 * (row / 512) + k) = 0 ∧
          smGet 0 (rowMap t (macroPos s c)) (8 * (row / 512) + k) = row + 1) ∧
      (∀ (b : Fin 16) (e : EccFind), s.rb Reg.BT_CLKSTAT_STOPPED c.die.val = false → ∃ t,
        exec (.patrolScrub c b e) s = .next t ∧ SameMemory s t ∧
          smGet 0 (t.cx c).patrol b.val = (smGet 0 (s.cx c).patrol b.val + 1) % 24576) ∧
      (∀ r, mayWrite .fw r .core (coreU c) = true →
        (s.cst c = stIdle ∨ s.cst c = stHalted → exec (.zero r c) s = .next (s.wb Reg.CP_STAT_ZEROING (coreU c) true)) ∧
        (s.cst c ≠ stIdle → s.cst c ≠ stHalted → exec (.zero r c) s = .next (s.lg LogKind.zeroRefused (coreU c) []))) ∧
      (s.rb Reg.CP_STAT_ZEROING (coreU c) = true → ∃ t, exec (.zeroComplete c) s = .next t ∧
        t.rb Reg.CP_STAT_ZEROING (coreU c) = false ∧ (∀ k < 0x1800000, t.rdByte (spBase c + k) = 0) ∧
        SameOutside (spBase c) 0x1800000 s t) ∧
      (∀ r, exec (.rcinv r c) s = .next (rcInvalidate s c)) ∧
      (rcBytes s c ≠ 0 → ((rcInvalidate s c).cx c).rcTags = [] ∧ (rcInvalidate s c).rb Reg.CP_STAT_RCINV (coreU c) = true) ∧
      exec (.rcinvComplete c) s = .next (s.wb Reg.CP_STAT_RCINV (coreU c) false)

/-- R167, R174, R175, R182, R186: A phase that has ended with its dependencies sealed is sealed, or recalled one rung up;
its rerun enters the phase again. -/
def Obligations.SealVerdictsAndReruns : Prop :=
  ∀ (g : Gather) (s : State) (p : PhaseX) (r : List PhaseX), (s.gx g).phases = p :: r →
      (p.ended = false → exec (.sealVerdict g) s = .next s) ∧
      (p.ended = true → (∀ q ∈ phaseDeps s g p.ph, phaseSealed s q.1 q.2 = true) →
        (p.range = false → p.mem = false → exec (.sealVerdict g) s = .next (sealPhase s g p 0) ∧
          ((sealPhase s g p 0).gx g).nsealed = p.ph + 1 ∧ ((sealPhase s g p 0).gx g).phases = (p :: r).filter (fun q => q.ph != p.ph) ∧
          (sealPhase s g p 0).rd Reg.SY_VCNT_SEALS g.die.val g.idx.val =
            satAdd 16 (s.rd Reg.SY_VCNT_SEALS g.die.val g.idx.val) 1 % 2 ^ 16 ∧ SameMemory s (sealPhase s g p 0)) ∧
        (p.range = true → p.mem = false → rungOf s g < s.rd Reg.PZ_LADDER_NRUNG g.die.val g.idx.val → ∃ t,
          exec (.sealVerdict g) s = .next t ∧ rungOf t g = (rungOf s g + 1) % 4 ∧ (t.gx g).rr = some p.ph ∧
            (t.gx g).next = p.ph ∧ (∀ q ∈ (t.gx g).phases, q.ph < p.ph) ∧
            (t.gx g).toFlush = (gatherCores s g).map (fun c => c.lc.val) ∧ SameMemory s t)) ∧
      (∀ q, (s.gx g).rr = some q → (s.gx g).toFlush = [] → (s.gx g).waitOn = [] → startFree s g = true → ∃ t,
        exec (.rerunStart g) s = .next t ∧ (t.gx g).rr = none ∧ SameMemory s t ∧ ∀ c ∈ gatherCores s g, t.cst c = stRun ∧
          t.pc c = entryPc s c q (rungOf s g) % 2 ^ 13 ∧ (t.cx c).loops = [])

/-- R324, R326, R327, R328, R415: Rounds of barrier groups: release, stall, parity, and messages between a die and the
hub. -/
def Obligations.BarrierRounds : Prop :=
  ∀ (d : DieId) (g : Fin 64) (s : State),
      (allArrived s d g.val = false ∨ (s.dx d).parityHeld.contains (g.val / 32) = true →
        exec (.barrierRelease d g) s = .next s) ∧
      (allArrived s d g.val = true → crossDie s d g.val = false → (s.dx d).parityHeld.contains (g.val / 32) = false →
        syncStopped s d = false →
        s.rb Reg.SY_GRP_PHASE d.val g.val = false → exec (.barrierRelease d g) s = .next (completeRound s d g.val)) ∧
      (s.rb Reg.SY_GRP_OPEN d.val g.val = true → missing s d g.val = 0 → crossDie s d g.val = false → exec (.barrierStall d g) s = .next s) ∧
      (s.rb Reg.SY_GRP_OPEN d.val g.val = true → syncStopped s d = false → missing s d g.val ≠ 0 ∨ crossDie s d g.val = true →
        ∃ t, exec (.barrierStall d g) s = .next t ∧
        t.rb Reg.SY_GRP_STALL d.val g.val = true ∧ SameMemory s t ∧
        t.rd64 Reg.SY_ARR_LO Reg.SY_ARR_HI d.val g.val = s.rd64 Reg.SY_ARR_LO Reg.SY_ARR_HI d.val g.val) ∧
      (∀ (b : Fin 2) (p : Pos), syncStopped s d = false → ∃ t, exec (.syncParity d b p) s = .next t ∧ (t.dx d).parityHeld.contains b.val = true ∧
        SameRegs s t ∧ SameMemory s t) ∧
      ∀ (q : Fin 16) (crc : BitVec 8),
        (crc8 40 (sbWord 2 (syncPayload true g.val) q.val) ≠ crc.toNat → exec (.sync (.release d g) q crc) s =
          .next (sbSend s (.die d 0) 0xF (s.sb (.die d 0)).expect)) ∧
        (crc8 40 (sbWord 2 (syncPayload true g.val) q.val) = crc.toNat →
          (q.val = (s.sb (.die d 0)).expect → (s.dx d).parityHeld.contains (g.val / 32) = false → syncStopped s d = false →
            exec (.sync (.release d g) q crc) s =
              .next (completeRound (s.setSb (.die d 0) { s.sb (.die d 0) with expect := (q.val + 1) % 16 }) d g.val)) ∧
          (q.val ≠ (s.sb (.die d 0)).expect → exec (.sync (.release d g) q crc) s = .next s)) ∧
        (crc8 40 (sbWord 2 (syncPayload false g.val) q.val) = crc.toNat → q.val = sbWant s (.hub d) →
          ((smGet 0 s.hubSync g.val ||| 2 ^ d.val ||| idleDies s g.val) &&& s.rd Reg.SY_GRP_XDIE d.val g.val =
              s.rd Reg.SY_GRP_XDIE d.val g.val →
            (∀ e : DieId, bit (s.rd Reg.SY_GRP_XDIE d.val g.val) e.val = true → (s.dx e).syncDue = none) →
            ∃ t, exec (.sync (.arrive d g) q crc) s = .next t ∧ smGet 0 t.hubSync g.val = 0 ∧ SameMemory s t ∧ SameRegs s t ∧
              ∀ e : DieId, bit (s.rd Reg.SY_GRP_XDIE d.val g.val) e.val = true →
                (t.sb (.hub e)).queue = (s.sb (.hub e)).queue ++ [⟨2, syncPayload true g.val⟩]) ∧
          ((smGet 0 s.hubSync g.val ||| 2 ^ d.val ||| idleDies s g.val) &&& s.rd Reg.SY_GRP_XDIE d.val g.val ≠
              s.rd Reg.SY_GRP_XDIE d.val g.val → ∃ t, exec (.sync (.arrive d g) q crc) s = .next t ∧
            smGet 0 t.hubSync g.val = smGet 0 s.hubSync g.val ||| 2 ^ d.val ∧ SameMemory s t ∧ SameRegs s t))

/-- R342, R345, R353, R354, R359, R520, R65: Queue messages land, credits return and ring records are released. -/
def Obligations.QueueMessagesAndCredit : Prop :=
  ∀ (c : CoreId) (s : State),
      (Takes c s →
        (∀ (h : Word) (a b d e : Word) (p : BitVec 16), handleCore h.toNat = c →
          (s.rd Reg.CQ_Q_STATE (coreU c) (handleIdx h.toNat) = 1 → handleGen h.toNat = s.rd Reg.CQ_Q_GEN (coreU c) (handleIdx h.toNat) →
            ((smGet [] (s.cx c).dropSet (handleIdx h.toNat)).contains p.toNat = true → exec (.qmsg c ⟨h, .entry a b d e p⟩) s =
              .next (addCredit (s.bump Reg.CQ_DISCARD_COUNT (coreU c)) c (handleIdx h.toNat) 1 0)) ∧
            ((smGet [] (s.cx c).dropSet (handleIdx h.toNat)).contains p.toNat = false →
              ((smGet [] (s.cx c).entries (handleIdx h.toNat)).length < depthOf (s.rd Reg.CQ_Q_DEPTH (coreU c) (handleIdx h.toNat)) →
                ∃ t, exec (.qmsg c ⟨h, .entry a b d e p⟩) s = .next t ∧ SameMemory s t ∧ t.out = s.out ∧
                  smGet [] (t.cx c).entries (handleIdx h.toNat) = smGet [] (s.cx c).entries (handleIdx h.toNat) ++
                    [⟨a.toNat, b.toNat, d.toNat, e.toNat, p.toNat⟩] ∧
                  t.rd Reg.CQ_RECV_COUNT (coreU c) = satAdd 32 (s.rd Reg.CQ_RECV_COUNT (coreU c)) 1 % 2 ^ 32) ∧
              (depthOf (s.rd Reg.CQ_Q_DEPTH (coreU c) (handleIdx h.toNat)) ≤ (smGet [] (s.cx c).entries (handleIdx h.toNat)).length →
                exec (.qmsg c ⟨h, .entry a b d e p⟩) s =
                  .next ((s.bump Reg.CQ_DROP_COUNT (coreU c)).lg LogKind.qOverrun (coreU c) [handleIdx h.toNat])))) ∧
          (∀ m : QBody, s.rd Reg.CQ_Q_STATE (coreU c) (handleIdx h.toNat) = 0 ∨
            handleGen h.toNat ≠ s.rd Reg.CQ_Q_GEN (coreU c) (handleIdx h.toNat) →
            exec (.qmsg c ⟨h, m⟩) s = .next (s.bump Reg.CQ_DROP_COUNT (coreU c))) ∧
          (s.rd Reg.CQ_Q_STATE (coreU c) (handleIdx h.toNat) = 2 → handleGen h.toNat = s.rd Reg.CQ_Q_GEN (coreU c) (handleIdx h.toNat) →
            (∀ line data, exec (.qmsg c ⟨h, .ring line data none⟩) s =
              .next (spWrite s c (4096 * s.rd Reg.CQ_Q_RBASE (coreU c) (handleIdx h.toNat) + 64 * line) data rqQm)) ∧
            (∀ line data (r : RecHdr), (smGet [] (s.cx c).dropSet (handleIdx h.toNat)).contains r.pseq = false →
              (smGet [] (s.cx c).entries (handleIdx h.toNat)).length < depthOf (s.rd Reg.CQ_Q_DEPTH (coreU c) (handleIdx h.toNat)) →
              ∃ t, exec (.qmsg c ⟨h, .ring line data (some r)⟩) s = .next t ∧
                SameOutside (spBase c + (4096 * s.rd Reg.CQ_Q_RBASE (coreU c) (handleIdx h.toNat) + 64 * line)) data.length s t ∧
                smGet [] (t.cx c).entries (handleIdx h.toNat) = smGet [] (s.cx c).entries (handleIdx h.toNat) ++
                  [⟨4096 * s.rd Reg.CQ_Q_RBASE (coreU c) (handleIdx h.toNat) + 64 * (r.line + 1), r.len, r.rseq, r.lines, r.pseq⟩] ∧
                smGet [] (t.cx c).rings (handleIdx h.toNat) = smGet [] (s.cx c).rings (handleIdx h.toNat) ++
                  [⟨r.line, r.lines, false, false, false, r.pseq, r.rseq⟩]) ∧
            ∀ line lines (p : BitVec 16), ∃ t, exec (.qmsg c ⟨h, .pad line lines p⟩) s = .next t ∧
              SameOutside (spBase c + (4096 * s.rd Reg.CQ_Q_RBASE (coreU c) (handleIdx h.toNat) + 64 * line)) 64 s t ∧
              smGet [] (t.cx c).rings (handleIdx h.toNat) = smGet [] (s.cx c).rings (handleIdx h.toNat) ++
                [⟨line, lines, true, false, false, p.toNat, 0⟩])) ∧
        (∀ h : Word, ((gatherOf s c).any fun g => (s.gx g).toFlush.contains c.lc.val) = false → ∃ t, exec (.flush c h) s = .next t ∧
          smGet [] (t.cx c).dropSet (handleIdx h.toNat) = [] ∧ SameRegs s t ∧ SameMemory s t) ∧
        (∀ h : Word, ((gatherOf s c).any fun g => (s.gx g).toFlush.contains c.lc.val) = true → ∃ t, exec (.flush c h) s = .next t ∧
          (t.cx c).marked.contains (handleIdx h.toNat) = true ∧ (t.cx c).dropSet = (s.cx c).dropSet ∧ SameRegs s t ∧ SameMemory s t) ∧
        (∀ (h : Word) (n m : Nat),
          (∀ e, findSend s c h.toNat = some e → s.cst c ≠ stWaitSend → exec (.qcredit (.core c) h n m) s =
            .next ((s.wr Reg.CQ_S_ECRED (coreU c) (s.rd Reg.CQ_S_ECRED (coreU c) e + n) e).wr Reg.CQ_S_LCRED (coreU c)
              (s.rd Reg.CQ_S_LCRED (coreU c) e + m) e)) ∧
          (findSend s c h.toNat = none → exec (.qcredit (.core c) h n m) s = .next s)) ∧
        (∀ q : Fin 256, smGet (⟨0, 0⟩ : CredWait) (s.cx c).cred q.val ≠ ⟨0, 0⟩ →
          ∀ n, nodeOfNum (s.rd Reg.CQ_Q_SENDER (coreU c) q.val) = some n → ∃ t, exec (.qcreditTimer c q) s = .next t ∧
            t.out = s.out ++ [.packet (.core c) n (.qcredit (handleOf s c q.val) (smGet (⟨0, 0⟩ : CredWait) (s.cx c).cred q.val).entries
              (smGet (⟨0, 0⟩ : CredWait) (s.cx c).cred q.val).lines)] ∧
            smGet (⟨0, 0⟩ : CredWait) (t.cx c).cred q.val = ⟨0, 0⟩ ∧ SameMemory s t ∧ SameRegs s t)) ∧
      (∀ q : Fin 256, smGet (⟨0, 0⟩ : CredWait) (s.cx c).cred q.val = ⟨0, 0⟩ → exec (.qcreditTimer c q) s = .next s) ∧
      (∀ (q : Fin 256) (n : BitVec 8), s.rd Reg.CQ_Q_STATE (coreU c) q.val ≠ 2 → exec (.ringRelease c q n) s =
        .next (s.lg LogKind.ringReleaseExcess (coreU c) [q.val, n.toNat])) ∧
      (∀ (q : Fin 256) (n : BitVec 8), s.rd Reg.CQ_Q_STATE (coreU c) q.val = 2 → ∃ t, exec (.ringRelease c q n) s = .next t ∧
        SameMemory s t ∧ t.rd Reg.CQ_Q_POPPED (coreU c) q.val =
          poppedOf (relRecs n.toNat (smGet [] (s.cx c).rings q.val)).1 % 2 ^ 8) ∧
      (s.rb Reg.BT_CLKSTAT_STOPPED c.die.val = true → (∀ m, exec (.qmsg c m) s = .next s) ∧ (∀ h, exec (.flush c h) s = .next s) ∧
        (∀ h n m, exec (.qcredit (.core c) h n m) s = .next s) ∧ ∀ q, exec (.qcreditTimer c q) s = .next s) ∧
      (s.rb Reg.BT_CLKSTAT_STOPPED c.die.val = false → 3 ≤ cstateOf s c → ∀ m : QMsg, exec (.qmsg c m) s =
        .next (startWakes { s with ejected := smSet [] s.ejected (coreU c) (smGet [] s.ejected (coreU c) ++
          [(nodeNum (.core (handleCore m.handle.toNat)), .qmsg m)]) } c.die [c] false)) ∧
      ∀ (h : Word) (n m : Nat), (runsOf s fun r => (r.ent.opc == opSend || r.ent.opc == opSendr) && r.ent.arg == h.toNat) = [] →
        ∃ t, exec (.qcredit (.hub 5) h n m) s = .next t ∧ SameMemory s t ∧ SameRegs s t ∧
          t.hubSend = s.hubSend.map fun e => if e.handle = h.toNat then { e with ecred := e.ecred + n, lcred := e.lcred + m } else e

/-- R339, R341, R343, R362, R364, R211: HANDLE CREATE, its acknowledgement, HANDLE DESTROY, HANDLE PURGE and
CQ_CMD.DESTROY. -/
def Obligations.ChannelHandshakes : Prop :=
  ∀ (c : CoreId) (s : State), Takes c s → ∀ (h : Word),
      (∀ (ring : Bool) (depth lines : Nat),
        (∀ t, installSend s c h.toNat ring depth lines = some t → exec (.handleCreate (.core c) h ring depth lines) s =
          .next (t.send (.core c) (.core (handleCore h.toNat)) (.handleAck h.toNat none))) ∧
        (installSend s c h.toNat ring depth lines = none → exec (.handleCreate (.core c) h ring depth lines) s =
          .next (s.send (.core c) (.core (handleCore h.toNat)) (.handleAck h.toNat (some 5))))) ∧
      (∀ q n d, (s.cx c).handleWait = some (.create h.toNat q n d) →
        exec (.handleAck c h none) s = .next (endHandle s c d h.toNat) ∧
        ∀ r, exec (.handleAck c h (some r)) s = .next (endHandle (createFail (freeQueue s c q) c r) c d 0)) ∧
      (∀ k d, (s.cx c).handleWait = some (.destroy k (handleIdx h.toNat) d) →
        exec (.handleAck c h none) s = .next (endHandle (endDestroy s c (handleIdx h.toNat)) c d 0)) ∧
      (exec (.handleDestroy (.core c) h) s = .next ((dropChannel s c h.toNat).send (.core c) (.core (handleCore h.toNat)) (.handleAck h.toNat none))) ∧
      (∀ d : DieId, ∃ t, exec (.handlePurge d) s = .next t ∧ ∀ e ∈ t.hubSend, (handleCore e.handle).die ≠ d) ∧
      (∀ (r : Requester) (q : Fin 256), mayWrite .fw r .core (coreU c) = true →
        (s.rb Reg.CQ_Q_PZ (coreU c) q.val = true → exec (.cqCmdDestroy r c q) s = .next (s.lg LogKind.frozenRefused (coreU c) [q.val])) ∧
        (s.rb Reg.CQ_Q_PZ (coreU c) q.val = false → s.rd Reg.CQ_Q_STATE (coreU c) q.val ≠ 0 → s.rd Reg.CQ_Q_STATE (coreU c) q.val ≠ 3 →
          s.cst c ≠ stWaitQ → exec (.cqCmdDestroy r c q) s = .next (startDestroy s c q.val).1))

/-- R47, R199, R318, R249, R519, R217: Requests at their target, replies at their core, timeouts, and the end of a wake.
-/
def Obligations.ControlNetworkTraffic : Prop :=
  ∀ (c : CoreId) (s : State),
      (∀ (src : NodeId) (tag : BitVec 12) (m : Mga), mgaClass m.toNat = 0 → mgaCore m.toNat = c → Takes c s →
        (served s m.toNat 4 = true → exec (.rdreq src tag m false) s =
          .next ((spRead s c (mgaOff25 m.toNat) 4 rqRw).2.send (answerNode m.toNat) src (.rdrsp tag.toNat false (spRead s c (mgaOff25 m.toNat) 4 rqRw).1))) ∧
        (served s m.toNat 4 = false → exec (.rdreq src tag m false) s =
          .next ((reqFault s src m.toNat).send (answerNode m.toNat) src (.rdrsp tag.toNat true [255, 255, 255, 255]))) ∧
        (∀ data, served s m.toNat data.length = true → exec (.wrreq src tag m data) s =
          .next ((remoteWrite s c (mgaOff25 m.toNat) data (nodeSender src)).2.send (answerNode m.toNat) src (.wrrsp tag.toNat ((remoteWrite s c (mgaOff25 m.toNat) data (nodeSender src)).1 == acOk))))) ∧
      (∀ off data n, data ≠ [] → winCheck s c off data.length n = .accept none → remoteWrite s c off data n =
        (acOk, spWrite s c off data rqRw)) ∧
      (∀ (tag : BitVec 12) (q : NetReq) (data : List Byte), Takes c s → findReq s c tag.toNat true = some q →
        (q.fill = false → data.length = 4 → exec (.rdrsp c tag false data) s =
          .next (advance ((wrS (dropReq s c q) c q.dest (BitVec.ofNat 32 (ofLeBytes data))).setCst c stRun) c)) ∧
        exec (.rdrsp c tag true data) s = .next (takeTrap (dropReq s c q) c trAddrFault (q.mga % 2 ^ 32))) ∧
      (∀ (tag : BitVec 12) (q : NetReq), Takes c s → findReq s c tag.toNat false = some q →
        exec (.wrrsp c tag true) s = .next (dropReq s c q) ∧
        exec (.wrrsp c tag false) s = .next ((dropReq s c q).wb Reg.CS_STAT_RFAULT (coreU c) true)) ∧
      (∀ (tag : BitVec 12) (q : NetReq), (s.cx c).reqs.find? (fun q => q.tag == tag.toNat) = some q → ∃ t,
        exec (.cnTimeout c tag) s = .next t ∧ (∀ r ∈ (t.cx c).reqs, r.tag ≠ q.tag) ∧ SameMemory s t ∧
          (q.read = true → t.cst c = stTrapped ∧ t.rd Reg.CS_TRAP_CODE (coreU c) = trAddrFault)) ∧
      (∀ late, (s.cx c).waking = some late → (s.pw c.die.val).ups = [] → smGet [] s.ejected (coreU c) = [] → cstateOf s c < 4 →
        ∃ t, exec (.wakeComplete c) s = .next t ∧ (t.cx c).waking = none ∧ cstateOf t c = 0 ∧ SameMemory s t ∧
          t.rb Reg.DN_RSTAT_PASSTHRU (coreU c) = false)

/-- R216, R217, R357, R358, R218: The watchdog of a blocked send traps it; reports are collected and pairs resolved. -/
def Obligations.BlockedSendsResolve : Prop :=
  (∀ (c : CoreId) (s : State), coreLive s c = true → s.cst c = stWaitSend → ∃ t, exec (.blockedSend c) s = .next t ∧
      t.cst c = stTrapped ∧ t.rd Reg.CS_TRAP_CODE (coreU c) = trBlockedSend ∧
      t.rd Reg.CS_TRAPINFO_INFO (coreU c) = sendHandle s c % 2 ^ 32 ∧
      t.rd Reg.CQ_BSOWN_HANDLE (coreU c) = ownFull s c (handleCore (sendHandle s c)) % 2 ^ 32 ∧ SameMemory s t) ∧
    (∀ (c : CoreId) (s : State) (code : Nat) (dest own : Nat), s.rb Reg.BT_CLKSTAT_STOPPED c.die.val = false →
      (code ≠ trBlockedSend → exec (.trapPacket c code dest own) s =
        .next (s.lg LogKind.trapReport (coreU c) [code, dest, own])) ∧
      ((handleCore dest).die = c.die → ∃ t, exec (.trapPacket c trBlockedSend dest own) s = .next t ∧
        (t.bx c.die.val).blocked = (s.bx c.die.val).blocked ++ [⟨c, BitVec.ofNat 32 dest, BitVec.ofNat 32 own⟩]) ∧
      ((handleCore dest).die ≠ c.die → ∃ t, exec (.trapPacket c trBlockedSend dest own) s = .next t ∧
        (t.bx 4).blocked = (s.bx 4).blocked ++ [⟨c, BitVec.ofNat 32 dest, BitVec.ofNat 32 own⟩])) ∧
    ∀ (k : Collector) (a b : BlockReport) (s : State),
      (((s.bx (collectorOf k)).blocked.contains a = false ∨ (s.bx (collectorOf k)).blocked.contains b = false) →
        exec (.deadlockResolve k a b) s = .next s) ∧
      ((s.bx (collectorOf k)).blocked.contains a = true → (s.bx (collectorOf k)).blocked.contains b = true →
        coreU a.core < coreU b.core → a.dest = b.own ∨ b.dest = a.own →
        s.cst a.core = stTrapped → s.rd Reg.CS_TRAP_CODE (coreU a.core) = trBlockedSend → s.pc a.core + 1 < 8192 →
        s.cst b.core = stTrapped → s.rd Reg.CS_TRAP_CODE (coreU b.core) = trBlockedSend → (s.cx b.core).ranOff = false →
        ∃ t, exec (.deadlockResolve k a b) s = .next t ∧ t.cst a.core = stRun ∧ t.pc a.core = s.pc a.core + 1 ∧
          t.cst b.core = stRun ∧ t.pc b.core = s.pc b.core ∧ (t.bx (collectorOf k)).blocked.contains a = false ∧
          (t.bx (collectorOf k)).blocked.contains b = false)

/-- R13, R16, R47, R68, R469, R473, R474, R476: Register words are written and read whole; host apertures reach
scratchpads; what names nothing is a fault. -/
def Obligations.RegisterAndApertureAccess : Prop :=
  ∀ (at_ : CsrAddr) (s : State),
      (∀ (v : Word) (t : State) (b : Bool), at_.off % 4 = 0 → unitServed s .firmware at_ = true →
        csrStore s .firmware at_.space at_.unit at_.off v.toNat = some (t, b) →
        exec (.registerWrite .firmware at_ 4 v) s = .next t) ∧
      (∀ (n : Nat) (v : Word), n ≠ 4 ∨ at_.off % 4 ≠ 0 → exec (.registerWrite .firmware at_ n v) s =
        .next (s.lg LogKind.narrowAccess (nodeNum (.hub 0)) [at_.unit, at_.off]) ∧ exec (.lowWordLatchRead .firmware ⟨at_, n⟩) s =
        .next ((s.lg LogKind.narrowAccess (nodeNum (.hub 0)) [at_.unit, at_.off]).emit (.words [2 ^ 32 - 1]))) ∧
      (at_.off % 4 = 0 → unitServed s .firmware at_ = true →
        (∀ v t, csrRead s at_.space at_.unit at_.off = some (v, t) →
          exec (.lowWordLatchRead .firmware ⟨at_, 4⟩) s = .next (t.emit (.words [v]))) ∧
        (csrRead s at_.space at_.unit at_.off = none → exec (.lowWordLatchRead .firmware ⟨at_, 4⟩) s =
          .next ((addrFault s (.hub 0) (csrMga at_)).emit (.words [2 ^ 32 - 1])))) ∧
      (at_.off % 4 = 0 → at_.space ≠ .hub → hostOpen s = true → s.host.link = true → s.host.d3 = false → unitServed s .host at_ = false →
        ∀ v, ∃ t, exec (.registerWrite .host at_ 4 v) s = .next t ∧ t.rd Reg.HB_HERR_KIND 0 = 2 ∧ t.rb Reg.HB_HERR_VALID 0 = true ∧
          SameMemory s t) ∧
      (s.host.link = true → s.host.d3 = false →
        (hostOpen s = false → ∀ (o : BitVec 36) (n : Nat) (d : List (Option Byte)), exec (.bar2Read o n) s = .next (s.emit .unsupported) ∧
          exec (.bar2Write o d) s = .next (s.emit .unsupported)) ∧
        (hostOpen s = true → ∀ (o : BitVec 36),
          (∀ n m, n ≠ 0 → bar2Mga s o.toNat = some m → served s m n = true → mgaClass m = 0 → exec (.bar2Read o n) s =
            .next ((spRead s (mgaCore m) (mgaOff25 m) n rqRw).2.emit (.data (spRead s (mgaCore m) (mgaOff25 m) n rqRw).1))) ∧
          (∀ n, n ≠ 0 → bar2Mga s o.toNat = none → exec (.bar2Read o n) s =
            .next ((bar2Fault s o.toNat).emit (.data (List.replicate n 255)))) ∧
          (∀ d, d.any Option.isSome = true → bar2Mga s o.toNat = none → exec (.bar2Write o d) s = .next (bar2Fault s o.toNat)) ∧
          (∀ d, d.all Option.isNone = true → exec (.bar2Write o d) s = .next s) ∧
          (∀ m (x : Byte), bar2Mga s o.toNat = some m → mgaClass m = 0 → lockedAt s m 1 = false → served s m 1 = true →
            exec (.bar2Write o [some x]) s = .next (remoteWrite s (mgaCore m) (mgaOff25 m) [x] hubSender).2)))

/-- R29, R31, R34, R35, R37, R296, R360: A fence request, its shift, and what a shift leaves. -/
def Obligations.FencesAndShifts : Prop :=
  ∀ (d : DieId) (row : Fin 8) (s : State),
      (∀ (r : Requester) (cols : BitVec 10), mayWrite .punty r .die d.val = true → exec (.fenceReq r d row cols) s =
        .next (requestFence s d row.val ((List.range 10).filter fun c => bit cols.toNat c))) ∧
      (∀ c < 10, hostsCore s d row.val c = true → posState (requestFence s d row.val [c]) d.val row.val c = psPending ∧
        (requestFence s d row.val [c]).rd Reg.FT_ROWMAP_FENCE_REQ d.val row.val =
          (s.rd Reg.FT_ROWMAP_FENCE_REQ d.val row.val ||| 2 ^ c) % 2 ^ 10) ∧
      (∀ c < 10, posState s d.val row.val c = psSpare → hostsCore s d row.val c = false → smGet psQuarantine (s.dx d).fenceTo (10 * row.val + c) = psQuarantine →
        posState (requestFence s d row.val [c]) d.val row.val c = psQuarantine) ∧
      (∀ g, soleGather s d row.val = some g → (s.gx g).inPhase = false → (s.gx g).toFlush = [] →
        smGet none (s.dx d).shifts row.val = none → exec (.fenceShift d row) s = .next (applyFences s d row.val)) ∧
      (smGet none (s.dx d).shifts row.val = none → exec (.shiftComplete d row) s = .next s) ∧
      ∀ x, smGet none (s.dx d).shifts row.val = some x → (∀ k ∈ x.moved, k < 8) → x.lmap.length = 8 → (∀ p ∈ x.lmap, p < 16) →
        sparesRising s d (x.lmap.map (10 * row.val + ·)) = false → ∃ t, exec (.shiftComplete d row) s = .next t ∧ smGet none (t.dx d).shifts row.val = none ∧ lmapOf t d.val row.val = x.lmap ∧
        (∀ k ∈ x.moved, ∀ a < 0x1800000, t.rdByte ((64 * d.val + 8 * row.val + k) * 2 ^ 40 + a) = 0) ∧
        (∀ a, (∀ k ∈ x.moved, a < (64 * d.val + 8 * row.val + k) * 2 ^ 40 ∨
          (64 * d.val + 8 * row.val + k) * 2 ^ 40 + 0x1800000 ≤ a) → t.rdByte a = s.rdByte a)

/-- R282, R284, R285, R287, R288, R286: A stream run starts, takes credits, stalls, stops and completes. -/
def Obligations.StreamRuns : Prop :=
  ∀ (d : DieId) (i : Fin 32768) (s : State),
      ((s.sx d i).armed = false ∨ ((s.sx d i).active = true ∧ (s.sx d i).halted = []) ∨ s.rb Reg.DN_DESC_VALID d.val i = false ∨
        (s.dx d).token = none ∨ slotOf s d ≠ sd s d i Reg.DN_DESC_START ∨
        (sd s d i Reg.DN_DESC_DSTK = skStk ∧ coreGateOpen s (ownerCore s d i) (s.sx d i).pseq = false) →
        exec (.streamRunStart d i) s = .next s) ∧
      ((s.sx d i).armed = true → (s.sx d i).active = false ∨ (s.sx d i).halted ≠ [] → slotOf s d = sd s d i Reg.DN_DESC_START → s.rb Reg.DN_DESC_VALID d.val i = true → (s.dx d).token.isSome = true →
        (sd s d i Reg.DN_DESC_DSTK ≠ skStk ∨
          coreGateOpen s (ownerCore s d i) (s.sx d i).pseq = true) →
        (sd s d i Reg.DN_DESC_SRCK = skSp → ∃ t, exec (.streamRunStart d i) s = .next t ∧ (t.sx d i).active = true ∧
          (t.sx d i).armed = false ∧ (t.sx d i).sent = [] ∧ (t.sx d i).back = [] ∧ (t.sx d i).written = 0 ∧
          t.rb Reg.DN_SSTAT_GATED d.val i = (s.rb Reg.DN_SSTAT_ACTIVE d.val i && gateShut s d i) ∧ SameMemory s t) ∧
        (sd s d i Reg.DN_DESC_SRCK ≠ skSp → ∀ u, u = mapStream (freshSeq s (family s d i)) (family s d i) (fun _ y =>
            { y with written := 0, owed := 0, arrived := 0, discard := false, fill := [] }) →
          exec (.streamRunStart d i) s = .next (updCredit0 (feed (updGated (u.setSx d i { u.sx d i with
            armed := false, active := true, sent := [], back := [], asked := 0, stopAt := none, lines := [], halted := [] })
            d i) d i) d i))) ∧
      (∀ (c : CoreId) (n : Nat), c.die = d → s.rb Reg.BT_CLKSTAT_STOPPED d.val = false → (s.sx d i).active = true → sd s d i Reg.DN_DESC_SRCK = skSp → ∃ t,
        exec (.scredit (.core c) i n) s = .next t ∧
          smGet 0 (t.sx d i).back (coreU c) = smGet 0 (s.sx d i).back (coreU c) + n ∧ SameMemory s t) ∧
      ((s.sx d i).active = true → ∃ t, exec (.streamStall d i) s = .next t ∧ (t.sx d i) = (s.sx d i) ∧
        t.rb Reg.DN_SSTAT_STALLED d.val i = true ∧ t.rd Reg.DN_STALL_STREAM d.val = i.val ∧
        t.rb Reg.DN_STALL_VALID d.val = true ∧ SameMemory s t) ∧
      (∀ r, mayWrite .punty r .die d.val = true → s.rb Reg.DN_SSTAT_ACTIVE d.val i = true → (∀ g ∈ s.gathers, g.2.refetch = []) → ∃ t,
        exec (.streamStop r d i) s = .next t ∧ (t.sx d i).active = false ∧ (t.sx d i).discard = true ∧
          t.rb Reg.DN_SSTAT_STOPPED d.val i = true ∧ t.rb Reg.DN_SSTAT_ACTIVE d.val i = false ∧ SameMemory s t) ∧
      (runDone s d i = false → exec (.streamRunComplete d i) s = .next s) ∧
      (runDone s d i = true → s.rb Reg.DN_SSTAT_PENDING d.val i = false → (∀ g ∈ s.gathers, g.2.refetch = []) → ∃ t, exec (.streamRunComplete d i) s = .next t ∧
        (t.sx d i).active = false ∧ t.rd Reg.DN_SSTAT_RUNS d.val i = (s.rd Reg.DN_SSTAT_RUNS d.val i + 1) % 2 ^ 16 ∧
        t.rb Reg.DN_SSTAT_ACTIVE d.val i = false ∧ SameMemory s t)

/-- R274, R275, R277, R292, R297, R295: A router output takes what its slot entry names; expired flits, frame tokens and
bank swaps. -/
def Obligations.RoutersAndSlotTables : Prop :=
  ∀ (c : CoreId) (s : State),
      (∀ (p : Fin 9) (k : Fin 4096) (a b : FlitCheck), ((s.dx c.die).token = none ∨ s.rb Reg.BT_CLKSTAT_STOPPED c.die.val = true ∨
          slotOf s c.die ≠ k.val ∨ smGet 0 (s.rx c).acted p.val = nclkNow s + 1 ∨ (tabEnt s c p.val k.val).v = false) →
        exec (.flitForward c p k ⟨a, b⟩) s = .next s) ∧
      (∀ (p : Fin 9) (k : Fin 4096) (a b : FlitCheck), (s.dx c.die).token.isSome = true → s.rb Reg.BT_CLKSTAT_STOPPED c.die.val = false →
        slotOf s c.die = k.val → smGet 0 (s.rx c).acted p.val ≠ nclkNow s + 1 → (tabEnt s c p.val k.val).v = true →
        ∀ u, u = s.setRx c { s.rx c with acted := smSet 0 (s.rx c).acted p.val (nclkNow s + 1) } →
        (routerMarked u (coreU c) = true ∨ outReady u c p.val (tabEnt s c p.val k.val) = false →
          exec (.flitForward c p k ⟨a, b⟩) s = .next (u.bump Reg.DN_UNUSED_COUNT (coreU c))) ∧
        (routerMarked u (coreU c) = false → outReady u c p.val (tabEnt s c p.val k.val) = true →
          ((tabEnt s c p.val k.val).fold = true → exec (.flitForward c p k ⟨a, b⟩) s =
            .next (foldNode u c p.val (tabEnt s c p.val k.val) a b)) ∧
          ((tabEnt s c p.val k.val).fold = false → ∀ n, (tabEnt s c p.val k.val).inp = n → n ≠ 0 →
            (∀ f, (smGet [] (u.rx c).ins n).find? (fun f => f.2.stream == (tabEnt s c p.val k.val).stream) = some f →
              (nclkNow s < f.1 → exec (.flitForward c p k ⟨a, b⟩) s = .next (u.bump Reg.DN_UNUSED_COUNT (coreU c))) ∧
              (f.1 ≤ nclkNow s → ∀ v, v = u.setRx c { u.rx c with ins := smSet [] (u.rx c).ins n ((smGet [] (u.rx c).ins n).erase f) } →
                exec (.flitForward c p k ⟨.good, b⟩) s = .next (sendOut v c p.val (tabEnt s c p.val k.val).alt f.2) ∧
                (∀ m, exec (.flitForward c p k ⟨.fixed m, b⟩) s =
                  .next (sendOut (flitFixed v c f.2 m) c p.val (tabEnt s c p.val k.val).alt f.2)) ∧
                exec (.flitForward c p k ⟨.bad, b⟩) s = .next ((flitLost v c f.2).bump Reg.DN_UNUSED_COUNT (coreU c)))) ∧
            ((∀ f ∈ smGet [] (u.rx c).ins n, f.2.stream ≠ (tabEnt s c p.val k.val).stream) →
              exec (.flitForward c p k ⟨a, b⟩) s = .next (u.bump Reg.DN_UNUSED_COUNT (coreU c)))))) ∧
      (∀ (p : Fin 9) (f : Nat × Flit) (r : List (Nat × Flit)), smGet [] (s.rx c).ins p.val = f :: r →
        s.rb Reg.BT_CLKSTAT_STOPPED c.die.val = false →
        (f.1 + s.rd Reg.DN_FRAME_FLEN c.die.val ≤ nclkNow s → ∃ t, exec (.flitExpire c p) s = .next t ∧
          smGet [] (t.rx c).ins p.val = r ∧ SameMemory s t ∧
          t.rd Reg.DN_MISROUTE_COUNT (coreU c) = satAdd 32 (s.rd Reg.DN_MISROUTE_COUNT (coreU c)) 1 % 2 ^ 32) ∧
        (nclkNow s < f.1 + s.rd Reg.DN_FRAME_FLEN c.die.val → exec (.flitExpire c p) s = .next s)) ∧
      (∀ (d : DieId) (q : Fin 16) (k : BitVec 8), crc8 40 (sbWord 1 0 q.val) = k.toNat → q.val = (s.sb (.die d 0)).expect →
        ∃ t, exec (.token d q k) s = .next t ∧ (t.dx d).token.isSome = true ∧ SameRegs s t ∧ SameMemory s t ∧
          ∀ (e : DieId) (n : Nat), (s.dx e).token = some n → (∀ g : DieId, (s.dx g).token = none ∨ (s.dx g).token = some n) →
            (t.dx d).token = some n) ∧
      (∀ (d : DieId) (r : Requester), mayWrite .fw r .die d.val = true → exec (.swap r d) s = .next
        ((s.wb Reg.DN_TBLSEL_SWAP d.val true).wb Reg.DN_TBLSEL_PEND d.val true)) ∧
      (∀ d : DieId, (s.rb Reg.DN_TBLSEL_PEND d.val = false ∨ (s.dx d).token = none ∨ slotOf s d ≠ 0 → exec (.fallbackSwap d) s = .next s) ∧
        (s.rb Reg.DN_TBLSEL_PEND d.val = true → (s.dx d).token.isSome = true → slotOf s d = 0 →
          (∀ e : DieId, s.rb Reg.DN_TBLSEL_PEND e.val = true → swapFree s e = true) →
          (bankOf s d.val < 2 → (∀ e : DieId, s.rb Reg.DN_TBLSEL_PEND e.val = true → setUsable s e = true) →
            ∃ t, exec (.fallbackSwap d) s = .next t ∧ bankOf t d.val = 1 - bankOf s d.val ∧
              t.rb Reg.DN_TBLSEL_PEND d.val = false ∧ (t.dx d).swapReady = false ∧ SameMemory s t ∧
              ∀ e ∈ dieCores d, t.rd Reg.DN_RSTAT_BANK (coreU e) = 1 - bankOf s d.val) ∧
          (setUsable s d = false → ∃ t, exec (.fallbackSwap d) s = .next t ∧ bankOf t d.val = bankOf s d.val ∧
            t.rb Reg.DN_TBLSEL_PEND d.val = false ∧ SameMemory s t)))

/-- R404, R405, R408, R410, R412, R414, R418, R421, R426: Link groups are checked and replayed; lanes and widths change as
announced; retraining. -/
def Obligations.LinkGroupsAndRepair : Prop :=
  ∀ (p : PortId) (s : State),
      (portState s p ≠ lkUp → (∀ (k : List WireErr) (g : Option SpanGroup), exec (.linkGroupReceive p k g) s = .next (repeatIdent s p)) ∧
        exec (.ackTimeout p) s = .next s ∧ ∀ r, mayWrite .fw r .die 0 = true → exec (.retrain r p) s = .next s) ∧
      (portState s p = lkUp →
        (∀ q, peerPort p = some q → portState s q ≠ lkUp → ∀ k g, exec (.linkGroupReceive p k g) s = .next (endFallen s p)) ∧
        (∀ q g rpl x x0, peerPort p = some q → formGroup s q = (x, some (g, rpl)) →
          ∀ t, t = x.setPx q { x.px q with nak := false } → ∀ u, u = (if rpl then t else applyChanges t p false g.gseq) →
          exec (.linkGroupReceive p [] x0) s = .next (endFallen (takeGroup (takeHeader u p
            (((x.px q).expect + 4095) % 4096) (x.px q).nak) p (some q) rpl g) p)) ∧
        (∀ m, p = .span m → (∀ e, exec (.linkGroupReceive p e none) s = .next (endFallen (sendSpan s m) p)) ∧
          ∀ (e : List WireErr) (g : SpanGroup), ∀ t, t = countFec (sendSpan s m) p g →
          (∀ l, checkSpan t m g = .bad l → exec (.linkGroupReceive p e (some g)) s = .next (endFallen (badGroup t p l) p)) ∧
          (checkSpan t m g = .auth → exec (.linkGroupReceive p e (some g)) s =
            .next (endFallen (authFails (badGroup t p []) p) p)) ∧
          (∀ y ack nak rpl, checkSpan t m g = .good y ack nak rpl → (nak = false ∨ (t.px p).lastRpl ≠ some ((ack + 1) % 4096)) →
            exec (.linkGroupReceive p e (some g)) s =
              .next (endFallen (takeGroup (takeHeader (applyChanges t p false y.gseq) p ack nak) p none rpl y) p))) ∧
        (∀ g r, (s.px p).replay = g :: r → (s.px p).lastRpl ≠ some g.gseq → exec (.ackTimeout p) s =
          .next (s.setPx p { s.px p with resend := some g.gseq })) ∧
        (∀ r, mayWrite .fw r .die 0 = true → exec (.retrain r p) s = .next (startRetrain s p))) ∧
      (∀ l, (badGroup s p l).px p = { s.px p with nak := true, lane := { (s.px p).lane with
        count := l.foldl (fun m l => smSet 0 m l (smGet 0 m l + 1)) (s.px p).lane.count } }) ∧
      (∀ (lane : Fin 256) (spare : Fin 8) (a : BitVec 12),
        (∃ t, exec (.steer p lane spare a) s = .next t ∧ SameRegs s t ∧ SameMemory s t ∧ t.lx p = { s.lx p with
          changes := (s.lx p).changes ++ [⟨a.toNat, true, none, lane.val, spare.val⟩],
          lcmds := (s.lx p).lcmds ++ [lcmdWord 3 lane.val spare.val 0 a.toNat] }) ∧
        ∃ t, exec (.steerAck p lane spare a) s = .next t ∧ SameRegs s t ∧ SameMemory s t ∧ t.lx p = { s.lx p with
          changes := (s.lx p).changes ++ [⟨a.toNat, false, none, lane.val, spare.val⟩],
          steers := (s.lx p).steers.filter (· ≠ (lane.val, spare.val)) }) ∧
      (∀ (n : Fin 4) (a : BitVec 12),
        (∃ t, exec (.width p n a) s = .next t ∧ SameRegs s t ∧ SameMemory s t ∧ t.lx p = { s.lx p with
          changes := (s.lx p).changes ++ [⟨a.toNat, true, some n.val, 0, 0⟩],
          lcmds := (s.lx p).lcmds ++ [lcmdWord 4 0 0 n.val a.toNat] }) ∧
        ∃ t, exec (.widthAck p n a) s = .next t ∧ SameRegs s t ∧ SameMemory s t ∧ t.lx p = { s.lx p with
          changes := (s.lx p).changes ++ [⟨a.toNat, false, some n.val, 0, 0⟩] })

/-- R415, R416, R407, R284, R65, R67, R55, R423, R70, R42: Sideband messages in sequence, lost and stopped clocks, buffer
slips and lane markers complete with their effect. -/
def Obligations.SidebandAndClocks : Prop :=
  ∀ (d : DieId) (s : State),
      (∀ (p : Fin 9) (i : Fin 32768) (q n : Fin 16) (k : BitVec 8), q.val = (s.sb (.die d p)).expect →
        ∀ u, u = s.setSb (.die d p) { s.sb (.die d p) with expect := (q.val + 1) % 16 } →
        (crc8 40 (sbWord 5 (holdPayload true i.val) q.val) = k.toNat →
          exec (.sbHold d p i q k) s = .next (holdStream u d i.val (portKey (.die d p)) true)) ∧
        (crc8 40 (sbWord 5 (holdPayload false i.val) q.val) = k.toNat →
          exec (.sbRelease d p i q k) s = .next (holdStream u d i.val (portKey (.die d p)) false)) ∧
        (crc8 40 (sbWord 6 (creditPayload i.val n.val) q.val) = k.toNat →
          exec (.sbScredit d p i n q k) s = .next (returnCredit u d i.val n.val (.dieNode d)))) ∧
      (∀ (p : Fin 9) (i : Fin 32768) (q n : Fin 16) (k : BitVec 8),
        (crc8 40 (sbWord 5 (holdPayload true i.val) q.val) ≠ k.toNat →
          exec (.sbHold d p i q k) s = .next (sbSend s (.die d p) 0xF (s.sb (.die d p)).expect)) ∧
        (crc8 40 (sbWord 5 (holdPayload false i.val) q.val) ≠ k.toNat →
          exec (.sbRelease d p i q k) s = .next (sbSend s (.die d p) 0xF (s.sb (.die d p)).expect)) ∧
        (crc8 40 (sbWord 6 (creditPayload i.val n.val) q.val) ≠ k.toNat →
          exec (.sbScredit d p i n q k) s = .next (sbSend s (.die d p) 0xF (s.sb (.die d p)).expect)) ∧
        (q.val ≠ (s.sb (.die d p)).expect →
          (crc8 40 (sbWord 5 (holdPayload true i.val) q.val) = k.toNat → exec (.sbHold d p i q k) s = .next s) ∧
          (crc8 40 (sbWord 5 (holdPayload false i.val) q.val) = k.toNat → exec (.sbRelease d p i q k) s = .next s) ∧
          (crc8 40 (sbWord 6 (creditPayload i.val n.val) q.val) = k.toNat → exec (.sbScredit d p i n q k) s = .next s))) ∧
      (∀ (q : Fin 16) (k : BitVec 8), q.val = sbWant s (.hub d) →
        (∀ m, crc8 40 (sbWord 7 (markPayload (.mclk m)) q.val) = k.toNat → ∃ t, exec (.mark d (.mclk m) q k) s = .next t ∧
          (t.dx d).offset = some ((s.hclk / 16 : Nat) - (m.toNat : Int)) ∧ SameRegs s t ∧ SameMemory s t) ∧
        (crc8 40 (sbWord 7 (markPayload (.strap (BitVec.ofNat _ d.val))) q.val) = k.toNat →
          ∃ t, exec (.mark d (.strap (BitVec.ofNat _ d.val)) q k) s = .next t ∧ t.rb Reg.BT_IDENT_SITE_OK d.val = true ∧
          t.rd Reg.BT_IDENT_SITE d.val = d.val ∧ SameMemory s t) ∧
        ∀ code : BitVec 3, code.toNat ≠ d.val → crc8 40 (sbWord 7 (markPayload (.strap code)) q.val) = k.toNat →
          ∃ t, exec (.mark d (.strap code) q k) s = .next t ∧
          t.rd Reg.BT_IDENT_SITE d.val = code.toNat ∧ t.rb Reg.BT_IDENT_SITE_OK d.val = false ∧ t.rd Reg.FT_DIE_STATE 0 d.val = 4 ∧
          t.rb Reg.BT_CLKSTAT_STOPPED d.val = true ∧ t.rb Reg.BT_CLKSTAT_ORDERED_STOP d.val = true ∧ SameMemory s t) ∧
      (∀ m (q : Fin 16) (k : BitVec 8), crc8 40 (sbWord 7 (markPayload m) q.val) ≠ k.toNat →
        exec (.mark d m q k) s = .next (sbSend s (.hub d) 0xF (sbWant s (.hub d)))) ∧
      (∀ (q : Fin 16) (k : BitVec 8) (off : Nat), q.val = (s.sb (.die d 0)).expect →
        crc8 40 (sbWord 8 off q.val) = k.toNat →
        ∀ u, u = s.setSb (.die d 0) { s.sb (.die d 0) with expect := (q.val + 1) % 16 } →
        (∀ v t, csrRead u .die d.val off = some (v, t) → exec (.sbread d off q k) s = .next (sbSend t (.die d 0) 8 v)) ∧
        (csrRead u .die d.val off = none → exec (.sbread d off q k) s = .next (sbSend u (.die d 0) 8 (2 ^ 32 - 1)))) ∧
      (∀ (q : Fin 16) (k : BitVec 8), q.val = (s.sb (.die d 0)).expect → crc8 40 (sbWord 4 0 q.val) = k.toNat →
        ∃ t, exec (.stop d q k) s = .next t ∧
        t.rb Reg.BT_CLKSTAT_STOPPED d.val = true ∧ t.rb Reg.BT_CLKSTAT_ORDERED_STOP d.val = true ∧
        t.rb Reg.BT_CLKSTAT_RINGOSC d.val = true ∧ SameMemory s t) ∧
      (∀ (p : PortId) (m : NakMsg),
        (crc8 40 (sbWord 0xF 0 m.want.val) ≠ m.crc.toNat → exec (.sbnak p m) s = .next (sbSend s p 0xF (sbWant s p))) ∧
        (crc8 40 (sbWord 0xF 0 m.want.val) = m.crc.toNat →
          (∃ t, exec (.sbnak p m) s = .next t ∧ SameRegs s t ∧ SameMemory s t ∧ (∀ r, r ≠ p → t.px r = s.px r) ∧
            (t.sb p).queue = (s.sb p).queue ∧ (t.sb p).again.map (·.2) = (s.sb p).sent.drop ((s.sb p).sent.length -
              min (((s.sb p).next + 15 - m.want.val) % 16 + 1) (s.sb p).sent.length)) ∧
          ∀ l y, (s.sb p).sent = l ++ [y] → ((s.sb p).next + 16 - m.want.val) % 16 = 1 → exec (.sbnak p m) s =
            .next (s.setSb p { s.sb p with again := [(((s.sb p).next + 15) % 16, y)] }))) ∧
      (s.rb Reg.BT_CLKSTAT_STOPPED d.val = true → exec (.clockLost d) s = .next s) ∧
      (s.rb Reg.BT_CLKSTAT_STOPPED d.val = false → ∃ t, exec (.clockLost d) s = .next t ∧
        t.rb Reg.BT_CLKSTAT_STOPPED d.val = true ∧ (∀ p : Fin 9, portState t (.die d p) = lkDown) ∧
        (t.sb (.die d 0)).queue.getLast? = some ⟨3, 0⟩ ∧ SameMemory s t) ∧
      (∀ (p : Pos) (k : Fin 8), p.die = d → ∃ t, exec (.crossSlip (.onDie p k)) s = .next t ∧ SameRegs s t ∧ SameMemory s t ∧
        (t.dx d).slips = (16 * (10 * p.row.val + p.col.val) + (k.val + 1)) :: (s.dx d).slips) ∧
      (∀ p, exec (.crossSlip (.cane p)) s =
        .next (startRetrain (raisePort (s.lg LogKind.crossSlip (portN p) [portKey p]) p 0x07 none) p)) ∧
      (∀ (m l : Fin 8) (mark : Option (BitVec 80)) (k n : Nat), smGet (0, 0) (s.spx m).lanes l.val = (k, n) →
        ∃ t, exec (.laneMarker m l mark) s = .next t ∧ SameMemory s t ∧ smGet (0, 0) (t.spx m).lanes l.val =
          (if k = 0 then (if mark.any (fun v => laneMarkGood v.toNat) then (if 1 ≤ n then (1, 0) else (0, 1)) else (0, 0))
            else if mark.any (fun v => laneMarkGood v.toNat) then (1, 0) else if 2 ≤ n then (0, 0) else (1, n + 1)))

/-- R529, R530, R531, R534, R535, R586, R312: A collector weighs an event into a seed or a stone; reports, scans,
rotations, commands and retries. -/
def Obligations.FaultJudgement : Prop :=
  (∀ (t w now nclk : Nat) (x : FaultItem), 2 ≤ t →
      ((x.stamps.filter fun a => decide (now - a ≤ w)).length + 1 < t → (weigh t w now nclk false x).1 = false ∧
        (weigh t w now nclk false x).2.2.last = now) ∧
      (t ≤ (x.stamps.filter fun a => decide (now - a ≤ w)).length + 1 →
        (x.stoneAt ≠ some nclk → (weigh t w now nclk false x).1 = true ∧ (weigh t w now nclk false x).2.2.stamps = [] ∧
          (weigh t w now nclk false x).2.2.stoneAt = some nclk) ∧
        (x.stoneAt = some nclk → (weigh t w now nclk false x).1 = false))) ∧
    ∀ s : State,
      (∀ e : FaultEvent, exec (.faultEvent e) s = .next (takeEvent (flitError s e) e) ∧
        (∀ k, exec (.error k (.event e)) s = .next (takeEvent s e)) ∧
        (∀ k, e.code ≠ 0x20 → exec (.error k (.info e)) s = .next (noteRec s e 3 0 0))) ∧
      (∀ (e : FaultEvent) (p : Fin 8 × Fin 10), e.cls = 6 → e.pos = some p →
        (classAct s e).2.2.faults.flagged.contains (posNum (Fin.ofNat 4 e.unit : DieId).val p.1.val p.2.val) = true) ∧
      (∀ (p : Fin 4) (r : FaultRec), exec (.error (.hub p) (.record r)) s = .next (storeRec s r)) ∧
      (∀ (d : DieId) (r : FaultRec), exec (.error (.die d) (.record r)) s = .next (s.lg LogKind.badPacket hubN [])) ∧
      (∀ (d : DieId) (n : Nat), exec (.intr (.dieNode d) n) s = .next (s.lg LogKind.interrupt (256 + 64 * d.val) [n])) ∧
      (∀ (n : NodeId) (g : Gather) (p : Pos) (c : CoreId), (∀ d, nodeDie n = some d → s.rb Reg.BT_CLKSTAT_STOPPED d.val = false) →
        exec (.ctrl n (.release g)) s = .next (setHeld s g false) ∧ exec (.ctrl n (.wake c)) s = .next (startWakes s c.die [c] false) ∧
        (n = .core c → Takes c s → exec (.ctrl n (.ratio g)) s = .next (ratioDone s g c)) ∧
        (Takes c s → exec (.ctrl n (.stop c)) s = .next (stopCore s c)) ∧
        exec (.ctrl n (.fence p)) s = .next (requestFence s p.die p.row.val [p.col.val]) ∧
        (gatherDefined s g = true → exec (.ctrl n (.hold g)) s = .next (setHeld s g true) ∧
          exec (.ctrl n (.recalled g)) s = .next (forceRecall s g))) ∧
      (∀ (r : Requester) (d : DieId), mayWrite .punty r .die d.val = true →
        (s.rb Reg.FT_SCAN_BUSY d.val = false → s.rd Reg.FT_SCAN_COL d.val < 10 →
          posState s d.val (s.rd Reg.FT_SCAN_ROW d.val) (s.rd Reg.FT_SCAN_COL d.val) = psQuarantine → ∃ t,
          exec (.scanStart r d) s = .next t ∧ t.rb Reg.FT_SCAN_BUSY d.val = true ∧ t.rd Reg.FT_SCAN_RESULT d.val = 0 ∧
            posState t d.val (s.rd Reg.FT_SCAN_ROW d.val) (s.rd Reg.FT_SCAN_COL d.val) = psScanning ∧ SameMemory s t) ∧
        (s.rb Reg.FT_SCAN_BUSY d.val = true → ∃ l, exec (.scanStart r d) s = .next (s.lg LogKind.scanIgnored (dieN d.val) l))) ∧
      (∀ d : DieId, (recovering s d = true → exec (.rotation d) s = .next s) ∧
        (∀ p, recovering s d = false → rotationPick s d (((List.range 80).map fun n => (n / 10, n % 10)).filter fun p =>
          posState s d.val p.1 p.2 == psMapped && rowSpares s d.val p.1 != 0) = some p →
          exec (.rotation d) s = .next (requestFence s d p.1 [p.2]))) ∧
      ∀ (k : Fin 2) (e : PldmEvent) (n : Nat), (s.manage.unacked.find? fun u => u.1 == k.val && u.2.1 == e) = some (k.val, e, n) →
        ∃ t, exec (.pldmEventRetry k e) s = .next t ∧ SameRegs s t ∧ SameMemory s t ∧
          (3 ≤ n → t.manage.unacked = s.manage.unacked.erase (k.val, e, n)) ∧
          (n < 3 → (k.val, e, n + 1) ∈ t.manage.unacked)

/-- R67, R413, R506, R524, R543, R544, R65: Training ends, ports and dies are lost, cores that do not answer, holds,
recalls and refetches. -/
def Obligations.LossesHoldsAndRecalls : Prop :=
  ∀ (d : DieId) (s : State),
      (∀ (p : PortId) (ok : Bool) (near far : EndLanes) (n : BitVec 8),
        (portState s p ≠ lkTraining → portState s p ≠ lkRetrain → exec (.linkTrainingComplete p ok near far n) s = .next s) ∧
        (portState s p = lkTraining ∨ portState s p = lkRetrain →
          (∀ e, (p = .die e 0 ∧ near.clocks = 15) ∨ (p = .hub e ∧ far.clocks = 15) →
            exec (.linkTrainingComplete p ok near far n) s = .next (loseClock (trainLanes s p near far) e)) ∧
          ((∀ e, ¬ (p = .die e 0 ∧ near.clocks = 15) ∧ ¬ (p = .hub e ∧ far.clocks = 15)) → ∀ u, u = trainLanes s p near far →
            (trained u p ok n.toNat = false → exec (.linkTrainingComplete p ok near far n) s = .next (portLost u p)) ∧
            (trained u p ok n.toNat = true →
              ((∀ m, p ≠ .span m) → ∀ q, peerPort p = some q → exec (.linkTrainingComplete p ok near far n) s =
                .next (stackUp (resumePort (resumePort u p n.toNat) q n.toNat) p)) ∧
              ∀ m, p = .span m →
                ((u.spx m).keyed = true → exec (.linkTrainingComplete p ok near far n) s = .next (resumePort u p 0)) ∧
                ((u.spx m).keyed = false → ∃ t, exec (.linkTrainingComplete p ok near far n) s = .next t ∧
                  (t.spx m).nonce.isSome = true ∧ portState t p = portState u p))))) ∧
      (∀ (e : DieId) (q : Fin 9) (n : Nat), portState (resumePort s (.die e q) n) (.die e q) = lkUp) ∧
      (∀ p : Fin 9, (p = 0 ∨ bit (s.rd Reg.BT_CLKSTAT_PORT_CLK_OK d.val) p.val = false → exec (.portClockLoss d p) s = .next s) ∧
        (p ≠ 0 → bit (s.rd Reg.BT_CLKSTAT_PORT_CLK_OK d.val) p.val = true → exec (.portClockLoss d p) s = .next (portLost
          (s.wr Reg.BT_CLKSTAT_PORT_CLK_OK d.val (s.rd Reg.BT_CLKSTAT_PORT_CLK_OK d.val - 2 ^ p.val)) (.die d p)))) ∧
      (∀ (q : Fin 16) (k : BitVec 8), q.val = sbWant s (.hub d) → crc8 40 (sbWord 3 0 q.val) = k.toNat →
        exec (.clklost d q k) s = .next (tripDie ((s.setSb (.hub d)
          { s.sb (.hub d) with expect := (q.val + 1) % 16 }).lg LogKind.dieClockLost (dieN d.val) []) d 0x10 0)) ∧
      (s.rd Reg.FT_DIE_STATE 0 d.val = 0 →
        (loseDie s d).rd Reg.FT_DIE_STATE 0 d.val = 1 ∨ (loseDie s d).rd Reg.FT_DIE_STATE 0 d.val = 4) ∧
      (∃ t, exec (.vddlTrip d) s = .next t ∧ (t.dx d).tripped = true) ∧
      (∃ t, exec (.thermalTrip d) s = .next t ∧ (t.dx d).hot = true) ∧
      (∀ i : Fin 16, (s.rd Reg.LH_ISL_HDR d.val i.val ≠ 0 → exec (.islandShort d i) s = .next s) ∧
        (s.rd Reg.LH_ISL_HDR d.val i.val = 0 →
          exec (.islandShort d i) s = .next (judgeEvent s (ownEvent s 7 0x0D d.val none i.val)))) ∧
      (∀ k : StackId, rdT s k.val Reg.TS_STAT_STATE = tsUp → exec (.stackThermalTrip k) s = .next (portLost
        (loseAll (wrT s k.val Reg.TS_STAT_STATE tsSelfRefresh) k.val) (.die (Fin.ofNat 4 (k.val / 4)) (Fin.ofNat 9 (5 + k.val % 4))))) ∧
      (∀ (c : CoreId) (b : Bool), coreLive s c = true → s.cst c ≤ stWaitSync →
        exec (.stopTimeout c b) s = .next (deadCore (s.lg LogKind.coreDead (coreU c) []) c b)) ∧
      ∀ r : Requester, mayWrite .punty r .die d.val = true →
        (∀ g : Gather, g.die = d →
          (gatherDefined s g = true → (∃ t, exec (.gatherHold r g) s = .next t ∧ gatherHeld t g = true ∧ SameMemory s t) ∧
            (∀ p l, (s.gx g).phases = p :: l → exec (.forcedRecall r g) s = .next (judge s g { p with mem := true }))) ∧
          (∃ t, exec (.gatherRelease r g) s = .next t ∧ gatherHeld t g = false ∧ SameMemory s t)) ∧
        (∀ i : Fin 32768,
          (s.rb Reg.DN_SSTAT_ACTIVE d.val i.val = true → exec (.refetch r d i) s = .next (s.lg LogKind.refetchIgnored (dieN d.val) [i.val])) ∧
          (s.rb Reg.DN_SSTAT_ACTIVE d.val i.val = false → s.rb Reg.DN_DESC_VALID d.val i.val = true →
            exec (.refetch r d i) s = .next (trigger s d i.val (s.sx d i.val).pseq)))

/-- R63: A write that would leave CRIT_LVL at or above WARN_LVL is refused whole and logged. -/
def Obligations.MarginLevelsRefused : Prop :=
  ∀ (r : Requester) (d : DieId) (isl : Fin 16) (s : State),
      (∀ warn crit : BitVec 4, warn.toNat ≤ crit.toNat → ∃ t e, exec (.crzLevelWrite r d isl warn crit) s = .next t ∧
        SameRegs s t ∧ SameMemory s t ∧ t.log = s.log ++ [e]) ∧
      ∀ v : Nat, v / 2 ^ 8 % 16 ≤ v / 2 ^ 12 % 16 → ∃ t e, csrStore s r .die d.val (0x2100 + 4 * isl.val) v = some (t, false) ∧
        SameRegs s t ∧ SameMemory s t ∧ t.log = s.log ++ [e]

/-- R116: A BF16 pair is the exact sum of its two parts; when it is a NaN and when it is infinite. -/
def Obligations.PairValues : Prop :=
  ∀ hi lo : Nat,
      (decodePair hi lo = .nan ↔ decodeElem 2 hi = .nan ∨ decodeElem 2 lo = .nan ∨
        ∃ b, decodeElem 2 hi = .inf b ∧ decodeElem 2 lo = .inf (!b)) ∧
      (∀ b, decodePair hi lo ≠ .nan → decodeElem 2 hi = .inf b ∨ decodeElem 2 lo = .inf b → decodePair hi lo = .inf b) ∧
      ∀ (a b : Bool) (m n : Nat) (x y : Int), decodeElem 2 hi = .fin a m x → decodeElem 2 lo = .fin b n y →
        ∃ (c : Bool) (k : Nat) (z : Int), decodePair hi lo = .fin c k z ∧
          (if c then -(k : Rat) else k) * 2 ^ z = (if a then -(m : Rat) else m) * 2 ^ x + (if b then -(n : Rat) else n) * 2 ^ y

/-- R43, R51, R56, R57, R58, R60, R64, R502, R503, R510: The module reference, requests and changes of ratio, margins and
sense pairs complete with their effect. -/
def Obligations.ReferenceRatiosAndMargins : Prop :=
  ∀ (d : DieId) (s : State),
      (∀ x, exec (.slotIdChange x) s =
        .next ({ s with chip := { s.chip with slotPin := x.toNat } }.lg LogKind.strapIgnored hubN [x.toNat])) ∧
      (s.rb Reg.HB_CLKSTAT_HOLDOVER 0 = false → s.rb Reg.HB_CLKSTAT_PLL_LOCK 0 = true → ∃ t, exec .refLost s = .next t ∧
        t.rb Reg.HB_CLKSTAT_HOLDOVER 0 = true ∧ t.rb Reg.HB_CLKSTAT_REF_OK 0 = false ∧ t.rb Reg.HB_CLKSTAT_PLL_LOCK 0 = false ∧
        t.rd Reg.HB_CLKSTAT_HOLD_SEC 0 = 0 ∧ SameMemory s t) ∧
      (s.rb Reg.HB_CLKSTAT_HOLDOVER 0 = false → exec .relock s = .next s ∧ exec .holdExpired s = .next s) ∧
      (s.rb Reg.HB_CLKSTAT_HOLDOVER 0 = true →
        exec .refLost s = .next s ∧
        (∃ t, exec .relock s = .next t ∧ t.rb Reg.HB_CLKSTAT_HOLDOVER 0 = false ∧ t.rb Reg.HB_CLKSTAT_HOLD_EXPIRED 0 = false ∧
          t.rb Reg.HB_CLKSTAT_REF_OK 0 = true ∧ t.rb Reg.HB_CLKSTAT_PLL_LOCK 0 = true ∧
          t.rd Reg.HB_CLKSTAT_HOLD_SEC 0 = s.rd Reg.HB_CLKSTAT_HOLD_SEC 0 ∧ SameMemory s t ∧
          (∀ m : Fin 8, (s.spx m).heldOver = true → spanMayTrain s m.val = true → portState s (.span m) = lkDown →
            portState t (.span m) = lkTraining) ∧
          ∀ m : Fin 8, (s.spx m).heldOver = false → portState t (.span m) = portState s (.span m)) ∧
        (s.rb Reg.HB_CLKSTAT_HOLD_EXPIRED 0 = false → ∃ t, exec .holdExpired s = .next t ∧
          t.rb Reg.HB_CLKSTAT_HOLD_EXPIRED 0 = true ∧ SameMemory s t ∧ ∀ m : Fin 8,
            (portState s (.span m) = lkUp ∨ portState s (.span m) = lkRetrain →
              portState t (.span m) = lkDown ∧ (t.spx m).heldOver = true) ∧
            (portState s (.span m) ≠ lkUp → portState s (.span m) ≠ lkRetrain →
              portState t (.span m) = portState s (.span m)))) ∧
      (∀ (i : Fin 64) (r : Requester) (code : BitVec 2),
        (gatherDefined s ⟨d, i⟩ = false → exec (.aclkRequest r ⟨d, i⟩ code) s = .next s) ∧
        (gatherDefined s ⟨d, i⟩ = true → mayWrite .lehr r .die d.val = false → exec (.aclkRequest r ⟨d, i⟩ code) s =
          .next (s.lg LogKind.ignoredWrite (dieN d.val) [Reg.LH_GACLK_REQ.id, i.val])) ∧
        (gatherDefined s ⟨d, i⟩ = true → mayWrite .lehr r .die d.val = true →
          ∀ v, v = max (s.rd Reg.LH_GACLK_CEIL d.val i.val) (min (s.rd Reg.LH_GACLK_FLOOR d.val i.val) code.toNat) → ∃ t,
          exec (.aclkRequest r ⟨d, i⟩ code) s = .next t ∧ t.rd Reg.LH_GACLK_REQ d.val i.val = v % 4 ∧
            t.rb Reg.LH_GACLK_PENDING d.val i.val = (v != s.rd Reg.LH_GACLK_APPLIED d.val i.val) ∧ SameMemory s t ∧
            (v = code.toNat → t.log = s.log) ∧ (v ≠ code.toNat → t.log.length = s.log.length + 1))) ∧
      (∀ (g : Gather) (req : Nat), g.die = d → req = s.rd Reg.LH_GACLK_REQ d.val g.idx.val →
        (gatherDefined s g = false ∨ s.rb Reg.LH_GACLK_PENDING d.val g.idx.val = false ∨ (s.gx g).inPhase = true ∨
            (s.gx g).changed = true ∨ (s.gx g).stop.isSome = true ∨ s.rb Reg.BT_CLKSTAT_STOPPED d.val = true ∨
            (req < s.rd Reg.LH_GACLK_APPLIED d.val g.idx.val ∧ s.rd Reg.LH_VDDL_VSET d.val < vminOf s d.val req) →
          exec (.aclkRatioChange g) s = .next s) ∧
        (gatherDefined s g = true → s.rb Reg.LH_GACLK_PENDING d.val g.idx.val = true → (s.gx g).inPhase = false →
          (s.gx g).changed = false → (s.gx g).stop = none → s.rb Reg.BT_CLKSTAT_STOPPED d.val = false →
          s.rd Reg.LH_GACLK_APPLIED d.val g.idx.val ≤ req ∨ vminOf s d.val req ≤ s.rd Reg.LH_VDDL_VSET d.val →
          ∀ cs, cs = (gatherCores s g).filter (fun c =>
            corePresent s c && !(s.cx c).dead && decide (s.rd Reg.LH_CSTATE_STATE (coreU c) < 2)) → ∃ t,
          exec (.aclkRatioChange g) s = .next t ∧ SameMemory s t ∧
            (cs = [] → t.rd Reg.LH_GACLK_APPLIED d.val g.idx.val = req % 4 ∧ t.rb Reg.LH_GACLK_PENDING d.val g.idx.val = false ∧
              (t.gx g).changed = true) ∧
            (cs ≠ [] → t.rb Reg.LH_GACLK_STOPPING d.val g.idx.val = true ∧ (t.gx g).stop = some (req, cs.map fun c => c.lc.val) ∧
              t.out = s.out ++ cs.map fun c => .packet (.dieNode d) (.core c) (.ctrl (.ratio g))))) ∧
      (∀ (n : Fin 16) (a b : BitVec 4) (m : Nat), m = min a.toNat b.toNat →
        (s.rd Reg.LH_CRZ_WARN_LVL d.val n.val ≤ m → s.rd Reg.LH_CRZ_CRIT_LVL d.val n.val ≤ m → exec (.marginSample d n a b) s =
          .next ((s.wr Reg.LH_CRZ_MARGIN_A d.val a.toNat n.val).wr Reg.LH_CRZ_MARGIN_N d.val b.toNat n.val)) ∧
        (m < s.rd Reg.LH_CRZ_WARN_LVL d.val n.val → ∃ t, exec (.marginSample d n a b) s = .next t ∧ SameMemory s t ∧
          t.rb Reg.LH_CRZ_WARN d.val n.val = true ∧
          t.rd Reg.LH_CRZ_COUNT d.val n.val = satAdd 8 (s.rd Reg.LH_CRZ_COUNT d.val n.val) 1 % 256 ∧
          (s.rd Reg.LH_CRZ_CRIT_LVL d.val n.val ≤ m →
            vsetRaw s d (min 6 (s.rd Reg.LH_VDDL_CRZOFF d.val + 1)) ≤ s.rd Reg.LH_VMAX_VMAX d.val →
            t.rd Reg.LH_VDDL_CRZOFF d.val = min 6 (s.rd Reg.LH_VDDL_CRZOFF d.val + 1))) ∧
        (m < s.rd Reg.LH_CRZ_CRIT_LVL d.val n.val → ∃ t, exec (.marginSample d n a b) s = .next t ∧ SameMemory s t ∧
          t.rb Reg.LH_CRZ_CRIT d.val n.val = true ∧
          (vsetRaw s d (min 6 (s.rd Reg.LH_VDDL_CRZOFF d.val + 2)) ≤ s.rd Reg.LH_VMAX_VMAX d.val →
            t.rd Reg.LH_VDDL_CRZOFF d.val = min 6 (s.rd Reg.LH_VDDL_CRZOFF d.val + 2)))) ∧
      (∀ (r : Requester) (n : Fin 16) (warn crit : BitVec 4),
        (crit.toNat < warn.toNat → exec (.crzLevelWrite r d n warn crit) s =
          .next ((s.wr Reg.LH_CRZ_WARN_LVL d.val warn.toNat n.val).wr Reg.LH_CRZ_CRIT_LVL d.val crit.toNat n.val)) ∧
        (warn.toNat ≤ crit.toNat → exec (.crzLevelWrite r d n warn crit) s =
          .next (s.lg LogKind.ignoredWrite (dieN d.val) [Reg.LH_CRZ_WARN_LVL.id, n.val]))) ∧
      (∃ t, exec (.crzoffDecay d) s = .next t ∧ t.rd Reg.LH_VDDL_CRZOFF d.val = (s.rd Reg.LH_VDDL_CRZOFF d.val - 1) % 8 ∧ SameMemory s t) ∧
      ∀ f : Fin 4,
        (bit (s.rd Reg.LH_VDDL_SENSEOK d.val) f.val = false → exec (.senseInvalid d f) s = .next s) ∧
        (bit (s.rd Reg.LH_VDDL_SENSEOK d.val) f.val = true → s.rd Reg.LH_VDDL_SENSEOK d.val < 16 → ∃ t,
          exec (.senseInvalid d f) s = .next t ∧
          t.rd Reg.LH_VDDL_SENSEOK d.val = s.rd Reg.LH_VDDL_SENSEOK d.val - 2 ^ f.val ∧
          t.rb Reg.LH_VDDL_LOCAL d.val = (s.rd Reg.LH_VDDL_SENSEOK d.val == 2 ^ f.val)) ∧
        ∃ t, exec (.sensePairValid d f) s = .next t ∧ bit (t.rd Reg.LH_VDDL_SENSEOK d.val) f.val = true ∧
          t.rb Reg.LH_VDDL_LOCAL d.val = false

/-- R507, R509, R512, R515, R522, R523: Estimates, calibration, boosts, staged power-ups, and the input cap. -/
def Obligations.EstimatesStagingAndCap : Prop :=
  ∀ (d : DieId) (s : State),
      (∀ p : PowerSample, p.islands.length = 16 → ∃ t q, exec (.powerEstimate d p) s = .next t ∧ SameMemory s t ∧
        (∀ (n : Nat) (x : IslandSample), p.islands[n]? = some x → t.rd Reg.LH_ISL_TEMP d.val n = x.tj % 256) ∧
        (let w := ((p.islands.zip (List.range 16)).map fun y => islandPower s d y.2 y.1).sum + (p.vddm + p.vddk) * 1000000
        (w % 1000000 = 0 → q = w / 1000000) ∧ (q = w / 1000000 ∨ q = w / 1000000 + 1)) ∧
        t.rd Reg.LH_STAT_PDIE d.val = min 4095 q) ∧
      (∀ mw : Nat, ((s.pw d.val).estSum = 0 → exec (.kcalCalibrate d mw) s = .next s) ∧
        ((s.pw d.val).estSum ≠ 0 → ∃ t, exec (.kcalCalibrate d mw) s = .next t ∧ (t.pw d.val).estSum = 0 ∧ (t.pw d.val).estN = 0 ∧
          4 * (t.pw d.val).kcal.2 ≤ 5 * (t.pw d.val).kcal.1 ∧ 4 * (t.pw d.val).kcal.1 ≤ 5 * (t.pw d.val).kcal.2 ∧
          (4 * (s.pw d.val).estSum ≤ 5 * (mw * 1000 * (s.pw d.val).estN) →
            4 * (mw * 1000 * (s.pw d.val).estN) ≤ 5 * (s.pw d.val).estSum →
            (t.pw d.val).kcal = (mw * 1000 * (s.pw d.val).estN, (s.pw d.val).estSum) ∧ t.log = s.log))) ∧
      (∀ i : Fin 64, ∃ t, exec (.boostExpiry ⟨d, i⟩) s = .next t ∧ smGet 0 (t.pw d.val).boost i.val = 0 ∧ SameMemory s t) ∧
      (∀ (n : Fin 16) (p : PowerUp), (s.pw d.val).ups.find? (fun q => groupOf q.isl == groupOf n.val) = some p →
        (p.isl ≠ n.val ∨ p.staged = true → exec (.staging d n) s = .next s) ∧
        (p.isl = n.val → p.staged = false → s.rb Reg.LH_ISL_WAIT d.val n.val = true → ∃ t, exec (.staging d n) s = .next t ∧
          t.rb Reg.LH_ISL_WAIT d.val n.val = false ∧ t.rd Reg.LH_ISL_HDR d.val n.val = 1 ∧
          { p with staged := true } ∈ (t.pw d.val).ups ∧ SameMemory s t ∧
          ∀ l, l ∈ p.cores → l < 64 → p.cores.Nodup → t.rd Reg.LH_STAGED_COUNT (64 * d.val + l) =
            satAdd Reg.LH_STAGED_COUNT.w (s.rd Reg.LH_STAGED_COUNT (64 * d.val + l)) 1 % 2 ^ Reg.LH_STAGED_COUNT.w)) ∧
      (∀ (n : Fin 16) (p : PowerUp), (s.pw d.val).ups.find? (fun q => q.isl == n.val && q.staged) = some p →
        (p.main = true → p.cores ≠ [] → ∃ t, exec (.stagedSwitchClose d n) s = .next t ∧ SameRegs s t ∧ SameMemory s t ∧
          { p with main := false } ∈ (t.pw d.val).ups) ∧
        (p.main = false → ∀ a b l, p.cores = a :: b :: l → ∃ t, exec (.stagedSwitchClose d n) s = .next t ∧ SameRegs s t ∧
          SameMemory s t ∧ { p with cores := b :: l } ∈ (t.pw d.val).ups ∧ (64 ≤ a → a - 64 ∈ (t.dx d).awake)) ∧
        (p.main = false → p.cores.length = 1 →
          exec (.stagedSwitchClose d n) s = .next (consider (powerDone s d.val p) d.val (groupOf n.val)))) ∧
      (∀ mv ma : Nat, ∃ t q, exec (.inputSample mv ma) s = .next t ∧ t.chip.lastIn = (mv, ma) ∧
        (q = mv * ma / 1000000 ∨ q = mv * ma / 1000000 + 1) ∧ (mv * ma % 1000000 = 0 → q = mv * ma / 1000000) ∧
        t.rd Reg.LH_MSTAT_PIN 0 = min 8191 q ∧ SameMemory s t ∧
        ((s.pw 4).bucket.2 + 1 < 10 → (t.pw 4).bucket = ((s.pw 4).bucket.1 + mv * ma, (s.pw 4).bucket.2 + 1)) ∧
        (10 ≤ (s.pw 4).bucket.2 + 1 → (t.pw 4).bucket = (0, 0))) ∧
      (let w := windowSum s 4
      let cap := s.rd Reg.LH_MCAP_CAP 0 * (w.2 * 10000000)
      ∃ t, exec .capShareUpdate s = .next t ∧ SameMemory s t ∧
        (∀ e : DieId, s.rd Reg.LH_SHARE_EFF e.val < 4096 → s.rd Reg.LH_SHARE_PZ e.val < 4096 →
          (s.rd Reg.FT_DIE_STATE 0 e.val = 4 ∨ (w.1 ≤ cap ∧ 97 * cap ≤ 100 * w.1) →
            t.rd Reg.LH_SHARE_EFF e.val = s.rd Reg.LH_SHARE_EFF e.val) ∧
          (s.rd Reg.FT_DIE_STATE 0 e.val ≠ 4 → cap < w.1 → 400 ≤ s.rd Reg.LH_SHARE_EFF e.val → shareSum s ≠ 0 →
            400 ≤ t.rd Reg.LH_SHARE_EFF e.val ∧ t.rd Reg.LH_SHARE_EFF e.val ≤ s.rd Reg.LH_SHARE_EFF e.val) ∧
          (s.rd Reg.FT_DIE_STATE 0 e.val ≠ 4 → 100 * w.1 < 97 * cap →
            t.rd Reg.LH_SHARE_EFF e.val ≤ s.rd Reg.LH_SHARE_PZ e.val)) ∧
        t.rb Reg.LH_MSTAT_TRIM 0 = [0, 1, 2, 3].any fun e => decide (t.rd Reg.LH_SHARE_EFF e < t.rd Reg.LH_SHARE_PZ e)) ∧
      ∃ t, exec (.capStep d) s = .next t ∧ SameMemory s t ∧
        (gathersOn s d = [] → t.rb Reg.LH_STAT_THERM d.val = false ∧
          ((s.pw d.val).bucket.2 = 0 → s.rd Reg.LH_SHARE_EFF d.val * 1000000 * (windowSum s d.val).2 < (windowSum s d.val).1 →
            t.rb Reg.LH_STAT_UNMET d.val = true ∧ t.rb Reg.LH_MSTAT_UNMET 0 = true) ∧
          ((s.pw d.val).bucket.2 = 0 → (windowSum s d.val).1 ≤ s.rd Reg.LH_SHARE_EFF d.val * 1000000 * (windowSum s d.val).2 →
            t.rb Reg.LH_STAT_UNMET d.val = s.rb Reg.LH_STAT_UNMET d.val)) ∧
        ((s.pw d.val).stackHot ≠ [] → gathersOn s d ≠ [] → t.rb Reg.LH_STAT_THERM d.val = true)

/-- R557, R561, R562, R563, R564, R566, R550, R558, R616: Stages of a start, their timeouts, warm resets of the module and
of a die. -/
def Obligations.StartStagesAndResets : Prop :=
  ∀ s : State,
      (s.chip.charging = true → s.chip.pwrEn = true → ∃ t, exec .coldStart s = .next t ∧ t.rd Reg.BT_STAT_STAGE 0 = 1 ∧
        t.rb Reg.BT_STAT_READY 0 = false ∧ t.mem = State.reset.mem ∧ t.chip.valid = true ∧ t.chip.btest = s.chip.pinBtest ∧
        t.chip.ownclr = s.chip.pinOwnclr ∧ ∀ d : DieId, t.rd Reg.BT_IDENT_SLOT d.val = s.chip.slotPin % 16) ∧
      (s.chip.charging = false ∨ s.chip.pwrEn = false → exec .coldStart s = .next s) ∧
      (∀ r : StageResult,
        (s.chip.valid = false ∨ s.rd Reg.BT_STAT_STAGE 0 = 0 ∨ s.rd Reg.BT_STAT_FAILSTEP 0 ≠ 0 ∨ s.chip.btest = true →
          exec (.coldStartStageEnd r) s = .next s) ∧
        ∀ n : Nat, n < 8 → n ≠ 0 → s.chip.valid = true → s.rd Reg.BT_STAT_STAGE 0 = n → s.rd Reg.BT_STAT_FAILSTEP 0 = 0 →
          s.chip.btest = false →
          (r.ok = false → ∃ t, exec (.coldStartStageEnd r) s = .next t ∧ t.rd Reg.BT_STAT_FAILSTEP 0 = n ∧
            t.rd Reg.BT_STAT_STAGE 0 = n ∧ t.rb Reg.BT_STAT_READY 0 = s.rb Reg.BT_STAT_READY 0 ∧ SameMemory s t) ∧
          (r.ok = true → n = 1 ∨ n = 4 ∨ n = 5 ∨ n = 6 → ∃ t, exec (.coldStartStageEnd r) s = .next t ∧
            t.rd Reg.BT_STAT_STAGE 0 = n + 1) ∧
          (r.ok = true → r.dies = [] → n = 2 → ∃ t, exec (.coldStartStageEnd r) s = .next t ∧
            (pickImage s = none → t.rd Reg.BT_STAT_FAILSTEP 0 = 2 ∧ t.rb Reg.JK_STAT_ROM 0 = true) ∧
            (∀ k, pickImage s = some k → t.rd Reg.BT_STAT_IMAGE 0 = k ∧ t.rd Reg.BT_STAT_STAGE 0 = 3)) ∧
          (r.ok = true → r.dies = [] → n = 3 → s.chip.hubSite ≠ 7 → ∃ t, exec (.coldStartStageEnd r) s = .next t ∧
            t.rd Reg.BT_STAT_FAILSTEP 0 = 3) ∧
          (r.ok = true → r.dies = [] → n = 3 → s.chip.hubSite = 7 →
            ((∃ d, dieHeld s d = false ∧ s.rb Reg.BT_IDENT_SITE_OK d.val = false) → exec (.coldStartStageEnd r) s = .next s) ∧
            ((∀ d, dieHeld s d = false → s.rb Reg.BT_IDENT_SITE_OK d.val = true) → ∃ t, exec (.coldStartStageEnd r) s = .next t ∧
              t.rd Reg.BT_STAT_STAGE 0 = 4 ∧ t.rb Reg.HB_CLKSTAT_REF_OK 0 = true ∧ t.rb Reg.HB_CLKSTAT_PLL_LOCK 0 = true ∧
              ∀ d : DieId, dieHeld s d = false → t.rb Reg.BT_CLKSTAT_STOPPED d.val = false)) ∧
          (r.ok = true → r.dies = [] → n = 7 →
            (releasing s = true → exec (.coldStartStageEnd r) s = .next s) ∧
            (releasing s = false → (∀ d, dieHeld s d = true → s.rb Reg.BT_IDENT_SITE_OK d.val = true) → ∃ t,
              exec (.coldStartStageEnd r) s = .next t ∧ t.rb Reg.BT_STAT_READY 0 = true ∧ t.rd Reg.BT_STAT_STAGE 0 = 0 ∧
              ((∃ d, dieHeld s d = true) → t.rb Reg.BT_STAT_DEGRADED 0 = true) ∧ SameMemory s t))) ∧
      (∀ c : CoreId,
        (corePresent s c = false ∨ (s.cx c).dead = true → exec (.selftestTimeout c) s = .next s) ∧
        (corePresent s c = true → (s.cx c).dead = false → s.rd Reg.BT_STAT_STAGE 0 = 6 ∨ s.rd Reg.FT_DIE_STATE 0 c.die.val = 2 →
          exec (.selftestTimeout c) s = .next (deadCore s c false))) ∧
      exec .configRetryEnd s = .next { s with host := { s.host with crs := false } } ∧
      (s.rd Reg.BT_STAT_STAGE 0 = 3 → s.rd Reg.BT_STAT_FAILSTEP 0 = 0 → s.rb Reg.HB_CLKSTAT_REF_OK 0 = false → ∃ t,
        exec .mrefTimeout s = .next t ∧ t.rd Reg.BT_STAT_FAILSTEP 0 = 3 ∧ SameMemory s t) ∧
      (s.rd Reg.BT_STAT_STAGE 0 ≠ 3 ∨ s.rb Reg.HB_CLKSTAT_REF_OK 0 = true → exec .mrefTimeout s = .next s) ∧
      (∀ (r : Requester) (full : Bool),
        (mayWrite .mgmt r .hub 0 = false → ∃ l, exec (.warm r full) s = .next (s.lg LogKind.ignoredWrite hubN l)) ∧
        (mayWrite .mgmt r .hub 0 = true →
          (s.rd Reg.BT_STAT_STAGE 0 ≠ 0 → exec (.warm r full) s = .next (s.lg LogKind.warmIgnored hubN [])) ∧
          (s.rd Reg.BT_STAT_STAGE 0 = 0 → releasing s = true →
            exec (.warm r full) s = .next { s with chip := { s.chip with warmHeld := some full } }) ∧
          (s.rd Reg.BT_STAT_STAGE 0 = 0 → releasing s = false → Memory.wf s.mem → ∃ t, exec (.warm r full) s = .next t ∧
            (∀ a, t.rdByte a = if a < 3 * 2 ^ 48 then 0 else s.rdByte a) ∧ t.pending = s.pending ∧
            t.rb Reg.BT_STAT_READY 0 = false ∧
            (∀ d : DieId, (dieHeld s d = true → t.rd Reg.FT_DIE_STATE 0 d.val = 4) ∧
              (dieHeld s d = false → t.rd Reg.FT_DIE_STATE 0 d.val = 0 ∧ t.rb Reg.FT_DIE_FAST 0 d.val = fastOk s (nextDigest s) d full)) ∧
            t.chip.owner = s.chip.owner ∧
            (∀ k, pickImage s = some k → t.rd Reg.BT_STAT_STAGE 0 = 3 ∧ t.rd Reg.BT_STAT_IMAGE 0 = k)))) ∧
      ∀ d : DieId,
        (∀ (r : Requester) (full : Bool),
          (mayWrite .fw r .hub 0 = false → ∃ l, exec (.dieRst r d full) s = .next (s.lg LogKind.ignoredWrite hubN l)) ∧
          (mayWrite .fw r .hub 0 = true → s.rd Reg.FT_DIE_STATE 0 d.val = 1 →
            (s.rd Reg.BT_STAT_STAGE 0 ≠ 0 ∨ releasing s = true ∨ ((s.dx d).hot = true ∧ ∃ n : Fin 16, 85 ≤ s.rd Reg.LH_ISL_TEMP d.val n.val) →
              exec (.dieRst r d full) s = .next s) ∧
            (s.rd Reg.BT_STAT_STAGE 0 = 0 → releasing s = false →
              (s.dx d).hot = false ∨ (∀ n : Fin 16, s.rd Reg.LH_ISL_TEMP d.val n.val < 85) → ∃ t,
              exec (.dieRst r d full) s = .next t ∧ t.rd Reg.FT_DIE_STATE 0 d.val = 2 ∧
              t.rb Reg.FT_DIE_FAST 0 d.val = fastOk s (fwDigest s) d full ∧ t.rb Reg.BT_CLKSTAT_STOPPED d.val = false ∧
              ∀ k : Fin 4, rdT t (4 * d.val + k.val) Reg.TS_STAT_STATE = if fastOk s (fwDigest s) d full then tsSelfRefresh else 1))) ∧
        ∀ ok : Bool,
          (s.rd Reg.FT_DIE_STATE 0 d.val ≠ 2 → exec (.dieResetComplete d ok) s = .next s) ∧
          (s.rd Reg.FT_DIE_STATE 0 d.val = 2 →
            (ok = true → s.rb Reg.BT_IDENT_SITE_OK d.val = true → portState s (.die d 0) = lkUp →
              exec (.dieResetComplete d ok) s = .next (reloadDie (s.setDx d { s.dx d with tripped := false }) d)) ∧
            (ok = false → s.rb Reg.FT_DIE_FAST 0 d.val = true → ∃ t, exec (.dieResetComplete d ok) s = .next t ∧
              t.rb Reg.FT_DIE_FAST 0 d.val = false ∧ t.rd Reg.FT_DIE_STATE 0 d.val = 2) ∧
            (ok = false → s.rb Reg.FT_DIE_FAST 0 d.val = false → ∃ t, exec (.dieResetComplete d ok) s = .next t ∧
              t.rd Reg.FT_DIE_STATE 0 d.val = 4))

/-- R601, R602, R604, R605, R468, R611, R612, R615, R618, R596, R422, R424: Input power, PWR_EN, strap inputs, PERST#, the
leak sensor, span cables and partners, and the TAP complete with their effect. -/
def Obligations.InputPinsAndTap : Prop :=
  ∀ s : State,
      (∀ mv lowMs : Nat,
        (s.chip.valid = true ∨ (s.chip.needNew = true ∧ lowMs < 1000) →
          exec (.pwrEnAssert mv lowMs) s = .next { s with chip := { s.chip with pwrEn := true } }) ∧
        (s.chip.valid = false → s.chip.needNew = false ∨ 1000 ≤ lowMs → exec (.pwrEnAssert mv lowMs) s =
          .next { s with chip := { s.chip with pwrEn := true, charging := decide (40000 ≤ mv ∧ mv ≤ 50000), needNew := false
                                               input := if 40000 ≤ mv ∧ mv ≤ 50000 then .normal else if mv < 40000 then .low else .high } })) ∧
      (exec .inputOvercurrent s = .next (inputFails s) ∧
        exec .pwrEnDeassert s = .next (inputFails { s with chip := { s.chip with pwrEn := false } }) ∧
        (s.chip.valid = true → exec .hubThermalTrip s = .next (inputFails { s with chip := { s.chip with needNew := true } })) ∧
        (s.chip.valid = false → exec .hubThermalTrip s = .next s) ∧
        (∀ mv, 54000 < mv → exec (.inputOvervoltage mv) s =
          .next (inputFails { s with chip := { s.chip with input := .high, charging := false } })) ∧
        (∀ mv, mv ≤ 54000 → exec (.inputOvervoltage mv) s =
          .next { s with chip := { s.chip with input := .high, charging := false } }) ∧
        (s.chip.input ≠ .normal → exec .inputFail s = .next (inputFails s)) ∧ (s.chip.input = .normal → exec .inputFail s = .next s) ∧
        exec .inputUndervoltage s = .next { s with chip := { s.chip with input := .low, charging := false } }) ∧
      ((s.chip.valid = false → inputFails s = { s with chip := { s.chip with charging := false } }) ∧
        (s.chip.valid = true → ∀ t, t = inputFails s → t.chip.valid = false ∧ t.mem = State.reset.mem ∧
          t.rb Reg.BT_STAT_READY 0 = false ∧ t.chip.unclean = true ∧ t.chip.owner = s.chip.owner ∧ t.chip.imgs = s.chip.imgs ∧
          t.chip.lics = s.chip.lics ∧ t.faults.log = s.faults.log ∧ t.faults.repair = s.faults.repair ∧ t.pending = s.pending ∧
          t.chip.pwrEn = s.chip.pwrEn ∧ t.chip.needNew = s.chip.needNew)) ∧
      (∃ t, exec .inputReturn s = .next t ∧ t.chip.input = .normal ∧ SameRegs s t ∧ SameMemory s t ∧
        (s.chip.valid = true → t.chip.charging = s.chip.charging) ∧
        (s.chip.valid = false → s.chip.pwrEn = true → s.chip.needNew = false ∨ s.chip.input = .low → t.chip.charging = true)) ∧
      (∀ level : Bool, ∃ t u, exec (.strapInputChange true level) s = .next t ∧ exec (.strapInputChange false level) s = .next u ∧
        t.chip.pinBtest = level ∧ u.chip.pinOwnclr = level ∧ t.chip.btest = s.chip.btest ∧ u.chip.ownclr = s.chip.ownclr ∧
        (s.chip.valid = true → t.log.length = s.log.length + 1 ∧ u.log.length = s.log.length + 1) ∧ SameRegs s t ∧ SameRegs s u) ∧
      (∃ t, exec .perstAssert s = .next t ∧ t.chip.perst = true ∧ t.host.link = false ∧ t.host.crs = true) ∧
      exec .perstDeassert s = .next { s with chip := { s.chip with perst := false } } ∧
      (s.chip.perst = true ∨ s.chip.valid = false ∨ s.chip.btest = true ∨ s.rd Reg.BT_STAT_STAGE 0 = 1 → exec .pcieLinkUp s = .next s) ∧
      (s.chip.perst = false → s.chip.valid = true → s.chip.btest = false → s.rd Reg.BT_STAT_STAGE 0 ≠ 1 → ∃ t,
        exec .pcieLinkUp s = .next t ∧ t.host.link = true ∧ SameRegs s t ∧ SameMemory s t) ∧
      (s.chip.leak = false → s.chip.valid = true → ∃ t, exec .leak s = .next t ∧ t.chip.leak = true ∧ t.chip.valid = true ∧ SameMemory s t) ∧
      (s.chip.leak = true ∨ s.chip.valid = false → exec .leak s = .next s) ∧
      (∀ m : Fin 8,
        (∀ u, u = s.setSpx m { s.spx m with cable := true } → exec (.cblChange m true) s =
          .next (if 5 ≤ s.rd Reg.BT_STAT_STAGE 0 ∨ s.rb Reg.BT_STAT_READY 0 = true then startSpan u m.val else u)) ∧
        (∀ u, u = s.setSpx m { s.spx m with cable := false } →
          exec (.cblChange m false) s = .next (if portState s (.span m) = lkUp ∨ portState s (.span m) = lkRetrain then
            portLost u (.span m) else if portState s (.span m) = lkTraining then portDown u (.span m) else u)) ∧
        ∀ x : IdentMsg,
          ((s.spx m).nonce = none ∨ identOk x = false ∨ portState s (.span m) ≠ lkTraining ∨ (s.spx m).keyed = true →
            exec (.ident m x) s = .next s) ∧
          ((s.spx m).nonce.isSome = true → identOk x = true → portState s (.span m) = lkTraining →
            (s.spx m).keyed = false →
            (peerOk s (.span m) x = false → ∃ t, exec (.ident m x) s = .next t ∧ portState t (.span m) = lkHeld ∧
              (t.spx m).keyed = false) ∧
            (peerOk s (.span m) x = true → ∃ t, exec (.ident m x) s = .next t ∧ portState t (.span m) = lkUp ∧
              (t.spx m).keyed = true ∧
              (t.spx m).partner = some ⟨spanSecret s, x.ident.toNat, x.slot.toNat, x.port.toNat, x.nonce.toNat⟩))) ∧
      exec .bypass s = .next { s with chip := { s.chip with tap := .bypass } } ∧
      exec .samplePreload s = .next { s with chip := { s.chip with tap := .sample } } ∧
      exec .idcode s = .next ({ s with chip := { s.chip with tap := .idcode } }.emit (.words [tapId s])) ∧
      exec .extest s = .next { s with chip := { s.chip with tap := if s.chip.btest then .extest else .bypass } } ∧
      exec .clamp s = .next { s with chip := { s.chip with tap := if s.chip.btest then .clamp else .bypass } } ∧
      exec .highz s = .next { s with chip := { s.chip with tap := if s.chip.btest then .highz else .bypass } } ∧
      exec .extestPulse s = .next { s with chip := { s.chip with tap := if s.chip.btest then .extestPulse else .bypass } } ∧
      exec .extestTrain s = .next { s with chip := { s.chip with tap := if s.chip.btest then .extestTrain else .bypass } }

/-- R465, R468, R469, R477, R486, R487, R489, R470, R476, R480, R483: Resets of the host interface, slots enabled and
disabled, doorbells, reads and completions. -/
def Obligations.HostResetsAndRings : Prop :=
  ∀ s : State,
      (∀ c, c ∈ [Instr.functionLevelReset, .hotReset, .linkDown, .d3hotEntry] → ∃ t, exec c s = .next t ∧ SameMemory s t ∧
        t.rb Reg.HB_STEPCTL_HOLD 0 = true ∧ (∀ n : Fin 64,
          (t.rd Reg.HB_SLOT_STATE 0 n.val = slDisabled ∨ (t.rd Reg.HB_SLOT_STATE 0 n.val = slDisabling ∧ (t.slx n.val).running ≠ [])) ∧
          ((s.slx n.val).running = [] → t.rd Reg.HB_SLOT_STATE 0 n.val = slDisabled)) ∧
        (c = .linkDown → t.host.link = false) ∧ (c = .d3hotEntry → t.host.d3 = true)) ∧
      exec .d0Return s = .next { s with host := { s.host with d3 := false } } ∧
      (∀ p : Fin 4, ∃ t, exec (.puntyWatchdog p) s = .next t ∧
        t.log = (s.lg LogKind.puntyReset (512 + p.val) [if p.val = 0 then 1 else 0]).log ∧ (p ≠ 2 → SameRegs s t)) ∧
      (∀ (n : Fin 64) (r : Requester),
        (s.rd Reg.HB_ID_SLOTS 0 ≤ n.val → (∃ l, exec (.slotEnable r n) s = .next (s.lg LogKind.ignoredWrite hubN l)) ∧
          exec (.slotDisable r n) s = .next s) ∧
        (n.val < s.rd Reg.HB_ID_SLOTS 0 → mayWrite .any r .hub 0 = true →
          exec (.slotDisable r n) s = .next (disableSlot true s n.val) ∧
          (s.rd Reg.HB_SLOT_STATE 0 n.val ≠ slDisabling →
            ((disableSlot true s n.val).rd Reg.HB_SLOT_STATE 0 n.val = slDisabled ∨
              ((disableSlot true s n.val).rd Reg.HB_SLOT_STATE 0 n.val = slDisabling ∧ ((disableSlot true s n.val).slx n.val).running ≠ [])) ∧
            ((s.slx n.val).running = [] → (disableSlot true s n.val).rd Reg.HB_SLOT_STATE 0 n.val = slDisabled)) ∧
          (s.rb Reg.HB_SLOT_EN 0 n.val = true → exec (.slotEnable r n) s = .next s) ∧
          (s.rb Reg.HB_SLOT_EN 0 n.val = false → s.rd Reg.HB_SLOT_STATE 0 n.val = slDisabling → ∃ l,
            exec (.slotEnable r n) s = .next (s.lg LogKind.ignoredWrite hubN l)) ∧
          (s.rb Reg.HB_SLOT_EN 0 n.val = false → s.rd Reg.HB_SLOT_STATE 0 n.val ≠ slDisabling → 8 < s.rd Reg.HB_SLOT_SQSIZE 0 n.val ∨ 8 < s.rd Reg.HB_SLOT_CQSIZE 0 n.val → ∃ t,
            exec (.slotEnable r n) s = .next t ∧ t.rb Reg.HB_SLOT_EN 0 n.val = false ∧ t.rd Reg.HB_HERR_KIND 0 = 3) ∧
          (s.rb Reg.HB_SLOT_EN 0 n.val = false → s.rd Reg.HB_SLOT_STATE 0 n.val ≠ slDisabling → s.rd Reg.HB_SLOT_SQSIZE 0 n.val ≤ 8 → s.rd Reg.HB_SLOT_CQSIZE 0 n.val ≤ 8 → ∃ t,
            exec (.slotEnable r n) s = .next t ∧ t.rb Reg.HB_SLOT_EN 0 n.val = true ∧ t.rd Reg.HB_SLOT_STATE 0 n.val = slEnabled ∧
            t.rd Reg.HB_SLOT_SQTAIL 0 n.val = 0 ∧ t.rd Reg.HB_SLOT_SQHEAD 0 n.val = 0 ∧ t.rd Reg.HB_SLOT_CQTAIL 0 n.val = 0 ∧
            t.rd Reg.HB_SLOT_CQHEAD 0 n.val = 0 ∧ t.rd Reg.HB_SLOT_WPHASE 0 n.val = 1))) ∧
      (∀ (n : Fin 64) (x : Word), hostOpen s = true → s.rb Reg.BT_STAT_READY 0 = true →
        (s.rd Reg.HB_ID_SLOTS 0 ≤ n.val → ∀ t, t = noteAt (s.lg LogKind.doorbellDropped hubN [n.val]) (.hub 5) (Config.eventCode 0) [n.val] →
          exec (.sqTailDoorbell n x) s = .next t ∧ exec (.cqHeadDoorbell n x) s = .next t) ∧
        (n.val < s.rd Reg.HB_ID_SLOTS 0 → s.rd Reg.HB_SLOT_STATE 0 n.val ≠ slEnabled →
          exec (.sqTailDoorbell n x) s = .next (s.lg LogKind.doorbellDropped hubN [n.val]) ∧
          exec (.cqHeadDoorbell n x) s = .next (s.lg LogKind.doorbellDropped hubN [n.val])) ∧
        (n.val < s.rd Reg.HB_ID_SLOTS 0 → s.rd Reg.HB_SLOT_STATE 0 n.val = slEnabled →
          (x.toNat = s.rd Reg.HB_SLOT_SQTAIL 0 n.val → exec (.sqTailDoorbell n x) s = .next s) ∧
          (x.toNat ≠ s.rd Reg.HB_SLOT_SQTAIL 0 n.val → x.toNat < sqSize s n.val →
            exec (.sqTailDoorbell n x) s = .next (fetchMore (s.wr Reg.HB_SLOT_SQTAIL 0 x.toNat n.val) n.val)) ∧
          (x.toNat ≠ s.rd Reg.HB_SLOT_SQTAIL 0 n.val → sqSize s n.val ≤ x.toNat → ∃ t, exec (.sqTailDoorbell n x) s = .next t ∧
            t.rd Reg.HB_SLOT_STATE 0 n.val = slFaulted ∧ t.rd Reg.HB_SLOT_REASON 0 n.val = 1) ∧
          (x.toNat = s.rd Reg.HB_SLOT_CQHEAD 0 n.val → exec (.cqHeadDoorbell n x) s = .next s) ∧
          (x.toNat ≠ s.rd Reg.HB_SLOT_CQHEAD 0 n.val → cqSize s n.val ≤ x.toNat → ∃ t, exec (.cqHeadDoorbell n x) s = .next t ∧
            t.rd Reg.HB_SLOT_STATE 0 n.val = slFaulted ∧ t.rd Reg.HB_SLOT_REASON 0 n.val = 1) ∧
          (x.toNat ≠ s.rd Reg.HB_SLOT_CQHEAD 0 n.val → x.toNat < cqSize s n.val →
            (x.toNat + cqSize s n.val - s.rd Reg.HB_SLOT_CQHEAD 0 n.val) % cqSize s n.val ≤
              (s.rd Reg.HB_SLOT_CQTAIL 0 n.val + cqSize s n.val - s.rd Reg.HB_SLOT_CQHEAD 0 n.val) % cqSize s n.val →
            exec (.cqHeadDoorbell n x) s = .next (fetchMore (s.wr Reg.HB_SLOT_CQHEAD 0 x.toNat n.val) n.val)))) ∧
      (∀ (n : Fin 64) (q : HostRead) (bs : List Byte), s.hostReads = [q] → q.what = .entry n.val →
        exec (.entryFetch n bs) s = .next (entriesArrive { s with hostReads := [] } n.val bs) ∧
        exec (.hostCompletion q.id (.data bs)) s = .next (entriesArrive { s with hostReads := [] } n.val bs) ∧
        ((s.slx n.val).asked ≠ 0 → s.rd Reg.HB_SLOT_STATE 0 n.val ≠ slEnabled → ∃ t, exec (.entryFetch n bs) s = .next t ∧
          t.rd Reg.HB_SLOT_SQHEAD 0 n.val = (s.rd Reg.HB_SLOT_SQHEAD 0 n.val + (s.slx n.val).asked) % sqSize s n.val % 2 ^ 16 ∧
          (t.slx n.val).waiting = (s.slx n.val).waiting ++
            (List.range (s.slx n.val).asked).map fun i => parseEntry ((bs.drop (64 * i)).take 64)) ∧
        ∀ c, c ∈ [Instr.hostCompletion q.id .ur, .hostCompletion q.id .ca, .completionTimeout q.id] → ∃ t, exec c s = .next t ∧
          t.rd Reg.HB_SLOT_STATE 0 n.val = slFaulted ∧ t.rd Reg.HB_SLOT_REASON 0 n.val = 2 ∧ t.rd Reg.HB_HERR_KIND 0 = 4 ∧
          (t.slx n.val).asked = 0) ∧
      (∀ (id : Nat) (c : Completion), s.hostReads = [] → exec (.hostCompletion id c) s = .next s ∧
        exec (.completionTimeout id) s = .next s) ∧
      (∃ t, exec .ideSecureLoss s = .next t ∧ t.rb Reg.HB_HOSTCFG_IDE_OK 0 = false ∧ SameMemory s t) ∧
      ∀ n : Fin 64,
        ((s.slx n.val).irqs = 0 ∨ s.rd Reg.HB_SLOT_IMODT 0 n.val = 0 → exec (.irqModerationTimeout n) s = .next s) ∧
        ((s.slx n.val).irqs ≠ 0 → s.rd Reg.HB_SLOT_IMODT 0 n.val ≠ 0 → ∃ t, exec (.irqModerationTimeout n) s = .next t ∧
          (t.slx n.val).irqs = 0 ∧ SameRegs s t ∧ (hostOpen s = true → t.out = s.out ++ [.msix n.val])) ∧
        (∀ r : SlotRun, (s.slx n.val).running = [r] → r.ent.opc = opCopyIn ∨ r.ent.opc = opCopyOut →
          (s.rd Reg.HB_SLOT_STATE 0 n.val ≠ slDisabling →
            (∀ f, r.fault = some f → exec (.hostCopyComplete n) s =
              .next (finishRunOf (endCopy s n.val r.uid) n.val r f.1 0 f.2)) ∧
            (r.fault = none → r.ent.len ≤ r.done → copyBusy s n.val r.uid = false →
              exec (.hostCopyComplete n) s = .next (finishRunOf s n.val r 0 0 r.ent.len)) ∧
            (r.fault = none → r.done < r.ent.len ∨ copyBusy s n.val r.uid = true → exec (.hostCopyComplete n) s = .next s)) ∧
          (s.rd Reg.HB_SLOT_STATE 0 n.val = slDisabling →
            (r.fault.isSome = true ∨ copyBusy s n.val r.uid = false → exec (.hostCopyComplete n) s =
              .next (finishRunOf (endCopy s n.val r.uid) n.val r 10 0 r.done)) ∧
            (r.fault = none → copyBusy s n.val r.uid = true → exec (.hostCopyComplete n) s = .next s))) ∧
        ∀ r : SlotRun, (s.slx n.val).running = [r] → r.ent.opc = opSend →
          exec (.sendtoExpiry n (BitVec.ofNat 16 r.ent.tag)) s =
            .next (if r.ent.tag < 2 ^ 16 then finishRunOf s n.val r 4 0 r.ent.arg else s)

/-- R479, R480, R481, R485, R490, R491, R492, R466, R482: Operations of the sequence slots, held steps, mailboxes, and
verdicts. -/
def Obligations.SlotOperationsAndMailboxes : Prop :=
  ∀ s : State,
      (∀ (n : Fin 64) (e : SqEntry) (l : List SqEntry), (s.slx n.val).waiting = e :: l → s.rd Reg.HB_SLOT_STATE 0 n.val = slEnabled →
        startRoom s n.val = true → e.fence = false ∨ (s.slx n.val).running = [] →
        let x := s.slx n.val
        let r : SlotRun := { uid := x.uid, ent := e }
        let t := s.setSlx n.val { x with waiting := l, running := x.running ++ [r], uid := x.uid + 1 }
        (∀ c, c ∈ [(Instr.sqNop n, decide (e.opc = 0 ∨ 8 < e.opc)), (.copyIn n, decide (e.opc = 1 ∧ e.arg % 2 = 0)),
            (.zfill n, decide (e.opc = 1 ∧ e.arg % 2 = 1)), (.copyOut n, decide (e.opc = 2)), (.send n, decide (e.opc = 3)),
            (.sendr n, decide (e.opc = 4)), (.awaitRun n, decide (e.opc = 5)), (.stepWait n, decide (e.opc = 6)),
            (.stepGo n, decide (e.opc = 7)), (.query n, decide (e.opc = 8))] →
          (c.2 = false → exec c.1 s = .next s) ∧
          (c.2 = true → entryOk e = false → exec c.1 s = .next (finishRunOf t n.val r 1 0 0))) ∧
        (entryOk e = true →
          (e.opc = 0 → exec (.sqNop n) s = .next (finishRunOf t n.val r 0 0 0)) ∧
          (e.opc = 1 → e.arg % 2 = 0 → exec (.copyIn n) s = .next (copyAsk t n.val r 0)) ∧
          (e.opc = 1 → e.arg % 2 = 1 → exec (.zfill n) s =
            .next ((copyLines e.len).foldl (copyLine1 n.val r fun _ => List.replicate 64 0) t)) ∧
          (e.opc = 2 → exec (.copyOut n) s = .next ((copyLines e.len).foldl (copyOut1 n.val r) t)) ∧
          (e.opc = 3 → exec (.send n) s = .next (hubTrySend t n.val r)) ∧
          (e.opc = 4 → exec (.sendr n) s = .next (if e.len = 0 then hubTryRing t n.val r else sendrAsk t n.val r)) ∧
          (e.opc = 5 → exec (.awaitRun n) s = .next t) ∧
          (e.opc = 6 → exec (.stepWait n) s = .next
            (if waitStep e < s.rd Reg.PZ_STEP_STEP 0 0 + 2 ^ 32 * s.rd Reg.PZ_STEP_STEP 0 1 then finishRunOf t n.val r 0 0 e.arg else t)) ∧
          (e.opc = 7 → exec (.stepGo n) s = .next (finishRunOf (bankSteps t e.len) n.val r 0 0 0)) ∧
          (e.opc = 8 → ∃ u, exec (.query n) s = .next u ∧ (s.rb Reg.HB_MBCTL_PUBLISHED 0 e.arg2 = false →
            u.rb Reg.HB_MBCTL_PUBLISHED 0 e.arg2 = true)))) ∧
      (∀ n : Fin 64, (s.slx n.val).waiting = [] → ∀ c, c ∈ [Instr.sqNop n, .copyIn n, .zfill n, .copyOut n, .send n, .sendr n, .awaitRun n,
        .stepWait n, .stepGo n, .query n] → exec c s = .next s) ∧
      (∀ r : Requester, mayWrite .any r .hub 0 = true →
        (s.rb Reg.HB_STEPCTL_HELD 0 = false →
          (∀ b, exec (.stepHoldWrite r b) s = .next (s.wb Reg.HB_STEPCTL_HOLD 0 b)) ∧
          (s.rd Reg.HB_STEPCTL_BANK 0 < 65535 → exec (.stepctlGo r) s =
            .next (s.wr Reg.HB_STEPCTL_BANK 0 (s.rd Reg.HB_STEPCTL_BANK 0 + 1))) ∧
          (s.rd Reg.HB_STEPCTL_BANK 0 = 65535 → ∃ l, exec (.stepctlGo r) s =
            .next ((s.lg LogKind.bankFull hubN l).wr Reg.HB_STEPCTL_BANK 0 65535))) ∧
        (s.rb Reg.HB_STEPCTL_HELD 0 = true →
          exec (.stepHoldWrite r false) s = .next (releaseStep (s.wb Reg.HB_STEPCTL_HOLD 0 false)) ∧
          ((releaseStep s).rb Reg.HB_STEPCTL_HELD 0 = false))) ∧
      (∀ (r : Requester) (m : Fin 16) (tag : Option (Gather × BitVec 16)),
        (mayWrite .corefw r .hub 0 = true → exec (.mailboxCommit r m tag) s =
          .next (commitMail s m.val (s.rd Reg.HB_MBCTL_LEN 0 m.val) (tag.map fun p => (p.1, p.2.toNat)))) ∧
        (mayWrite .corefw r .hub 0 = false → ∃ l, exec (.mailboxCommit r m tag) s = .next (s.lg LogKind.ignoredWrite hubN l)) ∧
        (mayWrite .host r .hub 0 = true → (s.mbx m.val).commit = none → ∃ t, exec (.mailboxRelease r m) s = .next t ∧
          t.rb Reg.HB_MBCTL_PUBLISHED 0 m.val = false ∧ SameMemory s t) ∧
        (mayWrite .host r .hub 0 = false → ∃ l, exec (.mailboxRelease r m) s = .next (s.lg LogKind.ignoredWrite hubN l))) ∧
      (∀ m : Fin 16, hostOpen s = true → ∃ t v, exec (.mailboxStatusRead m) s = .next t ∧ t.out = s.out ++ [.words [v]] ∧
        (s.rb Reg.HB_MBCTL_PUBLISHED 0 m.val = false → v = 1)) ∧
      ∀ v : VerdictMsg, (∀ c t, s.rb Reg.BT_CLKSTAT_STOPPED c.die.val = false → t = retrySend (verdictCore s c v) c →
          exec (.verdict (.core c) v) s = .next (if cstateOf t c < 3 then t else startWakes t c.die [c] false)) ∧
        (∀ g, s.rb Reg.BT_CLKSTAT_STOPPED g.die.val = false → exec (.verdict (.gather g) v) s = .next (verdictGather s g v)) ∧
        exec (.verdict .slots v) s = .next (if v.recalled then recallMails (recallRuns s v.g v.seq.toNat) v.g v.seq.toNat
          else sealMails (sealRuns s v.g v.seq.toNat) v.g v.seq.toNat)

/-- R430, R431, R439, R443, R447, R454, R455, R457, R458: Refresh, grants and back-off, passes of an update, lost layers,
and the commands of a stack. -/
def Obligations.StackUpdatesAndCommands : Prop :=
  ∀ (k : StackId) (s : State),
      (rdT s k.val Reg.TS_STAT_STATE ≠ tsUp → ∀ (pc : Fin 24) (o : StackOffer),
        exec (.refresh k pc) s = .next s ∧ exec (.stackGrant k pc o) s = .next s ∧ exec (.selfRefreshEntry k) s = .next s ∧
        exec (.stackScrub k) s = .next s ∧ exec (.stackZeroComplete k) s = .next s) ∧
      (rdT s k.val Reg.TS_STAT_STATE = tsUp → ∀ (pc : Fin 24) (o : StackOffer),
        (∃ t, exec (.refresh k pc) s = .next t ∧ smGet 0 (t.tx k.val).refresh pc.val = smGet 0 (s.tx k.val).refresh pc.val + 3 ∧
          SameRegs s t ∧ SameMemory s t) ∧
        (smGet 0 (s.tx k.val).refresh pc.val ≠ 0 → ∃ t, exec (.stackGrant k pc o) s = .next t ∧
          smGet 0 (t.tx k.val).refresh pc.val + 1 = smGet 0 (s.tx k.val).refresh pc.val ∧ (t.tx k.val).cane = (s.tx k.val).cane ∧
          SameMemory s t) ∧
        (smGet 0 (s.tx k.val).refresh pc.val = 0 → offered s k.val pc.val o = [] → exec (.stackGrant k pc o) s = .next s) ∧
        (smGet 0 (s.tx k.val).refresh pc.val = 0 → offered s k.val pc.val o = [0] → o.debug = false → o.debugLate = false →
          o.withdrawn = false → ∃ t, exec (.stackGrant k pc o) s = .next (serve t k.val pc.val o 0) ∧
            (t.tx k.val).cane = (s.tx k.val).cane ∧ stackArb t k.val pc.val 0 = ⟨0, false⟩ ∧
            smGet 0 (t.tx k.val).ptr pc.val = 1)) ∧
      (∀ (pc : Fin 24) (q : Fin 4), ∃ t, exec (.stackBackoffExpiry k pc q) s = .next t ∧ SameRegs s t ∧ SameMemory s t ∧
        (stackArb t k.val pc.val q.val).backoff = false ∧
        (stackArb t k.val pc.val q.val).losses = (stackArb s k.val pc.val q.val).losses) ∧
      (∀ (l : Fin 1024), let busy := (s.tx k.val).queue.head? = some l.val
        (¬ busy ∨ layerState s k.val l.val ≠ lyPass1 → exec (.pass1Complete k l) s = .next s) ∧
        (¬ busy ∨ layerState s k.val l.val ≠ lyPass2 → exec (.pass2Complete k l) s = .next s) ∧
        (∀ t, busy → layerState s k.val l.val = lyPass1 →
          (passErrors s k.val l.val false = (true, t) →
            exec (.pass1Complete k l) s = .next (layerLost (partWrites t k.val l.val) k.val l.val)) ∧
          (passErrors s k.val l.val false = (false, t) → rdT s k.val Reg.TS_LAYER_RULE l.val = 0 →
            rdT s k.val Reg.TS_LAYER_RWATCH l.val = 0 →
            exec (.pass1Complete k l) s = .next (layerDone (applyLayer t k.val l.val fOne) k.val l.val))) ∧
        (∀ t, busy → layerState s k.val l.val = lyPass2 →
          (passErrors s k.val l.val true = (true, t) →
            exec (.pass2Complete k l) s = .next (layerLost (partWrites t k.val l.val) k.val l.val)) ∧
          (passErrors s k.val l.val true = (false, t) → exec (.pass2Complete k l) s =
            .next (layerDone (applyLayer t k.val l.val (smGet fOne (s.tx k.val).ratio l.val)) k.val l.val))) ∧
        layerState (layerDone s k.val l.val) k.val l.val = lyIdle ∧ rdT (layerDone s k.val l.val) k.val Reg.TS_LAYER_GLINES l.val = 0 ∧
        (layerState s k.val l.val = lyCombine → (layerStacks s k.val l.val).head? = some k.val →
          exec (.updateTimeout k l) s = .next (layerLost s k.val l.val) ∧ (layerLost s k.val l.val).stepLost = true ∧
          layerState (layerLost s k.val l.val) k.val l.val = lyLost) ∧
        (layerState s k.val l.val ≠ lyCombine → exec (.updateTimeout k l) s = .next s) ∧
        (layerState s k.val l.val = lyIdle → exec (.layerLost k l) s = .next s) ∧
        (layerState s k.val l.val ≠ lyIdle → ∃ t, exec (.layerLost k l) s = .next t ∧ layerState t k.val l.val = lyIdle ∧
          rdT t k.val Reg.TS_LAYER_GLINES l.val = 0 ∧ t.stepLost = true)) ∧
      (rdT s k.val Reg.TS_STAT_STATE = tsUp → (∀ l, l ∈ layersInUse s k.val → layerState s k.val l = lyIdle) →
        ∃ t, exec (.selfRefreshEntry k) s = .next t ∧ rdT t k.val Reg.TS_STAT_STATE = tsSelfRefresh ∧ SameMemory s t) ∧
      (rdT s k.val Reg.TS_STAT_STATE = tsSelfRefresh → portState s (.stack k) = lkUp →
        exec (.selfRefreshExit k) s = .next (wrT s k.val Reg.TS_STAT_STATE tsUp)) ∧
      (portState s (.stack k) ≠ lkUp → exec (.selfRefreshExit k) s = .next s) ∧
      (∀ (r : Requester) (l : Fin 1024), mayWrite .any r .die (k.val / 4) = true →
        (layerState s k.val l.val ≠ lyIdle → exec (.copy r k l) s = .next (s.lg LogKind.copyIgnored (stackN k.val) [l.val])) ∧
        (layerState s k.val l.val = lyIdle → rdT s k.val Reg.TS_LAYER_EN l.val = 1 → l.val ∉ (s.tx k.val).copies → ∃ t,
          exec (.copy r k l) s = .next t ∧ l.val ∈ (t.tx k.val).copies ∧ SameRegs s t ∧ SameMemory s t)) ∧
      (∀ l : Fin 1024, (l.val ∉ (s.tx k.val).copies → exec (.layerCopyComplete k l) s = .next s) ∧
        (l.val ∈ (s.tx k.val).copies → ∃ t, exec (.layerCopyComplete k l) s = .next t ∧ l.val ∉ (t.tx k.val).copies ∧
          SameOutside (stackBase k.val + cBase s k.val l.val) (layerRows s k.val l.val * copyRow s k.val l.val) s t)) ∧
      (∀ r : Requester,
        (mayWrite .fw r .die (k.val / 4) = false → ∃ a, exec (.stackZero r k) s = .next (s.lg LogKind.ignoredWrite (stackN k.val) a)) ∧
        (mayWrite .fw r .die (k.val / 4) = true → ∃ t, exec (.stackZero r k) s = .next t ∧ rdT t k.val Reg.TS_STAT_ZEROING = 1)) ∧
      (rdT s k.val Reg.TS_STAT_STATE = tsUp →
        (rdT s k.val Reg.TS_STAT_ZEROING = 1 → ∃ t, exec (.stackZeroComplete k) s = .next t ∧ rdT t k.val Reg.TS_STAT_ZEROING = 0 ∧
          SameOutside (stackBase k.val) stackSize s t ∧ ∀ a, stackBase k.val ≤ a → a < stackBase k.val + stackSize → t.rdByte a = 0) ∧
        (rdT s k.val Reg.TS_SCRUB_INTV ≠ 0 → ∃ t, exec (.stackScrub k) s = .next t ∧ SameMemory s t ∧
          (t.tx k.val).scrub = ((s.tx k.val).scrub + 1) % pcLines ∧ ∀ pc : Fin 24,
            smGet [] (t.tx k.val).scrubs pc.val = smGet [] (s.tx k.val).scrubs pc.val ++ [((s.tx k.val).scrub, false)]))

/-- R319, R380, R381, R383, R384, R387, R390, R375: LOAD, checks, ABORT, application of full images and segments, section
acknowledgements, and the step boundary. -/
def Obligations.LoadsAndStepBoundary : Prop :=
  ∀ s : State,
      (∀ r : Requester,
        (mayWrite .hostfw r .hub 0 = false → (∃ l, exec (.load r) s = .next (s.lg LogKind.ignoredWrite hubN l)) ∧
          ∃ l, exec (.abort r) s = .next (s.lg LogKind.ignoredWrite hubN l)) ∧
        (mayWrite .hostfw r .hub 0 = true →
          (pzStage s ≠ pzIdle → ∃ t, exec (.load r) s = .next t ∧ t.rd Reg.PZ_HSTAT_STATUS 0 = 1 ∧ pzStage t = pzStage s ∧ t.load = s.load ∧
            t.locks = s.locks) ∧
          (pzStage s = pzIdle → releasing s = false → ∃ t, exec (.load r) s = .next t ∧ pzStage t = pzChecking ∧ SameMemory s t ∧
            let src := s.rd64 Reg.PZ_HSRC_LO Reg.PZ_HSRC_HI 0
            t.load.src = src ∧ t.load.len = s.rd Reg.PZ_HLEN_LEN 0 ∧
              t.locks = s.locks ++ [⟨src, src + s.rd Reg.PZ_HLEN_LEN 0, .loading⟩]) ∧
          (pzStage s = pzChecking → ∃ t, exec (.abort r) s = .next t ∧ pzStage t = pzIdle ∧ t.rd Reg.PZ_HSTAT_STATUS 0 = 2 ∧
            t.rb Reg.PZ_HSTAT_DONE 0 = true ∧ (∀ l ∈ t.locks, l.for_ ≠ .loading) ∧ SameMemory s t) ∧
          (pzStage s = pzIdle → exec (.abort r) s = .next s) ∧
          (pzStage s = pzApplying ∨ pzStage s = pzSealing → exec (.abort r) s = .next (s.lg LogKind.abortIgnored hubN [])))) ∧
      (pzStage s ≠ pzChecking → exec .parisonCheckComplete s = .next s) ∧
      (pzStage s = pzChecking → let u := checkReads s
        (∀ f, checkImage u u.load.src u.load.len = .error f → ∃ t, exec .parisonCheckComplete s = .next t ∧ pzStage t = pzIdle ∧
          t.rd Reg.PZ_HSTAT_STATUS 0 = f.status % 32 ∧ t.rd Reg.PZ_HERR_SECTION 0 = f.sect % 2 ^ 16 ∧
          t.rd Reg.PZ_HERR_DETAIL 0 = f.detail % 2 ^ 16 ∧ t.rb Reg.PZ_HSTAT_SEALED 0 = s.rb Reg.PZ_HSTAT_SEALED 0 ∧ SameMemory s t) ∧
        (∀ im, checkImage u u.load.src u.load.len = .ok im → ∃ t, exec .parisonCheckComplete s = .next t ∧ pzStage t = pzWaiting ∧
          t.load.img = some im ∧ t.rb Reg.PZ_HSTAT_KIND 0 = im.seg.isSome ∧ SameMemory s t)) ∧
      (s.load.img = none → ∀ (d : DieId) (n : Nat), exec .parisonApply s = .next s ∧ exec .segmentApply s = .next s ∧
        exec .quiesceTo s = .next s ∧ exec (.parisonSectionAck d n) s = .next s) ∧
      (∀ im : Image, s.load.img = some im →
        (pzStage s = pzWaiting → im.seg = none → s.rb Reg.PZ_HSTAT_SEALED 0 = false ∨ (s.load.ready = true ∧ updating s = false) →
          exec .parisonApply s = .next (nextSection im.nsect (dropParison (clearModule (setStage s pzApplying) im)) im 0)) ∧
        (pzStage s ≠ pzWaiting ∨ im.seg ≠ none ∨ (s.rb Reg.PZ_HSTAT_SEALED 0 = true ∧ (s.load.ready = false ∨ updating s = true)) →
          exec .parisonApply s = .next s) ∧
        (pzStage s = pzWaiting → im.seg.isSome = true → ∃ t, exec .quiesceTo s = .next t ∧ pzStage t = pzIdle ∧
          t.rd Reg.PZ_HSTAT_STATUS 0 = 26) ∧
        (∀ u, im.seg = some u → pzStage s = pzWaiting → segmentReady s (gatherOfU u) = false → exec .segmentApply s = .next s) ∧
        (∀ u, im.seg = some u → pzStage s = pzWaiting → segmentReady s (gatherOfU u) = true →
          segmentLate s im (gatherOfU u) = none → (s.gx (gatherOfU u)).phases = [] →
          ∃ t, exec .segmentApply s = .next (nextSection im.nsect t im 0) ∧ pzStage t = pzApplying) ∧
        (∀ u f, im.seg = some u → pzStage s = pzWaiting → segmentReady s (gatherOfU u) = true →
          segmentLate s im (gatherOfU u) = some f → exec .segmentApply s = .next (refuseLoad (endWait s) f)) ∧
        ∀ d : DieId, pzStage s = pzApplying → delivered s d = true → (targetDies s im).contains d.val = true →
          ((∀ e ∈ targetDies s im, e = d.val ∨ e ∈ s.load.acks) → exec (.parisonSectionAck d s.load.sect) s =
            .next (nextSection (im.nsect - (s.load.sect + 1)) s im (s.load.sect + 1))) ∧
          ((∃ e ∈ targetDies s im, e ≠ d.val ∧ e ∉ s.load.acks) → ∃ t, exec (.parisonSectionAck d s.load.sect) s = .next t ∧
            d.val ∈ t.load.acks ∧ SameRegs s t ∧ SameMemory s t)) ∧
      (∀ (c : CoreId) (p : ParisonPkt), exec (.parison (.core c) p) s =
        .next (badSource (s.lg LogKind.badPacket (coreU c) [coreU c]) (.core c) 0x26)) ∧
      (∀ (u : Fin 16) (p : ParisonPkt), u.val < 4 →
        (p.dieSpace = true → p.scope = .dieNodes → s.rb Reg.BT_CLKSTAT_STOPPED p.die.val = false → exec (.parison (.hub u) p) s = .next (parisonDie s p.die.val p)) ∧
        (p.dieSpace = false → (scopeCores p.scope).filter (fun c => corePresent s c) = [] → exec (.parison (.hub u) p) s = .next s)) ∧
      (s.rb Reg.PZ_HSTAT_SEALED 0 = false ∨ stepDone s = false ∨ effectsFree s = false → exec .stepBoundary s = .next s) ∧
      (s.rb Reg.PZ_HSTAT_SEALED 0 = true → stepDone s = true → effectsFree s = true → s.load.img = none → ∃ t,
        exec .stepBoundary s = .next t ∧
        t.rd Reg.PZ_STEP_STEP 0 0 = (s.rd Reg.PZ_STEP_STEP 0 0 + 2 ^ 32 * s.rd Reg.PZ_STEP_STEP 0 1 + 1) % 2 ^ 32 ∧
        t.rd Reg.PZ_STEP_STEP 0 1 = (s.rd Reg.PZ_STEP_STEP 0 0 + 2 ^ 32 * s.rd Reg.PZ_STEP_STEP 0 1 + 1) / 2 ^ 32 % 2 ^ 32)

/-- R589, R590, R591, R593, R541, R578, R588: The Jacks monitor: lines that are held, dropped or refused, the commands and
their status lines, and the end of a scan. -/
def Obligations.JacksCommands : Prop :=
  ∀ s : State,
      (∀ (n r a k : Nat) (g : Option DieId) (d : DieId) (i : Option (Fin 16)) (f : Option Nat) (m : Mga) (v : Word) (p : PortId)
          (l : List Nat) (b : Bool) (row : Fin 8) (col : Fin 10) (w : FwBlob) (x : Instr × JkCmd),
        x ∈ [(.jkHelp n, .help), (.jkBaud n r, .baud r), (.jkId n, .id), (.jkFaults n, .faults), (.jkGather n g, .gather g),
          (.jkPower n, .power), (.jkIsland n d i, .island d i), (.jkClk n, .clk), (.jkLog n f a, .log f a), (.jkPeek n m a, .peek m a),
          (.jkPoke n m v, .poke m v), (.jkEye n p k l b, .eye p k l b), (.jkScan n d row col, .scan d row col),
          (.jkParison n, .parison), (.jkParisonDump n a, .dump a), (.jkWarm n b, .warm b), (.jkRecover n w, .recover w)] →
        (s.chip.valid = false ∨ s.chip.btest = true ∨ s.rd Reg.BT_STAT_STAGE 0 = 1 → exec x.1 s = .next s) ∧
        (s.chip.valid = true → s.chip.btest = false → s.rd Reg.BT_STAT_STAGE 0 ≠ 1 →
          (s.rb Reg.JK_STAT_BUSY 0 = true →
            (heldChars s + n + 1 ≤ 256 → ∃ t, exec x.1 s = .next t ∧ t.manage.held = s.manage.held ++ [(n, x.2)] ∧ t.out = s.out ∧
              SameRegs s t) ∧
            (256 < heldChars s + n + 1 → exec x.1 s = .next (s.bump Reg.JK_STAT_OVERRUN 0 (heldChars s + n + 1 - 256)))) ∧
          (s.rb Reg.JK_STAT_BUSY 0 = false →
            (255 < n → exec x.1 s = .next (s.emit (.jacks .line))) ∧
            (n ≤ 255 → s.rb Reg.JK_STAT_ROM 0 = true → romAccepts x.2 = false →
              exec x.1 s = .next ((s.bump Reg.JK_CMDS_COUNT 0).emit (.jacks (.other 3))))))) ∧
      (s.chip.valid = true → s.chip.btest = false → s.rd Reg.BT_STAT_STAGE 0 ≠ 1 → s.rb Reg.JK_STAT_BUSY 0 = false →
        s.rb Reg.JK_STAT_ROM 0 = false → ∀ n, n ≤ 255 →
        let u := s.bump Reg.JK_CMDS_COUNT 0
        let shown := fun l : List Nat => (u.emit (.console l)).emit (.jacks .ok)
        exec (.jkHelp n) s = .next (shown (List.range 15)) ∧ exec (.jkId n) s = .next (shown (reportWords u 0)) ∧
        exec (.jkFaults n) s = .next (shown (reportWords u 1)) ∧ exec (.jkGather n none) s = .next (shown (reportWords u 2)) ∧
        (∀ d : DieId, exec (.jkGather n (some d)) s = .next (shown (gatherWords u d.val))) ∧ exec (.jkPower n) s = .next (shown (reportWords u 3)) ∧
        exec (.jkBaud n 460800) s = .next ((u.wr Reg.JK_CFG_BAUD 0 2).emit (.jacks .ok)) ∧
        exec (.jkBaud n 9600) s = .next (u.emit (.jacks (.other 1))) ∧
        (∀ d i, jkDieDown u d.val = false → exec (.jkIsland n d (some i)) s = .next (shown (islandWords u d.val [i.val]))) ∧
        (∀ d i, jkDieDown u d.val = true → exec (.jkIsland n d i) s = .next (u.emit (.jacks .dieDown)) ∧
          ∀ p k l b, exec (.jkEye n (.die d p) k l b) s = .next (u.emit (.jacks .dieDown))) ∧
        (s.rd Reg.BT_STAT_STAGE 0 = 0 → ∃ l, exec (.jkClk n) s = .next (shown l)) ∧
        (∀ a k, k ≤ 4096 → exec (.jkLog n (some a) k) s =
          .next ((u.emit (.records ((s.faults.log.filter fun r => decide (a ≤ r.id)).take k))).emit (.jacks .ok))) ∧
        (∀ m k l, exec (.jkEye n (.span m) k l false) s = .next (shown l)) ∧
        (∀ d p k l, jkDieDown u d.val = false →
          exec (.jkEye n (.die d p) k l false) s = .next (shown (l ++ [(Config.eyeQ l).1, (Config.eyeQ l).2])) ∧
          exec (.jkEye n (.die d p) k l true) s = .next (u.emit (.jacks .retrain))) ∧
        (∃ l, exec (.jkParison n) s = .next (shown l)) ∧
        (∀ w, s.rd Reg.BT_STAT_FAILSTEP 0 ≠ 2 → exec (.jkRecover n w) s = .next (u.emit (.jacks (.other 1)))) ∧
        (∀ w, s.rd Reg.BT_STAT_FAILSTEP 0 = 2 → ∃ t, exec (.jkRecover n w) s = .next t ∧
          (imgAt t (if (imgAt s 0).version < (imgAt s 1).version then 0 else 1)).digest = w.digest) ∧
        (debugOpen s = false →
          (∀ m : Mga, m.toNat % 4 = 0 → readLocked m.toNat = true →
            exec (.jkPeek n m 1) s = .next (u.emit (.jacks .locked))) ∧
          (∀ m v, ∃ t o, exec (.jkPoke n m v) s = .next t ∧ SameMemory s t ∧ t.out = o ++ [.jacks .locked]) ∧
          (∀ d row col, exec (.jkScan n d row col) s = .next (u.emit (.jacks .locked))) ∧
          (∀ k, exec (.jkParisonDump n k) s = .next (u.emit (.jacks .locked))) ∧
          ∀ b, exec (.jkWarm n b) s = .next (u.emit (.jacks .locked))) ∧
        (debugOpen s = true →
          (∀ k, exec (.jkParisonDump n k) s = .next (shown (sectionWords u k))) ∧
          (∀ b, s.rd Reg.BT_STAT_STAGE 0 = 0 → exec (.jkWarm n b) s = .next (orderWarm (u.emit (.jacks .ok)) b)) ∧
          (∀ (m : Mga) (t : State) (x : Nat) (e : Bool), m.toNat % 4 = 0 → peekWord u m.toNat = some (x, e, t) →
            (∀ d, accessDie m.toNat = some d → jkDieDown u d = false) →
            exec (.jkPeek n m 1) s = .next ((t.emit (.console [x])).emit (.jacks (if e then .ecc else .ok)))) ∧
          (∀ (m : Mga) v, m.toNat % 4 = 0 → lockedAt s m.toNat 4 = false → mgaCsr m.toNat = none → mgaClass m.toNat = 3 →
            served u m.toNat 4 = true → ∃ t o, exec (.jkPoke n m v) s = .next t ∧ t.out = o ++ [.jacks .ok] ∧
              SameOutside (stackBase (mgaStack m.toNat) + mgaOff36 m.toNat) 4 s t) ∧
          (∀ d row col, jkDieDown u d.val = false → s.rb Reg.FT_SCAN_BUSY d.val = false →
            posState s d.val row.val col.val = psQuarantine → ∃ t, exec (.jkScan n d row col) s = .next t ∧
            t.rb Reg.FT_SCAN_BUSY d.val = true ∧ t.rb Reg.JK_STAT_BUSY 0 = true ∧ t.manage.scan = some d))) ∧
      (s.rb Reg.JK_STAT_BUSY 0 = false → exec .jkCtrlC s = .next s) ∧
      (s.rb Reg.JK_STAT_BUSY 0 = true → s.manage.held = [] → ∃ t, exec .jkCtrlC s = .next t ∧ t.rb Reg.JK_STAT_BUSY 0 = false ∧
        t.manage.scan = none ∧ t.out = s.out ++ [.jacks .ok]) ∧
      ∀ (d : DieId) (pass : Bool) (x : BitVec 16), s.manage.scan ≠ some d →
        (scanned s d = none → exec (.scanComplete d pass x) s = .next s) ∧
        (∀ r c, scanned s d = some (r, c) → ∃ t, exec (.scanComplete d pass x) s = .next t ∧ t.rb Reg.FT_SCAN_BUSY d.val = false ∧
          t.rd Reg.FT_SCAN_RESULT d.val = (if pass then 1 else 2) ∧ posState t d.val r c = (if pass then psSpare else psField) ∧
          SameMemory s t)

/-- R581, R582, R583, R584, R585, R467: MCTP control, PLDM, vendor commands, sensors, I3C and DOE discovery. -/
def Obligations.ReportsMctpAndI3c : Prop :=
  ∀ (tr : Fin 2) (s : State),
      (transportUp s tr.val = false → ∀ (b : BitVec 8) (n k : Nat) (m : PldmReq) (l : List Byte) (f : Bool),
        ∀ c, c ∈ [Instr.setEndpointId tr b, .getEndpointId tr, .getMctpVersionSupport tr b, .getMessageTypeSupport tr,
          .getVendorDefinedMessageSupport tr n, .unsupportedMctpMessage tr b, .pldmMessage tr m, .getReport tr n, .warmReset tr f,
          .mctpInstallLicence tr l, .readFaultLog tr n k] → exec c s = .next s) ∧
      (transportUp s tr.val = true →
        let eid := if tr = 0 then Reg.HB_MGMT_EID_I3C else Reg.HB_MGMT_EID_VDM
        let ans := fun (t : State) (r : MgmtReply) => (announce t tr.val).emit (.mgmt tr.val r)
        (∀ b : BitVec 8,
          (b ≠ 0 → b ≠ 0xFF → exec (.setEndpointId tr b) s = .next (ans (s.wr eid 0 b.toNat) .done)) ∧
          (b = 0 ∨ b = 0xFF → exec (.setEndpointId tr b) s = .next (ans s .refused)) ∧
          (b.toNat ∉ [0, 1, 5, 6, 0x7E] → exec (.unsupportedMctpMessage tr b) s = .next (s.bump Reg.HB_MGMT_DROPS 0) ∧
            exec (.getMctpVersionSupport tr b) s = .next (ans s .refused)) ∧
          (b.toNat ∈ [0, 1, 5, 6, 0x7E] → exec (.unsupportedMctpMessage tr b) s = .next s ∧
            ∃ t v, exec (.getMctpVersionSupport tr b) s = .next t ∧ t.out = (announce s tr.val).out ++ [.mgmt tr.val (.value v)] ∧
              SameRegs s t)) ∧
        exec (.getEndpointId tr) s = .next (ans s (.value (s.rd eid 0))) ∧
        exec (.getMessageTypeSupport tr) s = .next (ans s (.list [0, 1, 5, 6, 0x7E])) ∧
        exec (.getVendorDefinedMessageSupport tr 0) s = .next (ans s (.value (Config.pciVendor % 2 ^ 16))) ∧
        exec (.getVendorDefinedMessageSupport tr 1) s = .next (ans s .refused) ∧
        exec (.pldmMessage tr .discovery) s = .next (ans s (.list [0, 2])) ∧ exec (.pldmMessage tr .pdrs) s = .next (ans s (.list sensorIds)) ∧
        (∀ n, n ∈ sensorIds → (∀ v, smGet none s.manage.readings n = some v →
            exec (.pldmMessage tr (.reading n)) s = .next (ans s (.list [0, v]))) ∧
          (smGet none s.manage.readings n = none → exec (.pldmMessage tr (.reading n)) s = .next (ans s (.list [1])))) ∧
        (∀ n, n ∉ sensorIds → exec (.pldmMessage tr (.reading n)) s = .next (ans s .refused)) ∧
        (∀ e, ∃ t, exec (.pldmMessage tr (.setReceiver e)) s = .next t ∧ smGet none t.manage.recv tr.val = e ∧ SameRegs s t) ∧
        (∀ e, (tr.val, e, 0) ∈ s.manage.unacked → s.manage.unacked.length = 1 → ∃ t, exec (.pldmMessage tr (.ack e)) s = .next t ∧
          t.manage.unacked = []) ∧
        (∀ n, n ≤ 3 → exec (.getReport tr n) s = .next (ans s (.words (reportWords s n)))) ∧
        (∀ n, 3 < n → exec (.getReport tr n) s = .next (ans s .refused)) ∧
        (∀ f, exec (.warmReset tr f) s = .next (orderWarm ((announce s tr.val).emit
          (.mgmt tr.val (if s.rd Reg.BT_STAT_STAGE 0 = 0 then .done else .refused))) f)) ∧
        (∀ l, ((installLicence s l).2 = true → exec (.mctpInstallLicence tr l) s = .next (ans (installLicence s l).1 .done)) ∧
          (l.length ≠ 128 → exec (.mctpInstallLicence tr l) s =
            .next (ans (s.lg LogKind.licenceIgnored hubN [licNum l 6 1, licNum l 7 1]) .refused))) ∧
        (∀ a n, 1 ≤ n → n ≤ 12 → exec (.readFaultLog tr a n) s =
          .next (ans s (.records ((s.faults.log.filter fun r => decide (a ≤ r.id)).take n)))) ∧
        (∀ a n, n = 0 ∨ 12 < n → exec (.readFaultLog tr a n) s = .next (ans s .refused))) ∧
      (s.chip.valid = true → ∃ t, exec .sensorRefresh s = .next t ∧ SameRegs s t ∧ SameMemory s t ∧
        smGet none t.manage.readings 1 = some s.chip.lastIn.1 ∧ smGet none t.manage.readings 3 = some (s.rd Reg.LH_MSTAT_PIN 0) ∧
        ∀ d : DieId, (s.rd Reg.FT_DIE_STATE 0 d.val = 4 → smGet none t.manage.readings (0x10 + d.val) = none) ∧
          (s.rd Reg.FT_DIE_STATE 0 d.val ≠ 4 → smGet none t.manage.readings (0x10 + d.val) = some (s.rd Reg.LH_STAT_AVG d.val))) ∧
      (s.chip.valid = false → exec .sensorRefresh s = .next s) ∧
      (transportUp s 0 = true →
        let pid := [Config.mipiId % 2 ^ 16, 0x0416, s.rd Reg.BT_IDENT_SLOT 0]
        (∀ a, (s.rd Reg.HB_MGMT_DADDR 0 = 0 → exec (.entdaa a) s =
            .next ((s.wr Reg.HB_MGMT_DADDR 0 a.toNat).emit (.i3c pid))) ∧
          (s.rd Reg.HB_MGMT_DADDR 0 ≠ 0 → exec (.entdaa a) s = .next s)) ∧
        exec .rstdaa s = .next (s.wr Reg.HB_MGMT_DADDR 0 0) ∧ exec .getpid s = .next (s.emit (.i3c pid)) ∧
        (∃ t v, exec .getbcr s = .next t ∧ t.out = s.out ++ [.i3c [v]] ∧ SameRegs s t ∧ SameMemory s t) ∧
        (∃ t v, exec .getdcr s = .next t ∧ t.out = s.out ++ [.i3c [v]] ∧ SameRegs s t ∧ SameMemory s t) ∧
        (∃ t v, exec .getmrl s = .next t ∧ t.out = s.out ++ [.i3c [v]] ∧ SameRegs s t ∧ SameMemory s t) ∧
        (∃ t v, exec .getmwl s = .next t ∧ t.out = s.out ++ [.i3c [v]] ∧ SameRegs s t ∧ SameMemory s t) ∧
        (∃ t, exec (.enec true) s = .next t ∧ t.manage.ibi = true ∧ SameRegs s t) ∧
        (∃ t, exec (.disec true) s = .next t ∧ t.manage.ibi = false ∧ SameRegs s t) ∧
        exec (.enec false) s = .next s ∧ exec (.disec false) s = .next s ∧
        ∀ a : BitVec 8, exec (.rstact a) s = .next (s.emit (.i3c [a.toNat]))) ∧
      (s.host.link = true → s.host.crs = false → ∀ n, exec (.doeDiscovery n) s =
        .next (s.emit (.doe (if n < 3 then [1, n, (n + 1) % 3] else [0xFFFF, 0, 0])))) ∧
      (s.host.link = false ∨ s.host.crs = true → ∀ n, exec (.doeDiscovery n) s = .next s)

/-- R568, R569, R570, R571, R572, R573, R577, R467, R476, R578: SPDM sessions and requests, ownership, keys, licences and
firmware over secured sessions. -/
def Obligations.SecureSessionsAndOwnership : Prop :=
  ∀ (c : SpdmCtx) (s : State),
      let ans := fun (t : State) (r : SpdmReply) => (announce t c.tr.val).emit (.spdm c.tr.val r)
      let den := fun (t : State) (code : Nat) => ((announce t c.tr.val).emit (.spdm c.tr.val .refused)).lg LogKind.vendorRefused hubN [code]
      (spdmUp s c = false → ∀ (b : Bool) (n : Nat) (f : Option Nat) (sl : Fin 8) (x : BitVec 8) (o : Owner) (k : KeyChange) (l : List Byte)
          (w : FwBlob) (v : Fin 65), ∀ i, i ∈ [Instr.getVersion c, .getCapabilities c, .negotiateAlgorithms c b, .getDigests c,
          .getCertificate c sl, .challenge c n, .getMeasurements c n, .keyExchange c, .finish c f, .heartbeat c, .keyUpdate c,
          .endSession c, .unsupportedSpdmRequest c x, .claim c o, .release c, .setKeys c k, .ownerInfo c, .installLicence c l,
          .fwStage c w, .fwCommit c v, .ideKm c] → exec i s = .next s) ∧
      (spdmUp s c = true →
        exec (.getVersion c) s = .next (ans s (.versions [0x12, 0x13])) ∧ exec (.getCapabilities c) s = .next (ans s .capabilities) ∧
        (∀ b, exec (.negotiateAlgorithms c b) s = .next (ans s (.algorithms b))) ∧
        exec (.getDigests c) s = .next (ans s (.digest (Config.sm3 Config.certChain % 2 ^ 256))) ∧
        exec (.getCertificate c 0) s = .next (ans s (.certificate Config.certChain)) ∧
        (∀ sl : Fin 8, sl ≠ 0 → exec (.getCertificate c sl) s = .next (ans s .refused)) ∧
        (∀ n, ∃ t g, exec (.challenge c n) s = .next t ∧ t.out = (announce s c.tr.val).out ++ [.spdm c.tr.val (.challenge g)] ∧
          SameRegs s t) ∧
        (∀ n, ∃ t g, exec (.getMeasurements c n) s = .next t ∧
          t.out = (announce s c.tr.val).out ++ [.spdm c.tr.val (.measurements (measure s) g)] ∧ SameRegs s t) ∧
        (∀ x, exec (.unsupportedSpdmRequest c x) s = .next (((announce s c.tr.val).emit (.spdm c.tr.val .unsupportedRequest)).lg
          LogKind.spdmUnsupported hubN [x.toNat])) ∧
        (4 ≤ s.manage.sess.length → exec (.keyExchange c) s = .next (ans s .sessionLimit)) ∧
        (s.manage.sess.length < 4 → s.manage.sess.any SpdmSess.doe = false → ∃ t, exec (.keyExchange c) s = .next t ∧
          t.manage.sess = s.manage.sess ++ [{ id := s.manage.nextSess, doe := decide (c.tr = 2) }] ∧ SameRegs s t) ∧
        (∀ x f, c.sess = some x.id → s.manage.sess = [x] → x.up = false → x.doe = decide (c.tr = 2) → ∃ t,
          exec (.finish c f) s = .next t ∧ t.manage.sess = [{ x with up := true, leaf := f }]) ∧
        (c.sess = none → (∀ f, ∀ i, i ∈ [Instr.finish c f, .heartbeat c, .keyUpdate c, .endSession c, .ideKm c] →
            exec i s = .next (ans s .refused)) ∧
          (∀ o, exec (.claim c o) s = .next (den s 1)) ∧ exec (.release c) s = .next (den s 2) ∧ (∀ k, exec (.setKeys c k) s = .next (den s 3)) ∧
          exec (.ownerInfo c) s = .next (den s 6) ∧ (∀ l, exec (.installLicence c l) s = .next (den s 4)) ∧
          ∀ w v, exec (.fwStage c w) s = .next (den s 5) ∧ exec (.fwCommit c v) s = .next (den s 5)) ∧
        ∀ x, session s c = some x →
          exec (.heartbeat c) s = .next (ans s .ack) ∧
          (∃ t, exec (.keyUpdate c) s = .next t ∧ { x with gen := x.gen + 1 } ∈ t.manage.sess ∧ SameRegs s t) ∧
          (∃ t, exec (.endSession c) s = .next t ∧ (∀ y ∈ t.manage.sess, y.id ≠ x.id) ∧ SameRegs s t) ∧
          (∀ o : Owner,
            (s.rd Reg.BT_STAT_OWNER 0 ≠ 0 ∨ x.leaf ≠ some o.key → exec (.claim c o) s = .next (den s 1)) ∧
            (s.rd Reg.BT_STAT_OWNER 0 = 0 → x.leaf = some o.key → ∃ t, exec (.claim c o) s = .next t ∧
              t.rd Reg.BT_STAT_OWNER 0 = 1 ∧ t.chip.owner = some o ∧ t.rb Reg.HB_HOSTCFG_IDE_REQ 0 = o.ideReq ∧
              (o.consent = false → t.rb Reg.BT_STAT_DEBUG 0 = false) ∧
              (o.consent = true → t.rb Reg.BT_STAT_DEBUG 0 = s.rb Reg.BT_STAT_DEBUG 0))) ∧
          (byOwner s x = false → exec (.release c) s = .next (den s 2) ∧ ∀ k, exec (.setKeys c k) s = .next (den s 3)) ∧
          (byOwner s x = true →
            exec (.release c) s = .next (startRelease ((announce s c.tr.val).emit (.spdm c.tr.val .ack)) (some x.id)) ∧
            ∀ k o, s.chip.owner = some o → ∃ t, exec (.setKeys c k) s = .next t ∧ t.chip.owner = some (changeOwner o k) ∧
              t.rd Reg.BT_STAT_OWNER 0 = 1 ∧ t.load = s.load) ∧
          (∀ o, s.chip.owner = some o → exec (.ownerInfo c) s = .next (ans s (.ownerInfo o.key o.ideReq o.consent))) ∧
          (s.chip.owner = none → exec (.ownerInfo c) s = .next (ans s (.ownerInfo 0 false false))) ∧
          (∀ l, ((installLicence s l).2 = true → exec (.installLicence c l) s = .next (ans (installLicence s l).1 .ack)) ∧
            (l.length ≠ 128 → exec (.installLicence c l) s =
              .next (den (s.lg LogKind.licenceIgnored hubN [licNum l 6 1, licNum l 7 1]) 4))) ∧
          (∀ w, fwAdmitted s x = false → exec (.fwStage c w) s = .next (den s 5)) ∧
          (∀ w, fwAdmitted s x = true → ∃ t, exec (.fwStage c w) s = .next t ∧ SameRegs s t ∧
            imgAt t (1 - s.rd Reg.BT_STAT_IMAGE 0) =
              { version := w.version, svn := w.svn.val, digest := w.digest, good := fwVerified s w }) ∧
          (∀ v : Fin 65, (fwAdmitted s x = false ∨ s.rd Reg.BT_SVN_IMAGE 0 ≠ v.val → exec (.fwCommit c v) s = .next (den s 5)) ∧
            (fwAdmitted s x = true → s.rd Reg.BT_SVN_IMAGE 0 = v.val → exec (.fwCommit c v) s =
              .next (ans (s.wr Reg.BT_SVN_FUSED 0 (max (s.rd Reg.BT_SVN_FUSED 0) v.val)) .ack))) ∧
          (x.doe = false → exec (.ideKm c) s = .next (ans s .refused)) ∧
          (x.doe = true → ∃ t, exec (.ideKm c) s = .next t ∧ t.rb Reg.HB_HOSTCFG_IDE_OK 0 = true ∧ SameMemory s t))
end

