-- ==== Sys2Proof/Laws/Maps.lean ====
section
/-! SUPPORT. What reading, setting and filtering do to a sparse map and to its canonical form, and that the keys of
different instances differ. -/

namespace Sys2Proof.Machine

variable {α : Type}

theorem smGet_smIns_same (d : α) (m : SMap α) (k : Nat) (v : α) : smGet d (smIns m k v) k = v := by
  induction m with
  | nil => simp [smIns, smGet]
  | cons p r ih =>
    obtain ⟨a, w⟩ := p
    simp only [smIns]
    split
    · simp [smGet]
    · split
      · simp [smGet]
      · rename_i h
        simp [smGet, h, ih]

theorem smGet_smIns_ne (d : α) (m : SMap α) {k j : Nat} (v : α) (h : j ≠ k) :
    smGet d (smIns m k v) j = smGet d m j := by
  induction m with
  | nil => simp [smIns, smGet, h]
  | cons p r ih =>
    obtain ⟨a, w⟩ := p
    simp only [smIns]
    split
    · simp [smGet, h]
    · split
      · rename_i h2
        subst h2
        simp [smGet, h]
      · simp [smGet, ih]

theorem smGet_filter_same (d : α) (m : SMap α) (k : Nat) : smGet d (m.filter fun p => p.1 ≠ k) k = d := by
  induction m with
  | nil => rfl
  | cons p r ih =>
    obtain ⟨a, w⟩ := p
    by_cases h : a = k
    · simpa [List.filter, h] using ih
    · have h' : k ≠ a := fun e => h e.symm
      simpa [List.filter, h, smGet, h'] using ih

theorem smGet_filter_keep (d : α) (m : SMap α) (f : Nat → Bool) {j : Nat} (h : f j = true) :
    smGet d (m.filter fun p => f p.1) j = smGet d m j := by
  induction m with
  | nil => rfl
  | cons p r ih =>
    obtain ⟨a, w⟩ := p
    by_cases e : j = a
    · subst e
      simp [List.filter, h, smGet]
    · cases hf : f a <;> simpa [List.filter, hf, smGet, e] using ih

/-- Reading the key just set. -/
theorem smGet_smSet_same [DecidableEq α] (d : α) (m : SMap α) (k : Nat) (v : α) : smGet d (smSet d m k v) k = v := by
  unfold smSet
  split
  · rename_i h
    rw [h]
    exact smGet_filter_same d m k
  · exact smGet_smIns_same d m k v

/-- Reading another key; the default of the reader need not be that of the writer. -/
theorem smGet_smSet_ne [DecidableEq α] (d e : α) (m : SMap α) {k j : Nat} (v : α) (h : j ≠ k) :
    smGet e (smSet d m k v) j = smGet e m j := by
  unfold smSet
  split
  · exact smGet_filter_keep e m (fun x => x ≠ k) (by simpa using h)
  · exact smGet_smIns_ne e m v h

/-- The canonical form, as a property of neighbours. -/
theorem smWf_iff [DecidableEq α] (d : α) (m : SMap α) :
    smWf d m = true ↔ m.Pairwise (fun p q => p.1 < q.1) ∧ ∀ p ∈ m, p.2 ≠ d := by
  induction m with
  | nil => simp [smWf]
  | cons p r ih =>
    obtain ⟨k, v⟩ := p
    cases r with
    | nil => simp [smWf]
    | cons q r =>
      obtain ⟨k', v'⟩ := q
      simp only [smWf, Bool.and_eq_true, decide_eq_true_eq, ih]
      constructor
      · rintro ⟨⟨h1, h2⟩, h3, h4⟩
        refine ⟨List.Pairwise.cons ?_ h3, ?_⟩
        · intro p hp
          rcases List.mem_cons.1 hp with rfl | hp
          · exact h2
          · exact Nat.lt_trans h2 (List.rel_of_pairwise_cons h3 hp)
        · intro p hp
          rcases List.mem_cons.1 hp with rfl | hp
          · exact h1
          · exact h4 p hp
      · rintro ⟨h1, h2⟩
        rw [List.pairwise_cons] at h1
        exact ⟨⟨h2 (k, v) List.mem_cons_self, h1.1 (k', v') List.mem_cons_self⟩, h1.2, fun p hp => h2 p (List.mem_cons_of_mem _ hp)⟩

theorem mem_smIns {m : SMap α} {k : Nat} {v : α} {p : Nat × α} (h : p ∈ smIns m k v) : p = (k, v) ∨ p ∈ m := by
  induction m with
  | nil => simpa [smIns] using h
  | cons q r ih =>
    obtain ⟨a, w⟩ := q
    simp only [smIns] at h
    split at h
    · simpa using h
    · split at h
      · rcases List.mem_cons.1 h with h | h
        · exact .inl h
        · exact .inr (by simp [h])
      · rcases List.mem_cons.1 h with h | h
        · exact .inr (by simp [h])
        · rcases ih h with h | h
          · exact .inl h
          · exact .inr (by simp [h])

theorem smIns_sorted {m : SMap α} (k : Nat) (v : α) (h : m.Pairwise fun p q => p.1 < q.1) :
    (smIns m k v).Pairwise fun p q => p.1 < q.1 := by
  induction m with
  | nil => simp [smIns]
  | cons q r ih =>
    obtain ⟨a, w⟩ := q
    rw [List.pairwise_cons] at h
    simp only [smIns]
    split
    · rename_i hk
      refine List.Pairwise.cons ?_ (List.Pairwise.cons h.1 h.2)
      intro p hp
      rcases List.mem_cons.1 hp with rfl | hp
      · exact hk
      · exact Nat.lt_trans hk (h.1 p hp)
    · split
      · rename_i hk
        subst hk
        exact List.Pairwise.cons h.1 h.2
      · refine List.Pairwise.cons ?_ (ih h.2)
        intro p hp
        rcases mem_smIns hp with rfl | hp
        · simp only
          omega
        · exact h.1 p hp

/-- Setting a key keeps the canonical form. -/
theorem smWf_smSet [DecidableEq α] (d : α) (m : SMap α) (k : Nat) (v : α) (h : smWf d m = true) :
    smWf d (smSet d m k v) = true := by
  rw [smWf_iff] at h ⊢
  unfold smSet
  split
  · exact ⟨h.1.filter _, fun p hp => h.2 p (List.mem_filter.1 hp).1⟩
  · rename_i hv
    refine ⟨smIns_sorted k v h.1, fun p hp => ?_⟩
    rcases mem_smIns hp with rfl | hp
    · exact hv
    · exact h.2 p hp

/-- Removing entries keeps the canonical form. -/
theorem smWf_filter [DecidableEq α] (d : α) (m : SMap α) (f : Nat × α → Bool) (h : smWf d m = true) :
    smWf d (m.filter f) = true := by
  rw [smWf_iff] at h ⊢
  exact ⟨h.1.filter _, fun p hp => h.2 p (List.mem_filter.1 hp).1⟩

/-- Different pairs have different numbers. -/
theorem natPair_inj {a b c d : Nat} (h : natPair a b = natPair c d) : a = c ∧ b = d := by
  unfold natPair at h
  have hs : a + b = c + d := by
    by_contra hn
    rcases Nat.lt_or_gt_of_ne hn with hl | hl
    · have h1 : (a + b + 1) * (a + b + 1) ≤ (c + d) * (c + d) := Nat.mul_le_mul hl hl
      have h2 : (a + b + 1) * (a + b + 1) = (a + b) * (a + b) + 2 * (a + b) + 1 := by ring
      omega
    · have h1 : (c + d + 1) * (c + d + 1) ≤ (a + b) * (a + b) := Nat.mul_le_mul hl hl
      have h2 : (c + d + 1) * (c + d + 1) = (c + d) * (c + d) + 2 * (c + d) + 1 := by ring
      omega
  rw [hs] at h
  omega

end Sys2Proof.Machine
end

