-- ==== Sys2Proof/Laws/State.lean ====
section
/-! SUPPORT. What each named update leaves as it was: one lemma per update and field of the state. -/

namespace Sys2Proof.Machine

variable (s : State)

@[simp] theorem State.wr_pend (F : Field) (u v i j : Nat) : (s.wr F u v i j).pend = s.pend := (rfl)
@[simp] theorem State.wr_latch (F : Field) (u v i j : Nat) : (s.wr F u v i j).latch = s.latch := (rfl)
@[simp] theorem State.wr_frozen (F : Field) (u v i j : Nat) : (s.wr F u v i j).frozen = s.frozen := (rfl)
@[simp] theorem State.wr_mem (F : Field) (u v i j : Nat) : (s.wr F u v i j).mem = s.mem := (rfl)
@[simp] theorem State.wr_cores (F : Field) (u v i j : Nat) : (s.wr F u v i j).cores = s.cores := (rfl)
@[simp] theorem State.wr_routers (F : Field) (u v i j : Nat) : (s.wr F u v i j).routers = s.routers := (rfl)
@[simp] theorem State.wr_streams (F : Field) (u v i j : Nat) : (s.wr F u v i j).streams = s.streams := (rfl)
@[simp] theorem State.wr_gathers (F : Field) (u v i j : Nat) : (s.wr F u v i j).gathers = s.gathers := (rfl)
@[simp] theorem State.wr_dies (F : Field) (u v i j : Nat) : (s.wr F u v i j).dies = s.dies := (rfl)
@[simp] theorem State.wr_eccBad (F : Field) (u v i j : Nat) : (s.wr F u v i j).eccBad = s.eccBad := (rfl)
@[simp] theorem State.wr_hubSend (F : Field) (u v i j : Nat) : (s.wr F u v i j).hubSend = s.hubSend := (rfl)
@[simp] theorem State.wr_ports (F : Field) (u v i j : Nat) : (s.wr F u v i j).ports = s.ports := (rfl)
@[simp] theorem State.wr_stackSt (F : Field) (u v i j : Nat) : (s.wr F u v i j).stackSt = s.stackSt := (rfl)
@[simp] theorem State.wr_hostReads (F : Field) (u v i j : Nat) : (s.wr F u v i j).hostReads = s.hostReads := (rfl)
@[simp] theorem State.wr_hostId (F : Field) (u v i j : Nat) : (s.wr F u v i j).hostId = s.hostId := (rfl)
@[simp] theorem State.wr_hubSync (F : Field) (u v i j : Nat) : (s.wr F u v i j).hubSync = s.hubSync := (rfl)
@[simp] theorem State.wr_stepLost (F : Field) (u v i j : Nat) : (s.wr F u v i j).stepLost = s.stepLost := (rfl)
@[simp] theorem State.wr_ladderOut (F : Field) (u v i j : Nat) : (s.wr F u v i j).ladderOut = s.ladderOut := (rfl)
@[simp] theorem State.wr_ratioOut (F : Field) (u v i j : Nat) : (s.wr F u v i j).ratioOut = s.ratioOut := (rfl)
@[simp] theorem State.wr_slots (F : Field) (u v i j : Nat) : (s.wr F u v i j).slots = s.slots := (rfl)
@[simp] theorem State.wr_mails (F : Field) (u v i j : Nat) : (s.wr F u v i j).mails = s.mails := (rfl)
@[simp] theorem State.wr_locks (F : Field) (u v i j : Nat) : (s.wr F u v i j).locks = s.locks := (rfl)
@[simp] theorem State.wr_host (F : Field) (u v i j : Nat) : (s.wr F u v i j).host = s.host := (rfl)
@[simp] theorem State.wr_power (F : Field) (u v i j : Nat) : (s.wr F u v i j).power = s.power := (rfl)
@[simp] theorem State.wr_ejected (F : Field) (u v i j : Nat) : (s.wr F u v i j).ejected = s.ejected := (rfl)
@[simp] theorem State.wr_chip (F : Field) (u v i j : Nat) : (s.wr F u v i j).chip = s.chip := (rfl)
@[simp] theorem State.wr_load (F : Field) (u v i j : Nat) : (s.wr F u v i j).load = s.load := (rfl)
@[simp] theorem State.wr_faults (F : Field) (u v i j : Nat) : (s.wr F u v i j).faults = s.faults := (rfl)
@[simp] theorem State.wr_manage (F : Field) (u v i j : Nat) : (s.wr F u v i j).manage = s.manage := (rfl)
@[simp] theorem State.wr_ctl (F : Field) (u v i j : Nat) : (s.wr F u v i j).ctl = s.ctl := (rfl)
@[simp] theorem State.wr_rowMaps (F : Field) (u v i j : Nat) : (s.wr F u v i j).rowMaps = s.rowMaps := (rfl)
@[simp] theorem State.wr_lossDue (F : Field) (u v i j : Nat) : (s.wr F u v i j).lossDue = s.lossDue := (rfl)
@[simp] theorem State.wr_log (F : Field) (u v i j : Nat) : (s.wr F u v i j).log = s.log := (rfl)
@[simp] theorem State.wr_out (F : Field) (u v i j : Nat) : (s.wr F u v i j).out = s.out := (rfl)
@[simp] theorem State.wr_free (F : Field) (u v i j : Nat) : (s.wr F u v i j).free = s.free := (rfl)
@[simp] theorem State.wr_hclk (F : Field) (u v i j : Nat) : (s.wr F u v i j).hclk = s.hclk := (rfl)
@[simp] theorem State.wr_pending (F : Field) (u v i j : Nat) : (s.wr F u v i j).pending = s.pending := (rfl)
@[simp] theorem State.wb_pend (F : Field) (u : Nat) (b : Bool) (i j : Nat) : (s.wb F u b i j).pend = s.pend := (rfl)
@[simp] theorem State.wb_latch (F : Field) (u : Nat) (b : Bool) (i j : Nat) : (s.wb F u b i j).latch = s.latch := (rfl)
@[simp] theorem State.wb_frozen (F : Field) (u : Nat) (b : Bool) (i j : Nat) : (s.wb F u b i j).frozen = s.frozen := (rfl)
@[simp] theorem State.wb_mem (F : Field) (u : Nat) (b : Bool) (i j : Nat) : (s.wb F u b i j).mem = s.mem := (rfl)
@[simp] theorem State.wb_cores (F : Field) (u : Nat) (b : Bool) (i j : Nat) : (s.wb F u b i j).cores = s.cores := (rfl)
@[simp] theorem State.wb_routers (F : Field) (u : Nat) (b : Bool) (i j : Nat) : (s.wb F u b i j).routers = s.routers := (rfl)
@[simp] theorem State.wb_streams (F : Field) (u : Nat) (b : Bool) (i j : Nat) : (s.wb F u b i j).streams = s.streams := (rfl)
@[simp] theorem State.wb_gathers (F : Field) (u : Nat) (b : Bool) (i j : Nat) : (s.wb F u b i j).gathers = s.gathers := (rfl)
@[simp] theorem State.wb_dies (F : Field) (u : Nat) (b : Bool) (i j : Nat) : (s.wb F u b i j).dies = s.dies := (rfl)
@[simp] theorem State.wb_eccBad (F : Field) (u : Nat) (b : Bool) (i j : Nat) : (s.wb F u b i j).eccBad = s.eccBad := (rfl)
@[simp] theorem State.wb_hubSend (F : Field) (u : Nat) (b : Bool) (i j : Nat) : (s.wb F u b i j).hubSend = s.hubSend := (rfl)
@[simp] theorem State.wb_ports (F : Field) (u : Nat) (b : Bool) (i j : Nat) : (s.wb F u b i j).ports = s.ports := (rfl)
@[simp] theorem State.wb_stackSt (F : Field) (u : Nat) (b : Bool) (i j : Nat) : (s.wb F u b i j).stackSt = s.stackSt := (rfl)
@[simp] theorem State.wb_hostReads (F : Field) (u : Nat) (b : Bool) (i j : Nat) : (s.wb F u b i j).hostReads = s.hostReads := (rfl)
@[simp] theorem State.wb_hostId (F : Field) (u : Nat) (b : Bool) (i j : Nat) : (s.wb F u b i j).hostId = s.hostId := (rfl)
@[simp] theorem State.wb_hubSync (F : Field) (u : Nat) (b : Bool) (i j : Nat) : (s.wb F u b i j).hubSync = s.hubSync := (rfl)
@[simp] theorem State.wb_stepLost (F : Field) (u : Nat) (b : Bool) (i j : Nat) : (s.wb F u b i j).stepLost = s.stepLost := (rfl)
@[simp] theorem State.wb_ladderOut (F : Field) (u : Nat) (b : Bool) (i j : Nat) : (s.wb F u b i j).ladderOut = s.ladderOut := (rfl)
@[simp] theorem State.wb_ratioOut (F : Field) (u : Nat) (b : Bool) (i j : Nat) : (s.wb F u b i j).ratioOut = s.ratioOut := (rfl)
@[simp] theorem State.wb_slots (F : Field) (u : Nat) (b : Bool) (i j : Nat) : (s.wb F u b i j).slots = s.slots := (rfl)
@[simp] theorem State.wb_mails (F : Field) (u : Nat) (b : Bool) (i j : Nat) : (s.wb F u b i j).mails = s.mails := (rfl)
@[simp] theorem State.wb_locks (F : Field) (u : Nat) (b : Bool) (i j : Nat) : (s.wb F u b i j).locks = s.locks := (rfl)
@[simp] theorem State.wb_host (F : Field) (u : Nat) (b : Bool) (i j : Nat) : (s.wb F u b i j).host = s.host := (rfl)
@[simp] theorem State.wb_power (F : Field) (u : Nat) (b : Bool) (i j : Nat) : (s.wb F u b i j).power = s.power := (rfl)
@[simp] theorem State.wb_ejected (F : Field) (u : Nat) (b : Bool) (i j : Nat) : (s.wb F u b i j).ejected = s.ejected := (rfl)
@[simp] theorem State.wb_chip (F : Field) (u : Nat) (b : Bool) (i j : Nat) : (s.wb F u b i j).chip = s.chip := (rfl)
@[simp] theorem State.wb_load (F : Field) (u : Nat) (b : Bool) (i j : Nat) : (s.wb F u b i j).load = s.load := (rfl)
@[simp] theorem State.wb_faults (F : Field) (u : Nat) (b : Bool) (i j : Nat) : (s.wb F u b i j).faults = s.faults := (rfl)
@[simp] theorem State.wb_manage (F : Field) (u : Nat) (b : Bool) (i j : Nat) : (s.wb F u b i j).manage = s.manage := (rfl)
@[simp] theorem State.wb_ctl (F : Field) (u : Nat) (b : Bool) (i j : Nat) : (s.wb F u b i j).ctl = s.ctl := (rfl)
@[simp] theorem State.wb_rowMaps (F : Field) (u : Nat) (b : Bool) (i j : Nat) : (s.wb F u b i j).rowMaps = s.rowMaps := (rfl)
@[simp] theorem State.wb_lossDue (F : Field) (u : Nat) (b : Bool) (i j : Nat) : (s.wb F u b i j).lossDue = s.lossDue := (rfl)
@[simp] theorem State.wb_log (F : Field) (u : Nat) (b : Bool) (i j : Nat) : (s.wb F u b i j).log = s.log := (rfl)
@[simp] theorem State.wb_out (F : Field) (u : Nat) (b : Bool) (i j : Nat) : (s.wb F u b i j).out = s.out := (rfl)
@[simp] theorem State.wb_free (F : Field) (u : Nat) (b : Bool) (i j : Nat) : (s.wb F u b i j).free = s.free := (rfl)
@[simp] theorem State.wb_hclk (F : Field) (u : Nat) (b : Bool) (i j : Nat) : (s.wb F u b i j).hclk = s.hclk := (rfl)
@[simp] theorem State.wb_pending (F : Field) (u : Nat) (b : Bool) (i j : Nat) : (s.wb F u b i j).pending = s.pending := (rfl)
@[simp] theorem State.bump_pend (F : Field) (u n i j : Nat) : (s.bump F u n i j).pend = s.pend := (rfl)
@[simp] theorem State.bump_latch (F : Field) (u n i j : Nat) : (s.bump F u n i j).latch = s.latch := (rfl)
@[simp] theorem State.bump_frozen (F : Field) (u n i j : Nat) : (s.bump F u n i j).frozen = s.frozen := (rfl)
@[simp] theorem State.bump_mem (F : Field) (u n i j : Nat) : (s.bump F u n i j).mem = s.mem := (rfl)
@[simp] theorem State.bump_cores (F : Field) (u n i j : Nat) : (s.bump F u n i j).cores = s.cores := (rfl)
@[simp] theorem State.bump_routers (F : Field) (u n i j : Nat) : (s.bump F u n i j).routers = s.routers := (rfl)
@[simp] theorem State.bump_streams (F : Field) (u n i j : Nat) : (s.bump F u n i j).streams = s.streams := (rfl)
@[simp] theorem State.bump_gathers (F : Field) (u n i j : Nat) : (s.bump F u n i j).gathers = s.gathers := (rfl)
@[simp] theorem State.bump_dies (F : Field) (u n i j : Nat) : (s.bump F u n i j).dies = s.dies := (rfl)
@[simp] theorem State.bump_eccBad (F : Field) (u n i j : Nat) : (s.bump F u n i j).eccBad = s.eccBad := (rfl)
@[simp] theorem State.bump_hubSend (F : Field) (u n i j : Nat) : (s.bump F u n i j).hubSend = s.hubSend := (rfl)
@[simp] theorem State.bump_ports (F : Field) (u n i j : Nat) : (s.bump F u n i j).ports = s.ports := (rfl)
@[simp] theorem State.bump_stackSt (F : Field) (u n i j : Nat) : (s.bump F u n i j).stackSt = s.stackSt := (rfl)
@[simp] theorem State.bump_hostReads (F : Field) (u n i j : Nat) : (s.bump F u n i j).hostReads = s.hostReads := (rfl)
@[simp] theorem State.bump_hostId (F : Field) (u n i j : Nat) : (s.bump F u n i j).hostId = s.hostId := (rfl)
@[simp] theorem State.bump_hubSync (F : Field) (u n i j : Nat) : (s.bump F u n i j).hubSync = s.hubSync := (rfl)
@[simp] theorem State.bump_stepLost (F : Field) (u n i j : Nat) : (s.bump F u n i j).stepLost = s.stepLost := (rfl)
@[simp] theorem State.bump_ladderOut (F : Field) (u n i j : Nat) : (s.bump F u n i j).ladderOut = s.ladderOut := (rfl)
@[simp] theorem State.bump_ratioOut (F : Field) (u n i j : Nat) : (s.bump F u n i j).ratioOut = s.ratioOut := (rfl)
@[simp] theorem State.bump_slots (F : Field) (u n i j : Nat) : (s.bump F u n i j).slots = s.slots := (rfl)
@[simp] theorem State.bump_mails (F : Field) (u n i j : Nat) : (s.bump F u n i j).mails = s.mails := (rfl)
@[simp] theorem State.bump_locks (F : Field) (u n i j : Nat) : (s.bump F u n i j).locks = s.locks := (rfl)
@[simp] theorem State.bump_host (F : Field) (u n i j : Nat) : (s.bump F u n i j).host = s.host := (rfl)
@[simp] theorem State.bump_power (F : Field) (u n i j : Nat) : (s.bump F u n i j).power = s.power := (rfl)
@[simp] theorem State.bump_ejected (F : Field) (u n i j : Nat) : (s.bump F u n i j).ejected = s.ejected := (rfl)
@[simp] theorem State.bump_chip (F : Field) (u n i j : Nat) : (s.bump F u n i j).chip = s.chip := (rfl)
@[simp] theorem State.bump_load (F : Field) (u n i j : Nat) : (s.bump F u n i j).load = s.load := (rfl)
@[simp] theorem State.bump_faults (F : Field) (u n i j : Nat) : (s.bump F u n i j).faults = s.faults := (rfl)
@[simp] theorem State.bump_manage (F : Field) (u n i j : Nat) : (s.bump F u n i j).manage = s.manage := (rfl)
@[simp] theorem State.bump_ctl (F : Field) (u n i j : Nat) : (s.bump F u n i j).ctl = s.ctl := (rfl)
@[simp] theorem State.bump_rowMaps (F : Field) (u n i j : Nat) : (s.bump F u n i j).rowMaps = s.rowMaps := (rfl)
@[simp] theorem State.bump_lossDue (F : Field) (u n i j : Nat) : (s.bump F u n i j).lossDue = s.lossDue := (rfl)
@[simp] theorem State.bump_log (F : Field) (u n i j : Nat) : (s.bump F u n i j).log = s.log := (rfl)
@[simp] theorem State.bump_out (F : Field) (u n i j : Nat) : (s.bump F u n i j).out = s.out := (rfl)
@[simp] theorem State.bump_free (F : Field) (u n i j : Nat) : (s.bump F u n i j).free = s.free := (rfl)
@[simp] theorem State.bump_hclk (F : Field) (u n i j : Nat) : (s.bump F u n i j).hclk = s.hclk := (rfl)
@[simp] theorem State.bump_pending (F : Field) (u n i j : Nat) : (s.bump F u n i j).pending = s.pending := (rfl)
@[simp] theorem State.orF_pend (F : Field) (u v i j : Nat) : (s.orF F u v i j).pend = s.pend := (rfl)
@[simp] theorem State.orF_latch (F : Field) (u v i j : Nat) : (s.orF F u v i j).latch = s.latch := (rfl)
@[simp] theorem State.orF_frozen (F : Field) (u v i j : Nat) : (s.orF F u v i j).frozen = s.frozen := (rfl)
@[simp] theorem State.orF_mem (F : Field) (u v i j : Nat) : (s.orF F u v i j).mem = s.mem := (rfl)
@[simp] theorem State.orF_cores (F : Field) (u v i j : Nat) : (s.orF F u v i j).cores = s.cores := (rfl)
@[simp] theorem State.orF_routers (F : Field) (u v i j : Nat) : (s.orF F u v i j).routers = s.routers := (rfl)
@[simp] theorem State.orF_streams (F : Field) (u v i j : Nat) : (s.orF F u v i j).streams = s.streams := (rfl)
@[simp] theorem State.orF_gathers (F : Field) (u v i j : Nat) : (s.orF F u v i j).gathers = s.gathers := (rfl)
@[simp] theorem State.orF_dies (F : Field) (u v i j : Nat) : (s.orF F u v i j).dies = s.dies := (rfl)
@[simp] theorem State.orF_eccBad (F : Field) (u v i j : Nat) : (s.orF F u v i j).eccBad = s.eccBad := (rfl)
@[simp] theorem State.orF_hubSend (F : Field) (u v i j : Nat) : (s.orF F u v i j).hubSend = s.hubSend := (rfl)
@[simp] theorem State.orF_ports (F : Field) (u v i j : Nat) : (s.orF F u v i j).ports = s.ports := (rfl)
@[simp] theorem State.orF_stackSt (F : Field) (u v i j : Nat) : (s.orF F u v i j).stackSt = s.stackSt := (rfl)
@[simp] theorem State.orF_hostReads (F : Field) (u v i j : Nat) : (s.orF F u v i j).hostReads = s.hostReads := (rfl)
@[simp] theorem State.orF_hostId (F : Field) (u v i j : Nat) : (s.orF F u v i j).hostId = s.hostId := (rfl)
@[simp] theorem State.orF_hubSync (F : Field) (u v i j : Nat) : (s.orF F u v i j).hubSync = s.hubSync := (rfl)
@[simp] theorem State.orF_stepLost (F : Field) (u v i j : Nat) : (s.orF F u v i j).stepLost = s.stepLost := (rfl)
@[simp] theorem State.orF_ladderOut (F : Field) (u v i j : Nat) : (s.orF F u v i j).ladderOut = s.ladderOut := (rfl)
@[simp] theorem State.orF_ratioOut (F : Field) (u v i j : Nat) : (s.orF F u v i j).ratioOut = s.ratioOut := (rfl)
@[simp] theorem State.orF_slots (F : Field) (u v i j : Nat) : (s.orF F u v i j).slots = s.slots := (rfl)
@[simp] theorem State.orF_mails (F : Field) (u v i j : Nat) : (s.orF F u v i j).mails = s.mails := (rfl)
@[simp] theorem State.orF_locks (F : Field) (u v i j : Nat) : (s.orF F u v i j).locks = s.locks := (rfl)
@[simp] theorem State.orF_host (F : Field) (u v i j : Nat) : (s.orF F u v i j).host = s.host := (rfl)
@[simp] theorem State.orF_power (F : Field) (u v i j : Nat) : (s.orF F u v i j).power = s.power := (rfl)
@[simp] theorem State.orF_ejected (F : Field) (u v i j : Nat) : (s.orF F u v i j).ejected = s.ejected := (rfl)
@[simp] theorem State.orF_chip (F : Field) (u v i j : Nat) : (s.orF F u v i j).chip = s.chip := (rfl)
@[simp] theorem State.orF_load (F : Field) (u v i j : Nat) : (s.orF F u v i j).load = s.load := (rfl)
@[simp] theorem State.orF_faults (F : Field) (u v i j : Nat) : (s.orF F u v i j).faults = s.faults := (rfl)
@[simp] theorem State.orF_manage (F : Field) (u v i j : Nat) : (s.orF F u v i j).manage = s.manage := (rfl)
@[simp] theorem State.orF_ctl (F : Field) (u v i j : Nat) : (s.orF F u v i j).ctl = s.ctl := (rfl)
@[simp] theorem State.orF_rowMaps (F : Field) (u v i j : Nat) : (s.orF F u v i j).rowMaps = s.rowMaps := (rfl)
@[simp] theorem State.orF_lossDue (F : Field) (u v i j : Nat) : (s.orF F u v i j).lossDue = s.lossDue := (rfl)
@[simp] theorem State.orF_log (F : Field) (u v i j : Nat) : (s.orF F u v i j).log = s.log := (rfl)
@[simp] theorem State.orF_out (F : Field) (u v i j : Nat) : (s.orF F u v i j).out = s.out := (rfl)
@[simp] theorem State.orF_free (F : Field) (u v i j : Nat) : (s.orF F u v i j).free = s.free := (rfl)
@[simp] theorem State.orF_hclk (F : Field) (u v i j : Nat) : (s.orF F u v i j).hclk = s.hclk := (rfl)
@[simp] theorem State.orF_pending (F : Field) (u v i j : Nat) : (s.orF F u v i j).pending = s.pending := (rfl)
@[simp] theorem State.bump64_pend (F : Field) (u n : Nat) : (s.bump64 F u n).pend = s.pend := (rfl)
@[simp] theorem State.bump64_latch (F : Field) (u n : Nat) : (s.bump64 F u n).latch = s.latch := (rfl)
@[simp] theorem State.bump64_frozen (F : Field) (u n : Nat) : (s.bump64 F u n).frozen = s.frozen := (rfl)
@[simp] theorem State.bump64_mem (F : Field) (u n : Nat) : (s.bump64 F u n).mem = s.mem := (rfl)
@[simp] theorem State.bump64_cores (F : Field) (u n : Nat) : (s.bump64 F u n).cores = s.cores := (rfl)
@[simp] theorem State.bump64_routers (F : Field) (u n : Nat) : (s.bump64 F u n).routers = s.routers := (rfl)
@[simp] theorem State.bump64_streams (F : Field) (u n : Nat) : (s.bump64 F u n).streams = s.streams := (rfl)
@[simp] theorem State.bump64_gathers (F : Field) (u n : Nat) : (s.bump64 F u n).gathers = s.gathers := (rfl)
@[simp] theorem State.bump64_dies (F : Field) (u n : Nat) : (s.bump64 F u n).dies = s.dies := (rfl)
@[simp] theorem State.bump64_eccBad (F : Field) (u n : Nat) : (s.bump64 F u n).eccBad = s.eccBad := (rfl)
@[simp] theorem State.bump64_hubSend (F : Field) (u n : Nat) : (s.bump64 F u n).hubSend = s.hubSend := (rfl)
@[simp] theorem State.bump64_ports (F : Field) (u n : Nat) : (s.bump64 F u n).ports = s.ports := (rfl)
@[simp] theorem State.bump64_stackSt (F : Field) (u n : Nat) : (s.bump64 F u n).stackSt = s.stackSt := (rfl)
@[simp] theorem State.bump64_hostReads (F : Field) (u n : Nat) : (s.bump64 F u n).hostReads = s.hostReads := (rfl)
@[simp] theorem State.bump64_hostId (F : Field) (u n : Nat) : (s.bump64 F u n).hostId = s.hostId := (rfl)
@[simp] theorem State.bump64_hubSync (F : Field) (u n : Nat) : (s.bump64 F u n).hubSync = s.hubSync := (rfl)
@[simp] theorem State.bump64_stepLost (F : Field) (u n : Nat) : (s.bump64 F u n).stepLost = s.stepLost := (rfl)
@[simp] theorem State.bump64_ladderOut (F : Field) (u n : Nat) : (s.bump64 F u n).ladderOut = s.ladderOut := (rfl)
@[simp] theorem State.bump64_ratioOut (F : Field) (u n : Nat) : (s.bump64 F u n).ratioOut = s.ratioOut := (rfl)
@[simp] theorem State.bump64_slots (F : Field) (u n : Nat) : (s.bump64 F u n).slots = s.slots := (rfl)
@[simp] theorem State.bump64_mails (F : Field) (u n : Nat) : (s.bump64 F u n).mails = s.mails := (rfl)
@[simp] theorem State.bump64_locks (F : Field) (u n : Nat) : (s.bump64 F u n).locks = s.locks := (rfl)
@[simp] theorem State.bump64_host (F : Field) (u n : Nat) : (s.bump64 F u n).host = s.host := (rfl)
@[simp] theorem State.bump64_power (F : Field) (u n : Nat) : (s.bump64 F u n).power = s.power := (rfl)
@[simp] theorem State.bump64_ejected (F : Field) (u n : Nat) : (s.bump64 F u n).ejected = s.ejected := (rfl)
@[simp] theorem State.bump64_chip (F : Field) (u n : Nat) : (s.bump64 F u n).chip = s.chip := (rfl)
@[simp] theorem State.bump64_load (F : Field) (u n : Nat) : (s.bump64 F u n).load = s.load := (rfl)
@[simp] theorem State.bump64_faults (F : Field) (u n : Nat) : (s.bump64 F u n).faults = s.faults := (rfl)
@[simp] theorem State.bump64_manage (F : Field) (u n : Nat) : (s.bump64 F u n).manage = s.manage := (rfl)
@[simp] theorem State.bump64_ctl (F : Field) (u n : Nat) : (s.bump64 F u n).ctl = s.ctl := (rfl)
@[simp] theorem State.bump64_rowMaps (F : Field) (u n : Nat) : (s.bump64 F u n).rowMaps = s.rowMaps := (rfl)
@[simp] theorem State.bump64_lossDue (F : Field) (u n : Nat) : (s.bump64 F u n).lossDue = s.lossDue := (rfl)
@[simp] theorem State.bump64_log (F : Field) (u n : Nat) : (s.bump64 F u n).log = s.log := (rfl)
@[simp] theorem State.bump64_out (F : Field) (u n : Nat) : (s.bump64 F u n).out = s.out := (rfl)
@[simp] theorem State.bump64_free (F : Field) (u n : Nat) : (s.bump64 F u n).free = s.free := (rfl)
@[simp] theorem State.bump64_hclk (F : Field) (u n : Nat) : (s.bump64 F u n).hclk = s.hclk := (rfl)
@[simp] theorem State.bump64_pending (F : Field) (u n : Nat) : (s.bump64 F u n).pending = s.pending := (rfl)
@[simp] theorem State.wr64_pend (lo hi : Field) (u v i j : Nat) : (s.wr64 lo hi u v i j).pend = s.pend := (rfl)
@[simp] theorem State.wr64_latch (lo hi : Field) (u v i j : Nat) : (s.wr64 lo hi u v i j).latch = s.latch := (rfl)
@[simp] theorem State.wr64_frozen (lo hi : Field) (u v i j : Nat) : (s.wr64 lo hi u v i j).frozen = s.frozen := (rfl)
@[simp] theorem State.wr64_mem (lo hi : Field) (u v i j : Nat) : (s.wr64 lo hi u v i j).mem = s.mem := (rfl)
@[simp] theorem State.wr64_cores (lo hi : Field) (u v i j : Nat) : (s.wr64 lo hi u v i j).cores = s.cores := (rfl)
@[simp] theorem State.wr64_routers (lo hi : Field) (u v i j : Nat) : (s.wr64 lo hi u v i j).routers = s.routers := (rfl)
@[simp] theorem State.wr64_streams (lo hi : Field) (u v i j : Nat) : (s.wr64 lo hi u v i j).streams = s.streams := (rfl)
@[simp] theorem State.wr64_gathers (lo hi : Field) (u v i j : Nat) : (s.wr64 lo hi u v i j).gathers = s.gathers := (rfl)
@[simp] theorem State.wr64_dies (lo hi : Field) (u v i j : Nat) : (s.wr64 lo hi u v i j).dies = s.dies := (rfl)
@[simp] theorem State.wr64_eccBad (lo hi : Field) (u v i j : Nat) : (s.wr64 lo hi u v i j).eccBad = s.eccBad := (rfl)
@[simp] theorem State.wr64_hubSend (lo hi : Field) (u v i j : Nat) : (s.wr64 lo hi u v i j).hubSend = s.hubSend := (rfl)
@[simp] theorem State.wr64_ports (lo hi : Field) (u v i j : Nat) : (s.wr64 lo hi u v i j).ports = s.ports := (rfl)
@[simp] theorem State.wr64_stackSt (lo hi : Field) (u v i j : Nat) : (s.wr64 lo hi u v i j).stackSt = s.stackSt := (rfl)
@[simp] theorem State.wr64_hostReads (lo hi : Field) (u v i j : Nat) : (s.wr64 lo hi u v i j).hostReads = s.hostReads := (rfl)
@[simp] theorem State.wr64_hostId (lo hi : Field) (u v i j : Nat) : (s.wr64 lo hi u v i j).hostId = s.hostId := (rfl)
@[simp] theorem State.wr64_hubSync (lo hi : Field) (u v i j : Nat) : (s.wr64 lo hi u v i j).hubSync = s.hubSync := (rfl)
@[simp] theorem State.wr64_stepLost (lo hi : Field) (u v i j : Nat) : (s.wr64 lo hi u v i j).stepLost = s.stepLost := (rfl)
@[simp] theorem State.wr64_ladderOut (lo hi : Field) (u v i j : Nat) : (s.wr64 lo hi u v i j).ladderOut = s.ladderOut := (rfl)
@[simp] theorem State.wr64_ratioOut (lo hi : Field) (u v i j : Nat) : (s.wr64 lo hi u v i j).ratioOut = s.ratioOut := (rfl)
@[simp] theorem State.wr64_slots (lo hi : Field) (u v i j : Nat) : (s.wr64 lo hi u v i j).slots = s.slots := (rfl)
@[simp] theorem State.wr64_mails (lo hi : Field) (u v i j : Nat) : (s.wr64 lo hi u v i j).mails = s.mails := (rfl)
@[simp] theorem State.wr64_locks (lo hi : Field) (u v i j : Nat) : (s.wr64 lo hi u v i j).locks = s.locks := (rfl)
@[simp] theorem State.wr64_host (lo hi : Field) (u v i j : Nat) : (s.wr64 lo hi u v i j).host = s.host := (rfl)
@[simp] theorem State.wr64_power (lo hi : Field) (u v i j : Nat) : (s.wr64 lo hi u v i j).power = s.power := (rfl)
@[simp] theorem State.wr64_ejected (lo hi : Field) (u v i j : Nat) : (s.wr64 lo hi u v i j).ejected = s.ejected := (rfl)
@[simp] theorem State.wr64_chip (lo hi : Field) (u v i j : Nat) : (s.wr64 lo hi u v i j).chip = s.chip := (rfl)
@[simp] theorem State.wr64_load (lo hi : Field) (u v i j : Nat) : (s.wr64 lo hi u v i j).load = s.load := (rfl)
@[simp] theorem State.wr64_faults (lo hi : Field) (u v i j : Nat) : (s.wr64 lo hi u v i j).faults = s.faults := (rfl)
@[simp] theorem State.wr64_manage (lo hi : Field) (u v i j : Nat) : (s.wr64 lo hi u v i j).manage = s.manage := (rfl)
@[simp] theorem State.wr64_ctl (lo hi : Field) (u v i j : Nat) : (s.wr64 lo hi u v i j).ctl = s.ctl := (rfl)
@[simp] theorem State.wr64_rowMaps (lo hi : Field) (u v i j : Nat) : (s.wr64 lo hi u v i j).rowMaps = s.rowMaps := (rfl)
@[simp] theorem State.wr64_lossDue (lo hi : Field) (u v i j : Nat) : (s.wr64 lo hi u v i j).lossDue = s.lossDue := (rfl)
@[simp] theorem State.wr64_log (lo hi : Field) (u v i j : Nat) : (s.wr64 lo hi u v i j).log = s.log := (rfl)
@[simp] theorem State.wr64_out (lo hi : Field) (u v i j : Nat) : (s.wr64 lo hi u v i j).out = s.out := (rfl)
@[simp] theorem State.wr64_free (lo hi : Field) (u v i j : Nat) : (s.wr64 lo hi u v i j).free = s.free := (rfl)
@[simp] theorem State.wr64_hclk (lo hi : Field) (u v i j : Nat) : (s.wr64 lo hi u v i j).hclk = s.hclk := (rfl)
@[simp] theorem State.wr64_pending (lo hi : Field) (u v i j : Nat) : (s.wr64 lo hi u v i j).pending = s.pending := (rfl)
@[simp] theorem State.setCst_pend (c : CoreId) (v : Nat) : (s.setCst c v).pend = s.pend := (rfl)
@[simp] theorem State.setCst_latch (c : CoreId) (v : Nat) : (s.setCst c v).latch = s.latch := (rfl)
@[simp] theorem State.setCst_frozen (c : CoreId) (v : Nat) : (s.setCst c v).frozen = s.frozen := (rfl)
@[simp] theorem State.setCst_mem (c : CoreId) (v : Nat) : (s.setCst c v).mem = s.mem := (rfl)
@[simp] theorem State.setCst_cores (c : CoreId) (v : Nat) : (s.setCst c v).cores = s.cores := (rfl)
@[simp] theorem State.setCst_routers (c : CoreId) (v : Nat) : (s.setCst c v).routers = s.routers := (rfl)
@[simp] theorem State.setCst_streams (c : CoreId) (v : Nat) : (s.setCst c v).streams = s.streams := (rfl)
@[simp] theorem State.setCst_gathers (c : CoreId) (v : Nat) : (s.setCst c v).gathers = s.gathers := (rfl)
@[simp] theorem State.setCst_dies (c : CoreId) (v : Nat) : (s.setCst c v).dies = s.dies := (rfl)
@[simp] theorem State.setCst_eccBad (c : CoreId) (v : Nat) : (s.setCst c v).eccBad = s.eccBad := (rfl)
@[simp] theorem State.setCst_hubSend (c : CoreId) (v : Nat) : (s.setCst c v).hubSend = s.hubSend := (rfl)
@[simp] theorem State.setCst_ports (c : CoreId) (v : Nat) : (s.setCst c v).ports = s.ports := (rfl)
@[simp] theorem State.setCst_stackSt (c : CoreId) (v : Nat) : (s.setCst c v).stackSt = s.stackSt := (rfl)
@[simp] theorem State.setCst_hostReads (c : CoreId) (v : Nat) : (s.setCst c v).hostReads = s.hostReads := (rfl)
@[simp] theorem State.setCst_hostId (c : CoreId) (v : Nat) : (s.setCst c v).hostId = s.hostId := (rfl)
@[simp] theorem State.setCst_hubSync (c : CoreId) (v : Nat) : (s.setCst c v).hubSync = s.hubSync := (rfl)
@[simp] theorem State.setCst_stepLost (c : CoreId) (v : Nat) : (s.setCst c v).stepLost = s.stepLost := (rfl)
@[simp] theorem State.setCst_ladderOut (c : CoreId) (v : Nat) : (s.setCst c v).ladderOut = s.ladderOut := (rfl)
@[simp] theorem State.setCst_ratioOut (c : CoreId) (v : Nat) : (s.setCst c v).ratioOut = s.ratioOut := (rfl)
@[simp] theorem State.setCst_slots (c : CoreId) (v : Nat) : (s.setCst c v).slots = s.slots := (rfl)
@[simp] theorem State.setCst_mails (c : CoreId) (v : Nat) : (s.setCst c v).mails = s.mails := (rfl)
@[simp] theorem State.setCst_locks (c : CoreId) (v : Nat) : (s.setCst c v).locks = s.locks := (rfl)
@[simp] theorem State.setCst_host (c : CoreId) (v : Nat) : (s.setCst c v).host = s.host := (rfl)
@[simp] theorem State.setCst_power (c : CoreId) (v : Nat) : (s.setCst c v).power = s.power := (rfl)
@[simp] theorem State.setCst_ejected (c : CoreId) (v : Nat) : (s.setCst c v).ejected = s.ejected := (rfl)
@[simp] theorem State.setCst_chip (c : CoreId) (v : Nat) : (s.setCst c v).chip = s.chip := (rfl)
@[simp] theorem State.setCst_load (c : CoreId) (v : Nat) : (s.setCst c v).load = s.load := (rfl)
@[simp] theorem State.setCst_faults (c : CoreId) (v : Nat) : (s.setCst c v).faults = s.faults := (rfl)
@[simp] theorem State.setCst_manage (c : CoreId) (v : Nat) : (s.setCst c v).manage = s.manage := (rfl)
@[simp] theorem State.setCst_ctl (c : CoreId) (v : Nat) : (s.setCst c v).ctl = s.ctl := (rfl)
@[simp] theorem State.setCst_rowMaps (c : CoreId) (v : Nat) : (s.setCst c v).rowMaps = s.rowMaps := (rfl)
@[simp] theorem State.setCst_lossDue (c : CoreId) (v : Nat) : (s.setCst c v).lossDue = s.lossDue := (rfl)
@[simp] theorem State.setCst_log (c : CoreId) (v : Nat) : (s.setCst c v).log = s.log := (rfl)
@[simp] theorem State.setCst_out (c : CoreId) (v : Nat) : (s.setCst c v).out = s.out := (rfl)
@[simp] theorem State.setCst_free (c : CoreId) (v : Nat) : (s.setCst c v).free = s.free := (rfl)
@[simp] theorem State.setCst_hclk (c : CoreId) (v : Nat) : (s.setCst c v).hclk = s.hclk := (rfl)
@[simp] theorem State.setCst_pending (c : CoreId) (v : Nat) : (s.setCst c v).pending = s.pending := (rfl)
@[simp] theorem State.lg_regs (kd : LogKind) (u : Nat) (a : List Nat) : (s.lg kd u a).regs = s.regs := (rfl)
@[simp] theorem State.lg_pend (kd : LogKind) (u : Nat) (a : List Nat) : (s.lg kd u a).pend = s.pend := (rfl)
@[simp] theorem State.lg_latch (kd : LogKind) (u : Nat) (a : List Nat) : (s.lg kd u a).latch = s.latch := (rfl)
@[simp] theorem State.lg_frozen (kd : LogKind) (u : Nat) (a : List Nat) : (s.lg kd u a).frozen = s.frozen := (rfl)
@[simp] theorem State.lg_mem (kd : LogKind) (u : Nat) (a : List Nat) : (s.lg kd u a).mem = s.mem := (rfl)
@[simp] theorem State.lg_cores (kd : LogKind) (u : Nat) (a : List Nat) : (s.lg kd u a).cores = s.cores := (rfl)
@[simp] theorem State.lg_routers (kd : LogKind) (u : Nat) (a : List Nat) : (s.lg kd u a).routers = s.routers := (rfl)
@[simp] theorem State.lg_streams (kd : LogKind) (u : Nat) (a : List Nat) : (s.lg kd u a).streams = s.streams := (rfl)
@[simp] theorem State.lg_gathers (kd : LogKind) (u : Nat) (a : List Nat) : (s.lg kd u a).gathers = s.gathers := (rfl)
@[simp] theorem State.lg_dies (kd : LogKind) (u : Nat) (a : List Nat) : (s.lg kd u a).dies = s.dies := (rfl)
@[simp] theorem State.lg_eccBad (kd : LogKind) (u : Nat) (a : List Nat) : (s.lg kd u a).eccBad = s.eccBad := (rfl)
@[simp] theorem State.lg_hubSend (kd : LogKind) (u : Nat) (a : List Nat) : (s.lg kd u a).hubSend = s.hubSend := (rfl)
@[simp] theorem State.lg_ports (kd : LogKind) (u : Nat) (a : List Nat) : (s.lg kd u a).ports = s.ports := (rfl)
@[simp] theorem State.lg_stackSt (kd : LogKind) (u : Nat) (a : List Nat) : (s.lg kd u a).stackSt = s.stackSt := (rfl)
@[simp] theorem State.lg_hostReads (kd : LogKind) (u : Nat) (a : List Nat) : (s.lg kd u a).hostReads = s.hostReads := (rfl)
@[simp] theorem State.lg_hostId (kd : LogKind) (u : Nat) (a : List Nat) : (s.lg kd u a).hostId = s.hostId := (rfl)
@[simp] theorem State.lg_hubSync (kd : LogKind) (u : Nat) (a : List Nat) : (s.lg kd u a).hubSync = s.hubSync := (rfl)
@[simp] theorem State.lg_stepLost (kd : LogKind) (u : Nat) (a : List Nat) : (s.lg kd u a).stepLost = s.stepLost := (rfl)
@[simp] theorem State.lg_ladderOut (kd : LogKind) (u : Nat) (a : List Nat) : (s.lg kd u a).ladderOut = s.ladderOut := (rfl)
@[simp] theorem State.lg_ratioOut (kd : LogKind) (u : Nat) (a : List Nat) : (s.lg kd u a).ratioOut = s.ratioOut := (rfl)
@[simp] theorem State.lg_slots (kd : LogKind) (u : Nat) (a : List Nat) : (s.lg kd u a).slots = s.slots := (rfl)
@[simp] theorem State.lg_mails (kd : LogKind) (u : Nat) (a : List Nat) : (s.lg kd u a).mails = s.mails := (rfl)
@[simp] theorem State.lg_locks (kd : LogKind) (u : Nat) (a : List Nat) : (s.lg kd u a).locks = s.locks := (rfl)
@[simp] theorem State.lg_host (kd : LogKind) (u : Nat) (a : List Nat) : (s.lg kd u a).host = s.host := (rfl)
@[simp] theorem State.lg_power (kd : LogKind) (u : Nat) (a : List Nat) : (s.lg kd u a).power = s.power := (rfl)
@[simp] theorem State.lg_ejected (kd : LogKind) (u : Nat) (a : List Nat) : (s.lg kd u a).ejected = s.ejected := (rfl)
@[simp] theorem State.lg_chip (kd : LogKind) (u : Nat) (a : List Nat) : (s.lg kd u a).chip = s.chip := (rfl)
@[simp] theorem State.lg_load (kd : LogKind) (u : Nat) (a : List Nat) : (s.lg kd u a).load = s.load := (rfl)
@[simp] theorem State.lg_faults (kd : LogKind) (u : Nat) (a : List Nat) : (s.lg kd u a).faults = s.faults := (rfl)
@[simp] theorem State.lg_manage (kd : LogKind) (u : Nat) (a : List Nat) : (s.lg kd u a).manage = s.manage := (rfl)
@[simp] theorem State.lg_ctl (kd : LogKind) (u : Nat) (a : List Nat) : (s.lg kd u a).ctl = s.ctl := (rfl)
@[simp] theorem State.lg_rowMaps (kd : LogKind) (u : Nat) (a : List Nat) : (s.lg kd u a).rowMaps = s.rowMaps := (rfl)
@[simp] theorem State.lg_lossDue (kd : LogKind) (u : Nat) (a : List Nat) : (s.lg kd u a).lossDue = s.lossDue := (rfl)
@[simp] theorem State.lg_out (kd : LogKind) (u : Nat) (a : List Nat) : (s.lg kd u a).out = s.out := (rfl)
@[simp] theorem State.lg_free (kd : LogKind) (u : Nat) (a : List Nat) : (s.lg kd u a).free = s.free := (rfl)
@[simp] theorem State.lg_hclk (kd : LogKind) (u : Nat) (a : List Nat) : (s.lg kd u a).hclk = s.hclk := (rfl)
@[simp] theorem State.lg_pending (kd : LogKind) (u : Nat) (a : List Nat) : (s.lg kd u a).pending = s.pending := (rfl)
@[simp] theorem State.emit_regs (o : Out) : (s.emit o).regs = s.regs := (rfl)
@[simp] theorem State.emit_pend (o : Out) : (s.emit o).pend = s.pend := (rfl)
@[simp] theorem State.emit_latch (o : Out) : (s.emit o).latch = s.latch := (rfl)
@[simp] theorem State.emit_frozen (o : Out) : (s.emit o).frozen = s.frozen := (rfl)
@[simp] theorem State.emit_mem (o : Out) : (s.emit o).mem = s.mem := (rfl)
@[simp] theorem State.emit_cores (o : Out) : (s.emit o).cores = s.cores := (rfl)
@[simp] theorem State.emit_routers (o : Out) : (s.emit o).routers = s.routers := (rfl)
@[simp] theorem State.emit_streams (o : Out) : (s.emit o).streams = s.streams := (rfl)
@[simp] theorem State.emit_gathers (o : Out) : (s.emit o).gathers = s.gathers := (rfl)
@[simp] theorem State.emit_dies (o : Out) : (s.emit o).dies = s.dies := (rfl)
@[simp] theorem State.emit_eccBad (o : Out) : (s.emit o).eccBad = s.eccBad := (rfl)
@[simp] theorem State.emit_hubSend (o : Out) : (s.emit o).hubSend = s.hubSend := (rfl)
@[simp] theorem State.emit_ports (o : Out) : (s.emit o).ports = s.ports := (rfl)
@[simp] theorem State.emit_stackSt (o : Out) : (s.emit o).stackSt = s.stackSt := (rfl)
@[simp] theorem State.emit_hostReads (o : Out) : (s.emit o).hostReads = s.hostReads := (rfl)
@[simp] theorem State.emit_hostId (o : Out) : (s.emit o).hostId = s.hostId := (rfl)
@[simp] theorem State.emit_hubSync (o : Out) : (s.emit o).hubSync = s.hubSync := (rfl)
@[simp] theorem State.emit_stepLost (o : Out) : (s.emit o).stepLost = s.stepLost := (rfl)
@[simp] theorem State.emit_ladderOut (o : Out) : (s.emit o).ladderOut = s.ladderOut := (rfl)
@[simp] theorem State.emit_ratioOut (o : Out) : (s.emit o).ratioOut = s.ratioOut := (rfl)
@[simp] theorem State.emit_slots (o : Out) : (s.emit o).slots = s.slots := (rfl)
@[simp] theorem State.emit_mails (o : Out) : (s.emit o).mails = s.mails := (rfl)
@[simp] theorem State.emit_locks (o : Out) : (s.emit o).locks = s.locks := (rfl)
@[simp] theorem State.emit_host (o : Out) : (s.emit o).host = s.host := (rfl)
@[simp] theorem State.emit_power (o : Out) : (s.emit o).power = s.power := (rfl)
@[simp] theorem State.emit_ejected (o : Out) : (s.emit o).ejected = s.ejected := (rfl)
@[simp] theorem State.emit_chip (o : Out) : (s.emit o).chip = s.chip := (rfl)
@[simp] theorem State.emit_load (o : Out) : (s.emit o).load = s.load := (rfl)
@[simp] theorem State.emit_faults (o : Out) : (s.emit o).faults = s.faults := (rfl)
@[simp] theorem State.emit_manage (o : Out) : (s.emit o).manage = s.manage := (rfl)
@[simp] theorem State.emit_ctl (o : Out) : (s.emit o).ctl = s.ctl := (rfl)
@[simp] theorem State.emit_rowMaps (o : Out) : (s.emit o).rowMaps = s.rowMaps := (rfl)
@[simp] theorem State.emit_lossDue (o : Out) : (s.emit o).lossDue = s.lossDue := (rfl)
@[simp] theorem State.emit_log (o : Out) : (s.emit o).log = s.log := (rfl)
@[simp] theorem State.emit_free (o : Out) : (s.emit o).free = s.free := (rfl)
@[simp] theorem State.emit_hclk (o : Out) : (s.emit o).hclk = s.hclk := (rfl)
@[simp] theorem State.emit_pending (o : Out) : (s.emit o).pending = s.pending := (rfl)
@[simp] theorem State.setCx_regs (c : CoreId) (x : CoreX) : (s.setCx c x).regs = s.regs := (rfl)
@[simp] theorem State.setCx_pend (c : CoreId) (x : CoreX) : (s.setCx c x).pend = s.pend := (rfl)
@[simp] theorem State.setCx_latch (c : CoreId) (x : CoreX) : (s.setCx c x).latch = s.latch := (rfl)
@[simp] theorem State.setCx_frozen (c : CoreId) (x : CoreX) : (s.setCx c x).frozen = s.frozen := (rfl)
@[simp] theorem State.setCx_mem (c : CoreId) (x : CoreX) : (s.setCx c x).mem = s.mem := (rfl)
@[simp] theorem State.setCx_routers (c : CoreId) (x : CoreX) : (s.setCx c x).routers = s.routers := (rfl)
@[simp] theorem State.setCx_streams (c : CoreId) (x : CoreX) : (s.setCx c x).streams = s.streams := (rfl)
@[simp] theorem State.setCx_gathers (c : CoreId) (x : CoreX) : (s.setCx c x).gathers = s.gathers := (rfl)
@[simp] theorem State.setCx_dies (c : CoreId) (x : CoreX) : (s.setCx c x).dies = s.dies := (rfl)
@[simp] theorem State.setCx_eccBad (c : CoreId) (x : CoreX) : (s.setCx c x).eccBad = s.eccBad := (rfl)
@[simp] theorem State.setCx_hubSend (c : CoreId) (x : CoreX) : (s.setCx c x).hubSend = s.hubSend := (rfl)
@[simp] theorem State.setCx_ports (c : CoreId) (x : CoreX) : (s.setCx c x).ports = s.ports := (rfl)
@[simp] theorem State.setCx_stackSt (c : CoreId) (x : CoreX) : (s.setCx c x).stackSt = s.stackSt := (rfl)
@[simp] theorem State.setCx_hostReads (c : CoreId) (x : CoreX) : (s.setCx c x).hostReads = s.hostReads := (rfl)
@[simp] theorem State.setCx_hostId (c : CoreId) (x : CoreX) : (s.setCx c x).hostId = s.hostId := (rfl)
@[simp] theorem State.setCx_hubSync (c : CoreId) (x : CoreX) : (s.setCx c x).hubSync = s.hubSync := (rfl)
@[simp] theorem State.setCx_stepLost (c : CoreId) (x : CoreX) : (s.setCx c x).stepLost = s.stepLost := (rfl)
@[simp] theorem State.setCx_ladderOut (c : CoreId) (x : CoreX) : (s.setCx c x).ladderOut = s.ladderOut := (rfl)
@[simp] theorem State.setCx_ratioOut (c : CoreId) (x : CoreX) : (s.setCx c x).ratioOut = s.ratioOut := (rfl)
@[simp] theorem State.setCx_slots (c : CoreId) (x : CoreX) : (s.setCx c x).slots = s.slots := (rfl)
@[simp] theorem State.setCx_mails (c : CoreId) (x : CoreX) : (s.setCx c x).mails = s.mails := (rfl)
@[simp] theorem State.setCx_locks (c : CoreId) (x : CoreX) : (s.setCx c x).locks = s.locks := (rfl)
@[simp] theorem State.setCx_host (c : CoreId) (x : CoreX) : (s.setCx c x).host = s.host := (rfl)
@[simp] theorem State.setCx_power (c : CoreId) (x : CoreX) : (s.setCx c x).power = s.power := (rfl)
@[simp] theorem State.setCx_ejected (c : CoreId) (x : CoreX) : (s.setCx c x).ejected = s.ejected := (rfl)
@[simp] theorem State.setCx_chip (c : CoreId) (x : CoreX) : (s.setCx c x).chip = s.chip := (rfl)
@[simp] theorem State.setCx_load (c : CoreId) (x : CoreX) : (s.setCx c x).load = s.load := (rfl)
@[simp] theorem State.setCx_faults (c : CoreId) (x : CoreX) : (s.setCx c x).faults = s.faults := (rfl)
@[simp] theorem State.setCx_manage (c : CoreId) (x : CoreX) : (s.setCx c x).manage = s.manage := (rfl)
@[simp] theorem State.setCx_ctl (c : CoreId) (x : CoreX) : (s.setCx c x).ctl = s.ctl := (rfl)
@[simp] theorem State.setCx_rowMaps (c : CoreId) (x : CoreX) : (s.setCx c x).rowMaps = s.rowMaps := (rfl)
@[simp] theorem State.setCx_lossDue (c : CoreId) (x : CoreX) : (s.setCx c x).lossDue = s.lossDue := (rfl)
@[simp] theorem State.setCx_log (c : CoreId) (x : CoreX) : (s.setCx c x).log = s.log := (rfl)
@[simp] theorem State.setCx_out (c : CoreId) (x : CoreX) : (s.setCx c x).out = s.out := (rfl)
@[simp] theorem State.setCx_free (c : CoreId) (x : CoreX) : (s.setCx c x).free = s.free := (rfl)
@[simp] theorem State.setCx_hclk (c : CoreId) (x : CoreX) : (s.setCx c x).hclk = s.hclk := (rfl)
@[simp] theorem State.setCx_pending (c : CoreId) (x : CoreX) : (s.setCx c x).pending = s.pending := (rfl)
@[simp] theorem State.setRx_regs (c : CoreId) (x : RouterX) : (s.setRx c x).regs = s.regs := (rfl)
@[simp] theorem State.setRx_pend (c : CoreId) (x : RouterX) : (s.setRx c x).pend = s.pend := (rfl)
@[simp] theorem State.setRx_latch (c : CoreId) (x : RouterX) : (s.setRx c x).latch = s.latch := (rfl)
@[simp] theorem State.setRx_frozen (c : CoreId) (x : RouterX) : (s.setRx c x).frozen = s.frozen := (rfl)
@[simp] theorem State.setRx_mem (c : CoreId) (x : RouterX) : (s.setRx c x).mem = s.mem := (rfl)
@[simp] theorem State.setRx_cores (c : CoreId) (x : RouterX) : (s.setRx c x).cores = s.cores := (rfl)
@[simp] theorem State.setRx_streams (c : CoreId) (x : RouterX) : (s.setRx c x).streams = s.streams := (rfl)
@[simp] theorem State.setRx_gathers (c : CoreId) (x : RouterX) : (s.setRx c x).gathers = s.gathers := (rfl)
@[simp] theorem State.setRx_dies (c : CoreId) (x : RouterX) : (s.setRx c x).dies = s.dies := (rfl)
@[simp] theorem State.setRx_eccBad (c : CoreId) (x : RouterX) : (s.setRx c x).eccBad = s.eccBad := (rfl)
@[simp] theorem State.setRx_hubSend (c : CoreId) (x : RouterX) : (s.setRx c x).hubSend = s.hubSend := (rfl)
@[simp] theorem State.setRx_ports (c : CoreId) (x : RouterX) : (s.setRx c x).ports = s.ports := (rfl)
@[simp] theorem State.setRx_stackSt (c : CoreId) (x : RouterX) : (s.setRx c x).stackSt = s.stackSt := (rfl)
@[simp] theorem State.setRx_hostReads (c : CoreId) (x : RouterX) : (s.setRx c x).hostReads = s.hostReads := (rfl)
@[simp] theorem State.setRx_hostId (c : CoreId) (x : RouterX) : (s.setRx c x).hostId = s.hostId := (rfl)
@[simp] theorem State.setRx_hubSync (c : CoreId) (x : RouterX) : (s.setRx c x).hubSync = s.hubSync := (rfl)
@[simp] theorem State.setRx_stepLost (c : CoreId) (x : RouterX) : (s.setRx c x).stepLost = s.stepLost := (rfl)
@[simp] theorem State.setRx_ladderOut (c : CoreId) (x : RouterX) : (s.setRx c x).ladderOut = s.ladderOut := (rfl)
@[simp] theorem State.setRx_ratioOut (c : CoreId) (x : RouterX) : (s.setRx c x).ratioOut = s.ratioOut := (rfl)
@[simp] theorem State.setRx_slots (c : CoreId) (x : RouterX) : (s.setRx c x).slots = s.slots := (rfl)
@[simp] theorem State.setRx_mails (c : CoreId) (x : RouterX) : (s.setRx c x).mails = s.mails := (rfl)
@[simp] theorem State.setRx_locks (c : CoreId) (x : RouterX) : (s.setRx c x).locks = s.locks := (rfl)
@[simp] theorem State.setRx_host (c : CoreId) (x : RouterX) : (s.setRx c x).host = s.host := (rfl)
@[simp] theorem State.setRx_power (c : CoreId) (x : RouterX) : (s.setRx c x).power = s.power := (rfl)
@[simp] theorem State.setRx_ejected (c : CoreId) (x : RouterX) : (s.setRx c x).ejected = s.ejected := (rfl)
@[simp] theorem State.setRx_chip (c : CoreId) (x : RouterX) : (s.setRx c x).chip = s.chip := (rfl)
@[simp] theorem State.setRx_load (c : CoreId) (x : RouterX) : (s.setRx c x).load = s.load := (rfl)
@[simp] theorem State.setRx_faults (c : CoreId) (x : RouterX) : (s.setRx c x).faults = s.faults := (rfl)
@[simp] theorem State.setRx_manage (c : CoreId) (x : RouterX) : (s.setRx c x).manage = s.manage := (rfl)
@[simp] theorem State.setRx_ctl (c : CoreId) (x : RouterX) : (s.setRx c x).ctl = s.ctl := (rfl)
@[simp] theorem State.setRx_rowMaps (c : CoreId) (x : RouterX) : (s.setRx c x).rowMaps = s.rowMaps := (rfl)
@[simp] theorem State.setRx_lossDue (c : CoreId) (x : RouterX) : (s.setRx c x).lossDue = s.lossDue := (rfl)
@[simp] theorem State.setRx_log (c : CoreId) (x : RouterX) : (s.setRx c x).log = s.log := (rfl)
@[simp] theorem State.setRx_out (c : CoreId) (x : RouterX) : (s.setRx c x).out = s.out := (rfl)
@[simp] theorem State.setRx_free (c : CoreId) (x : RouterX) : (s.setRx c x).free = s.free := (rfl)
@[simp] theorem State.setRx_hclk (c : CoreId) (x : RouterX) : (s.setRx c x).hclk = s.hclk := (rfl)
@[simp] theorem State.setRx_pending (c : CoreId) (x : RouterX) : (s.setRx c x).pending = s.pending := (rfl)
@[simp] theorem State.setSx_regs (d : DieId) (n : Nat) (x : StreamX) : (s.setSx d n x).regs = s.regs := (rfl)
@[simp] theorem State.setSx_pend (d : DieId) (n : Nat) (x : StreamX) : (s.setSx d n x).pend = s.pend := (rfl)
@[simp] theorem State.setSx_latch (d : DieId) (n : Nat) (x : StreamX) : (s.setSx d n x).latch = s.latch := (rfl)
@[simp] theorem State.setSx_frozen (d : DieId) (n : Nat) (x : StreamX) : (s.setSx d n x).frozen = s.frozen := (rfl)
@[simp] theorem State.setSx_mem (d : DieId) (n : Nat) (x : StreamX) : (s.setSx d n x).mem = s.mem := (rfl)
@[simp] theorem State.setSx_cores (d : DieId) (n : Nat) (x : StreamX) : (s.setSx d n x).cores = s.cores := (rfl)
@[simp] theorem State.setSx_routers (d : DieId) (n : Nat) (x : StreamX) : (s.setSx d n x).routers = s.routers := (rfl)
@[simp] theorem State.setSx_gathers (d : DieId) (n : Nat) (x : StreamX) : (s.setSx d n x).gathers = s.gathers := (rfl)
@[simp] theorem State.setSx_dies (d : DieId) (n : Nat) (x : StreamX) : (s.setSx d n x).dies = s.dies := (rfl)
@[simp] theorem State.setSx_eccBad (d : DieId) (n : Nat) (x : StreamX) : (s.setSx d n x).eccBad = s.eccBad := (rfl)
@[simp] theorem State.setSx_hubSend (d : DieId) (n : Nat) (x : StreamX) : (s.setSx d n x).hubSend = s.hubSend := (rfl)
@[simp] theorem State.setSx_ports (d : DieId) (n : Nat) (x : StreamX) : (s.setSx d n x).ports = s.ports := (rfl)
@[simp] theorem State.setSx_stackSt (d : DieId) (n : Nat) (x : StreamX) : (s.setSx d n x).stackSt = s.stackSt := (rfl)
@[simp] theorem State.setSx_hostReads (d : DieId) (n : Nat) (x : StreamX) : (s.setSx d n x).hostReads = s.hostReads := (rfl)
@[simp] theorem State.setSx_hostId (d : DieId) (n : Nat) (x : StreamX) : (s.setSx d n x).hostId = s.hostId := (rfl)
@[simp] theorem State.setSx_hubSync (d : DieId) (n : Nat) (x : StreamX) : (s.setSx d n x).hubSync = s.hubSync := (rfl)
@[simp] theorem State.setSx_stepLost (d : DieId) (n : Nat) (x : StreamX) : (s.setSx d n x).stepLost = s.stepLost := (rfl)
@[simp] theorem State.setSx_ladderOut (d : DieId) (n : Nat) (x : StreamX) : (s.setSx d n x).ladderOut = s.ladderOut := (rfl)
@[simp] theorem State.setSx_ratioOut (d : DieId) (n : Nat) (x : StreamX) : (s.setSx d n x).ratioOut = s.ratioOut := (rfl)
@[simp] theorem State.setSx_slots (d : DieId) (n : Nat) (x : StreamX) : (s.setSx d n x).slots = s.slots := (rfl)
@[simp] theorem State.setSx_mails (d : DieId) (n : Nat) (x : StreamX) : (s.setSx d n x).mails = s.mails := (rfl)
@[simp] theorem State.setSx_locks (d : DieId) (n : Nat) (x : StreamX) : (s.setSx d n x).locks = s.locks := (rfl)
@[simp] theorem State.setSx_host (d : DieId) (n : Nat) (x : StreamX) : (s.setSx d n x).host = s.host := (rfl)
@[simp] theorem State.setSx_power (d : DieId) (n : Nat) (x : StreamX) : (s.setSx d n x).power = s.power := (rfl)
@[simp] theorem State.setSx_ejected (d : DieId) (n : Nat) (x : StreamX) : (s.setSx d n x).ejected = s.ejected := (rfl)
@[simp] theorem State.setSx_chip (d : DieId) (n : Nat) (x : StreamX) : (s.setSx d n x).chip = s.chip := (rfl)
@[simp] theorem State.setSx_load (d : DieId) (n : Nat) (x : StreamX) : (s.setSx d n x).load = s.load := (rfl)
@[simp] theorem State.setSx_faults (d : DieId) (n : Nat) (x : StreamX) : (s.setSx d n x).faults = s.faults := (rfl)
@[simp] theorem State.setSx_manage (d : DieId) (n : Nat) (x : StreamX) : (s.setSx d n x).manage = s.manage := (rfl)
@[simp] theorem State.setSx_ctl (d : DieId) (n : Nat) (x : StreamX) : (s.setSx d n x).ctl = s.ctl := (rfl)
@[simp] theorem State.setSx_rowMaps (d : DieId) (n : Nat) (x : StreamX) : (s.setSx d n x).rowMaps = s.rowMaps := (rfl)
@[simp] theorem State.setSx_lossDue (d : DieId) (n : Nat) (x : StreamX) : (s.setSx d n x).lossDue = s.lossDue := (rfl)
@[simp] theorem State.setSx_log (d : DieId) (n : Nat) (x : StreamX) : (s.setSx d n x).log = s.log := (rfl)
@[simp] theorem State.setSx_out (d : DieId) (n : Nat) (x : StreamX) : (s.setSx d n x).out = s.out := (rfl)
@[simp] theorem State.setSx_free (d : DieId) (n : Nat) (x : StreamX) : (s.setSx d n x).free = s.free := (rfl)
@[simp] theorem State.setSx_hclk (d : DieId) (n : Nat) (x : StreamX) : (s.setSx d n x).hclk = s.hclk := (rfl)
@[simp] theorem State.setSx_pending (d : DieId) (n : Nat) (x : StreamX) : (s.setSx d n x).pending = s.pending := (rfl)
@[simp] theorem State.setGx_regs (g : Gather) (x : GatherX) : (s.setGx g x).regs = s.regs := (rfl)
@[simp] theorem State.setGx_pend (g : Gather) (x : GatherX) : (s.setGx g x).pend = s.pend := (rfl)
@[simp] theorem State.setGx_latch (g : Gather) (x : GatherX) : (s.setGx g x).latch = s.latch := (rfl)
@[simp] theorem State.setGx_frozen (g : Gather) (x : GatherX) : (s.setGx g x).frozen = s.frozen := (rfl)
@[simp] theorem State.setGx_mem (g : Gather) (x : GatherX) : (s.setGx g x).mem = s.mem := (rfl)
@[simp] theorem State.setGx_cores (g : Gather) (x : GatherX) : (s.setGx g x).cores = s.cores := (rfl)
@[simp] theorem State.setGx_routers (g : Gather) (x : GatherX) : (s.setGx g x).routers = s.routers := (rfl)
@[simp] theorem State.setGx_streams (g : Gather) (x : GatherX) : (s.setGx g x).streams = s.streams := (rfl)
@[simp] theorem State.setGx_dies (g : Gather) (x : GatherX) : (s.setGx g x).dies = s.dies := (rfl)
@[simp] theorem State.setGx_eccBad (g : Gather) (x : GatherX) : (s.setGx g x).eccBad = s.eccBad := (rfl)
@[simp] theorem State.setGx_hubSend (g : Gather) (x : GatherX) : (s.setGx g x).hubSend = s.hubSend := (rfl)
@[simp] theorem State.setGx_ports (g : Gather) (x : GatherX) : (s.setGx g x).ports = s.ports := (rfl)
@[simp] theorem State.setGx_stackSt (g : Gather) (x : GatherX) : (s.setGx g x).stackSt = s.stackSt := (rfl)
@[simp] theorem State.setGx_hostReads (g : Gather) (x : GatherX) : (s.setGx g x).hostReads = s.hostReads := (rfl)
@[simp] theorem State.setGx_hostId (g : Gather) (x : GatherX) : (s.setGx g x).hostId = s.hostId := (rfl)
@[simp] theorem State.setGx_hubSync (g : Gather) (x : GatherX) : (s.setGx g x).hubSync = s.hubSync := (rfl)
@[simp] theorem State.setGx_stepLost (g : Gather) (x : GatherX) : (s.setGx g x).stepLost = s.stepLost := (rfl)
@[simp] theorem State.setGx_ladderOut (g : Gather) (x : GatherX) : (s.setGx g x).ladderOut = s.ladderOut := (rfl)
@[simp] theorem State.setGx_ratioOut (g : Gather) (x : GatherX) : (s.setGx g x).ratioOut = s.ratioOut := (rfl)
@[simp] theorem State.setGx_slots (g : Gather) (x : GatherX) : (s.setGx g x).slots = s.slots := (rfl)
@[simp] theorem State.setGx_mails (g : Gather) (x : GatherX) : (s.setGx g x).mails = s.mails := (rfl)
@[simp] theorem State.setGx_locks (g : Gather) (x : GatherX) : (s.setGx g x).locks = s.locks := (rfl)
@[simp] theorem State.setGx_host (g : Gather) (x : GatherX) : (s.setGx g x).host = s.host := (rfl)
@[simp] theorem State.setGx_power (g : Gather) (x : GatherX) : (s.setGx g x).power = s.power := (rfl)
@[simp] theorem State.setGx_ejected (g : Gather) (x : GatherX) : (s.setGx g x).ejected = s.ejected := (rfl)
@[simp] theorem State.setGx_chip (g : Gather) (x : GatherX) : (s.setGx g x).chip = s.chip := (rfl)
@[simp] theorem State.setGx_load (g : Gather) (x : GatherX) : (s.setGx g x).load = s.load := (rfl)
@[simp] theorem State.setGx_faults (g : Gather) (x : GatherX) : (s.setGx g x).faults = s.faults := (rfl)
@[simp] theorem State.setGx_manage (g : Gather) (x : GatherX) : (s.setGx g x).manage = s.manage := (rfl)
@[simp] theorem State.setGx_ctl (g : Gather) (x : GatherX) : (s.setGx g x).ctl = s.ctl := (rfl)
@[simp] theorem State.setGx_rowMaps (g : Gather) (x : GatherX) : (s.setGx g x).rowMaps = s.rowMaps := (rfl)
@[simp] theorem State.setGx_lossDue (g : Gather) (x : GatherX) : (s.setGx g x).lossDue = s.lossDue := (rfl)
@[simp] theorem State.setGx_log (g : Gather) (x : GatherX) : (s.setGx g x).log = s.log := (rfl)
@[simp] theorem State.setGx_out (g : Gather) (x : GatherX) : (s.setGx g x).out = s.out := (rfl)
@[simp] theorem State.setGx_free (g : Gather) (x : GatherX) : (s.setGx g x).free = s.free := (rfl)
@[simp] theorem State.setGx_hclk (g : Gather) (x : GatherX) : (s.setGx g x).hclk = s.hclk := (rfl)
@[simp] theorem State.setGx_pending (g : Gather) (x : GatherX) : (s.setGx g x).pending = s.pending := (rfl)
@[simp] theorem State.setDx_regs (d : DieId) (x : DieX) : (s.setDx d x).regs = s.regs := (rfl)
@[simp] theorem State.setDx_pend (d : DieId) (x : DieX) : (s.setDx d x).pend = s.pend := (rfl)
@[simp] theorem State.setDx_latch (d : DieId) (x : DieX) : (s.setDx d x).latch = s.latch := (rfl)
@[simp] theorem State.setDx_frozen (d : DieId) (x : DieX) : (s.setDx d x).frozen = s.frozen := (rfl)
@[simp] theorem State.setDx_mem (d : DieId) (x : DieX) : (s.setDx d x).mem = s.mem := (rfl)
@[simp] theorem State.setDx_cores (d : DieId) (x : DieX) : (s.setDx d x).cores = s.cores := (rfl)
@[simp] theorem State.setDx_routers (d : DieId) (x : DieX) : (s.setDx d x).routers = s.routers := (rfl)
@[simp] theorem State.setDx_streams (d : DieId) (x : DieX) : (s.setDx d x).streams = s.streams := (rfl)
@[simp] theorem State.setDx_gathers (d : DieId) (x : DieX) : (s.setDx d x).gathers = s.gathers := (rfl)
@[simp] theorem State.setDx_eccBad (d : DieId) (x : DieX) : (s.setDx d x).eccBad = s.eccBad := (rfl)
@[simp] theorem State.setDx_hubSend (d : DieId) (x : DieX) : (s.setDx d x).hubSend = s.hubSend := (rfl)
@[simp] theorem State.setDx_ports (d : DieId) (x : DieX) : (s.setDx d x).ports = s.ports := (rfl)
@[simp] theorem State.setDx_stackSt (d : DieId) (x : DieX) : (s.setDx d x).stackSt = s.stackSt := (rfl)
@[simp] theorem State.setDx_hostReads (d : DieId) (x : DieX) : (s.setDx d x).hostReads = s.hostReads := (rfl)
@[simp] theorem State.setDx_hostId (d : DieId) (x : DieX) : (s.setDx d x).hostId = s.hostId := (rfl)
@[simp] theorem State.setDx_hubSync (d : DieId) (x : DieX) : (s.setDx d x).hubSync = s.hubSync := (rfl)
@[simp] theorem State.setDx_stepLost (d : DieId) (x : DieX) : (s.setDx d x).stepLost = s.stepLost := (rfl)
@[simp] theorem State.setDx_ladderOut (d : DieId) (x : DieX) : (s.setDx d x).ladderOut = s.ladderOut := (rfl)
@[simp] theorem State.setDx_ratioOut (d : DieId) (x : DieX) : (s.setDx d x).ratioOut = s.ratioOut := (rfl)
@[simp] theorem State.setDx_slots (d : DieId) (x : DieX) : (s.setDx d x).slots = s.slots := (rfl)
@[simp] theorem State.setDx_mails (d : DieId) (x : DieX) : (s.setDx d x).mails = s.mails := (rfl)
@[simp] theorem State.setDx_locks (d : DieId) (x : DieX) : (s.setDx d x).locks = s.locks := (rfl)
@[simp] theorem State.setDx_host (d : DieId) (x : DieX) : (s.setDx d x).host = s.host := (rfl)
@[simp] theorem State.setDx_power (d : DieId) (x : DieX) : (s.setDx d x).power = s.power := (rfl)
@[simp] theorem State.setDx_ejected (d : DieId) (x : DieX) : (s.setDx d x).ejected = s.ejected := (rfl)
@[simp] theorem State.setDx_chip (d : DieId) (x : DieX) : (s.setDx d x).chip = s.chip := (rfl)
@[simp] theorem State.setDx_load (d : DieId) (x : DieX) : (s.setDx d x).load = s.load := (rfl)
@[simp] theorem State.setDx_faults (d : DieId) (x : DieX) : (s.setDx d x).faults = s.faults := (rfl)
@[simp] theorem State.setDx_manage (d : DieId) (x : DieX) : (s.setDx d x).manage = s.manage := (rfl)
@[simp] theorem State.setDx_ctl (d : DieId) (x : DieX) : (s.setDx d x).ctl = s.ctl := (rfl)
@[simp] theorem State.setDx_rowMaps (d : DieId) (x : DieX) : (s.setDx d x).rowMaps = s.rowMaps := (rfl)
@[simp] theorem State.setDx_lossDue (d : DieId) (x : DieX) : (s.setDx d x).lossDue = s.lossDue := (rfl)
@[simp] theorem State.setDx_log (d : DieId) (x : DieX) : (s.setDx d x).log = s.log := (rfl)
@[simp] theorem State.setDx_out (d : DieId) (x : DieX) : (s.setDx d x).out = s.out := (rfl)
@[simp] theorem State.setDx_free (d : DieId) (x : DieX) : (s.setDx d x).free = s.free := (rfl)
@[simp] theorem State.setDx_hclk (d : DieId) (x : DieX) : (s.setDx d x).hclk = s.hclk := (rfl)
@[simp] theorem State.setDx_pending (d : DieId) (x : DieX) : (s.setDx d x).pending = s.pending := (rfl)
@[simp] theorem State.wrByte_regs (a : Nat) (b : Byte) : (s.wrByte a b).regs = s.regs := (rfl)
@[simp] theorem State.wrByte_pend (a : Nat) (b : Byte) : (s.wrByte a b).pend = s.pend := (rfl)
@[simp] theorem State.wrByte_latch (a : Nat) (b : Byte) : (s.wrByte a b).latch = s.latch := (rfl)
@[simp] theorem State.wrByte_frozen (a : Nat) (b : Byte) : (s.wrByte a b).frozen = s.frozen := (rfl)
@[simp] theorem State.wrByte_cores (a : Nat) (b : Byte) : (s.wrByte a b).cores = s.cores := (rfl)
@[simp] theorem State.wrByte_routers (a : Nat) (b : Byte) : (s.wrByte a b).routers = s.routers := (rfl)
@[simp] theorem State.wrByte_streams (a : Nat) (b : Byte) : (s.wrByte a b).streams = s.streams := (rfl)
@[simp] theorem State.wrByte_gathers (a : Nat) (b : Byte) : (s.wrByte a b).gathers = s.gathers := (rfl)
@[simp] theorem State.wrByte_dies (a : Nat) (b : Byte) : (s.wrByte a b).dies = s.dies := (rfl)
@[simp] theorem State.wrByte_eccBad (a : Nat) (b : Byte) : (s.wrByte a b).eccBad = s.eccBad := (rfl)
@[simp] theorem State.wrByte_hubSend (a : Nat) (b : Byte) : (s.wrByte a b).hubSend = s.hubSend := (rfl)
@[simp] theorem State.wrByte_ports (a : Nat) (b : Byte) : (s.wrByte a b).ports = s.ports := (rfl)
@[simp] theorem State.wrByte_stackSt (a : Nat) (b : Byte) : (s.wrByte a b).stackSt = s.stackSt := (rfl)
@[simp] theorem State.wrByte_hostReads (a : Nat) (b : Byte) : (s.wrByte a b).hostReads = s.hostReads := (rfl)
@[simp] theorem State.wrByte_hostId (a : Nat) (b : Byte) : (s.wrByte a b).hostId = s.hostId := (rfl)
@[simp] theorem State.wrByte_hubSync (a : Nat) (b : Byte) : (s.wrByte a b).hubSync = s.hubSync := (rfl)
@[simp] theorem State.wrByte_stepLost (a : Nat) (b : Byte) : (s.wrByte a b).stepLost = s.stepLost := (rfl)
@[simp] theorem State.wrByte_ladderOut (a : Nat) (b : Byte) : (s.wrByte a b).ladderOut = s.ladderOut := (rfl)
@[simp] theorem State.wrByte_ratioOut (a : Nat) (b : Byte) : (s.wrByte a b).ratioOut = s.ratioOut := (rfl)
@[simp] theorem State.wrByte_slots (a : Nat) (b : Byte) : (s.wrByte a b).slots = s.slots := (rfl)
@[simp] theorem State.wrByte_mails (a : Nat) (b : Byte) : (s.wrByte a b).mails = s.mails := (rfl)
@[simp] theorem State.wrByte_locks (a : Nat) (b : Byte) : (s.wrByte a b).locks = s.locks := (rfl)
@[simp] theorem State.wrByte_host (a : Nat) (b : Byte) : (s.wrByte a b).host = s.host := (rfl)
@[simp] theorem State.wrByte_power (a : Nat) (b : Byte) : (s.wrByte a b).power = s.power := (rfl)
@[simp] theorem State.wrByte_ejected (a : Nat) (b : Byte) : (s.wrByte a b).ejected = s.ejected := (rfl)
@[simp] theorem State.wrByte_chip (a : Nat) (b : Byte) : (s.wrByte a b).chip = s.chip := (rfl)
@[simp] theorem State.wrByte_load (a : Nat) (b : Byte) : (s.wrByte a b).load = s.load := (rfl)
@[simp] theorem State.wrByte_faults (a : Nat) (b : Byte) : (s.wrByte a b).faults = s.faults := (rfl)
@[simp] theorem State.wrByte_manage (a : Nat) (b : Byte) : (s.wrByte a b).manage = s.manage := (rfl)
@[simp] theorem State.wrByte_ctl (a : Nat) (b : Byte) : (s.wrByte a b).ctl = s.ctl := (rfl)
@[simp] theorem State.wrByte_rowMaps (a : Nat) (b : Byte) : (s.wrByte a b).rowMaps = s.rowMaps := (rfl)
@[simp] theorem State.wrByte_lossDue (a : Nat) (b : Byte) : (s.wrByte a b).lossDue = s.lossDue := (rfl)
@[simp] theorem State.wrByte_log (a : Nat) (b : Byte) : (s.wrByte a b).log = s.log := (rfl)
@[simp] theorem State.wrByte_out (a : Nat) (b : Byte) : (s.wrByte a b).out = s.out := (rfl)
@[simp] theorem State.wrByte_free (a : Nat) (b : Byte) : (s.wrByte a b).free = s.free := (rfl)
@[simp] theorem State.wrByte_hclk (a : Nat) (b : Byte) : (s.wrByte a b).hclk = s.hclk := (rfl)
@[simp] theorem State.wrByte_pending (a : Nat) (b : Byte) : (s.wrByte a b).pending = s.pending := (rfl)
@[simp] theorem State.zeroRange_regs (lo hi : Nat) : (s.zeroRange lo hi).regs = s.regs := (rfl)
@[simp] theorem State.zeroRange_pend (lo hi : Nat) : (s.zeroRange lo hi).pend = s.pend := (rfl)
@[simp] theorem State.zeroRange_latch (lo hi : Nat) : (s.zeroRange lo hi).latch = s.latch := (rfl)
@[simp] theorem State.zeroRange_frozen (lo hi : Nat) : (s.zeroRange lo hi).frozen = s.frozen := (rfl)
@[simp] theorem State.zeroRange_cores (lo hi : Nat) : (s.zeroRange lo hi).cores = s.cores := (rfl)
@[simp] theorem State.zeroRange_routers (lo hi : Nat) : (s.zeroRange lo hi).routers = s.routers := (rfl)
@[simp] theorem State.zeroRange_streams (lo hi : Nat) : (s.zeroRange lo hi).streams = s.streams := (rfl)
@[simp] theorem State.zeroRange_gathers (lo hi : Nat) : (s.zeroRange lo hi).gathers = s.gathers := (rfl)
@[simp] theorem State.zeroRange_dies (lo hi : Nat) : (s.zeroRange lo hi).dies = s.dies := (rfl)
@[simp] theorem State.zeroRange_eccBad (lo hi : Nat) : (s.zeroRange lo hi).eccBad = s.eccBad := (rfl)
@[simp] theorem State.zeroRange_hubSend (lo hi : Nat) : (s.zeroRange lo hi).hubSend = s.hubSend := (rfl)
@[simp] theorem State.zeroRange_ports (lo hi : Nat) : (s.zeroRange lo hi).ports = s.ports := (rfl)
@[simp] theorem State.zeroRange_stackSt (lo hi : Nat) : (s.zeroRange lo hi).stackSt = s.stackSt := (rfl)
@[simp] theorem State.zeroRange_hostReads (lo hi : Nat) : (s.zeroRange lo hi).hostReads = s.hostReads := (rfl)
@[simp] theorem State.zeroRange_hostId (lo hi : Nat) : (s.zeroRange lo hi).hostId = s.hostId := (rfl)
@[simp] theorem State.zeroRange_hubSync (lo hi : Nat) : (s.zeroRange lo hi).hubSync = s.hubSync := (rfl)
@[simp] theorem State.zeroRange_stepLost (lo hi : Nat) : (s.zeroRange lo hi).stepLost = s.stepLost := (rfl)
@[simp] theorem State.zeroRange_ladderOut (lo hi : Nat) : (s.zeroRange lo hi).ladderOut = s.ladderOut := (rfl)
@[simp] theorem State.zeroRange_ratioOut (lo hi : Nat) : (s.zeroRange lo hi).ratioOut = s.ratioOut := (rfl)
@[simp] theorem State.zeroRange_slots (lo hi : Nat) : (s.zeroRange lo hi).slots = s.slots := (rfl)
@[simp] theorem State.zeroRange_mails (lo hi : Nat) : (s.zeroRange lo hi).mails = s.mails := (rfl)
@[simp] theorem State.zeroRange_locks (lo hi : Nat) : (s.zeroRange lo hi).locks = s.locks := (rfl)
@[simp] theorem State.zeroRange_host (lo hi : Nat) : (s.zeroRange lo hi).host = s.host := (rfl)
@[simp] theorem State.zeroRange_power (lo hi : Nat) : (s.zeroRange lo hi).power = s.power := (rfl)
@[simp] theorem State.zeroRange_ejected (lo hi : Nat) : (s.zeroRange lo hi).ejected = s.ejected := (rfl)
@[simp] theorem State.zeroRange_chip (lo hi : Nat) : (s.zeroRange lo hi).chip = s.chip := (rfl)
@[simp] theorem State.zeroRange_load (lo hi : Nat) : (s.zeroRange lo hi).load = s.load := (rfl)
@[simp] theorem State.zeroRange_faults (lo hi : Nat) : (s.zeroRange lo hi).faults = s.faults := (rfl)
@[simp] theorem State.zeroRange_manage (lo hi : Nat) : (s.zeroRange lo hi).manage = s.manage := (rfl)
@[simp] theorem State.zeroRange_ctl (lo hi : Nat) : (s.zeroRange lo hi).ctl = s.ctl := (rfl)
@[simp] theorem State.zeroRange_rowMaps (lo hi : Nat) : (s.zeroRange lo hi).rowMaps = s.rowMaps := (rfl)
@[simp] theorem State.zeroRange_lossDue (lo hi : Nat) : (s.zeroRange lo hi).lossDue = s.lossDue := (rfl)
@[simp] theorem State.zeroRange_log (lo hi : Nat) : (s.zeroRange lo hi).log = s.log := (rfl)
@[simp] theorem State.zeroRange_out (lo hi : Nat) : (s.zeroRange lo hi).out = s.out := (rfl)
@[simp] theorem State.zeroRange_free (lo hi : Nat) : (s.zeroRange lo hi).free = s.free := (rfl)
@[simp] theorem State.zeroRange_hclk (lo hi : Nat) : (s.zeroRange lo hi).hclk = s.hclk := (rfl)
@[simp] theorem State.zeroRange_pending (lo hi : Nat) : (s.zeroRange lo hi).pending = s.pending := (rfl)
@[simp] theorem State.send_regs (a b : NodeId) (p : Packet) : (s.send a b p).regs = s.regs := (rfl)
@[simp] theorem State.send_pend (a b : NodeId) (p : Packet) : (s.send a b p).pend = s.pend := (rfl)
@[simp] theorem State.send_latch (a b : NodeId) (p : Packet) : (s.send a b p).latch = s.latch := (rfl)
@[simp] theorem State.send_frozen (a b : NodeId) (p : Packet) : (s.send a b p).frozen = s.frozen := (rfl)
@[simp] theorem State.send_mem (a b : NodeId) (p : Packet) : (s.send a b p).mem = s.mem := (rfl)
@[simp] theorem State.send_cores (a b : NodeId) (p : Packet) : (s.send a b p).cores = s.cores := (rfl)
@[simp] theorem State.send_routers (a b : NodeId) (p : Packet) : (s.send a b p).routers = s.routers := (rfl)
@[simp] theorem State.send_streams (a b : NodeId) (p : Packet) : (s.send a b p).streams = s.streams := (rfl)
@[simp] theorem State.send_gathers (a b : NodeId) (p : Packet) : (s.send a b p).gathers = s.gathers := (rfl)
@[simp] theorem State.send_dies (a b : NodeId) (p : Packet) : (s.send a b p).dies = s.dies := (rfl)
@[simp] theorem State.send_eccBad (a b : NodeId) (p : Packet) : (s.send a b p).eccBad = s.eccBad := (rfl)
@[simp] theorem State.send_hubSend (a b : NodeId) (p : Packet) : (s.send a b p).hubSend = s.hubSend := (rfl)
@[simp] theorem State.send_ports (a b : NodeId) (p : Packet) : (s.send a b p).ports = s.ports := (rfl)
@[simp] theorem State.send_stackSt (a b : NodeId) (p : Packet) : (s.send a b p).stackSt = s.stackSt := (rfl)
@[simp] theorem State.send_hostReads (a b : NodeId) (p : Packet) : (s.send a b p).hostReads = s.hostReads := (rfl)
@[simp] theorem State.send_hostId (a b : NodeId) (p : Packet) : (s.send a b p).hostId = s.hostId := (rfl)
@[simp] theorem State.send_hubSync (a b : NodeId) (p : Packet) : (s.send a b p).hubSync = s.hubSync := (rfl)
@[simp] theorem State.send_stepLost (a b : NodeId) (p : Packet) : (s.send a b p).stepLost = s.stepLost := (rfl)
@[simp] theorem State.send_ladderOut (a b : NodeId) (p : Packet) : (s.send a b p).ladderOut = s.ladderOut := (rfl)
@[simp] theorem State.send_ratioOut (a b : NodeId) (p : Packet) : (s.send a b p).ratioOut = s.ratioOut := (rfl)
@[simp] theorem State.send_slots (a b : NodeId) (p : Packet) : (s.send a b p).slots = s.slots := (rfl)
@[simp] theorem State.send_mails (a b : NodeId) (p : Packet) : (s.send a b p).mails = s.mails := (rfl)
@[simp] theorem State.send_locks (a b : NodeId) (p : Packet) : (s.send a b p).locks = s.locks := (rfl)
@[simp] theorem State.send_host (a b : NodeId) (p : Packet) : (s.send a b p).host = s.host := (rfl)
@[simp] theorem State.send_power (a b : NodeId) (p : Packet) : (s.send a b p).power = s.power := (rfl)
@[simp] theorem State.send_ejected (a b : NodeId) (p : Packet) : (s.send a b p).ejected = s.ejected := (rfl)
@[simp] theorem State.send_chip (a b : NodeId) (p : Packet) : (s.send a b p).chip = s.chip := (rfl)
@[simp] theorem State.send_load (a b : NodeId) (p : Packet) : (s.send a b p).load = s.load := (rfl)
@[simp] theorem State.send_faults (a b : NodeId) (p : Packet) : (s.send a b p).faults = s.faults := (rfl)
@[simp] theorem State.send_manage (a b : NodeId) (p : Packet) : (s.send a b p).manage = s.manage := (rfl)
@[simp] theorem State.send_ctl (a b : NodeId) (p : Packet) : (s.send a b p).ctl = s.ctl := (rfl)
@[simp] theorem State.send_rowMaps (a b : NodeId) (p : Packet) : (s.send a b p).rowMaps = s.rowMaps := (rfl)
@[simp] theorem State.send_lossDue (a b : NodeId) (p : Packet) : (s.send a b p).lossDue = s.lossDue := (rfl)
@[simp] theorem State.send_log (a b : NodeId) (p : Packet) : (s.send a b p).log = s.log := (rfl)
@[simp] theorem State.send_free (a b : NodeId) (p : Packet) : (s.send a b p).free = s.free := (rfl)
@[simp] theorem State.send_hclk (a b : NodeId) (p : Packet) : (s.send a b p).hclk = s.hclk := (rfl)
@[simp] theorem State.send_pending (a b : NodeId) (p : Packet) : (s.send a b p).pending = s.pending := (rfl)

end Sys2Proof.Machine
end

