-- ==== Sys2Proof/Laws/Registers.lean ====
section
/-! SUPPORT. What reading a register, a unit or a byte gives after each named update. -/

namespace Sys2Proof.Machine

variable (s : State)

/-- Two instances of fields have one key only where number and indices agree. -/
theorem fieldKey_inj {F G : Field} {u i j v k l : Nat} (h : fieldKey F u i j = fieldKey G v k l) :
    F.id = G.id ∧ u = v ∧ i = k ∧ j = l := by
  have h1 := natPair_inj h
  have h2 := natPair_inj h1.2
  have h3 := natPair_inj h2.2
  exact ⟨h1.1, h2.1, h3.1, h3.2⟩

/-- A field reads as last written, cut to its width. -/
@[simp] theorem State.rd_wr_same (F : Field) (u v i j : Nat) : (s.wr F u v i j).rd F u i j = v % 2 ^ F.w :=
  smGet_smSet_same _ _ _ _

/-- Writing a field leaves another field as it was. -/
theorem State.rd_wr_ne {F G : Field} (h : F.id ≠ G.id) (u v i j w k l : Nat) :
    (s.wr F u v i j).rd G w k l = s.rd G w k l :=
  smGet_smSet_ne _ _ _ _ fun e => h (fieldKey_inj e).1.symm

/-- Writing one instance of a field leaves its other instances as they were. -/
theorem State.rd_wr_inst (F : Field) {u i j w k l : Nat} (h : ¬(w = u ∧ k = i ∧ l = j)) (v : Nat) :
    (s.wr F u v i j).rd F w k l = s.rd F w k l :=
  smGet_smSet_ne _ _ _ _ fun e => h ⟨(fieldKey_inj e).2.1, (fieldKey_inj e).2.2.1, (fieldKey_inj e).2.2.2⟩

/-- Writing a field of one unit leaves every field of another unit as it was. -/
theorem State.rd_wr_unit {F G : Field} {u w : Nat} (h : w ≠ u) (v i j k l : Nat) :
    (s.wr F u v i j).rd G w k l = s.rd G w k l :=
  smGet_smSet_ne _ _ _ _ fun e => h (fieldKey_inj e).2.1

@[simp] theorem State.rb_wb_same (F : Field) (u : Nat) (b : Bool) (i j : Nat) (h : F.w ≠ 0) :
    (s.wb F u b i j).rb F u i j = b := by
  have h2 : 1 < 2 ^ F.w := Nat.one_lt_two_pow h
  cases b <;> simp [State.wb, State.rb, b2n, Nat.mod_eq_of_lt h2]

theorem State.rb_wr_ne {F G : Field} (h : F.id ≠ G.id) (u v i j w k l : Nat) :
    (s.wr F u v i j).rb G w k l = s.rb G w k l := by
  unfold State.rb
  rw [State.rd_wr_ne s h]

/-- A unit reads as last set. -/
@[simp] theorem State.cx_setCx_same (c : CoreId) (x : CoreX) : (s.setCx c x).cx c = x := smGet_smSet_same _ _ _ _

@[simp] theorem State.gx_setGx_same (g : Gather) (x : GatherX) : (s.setGx g x).gx g = x := smGet_smSet_same _ _ _ _

@[simp] theorem State.sx_setSx_same (d : DieId) (n : Nat) (x : StreamX) : (s.setSx d n x).sx d n = x :=
  smGet_smSet_same _ _ _ _

@[simp] theorem State.dx_setDx_same (d : DieId) (x : DieX) : (s.setDx d x).dx d = x := smGet_smSet_same _ _ _ _

@[simp] theorem State.rx_setRx_same (c : CoreId) (x : RouterX) : (s.setRx c x).rx c = x := smGet_smSet_same _ _ _ _

/-- A router is found at the same position after a change of registers that leaves the logical map as it was. -/
theorem State.wr_rx (F : Field) (u v i j : Nat) (q : CoreId)
    (h : ∀ d r k, pcolOf (s.wr F u v i j) d r k = pcolOf s d r k) : (s.wr F u v i j).rx q = s.rx q := by
  simp only [State.rx, rxKey, h]
  rfl

/-- A byte reads as last written. -/
@[simp] theorem State.rdByte_wrByte_same (a : Nat) (b : Byte) : (s.wrByte a b).rdByte a = b := smGet_smSet_same _ _ _ _

/-- Writing a byte leaves every other byte as it was. -/
theorem State.rdByte_wrByte_ne {a m : Nat} (h : m ≠ a) (b : Byte) : (s.wrByte a b).rdByte m = s.rdByte m :=
  smGet_smSet_ne _ _ _ _ h

/-- Writing bytes leaves every byte outside them as it was. -/
theorem State.rdByte_wrBytes (l : List Byte) : ∀ (s : State) (a m : Nat), m < a ∨ a + l.length ≤ m →
    (s.wrBytes a l).rdByte m = s.rdByte m := by
  induction l with
  | nil => intro s a m _; rfl
  | cons b r ih =>
    intro s a m h
    rw [List.length_cons] at h
    rw [State.wrBytes, ih _ _ _ (by omega)]
    exact State.rdByte_wrByte_ne s (by omega) b

/-- Every updated byte reads as written. -/
theorem State.rdByte_wrBytes_in (l : List Byte) : ∀ (s : State) (a k : Nat) (h : k < l.length),
    (s.wrBytes a l).rdByte (a + k) = l[k] := by
  induction l with
  | nil => intro s a k h; exact absurd h (Nat.not_lt_zero _)
  | cons b r ih =>
    intro s a k h
    cases k with
    | zero =>
      rw [State.wrBytes, State.rdByte_wrBytes r _ _ _ (.inl (by omega))]
      simp
    | succ n =>
      have := ih (s.wrByte a b) (a + 1) n (by simpa using h)
      rw [State.wrBytes]
      simpa [Nat.add_comm, Nat.add_left_comm] using this

@[simp] theorem State.wr_cx (F : Field) (u v i j : Nat) (q : CoreId) : (s.wr F u v i j).cx q = s.cx q := (rfl)
@[simp] theorem State.wr_sx (F : Field) (u v i j : Nat) (e : DieId) (m : Nat) : (s.wr F u v i j).sx e m = s.sx e m := (rfl)
@[simp] theorem State.wr_gx (F : Field) (u v i j : Nat) (h : Gather) : (s.wr F u v i j).gx h = s.gx h := (rfl)
@[simp] theorem State.wr_dx (F : Field) (u v i j : Nat) (e : DieId) : (s.wr F u v i j).dx e = s.dx e := (rfl)
@[simp] theorem State.wr_rdByte (F : Field) (u v i j : Nat) (m : Nat) : (s.wr F u v i j).rdByte m = s.rdByte m := (rfl)
@[simp] theorem State.wb_cx (F : Field) (u : Nat) (b : Bool) (i j : Nat) (q : CoreId) : (s.wb F u b i j).cx q = s.cx q := (rfl)
@[simp] theorem State.wb_sx (F : Field) (u : Nat) (b : Bool) (i j : Nat) (e : DieId) (m : Nat) : (s.wb F u b i j).sx e m = s.sx e m := (rfl)
@[simp] theorem State.wb_gx (F : Field) (u : Nat) (b : Bool) (i j : Nat) (h : Gather) : (s.wb F u b i j).gx h = s.gx h := (rfl)
@[simp] theorem State.wb_dx (F : Field) (u : Nat) (b : Bool) (i j : Nat) (e : DieId) : (s.wb F u b i j).dx e = s.dx e := (rfl)
@[simp] theorem State.wb_rdByte (F : Field) (u : Nat) (b : Bool) (i j : Nat) (m : Nat) : (s.wb F u b i j).rdByte m = s.rdByte m := (rfl)
@[simp] theorem State.bump_cx (F : Field) (u n i j : Nat) (q : CoreId) : (s.bump F u n i j).cx q = s.cx q := (rfl)
@[simp] theorem State.bump_sx (F : Field) (u n i j : Nat) (e : DieId) (m : Nat) : (s.bump F u n i j).sx e m = s.sx e m := (rfl)
@[simp] theorem State.bump_gx (F : Field) (u n i j : Nat) (h : Gather) : (s.bump F u n i j).gx h = s.gx h := (rfl)
@[simp] theorem State.bump_dx (F : Field) (u n i j : Nat) (e : DieId) : (s.bump F u n i j).dx e = s.dx e := (rfl)
@[simp] theorem State.bump_rdByte (F : Field) (u n i j : Nat) (m : Nat) : (s.bump F u n i j).rdByte m = s.rdByte m := (rfl)
@[simp] theorem State.orF_cx (F : Field) (u v i j : Nat) (q : CoreId) : (s.orF F u v i j).cx q = s.cx q := (rfl)
@[simp] theorem State.orF_sx (F : Field) (u v i j : Nat) (e : DieId) (m : Nat) : (s.orF F u v i j).sx e m = s.sx e m := (rfl)
@[simp] theorem State.orF_gx (F : Field) (u v i j : Nat) (h : Gather) : (s.orF F u v i j).gx h = s.gx h := (rfl)
@[simp] theorem State.orF_dx (F : Field) (u v i j : Nat) (e : DieId) : (s.orF F u v i j).dx e = s.dx e := (rfl)
@[simp] theorem State.orF_rdByte (F : Field) (u v i j : Nat) (m : Nat) : (s.orF F u v i j).rdByte m = s.rdByte m := (rfl)
@[simp] theorem State.bump64_cx (F : Field) (u n : Nat) (q : CoreId) : (s.bump64 F u n).cx q = s.cx q := (rfl)
@[simp] theorem State.bump64_sx (F : Field) (u n : Nat) (e : DieId) (m : Nat) : (s.bump64 F u n).sx e m = s.sx e m := (rfl)
@[simp] theorem State.bump64_gx (F : Field) (u n : Nat) (h : Gather) : (s.bump64 F u n).gx h = s.gx h := (rfl)
@[simp] theorem State.bump64_dx (F : Field) (u n : Nat) (e : DieId) : (s.bump64 F u n).dx e = s.dx e := (rfl)
@[simp] theorem State.bump64_rdByte (F : Field) (u n : Nat) (m : Nat) : (s.bump64 F u n).rdByte m = s.rdByte m := (rfl)
@[simp] theorem State.wr64_cx (lo hi : Field) (u v i j : Nat) (q : CoreId) : (s.wr64 lo hi u v i j).cx q = s.cx q := (rfl)
@[simp] theorem State.wr64_sx (lo hi : Field) (u v i j : Nat) (e : DieId) (m : Nat) : (s.wr64 lo hi u v i j).sx e m = s.sx e m := (rfl)
@[simp] theorem State.wr64_gx (lo hi : Field) (u v i j : Nat) (h : Gather) : (s.wr64 lo hi u v i j).gx h = s.gx h := (rfl)
@[simp] theorem State.wr64_dx (lo hi : Field) (u v i j : Nat) (e : DieId) : (s.wr64 lo hi u v i j).dx e = s.dx e := (rfl)
@[simp] theorem State.wr64_rdByte (lo hi : Field) (u v i j : Nat) (m : Nat) : (s.wr64 lo hi u v i j).rdByte m = s.rdByte m := (rfl)
@[simp] theorem State.setCst_cx (c : CoreId) (v : Nat) (q : CoreId) : (s.setCst c v).cx q = s.cx q := (rfl)
@[simp] theorem State.setCst_sx (c : CoreId) (v : Nat) (e : DieId) (m : Nat) : (s.setCst c v).sx e m = s.sx e m := (rfl)
@[simp] theorem State.setCst_gx (c : CoreId) (v : Nat) (h : Gather) : (s.setCst c v).gx h = s.gx h := (rfl)
@[simp] theorem State.setCst_dx (c : CoreId) (v : Nat) (e : DieId) : (s.setCst c v).dx e = s.dx e := (rfl)
@[simp] theorem State.setCst_rdByte (c : CoreId) (v : Nat) (m : Nat) : (s.setCst c v).rdByte m = s.rdByte m := (rfl)
@[simp] theorem State.lg_rd (kd : LogKind) (u : Nat) (a : List Nat) (G : Field) (w k l : Nat) : (s.lg kd u a).rd G w k l = s.rd G w k l := (rfl)
@[simp] theorem State.lg_rb (kd : LogKind) (u : Nat) (a : List Nat) (G : Field) (w k l : Nat) : (s.lg kd u a).rb G w k l = s.rb G w k l := (rfl)
@[simp] theorem State.lg_cst (kd : LogKind) (u : Nat) (a : List Nat) (q : CoreId) : (s.lg kd u a).cst q = s.cst q := (rfl)
@[simp] theorem State.lg_pc (kd : LogKind) (u : Nat) (a : List Nat) (q : CoreId) : (s.lg kd u a).pc q = s.pc q := (rfl)
@[simp] theorem State.lg_cx (kd : LogKind) (u : Nat) (a : List Nat) (q : CoreId) : (s.lg kd u a).cx q = s.cx q := (rfl)
@[simp] theorem State.lg_rx (kd : LogKind) (u : Nat) (a : List Nat) (q : CoreId) : (s.lg kd u a).rx q = s.rx q := (rfl)
@[simp] theorem State.lg_sx (kd : LogKind) (u : Nat) (a : List Nat) (e : DieId) (m : Nat) : (s.lg kd u a).sx e m = s.sx e m := (rfl)
@[simp] theorem State.lg_gx (kd : LogKind) (u : Nat) (a : List Nat) (h : Gather) : (s.lg kd u a).gx h = s.gx h := (rfl)
@[simp] theorem State.lg_dx (kd : LogKind) (u : Nat) (a : List Nat) (e : DieId) : (s.lg kd u a).dx e = s.dx e := (rfl)
@[simp] theorem State.lg_rdByte (kd : LogKind) (u : Nat) (a : List Nat) (m : Nat) : (s.lg kd u a).rdByte m = s.rdByte m := (rfl)
@[simp] theorem State.emit_rd (o : Out) (G : Field) (w k l : Nat) : (s.emit o).rd G w k l = s.rd G w k l := (rfl)
@[simp] theorem State.emit_rb (o : Out) (G : Field) (w k l : Nat) : (s.emit o).rb G w k l = s.rb G w k l := (rfl)
@[simp] theorem State.emit_cst (o : Out) (q : CoreId) : (s.emit o).cst q = s.cst q := (rfl)
@[simp] theorem State.emit_pc (o : Out) (q : CoreId) : (s.emit o).pc q = s.pc q := (rfl)
@[simp] theorem State.emit_cx (o : Out) (q : CoreId) : (s.emit o).cx q = s.cx q := (rfl)
@[simp] theorem State.emit_rx (o : Out) (q : CoreId) : (s.emit o).rx q = s.rx q := (rfl)
@[simp] theorem State.emit_sx (o : Out) (e : DieId) (m : Nat) : (s.emit o).sx e m = s.sx e m := (rfl)
@[simp] theorem State.emit_gx (o : Out) (h : Gather) : (s.emit o).gx h = s.gx h := (rfl)
@[simp] theorem State.emit_dx (o : Out) (e : DieId) : (s.emit o).dx e = s.dx e := (rfl)
@[simp] theorem State.emit_rdByte (o : Out) (m : Nat) : (s.emit o).rdByte m = s.rdByte m := (rfl)
@[simp] theorem State.setCx_rd (c : CoreId) (x : CoreX) (G : Field) (w k l : Nat) : (s.setCx c x).rd G w k l = s.rd G w k l := (rfl)
@[simp] theorem State.setCx_rb (c : CoreId) (x : CoreX) (G : Field) (w k l : Nat) : (s.setCx c x).rb G w k l = s.rb G w k l := (rfl)
@[simp] theorem State.setCx_cst (c : CoreId) (x : CoreX) (q : CoreId) : (s.setCx c x).cst q = s.cst q := (rfl)
@[simp] theorem State.setCx_pc (c : CoreId) (x : CoreX) (q : CoreId) : (s.setCx c x).pc q = s.pc q := (rfl)
@[simp] theorem State.setCx_rx (c : CoreId) (x : CoreX) (q : CoreId) : (s.setCx c x).rx q = s.rx q := (rfl)
@[simp] theorem State.setCx_sx (c : CoreId) (x : CoreX) (e : DieId) (m : Nat) : (s.setCx c x).sx e m = s.sx e m := (rfl)
@[simp] theorem State.setCx_gx (c : CoreId) (x : CoreX) (h : Gather) : (s.setCx c x).gx h = s.gx h := (rfl)
@[simp] theorem State.setCx_dx (c : CoreId) (x : CoreX) (e : DieId) : (s.setCx c x).dx e = s.dx e := (rfl)
@[simp] theorem State.setCx_rdByte (c : CoreId) (x : CoreX) (m : Nat) : (s.setCx c x).rdByte m = s.rdByte m := (rfl)
@[simp] theorem State.setRx_rd (c : CoreId) (x : RouterX) (G : Field) (w k l : Nat) : (s.setRx c x).rd G w k l = s.rd G w k l := (rfl)
@[simp] theorem State.setRx_rb (c : CoreId) (x : RouterX) (G : Field) (w k l : Nat) : (s.setRx c x).rb G w k l = s.rb G w k l := (rfl)
@[simp] theorem State.setRx_cst (c : CoreId) (x : RouterX) (q : CoreId) : (s.setRx c x).cst q = s.cst q := (rfl)
@[simp] theorem State.setRx_pc (c : CoreId) (x : RouterX) (q : CoreId) : (s.setRx c x).pc q = s.pc q := (rfl)
@[simp] theorem State.setRx_cx (c : CoreId) (x : RouterX) (q : CoreId) : (s.setRx c x).cx q = s.cx q := (rfl)
@[simp] theorem State.setRx_sx (c : CoreId) (x : RouterX) (e : DieId) (m : Nat) : (s.setRx c x).sx e m = s.sx e m := (rfl)
@[simp] theorem State.setRx_gx (c : CoreId) (x : RouterX) (h : Gather) : (s.setRx c x).gx h = s.gx h := (rfl)
@[simp] theorem State.setRx_dx (c : CoreId) (x : RouterX) (e : DieId) : (s.setRx c x).dx e = s.dx e := (rfl)
@[simp] theorem State.setRx_rdByte (c : CoreId) (x : RouterX) (m : Nat) : (s.setRx c x).rdByte m = s.rdByte m := (rfl)
@[simp] theorem State.setSx_rd (d : DieId) (n : Nat) (x : StreamX) (G : Field) (w k l : Nat) : (s.setSx d n x).rd G w k l = s.rd G w k l := (rfl)
@[simp] theorem State.setSx_rb (d : DieId) (n : Nat) (x : StreamX) (G : Field) (w k l : Nat) : (s.setSx d n x).rb G w k l = s.rb G w k l := (rfl)
@[simp] theorem State.setSx_cst (d : DieId) (n : Nat) (x : StreamX) (q : CoreId) : (s.setSx d n x).cst q = s.cst q := (rfl)
@[simp] theorem State.setSx_pc (d : DieId) (n : Nat) (x : StreamX) (q : CoreId) : (s.setSx d n x).pc q = s.pc q := (rfl)
@[simp] theorem State.setSx_cx (d : DieId) (n : Nat) (x : StreamX) (q : CoreId) : (s.setSx d n x).cx q = s.cx q := (rfl)
@[simp] theorem State.setSx_rx (d : DieId) (n : Nat) (x : StreamX) (q : CoreId) : (s.setSx d n x).rx q = s.rx q := (rfl)
@[simp] theorem State.setSx_gx (d : DieId) (n : Nat) (x : StreamX) (h : Gather) : (s.setSx d n x).gx h = s.gx h := (rfl)
@[simp] theorem State.setSx_dx (d : DieId) (n : Nat) (x : StreamX) (e : DieId) : (s.setSx d n x).dx e = s.dx e := (rfl)
@[simp] theorem State.setSx_rdByte (d : DieId) (n : Nat) (x : StreamX) (m : Nat) : (s.setSx d n x).rdByte m = s.rdByte m := (rfl)
@[simp] theorem State.setGx_rd (g : Gather) (x : GatherX) (G : Field) (w k l : Nat) : (s.setGx g x).rd G w k l = s.rd G w k l := (rfl)
@[simp] theorem State.setGx_rb (g : Gather) (x : GatherX) (G : Field) (w k l : Nat) : (s.setGx g x).rb G w k l = s.rb G w k l := (rfl)
@[simp] theorem State.setGx_cst (g : Gather) (x : GatherX) (q : CoreId) : (s.setGx g x).cst q = s.cst q := (rfl)
@[simp] theorem State.setGx_pc (g : Gather) (x : GatherX) (q : CoreId) : (s.setGx g x).pc q = s.pc q := (rfl)
@[simp] theorem State.setGx_cx (g : Gather) (x : GatherX) (q : CoreId) : (s.setGx g x).cx q = s.cx q := (rfl)
@[simp] theorem State.setGx_rx (g : Gather) (x : GatherX) (q : CoreId) : (s.setGx g x).rx q = s.rx q := (rfl)
@[simp] theorem State.setGx_sx (g : Gather) (x : GatherX) (e : DieId) (m : Nat) : (s.setGx g x).sx e m = s.sx e m := (rfl)
@[simp] theorem State.setGx_dx (g : Gather) (x : GatherX) (e : DieId) : (s.setGx g x).dx e = s.dx e := (rfl)
@[simp] theorem State.setGx_rdByte (g : Gather) (x : GatherX) (m : Nat) : (s.setGx g x).rdByte m = s.rdByte m := (rfl)
@[simp] theorem State.setDx_rd (d : DieId) (x : DieX) (G : Field) (w k l : Nat) : (s.setDx d x).rd G w k l = s.rd G w k l := (rfl)
@[simp] theorem State.setDx_rb (d : DieId) (x : DieX) (G : Field) (w k l : Nat) : (s.setDx d x).rb G w k l = s.rb G w k l := (rfl)
@[simp] theorem State.setDx_cst (d : DieId) (x : DieX) (q : CoreId) : (s.setDx d x).cst q = s.cst q := (rfl)
@[simp] theorem State.setDx_pc (d : DieId) (x : DieX) (q : CoreId) : (s.setDx d x).pc q = s.pc q := (rfl)
@[simp] theorem State.setDx_cx (d : DieId) (x : DieX) (q : CoreId) : (s.setDx d x).cx q = s.cx q := (rfl)
@[simp] theorem State.setDx_rx (d : DieId) (x : DieX) (q : CoreId) : (s.setDx d x).rx q = s.rx q := (rfl)
@[simp] theorem State.setDx_sx (d : DieId) (x : DieX) (e : DieId) (m : Nat) : (s.setDx d x).sx e m = s.sx e m := (rfl)
@[simp] theorem State.setDx_gx (d : DieId) (x : DieX) (h : Gather) : (s.setDx d x).gx h = s.gx h := (rfl)
@[simp] theorem State.setDx_rdByte (d : DieId) (x : DieX) (m : Nat) : (s.setDx d x).rdByte m = s.rdByte m := (rfl)
@[simp] theorem State.wrByte_rd (a : Nat) (b : Byte) (G : Field) (w k l : Nat) : (s.wrByte a b).rd G w k l = s.rd G w k l := (rfl)
@[simp] theorem State.wrByte_rb (a : Nat) (b : Byte) (G : Field) (w k l : Nat) : (s.wrByte a b).rb G w k l = s.rb G w k l := (rfl)
@[simp] theorem State.wrByte_cst (a : Nat) (b : Byte) (q : CoreId) : (s.wrByte a b).cst q = s.cst q := (rfl)
@[simp] theorem State.wrByte_pc (a : Nat) (b : Byte) (q : CoreId) : (s.wrByte a b).pc q = s.pc q := (rfl)
@[simp] theorem State.wrByte_cx (a : Nat) (b : Byte) (q : CoreId) : (s.wrByte a b).cx q = s.cx q := (rfl)
@[simp] theorem State.wrByte_rx (a : Nat) (b : Byte) (q : CoreId) : (s.wrByte a b).rx q = s.rx q := (rfl)
@[simp] theorem State.wrByte_sx (a : Nat) (b : Byte) (e : DieId) (m : Nat) : (s.wrByte a b).sx e m = s.sx e m := (rfl)
@[simp] theorem State.wrByte_gx (a : Nat) (b : Byte) (h : Gather) : (s.wrByte a b).gx h = s.gx h := (rfl)
@[simp] theorem State.wrByte_dx (a : Nat) (b : Byte) (e : DieId) : (s.wrByte a b).dx e = s.dx e := (rfl)
@[simp] theorem State.zeroRange_rd (lo hi : Nat) (G : Field) (w k l : Nat) : (s.zeroRange lo hi).rd G w k l = s.rd G w k l := (rfl)
@[simp] theorem State.zeroRange_rb (lo hi : Nat) (G : Field) (w k l : Nat) : (s.zeroRange lo hi).rb G w k l = s.rb G w k l := (rfl)
@[simp] theorem State.zeroRange_cst (lo hi : Nat) (q : CoreId) : (s.zeroRange lo hi).cst q = s.cst q := (rfl)
@[simp] theorem State.zeroRange_pc (lo hi : Nat) (q : CoreId) : (s.zeroRange lo hi).pc q = s.pc q := (rfl)
@[simp] theorem State.zeroRange_cx (lo hi : Nat) (q : CoreId) : (s.zeroRange lo hi).cx q = s.cx q := (rfl)
@[simp] theorem State.zeroRange_rx (lo hi : Nat) (q : CoreId) : (s.zeroRange lo hi).rx q = s.rx q := (rfl)
@[simp] theorem State.zeroRange_sx (lo hi : Nat) (e : DieId) (m : Nat) : (s.zeroRange lo hi).sx e m = s.sx e m := (rfl)
@[simp] theorem State.zeroRange_gx (lo hi : Nat) (h : Gather) : (s.zeroRange lo hi).gx h = s.gx h := (rfl)
@[simp] theorem State.zeroRange_dx (lo hi : Nat) (e : DieId) : (s.zeroRange lo hi).dx e = s.dx e := (rfl)
@[simp] theorem State.send_rd (a b : NodeId) (p : Packet) (G : Field) (w k l : Nat) : (s.send a b p).rd G w k l = s.rd G w k l := (rfl)
@[simp] theorem State.send_rb (a b : NodeId) (p : Packet) (G : Field) (w k l : Nat) : (s.send a b p).rb G w k l = s.rb G w k l := (rfl)
@[simp] theorem State.send_cst (a b : NodeId) (p : Packet) (q : CoreId) : (s.send a b p).cst q = s.cst q := (rfl)
@[simp] theorem State.send_pc (a b : NodeId) (p : Packet) (q : CoreId) : (s.send a b p).pc q = s.pc q := (rfl)
@[simp] theorem State.send_cx (a b : NodeId) (p : Packet) (q : CoreId) : (s.send a b p).cx q = s.cx q := (rfl)
@[simp] theorem State.send_rx (a b : NodeId) (p : Packet) (q : CoreId) : (s.send a b p).rx q = s.rx q := (rfl)
@[simp] theorem State.send_sx (a b : NodeId) (p : Packet) (e : DieId) (m : Nat) : (s.send a b p).sx e m = s.sx e m := (rfl)
@[simp] theorem State.send_gx (a b : NodeId) (p : Packet) (h : Gather) : (s.send a b p).gx h = s.gx h := (rfl)
@[simp] theorem State.send_dx (a b : NodeId) (p : Packet) (e : DieId) : (s.send a b p).dx e = s.dx e := (rfl)
@[simp] theorem State.send_rdByte (a b : NodeId) (p : Packet) (m : Nat) : (s.send a b p).rdByte m = s.rdByte m := (rfl)

end Sys2Proof.Machine
end

