-- ==== Sys2Proof/Laws/Issue.lean ====
section
/-! SUPPORT. What the issue of one instruction does, for each kind of effect; what reading its sources gives; and what
moving past it does. -/

namespace Sys2Proof.Machine

variable {s t : State} {c : CoreId} {opc : Nat} {f : Form} {w : IFields} {body : State → Eff}

/-- An instruction whose effect completes. -/
theorem issue_done (h : Issues s c opc f w) (hb : body s = .done t) : issue opc f c w s body = completed t c := by
  simp [issue, h.1, h.2, hb, commitEff, completed]

/-- An instruction that goes to an instruction of the memory. -/
theorem issue_jump {n : Int} (h : Issues s c opc f w) (hb : body s = .jump t n) (h0 : 0 ≤ n) (h1 : n < 8192) :
    issue opc f c w s body = wentTo t c n.toNat := by
  have : ¬(n < 0 ∨ n ≥ 8192) := by omega
  simp [issue, h.1, h.2, hb, commitEff, wentTo, this]

/-- An instruction whose target lies outside the memory. -/
theorem issue_jump_out {n : Int} (h : Issues s c opc f w) (hb : body s = .jump t n) (h0 : n < 0 ∨ 8192 ≤ n) :
    issue opc f c w s body = takeTrap s c trIfetch (unsgn 32 n) := by
  simp only [issue, h.1, h.2, hb, commitEff, if_true]
  rw [if_pos (by omega)]

/-- An instruction that traps with nothing done. -/
theorem issue_trap {code info : Nat} (h : Issues s c opc f w) (hb : body s = .trap code info) :
    issue opc f c w s body = takeTrap s c code info := by
  simp [issue, h.1, h.2, hb, commitEff]

/-- An instruction that waits. -/
theorem issue_wait {g : State → State} (h : Issues s c opc f w) (hb : body s = .wait g) :
    issue opc f c w s body = g s := by
  simp [issue, h.1, h.2, hb, commitEff]

/-- An instruction whose issue holds: the sequencer is in RUN (R220). -/
theorem issue_held (h : Issues s c opc f w) (hb : body s = .held) : issue opc f c w s body = s.setCst c stRun := by
  simp [issue, h.1, h.2, hb, commitEff]

/-- A core that stands at another instruction is left as it is. -/
theorem issue_away (h : atInstr s c opc w = false) : issue opc f c w s body = s := by
  simp [issue, h]

/-- An instruction word its form does not allow is ILLEGAL (R188). -/
theorem issue_illegal (h : atInstr s c opc w = true) (hf : formOk f w = false) :
    issue opc f c w s body = takeTrap s c trIllegal 0 := by
  simp [issue, h, hf]

theorem withSrc_val {code : BitVec 6} {x : Word} {k : Word → State → Eff} (h : Reads s c code x t) :
    withSrc c code s k = k x t := by
  unfold withSrc
  rw [h]

theorem withSrc2_val {x y : Word} {k : Word → Word → State → Eff} (h : Reads2 s c w x y t) :
    withSrc2 c w s k = k x y t := by
  obtain ⟨s1, h1, h2⟩ := h
  unfold withSrc2
  rw [withSrc_val h1, withSrc_val h2]

/-- A scalar register as a source (R184, R191). -/
theorem reads_scalar {code : BitVec 6} (h : code.toNat < 0x20) : Reads s c code (rdS s c code.toNat) s := by
  simp [Reads, readSrc, h]

/-- With no loop active and another instruction behind it, the PC advances by one. -/
theorem advance_plain (hl : (s.cx c).loops = []) (hp : s.pc c + 1 < 8192) :
    advance s c = (setLoops s c []).wr Reg.CS_PC_PC (coreU c) (s.pc c + 1) := by
  have : ¬ 8192 ≤ s.pc c + 1 := by omega
  simp [advance, nextPc, hl, this]

/-- A write of s0 changes nothing (R184). -/
@[simp] theorem wrS_zero (v : Word) : wrS s c 0 v = s := rfl

/-- s0 reads 0 (R184). -/
@[simp] theorem rdS_zero : rdS s c 0 = 0 := rfl

/-- A scalar register reads as last written. -/
theorem rdS_wrS {n : Nat} (v : Word) (h : n ≠ 0) : rdS (wrS s c n v) c n = v := by
  have hw : Reg.CS_SREG_VALUE.w = 32 := rfl
  simp only [rdS, wrS, h, if_false, State.rd_wr_same, hw]
  rw [Nat.mod_eq_of_lt v.isLt, BitVec.ofNat_toNat]
  simp

end Sys2Proof.Machine
end

