-- ==== Sys2Proof/Laws/Memory.lean ====
section
/-! SUPPORT. Every operation on memory keeps its canonical form, and the machine after reset has it. -/

namespace Sys2Proof.Machine

theorem Memory.wf_reset : Memory.wf State.reset.mem := rfl

theorem Memory.wf_wrByte {s : State} (h : Memory.wf s.mem) (a : Nat) (b : Byte) : Memory.wf (s.wrByte a b).mem :=
  smWf_smSet _ _ _ _ h

theorem Memory.wf_wrBytes (l : List Byte) : ∀ {s : State} (_ : Memory.wf s.mem) (a : Nat), Memory.wf (s.wrBytes a l).mem := by
  induction l with
  | nil => intro s h _; exact h
  | cons b r ih => intro s h a; exact ih (Memory.wf_wrByte h a b) (a + 1)

theorem Memory.wf_wrLe {s : State} (h : Memory.wf s.mem) (a n v : Nat) : Memory.wf (s.wrLe a n v).mem :=
  Memory.wf_wrBytes _ h a

theorem Memory.wf_zeroRange {s : State} (h : Memory.wf s.mem) (lo hi : Nat) : Memory.wf (s.zeroRange lo hi).mem :=
  smWf_filter _ _ _ h

/-- A fold keeps a property that each of its steps keeps. -/
theorem foldl_keeps {α β : Type} (P : β → Prop) (f : β → α → β) (h : ∀ b a, P b → P (f b a)) (l : List α) :
    ∀ b, P b → P (l.foldl f b) := by
  induction l with
  | nil => intro b hb; exact hb
  | cons a r ih => intro b hb; exact ih _ (h b a hb)

theorem Memory.wf_wrKeep (keep : List Nat) (l : List Byte) :
    ∀ {s : State} (_ : Memory.wf s.mem) (a : Nat), Memory.wf (s.wrKeep keep a l).mem := by
  induction l with
  | nil => intro s h _; exact h
  | cons b r ih =>
    intro s h a
    rw [State.wrKeep]
    refine ih ?_ (a + 1)
    split
    · exact h
    · exact Memory.wf_wrByte h a b

/-- An ECC finding and the marks of check bits leave memory as it was. -/
@[simp] theorem setBad_mem (s : State) (w v : Nat) : (setBad s w v).mem = s.mem := rfl

@[simp] theorem reportCause_mem (s : State) (c : CoreId) (range mem : Bool) :
    (reportCause s c range mem).mem = s.mem := by
  unfold reportCause
  split
  · rfl
  · simp only
    split <;> simp

@[simp] theorem raiseCore_mem (s : State) (c : CoreId) (info : Bool) (e : FaultEvent) : (raiseCore s c info e).mem = s.mem :=
  (rfl)

@[simp] theorem ueIdle_mem (s : State) (c : CoreId) (off : Nat) : (ueIdle s c off).mem = s.mem := by
  unfold ueIdle
  cases gatherOf s c with
  | none => rfl
  | some g => simp only; split <;> rfl

theorem ite_mem {q : Prop} [Decidable q] {a b : State} {m : List Host.Cell} (ha : a.mem = m) (hb : b.mem = m) :
    (if q then a else b).mem = m := by
  split <;> assumption

theorem eccEvent_mem (s : State) (c : CoreId) (req : Nat) (p : Nat × Nat) : (eccEvent s c req p).mem = s.mem := by
  unfold eccEvent
  exact ite_mem (ite_mem (by simp) (ite_mem (by simp) (ite_mem (by simp) (by simp)))) (by simp)

theorem foldl_mem {α : Type} (f : State → α → State) (h : ∀ s a, (f s a).mem = s.mem) (l : List α) :
    ∀ s : State, (l.foldl f s).mem = s.mem := by
  induction l with
  | nil => intro s; rfl
  | cons a r ih => intro s; rw [List.foldl_cons, ih, h]

theorem Memory.wf_spWrite {s : State} (h : Memory.wf s.mem) (c : CoreId) (off : Nat) (bs : List Byte) (req : Nat) :
    Memory.wf (spWrite s c off bs req).mem := by
  unfold spWrite
  simp only
  split
  · exact Memory.wf_wrBytes _ h _
  · refine Memory.wf_wrKeep _ _ ?_ _
    rw [foldl_mem _ fun (t : State) (p : Nat × Nat) => setBad_mem t p.1 0,
      foldl_mem _ fun (t : State) (p : Nat × Nat) => eccEvent_mem t c req p]
    exact h

theorem Memory.wf_stackWrite {s : State} (h : Memory.wf s.mem) (k off : Nat) (bs : List Byte) :
    Memory.wf (stackWrite s k off bs).mem := by
  unfold stackWrite
  simp only
  rw [foldl_mem _ fun (t : State) (p : Nat × Nat) => setBad_mem t p.1 0]
  exact Memory.wf_wrBytes _ h _

theorem Memory.wf_zeroScratch {s : State} (h : Memory.wf s.mem) (c : CoreId) : Memory.wf (zeroScratch s c).mem :=
  Memory.wf_zeroRange h _ _

end Sys2Proof.Machine
end

