-- ==== Sys2Proof/Laws/Trap.lean ====
section
/-! SUPPORT. What taking a trap does: what it records, what it sends, and what it leaves unchanged (R216). -/

namespace Sys2Proof.Machine

variable (s : State) (c : CoreId) (code info own pc : Nat)

theorem rd_emit (o : Out) (F : Field) (u i j : Nat) : (s.emit o).rd F u i j = s.rd F u i j := rfl

/-- The fields a trap writes. -/
def trapFields : List Nat :=
  [Reg.CS_TRAP_CODE.id, Reg.CS_TRAP_VALID.id, Reg.CS_TRAP_COUNT.id, Reg.CS_TRAPPC_PC.id, Reg.CS_TRAPIW_WORD.id,
   Reg.CS_TRAPINFO_INFO.id, Reg.CS_STAT_STATE.id]

/-- A trap as a chain of field writes and one packet. -/
theorem takeTrapAt_eq : takeTrapAt s c code info pc own =
    (((((((((s.wr Reg.CS_TRAP_CODE (coreU c) code).wb Reg.CS_TRAP_VALID (coreU c) true).bump Reg.CS_TRAP_COUNT
      (coreU c)).wr Reg.CS_TRAPPC_PC (coreU c) pc).wr Reg.CS_TRAPIW_WORD (coreU c) (imemWord s c pc)).wr
      Reg.CS_TRAPIW_WORD (coreU c) (imemWord s c pc / 2 ^ 32) 1).wr Reg.CS_TRAPINFO_INFO (coreU c) info).wr
      Reg.CS_STAT_STATE (coreU c) stTrapped).emit
      (.packet (.core c) (.dieNode c.die) (.trap code pc info own))) := rfl

/-- A trap leaves every other field unchanged. -/
theorem takeTrapAt_rd {F : Field} (h : F.id ∉ trapFields) (u i j : Nat) :
    (takeTrapAt s c code info pc own).rd F u i j = s.rd F u i j := by
  simp only [trapFields, List.mem_cons, List.not_mem_nil, or_false, not_or] at h
  obtain ⟨h1, h2, h3, h4, h5, h6, h7⟩ := h
  simp only [takeTrapAt_eq, rd_emit, State.bump, State.wb]
  rw [State.rd_wr_ne _ (Ne.symm h7), State.rd_wr_ne _ (Ne.symm h6),
    State.rd_wr_ne _ (Ne.symm h5), State.rd_wr_ne _ (Ne.symm h5), State.rd_wr_ne _ (Ne.symm h4),
    State.rd_wr_ne _ (Ne.symm h3), State.rd_wr_ne _ (Ne.symm h2), State.rd_wr_ne _ (Ne.symm h1)]

/-- A trap leaves every byte, and every core beside its registers, unchanged. -/
@[simp] theorem takeTrapAt_mem : (takeTrapAt s c code info pc own).mem = s.mem := rfl
@[simp] theorem takeTrapAt_cores : (takeTrapAt s c code info pc own).cores = s.cores := rfl
@[simp] theorem takeTrapAt_out : (takeTrapAt s c code info pc own).out =
    s.out ++ [.packet (.core c) (.dieNode c.die) (.trap code pc info own)] := rfl

/-- What a trap records. -/
theorem takeTrapAt_code : (takeTrapAt s c code info pc own).rd Reg.CS_TRAP_CODE (coreU c) = code % 2 ^ 8 := by
  simp only [takeTrapAt_eq, rd_emit, State.bump, State.wb]
  iterate 7 rw [State.rd_wr_ne _ (by decide)]
  exact State.rd_wr_same _ _ _ _ _ _

theorem takeTrapAt_valid : (takeTrapAt s c code info pc own).rb Reg.CS_TRAP_VALID (coreU c) = true := by
  simp only [takeTrapAt_eq, State.rb, rd_emit, State.bump, State.wb]
  iterate 6 rw [State.rd_wr_ne _ (by decide)]
  rw [State.rd_wr_same]
  rfl

theorem takeTrapAt_pc : (takeTrapAt s c code info pc own).rd Reg.CS_TRAPPC_PC (coreU c) = pc % 2 ^ 13 := by
  simp only [takeTrapAt_eq, rd_emit, State.bump, State.wb]
  iterate 4 rw [State.rd_wr_ne _ (by decide)]
  exact State.rd_wr_same _ _ _ _ _ _

theorem takeTrapAt_word_low :
    (takeTrapAt s c code info pc own).rd Reg.CS_TRAPIW_WORD (coreU c) = imemWord s c pc % 2 ^ 32 := by
  simp only [takeTrapAt_eq, rd_emit, State.bump, State.wb]
  iterate 2 rw [State.rd_wr_ne _ (by decide)]
  rw [State.rd_wr_inst _ _ (by simp)]
  exact State.rd_wr_same _ _ _ _ _ _

theorem takeTrapAt_word_high :
    (takeTrapAt s c code info pc own).rd Reg.CS_TRAPIW_WORD (coreU c) 1 = imemWord s c pc / 2 ^ 32 % 2 ^ 32 := by
  simp only [takeTrapAt_eq, rd_emit, State.bump, State.wb]
  iterate 2 rw [State.rd_wr_ne _ (by decide)]
  exact State.rd_wr_same _ _ _ _ _ _

theorem takeTrapAt_info : (takeTrapAt s c code info pc own).rd Reg.CS_TRAPINFO_INFO (coreU c) = info % 2 ^ 32 := by
  simp only [takeTrapAt_eq, rd_emit, State.bump, State.wb]
  rw [State.rd_wr_ne _ (by decide)]
  exact State.rd_wr_same _ _ _ _ _ _

theorem takeTrapAt_cst : (takeTrapAt s c code info pc own).cst c = stTrapped := by
  simp only [takeTrapAt_eq, State.cst, rd_emit, State.bump, State.wb]
  exact State.rd_wr_same _ _ _ _ _ _

end Sys2Proof.Machine
end

