-- ==== Sys2Proof/Laws/Units.lean ====
section
/-! SUPPORT. What the updates of ports, stacks, slots, mailboxes and Lehrs leave as it was, and that each reads as last set. -/

namespace Sys2Proof.Machine

variable (s : State)

@[simp] theorem State.setPx_regs (p : PortId) (x : PortX) : (s.setPx p x).regs = s.regs := (rfl)
@[simp] theorem State.setPx_pend (p : PortId) (x : PortX) : (s.setPx p x).pend = s.pend := (rfl)
@[simp] theorem State.setPx_latch (p : PortId) (x : PortX) : (s.setPx p x).latch = s.latch := (rfl)
@[simp] theorem State.setPx_frozen (p : PortId) (x : PortX) : (s.setPx p x).frozen = s.frozen := (rfl)
@[simp] theorem State.setPx_mem (p : PortId) (x : PortX) : (s.setPx p x).mem = s.mem := (rfl)
@[simp] theorem State.setPx_cores (p : PortId) (x : PortX) : (s.setPx p x).cores = s.cores := (rfl)
@[simp] theorem State.setPx_routers (p : PortId) (x : PortX) : (s.setPx p x).routers = s.routers := (rfl)
@[simp] theorem State.setPx_streams (p : PortId) (x : PortX) : (s.setPx p x).streams = s.streams := (rfl)
@[simp] theorem State.setPx_gathers (p : PortId) (x : PortX) : (s.setPx p x).gathers = s.gathers := (rfl)
@[simp] theorem State.setPx_dies (p : PortId) (x : PortX) : (s.setPx p x).dies = s.dies := (rfl)
@[simp] theorem State.setPx_eccBad (p : PortId) (x : PortX) : (s.setPx p x).eccBad = s.eccBad := (rfl)
@[simp] theorem State.setPx_hubSend (p : PortId) (x : PortX) : (s.setPx p x).hubSend = s.hubSend := (rfl)
@[simp] theorem State.setPx_stackSt (p : PortId) (x : PortX) : (s.setPx p x).stackSt = s.stackSt := (rfl)
@[simp] theorem State.setPx_hostReads (p : PortId) (x : PortX) : (s.setPx p x).hostReads = s.hostReads := (rfl)
@[simp] theorem State.setPx_hostId (p : PortId) (x : PortX) : (s.setPx p x).hostId = s.hostId := (rfl)
@[simp] theorem State.setPx_hubSync (p : PortId) (x : PortX) : (s.setPx p x).hubSync = s.hubSync := (rfl)
@[simp] theorem State.setPx_stepLost (p : PortId) (x : PortX) : (s.setPx p x).stepLost = s.stepLost := (rfl)
@[simp] theorem State.setPx_ladderOut (p : PortId) (x : PortX) : (s.setPx p x).ladderOut = s.ladderOut := (rfl)
@[simp] theorem State.setPx_ratioOut (p : PortId) (x : PortX) : (s.setPx p x).ratioOut = s.ratioOut := (rfl)
@[simp] theorem State.setPx_slots (p : PortId) (x : PortX) : (s.setPx p x).slots = s.slots := (rfl)
@[simp] theorem State.setPx_mails (p : PortId) (x : PortX) : (s.setPx p x).mails = s.mails := (rfl)
@[simp] theorem State.setPx_locks (p : PortId) (x : PortX) : (s.setPx p x).locks = s.locks := (rfl)
@[simp] theorem State.setPx_host (p : PortId) (x : PortX) : (s.setPx p x).host = s.host := (rfl)
@[simp] theorem State.setPx_power (p : PortId) (x : PortX) : (s.setPx p x).power = s.power := (rfl)
@[simp] theorem State.setPx_ejected (p : PortId) (x : PortX) : (s.setPx p x).ejected = s.ejected := (rfl)
@[simp] theorem State.setPx_chip (p : PortId) (x : PortX) : (s.setPx p x).chip = s.chip := (rfl)
@[simp] theorem State.setPx_load (p : PortId) (x : PortX) : (s.setPx p x).load = s.load := (rfl)
@[simp] theorem State.setPx_faults (p : PortId) (x : PortX) : (s.setPx p x).faults = s.faults := (rfl)
@[simp] theorem State.setPx_manage (p : PortId) (x : PortX) : (s.setPx p x).manage = s.manage := (rfl)
@[simp] theorem State.setPx_ctl (p : PortId) (x : PortX) : (s.setPx p x).ctl = s.ctl := (rfl)
@[simp] theorem State.setPx_rowMaps (p : PortId) (x : PortX) : (s.setPx p x).rowMaps = s.rowMaps := (rfl)
@[simp] theorem State.setPx_lossDue (p : PortId) (x : PortX) : (s.setPx p x).lossDue = s.lossDue := (rfl)
@[simp] theorem State.setPx_log (p : PortId) (x : PortX) : (s.setPx p x).log = s.log := (rfl)
@[simp] theorem State.setPx_out (p : PortId) (x : PortX) : (s.setPx p x).out = s.out := (rfl)
@[simp] theorem State.setPx_free (p : PortId) (x : PortX) : (s.setPx p x).free = s.free := (rfl)
@[simp] theorem State.setPx_hclk (p : PortId) (x : PortX) : (s.setPx p x).hclk = s.hclk := (rfl)
@[simp] theorem State.setPx_pending (p : PortId) (x : PortX) : (s.setPx p x).pending = s.pending := (rfl)
@[simp] theorem State.px_setPx_same (p : PortId) (x : PortX) : (s.setPx p x).px p = x := smGet_smSet_same _ _ _ _
@[simp] theorem State.setLx_regs (p : PortId) (x : LaneX) : (s.setLx p x).regs = s.regs := (rfl)
@[simp] theorem State.setLx_pend (p : PortId) (x : LaneX) : (s.setLx p x).pend = s.pend := (rfl)
@[simp] theorem State.setLx_latch (p : PortId) (x : LaneX) : (s.setLx p x).latch = s.latch := (rfl)
@[simp] theorem State.setLx_frozen (p : PortId) (x : LaneX) : (s.setLx p x).frozen = s.frozen := (rfl)
@[simp] theorem State.setLx_mem (p : PortId) (x : LaneX) : (s.setLx p x).mem = s.mem := (rfl)
@[simp] theorem State.setLx_cores (p : PortId) (x : LaneX) : (s.setLx p x).cores = s.cores := (rfl)
@[simp] theorem State.setLx_routers (p : PortId) (x : LaneX) : (s.setLx p x).routers = s.routers := (rfl)
@[simp] theorem State.setLx_streams (p : PortId) (x : LaneX) : (s.setLx p x).streams = s.streams := (rfl)
@[simp] theorem State.setLx_gathers (p : PortId) (x : LaneX) : (s.setLx p x).gathers = s.gathers := (rfl)
@[simp] theorem State.setLx_dies (p : PortId) (x : LaneX) : (s.setLx p x).dies = s.dies := (rfl)
@[simp] theorem State.setLx_eccBad (p : PortId) (x : LaneX) : (s.setLx p x).eccBad = s.eccBad := (rfl)
@[simp] theorem State.setLx_hubSend (p : PortId) (x : LaneX) : (s.setLx p x).hubSend = s.hubSend := (rfl)
@[simp] theorem State.setLx_stackSt (p : PortId) (x : LaneX) : (s.setLx p x).stackSt = s.stackSt := (rfl)
@[simp] theorem State.setLx_hostReads (p : PortId) (x : LaneX) : (s.setLx p x).hostReads = s.hostReads := (rfl)
@[simp] theorem State.setLx_hostId (p : PortId) (x : LaneX) : (s.setLx p x).hostId = s.hostId := (rfl)
@[simp] theorem State.setLx_hubSync (p : PortId) (x : LaneX) : (s.setLx p x).hubSync = s.hubSync := (rfl)
@[simp] theorem State.setLx_stepLost (p : PortId) (x : LaneX) : (s.setLx p x).stepLost = s.stepLost := (rfl)
@[simp] theorem State.setLx_ladderOut (p : PortId) (x : LaneX) : (s.setLx p x).ladderOut = s.ladderOut := (rfl)
@[simp] theorem State.setLx_ratioOut (p : PortId) (x : LaneX) : (s.setLx p x).ratioOut = s.ratioOut := (rfl)
@[simp] theorem State.setLx_slots (p : PortId) (x : LaneX) : (s.setLx p x).slots = s.slots := (rfl)
@[simp] theorem State.setLx_mails (p : PortId) (x : LaneX) : (s.setLx p x).mails = s.mails := (rfl)
@[simp] theorem State.setLx_locks (p : PortId) (x : LaneX) : (s.setLx p x).locks = s.locks := (rfl)
@[simp] theorem State.setLx_host (p : PortId) (x : LaneX) : (s.setLx p x).host = s.host := (rfl)
@[simp] theorem State.setLx_power (p : PortId) (x : LaneX) : (s.setLx p x).power = s.power := (rfl)
@[simp] theorem State.setLx_ejected (p : PortId) (x : LaneX) : (s.setLx p x).ejected = s.ejected := (rfl)
@[simp] theorem State.setLx_chip (p : PortId) (x : LaneX) : (s.setLx p x).chip = s.chip := (rfl)
@[simp] theorem State.setLx_load (p : PortId) (x : LaneX) : (s.setLx p x).load = s.load := (rfl)
@[simp] theorem State.setLx_faults (p : PortId) (x : LaneX) : (s.setLx p x).faults = s.faults := (rfl)
@[simp] theorem State.setLx_manage (p : PortId) (x : LaneX) : (s.setLx p x).manage = s.manage := (rfl)
@[simp] theorem State.setLx_ctl (p : PortId) (x : LaneX) : (s.setLx p x).ctl = s.ctl := (rfl)
@[simp] theorem State.setLx_rowMaps (p : PortId) (x : LaneX) : (s.setLx p x).rowMaps = s.rowMaps := (rfl)
@[simp] theorem State.setLx_lossDue (p : PortId) (x : LaneX) : (s.setLx p x).lossDue = s.lossDue := (rfl)
@[simp] theorem State.setLx_log (p : PortId) (x : LaneX) : (s.setLx p x).log = s.log := (rfl)
@[simp] theorem State.setLx_out (p : PortId) (x : LaneX) : (s.setLx p x).out = s.out := (rfl)
@[simp] theorem State.setLx_free (p : PortId) (x : LaneX) : (s.setLx p x).free = s.free := (rfl)
@[simp] theorem State.setLx_hclk (p : PortId) (x : LaneX) : (s.setLx p x).hclk = s.hclk := (rfl)
@[simp] theorem State.setLx_pending (p : PortId) (x : LaneX) : (s.setLx p x).pending = s.pending := (rfl)
@[simp] theorem State.setSb_regs (p : PortId) (x : SideX) : (s.setSb p x).regs = s.regs := (rfl)
@[simp] theorem State.setSb_pend (p : PortId) (x : SideX) : (s.setSb p x).pend = s.pend := (rfl)
@[simp] theorem State.setSb_latch (p : PortId) (x : SideX) : (s.setSb p x).latch = s.latch := (rfl)
@[simp] theorem State.setSb_frozen (p : PortId) (x : SideX) : (s.setSb p x).frozen = s.frozen := (rfl)
@[simp] theorem State.setSb_mem (p : PortId) (x : SideX) : (s.setSb p x).mem = s.mem := (rfl)
@[simp] theorem State.setSb_cores (p : PortId) (x : SideX) : (s.setSb p x).cores = s.cores := (rfl)
@[simp] theorem State.setSb_routers (p : PortId) (x : SideX) : (s.setSb p x).routers = s.routers := (rfl)
@[simp] theorem State.setSb_streams (p : PortId) (x : SideX) : (s.setSb p x).streams = s.streams := (rfl)
@[simp] theorem State.setSb_gathers (p : PortId) (x : SideX) : (s.setSb p x).gathers = s.gathers := (rfl)
@[simp] theorem State.setSb_dies (p : PortId) (x : SideX) : (s.setSb p x).dies = s.dies := (rfl)
@[simp] theorem State.setSb_eccBad (p : PortId) (x : SideX) : (s.setSb p x).eccBad = s.eccBad := (rfl)
@[simp] theorem State.setSb_hubSend (p : PortId) (x : SideX) : (s.setSb p x).hubSend = s.hubSend := (rfl)
@[simp] theorem State.setSb_stackSt (p : PortId) (x : SideX) : (s.setSb p x).stackSt = s.stackSt := (rfl)
@[simp] theorem State.setSb_hostReads (p : PortId) (x : SideX) : (s.setSb p x).hostReads = s.hostReads := (rfl)
@[simp] theorem State.setSb_hostId (p : PortId) (x : SideX) : (s.setSb p x).hostId = s.hostId := (rfl)
@[simp] theorem State.setSb_hubSync (p : PortId) (x : SideX) : (s.setSb p x).hubSync = s.hubSync := (rfl)
@[simp] theorem State.setSb_stepLost (p : PortId) (x : SideX) : (s.setSb p x).stepLost = s.stepLost := (rfl)
@[simp] theorem State.setSb_ladderOut (p : PortId) (x : SideX) : (s.setSb p x).ladderOut = s.ladderOut := (rfl)
@[simp] theorem State.setSb_ratioOut (p : PortId) (x : SideX) : (s.setSb p x).ratioOut = s.ratioOut := (rfl)
@[simp] theorem State.setSb_slots (p : PortId) (x : SideX) : (s.setSb p x).slots = s.slots := (rfl)
@[simp] theorem State.setSb_mails (p : PortId) (x : SideX) : (s.setSb p x).mails = s.mails := (rfl)
@[simp] theorem State.setSb_locks (p : PortId) (x : SideX) : (s.setSb p x).locks = s.locks := (rfl)
@[simp] theorem State.setSb_host (p : PortId) (x : SideX) : (s.setSb p x).host = s.host := (rfl)
@[simp] theorem State.setSb_power (p : PortId) (x : SideX) : (s.setSb p x).power = s.power := (rfl)
@[simp] theorem State.setSb_ejected (p : PortId) (x : SideX) : (s.setSb p x).ejected = s.ejected := (rfl)
@[simp] theorem State.setSb_chip (p : PortId) (x : SideX) : (s.setSb p x).chip = s.chip := (rfl)
@[simp] theorem State.setSb_load (p : PortId) (x : SideX) : (s.setSb p x).load = s.load := (rfl)
@[simp] theorem State.setSb_faults (p : PortId) (x : SideX) : (s.setSb p x).faults = s.faults := (rfl)
@[simp] theorem State.setSb_manage (p : PortId) (x : SideX) : (s.setSb p x).manage = s.manage := (rfl)
@[simp] theorem State.setSb_ctl (p : PortId) (x : SideX) : (s.setSb p x).ctl = s.ctl := (rfl)
@[simp] theorem State.setSb_rowMaps (p : PortId) (x : SideX) : (s.setSb p x).rowMaps = s.rowMaps := (rfl)
@[simp] theorem State.setSb_lossDue (p : PortId) (x : SideX) : (s.setSb p x).lossDue = s.lossDue := (rfl)
@[simp] theorem State.setSb_log (p : PortId) (x : SideX) : (s.setSb p x).log = s.log := (rfl)
@[simp] theorem State.setSb_out (p : PortId) (x : SideX) : (s.setSb p x).out = s.out := (rfl)
@[simp] theorem State.setSb_free (p : PortId) (x : SideX) : (s.setSb p x).free = s.free := (rfl)
@[simp] theorem State.setSb_hclk (p : PortId) (x : SideX) : (s.setSb p x).hclk = s.hclk := (rfl)
@[simp] theorem State.setSb_pending (p : PortId) (x : SideX) : (s.setSb p x).pending = s.pending := (rfl)
@[simp] theorem State.setSpx_regs (m : Fin 8) (x : SpanX) : (s.setSpx m x).regs = s.regs := (rfl)
@[simp] theorem State.setSpx_pend (m : Fin 8) (x : SpanX) : (s.setSpx m x).pend = s.pend := (rfl)
@[simp] theorem State.setSpx_latch (m : Fin 8) (x : SpanX) : (s.setSpx m x).latch = s.latch := (rfl)
@[simp] theorem State.setSpx_frozen (m : Fin 8) (x : SpanX) : (s.setSpx m x).frozen = s.frozen := (rfl)
@[simp] theorem State.setSpx_mem (m : Fin 8) (x : SpanX) : (s.setSpx m x).mem = s.mem := (rfl)
@[simp] theorem State.setSpx_cores (m : Fin 8) (x : SpanX) : (s.setSpx m x).cores = s.cores := (rfl)
@[simp] theorem State.setSpx_routers (m : Fin 8) (x : SpanX) : (s.setSpx m x).routers = s.routers := (rfl)
@[simp] theorem State.setSpx_streams (m : Fin 8) (x : SpanX) : (s.setSpx m x).streams = s.streams := (rfl)
@[simp] theorem State.setSpx_gathers (m : Fin 8) (x : SpanX) : (s.setSpx m x).gathers = s.gathers := (rfl)
@[simp] theorem State.setSpx_dies (m : Fin 8) (x : SpanX) : (s.setSpx m x).dies = s.dies := (rfl)
@[simp] theorem State.setSpx_eccBad (m : Fin 8) (x : SpanX) : (s.setSpx m x).eccBad = s.eccBad := (rfl)
@[simp] theorem State.setSpx_hubSend (m : Fin 8) (x : SpanX) : (s.setSpx m x).hubSend = s.hubSend := (rfl)
@[simp] theorem State.setSpx_stackSt (m : Fin 8) (x : SpanX) : (s.setSpx m x).stackSt = s.stackSt := (rfl)
@[simp] theorem State.setSpx_hostReads (m : Fin 8) (x : SpanX) : (s.setSpx m x).hostReads = s.hostReads := (rfl)
@[simp] theorem State.setSpx_hostId (m : Fin 8) (x : SpanX) : (s.setSpx m x).hostId = s.hostId := (rfl)
@[simp] theorem State.setSpx_hubSync (m : Fin 8) (x : SpanX) : (s.setSpx m x).hubSync = s.hubSync := (rfl)
@[simp] theorem State.setSpx_stepLost (m : Fin 8) (x : SpanX) : (s.setSpx m x).stepLost = s.stepLost := (rfl)
@[simp] theorem State.setSpx_ladderOut (m : Fin 8) (x : SpanX) : (s.setSpx m x).ladderOut = s.ladderOut := (rfl)
@[simp] theorem State.setSpx_ratioOut (m : Fin 8) (x : SpanX) : (s.setSpx m x).ratioOut = s.ratioOut := (rfl)
@[simp] theorem State.setSpx_slots (m : Fin 8) (x : SpanX) : (s.setSpx m x).slots = s.slots := (rfl)
@[simp] theorem State.setSpx_mails (m : Fin 8) (x : SpanX) : (s.setSpx m x).mails = s.mails := (rfl)
@[simp] theorem State.setSpx_locks (m : Fin 8) (x : SpanX) : (s.setSpx m x).locks = s.locks := (rfl)
@[simp] theorem State.setSpx_host (m : Fin 8) (x : SpanX) : (s.setSpx m x).host = s.host := (rfl)
@[simp] theorem State.setSpx_power (m : Fin 8) (x : SpanX) : (s.setSpx m x).power = s.power := (rfl)
@[simp] theorem State.setSpx_ejected (m : Fin 8) (x : SpanX) : (s.setSpx m x).ejected = s.ejected := (rfl)
@[simp] theorem State.setSpx_chip (m : Fin 8) (x : SpanX) : (s.setSpx m x).chip = s.chip := (rfl)
@[simp] theorem State.setSpx_load (m : Fin 8) (x : SpanX) : (s.setSpx m x).load = s.load := (rfl)
@[simp] theorem State.setSpx_faults (m : Fin 8) (x : SpanX) : (s.setSpx m x).faults = s.faults := (rfl)
@[simp] theorem State.setSpx_manage (m : Fin 8) (x : SpanX) : (s.setSpx m x).manage = s.manage := (rfl)
@[simp] theorem State.setSpx_ctl (m : Fin 8) (x : SpanX) : (s.setSpx m x).ctl = s.ctl := (rfl)
@[simp] theorem State.setSpx_rowMaps (m : Fin 8) (x : SpanX) : (s.setSpx m x).rowMaps = s.rowMaps := (rfl)
@[simp] theorem State.setSpx_lossDue (m : Fin 8) (x : SpanX) : (s.setSpx m x).lossDue = s.lossDue := (rfl)
@[simp] theorem State.setSpx_log (m : Fin 8) (x : SpanX) : (s.setSpx m x).log = s.log := (rfl)
@[simp] theorem State.setSpx_out (m : Fin 8) (x : SpanX) : (s.setSpx m x).out = s.out := (rfl)
@[simp] theorem State.setSpx_free (m : Fin 8) (x : SpanX) : (s.setSpx m x).free = s.free := (rfl)
@[simp] theorem State.setSpx_hclk (m : Fin 8) (x : SpanX) : (s.setSpx m x).hclk = s.hclk := (rfl)
@[simp] theorem State.setSpx_pending (m : Fin 8) (x : SpanX) : (s.setSpx m x).pending = s.pending := (rfl)
@[simp] theorem State.setCr_regs (key : Nat) (x : CtlRouter) : (s.setCr key x).regs = s.regs := (rfl)
@[simp] theorem State.setCr_pend (key : Nat) (x : CtlRouter) : (s.setCr key x).pend = s.pend := (rfl)
@[simp] theorem State.setCr_latch (key : Nat) (x : CtlRouter) : (s.setCr key x).latch = s.latch := (rfl)
@[simp] theorem State.setCr_frozen (key : Nat) (x : CtlRouter) : (s.setCr key x).frozen = s.frozen := (rfl)
@[simp] theorem State.setCr_mem (key : Nat) (x : CtlRouter) : (s.setCr key x).mem = s.mem := (rfl)
@[simp] theorem State.setCr_cores (key : Nat) (x : CtlRouter) : (s.setCr key x).cores = s.cores := (rfl)
@[simp] theorem State.setCr_routers (key : Nat) (x : CtlRouter) : (s.setCr key x).routers = s.routers := (rfl)
@[simp] theorem State.setCr_streams (key : Nat) (x : CtlRouter) : (s.setCr key x).streams = s.streams := (rfl)
@[simp] theorem State.setCr_gathers (key : Nat) (x : CtlRouter) : (s.setCr key x).gathers = s.gathers := (rfl)
@[simp] theorem State.setCr_dies (key : Nat) (x : CtlRouter) : (s.setCr key x).dies = s.dies := (rfl)
@[simp] theorem State.setCr_eccBad (key : Nat) (x : CtlRouter) : (s.setCr key x).eccBad = s.eccBad := (rfl)
@[simp] theorem State.setCr_hubSend (key : Nat) (x : CtlRouter) : (s.setCr key x).hubSend = s.hubSend := (rfl)
@[simp] theorem State.setCr_ports (key : Nat) (x : CtlRouter) : (s.setCr key x).ports = s.ports := (rfl)
@[simp] theorem State.setCr_stackSt (key : Nat) (x : CtlRouter) : (s.setCr key x).stackSt = s.stackSt := (rfl)
@[simp] theorem State.setCr_hostReads (key : Nat) (x : CtlRouter) : (s.setCr key x).hostReads = s.hostReads := (rfl)
@[simp] theorem State.setCr_hostId (key : Nat) (x : CtlRouter) : (s.setCr key x).hostId = s.hostId := (rfl)
@[simp] theorem State.setCr_hubSync (key : Nat) (x : CtlRouter) : (s.setCr key x).hubSync = s.hubSync := (rfl)
@[simp] theorem State.setCr_stepLost (key : Nat) (x : CtlRouter) : (s.setCr key x).stepLost = s.stepLost := (rfl)
@[simp] theorem State.setCr_ladderOut (key : Nat) (x : CtlRouter) : (s.setCr key x).ladderOut = s.ladderOut := (rfl)
@[simp] theorem State.setCr_ratioOut (key : Nat) (x : CtlRouter) : (s.setCr key x).ratioOut = s.ratioOut := (rfl)
@[simp] theorem State.setCr_slots (key : Nat) (x : CtlRouter) : (s.setCr key x).slots = s.slots := (rfl)
@[simp] theorem State.setCr_mails (key : Nat) (x : CtlRouter) : (s.setCr key x).mails = s.mails := (rfl)
@[simp] theorem State.setCr_locks (key : Nat) (x : CtlRouter) : (s.setCr key x).locks = s.locks := (rfl)
@[simp] theorem State.setCr_host (key : Nat) (x : CtlRouter) : (s.setCr key x).host = s.host := (rfl)
@[simp] theorem State.setCr_power (key : Nat) (x : CtlRouter) : (s.setCr key x).power = s.power := (rfl)
@[simp] theorem State.setCr_ejected (key : Nat) (x : CtlRouter) : (s.setCr key x).ejected = s.ejected := (rfl)
@[simp] theorem State.setCr_chip (key : Nat) (x : CtlRouter) : (s.setCr key x).chip = s.chip := (rfl)
@[simp] theorem State.setCr_load (key : Nat) (x : CtlRouter) : (s.setCr key x).load = s.load := (rfl)
@[simp] theorem State.setCr_faults (key : Nat) (x : CtlRouter) : (s.setCr key x).faults = s.faults := (rfl)
@[simp] theorem State.setCr_manage (key : Nat) (x : CtlRouter) : (s.setCr key x).manage = s.manage := (rfl)
@[simp] theorem State.setCr_rowMaps (key : Nat) (x : CtlRouter) : (s.setCr key x).rowMaps = s.rowMaps := (rfl)
@[simp] theorem State.setCr_lossDue (key : Nat) (x : CtlRouter) : (s.setCr key x).lossDue = s.lossDue := (rfl)
@[simp] theorem State.setCr_log (key : Nat) (x : CtlRouter) : (s.setCr key x).log = s.log := (rfl)
@[simp] theorem State.setCr_out (key : Nat) (x : CtlRouter) : (s.setCr key x).out = s.out := (rfl)
@[simp] theorem State.setCr_free (key : Nat) (x : CtlRouter) : (s.setCr key x).free = s.free := (rfl)
@[simp] theorem State.setCr_hclk (key : Nat) (x : CtlRouter) : (s.setCr key x).hclk = s.hclk := (rfl)
@[simp] theorem State.setCr_pending (key : Nat) (x : CtlRouter) : (s.setCr key x).pending = s.pending := (rfl)
@[simp] theorem State.setTx_regs (k : Nat) (x : StackX) : (s.setTx k x).regs = s.regs := (rfl)
@[simp] theorem State.setTx_pend (k : Nat) (x : StackX) : (s.setTx k x).pend = s.pend := (rfl)
@[simp] theorem State.setTx_latch (k : Nat) (x : StackX) : (s.setTx k x).latch = s.latch := (rfl)
@[simp] theorem State.setTx_frozen (k : Nat) (x : StackX) : (s.setTx k x).frozen = s.frozen := (rfl)
@[simp] theorem State.setTx_mem (k : Nat) (x : StackX) : (s.setTx k x).mem = s.mem := (rfl)
@[simp] theorem State.setTx_cores (k : Nat) (x : StackX) : (s.setTx k x).cores = s.cores := (rfl)
@[simp] theorem State.setTx_routers (k : Nat) (x : StackX) : (s.setTx k x).routers = s.routers := (rfl)
@[simp] theorem State.setTx_streams (k : Nat) (x : StackX) : (s.setTx k x).streams = s.streams := (rfl)
@[simp] theorem State.setTx_gathers (k : Nat) (x : StackX) : (s.setTx k x).gathers = s.gathers := (rfl)
@[simp] theorem State.setTx_dies (k : Nat) (x : StackX) : (s.setTx k x).dies = s.dies := (rfl)
@[simp] theorem State.setTx_eccBad (k : Nat) (x : StackX) : (s.setTx k x).eccBad = s.eccBad := (rfl)
@[simp] theorem State.setTx_hubSend (k : Nat) (x : StackX) : (s.setTx k x).hubSend = s.hubSend := (rfl)
@[simp] theorem State.setTx_ports (k : Nat) (x : StackX) : (s.setTx k x).ports = s.ports := (rfl)
@[simp] theorem State.setTx_hostReads (k : Nat) (x : StackX) : (s.setTx k x).hostReads = s.hostReads := (rfl)
@[simp] theorem State.setTx_hostId (k : Nat) (x : StackX) : (s.setTx k x).hostId = s.hostId := (rfl)
@[simp] theorem State.setTx_hubSync (k : Nat) (x : StackX) : (s.setTx k x).hubSync = s.hubSync := (rfl)
@[simp] theorem State.setTx_stepLost (k : Nat) (x : StackX) : (s.setTx k x).stepLost = s.stepLost := (rfl)
@[simp] theorem State.setTx_ladderOut (k : Nat) (x : StackX) : (s.setTx k x).ladderOut = s.ladderOut := (rfl)
@[simp] theorem State.setTx_ratioOut (k : Nat) (x : StackX) : (s.setTx k x).ratioOut = s.ratioOut := (rfl)
@[simp] theorem State.setTx_slots (k : Nat) (x : StackX) : (s.setTx k x).slots = s.slots := (rfl)
@[simp] theorem State.setTx_mails (k : Nat) (x : StackX) : (s.setTx k x).mails = s.mails := (rfl)
@[simp] theorem State.setTx_locks (k : Nat) (x : StackX) : (s.setTx k x).locks = s.locks := (rfl)
@[simp] theorem State.setTx_host (k : Nat) (x : StackX) : (s.setTx k x).host = s.host := (rfl)
@[simp] theorem State.setTx_power (k : Nat) (x : StackX) : (s.setTx k x).power = s.power := (rfl)
@[simp] theorem State.setTx_ejected (k : Nat) (x : StackX) : (s.setTx k x).ejected = s.ejected := (rfl)
@[simp] theorem State.setTx_chip (k : Nat) (x : StackX) : (s.setTx k x).chip = s.chip := (rfl)
@[simp] theorem State.setTx_load (k : Nat) (x : StackX) : (s.setTx k x).load = s.load := (rfl)
@[simp] theorem State.setTx_faults (k : Nat) (x : StackX) : (s.setTx k x).faults = s.faults := (rfl)
@[simp] theorem State.setTx_manage (k : Nat) (x : StackX) : (s.setTx k x).manage = s.manage := (rfl)
@[simp] theorem State.setTx_ctl (k : Nat) (x : StackX) : (s.setTx k x).ctl = s.ctl := (rfl)
@[simp] theorem State.setTx_rowMaps (k : Nat) (x : StackX) : (s.setTx k x).rowMaps = s.rowMaps := (rfl)
@[simp] theorem State.setTx_lossDue (k : Nat) (x : StackX) : (s.setTx k x).lossDue = s.lossDue := (rfl)
@[simp] theorem State.setTx_log (k : Nat) (x : StackX) : (s.setTx k x).log = s.log := (rfl)
@[simp] theorem State.setTx_out (k : Nat) (x : StackX) : (s.setTx k x).out = s.out := (rfl)
@[simp] theorem State.setTx_free (k : Nat) (x : StackX) : (s.setTx k x).free = s.free := (rfl)
@[simp] theorem State.setTx_hclk (k : Nat) (x : StackX) : (s.setTx k x).hclk = s.hclk := (rfl)
@[simp] theorem State.setTx_pending (k : Nat) (x : StackX) : (s.setTx k x).pending = s.pending := (rfl)
@[simp] theorem State.tx_setTx_same (k : Nat) (x : StackX) : (s.setTx k x).tx k = x := smGet_smSet_same _ _ _ _
@[simp] theorem State.setSlx_regs (n : Nat) (x : SlotX) : (s.setSlx n x).regs = s.regs := (rfl)
@[simp] theorem State.setSlx_pend (n : Nat) (x : SlotX) : (s.setSlx n x).pend = s.pend := (rfl)
@[simp] theorem State.setSlx_latch (n : Nat) (x : SlotX) : (s.setSlx n x).latch = s.latch := (rfl)
@[simp] theorem State.setSlx_frozen (n : Nat) (x : SlotX) : (s.setSlx n x).frozen = s.frozen := (rfl)
@[simp] theorem State.setSlx_mem (n : Nat) (x : SlotX) : (s.setSlx n x).mem = s.mem := (rfl)
@[simp] theorem State.setSlx_cores (n : Nat) (x : SlotX) : (s.setSlx n x).cores = s.cores := (rfl)
@[simp] theorem State.setSlx_routers (n : Nat) (x : SlotX) : (s.setSlx n x).routers = s.routers := (rfl)
@[simp] theorem State.setSlx_streams (n : Nat) (x : SlotX) : (s.setSlx n x).streams = s.streams := (rfl)
@[simp] theorem State.setSlx_gathers (n : Nat) (x : SlotX) : (s.setSlx n x).gathers = s.gathers := (rfl)
@[simp] theorem State.setSlx_dies (n : Nat) (x : SlotX) : (s.setSlx n x).dies = s.dies := (rfl)
@[simp] theorem State.setSlx_eccBad (n : Nat) (x : SlotX) : (s.setSlx n x).eccBad = s.eccBad := (rfl)
@[simp] theorem State.setSlx_hubSend (n : Nat) (x : SlotX) : (s.setSlx n x).hubSend = s.hubSend := (rfl)
@[simp] theorem State.setSlx_ports (n : Nat) (x : SlotX) : (s.setSlx n x).ports = s.ports := (rfl)
@[simp] theorem State.setSlx_stackSt (n : Nat) (x : SlotX) : (s.setSlx n x).stackSt = s.stackSt := (rfl)
@[simp] theorem State.setSlx_hostReads (n : Nat) (x : SlotX) : (s.setSlx n x).hostReads = s.hostReads := (rfl)
@[simp] theorem State.setSlx_hostId (n : Nat) (x : SlotX) : (s.setSlx n x).hostId = s.hostId := (rfl)
@[simp] theorem State.setSlx_hubSync (n : Nat) (x : SlotX) : (s.setSlx n x).hubSync = s.hubSync := (rfl)
@[simp] theorem State.setSlx_stepLost (n : Nat) (x : SlotX) : (s.setSlx n x).stepLost = s.stepLost := (rfl)
@[simp] theorem State.setSlx_ladderOut (n : Nat) (x : SlotX) : (s.setSlx n x).ladderOut = s.ladderOut := (rfl)
@[simp] theorem State.setSlx_ratioOut (n : Nat) (x : SlotX) : (s.setSlx n x).ratioOut = s.ratioOut := (rfl)
@[simp] theorem State.setSlx_mails (n : Nat) (x : SlotX) : (s.setSlx n x).mails = s.mails := (rfl)
@[simp] theorem State.setSlx_locks (n : Nat) (x : SlotX) : (s.setSlx n x).locks = s.locks := (rfl)
@[simp] theorem State.setSlx_host (n : Nat) (x : SlotX) : (s.setSlx n x).host = s.host := (rfl)
@[simp] theorem State.setSlx_power (n : Nat) (x : SlotX) : (s.setSlx n x).power = s.power := (rfl)
@[simp] theorem State.setSlx_ejected (n : Nat) (x : SlotX) : (s.setSlx n x).ejected = s.ejected := (rfl)
@[simp] theorem State.setSlx_chip (n : Nat) (x : SlotX) : (s.setSlx n x).chip = s.chip := (rfl)
@[simp] theorem State.setSlx_load (n : Nat) (x : SlotX) : (s.setSlx n x).load = s.load := (rfl)
@[simp] theorem State.setSlx_faults (n : Nat) (x : SlotX) : (s.setSlx n x).faults = s.faults := (rfl)
@[simp] theorem State.setSlx_manage (n : Nat) (x : SlotX) : (s.setSlx n x).manage = s.manage := (rfl)
@[simp] theorem State.setSlx_ctl (n : Nat) (x : SlotX) : (s.setSlx n x).ctl = s.ctl := (rfl)
@[simp] theorem State.setSlx_rowMaps (n : Nat) (x : SlotX) : (s.setSlx n x).rowMaps = s.rowMaps := (rfl)
@[simp] theorem State.setSlx_lossDue (n : Nat) (x : SlotX) : (s.setSlx n x).lossDue = s.lossDue := (rfl)
@[simp] theorem State.setSlx_log (n : Nat) (x : SlotX) : (s.setSlx n x).log = s.log := (rfl)
@[simp] theorem State.setSlx_out (n : Nat) (x : SlotX) : (s.setSlx n x).out = s.out := (rfl)
@[simp] theorem State.setSlx_free (n : Nat) (x : SlotX) : (s.setSlx n x).free = s.free := (rfl)
@[simp] theorem State.setSlx_hclk (n : Nat) (x : SlotX) : (s.setSlx n x).hclk = s.hclk := (rfl)
@[simp] theorem State.setSlx_pending (n : Nat) (x : SlotX) : (s.setSlx n x).pending = s.pending := (rfl)
@[simp] theorem State.slx_setSlx_same (n : Nat) (x : SlotX) : (s.setSlx n x).slx n = x := smGet_smSet_same _ _ _ _
@[simp] theorem State.setMbx_regs (m : Nat) (x : MailX) : (s.setMbx m x).regs = s.regs := (rfl)
@[simp] theorem State.setMbx_pend (m : Nat) (x : MailX) : (s.setMbx m x).pend = s.pend := (rfl)
@[simp] theorem State.setMbx_latch (m : Nat) (x : MailX) : (s.setMbx m x).latch = s.latch := (rfl)
@[simp] theorem State.setMbx_frozen (m : Nat) (x : MailX) : (s.setMbx m x).frozen = s.frozen := (rfl)
@[simp] theorem State.setMbx_mem (m : Nat) (x : MailX) : (s.setMbx m x).mem = s.mem := (rfl)
@[simp] theorem State.setMbx_cores (m : Nat) (x : MailX) : (s.setMbx m x).cores = s.cores := (rfl)
@[simp] theorem State.setMbx_routers (m : Nat) (x : MailX) : (s.setMbx m x).routers = s.routers := (rfl)
@[simp] theorem State.setMbx_streams (m : Nat) (x : MailX) : (s.setMbx m x).streams = s.streams := (rfl)
@[simp] theorem State.setMbx_gathers (m : Nat) (x : MailX) : (s.setMbx m x).gathers = s.gathers := (rfl)
@[simp] theorem State.setMbx_dies (m : Nat) (x : MailX) : (s.setMbx m x).dies = s.dies := (rfl)
@[simp] theorem State.setMbx_eccBad (m : Nat) (x : MailX) : (s.setMbx m x).eccBad = s.eccBad := (rfl)
@[simp] theorem State.setMbx_hubSend (m : Nat) (x : MailX) : (s.setMbx m x).hubSend = s.hubSend := (rfl)
@[simp] theorem State.setMbx_ports (m : Nat) (x : MailX) : (s.setMbx m x).ports = s.ports := (rfl)
@[simp] theorem State.setMbx_stackSt (m : Nat) (x : MailX) : (s.setMbx m x).stackSt = s.stackSt := (rfl)
@[simp] theorem State.setMbx_hostReads (m : Nat) (x : MailX) : (s.setMbx m x).hostReads = s.hostReads := (rfl)
@[simp] theorem State.setMbx_hostId (m : Nat) (x : MailX) : (s.setMbx m x).hostId = s.hostId := (rfl)
@[simp] theorem State.setMbx_hubSync (m : Nat) (x : MailX) : (s.setMbx m x).hubSync = s.hubSync := (rfl)
@[simp] theorem State.setMbx_stepLost (m : Nat) (x : MailX) : (s.setMbx m x).stepLost = s.stepLost := (rfl)
@[simp] theorem State.setMbx_ladderOut (m : Nat) (x : MailX) : (s.setMbx m x).ladderOut = s.ladderOut := (rfl)
@[simp] theorem State.setMbx_ratioOut (m : Nat) (x : MailX) : (s.setMbx m x).ratioOut = s.ratioOut := (rfl)
@[simp] theorem State.setMbx_slots (m : Nat) (x : MailX) : (s.setMbx m x).slots = s.slots := (rfl)
@[simp] theorem State.setMbx_locks (m : Nat) (x : MailX) : (s.setMbx m x).locks = s.locks := (rfl)
@[simp] theorem State.setMbx_host (m : Nat) (x : MailX) : (s.setMbx m x).host = s.host := (rfl)
@[simp] theorem State.setMbx_power (m : Nat) (x : MailX) : (s.setMbx m x).power = s.power := (rfl)
@[simp] theorem State.setMbx_ejected (m : Nat) (x : MailX) : (s.setMbx m x).ejected = s.ejected := (rfl)
@[simp] theorem State.setMbx_chip (m : Nat) (x : MailX) : (s.setMbx m x).chip = s.chip := (rfl)
@[simp] theorem State.setMbx_load (m : Nat) (x : MailX) : (s.setMbx m x).load = s.load := (rfl)
@[simp] theorem State.setMbx_faults (m : Nat) (x : MailX) : (s.setMbx m x).faults = s.faults := (rfl)
@[simp] theorem State.setMbx_manage (m : Nat) (x : MailX) : (s.setMbx m x).manage = s.manage := (rfl)
@[simp] theorem State.setMbx_ctl (m : Nat) (x : MailX) : (s.setMbx m x).ctl = s.ctl := (rfl)
@[simp] theorem State.setMbx_rowMaps (m : Nat) (x : MailX) : (s.setMbx m x).rowMaps = s.rowMaps := (rfl)
@[simp] theorem State.setMbx_lossDue (m : Nat) (x : MailX) : (s.setMbx m x).lossDue = s.lossDue := (rfl)
@[simp] theorem State.setMbx_log (m : Nat) (x : MailX) : (s.setMbx m x).log = s.log := (rfl)
@[simp] theorem State.setMbx_out (m : Nat) (x : MailX) : (s.setMbx m x).out = s.out := (rfl)
@[simp] theorem State.setMbx_free (m : Nat) (x : MailX) : (s.setMbx m x).free = s.free := (rfl)
@[simp] theorem State.setMbx_hclk (m : Nat) (x : MailX) : (s.setMbx m x).hclk = s.hclk := (rfl)
@[simp] theorem State.setMbx_pending (m : Nat) (x : MailX) : (s.setMbx m x).pending = s.pending := (rfl)
@[simp] theorem State.mbx_setMbx_same (m : Nat) (x : MailX) : (s.setMbx m x).mbx m = x := smGet_smSet_same _ _ _ _
@[simp] theorem State.setPw_regs (d : Nat) (x : PowerX) : (s.setPw d x).regs = s.regs := (rfl)
@[simp] theorem State.setPw_pend (d : Nat) (x : PowerX) : (s.setPw d x).pend = s.pend := (rfl)
@[simp] theorem State.setPw_latch (d : Nat) (x : PowerX) : (s.setPw d x).latch = s.latch := (rfl)
@[simp] theorem State.setPw_frozen (d : Nat) (x : PowerX) : (s.setPw d x).frozen = s.frozen := (rfl)
@[simp] theorem State.setPw_mem (d : Nat) (x : PowerX) : (s.setPw d x).mem = s.mem := (rfl)
@[simp] theorem State.setPw_cores (d : Nat) (x : PowerX) : (s.setPw d x).cores = s.cores := (rfl)
@[simp] theorem State.setPw_routers (d : Nat) (x : PowerX) : (s.setPw d x).routers = s.routers := (rfl)
@[simp] theorem State.setPw_streams (d : Nat) (x : PowerX) : (s.setPw d x).streams = s.streams := (rfl)
@[simp] theorem State.setPw_gathers (d : Nat) (x : PowerX) : (s.setPw d x).gathers = s.gathers := (rfl)
@[simp] theorem State.setPw_dies (d : Nat) (x : PowerX) : (s.setPw d x).dies = s.dies := (rfl)
@[simp] theorem State.setPw_eccBad (d : Nat) (x : PowerX) : (s.setPw d x).eccBad = s.eccBad := (rfl)
@[simp] theorem State.setPw_hubSend (d : Nat) (x : PowerX) : (s.setPw d x).hubSend = s.hubSend := (rfl)
@[simp] theorem State.setPw_ports (d : Nat) (x : PowerX) : (s.setPw d x).ports = s.ports := (rfl)
@[simp] theorem State.setPw_stackSt (d : Nat) (x : PowerX) : (s.setPw d x).stackSt = s.stackSt := (rfl)
@[simp] theorem State.setPw_hostReads (d : Nat) (x : PowerX) : (s.setPw d x).hostReads = s.hostReads := (rfl)
@[simp] theorem State.setPw_hostId (d : Nat) (x : PowerX) : (s.setPw d x).hostId = s.hostId := (rfl)
@[simp] theorem State.setPw_hubSync (d : Nat) (x : PowerX) : (s.setPw d x).hubSync = s.hubSync := (rfl)
@[simp] theorem State.setPw_stepLost (d : Nat) (x : PowerX) : (s.setPw d x).stepLost = s.stepLost := (rfl)
@[simp] theorem State.setPw_ladderOut (d : Nat) (x : PowerX) : (s.setPw d x).ladderOut = s.ladderOut := (rfl)
@[simp] theorem State.setPw_ratioOut (d : Nat) (x : PowerX) : (s.setPw d x).ratioOut = s.ratioOut := (rfl)
@[simp] theorem State.setPw_slots (d : Nat) (x : PowerX) : (s.setPw d x).slots = s.slots := (rfl)
@[simp] theorem State.setPw_mails (d : Nat) (x : PowerX) : (s.setPw d x).mails = s.mails := (rfl)
@[simp] theorem State.setPw_locks (d : Nat) (x : PowerX) : (s.setPw d x).locks = s.locks := (rfl)
@[simp] theorem State.setPw_host (d : Nat) (x : PowerX) : (s.setPw d x).host = s.host := (rfl)
@[simp] theorem State.setPw_ejected (d : Nat) (x : PowerX) : (s.setPw d x).ejected = s.ejected := (rfl)
@[simp] theorem State.setPw_chip (d : Nat) (x : PowerX) : (s.setPw d x).chip = s.chip := (rfl)
@[simp] theorem State.setPw_load (d : Nat) (x : PowerX) : (s.setPw d x).load = s.load := (rfl)
@[simp] theorem State.setPw_faults (d : Nat) (x : PowerX) : (s.setPw d x).faults = s.faults := (rfl)
@[simp] theorem State.setPw_manage (d : Nat) (x : PowerX) : (s.setPw d x).manage = s.manage := (rfl)
@[simp] theorem State.setPw_ctl (d : Nat) (x : PowerX) : (s.setPw d x).ctl = s.ctl := (rfl)
@[simp] theorem State.setPw_rowMaps (d : Nat) (x : PowerX) : (s.setPw d x).rowMaps = s.rowMaps := (rfl)
@[simp] theorem State.setPw_lossDue (d : Nat) (x : PowerX) : (s.setPw d x).lossDue = s.lossDue := (rfl)
@[simp] theorem State.setPw_log (d : Nat) (x : PowerX) : (s.setPw d x).log = s.log := (rfl)
@[simp] theorem State.setPw_out (d : Nat) (x : PowerX) : (s.setPw d x).out = s.out := (rfl)
@[simp] theorem State.setPw_free (d : Nat) (x : PowerX) : (s.setPw d x).free = s.free := (rfl)
@[simp] theorem State.setPw_hclk (d : Nat) (x : PowerX) : (s.setPw d x).hclk = s.hclk := (rfl)
@[simp] theorem State.setPw_pending (d : Nat) (x : PowerX) : (s.setPw d x).pending = s.pending := (rfl)
@[simp] theorem State.pw_setPw_same (d : Nat) (x : PowerX) : (s.setPw d x).pw d = x := smGet_smSet_same _ _ _ _

end Sys2Proof.Machine
end

