-- ==== Sys2Proof/Tests/Slice0.lean ====
section
/-! SUPPORT. Tests on small states: ill-formed commands each check refuses, states that meet the hypotheses of the
statements, and worked examples of the spec. -/

namespace Sys2Proof.Tests

open Sys2Proof.Machine

/-- The core the tests use, L[0,0] of D0. -/
def c0 : CoreId := ⟨0, 0⟩

/-- An instruction's fields. -/
def fw (d a b fn : BitVec 6) (imm : Word) : IFields := ⟨d, a, b, fn, imm⟩

/-- A core that runs at instruction 0 on a die with clock. -/
def live : State :=
  (((State.reset.wb Reg.BT_CLKSTAT_STOPPED 0 false).wr Reg.FT_LMAP_PCOL0 0 0).wr Reg.LH_CSTATE_STATE 0 0).wr
    Reg.CS_STAT_STATE 0 0

/-- The same core with an instruction in place. -/
def at_ (opc : Nat) (w : IFields) (s : State) : State :=
  s.wr64 Reg.IMEM_LO Reg.IMEM_HI 0 (encodeI opc w)

/-- The core with port q0 bound to queue 3, which holds one entry. -/
def port1 : State :=
  (live.setCx c0 { live.cx c0 with qbind := [(0, 4)], entries := [(3, [⟨5, 6, 7, 8, 0⟩])] }).wr Reg.CQ_Q_STATE 0 1 3

/-- The core with a VEC share in its bank slot table. -/
def vecLive : State := live.wr Reg.CP_BSLOT_LO 0 3 0

/-- A source reads a value. -/
def canRead (s : State) (c : CoreId) (code : BitVec 6) : Bool :=
  match readSrc s c code.toNat with
  | .val _ _ => true
  | _ => false

/-- Both sources of an instruction read values. -/
def canRead2 (s : State) (c : CoreId) (w : IFields) : Bool :=
  match readSrc s c w.a.toNat with
  | .val _ t => canRead t c w.b
  | _ => false

theorem canRead_reads {s : State} {c : CoreId} {code : BitVec 6} (h : canRead s c code = true) :
    ∃ x t, Reads s c code x t := by
  unfold canRead at h
  split at h
  · rename_i x t e
    exact ⟨x, t, e⟩
  · cases h

theorem canRead2_reads {s : State} {c : CoreId} {w : IFields} (h : canRead2 s c w = true) :
    ∃ x y t, Reads2 s c w x y t := by
  unfold canRead2 at h
  split at h
  · rename_i x s1 e
    obtain ⟨y, t, h2⟩ := canRead_reads h
    exact ⟨x, y, t, s1, e, h2⟩
  · cases h


/-- A one-core gather with a phase in progress whose seal is still to come. -/
def gatherLive (s : State) : State :=
  (s.wb Reg.PZ_GATHER_VALID 0 true).setGx ⟨0, 0⟩ { s.gx ⟨0, 0⟩ with phases := [{ ph := 0, rung := 0 }] }

/-- The core with a pass descriptor that passes every check, and aligned address descriptors. -/
def passReady : State :=
  (((((((((live.wr Reg.CA_FMT_WFMT 0 2).wr Reg.CA_FMT_XFMT 0 2).wr Reg.CA_PD_XK 0 1).wr Reg.CA_PD_XT 0 1).wr Reg.CA_PD_NCH 0 1).wr Reg.CA_PD_XSTRIDE 0 1).wr
    Reg.CA_PD_WSTRIDE 0 1).wr64 Reg.CS_AREG_LO Reg.CS_AREG_HI 0 0x1000 1).wr64 Reg.CS_AREG_LO Reg.CS_AREG_HI 0 0x8000 2)

/-- The die of the core with stream 0 defined, triggered by software on core 0. -/
def strigReady : State :=
  ((live.wb Reg.DN_DESC_VALID 0 true 0).wr Reg.DN_DESC_TRIG 0 1 0).wr Reg.DN_DESC_ROWS 0 1 0

/-- The core with a send-table entry for handle 0 that has credit. -/
def sendReady : State :=
  (live.wb Reg.CQ_S_VALID 0 true 0).wr Reg.CQ_S_ECRED 0 8 0

/-- The core with one pass of 4 channels in its array block, in a stage, and shares for its ports. -/
def blockAt (st : PassStage) : State :=
  let s := (passReady.wr Reg.CP_BSLOT_LO 0 1 0).wr Reg.CP_BSLOT_LO 0 2 1
  s.setCx c0 { s.cx c0 with passes := [⟨0, { descOf s c0 0 with nch := 4 }, 0, st, 0, 0, false, false, false, false, false, [], [], []⟩] }

/-- The core with a captured sample of one result. -/
def captured (s : State) : State :=
  s.setCx c0 { s.cx c0 with capture := some ⟨0, 0, 0, [[.fin false 1 0]], [[.fin false 1 0]], [[0x3F800000]], false⟩ }

/-- A one-core gather whose phase has ended, with or without a range cause. -/
def ended (s : State) (range : Bool) : State :=
  (s.wb Reg.PZ_GATHER_VALID 0 true).setGx ⟨0, 0⟩ { s.gx ⟨0, 0⟩ with phases := [{ ph := 0, rung := 0, ended := true, range := range }] }

/-- A module whose endpoint is open, with aperture 0 at the scratchpad of core 0. -/
def hostLive : State :=
  let s := ((live.wb Reg.HB_WIN_EN 0 true 0).wb Reg.BT_STAT_READY 0 true).wr Reg.BT_STAT_OWNER 0 1
  { s with host := { s.host with link := true, d3 := false } }

/-- A gather that holds the whole first row. -/
def oneGather (s : State) : State := (s.wb Reg.PZ_GATHER_VALID 0 true).wr Reg.PZ_GATHER_C1 0 7

/-- The router of the core forwards stream 7 from its left input to its right output in slot 5; one flit waits. -/
def routed : State :=
  let s := (((live.wr Reg.DN_TAB_V 0 1 0 (4096 * 2 + 5)).wr Reg.DN_TAB_STREAM 0 7 0 (4096 * 2 + 5)).wr Reg.DN_TAB_IN 0 4 0
    (4096 * 2 + 5))
  ((s.wr Reg.DN_FRAME_FLEN 0 64).setDx 0 { s.dx 0 with token := some 5 }).setRx c0
    { s.rx c0 with ins := [(4, [(0, ⟨7, 0, 0, false, false, false, true, 0⟩)])] }

/-- What MemoryCanonicalKept assumes holds somewhere. -/
theorem wit_MemoryCanonicalKept :
    Safe ((State.reset.wrByte 64 1).wrByte 3 7) ∧ ∃ t, step { (State.reset.wrByte 64 1).wrByte 3 7 with pending := [.nop c0 (fw 0 0 0 0 0)] } = .next t := ⟨by decide, _, rfl⟩

/-- What ScalarRegisterResults assumes holds somewhere. -/
theorem wit_ScalarRegisterResults :
    ∀ o ∈ List.range 16, Issues (at_ o (fw 1 2 0x30 0 0) port1) c0 o formRRR (fw 1 2 0x30 0 0) ∧
    canRead2 (at_ o (fw 1 2 0x30 0 0) port1) c0 (fw 1 2 0x30 0 0) = true := by decide

/-- What ScalarImmediateResults assumes holds somewhere. -/
theorem wit_ScalarImmediateResults :
    ∀ o ∈ List.range 16, Issues (at_ (16 + o) (fw 0 0x30 0 0 0xFFFFFFFF) port1) c0 (16 + o) formRRI (fw 0 0x30 0 0 0xFFFFFFFF) ∧
    canRead (at_ (16 + o) (fw 0 0x30 0 0 0xFFFFFFFF) port1) c0 0x30 = true := by decide

/-- What BranchesAndJumps assumes holds somewhere. -/
theorem wit_BranchesAndJumps :
    (∀ o ∈ List.range 6, let s := at_ (0x30 + o) (fw 0 1 2 0 8191) live;
      Issues s c0 (0x30 + o) formBr (fw 0 1 2 0 8191) ∧ canRead2 s c0 (fw 0 1 2 0 8191) = true ∧
      0 ≤ (s.pc c0 : Int) + (8191 : Word).toInt ∧ (s.pc c0 : Int) + (8191 : Word).toInt < 8192) ∧
    Issues (at_ 0x36 (fw 0 0 0 0 8191) live) c0 0x36 { imm := immAll } (fw 0 0 0 0 8191) ∧
    Issues (at_ 0x37 (fw 0 0 0 0 0) live) c0 0x37 { d := .s, imm := immAll } (fw 0 0 0 0 0) ∧
    Issues (at_ 0x38 (fw 0 1 0 0 0) live) c0 0x38 { a := .sq } (fw 0 1 0 0 0) ∧ canRead (at_ 0x38 (fw 0 1 0 0 0) live) c0 1 = true := by decide

/-- What JumpOutsideMemoryTraps assumes holds somewhere. -/
theorem wit_JumpOutsideMemoryTraps :
    (let s := at_ 0x30 (fw 0 1 2 0 0xFFFFFFFF) live;
      (s.pc c0 : Int) + (0xFFFFFFFF : Word).toInt < 0 ∧ canRead2 s c0 (fw 0 1 2 0 0xFFFFFFFF) = true ∧
      rdS s c0 1 = rdS s c0 2 ∧ Issues s c0 0x30 formBr (fw 0 1 2 0 0xFFFFFFFF)) ∧
    (let s := at_ 0x36 (fw 0 0 0 0 8192) live;
      8192 ≤ (s.pc c0 : Int) + (8192 : Word).toInt ∧ Issues s c0 0x36 { imm := immAll } (fw 0 0 0 0 8192)) ∧
    (let s := at_ 0x37 (fw 3 0 0 0 8192) live;
      8192 ≤ (s.pc c0 : Int) + (8192 : Word).toInt ∧ Issues s c0 0x37 { d := .s, imm := immAll } (fw 3 0 0 0 8192)) := by decide

/-- What LoopAndDescriptorResults assumes holds somewhere. -/
theorem wit_LoopAndDescriptorResults :
    (let s := at_ 0x39 (fw 0 1 0 0 4095) live;
      canRead s c0 1 = true ∧ Issues s c0 0x39 { a := .sq, imm := 0xFFF } (fw 0 1 0 0 4095) ∧ s.pc c0 + 4095 < 8192 ∧
      (s.cx c0).loops.length < 4 ∧ ∀ l ∈ (s.cx c0).loops.head?, s.pc c0 + 4095 ≤ l.last) ∧
    (let s := at_ 0x40 (fw 0x20 1 2 0 0x3FFF) live;
      canRead2 s c0 (fw 0x20 1 2 0 0x3FFF) = true ∧
      Issues s c0 0x40 { d := .a, a := .sq, b := .sq, imm := 0x3FFF } (fw 0x20 1 2 0 0x3FFF)) ∧
    Issues (at_ 0x41 (fw 0x2F 0 0 0 0) live) c0 0x41 { d := .a } (fw 0x2F 0 0 0 0) ∧
    (let s := at_ 0x42 (fw 0x2F 1 0 0 0) live;
      canRead s c0 1 = true ∧ Issues s c0 0x42 { d := .a, a := .sq } (fw 0x2F 1 0 0 0)) ∧
    ∀ n ∈ List.range 4, Issues (at_ 0x43 (fw 1 0x20 0 (BitVec.ofNat 6 n) 0) live) c0 0x43 { d := .s, a := .a, fn := 3 }
      (fw 1 0x20 0 (BitVec.ofNat 6 n) 0) := by decide

/-- What LocalLoadsAndStores assumes holds somewhere. -/
theorem wit_LocalLoadsAndStores :
    (let s := at_ 0x20 (fw 1 1 0 0 0x17FFFFC) live;
      canRead s c0 1 = true ∧ 0x17FFFFC + 4 ≤ spLimit s c0 ∧ sbAdmits (s.cx c0).sb [bytesRange 0x17FFFFC 4 false] = true ∧
      Issues s c0 0x20 formRRI (fw 1 1 0 0 0x17FFFFC)) ∧
    (let s := at_ 0x21 (fw 0 1 2 0 0x17FFFFC) live;
      canRead2 s c0 (fw 0 1 2 0 0x17FFFFC) = true ∧ sbAdmits (s.cx c0).sb [bytesRange 0x17FFFFC 4 true] = true ∧
      Issues s c0 0x21 { a := .sq, b := .sq, imm := immAll } (fw 0 1 2 0 0x17FFFFC)) ∧
    (let s := at_ 0x22 (fw 0x20 1 0 0 0x17FFFF8) live;
      sbAdmits (s.cx c0).sb [bytesRange 0x17FFFF8 8 false] = true ∧
      Issues s c0 0x22 { d := .a, a := .sq, imm := immAll } (fw 0x20 1 0 0 0x17FFFF8)) ∧
    (let s := at_ 0x23 (fw 0 1 0x20 0 0x17FFFF8) live;
      sbAdmits (s.cx c0).sb [bytesRange 0x17FFFF8 8 true] = true ∧
      Issues s c0 0x23 { a := .sq, b := .a, imm := immAll } (fw 0 1 0x20 0 0x17FFFF8)) ∧
    (let s := at_ 0xA0 (fw 31 0x20 0 1 0xFFFF) vecLive;
      aBase (rdA s c0 0) + 64 * 0xFFFF + 256 ≤ spLimit s c0 ∧ bankShare s c0 ownVec ≠ 0 ∧
      sbAdmits (s.cx c0).sb [bytesRange (64 * 0xFFFF) 256 false] = true ∧
      Issues s c0 0xA0 { d := .v, a := .a, fn := 1, imm := 0xFFFF } (fw 31 0x20 0 1 0xFFFF)) ∧
    (let s := at_ 0xA1 (fw 0 0x20 31 1 0xFFFF) vecLive;
      bankShare s c0 ownVec ≠ 0 ∧ sbAdmits (s.cx c0).sb [bytesRange (64 * 0xFFFF) 256 true] = true ∧
      Issues s c0 0xA1 { a := .a, b := .v, fn := 1, imm := 0xFFFF } (fw 0 0x20 31 1 0xFFFF)) := by decide

/-- What StoresChangeOnlyTheirBytes assumes holds somewhere. -/
theorem wit_StoresChangeOnlyTheirBytes :
    (let s := at_ 0x21 (fw 0 1 2 0 0x17FFFFC) live;
      canRead2 s c0 (fw 0 1 2 0 0x17FFFFC) = true ∧ Issues s c0 0x21 { a := .sq, b := .sq, imm := immAll } (fw 0 1 2 0 0x17FFFFC)) ∧
    (let s := at_ 0x23 (fw 0 1 0x20 0 0) live;
      canRead s c0 1 = true ∧ Issues s c0 0x23 { a := .sq, b := .a, imm := immAll } (fw 0 1 0x20 0 0)) ∧
    Issues (at_ 0xA1 (fw 0 0x20 31 1 0) vecLive) c0 0xA1 { a := .a, b := .v, fn := 1, imm := 0xFFFF } (fw 0 0x20 31 1 0) := by decide

/-- What VectorLaneResults assumes holds somewhere. -/
theorem wit_VectorLaneResults :
    (let w := fw 31 30 29 0 15; tKnown (vType w) = true ∧ okArith (vType w) = true ∧
      (∀ o ∈ [0x60, 0x61, 0x62, 0x64, 0x65, 0x68, 0x6C, 0x6D, 0x6E], Issues (at_ o w live) c0 o form2 w) ∧
      Issues (at_ 0x69 w live) c0 0x69 form3 w) ∧
    (let w := fw 31 30 0 0 3; tKnown (vType w) = true ∧ ∀ o ∈ [0x66, 0x67], Issues (at_ o w live) c0 o form1 w) ∧
    (let w := fw 1 2 3 0 0x1F2; okFma (vType w) = true ∧ Issues (at_ 0x63 w live) c0 0x63 form3 w) ∧
    (let w := fw 1 2 3 6 4; tKnown (vType w) = true ∧ Issues (at_ 0x68 w live) c0 0x68 { form2 with fn := 7 } w) ∧
    (let w := fw 1 2 0 1 0x1F0F; vType w = 15 ∧
      Issues (at_ 0x6F w live) c0 0x6F { d := .v, a := .v, fn := 1, imm := 0x1F0F } w) := by decide

/-- What VectorMovesAndPermutes assumes holds somewhere. -/
theorem wit_VectorMovesAndPermutes :
    (let w := fw 31 30 0 0 4; tKnown (vType w) = true ∧ Issues (at_ 0x6A w live) c0 0x6A form1 w) ∧
    (let w := fw 31 30 0 0 2; tKnown (vType w) = true ∧ t8 (vType w) = false ∧
      canRead (at_ 0x6B w live) c0 w.a = true ∧ Issues (at_ 0x6B w live) c0 0x6B { d := .v, a := .sq, imm := 0xF } w) ∧
    (let w := fw 31 30 29 0 15; tKnown (vType w) = true ∧ Issues (at_ 0x74 w live) c0 0x74 form2 w) ∧
    (let w := fw 31 30 0 0 0x3FF; tKnown (vType w) = true ∧ Issues (at_ 0x75 w live) c0 0x75 { d := .v, a := .v, imm := 0x3FF } w) ∧
    Issues (at_ 0x76 (fw 1 31 0 0 63) live) c0 0x76 { d := .s, a := .v, imm := 0x3F } (fw 1 31 0 0 63) ∧
    (let w := fw 31 1 0 0 63; canRead (at_ 0x77 w live) c0 w.a = true ∧
      Issues (at_ 0x77 w live) c0 0x77 { d := .v, a := .sq, imm := 0x3F } w) := by decide

/-- What SegmentedReductions assumes holds somewhere. -/
theorem wit_SegmentedReductions :
    (let w := fw 31 30 0 0x16 15; tKnown (vType w) = true ∧ 2 ^ (w.fn.toNat % 16) ≤ (lanesOf live c0 w 30).length ∧
      (lanesOf live c0 w 30).length / 2 ^ (w.fn.toNat % 16) ≤ 64 ∧ Issues (at_ 0x70 w live) c0 0x70 { formRed with fn := 0x1F } w) ∧
    (let w := fw 31 30 0 0 15; (lanesOf live c0 w 30).length / 2 ^ (w.fn.toNat % 16) ≤ 64 ∧
      ∀ o ∈ [0x71, 0x72, 0x73], Issues (at_ o w live) c0 o formRed w) ∧
    (let w := fw 31 30 0 7 15; (lanesOf live c0 w 30).length < 2 ^ (w.fn.toNat % 16) ∧ Issues (at_ 0x71 w live) c0 0x71 formRed w) ∧
    (let w := fw 31 30 0 0 2; 64 < (lanesOf live c0 w 30).length / 2 ^ (w.fn.toNat % 16) ∧ Issues (at_ 0x71 w live) c0 0x71 formRed w) := by decide +kernel

/-- What TranscendentalResults assumes holds somewhere. -/
theorem wit_TranscendentalResults :
    (let w := fw 31 30 0 0 2; (vType w = 0 ∨ vType w = 2) ∧
      (∀ o ∈ [0x80, 0x81, 0x82, 0x83, 0x84, 0x85, 0x86, 0x87, 0x88, 0x89], Issues (at_ o w live) c0 o form1 w) ∧
      bit w.fn.toNat 0 = false ∧ Issues (at_ 0x8A w live) c0 0x8A formTrig w) ∧
    (let w := fw 31 30 0 1 0; (vType w = 0 ∨ vType w = 2) ∧ bit w.fn.toNat 0 = true ∧ Issues (at_ 0x8A w live) c0 0x8A formTrig w) := by decide

/-- What ConvertResults assumes holds somewhere. -/
theorem wit_ConvertResults :
    (let w := fw 31 30 0 0 0x30; ConvertTakes w (fmtCount (cvFS w)) ∧ Issues (at_ 0x90 w live) c0 0x90 { d := .v, a := .v, imm := 0x7FFFF } w) ∧
    (let w := fw 31 30 0 0 0x330; ¬ ConvertTakes w (fmtCount (cvFS w)) ∧ Issues (at_ 0x90 w live) c0 0x90 { d := .v, a := .v, imm := 0x7FFFF } w) ∧
    (let w := fw 31 30 29 0 0x300C30; ConvertTakes w (fmtCount (cvFS w)) ∧ ScaleTakes w ∧ cvForm w = 0 ∧
      Issues (at_ 0x91 w live) c0 0x91 { d := .v, a := .v, b := .v, imm := 0xFFFFFF } w) ∧
    (let w := fw 30 30 29 0 0xC00043; ConvertTakes w (fmtCount (cvFS w)) ∧ ScaleTakes w ∧ cvForm w = 1 ∧
      Issues (at_ 0x91 w live) c0 0x91 { d := .v, a := .v, b := .v, imm := 0xFFFFFF } w) ∧
    (let w := fw 31 30 29 0 0; ¬ ScaleTakes w ∧ Issues (at_ 0x91 w live) c0 0x91 { d := .v, a := .v, b := .v, imm := 0xFFFFFF } w) ∧
    (let w := fw 31 28 29 0 0x1300030; ConvertTakes w (max (blkSize (cvBS w)) (fmtCount (cvFS w))) ∧ GroupTakes w ∧
      convertSpan w (max (blkSize (cvBS w)) (fmtCount (cvFS w))) = (0, 256, 0) ∧
      Issues (at_ 0x92 w live) c0 0x92 { d := .v, a := .v, b := .v, imm := 0x13FFFFF } w) ∧
    (let w := fw 31 29 29 0 0x1300030; ¬ GroupTakes w ∧ Issues (at_ 0x92 w live) c0 0x92 { d := .v, a := .v, b := .v, imm := 0x13FFFFF } w) ∧
    (let w := fw 0 30 29 0 0x1000C30; scalable (cvFD w) = true ∧ cvPart w = 3 ∧
      Issues (at_ 0x93 w live) c0 0x93 { a := .v, b := .v, imm := 0x107FCF0 } w) ∧
    (let w := fw 0 30 29 0 0; scalable (cvFD w) = false ∧ Issues (at_ 0x93 w live) c0 0x93 { a := .v, b := .v, imm := 0x107FCF0 } w) := by refine ⟨?_, ?_, ?_, ?_, ?_, ?_, ?_, ?_, ?_⟩ <;> decide

/-- What OperandPorts assumes holds somewhere. -/
theorem wit_OperandPorts :
    (smGet 0 (port1.cx c0).qbind 0 = 3 + 1 ∧ (smGet [] (port1.cx c0).entries 3).length = 1) ∧
    (let w := fw 1 0x37 0 0 0; Issues (at_ 0 w port1) c0 0 formRRR w ∧ smGet 0 ((at_ 0 w port1).cx c0).qbind 7 = 0) ∧
    (let w := fw 1 0x30 0 0 0; let s := (at_ 0 w port1).setCx c0 { port1.cx c0 with entries := [] };
      Issues s c0 0 formRRR w ∧ smGet 0 (s.cx c0).qbind 0 = 3 + 1 ∧ smGet [] (s.cx c0).entries 3 = []) := by decide

/-- What SystemInstructions assumes holds somewhere. -/
theorem wit_SystemInstructions :
    (Issues (at_ 0xF0 (fw 0 0 0 0 0) live) c0 0xF0 {} (fw 0 0 0 0 0)) ∧
    (let w := fw 0 0 0 1 0; Issues (at_ 0xF1 w live) c0 0xF1 { fn := 1 } w ∧ fenceDone (at_ 0xF1 w live) c0 true = true) ∧
    (Issues (at_ 0xF2 (fw 0 0 0 0 0xFFFFFFFF) live) c0 0xF2 { imm := immAll } (fw 0 0 0 0 0xFFFFFFFF)) ∧
    (Issues (at_ 0xF3 (fw 0 0 0 0 0) live) c0 0xF3 {} (fw 0 0 0 0 0) ∧ fenceDone live c0 true = true) ∧
    (let w := fw 1 0 0 0 4; let s := at_ 0xE0 w live; Issues s c0 0xE0 { d := .s, imm := 0x1FFFFFF } w ∧
      (csrRead s .core (coreU c0) w.imm.toNat).isSome = true) ∧
    (let w := fw 1 0 0 0 0x1FFFFFF; let s := at_ 0xE0 w live; Issues s c0 0xE0 { d := .s, imm := 0x1FFFFFF } w ∧
      (csrRead s .core (coreU c0) w.imm.toNat).isNone = true) := by decide +kernel

/-- What TrapsArePrecise assumes holds somewhere. -/
theorem wit_TrapsArePrecise :
    (let s := at_ 0xFF (fw 0 0 0 0 0) live; canIssue s c0 = true ∧ opcodeMap.contains (imemWord s c0 (s.pc c0) / 2 ^ 56) = false) := by decide

/-- What TrappedCoreActions assumes holds somewhere. -/
theorem wit_TrappedCoreActions :
    (mayWrite .punty (.punty 0) .core (coreU c0) = true ∧ mayWrite .punty .firmware .core (coreU c0) = true) ∧
    (let s := takeTrap live c0 trBlockedSend 7; s.cst c0 = stTrapped ∧ (s.cx c0).ranOff = false ∧ s.pc c0 + 1 < 8192) ∧
    (coreLive live c0 = true ∧ live.cst c0 ≤ stWaitSync ∧ live.cst c0 ≠ stTrapped ∧ live.cst c0 ≠ stHalted ∧
      (live.cx c0).handleWait = none) ∧
    (let s := live.setCx c0 { live.cx c0 with handleWait := some (.destroy 1 0 2) };
      coreLive s c0 = true ∧ s.cst c0 ≤ stWaitSync ∧ (s.cx c0).handleWait = some (.destroy 1 0 2)) ∧
    (live.setCst c0 stHalted).cst c0 = stHalted := by decide

/-- What CsrWriteStatus assumes holds somewhere. -/
theorem wit_CsrWriteStatus :
    (let w := fw 1 2 0 0 0x200; let s := at_ 0xE1 w live; canRead s c0 w.a = true ∧
      Issues s c0 0xE1 { d := .s, a := .sq, imm := 0x1FFFFFF } w ∧ wordFields .core w.imm.toNat ≠ [] ∧ s.frozen = false ∧
      (csrStore s (.core c0) .core 0 0x200 0).map Prod.snd = some false) ∧
    (let w := fw 1 2 0 0 0x1FFFFFF; let s := at_ 0xE1 w live; Issues s c0 0xE1 { d := .s, a := .sq, imm := 0x1FFFFFF } w ∧
      wordFields .core 0x1FFFFFF = [] ∧ (csrStore s (.core c0) .core 0 0x1FFFFFF 0).isNone = true) ∧
    (let w := fw 1 0 0 0 0xC00; let s := { (at_ 0xE1 w live).wr Reg.CA_FMT_WFMT 0 2 with frozen := true };
      canRead s c0 w.a = true ∧ Issues s c0 0xE1 { d := .s, a := .sq, imm := 0x1FFFFFF } w ∧ s.frozen = true ∧
      (wordFields .core 0xC00).any (asksFrozen s 0 0) = true ∧ (csrStore s (.core c0) .core 0 0xC00 0).map Prod.snd = some true) := by decide +kernel

/-- What MatrixInstructions assumes holds somewhere. -/
theorem wit_MatrixInstructions :
    (let w := fw 0 0x21 0x22 0x38 0; let s := at_ 0x50 w passReady; Issues s c0 0x50 (formMpass w) w ∧
      (mpassDesc s c0 w).heritage = false ∧ aBase (rdA s c0 1) % 64 = 0 ∧ aBase (rdA s c0 2) % 64 = 0 ∧
      descCheck s c0 (geoOf s c0 0 0 false) (mpassDesc s c0 w) = 0 ∧ (mpassDesc s c0 w).fmtp = 0 ∧
      (mpassDesc s c0 w).mode = 0 ∧ blockFull (s.cx c0).passes = false ∧
      sbAdmits (s.cx c0).sb (passRanges (geoOf s c0 0 0 false) (mpassDesc s c0 w) 0) = true) ∧
    (let w := fw 0 0 0 0 0; let s := at_ 0x50 w live; Issues s c0 0x50 (formMpass w) w ∧
      descCheck s c0 (geoOf s c0 0 0 false) (mpassDesc s c0 w) ≠ 0) ∧
    (let w := fw 0 0 0 0 3; Issues (at_ 0x51 w live) c0 0x51 { imm := 3 } w) := by decide +kernel

/-- What StreamInstructions assumes holds somewhere. -/
theorem wit_StreamInstructions :
    (let w := fw 0 1 0 0 0; let s := at_ 0xB0 w strigReady; canRead s c0 w.a = true ∧ Issues s c0 0xB0 { a := .sq } w ∧
      s.rb Reg.DN_DESC_VALID 0 0 = true ∧ sd s 0 0 Reg.DN_DESC_TRIG ≠ 0 ∧ ownerCore s 0 0 = c0 ∧
      s.rb Reg.DN_SSTAT_PENDING 0 0 = false ∧ sbAdmits (s.cx c0).sb ((streamRanges s c0 0).filter fun e =>
        !(s.cx c0).sb.any fun o => o.owner == e.owner) = true) ∧
    (let w := fw 0 1 0 0 0; let s := at_ 0xB0 w live; Issues s c0 0xB0 { a := .sq } w ∧ s.rb Reg.DN_DESC_VALID 0 0 = false) ∧
    (let w := fw 0 1 0 0 0xFFFF; Issues (at_ 0xB1 w live) c0 0xB1 { a := .sq, imm := 0xFFFF } w) ∧
    (let w := fw 1 1 0 0 0; Issues (at_ 0xB2 w live) c0 0xB2 { d := .s, a := .sq } w) := by decide +kernel

/-- What RemoteLoadsAndStores assumes holds somewhere. -/
theorem wit_RemoteLoadsAndStores :
    (let w := fw 3 2 0 0 0; let s := at_ 0x24 w live; Issues s c0 0x24 { d := .s, a := .s } w ∧ mgaClass (mgaOperand c0 w s) ≠ 5 ∧
      mgaOperand c0 w s % 4 = 0 ∧ (mgaNode (mgaOperand c0 w s)) = some (.core c0) ∧ cacheable s c0 (mgaOperand c0 w s) = false ∧
      reachable s c0 (.core c0) = true) ∧
    (let w := fw 3 1 0 0 0; Issues (at_ 0x24 w live) c0 0x24 { d := .s, a := .s } w) ∧
    (let w := fw 0 2 1 0 0; let s := at_ 0x25 w live; Issues s c0 0x25 { a := .s, b := .sq } w ∧ canRead s c0 w.b = true ∧
      mgaClass (mgaOperand c0 w s) ≠ 3) ∧
    (let w := fw 0 2 1 0 0; let s := wrS (at_ 0x25 w live) c0 2 1; Issues s c0 0x25 { a := .s, b := .sq } w ∧ mgaOperand c0 w s % 4 ≠ 0) ∧
    (let w := fw 0 2 1 0 0; let s := wrS (gatherLive (at_ 0x25 w live)) c0 3 0x30000; Issues s c0 0x25 { a := .s, b := .sq } w ∧
      mgaClass (mgaOperand c0 w s) = 3 ∧ cacheable s c0 (mgaOperand c0 w s) = false ∧ coreGateOpen s c0 (phaseTag s c0) = false) := by decide +kernel

/-- What BarriersAndPhases assumes holds somewhere. -/
theorem wit_BarriersAndPhases :
    (∀ o ∈ [0xD0, 0xD1, 0xD2], Issues (at_ o (fw 0 0 0 0 63) live) c0 o { imm := 63 } (fw 0 0 0 0 63)) ∧
    hasArrived live c0 63 = false ∧ hasArrived (live.wr64 Reg.SY_ARR_LO Reg.SY_ARR_HI 0 1 63) c0 63 = true ∧
    gatherOf live c0 = none ∧
    (∀ o ∈ [0xD3, 0xD4], Issues (at_ o (fw 0 0 0 0 0) (gatherLive live)) c0 o {} (fw 0 0 0 0 0)) ∧
    gatherOf (gatherLive live) c0 = some ⟨0, 0⟩ ∧ (live.cx c0).phStarted = false ∧ (live.cx c0).passes = [] ∧
    (let s := live.setCx c0 { live.cx c0 with phStarted := true }; (s.cx c0).phStarted = true ∧ (s.cx c0).passes = [] ∧
      Issues (at_ 0xD4 (fw 0 0 0 0 0) (gatherLive s)) c0 0xD4 {} (fw 0 0 0 0 0)) := by decide +kernel

/-- What QueueSends assumes holds somewhere. -/
theorem wit_QueueSends :
    (let w := fw 0 1 0x1C 0 0; let s := at_ 0xC0 w sendReady; canRead s c0 w.a = true ∧ Issues s c0 0xC0 { d := .s, a := .sq, b := .s } w ∧
      lookSend s c0 0 false = .entry 0 ∧ s.rd Reg.CQ_S_ECRED 0 0 ≠ 0 ∧ outsideGather s c0 0 = false) ∧
    (let w := fw 1 1 0x1C 0 0; Issues (at_ 0xC1 w live) c0 0xC1 { d := .s, a := .sq, b := .s } w ∧
      lookSend (at_ 0xC1 w live) c0 0 false = .bad qsBadHandle) ∧
    (let w := fw 0 1 0x1D 0 0; Issues (at_ 0xC0 w live) c0 0xC0 { d := .s, a := .sq, b := .s } w) ∧
    (let w := fw 0 1 0x21 0 0; let s := (at_ 0xC2 w live).wr64 Reg.CS_AREG_LO Reg.CS_AREG_HI 0 (64 * 2 ^ 25) 1;
      Issues s c0 0xC2 { d := .s, a := .sq, b := .a } w ∧ aLen (rdA s c0 1) = 64 ∧ aBase (rdA s c0 1) + 64 ≤ spLimit s c0 ∧
      sbAdmits (s.cx c0).sb [bytesRange 0 64 false] = true) ∧
    (let w := fw 1 1 0x21 0 0; Issues (at_ 0xC3 w live) c0 0xC3 { d := .s, a := .sq, b := .a } w) := by decide +kernel

/-- What QueuePortInstructions assumes holds somewhere. -/
theorem wit_QueuePortInstructions :
    (let w := fw 0 1 0 7 1; let s := at_ 0xC4 w live; canRead s c0 w.a = true ∧ Issues s c0 0xC4 { a := .sq, fn := 7, imm := 1 } w) ∧
    (let w := fw 0 1 0 7 0; let s := wrS (at_ 0xC4 w port1) c0 1 3; canRead s c0 w.a = true ∧
      Issues s c0 0xC4 { a := .sq, fn := 7, imm := 1 } w ∧ s.rd Reg.CQ_Q_STATE 0 3 = 1 ∧ s.rd Reg.CQ_Q_STATE 0 0 = 0) ∧
    (let w := fw 0 0 0 0 0; let s := at_ 0xC5 w port1; Issues s c0 0xC5 { fn := 7 } w ∧ smGet 0 (s.cx c0).qbind 0 = 3 + 1) ∧
    (let w := fw 0 0 0 7 0; let s := at_ 0xC5 w port1; Issues s c0 0xC5 { fn := 7 } w ∧ smGet 0 (s.cx c0).qbind 7 = 0) ∧
    (let w := fw 1 0 0 7 0; let s := at_ 0xC6 w port1; Issues s c0 0xC6 { d := .s, fn := 7 } w ∧ smGet 0 (s.cx c0).qbind 7 = 0) ∧
    (let w := fw 1 0 0 0 0; Issues (at_ 0xC6 w port1) c0 0xC6 { d := .s, fn := 7 } w) := by decide

/-- What ChannelCreateAndDestroy assumes holds somewhere. -/
theorem wit_ChannelCreateAndDestroy :
    (let w := fw 1 2 3 0 0; let s := wrS (at_ 0xC7 w live) c0 2 0x100; canRead2 s c0 w = true ∧
      Issues s c0 0xC7 { d := .s, a := .sq, b := .sq } w ∧ createCheck s c0 0x100 0 = .ok 0 ∧ nodeOfNum 0 = some (.core c0) ∧
      reachable s c0 (.core c0) = true) ∧
    (let w := fw 1 2 3 0 0; let s := wrS (at_ 0xC7 w live) c0 3 1; Issues s c0 0xC7 { d := .s, a := .sq, b := .sq } w ∧
      createCheck s c0 0 1 = .error 4) ∧
    (let w := fw 1 2 0 0 0; let s := wrS (at_ 0xC8 w port1) c0 2 0x30000; canRead s c0 w.a = true ∧
      Issues s c0 0xC8 { d := .s, a := .sq } w ∧ handleCore 0x30000 = c0 ∧ handleIdx 0x30000 = 3 ∧ s.rd Reg.CQ_Q_STATE 0 3 = 1 ∧
      handleGen 0x30000 = s.rd Reg.CQ_Q_GEN 0 3 ∧ s.rb Reg.CQ_Q_PZ 0 3 = false ∧
      nodeOfNum (s.rd Reg.CQ_Q_SENDER 0 3) = some (.core c0) ∧ reachable s c0 (.core c0) = true) ∧
    (let w := fw 1 2 0 0 0; Issues (at_ 0xC8 w live) c0 0xC8 { d := .s, a := .sq } w ∧ live.rd Reg.CQ_Q_STATE 0 0 = 0) ∧
    (let w := fw 1 2 0 0 0; let s := wrS (at_ 0xC8 w port1) c0 2 0x30001; Issues s c0 0xC8 { d := .s, a := .sq } w ∧
      handleGen 0x30001 ≠ s.rd Reg.CQ_Q_GEN 0 3) := by decide +kernel

/-- What ScalarInstructionsFrame assumes holds somewhere. -/
theorem wit_ScalarInstructionsFrame :
    (let w := fw 1 2 0x30 0 0; canRead2 (at_ 10 w port1) c0 w = true ∧ Issues (at_ 10 w port1) c0 10 formRRR w) ∧
    (let w := fw 0 0x30 0 0 5; canRead (at_ 31 w port1) c0 w.a = true ∧ Issues (at_ 31 w port1) c0 31 formRRI w ∧
      ((at_ 31 w port1).cx c0).loops = [] ∧ (at_ 31 w port1).pc c0 + 1 < 8192) := by decide

/-- What InstructionsNeedTheirCore assumes holds somewhere. -/
theorem wit_InstructionsNeedTheirCore :
    canIssue State.reset c0 = false ∧ State.reset.rb Reg.BT_CLKSTAT_STOPPED c0.die.val = true ∧
    imemWord live c0 (live.pc c0) ≠ encodeI 0xF0 (fw 0 0 0 0 0) := by decide

/-- What ArrayBlockEvents assumes holds somewhere. -/
theorem wit_ArrayBlockEvents :
    (let s := blockAt .waiting; (loadingPass s c0).isSome = true ∧ bankShare s c0 ownTile ≠ 0 ∧
      bankShare ((blockAt .waiting).wr Reg.CP_BSLOT_LO 0 0 0) c0 ownTile = 0) ∧
    (let s := (blockAt .loaded).setCx c0 { (blockAt .loaded).cx c0 with shadow := some { fmtp := 0, hi := [], lo := [], scale := [] } };
      (((s.cx c0).passes.find? fun q => q.stage != .draining).map Pass.stage) = some .loaded ∧ (s.cx c0).shadow.isSome = true ∧
      s.rd Reg.LH_CSTATE_STATE 0 < 2) ∧
    (let s := blockAt .streaming; (streamingPass s c0).isSome = true ∧ bankShare s c0 ownWgt ≠ 0 ∧
      (geoOf s c0 0 0 false).isPair = false) ∧
    ((blockAt .draining).cx c0).passes.map Pass.stage = [.draining] ∧
    ((captured live).cx c0).capture.isSome = true := by decide +kernel

/-- What ScratchpadEvents assumes holds somewhere. -/
theorem wit_ScratchpadEvents :
    (let l := ([.rw, .qm] : List DynReq).eraseDups.filter fun q => q == .debug || !(arbOf live c0 3 q).backoff;
      arbWinner live c0 3 l = some .qm) ∧ bankOffered live c0 3 0 false = true ∧ bankOffered State.reset c0 3 0 true = false ∧
    ((live.setCx c0 { live.cx c0 with writeback := [5], mapWanted := [7] }).cx c0).writeback.contains (spBase c0 / 8 + 5) = true ∧
    (let s := (live.setCst c0 stIdle).setCx c0 { live.cx c0 with mapWanted := [7] };
      (s.cx c0).mapWanted.contains 7 = true ∧ (s.cx c0).mapping = none ∧ s.cst c0 = stIdle ∧ sparesUsed s c0 7 < 8) ∧
    (((live.setCx c0 { live.cx c0 with mapping := some 7 }).cx c0).mapping = some 7) ∧
    sparesUsed (live.setCx c0 { live.cx c0 with mapping := some 7 }) c0 7 < 8 ∧
    live.rb Reg.BT_CLKSTAT_STOPPED 0 = false ∧ mayWrite .fw .firmware .core 0 = true ∧
    (live.setCst c0 stIdle).cst c0 = stIdle ∧ live.cst c0 ≠ stIdle ∧ live.cst c0 ≠ stHalted ∧
    (live.wb Reg.CP_STAT_ZEROING 0 true).rb Reg.CP_STAT_ZEROING 0 = true ∧
    rcBytes (live.wr Reg.CP_CFG_RCSIZE 0 1) c0 ≠ 0 := by decide +kernel

/-- What SealVerdictsAndReruns assumes holds somewhere. -/
theorem wit_SealVerdictsAndReruns :
    (((gatherLive live).gx ⟨0, 0⟩).phases.map PhaseX.ph = [0] ∧ ((gatherLive live).gx ⟨0, 0⟩).phases.map PhaseX.ended = [false]) ∧
    (let s := ended live false; (s.gx ⟨0, 0⟩).phases.map PhaseX.ended = [true] ∧ phaseDeps s ⟨0, 0⟩ 0 = []) ∧
    (let s := (ended live true).wr Reg.PZ_LADDER_NRUNG 0 1 0; (s.gx ⟨0, 0⟩).phases.map PhaseX.range = [true] ∧
      phaseDeps s ⟨0, 0⟩ 0 = [] ∧ rungOf s ⟨0, 0⟩ < s.rd Reg.PZ_LADDER_NRUNG 0 0) ∧
    (let s := (ended live false).setGx ⟨0, 0⟩ { (ended live false).gx ⟨0, 0⟩ with rr := some 0 };
      (s.gx ⟨0, 0⟩).rr = some 0 ∧ (s.gx ⟨0, 0⟩).toFlush = [] ∧ (s.gx ⟨0, 0⟩).waitOn = [] ∧ startFree s ⟨0, 0⟩ = true ∧
        (s.gx ⟨0, 0⟩).phases.length = 1) := by decide +kernel

/-- What BarrierRounds assumes holds somewhere. -/
theorem wit_BarrierRounds :
    allArrived State.reset 0 0 = false ∧
    (let s := ((live.wr64 Reg.SY_GRP_MEMLO Reg.SY_GRP_MEMHI 0 1 0).wr64 Reg.SY_ARR_LO Reg.SY_ARR_HI 0 1 0).wb Reg.SY_GRP_OPEN 0 true 0;
      allArrived s 0 0 = true ∧ crossDie s 0 0 = false ∧ (s.dx 0).parityHeld.contains 0 = false ∧
      s.rb Reg.SY_GRP_PHASE 0 0 = false ∧ s.rb Reg.SY_GRP_OPEN 0 0 = true ∧ missing s 0 0 = 0 ∧ (s.sb (.die 0 0)).expect = 0 ∧
      sbWant s (.hub 0) = 0 ∧ syncStopped s 0 = false ∧
      (smGet 0 s.hubSync 0 ||| 1 ||| idleDies s 0) &&& s.rd Reg.SY_GRP_XDIE 0 0 = s.rd Reg.SY_GRP_XDIE 0 0) ∧
    (let s := (live.wr64 Reg.SY_GRP_MEMLO Reg.SY_GRP_MEMHI 0 3 0).wb Reg.SY_GRP_OPEN 0 true 0;
      s.rb Reg.SY_GRP_OPEN 0 0 = true ∧ syncStopped s 0 = false ∧ missing s 0 0 ≠ 0) ∧
    (let s := (live.wr64 Reg.SY_GRP_MEMLO Reg.SY_GRP_MEMHI 1 1 0).wr Reg.SY_GRP_XDIE 0 3 0;
      (smGet 0 s.hubSync 0 ||| 1 ||| idleDies s 0) &&& s.rd Reg.SY_GRP_XDIE 0 0 ≠ s.rd Reg.SY_GRP_XDIE 0 0 ∧ (s.dx 1).syncDue = none) ∧
    (∃ k : BitVec 8, crc8 40 (sbWord 2 (syncPayload true 0) 0) = k.toNat) ∧
    ∃ k : BitVec 8, crc8 40 (sbWord 2 (syncPayload false 0) 0) = k.toNat := by refine ⟨?_, ?_, ?_, ?_, ⟨BitVec.ofNat 8 (crc8 40 (sbWord 2 (syncPayload true 0) 0)), ?_⟩, ⟨BitVec.ofNat 8 (crc8 40 (sbWord 2 (syncPayload false 0) 0)), ?_⟩⟩ <;> decide +kernel

/-- What QueueMessagesAndCredit assumes holds somewhere. -/
theorem wit_QueueMessagesAndCredit :
    (Takes c0 port1 ∧ handleCore 0x30000 = c0 ∧ handleIdx 0x30000 = 3 ∧ port1.rd Reg.CQ_Q_STATE 0 3 = 1 ∧
      handleGen 0x30000 = port1.rd Reg.CQ_Q_GEN 0 3 ∧ (smGet [] (port1.cx c0).dropSet 3).contains 0 = false ∧
      (smGet [] (port1.cx c0).entries 3).length < depthOf (port1.rd Reg.CQ_Q_DEPTH 0 3) ∧ port1.rd Reg.CQ_Q_STATE 0 0 = 0 ∧
      ((gatherOf port1 c0).any fun g => (port1.gx g).toFlush.contains 0) = false ∧ findSend port1 c0 0 = none) ∧
    (findSend sendReady c0 0 = some 0 ∧ sendReady.cst c0 ≠ stWaitSend ∧ Takes c0 sendReady) ∧
    (let s := port1.setCx c0 { port1.cx c0 with dropSet := [(3, [5])], entries := [(3, List.replicate 64 ⟨5, 6, 7, 8, 0⟩)] };
      Takes c0 s ∧ (smGet [] (s.cx c0).dropSet 3).contains 5 = true ∧
        depthOf (s.rd Reg.CQ_Q_DEPTH 0 3) ≤ (smGet [] (s.cx c0).entries 3).length) ∧
    (let s := (gatherLive live).setGx ⟨0, 0⟩ { (gatherLive live).gx ⟨0, 0⟩ with toFlush := [0] };
      Takes c0 s ∧ ((gatherOf s c0).any fun g => (s.gx g).toFlush.contains 0) = true) ∧
    (let s := live.setCx c0 { live.cx c0 with cred := [(3, ⟨1, 0⟩)] };
      smGet (⟨0, 0⟩ : CredWait) (s.cx c0).cred 3 ≠ ⟨0, 0⟩ ∧ nodeOfNum (s.rd Reg.CQ_Q_SENDER 0 3) = some (.core c0) ∧ Takes c0 s) ∧
    smGet (⟨0, 0⟩ : CredWait) (live.cx c0).cred 3 = ⟨0, 0⟩ ∧
    (let s := live.wr Reg.CQ_Q_STATE 0 2 3; s.rd Reg.CQ_Q_STATE 0 3 = 2 ∧ Takes c0 s ∧ handleGen 0x30000 = s.rd Reg.CQ_Q_GEN 0 3 ∧
      (smGet [] (s.cx c0).entries 3).length < depthOf (s.rd Reg.CQ_Q_DEPTH 0 3)) ∧
    live.rd Reg.CQ_Q_STATE 0 3 ≠ 2 ∧ State.reset.rb Reg.BT_CLKSTAT_STOPPED 0 = true ∧
    (let s := live.wr Reg.LH_CSTATE_STATE 0 3; s.rb Reg.BT_CLKSTAT_STOPPED 0 = false ∧ 3 ≤ cstateOf s c0) ∧
    (runsOf live fun r => (r.ent.opc == opSend || r.ent.opc == opSendr) && r.ent.arg == 5) = [] := by decide +kernel

/-- What ChannelHandshakes assumes holds somewhere. -/
theorem wit_ChannelHandshakes :
    Takes c0 live ∧ (installSend live c0 0 false 8 0).isSome = true ∧
    (let s := live.setCx c0 { live.cx c0 with handleWait := some (.create 1 0 8 2) }; Takes c0 s ∧
      (s.cx c0).handleWait = some (.create (1 : Word).toNat 0 8 2)) ∧
    (let s := live.setCx c0 { live.cx c0 with handleWait := some (.destroy 1 0 2) };
      (s.cx c0).handleWait = some (.destroy 1 (handleIdx (1 : Word).toNat) 2)) ∧
    mayWrite .fw .firmware .core 0 = true ∧ (live.wb Reg.CQ_Q_PZ 0 true 3).rb Reg.CQ_Q_PZ 0 3 = true ∧
    port1.rb Reg.CQ_Q_PZ 0 3 = false ∧ port1.rd Reg.CQ_Q_STATE 0 3 = 1 ∧ port1.cst c0 ≠ stWaitQ ∧ Takes c0 port1 := by decide +kernel

/-- What ControlNetworkTraffic assumes holds somewhere. -/
theorem wit_ControlNetworkTraffic :
    mgaClass (64 : Nat) = 0 ∧ mgaCore 64 = c0 ∧ Takes c0 live ∧ served live 64 4 = true ∧ served live (2 ^ 25 - 4) 4 = false ∧
    winCheck (live.wb Reg.CP_WIN_EN 0 true 0) c0 0 4 0 = .accept none ∧
    (let s := live.setCx c0 { live.cx c0 with reqs := [⟨7, 64, 3, true, false⟩, ⟨8, 64, 0, false, false⟩] };
      findReq s c0 7 true = some ⟨7, 64, 3, true, false⟩ ∧ findReq s c0 8 false = some ⟨8, 64, 0, false, false⟩ ∧ Takes c0 s) ∧
    (let s := (live.setCx c0 { live.cx c0 with waking := some true }).wr Reg.LH_CSTATE_STATE 0 3;
      (s.cx c0).waking = some true ∧ (s.pw 0).ups = [] ∧ smGet [] s.ejected 0 = [] ∧ cstateOf s c0 = 3) := by decide +kernel

/-- What BlockedSendsResolve assumes holds somewhere. -/
theorem wit_BlockedSendsResolve :
    (let s := live.setCst c0 stWaitSend; coreLive s c0 = true ∧ s.cst c0 = stWaitSend) ∧
    handleCore 0 = c0 ∧ (handleCore 0x40000000).die ≠ c0.die ∧ ((live.bx 0).blocked.contains ⟨c0, 0, 0⟩ = false) ∧
    (let a : BlockReport := ⟨c0, 1, 2⟩; let b : BlockReport := ⟨⟨0, 1⟩, 2, 1⟩;
      let s := setReports (((live.setCst c0 stTrapped).wr Reg.CS_TRAP_CODE 0 9).setCst ⟨0, 1⟩ stTrapped |>.wr Reg.CS_TRAP_CODE 1 9) 0 [a, b];
      (s.bx 0).blocked.contains a = true ∧ (s.bx 0).blocked.contains b = true ∧ coreU a.core < coreU b.core ∧ a.dest = b.own ∧
      b.dest = a.own ∧ s.cst a.core = stTrapped ∧ s.rd Reg.CS_TRAP_CODE (coreU a.core) = trBlockedSend ∧ s.pc a.core + 1 < 8192 ∧
      s.cst b.core = stTrapped ∧ s.rd Reg.CS_TRAP_CODE (coreU b.core) = trBlockedSend ∧ (s.cx b.core).ranOff = false ∧
      collectorOf (.die 0) = 0) := by decide +kernel

/-- What RegisterAndApertureAccess assumes holds somewhere. -/
theorem wit_RegisterAndApertureAccess :
    unitServed live .firmware ⟨.core, 0, 0x200⟩ = true ∧ (csrStore live .firmware .core 0 0x200 0).isSome = true ∧
    (csrRead live .core 0 0x200).isSome = true ∧ (csrRead live .core 0 0x1FFFFFC).isNone = true ∧
    (let s := hostLive; s.host.link = true ∧ s.host.d3 = false ∧ hostOpen s = true ∧ bar2Mga s 64 = some 64 ∧ served s 64 4 = true ∧
      mgaClass 64 = 0 ∧ bar2Mga s (2 ^ 32) = none ∧ lockedAt s 64 1 = false ∧ unitServed s .host ⟨.core, 255, 0x200⟩ = false) ∧
    (let s := hostLive.wb Reg.HB_HOSTCFG_IDE_REQ 0 true; s.host.link = true ∧ s.host.d3 = false ∧ hostOpen s = false) := by decide +kernel

/-- What FencesAndShifts assumes holds somewhere. -/
theorem wit_FencesAndShifts :
    mayWrite .punty (.punty 0) .die 0 = true ∧ hostsCore live 0 0 3 = true ∧ posState live 0 0 9 = psSpare ∧ hostsCore live 0 0 9 = false ∧
    smGet psQuarantine (live.dx 0).fenceTo 9 = psQuarantine ∧ smGet none (live.dx 0).shifts 0 = none ∧
    (let s := requestFence (oneGather live) 0 0 [0]; soleGather s 0 0 = some ⟨0, 0⟩ ∧ (s.gx ⟨0, 0⟩).inPhase = false ∧
      (s.gx ⟨0, 0⟩).toFlush = [] ∧ smGet none (s.dx 0).shifts 0 = none) ∧
    (let s := live.setDx 0 { live.dx 0 with shifts := [(0, some ⟨[1, 2, 3, 4, 5, 6, 7, 8], [0, 1, 2, 3, 4, 5, 6, 7]⟩)] };
      smGet none (s.dx 0).shifts 0 = some ⟨[1, 2, 3, 4, 5, 6, 7, 8], [0, 1, 2, 3, 4, 5, 6, 7]⟩ ∧
      sparesRising s 0 ([1, 2, 3, 4, 5, 6, 7, 8].map (10 * 0 + ·)) = false) := by decide +kernel

/-- What StreamRuns assumes holds somewhere. -/
theorem wit_StreamRuns :
    (let s := ((strigReady.setSx 0 0 { strigReady.sx 0 0 with armed := true }).wr Reg.DN_DESC_SRCK 0 skSp 0).setDx 0
      { live.dx 0 with token := some 0 }; (s.sx 0 0).armed = true ∧ (s.sx 0 0).active = false ∧ (s.dx 0).token.isSome = true ∧
      s.rb Reg.DN_DESC_VALID 0 0 = true ∧ sd s 0 0 Reg.DN_DESC_DSTK ≠ skStk ∧ sd s 0 0 Reg.DN_DESC_SRCK = skSp ∧
      slotOf s 0 = sd s 0 0 Reg.DN_DESC_START ∧ sd (s.wr Reg.DN_DESC_SRCK 0 skStk 0) 0 0 Reg.DN_DESC_SRCK ≠ skSp) ∧ (live.sx 0 0).armed = false ∧ runDone live 0 0 = false ∧
    (let s := (strigReady.setSx 0 0 { strigReady.sx 0 0 with active := true }).wb Reg.DN_SSTAT_ACTIVE 0 true 0;
      (s.sx 0 0).active = true ∧ s.rb Reg.DN_SSTAT_ACTIVE 0 0 = true ∧ mayWrite .punty (.punty 0) .die 0 = true ∧ s.gathers = []) ∧
    (let s := (strigReady.wr Reg.DN_DESC_SRCK 0 skSp 0).wr Reg.DN_DESC_ROWLEN 0 1 0;
      runDone (s.setSx 0 0 { s.sx 0 0 with active := true, back := [(0, 1)] }) 0 0 = true ∧ s.rb Reg.DN_SSTAT_PENDING 0 0 = false ∧
      s.gathers = []) := by decide +kernel

/-- What RoutersAndSlotTables assumes holds somewhere. -/
theorem wit_RoutersAndSlotTables :
    (tabEnt live c0 2 5).v = false ∧
    (let s := routed; (tabEnt s c0 2 5).v = true ∧ (s.dx 0).token.isSome = true ∧ routerMarked s 0 = false ∧
      s.rb Reg.BT_CLKSTAT_STOPPED 0 = false ∧ slotOf s 0 = 5 ∧ smGet 0 (s.rx c0).acted 2 ≠ nclkNow s + 1 ∧
      outReady s c0 2 (tabEnt s c0 2 5) = true ∧ (tabEnt s c0 2 5).fold = false ∧
      (tabEnt s c0 2 5).inp = 4 ∧ ((smGet [] (s.rx c0).ins 4).find? fun f => f.2.stream == 7).isSome = true ∧
      (tabEnt s c0 2 5).stream = 7 ∧ (smGet [] (s.rx c0).ins 4).length = 1 ∧ 0 + s.rd Reg.DN_FRAME_FLEN 0 > nclkNow s) ∧
    (let s := routed.wr Reg.DN_FRAME_FLEN 0 0; 0 + s.rd Reg.DN_FRAME_FLEN 0 ≤ nclkNow s ∧ s.rb Reg.BT_CLKSTAT_STOPPED 0 = false) ∧
    (BitVec.ofNat 8 (crc8 40 (sbWord 1 0 0))).toNat = crc8 40 (sbWord 1 0 0) ∧ (live.sb (.die 0 0)).expect = 0 ∧
    mayWrite .fw .firmware .die 0 = true ∧ live.rb Reg.DN_TBLSEL_PEND 0 = false ∧
    (let s := (live.wb Reg.DN_TBLSEL_PEND 0 true).setDx 0 { live.dx 0 with swapReady := true, token := some 0 };
      s.rb Reg.DN_TBLSEL_PEND 0 = true ∧ (∀ e : DieId, s.rb Reg.DN_TBLSEL_PEND e.val = true → swapFree s e = true) ∧
      (s.dx 0).token.isSome = true ∧ slotOf s 0 = 0 ∧ bankOf s 0 < 2 ∧
      (∀ e : DieId, s.rb Reg.DN_TBLSEL_PEND e.val = true → setUsable s e = true)) ∧
    (let s := ((((((live.wb Reg.DN_TBLSEL_PEND 0 true).wr Reg.DN_FRAME_FLEN 0 1).wr Reg.DN_TAB_V 0 1 1 0).wr Reg.CN_FAIL_FAIL 0 1 0)
        ).setDx 0 { live.dx 0 with swapReady := true, token := some 0 });
      (∀ e : DieId, s.rb Reg.DN_TBLSEL_PEND e.val = true → swapFree s e = true) ∧ slotOf s 0 = 0 ∧ setUsable s 0 = false) := by decide +kernel

/-- What LinkGroupsAndRepair assumes holds somewhere. -/
theorem wit_LinkGroupsAndRepair :
    portState live (.die 0 1) ≠ lkUp ∧ mayWrite .fw .firmware .die 0 = true ∧
    (let s := live.wr Reg.LKH_STAT_STATE 0 2 8; portState s (.span 0) = lkUp ∧
      (match checkSpan (countFec (sendSpan s 0) (.span 0) ⟨[], 1, 0, 0⟩) 0 ⟨[], 1, 0, 0⟩ with | .bad _ => true | _ => false) = true) ∧
    (let s := (live.wr Reg.LK_STAT_STATE 0 2 3).wr Reg.LK_STAT_STATE 1 2 1; portState s (.die 0 3) = lkUp ∧
      (formGroup s (.die 1 1)).2.isSome = true) ∧
    (let s := (live.wr Reg.LK_STAT_STATE 0 2 3); portState s (.die 0 3) = lkUp ∧ peerPort (.die 0 3) = some (.die 1 1) ∧
      portState s (.die 1 1) ≠ lkUp) ∧
    (let s := (live.wr Reg.LK_STAT_STATE 0 2 3).setPx (.die 0 3) { live.px (.die 0 3) with replay := [⟨5, [], none, none, 0, 0, 0⟩] };
      portState s (.die 0 3) = lkUp ∧ ((s.px (.die 0 3)).replay.map (·.gseq)) = [5] ∧ (s.px (.die 0 3)).lastRpl ≠ some 5) := by decide +kernel

/-- What LinkGroupsAndRepair assumes holds somewhere. -/
theorem wit_LinkGroupsAndRepairSpan :
    let s := live.wr Reg.LKH_STAT_STATE 0 2 8
    portState s (.span 0) = lkUp ∧ (s.px (.span 0)).lastRpl = none ∧ ∃ g : SpanGroup, ∀ t, t = countFec (sendSpan s 0) (.span 0) g →
      checkSpan t 0 g = .auth ∨ ∃ y ack nak rpl, checkSpan t 0 g = .good y ack nak rpl := by
  have hk : crc32 2128 0 < 2 ^ 32 := Nat.lt_of_le_of_lt (Nat.sub_le _ _) (by decide)
  generalize h0 : crc32 2128 0 = k at hk
  let v := ((List.range 30).map fun j => 2 ^ (288 + 112 * j)).sum * k
  have hc : crc32 4064 v < 2 ^ 32 := Nat.lt_of_le_of_lt (Nat.sub_le _ _) (by decide)
  refine ⟨by decide +kernel, by decide +kernel, ⟨[], BitVec.ofNat _ (v + 2 ^ 4064 * crc32 4064 v), 0, 0⟩, ?_⟩
  intro t _
  have hv : v < 2 ^ 4064 := by
    have : ((List.range 30).map fun j => 2 ^ (288 + 112 * j)).sum * 2 ^ 32 ≤ 2 ^ 4064 := by decide +kernel
    exact Nat.lt_of_lt_of_le (Nat.mul_lt_mul_of_pos_left hk (by decide +kernel)) this
  have e1 : (v + 2 ^ 4064 * crc32 4064 v) % 2 ^ 4096 = v + 2 ^ 4064 * crc32 4064 v := by
    apply Nat.mod_eq_of_lt
    omega
  have hb : beatOk 0 (v + 2 ^ 4064 * crc32 4064 v) [] = true := by
    unfold beatOk
    rw [Bool.and_eq_true]
    refine ⟨?_, ?_⟩
    · have a1 : (v + 2 ^ 4064 * crc32 4064 v) % 2 ^ 4064 = v := by omega
      have a2 : bits (v + 2 ^ 4064 * crc32 4064 v) 4064 32 = crc32 4064 v := by unfold bits; omega
      have a3 : beatBits 0 - 32 = 4064 := by decide
      rw [a3, a1, a2]
      exact beq_self_eq_true _
    · rw [List.all_eq_true]
      intro j hj
      have h30 : j < 30 := by simpa [widthFlits] using hj
      have hs : ∀ j < 30, ((List.range 30).map fun j => 2 ^ (288 + 112 * j)).sum =
          ((List.range 30).map fun j => 2 ^ (288 + 112 * j)).sum % 2 ^ (208 + 112 * j) + 2 ^ (208 + 112 * j) * (2 ^ 80 * (1 + 2 ^ 32 *
            (((List.range 30).map fun j => 2 ^ (288 + 112 * j)).sum / 2 ^ (320 + 112 * j)))) ∧
          ((List.range 30).map fun j => 2 ^ (288 + 112 * j)).sum % 2 ^ (208 + 112 * j) * (2 ^ 32 - 1) < 2 ^ (208 + 112 * j) := by
        decide +kernel
      have hr : ∀ n, n = 4064 → (2 : Nat) ^ n = 2 ^ (208 + 112 * j) * (2 ^ 80 * (2 ^ 32 * 2 ^ (3744 - 112 * j))) := by
        intro n hn
        rw [show n = (208 + 112 * j) + (80 + (32 + (3744 - 112 * j))) by omega, Nat.pow_add 2 (208 + 112 * j), Nat.pow_add 2 80, Nat.pow_add 2 32]
      replace hr := hr 4064 rfl
      obtain ⟨h1, h2⟩ := hs j h30
      generalize ((List.range 30).map fun j => 2 ^ (288 + 112 * j)).sum % 2 ^ (208 + 112 * j) = b at h1 h2
      generalize ((List.range 30).map fun j => 2 ^ (288 + 112 * j)).sum / 2 ^ (320 + 112 * j) = a at h1
      have hlo : b * k < 2 ^ (208 + 112 * j) := by
        exact Nat.lt_of_le_of_lt (Nat.mul_le_mul_left b (Nat.le_sub_one_of_lt hk)) h2
      have hd : (v + 2 ^ 4064 * crc32 4064 v) / 2 ^ (208 + 112 * j) =
          2 ^ 80 * (k + 2 ^ 32 * (a * k + 2 ^ (3744 - 112 * j) * crc32 4064 v)) := by
        have hvv : v + 2 ^ 4064 * crc32 4064 v = b * k + 2 ^ (208 + 112 * j) *
            (2 ^ 80 * (k + 2 ^ 32 * (a * k + 2 ^ (3744 - 112 * j) * crc32 4064 v))) := by
          have h3 : v = (b + 2 ^ (208 + 112 * j) * (2 ^ 80 * (1 + 2 ^ 32 * a))) * k := by rw [← h1]
          generalize crc32 4064 v = c
          generalize (2 : Nat) ^ 4064 = q at hr ⊢
          rw [h3, hr]
          ring
        rw [hvv, Nat.add_mul_div_left _ _ (Nat.two_pow_pos _), Nat.div_eq_of_lt hlo, Nat.zero_add]
      have ht : beatTags (v + 2 ^ 4064 * crc32 4064 v) j = 0 := by
        unfold beatTags bits
        rw [hd, Nat.mul_mod_right]
      have hq : beatCrc (v + 2 ^ 4064 * crc32 4064 v) j = k := by
        unfold beatCrc bits
        rw [pow_add, ← Nat.div_div_eq_div_mul, hd, Nat.mul_div_cancel_left _ (by decide), Nat.add_mul_mod_self_left,
          Nat.mod_eq_of_lt hk]
      rw [ht, hq]
      simp only [Nat.mul_zero, Nat.add_zero, List.getElem?_nil, Option.getD_none, h0, beq_self_eq_true]
  unfold checkSpan
  simp only [BitVec.toNat_ofNat, e1, List.map_nil, hb, Bool.not_true, Bool.false_eq_true, if_false]
  split <;> simp

/-- What SidebandAndClocks assumes holds somewhere. -/
theorem wit_SidebandAndClocks :
    (live.sb (.die 0 3)).expect = 0 ∧ sbWant live (.hub 0) = 0 ∧ (∀ ty pl q, ∃ k : BitVec 8, crc8 40 (sbWord ty pl q) = k.toNat) ∧
    (∀ ty pl q, ∃ k : BitVec 8, crc8 40 (sbWord ty pl q) ≠ k.toNat) ∧
    (csrRead (live.setSb (.die 0 0) { live.sb (.die 0 0) with expect := 1 }) .die 0 0x100).isSome = true ∧
    (csrRead (live.setSb (.die 0 0) { live.sb (.die 0 0) with expect := 1 }) .die 0 0xFFFFFC).isNone = true ∧
    live.rb Reg.BT_CLKSTAT_STOPPED 0 = false ∧ State.reset.rb Reg.BT_CLKSTAT_STOPPED 0 = true ∧
    (let s := live.setSb (.die 0 0) { live.sb (.die 0 0) with next := 1, sent := [⟨3, 0⟩] };
      (s.sb (.die 0 0)).sent = [] ++ [⟨3, 0⟩] ∧ ((s.sb (.die 0 0)).next + 16 - 0) % 16 = 1) := by
  have hr : ∀ n v c, c < 2 ^ 8 → crc8Run n v c < 2 ^ 8 := by
    intro n
    induction n with
    | zero => exact fun _ _ h => h
    | succ n ih => exact fun v c _ => ih _ _ (Nat.xor_lt_two_pow (Nat.mod_lt _ (by decide)) (by split <;> decide))
  have hb : ∀ ty pl q, crc8 40 (sbWord ty pl q) < 256 := fun ty pl q => hr _ _ _ (by decide)
  refine ⟨by decide +kernel, by decide +kernel, fun ty pl q => ⟨BitVec.ofNat 8 (crc8 40 (sbWord ty pl q)), ?_⟩,
    fun ty pl q => ⟨BitVec.ofNat 8 (crc8 40 (sbWord ty pl q) + 1), ?_⟩, by decide +kernel⟩
  · rw [BitVec.toNat_ofNat, Nat.mod_eq_of_lt (hb ty pl q)]
  · rw [BitVec.toNat_ofNat]
    have := hb ty pl q
    omega

/-- What FaultJudgement assumes holds somewhere. -/
theorem wit_FaultJudgement :
    (let x : FaultItem := { cls := 0, unit := 0, pos := 0, item := 0, stamps := [10] };
      (x.stamps.filter fun a => decide (20 - a ≤ 50)).length + 1 < 3 ∧ 2 ≤ (x.stamps.filter fun a => decide (20 - a ≤ 50)).length + 1 ∧
      x.stoneAt ≠ some 4) ∧
    gatherDefined (gatherLive live) ⟨0, 0⟩ = true ∧ mayWrite .punty (.punty 0) .die 0 = true ∧
    nodeDie (.core c0) = some 0 ∧ live.rb Reg.BT_CLKSTAT_STOPPED 0 = false ∧ Takes c0 live ∧
    (let s := setPos live 0 0 9 psQuarantine |>.wr Reg.FT_SCAN_COL 0 9; s.rb Reg.FT_SCAN_BUSY 0 = false ∧ s.rd Reg.FT_SCAN_COL 0 < 10 ∧
      posState s 0 (s.rd Reg.FT_SCAN_ROW 0) (s.rd Reg.FT_SCAN_COL 0) = psQuarantine) ∧
    recovering live 0 = false ∧ (rotationPick (live.wr Reg.FT_ROT_INTV 0 7) 0 [(0, 3)]).isSome = true ∧
    (let s := { live with manage := { live.manage with unacked := [(1, .record 5, 2)] } };
      (s.manage.unacked.find? fun u => u.1 == 1 && u.2.1 == .record 5) = some (1, .record 5, 2)) := by decide +kernel

/-- What LossesHoldsAndRecalls assumes holds somewhere. -/
theorem wit_LossesHoldsAndRecalls :
    portState live (.die 0 1) = lkDown ∧ lkDown ≠ lkTraining ∧ lkDown ≠ lkRetrain ∧
    (let s := (live.wr Reg.LK_STAT_STATE 0 1 3).wr Reg.LKH_STAT_STATE 0 1 8; portState s (.die 0 3) = lkTraining ∧
      portState s (.span 0) = lkTraining ∧ trained (trainLanes s (.die 0 3) ⟨[], 0, 0⟩ ⟨[], 0, 0⟩) (.die 0 3) true 24 = true ∧
      trained (trainLanes s (.die 0 3) ⟨[], 0, 0⟩ ⟨[], 0, 0⟩) (.die 0 3) true 25 = false) ∧
    (let s := (live.wr Reg.LKH_STAT_STATE 0 1 8).setSpx 0 { live.spx 0 with lanes := (List.range 8).map fun k => (k, (1, 0)) };
      let u := trainLanes s (.span 0) ⟨[], 0, 0⟩ ⟨[], 0, 0⟩;
      portState s (.span 0) = lkTraining ∧ trained u (.span 0) true 0 = true ∧ (u.spx 0).keyed = false ∧
      ((trainLanes (s.setSpx 0 { s.spx 0 with keyed := true }) (.span 0) ⟨[], 0, 0⟩ ⟨[], 0, 0⟩).spx 0).keyed = true) ∧
    bit ((live.wr Reg.BT_CLKSTAT_PORT_CLK_OK 0 4).rd Reg.BT_CLKSTAT_PORT_CLK_OK 0) 2 = true ∧ sbWant live (.hub 0) = 0 ∧
    (BitVec.ofNat 8 (crc8 40 (sbWord 3 0 0))).toNat = crc8 40 (sbWord 3 0 0) ∧ live.rd Reg.FT_DIE_STATE 0 0 = 0 ∧ (live.wr Reg.LH_ISL_HDR 0 2 3).rd Reg.LH_ISL_HDR 0 3 ≠ 0 ∧
    (live.wr Reg.LH_ISL_HDR 0 0 3).rd Reg.LH_ISL_HDR 0 3 = 0 ∧ rdT (wrT live 0 Reg.TS_STAT_STATE tsUp) 0 Reg.TS_STAT_STATE = tsUp ∧
    coreLive live c0 = true ∧ live.cst c0 ≤ stWaitSync ∧ mayWrite .punty (.punty 0) .die 0 = true ∧
    gatherDefined (gatherLive live) ⟨0, 0⟩ = true ∧ ((gatherLive live).gx ⟨0, 0⟩).phases.length = 1 ∧
    strigReady.rb Reg.DN_SSTAT_ACTIVE 0 0 = false ∧ strigReady.rb Reg.DN_DESC_VALID 0 0 = true ∧
    (live.wb Reg.DN_SSTAT_ACTIVE 0 true 0).rb Reg.DN_SSTAT_ACTIVE 0 0 = true := by decide +kernel

/-- What MarginLevelsRefused assumes holds somewhere. -/
theorem wit_MarginLevelsRefused :
    (3#4).toNat ≤ (7#4).toNat ∧ 0x73F0 / 2 ^ 8 % 16 ≤ 0x73F0 / 2 ^ 12 % 16 := by decide

/-- What PairValues assumes holds somewhere. -/
theorem wit_PairValues :
    decodeElem 2 0x3F80 = .fin false 128 (-7) ∧ decodeElem 2 0xC000 = .fin true 128 (-6) ∧ decodeElem 2 0x7F80 = .inf false ∧
    decodePair 0x7F80 0x3F80 = .inf false ∧ decodePair 0x7F80 0xFF80 = .nan := by decide +kernel

/-- What ReferenceRatiosAndMargins assumes holds somewhere. -/
theorem wit_ReferenceRatiosAndMargins :
    (let s := (live.wb Reg.HB_CLKSTAT_HOLDOVER 0 false).wb Reg.HB_CLKSTAT_PLL_LOCK 0 true;
      s.rb Reg.HB_CLKSTAT_HOLDOVER 0 = false ∧ s.rb Reg.HB_CLKSTAT_PLL_LOCK 0 = true) ∧
    (let s := live.wb Reg.HB_CLKSTAT_HOLDOVER 0 true;
      s.rb Reg.HB_CLKSTAT_HOLDOVER 0 = true ∧ s.rb Reg.HB_CLKSTAT_HOLD_EXPIRED 0 = false ∧ portState s (.span 0) = lkDown ∧
        portState s (.span 0) ≠ lkUp ∧ portState (s.wr Reg.LKH_STAT_STATE 0 2 8) (.span 0) = lkUp) ∧
    (let s := (live.setSpx 0 { live.spx 0 with cable := true, heldOver := true }).wr Reg.HB_ID_SPAN 0 2;
      spanMayTrain { s with chip := { s.chip with owner := some ⟨1, [], 5, false, false⟩ } } 0 = true ∧ (s.spx 0).heldOver = true ∧
        (s.spx 1).heldOver = false) := by decide +kernel

/-- What ReferenceRatiosAndMargins assumes holds somewhere. -/
theorem wit_RatiosAndMargins :
    gatherDefined live ⟨0, 0⟩ = false ∧ gatherDefined (gatherLive live) ⟨0, 0⟩ = true ∧
    mayWrite .lehr (.core c0) .die 0 = false ∧ mayWrite .lehr (.lehr 0) .die 0 = true ∧
    (let s := ((gatherLive live).wr Reg.LH_GACLK_REQ 0 3).wb Reg.LH_GACLK_PENDING 0 true;
      s.rb Reg.LH_GACLK_PENDING 0 0 = true ∧ (s.gx ⟨0, 0⟩).inPhase = false ∧ (s.gx ⟨0, 0⟩).changed = false ∧
        (s.gx ⟨0, 0⟩).stop = none ∧ s.rb Reg.BT_CLKSTAT_STOPPED 0 = false ∧
        s.rd Reg.LH_GACLK_APPLIED 0 0 ≤ s.rd Reg.LH_GACLK_REQ 0 0) ∧
    (let s := ((live.wr Reg.LH_GACLK_REQ 0 0).wr Reg.LH_GACLK_APPLIED 0 3).wr Reg.LH_VDDL_VSET 0 1;
      s.rd Reg.LH_GACLK_REQ 0 0 < s.rd Reg.LH_GACLK_APPLIED 0 0 ∧ s.rd Reg.LH_VDDL_VSET 0 < vminOf s 0 0) ∧
    live.rd Reg.LH_CRZ_CRIT_LVL 0 0 = 2 ∧ live.rd Reg.LH_CRZ_WARN_LVL 0 0 = 4 ∧
    vsetRaw live 0 (min 6 (live.rd Reg.LH_VDDL_CRZOFF 0 + 1)) ≤ live.rd Reg.LH_VMAX_VMAX 0 ∧
    vsetRaw live 0 (min 6 (live.rd Reg.LH_VDDL_CRZOFF 0 + 2)) ≤ live.rd Reg.LH_VMAX_VMAX 0 ∧
    bit ((live.wr Reg.LH_VDDL_SENSEOK 0 9).rd Reg.LH_VDDL_SENSEOK 0) 3 = true ∧ live.rd Reg.LH_VDDL_SENSEOK 0 < 16 ∧
    bit ((live.wr Reg.LH_VDDL_SENSEOK 0 7).rd Reg.LH_VDDL_SENSEOK 0) 3 = false := by decide +kernel

/-- What EstimatesStagingAndCap assumes holds somewhere. -/
theorem wit_EstimatesStagingAndCap :
    (live.pw 0).estSum = 0 ∧ (List.replicate 16 (⟨0, 0, 0, 0, 0, 0, 0, 0, 0, 0, 60⟩ : IslandSample)).length = 16 ∧
    (let s := live.setPw 0 { live.pw 0 with estSum := 1000000, estN := 1, stackHot := [1] };
      (s.pw 0).estSum ≠ 0 ∧ 4 * (s.pw 0).estSum ≤ 5 * (1000 * 1000 * (s.pw 0).estN) ∧
        4 * (1000 * 1000 * (s.pw 0).estN) ≤ 5 * (s.pw 0).estSum ∧ (s.pw 0).stackHot ≠ []) ∧
    (let s := live.setPw 0 { live.pw 0 with ups := [⟨2, true, [1, 2], false⟩, ⟨4, false, [1, 2], true⟩, ⟨6, false, [9], true⟩, ⟨8, true, [5], true⟩] };
      (s.pw 0).ups.find? (fun q => groupOf q.isl == groupOf 2) = some ⟨2, true, [1, 2], false⟩ ∧
      (s.pw 0).ups.find? (fun q => groupOf q.isl == groupOf 3) = some ⟨2, true, [1, 2], false⟩ ∧
      (s.wb Reg.LH_ISL_WAIT 0 true 2).rb Reg.LH_ISL_WAIT 0 2 = true ∧
      (s.pw 0).ups.find? (fun q => q.isl == 4 && q.staged) = some ⟨4, false, [1, 2], true⟩ ∧
      (s.pw 0).ups.find? (fun q => q.isl == 6 && q.staged) = some ⟨6, false, [9], true⟩ ∧
      (s.pw 0).ups.find? (fun q => q.isl == 8 && q.staged) = some ⟨8, true, [5], true⟩) ∧
    (live.pw 4).bucket.2 + 1 < 10 ∧
    10 ≤ ((live.setPw 4 { live.pw 4 with bucket := (5, 9) }).pw 4).bucket.2 + 1 ∧
    gathersOn live 0 = [] ∧ gathersOn (gatherLive live) 0 ≠ [] := by decide +kernel

/-- What EstimatesStagingAndCap assumes holds somewhere. -/
theorem wit_CapShares :
    (let s := (live.setPw 4 { live.pw 4 with buckets := [60000000000] }).wr Reg.LH_MCAP_CAP 0 5000;
      s.rd Reg.LH_MCAP_CAP 0 * ((windowSum s 4).2 * 10000000) < (windowSum s 4).1 ∧ s.rd Reg.FT_DIE_STATE 0 0 ≠ 4) ∧
    (let s := ((live.setPw 4 { live.pw 4 with buckets := [30000000000] }).wr Reg.LH_MCAP_CAP 0 5000).wr Reg.LH_SHARE_PZ 0 1000;
      100 * (windowSum s 4).1 < 97 * (s.rd Reg.LH_MCAP_CAP 0 * ((windowSum s 4).2 * 10000000)) ∧ shareSum s ≠ 0 ∧
      s.rd Reg.LH_SHARE_PZ 0 < 4096) ∧
    (let s := (live.setPw 4 { live.pw 4 with buckets := [49000000000] }).wr Reg.LH_MCAP_CAP 0 5000;
      (windowSum s 4).1 ≤ s.rd Reg.LH_MCAP_CAP 0 * ((windowSum s 4).2 * 10000000) ∧
      97 * (s.rd Reg.LH_MCAP_CAP 0 * ((windowSum s 4).2 * 10000000)) ≤ 100 * (windowSum s 4).1) ∧
    400 ≤ (live.wr Reg.LH_SHARE_EFF 0 700).rd Reg.LH_SHARE_EFF 0 ∧ live.rd Reg.LH_SHARE_EFF 0 < 4096 ∧
    (let s := live.setPw 0 { live.pw 0 with buckets := [2000000000] };
      (s.pw 0).bucket.2 = 0 ∧ s.rd Reg.LH_SHARE_EFF 0 * 1000000 * (windowSum s 0).2 < (windowSum s 0).1 ∧
        (windowSum live 0).1 ≤ live.rd Reg.LH_SHARE_EFF 0 * 1000000 * (windowSum live 0).2) := by decide +kernel

/-- What StartStagesAndResets assumes holds somewhere. -/
theorem wit_StartStages :
    (let s := { State.reset with chip := { State.reset.chip with charging := true } }; s.chip.charging = true ∧ s.chip.pwrEn = true) ∧
    State.reset.chip.charging = false ∧ State.reset.chip.hubSite = 7 ∧ State.reset.chip.valid = true ∧ State.reset.rd Reg.BT_STAT_STAGE 0 = 1 ∧
    State.reset.rd Reg.BT_STAT_FAILSTEP 0 = 0 ∧ State.reset.chip.btest = false ∧ pickImage State.reset = some 0 ∧
    pickImage { State.reset with chip := { State.reset.chip with imgs := [] } } = none ∧
    (live.wr Reg.BT_STAT_STAGE 0 2).rd Reg.BT_STAT_STAGE 0 = 2 ∧ (live.wr Reg.BT_STAT_STAGE 0 3).rd Reg.BT_STAT_STAGE 0 = 3 ∧
    (live.wr Reg.BT_STAT_STAGE 0 7).rd Reg.BT_STAT_STAGE 0 = 7 ∧
    dieHeld live 0 = false ∧ (live.wb Reg.BT_IDENT_SITE_OK 0 false).rb Reg.BT_IDENT_SITE_OK 0 = false ∧
    (let s := [0, 1, 2, 3].foldl (fun t d => t.wb Reg.BT_IDENT_SITE_OK d true) live; ∀ d : DieId, s.rb Reg.BT_IDENT_SITE_OK d.val = true) ∧
    releasing live = false ∧ releasing (live.wr Reg.BT_STAT_OWNER 0 2) = true ∧
    dieHeld (live.wr Reg.FT_DIE_STATE 0 4 1) 1 = true ∧ corePresent live c0 = true ∧ (live.cx c0).dead = false ∧
    (live.wr Reg.BT_STAT_STAGE 0 6).rd Reg.BT_STAT_STAGE 0 = 6 ∧ (live.wb Reg.HB_CLKSTAT_REF_OK 0 false).rb Reg.HB_CLKSTAT_REF_OK 0 = false := by decide +kernel

/-- What StartStagesAndResets assumes holds somewhere. -/
theorem wit_Resets :
    mayWrite .mgmt (.core c0) .hub 0 = false ∧ mayWrite .mgmt .host .hub 0 = true ∧ mayWrite .fw .host .hub 0 = false ∧
    mayWrite .fw (.firmware) .hub 0 = true ∧ live.rd Reg.BT_STAT_STAGE 0 ≠ 0 ∧
    (let s := live.wr Reg.BT_STAT_STAGE 0 0; s.rd Reg.BT_STAT_STAGE 0 = 0 ∧ releasing s = false ∧ Memory.wf s.mem ∧ pickImage s = some 0 ∧
      (s.dx 0).hot = false ∧ (s.wr Reg.FT_DIE_STATE 0 1 0).rd Reg.FT_DIE_STATE 0 0 = 1 ∧
      (s.wr Reg.FT_DIE_STATE 0 2 0).rd Reg.FT_DIE_STATE 0 0 = 2 ∧ s.rb Reg.FT_DIE_FAST 0 0 = false ∧
      (s.wb Reg.FT_DIE_FAST 0 true 0).rb Reg.FT_DIE_FAST 0 0 = true ∧ portState (s.wr Reg.LK_STAT_STATE 0 2 0) (.die 0 0) = lkUp ∧
      fastOk s (fwDigest s) 0 false = false) ∧
    (let s := live.setDx 0 { live.dx 0 with hot := true }; (s.dx 0).hot = true ∧ 85 ≤ (s.wr Reg.LH_ISL_TEMP 0 90 3).rd Reg.LH_ISL_TEMP 0 3 ∧
      s.rd Reg.LH_ISL_TEMP 0 3 < 85) := by decide +kernel

/-- What InputPinsAndTap assumes holds somewhere. -/
theorem wit_InputPins :
    live.chip.valid = true ∧ ({ live.chip with valid := false, needNew := true } : ModX).valid = false ∧
    live.chip.input = .normal ∧ live.chip.perst = true ∧ live.chip.leak = false ∧ live.rd Reg.BT_STAT_STAGE 0 = 1 ∧
    (live.wr Reg.BT_STAT_STAGE 0 0).rd Reg.BT_STAT_STAGE 0 ≠ 1 ∧ live.chip.btest = false ∧ 54000 < 60000 ∧
    (live.spx 2).nonce = none := by decide +kernel

/-- What InputPinsAndTap assumes holds somewhere. -/
theorem wit_IdentPartners :
    let s := (live.setSpx 2 { live.spx 2 with nonce := some 5 }).wr Reg.LKH_STAT_STATE 0 1 10
    ∃ x : IdentMsg, (s.spx 2).nonce.isSome = true ∧ portState s (.span 2) = lkTraining ∧ (s.spx 2).keyed = false ∧
      identOk x = true ∧ peerOk s (.span 2) x = true ∧ (∃ y, identOk y = false) ∧
      ∃ t : State, portState t (.span 2) = lkTraining ∧ (t.spx 2).nonce.isSome = true ∧ (t.spx 2).keyed = false ∧ peerOk t (.span 2) x = false := by
  intro s
  have hc : ∀ n v, crc32 n v < 2 ^ 32 := fun n v => Nat.lt_of_le_of_lt (Nat.sub_le _ _) (by decide)
  refine ⟨⟨7, 1, 2, 0, 9, BitVec.ofNat 32 (crc32 480 (identWord 7 1 2 0 9))⟩, by decide +kernel, by decide +kernel, by decide +kernel, ?_, ?_,
    ⟨⟨7, 1, 2, 0, 9, BitVec.ofNat 32 (crc32 480 (identWord 7 1 2 0 9) + 1)⟩, ?_⟩, ?_⟩
  · show (crc32 480 (identWord 7 1 2 0 9) == (BitVec.ofNat 32 (crc32 480 (identWord 7 1 2 0 9))).toNat) = true
    rw [BitVec.toNat_ofNat, Nat.mod_eq_of_lt (hc _ _), beq_self_eq_true]
  · unfold peerOk
    rw [Bool.or_eq_true]
    left
    decide +kernel
  · show (crc32 480 (identWord 7 1 2 0 9) == (BitVec.ofNat 32 (crc32 480 (identWord 7 1 2 0 9) + 1)).toNat) = false
    have := hc 480 (identWord 7 1 2 0 9)
    generalize crc32 480 (identWord 7 1 2 0 9) = k at *
    rw [BitVec.toNat_ofNat, beq_eq_false_iff_ne]
    omega
  · let v := if bits (Config.peerWord 7 1 2) 0 32 = 1 then 2 else 1
    have hv : v ≠ 0 ∧ v < 2 ^ 32 ∧ v ≠ bits (Config.peerWord 7 1 2) 0 32 := by
      simp only [v]
      split <;> omega
    have hr : rdP (s.wr Reg.LKH_PEER_ID 0 v 10) (.span 2) Reg.LK_PEER_ID Reg.LKH_PEER_ID 0 = v := by
      show (s.wr Reg.LKH_PEER_ID 0 v 10).rd Reg.LKH_PEER_ID 0 10 0 = v
      rw [State.rd_wr_same]
      exact Nat.mod_eq_of_lt hv.2.1
    refine ⟨s.wr Reg.LKH_PEER_ID 0 v 10, ?_, by decide +kernel, by decide +kernel, ?_⟩
    · show (s.wr Reg.LKH_PEER_ID 0 v 10).rd Reg.LKH_STAT_STATE 0 10 0 = lkTraining
      rw [State.rd_wr_ne _ (by decide)]
      decide +kernel
    · unfold peerOk
      rw [Bool.or_eq_false_iff]
      refine ⟨?_, ?_⟩ <;> rw [List.all_eq_false] <;> refine ⟨0, by decide, ?_⟩
      · rw [hr]
        simpa using hv.1
      · rw [hr]
        simpa using hv.2.2

/-- What HostResetsAndRings assumes holds somewhere. -/
theorem wit_HostResetsAndRings :
    hostOpen hostLive = true ∧ hostLive.rb Reg.BT_STAT_READY 0 = true ∧ hostLive.rd Reg.HB_ID_SLOTS 0 ≤ 16 ∧
    0 < hostLive.rd Reg.HB_ID_SLOTS 0 ∧ mayWrite .any .host .hub 0 = true ∧ hostLive.rb Reg.HB_SLOT_EN 0 0 = false ∧
    hostLive.rd Reg.HB_SLOT_SQSIZE 0 0 ≤ 8 ∧ hostLive.rd Reg.HB_SLOT_CQSIZE 0 0 ≤ 8 ∧
    8 < (hostLive.wr Reg.HB_SLOT_SQSIZE 0 9 0).rd Reg.HB_SLOT_SQSIZE 0 0 ∧
    (hostLive.wb Reg.HB_SLOT_EN 0 true 0).rb Reg.HB_SLOT_EN 0 0 = true ∧ hostLive.rd Reg.HB_SLOT_STATE 0 0 ≠ slEnabled ∧
    (let s := (hostLive.wr Reg.HB_SLOT_STATE 0 1 0).wr Reg.HB_SLOT_CQTAIL 0 2 0;
      s.rd Reg.HB_SLOT_STATE 0 0 = slEnabled ∧ s.rd Reg.HB_SLOT_SQTAIL 0 0 = 0 ∧ sqSize s 0 = 16 ∧ cqSize s 0 = 16 ∧
      (2 + cqSize s 0 - s.rd Reg.HB_SLOT_CQHEAD 0 0) % cqSize s 0 ≤
        (s.rd Reg.HB_SLOT_CQTAIL 0 0 + cqSize s 0 - s.rd Reg.HB_SLOT_CQHEAD 0 0) % cqSize s 0) ∧
    (let s := { live.setSlx 0 { live.slx 0 with asked := 1, irqs := 1 } with hostReads := [⟨1, 0, 64, .entry 0⟩] };
      s.hostReads = [⟨1, 0, 64, .entry 0⟩] ∧ (s.slx 0).asked ≠ 0 ∧ s.rd Reg.HB_SLOT_STATE 0 0 ≠ slEnabled ∧ (s.slx 0).irqs ≠ 0 ∧
      (s.wr Reg.HB_SLOT_IMODT 0 5 0).rd Reg.HB_SLOT_IMODT 0 0 ≠ 0) ∧ live.hostReads = [] ∧ (live.slx 0).irqs = 0 ∧
    (live.wr Reg.HB_SLOT_STATE 0 slDisabling 0).rd Reg.HB_SLOT_STATE 0 0 = slDisabling := by decide +kernel

/-- What HostResetsAndRings assumes holds somewhere. -/
theorem wit_SlotEntriesEnd :
    (let e : SqEntry := ⟨1, false, false, 7, 64, 0, 0, 0, 0, [], false⟩;
      ((live.setSlx 0 { live.slx 0 with running := [{ uid := 0, ent := e }] }).slx 0).running = [{ uid := 0, ent := e }] ∧
      e.opc = opCopyIn ∧ copyBusy live 0 0 = false ∧ e.tag < 2 ^ 16 ∧ ({ e with opc := 3 } : SqEntry).opc = opSend) := by decide +kernel

/-- What SlotOperationsAndMailboxes assumes holds somewhere. -/
theorem wit_SlotOperations :
    (let e : SqEntry := ⟨0, false, false, 7, 0, 0, 0, 0, 0, [0, 0, 0, 0], false⟩;
      let s := (hostLive.wr Reg.HB_SLOT_STATE 0 1 0).setSlx 0 { live.slx 0 with waiting := [e] };
      (s.slx 0).waiting = [e] ∧ s.rd Reg.HB_SLOT_STATE 0 0 = slEnabled ∧ startRoom s 0 = true ∧ e.fence = false ∧ entryOk e = true ∧
      entryOk { e with len := 1 } = false ∧ entryOk { e with opc := 1, arg := 0 } = true ∧ entryOk { e with opc := 1, arg := 1 } = true ∧
      entryOk { e with opc := 2 } = true ∧ entryOk { e with opc := 3 } = true ∧ entryOk { e with opc := 4 } = true ∧
      entryOk { e with opc := 5 } = true ∧ entryOk { e with opc := 6 } = true ∧ entryOk { e with opc := 7, len := 1 } = true ∧
      entryOk { e with opc := 8 } = true) ∧ (live.slx 0).waiting = [] ∧ live.rb Reg.HB_STEPCTL_HELD 0 = false ∧
    (live.wb Reg.HB_STEPCTL_HELD 0 true).rb Reg.HB_STEPCTL_HELD 0 = true ∧ live.rd Reg.HB_STEPCTL_BANK 0 < 65535 ∧
    (live.wr Reg.HB_STEPCTL_BANK 0 65535).rd Reg.HB_STEPCTL_BANK 0 = 65535 ∧ mayWrite .any .host .hub 0 = true ∧
    mayWrite .corefw (.core c0) .hub 0 = true ∧ mayWrite .corefw .host .hub 0 = false ∧ mayWrite .host .host .hub 0 = true ∧
    mayWrite .host (.core c0) .hub 0 = false ∧ (live.mbx 0).commit = none ∧ hostOpen hostLive = true ∧
    hostLive.rb Reg.HB_MBCTL_PUBLISHED 0 0 = false := by decide +kernel

/-- What StackUpdatesAndCommands assumes holds somewhere. -/
theorem wit_StackUpdates :
    rdT live 0 Reg.TS_STAT_STATE ≠ tsUp ∧ rdT (wrT live 0 Reg.TS_STAT_STATE tsUp) 0 Reg.TS_STAT_STATE = tsUp ∧
    smGet 0 (live.tx 0).refresh 3 = 0 ∧ (let s := live.setTx 0 { live.tx 0 with refresh := [(3, 2)] }; smGet 0 (s.tx 0).refresh 3 ≠ 0) ∧
    (let s := live.setTx 0 { live.tx 0 with queue := [5], copies := [5], cane := [⟨false, 64, 64, [], .host 0⟩] };
      (s.tx 0).queue.head? = some 5 ∧ offered s 0 1 ⟨false, false, false, false, 0, .none⟩ = [0] ∧
      layerState (setLayer s 0 5 lyPass1) 0 5 = lyPass1 ∧ layerState (setLayer s 0 5 lyPass2) 0 5 = lyPass2 ∧
      (passErrors (setLayer s 0 5 lyPass1) 0 5 false).1 = false ∧ (passErrors (setLayer s 0 5 lyPass2) 0 5 true).1 = false ∧
      rdT s 0 Reg.TS_LAYER_RULE 5 = 0 ∧ rdT s 0 Reg.TS_LAYER_RWATCH 5 = 0 ∧ 5 ∈ (s.tx 0).copies) ∧ 5 ∉ (live.tx 0).copies ∧
    offered live 0 3 ⟨false, false, false, false, 0, .none⟩ = [] ∧
    layerState live 0 5 = lyIdle ∧ layerState (setLayer live 0 5 lyCombine) 0 5 = lyCombine := by decide +kernel

/-- What StackUpdatesAndCommands assumes holds somewhere. -/
theorem wit_StackCommands :
    (let s := setLayer (wrT (wrT live 1 Reg.TS_VIEW_NST 1) 1 Reg.TS_VIEW_LISTLO 1) 1 5 lyCombine;
      (layerStacks s 1 5).head? = some 1 ∧ layerState s 1 5 = lyCombine) ∧
    (let s := (live.wr Reg.TS_STAT_STATE 0 3 0).wr Reg.LK_STAT_STATE 0 2 5;
      rdT s 0 Reg.TS_STAT_STATE = tsSelfRefresh) ∧ portState live (.stack 0) ≠ lkUp ∧
    mayWrite .any .host .die 0 = true ∧ rdT (wrT live 0 Reg.TS_LAYER_EN 1 5) 0 Reg.TS_LAYER_EN 5 = 1 ∧
    mayWrite .fw .host .die 0 = false ∧ mayWrite .fw .firmware .die 0 = true ∧
    rdT (wrT live 0 Reg.TS_STAT_ZEROING 1) 0 Reg.TS_STAT_ZEROING = 1 ∧ rdT live 0 Reg.TS_SCRUB_INTV ≠ 0 := by decide +kernel

/-- What LoadsAndStepBoundary assumes holds somewhere. -/
theorem wit_LoadsAndStepBoundary :
    mayWrite .hostfw (.core c0) .hub 0 = false ∧ mayWrite .hostfw .host .hub 0 = true ∧ pzStage live = pzIdle ∧ releasing live = false ∧
    (let s := setStage live pzChecking; pzStage s = pzChecking ∧ pzStage s ≠ pzIdle ∧
      (match checkImage (checkReads s) (checkReads s).load.src (checkReads s).load.len with | .error f => f.status == 3 | .ok _ => false) = true) ∧
    pzStage (setStage live pzApplying) = pzApplying ∧ live.load.img = none ∧
    (let im : Image := ⟨none, 0, 0, 0, 0, 0, 0, []⟩;
      let s := { setStage live pzWaiting with load := { live.load with img := some im } }; s.load.img = some im ∧ pzStage s = pzWaiting ∧
      s.rb Reg.PZ_HSTAT_SEALED 0 = false ∧ (s.wb Reg.PZ_HSTAT_SEALED 0 true).rb Reg.PZ_HSTAT_SEALED 0 = true ∧
      s.load.ready = false) ∧
    (let im : Image := ⟨some 0, 0, 0, 0, 0, 0, 0, []⟩;
      let s := { setStage live pzWaiting with load := { live.load with img := some im } }; s.load.img = some im ∧ im.seg.isSome = true ∧
      (s.gx (gatherOfU 0)).phases = [] ∧ segmentReady { s with load := { s.load with ready := true } } (gatherOfU 0) = true ∧
      segmentLate s im (gatherOfU 0) = none ∧
      (segmentLate s { im with recs := [⟨0, 6, 0, 0, 0, 0, 7, 7, true, 0, []⟩] } (gatherOfU 0)).isSome = true) ∧
    (scopeCores .dieNodes).filter (fun c => corePresent live c) = [] ∧ live.rb Reg.PZ_HSTAT_SEALED 0 = false ∧
    (live.wb Reg.PZ_HSTAT_SEALED 0 true).rb Reg.PZ_HSTAT_SEALED 0 = true ∧ stepDone live = true := by decide +kernel

/-- What JacksCommands assumes holds somewhere. -/
theorem wit_JacksCommands :
    (let s := live.wr Reg.BT_STAT_STAGE 0 0; s.chip.valid = true ∧ s.chip.btest = false ∧ s.rd Reg.BT_STAT_STAGE 0 ≠ 1 ∧
      s.rd Reg.BT_STAT_STAGE 0 = 0 ∧ s.rb Reg.JK_STAT_BUSY 0 = false ∧ (s.wb Reg.JK_STAT_ROM 0 false).rb Reg.JK_STAT_ROM 0 = false ∧
      (s.wb Reg.JK_STAT_ROM 0 true).rb Reg.JK_STAT_ROM 0 = true ∧ romAccepts .power = false ∧ (s.wb Reg.JK_STAT_BUSY 0 true).rb Reg.JK_STAT_BUSY 0 = true ∧
      heldChars s + 5 + 1 ≤ 256 ∧ 256 < heldChars s + 255 + 2 ∧ jkDieDown s 0 = false ∧
      jkDieDown (s.wr Reg.FT_DIE_STATE 0 4 0) 0 = true ∧ debugOpen s = false ∧ debugOpen (s.wb Reg.BT_STAT_DEBUG 0 true) = true ∧
      s.rd Reg.BT_STAT_FAILSTEP 0 ≠ 2 ∧ (s.wr Reg.BT_STAT_FAILSTEP 0 2).rd Reg.BT_STAT_FAILSTEP 0 = 2 ∧
      s.rb Reg.FT_SCAN_BUSY 0 = false ∧ posState (setPos s 0 0 9 psQuarantine) 0 0 9 = psQuarantine ∧ s.manage.held = [] ∧
      s.manage.scan = none ∧ scanned s 0 = none ∧ scanned (setPos s 0 0 9 psScanning) 0 = some (0, 9)) ∧
    readLocked 0 = true ∧ live.rd Reg.BT_STAT_STAGE 0 = 1 := by decide +kernel

/-- What JacksCommands assumes holds somewhere. -/
theorem wit_JacksPeek :
    (let s := live.wr Reg.BT_STAT_STAGE 0 0; (peekWord s 0).isSome = true ∧ accessDie 0 = some 0 ∧ jkDieDown s 0 = false ∧
    lockedAt s (3 * 2 ^ 48) 4 = false ∧ (mgaCsr (3 * 2 ^ 48)).isNone = true ∧ mgaClass (3 * 2 ^ 48) = 3) := by decide +kernel

/-- What ReportsMctpAndI3c assumes holds somewhere. -/
theorem wit_ReportsMctpAndI3c :
    transportUp live 0 = false ∧ transportUp (live.wr Reg.BT_STAT_STAGE 0 0) 0 = true ∧ transportUp hostLive 1 = true ∧
    1 ∈ sensorIds ∧ smGet none live.manage.readings 1 = none ∧ 9 ∉ sensorIds ∧
    (let s := { live with manage := { live.manage with readings := [(1, some 5)], unacked := [(0, .record 1, 0)] } };
      smGet none s.manage.readings 1 = some 5 ∧ (0, PldmEvent.record 1, 0) ∈ s.manage.unacked ∧ s.manage.unacked.length = 1) ∧
    (installLicence live []).2 = false ∧ ([] : List Byte).length ≠ 128 ∧ live.chip.valid = true ∧ live.rd Reg.FT_DIE_STATE 0 0 ≠ 4 ∧
    (live.wr Reg.FT_DIE_STATE 0 4 0).rd Reg.FT_DIE_STATE 0 0 = 4 ∧ live.rd Reg.HB_MGMT_DADDR 0 = 0 ∧
    (live.wr Reg.HB_MGMT_DADDR 0 9).rd Reg.HB_MGMT_DADDR 0 ≠ 0 ∧ ({ live.host with link := true, crs := false } : HostX).link = true := by decide +kernel

/-- What SecureSessionsAndOwnership assumes holds somewhere. -/
theorem wit_SecureSessions :
    (let s := { live.wr Reg.BT_STAT_STAGE 0 0 with manage := { live.manage with sess := [⟨1, false, true, some 7, 0⟩] } };
      spdmUp s ⟨0, some 1⟩ = true ∧ spdmUp live ⟨0, none⟩ = false ∧ (session s ⟨0, some 1⟩).isSome = true ∧
      s.manage.sess.length < 4 ∧ s.manage.sess.any SpdmSess.doe = false ∧ byOwner s ⟨1, false, true, some 7, 0⟩ = false ∧
      s.rd Reg.BT_STAT_OWNER 0 = 0 ∧ s.chip.owner = none ∧ fwAdmitted s ⟨1, false, true, some 7, 0⟩ = true ∧
      s.rd Reg.BT_SVN_IMAGE 0 = (0 : Fin 65).val ∧
      (let t := { s.wr Reg.BT_STAT_OWNER 0 1 with chip := { s.chip with owner := some ⟨7, [], 5, false, false⟩ } };
        byOwner t ⟨1, false, true, some 7, 0⟩ = true ∧ t.rd Reg.BT_STAT_OWNER 0 ≠ 0 ∧
        fwAdmitted t ⟨1, false, true, some 8, 0⟩ = false)) ∧
    (let s := { live with host := { live.host with link := true, crs := false }, manage := { live.manage with sess := [⟨1, true, true, none, 0⟩] } };
      spdmUp s ⟨2, some 1⟩ = true ∧ session s ⟨2, some 1⟩ = some ⟨1, true, true, none, 0⟩) ∧
    4 ≤ (List.replicate 4 (⟨1, false, true, some 7, 0⟩ : SpdmSess)).length := by decide +kernel


/-! ## Ill-formed commands, one for each check -/

/-- R16, R45: a write of 5 bytes, an offset beyond the window, a core beyond the last. -/
theorem test_wf_register : Instr.wellFormed (.registerWrite .host ⟨.hub, 0, 0⟩ 5 0) = false ∧
    Instr.wellFormed (.registerWrite .host ⟨.hub, 0, 2 ^ 25⟩ 4 0) = false ∧
    Instr.wellFormed (.lowWordLatchRead .host ⟨⟨.core, 256, 0⟩, 4⟩) = false ∧
    Instr.wellFormed (.lowWordLatchRead .host ⟨⟨.die, 4, 0⟩, 4⟩) = false ∧
    Instr.wellFormed (.registerWrite .host ⟨.hub, 0, 4⟩ 4 0) = true := by decide

/-- R233, R246: an offer with no requester, words and rows beyond a scratchpad. -/
theorem test_wf_scratchpad : bankOk ⟨0, false, [], false, false, 0, 0, .none, .read⟩ = false ∧ Instr.wellFormed (.eccWriteback c0 (2 ^ 22)) = false ∧
    Instr.wellFormed (.rowMapOut c0 131072) = false := by decide

/-- R338, R354: a depth that is none of 8 to 64, a record's packet that is no whole line, a pad of no line. -/
theorem test_wf_queues : depthOk 7 = false ∧ bodyOk (.ring 0 (List.replicate 63 0) none) = false ∧
    bodyOk (.pad 0 0 0) = false ∧ Instr.wellFormed (.qcredit (.core c0) 0 65 0) = false ∧
    Instr.wellFormed (.scredit (.hub 0) 0 0) = false := by decide

/-- R319, R371: a broadcast of no words, one at an offset that is not aligned; R384: a section beyond the last. -/
theorem test_wf_parison : pktOk ⟨.dieNodes, 0, true, 0, [], false⟩ = false ∧ pktOk ⟨.dieNodes, 0, true, 2, [0], false⟩ = false ∧
    Instr.wellFormed (.parisonSectionAck 0 4096) = false := by decide

/-- R199: a write of more than 256 bytes, a reply of 8; R486: submission entries that are no 64 bytes; R400: nine flits. -/
theorem test_wf_packets : Instr.wellFormed (.wrreq (.stack 0) 0 0 (List.replicate 257 0)) = false ∧
    Instr.wellFormed (.rdrsp c0 0 false (List.replicate 8 0)) = false ∧
    Instr.wellFormed (.entryFetch 0 [0]) = false := by decide +kernel

/-- R272, R312, R358, R415, R418: a flit with no word corrected, a trap code and an interrupt cause beyond the last, a read over the
sideband that is not aligned, a span group with no link flits. -/
theorem test_wf_messages : flitOk (.fixed 0) = false ∧ Instr.wellFormed (.trapPacket c0 32 0 0) = false ∧
    Instr.wellFormed (.intr (.dieNode 0) 256) = false ∧ Instr.wellFormed (.sbread 0 2 0 0) = false ∧
    Instr.wellFormed (.linkGroupReceive (.span 0) [] (some ⟨[], 0, 0, 0⟩)) = false := by decide

/-- R507, R529, R535, R571, R592: samples, events, records and owner records of the wrong shape. -/
theorem test_wf_shapes : sampleOk ⟨[], 0, 0, [], [], []⟩ = false ∧ unitOk 5 = false ∧
    ownerOk ⟨0, [], 0, false, false⟩ = false ∧ eyeOk (.span 0) [] = false ∧ eyeOk (.die 0 0) [] = false := by decide

/-- R576, R584, R590, R602: a licence of 1 byte, no records, a read of no word, a section beyond the last, a voltage within
range. -/
theorem test_wf_lengths : Instr.wellFormed (.mctpInstallLicence 0 [0]) = false ∧ Instr.wellFormed (.readFaultLog 0 0 13) = false ∧
    Instr.wellFormed (.jkLog 1 none 0) = false ∧ Instr.wellFormed (.jkPeek 1 0 0) = false ∧
    Instr.wellFormed (.jkParisonDump 1 4096) = false ∧ Instr.wellFormed (.inputOvervoltage 50000) = false := by decide

/-! ## Worked examples of the spec -/

/-- R201: the word of the MPASS that runs a loop in the worked example. -/
theorem test_mpass_word : encodeI 0x50 ⟨0, 0x23, 0x25, 0x39, 0⟩ = 0x5002397900000000 := by decide

/-- R187, R201: the fields of the same word. -/
theorem test_fields : fieldsOf 0x5002397900000000 = ⟨0, 0x23, 0x25, 0x39, 0⟩ := by decide

/-- R112: the largest finite E4M3 code is 448, and the code above it a NaN. -/
theorem test_e4m3_top : decodeElem 3 0x7E = .fin false 14 5 ∧ decodeElem 3 0x7F = .nan := by decide

/-- R118, R115: INT4 code 0b1000 is -8. -/
theorem test_int4 : decodeElem 9 8 = .fin true 8 0 := by decide

end Sys2Proof.Tests
end

section
/-! The front of the command queue (R12, 00_scope). -/

namespace Sys2Proof.Machine

/-- Settles O1: each clause is the equation of `step` for one form of the queue. -/
theorem stepRunsFrontCommand : Obligations.StepRunsFrontCommand := by
  unfold Obligations.StepRunsFrontCommand
  constructor
  · intro i rest s
    simp only [step]
  · intro s
    simp only [step]

end Sys2Proof.Machine
end

section
/-! What recording a fault of a host access leaves as it was: registers but those of HB_HERR, and memory (R47, R496). -/

namespace Sys2Proof.Machine

variable (s : State)

@[simp] theorem signal_regs (v : Nat) : (signal s v).regs = s.regs := by
  unfold signal
  split
  · rfl
  · split <;> rfl

@[simp] theorem signal_mem (v : Nat) : (signal s v).mem = s.mem := by
  unfold signal
  split
  · rfl
  · split <;> rfl

@[simp] theorem addrFault_regs (n : NodeId) (m : Nat) : (addrFault s n m).regs = s.regs := by
  cases n <;> rfl

@[simp] theorem addrFault_mem (n : NodeId) (m : Nat) : (addrFault s n m).mem = s.mem := by
  cases n <;> rfl

/-- The value of a field rests on the register store alone. -/
theorem State.rd_congr {s t : State} (h : t.regs = s.regs) (F : Field) (u i j : Nat) : t.rd F u i j = s.rd F u i j := by
  simp only [State.rd, h]

/-- Every byte reads as before where the memory is the same. -/
theorem sameMemory_of_mem {s t : State} (h : t.mem = s.mem) : SameMemory s t := fun a => by
  simp only [State.rdByte, h]

@[simp] theorem hostErr_mem (kind slot : Nat) : (hostErr s kind slot).mem = s.mem := by
  simp [hostErr]

theorem hostErr_kind (kind slot : Nat) : (hostErr s kind slot).rd Reg.HB_HERR_KIND 0 = kind % 2 ^ 4 := by
  rw [hostErr, State.rd_congr (signal_regs _ _), State.wb, State.rd_wr_ne _ (by decide), State.rd_wr_ne _ (by decide)]
  exact State.rd_wr_same _ _ _ _ _ _

theorem hostErr_valid (kind slot : Nat) : (hostErr s kind slot).rb Reg.HB_HERR_VALID 0 = true := by
  rw [hostErr, State.rb, State.rd_congr (signal_regs _ _)]
  exact State.rb_wb_same _ _ _ _ _ _ (by decide)

/-- R472: a host access through a page, of a unit that is not reached, is recorded in HB_HERR and touches no memory. -/
theorem accessFault_host {at_ : CsrAddr} (h : at_.space ≠ .hub) :
    (accessFault s .host at_).rd Reg.HB_HERR_KIND 0 = 2 ∧ (accessFault s .host at_).rb Reg.HB_HERR_VALID 0 = true ∧
      SameMemory s (accessFault s .host at_) := by
  have hf : accessFault s .host at_ = addrFault (hostErr s 2 0) (.hub 4) (csrMga at_) := by
    simp [accessFault, requesterNode, h]
  rw [hf]
  refine ⟨?_, ?_, sameMemory_of_mem (by simp)⟩
  · rw [State.rd_congr (addrFault_regs _ _ _)]
    exact hostErr_kind _ _ _
  · rw [State.rb, State.rd_congr (addrFault_regs _ _ _)]
    exact hostErr_valid _ _ _

/-- R47: any other requester's access is an address fault and nothing more. -/
theorem accessFault_inner {r : Requester} (h : r ≠ .host) (at_ : CsrAddr) :
    accessFault s r at_ = addrFault s (requesterNode r) (csrMga at_) := by
  simp [accessFault, h]

end Sys2Proof.Machine
end

section
/-! Word accesses of firmware and of the host: which of them reach the register, and what each ends with (R13, R16, R469). -/

namespace Sys2Proof.Machine

variable {s : State}

theorem hostRequest_open (h : hostOpen s = true) (k : State → State) : hostRequest s k = k s := by
  obtain ⟨⟨hl, hd⟩, -⟩ : (s.host.link = true ∧ s.host.d3 = false) ∧ _ := by
    simpa only [hostOpen, Bool.and_eq_true, Bool.not_eq_true'] using h
  simp [hostRequest, hl, hd, h]

theorem hostRequest_closed (hl : s.host.link = true) (hd : s.host.d3 = false) (h : hostOpen s = false)
    (k : State → State) : hostRequest s k = s.emit .unsupported := by
  simp [hostRequest, hl, hd, h]

/-- An aligned access of a whole word by a requester within the module reaches the register. -/
theorem wordAccess_word {r : Requester} {at_ : CsrAddr} (hr : r ≠ .host) (ha : at_.off % 4 = 0) (read : Bool)
    (k : State → State) : wordAccess s r at_ true read k = k s := by
  cases r <;> simp_all [wordAccess]

/-- An aligned access of a whole word by the host reaches the register while the endpoint is open. -/
theorem wordAccess_host {at_ : CsrAddr} (ho : hostOpen s = true) (ha : at_.off % 4 = 0) (read : Bool)
    (k : State → State) : wordAccess s .host at_ true read k = k s := by
  simp [wordAccess, hostRequest_open ho, ha]

/-- R16: a narrow or unaligned access by a requester within the module is logged; a read answers all ones. -/
theorem wordAccess_narrow {r : Requester} {at_ : CsrAddr} {n : Nat} (hr : r ≠ .host) (h : n ≠ 4 ∨ at_.off % 4 ≠ 0)
    (read : Bool) (k : State → State) : wordAccess s r at_ (n == 4) read k =
      let t := s.lg LogKind.narrowAccess (nodeNum (requesterNode r)) [at_.unit, at_.off]
      if read then t.emit (.words [2 ^ 32 - 1]) else t := by
  have hg : (n == 4 && at_.off % 4 == 0) = false := by
    rcases h with h | h <;> simp [h]
  cases r <;> simp_all [wordAccess]

variable {r : Requester} {at_ : CsrAddr}

theorem exec_registerWrite (n : Nat) (v : Word) : exec (.registerWrite r at_ n v) s = execRegisterWrite r at_ n v s := rfl

theorem exec_lowWordLatchRead (n : Nat) :
    exec (.lowWordLatchRead r ⟨at_, n⟩) s = execLowWordLatchRead r ⟨at_, n⟩ s := rfl

theorem exec_registerWrite_stored {v : Word} {t : State} {b : Bool} (hr : r ≠ .host) (ha : at_.off % 4 = 0)
    (hu : unitServed s r at_ = true) (hc : csrStore s r at_.space at_.unit at_.off v.toNat = some (t, b)) :
    exec (.registerWrite r at_ 4 v) s = .next t := by
  rw [exec_registerWrite, execRegisterWrite, BEq.rfl, wordAccess_word hr ha]
  simp [hu, hc]

theorem exec_registerWrite_narrow {n : Nat} (hr : r ≠ .host) (h : n ≠ 4 ∨ at_.off % 4 ≠ 0) (v : Word) :
    exec (.registerWrite r at_ n v) s =
      .next (s.lg LogKind.narrowAccess (nodeNum (requesterNode r)) [at_.unit, at_.off]) := by
  rw [exec_registerWrite, execRegisterWrite, wordAccess_narrow hr h]
  rfl

theorem exec_registerWrite_host_unserved (ho : hostOpen s = true) (ha : at_.off % 4 = 0)
    (hu : unitServed s .host at_ = false) (v : Word) :
    exec (.registerWrite .host at_ 4 v) s = .next (accessFault s .host at_) := by
  rw [exec_registerWrite, execRegisterWrite, BEq.rfl, wordAccess_host ho ha]
  simp [hu]

theorem exec_read_narrow {n : Nat} (hr : r ≠ .host) (h : n ≠ 4 ∨ at_.off % 4 ≠ 0) :
    exec (.lowWordLatchRead r ⟨at_, n⟩) s =
      .next ((s.lg LogKind.narrowAccess (nodeNum (requesterNode r)) [at_.unit, at_.off]).emit (.words [2 ^ 32 - 1])) := by
  rw [exec_lowWordLatchRead, execLowWordLatchRead, wordAccess_narrow hr h]
  rfl

theorem exec_read_register {v : Nat} {t : State} (hr : r ≠ .host) (ha : at_.off % 4 = 0) (hu : unitServed s r at_ = true)
    (hc : csrRead s at_.space at_.unit at_.off = some (v, t)) :
    exec (.lowWordLatchRead r ⟨at_, 4⟩) s = .next (t.emit (.words [v])) := by
  rw [exec_lowWordLatchRead, execLowWordLatchRead, BEq.rfl, wordAccess_word hr ha]
  simp [hu, hc]

theorem exec_read_noRegister (hr : r ≠ .host) (ha : at_.off % 4 = 0)
    (hc : csrRead s at_.space at_.unit at_.off = none) :
    exec (.lowWordLatchRead r ⟨at_, 4⟩) s =
      .next ((addrFault s (requesterNode r) (csrMga at_)).emit (.words [2 ^ 32 - 1])) := by
  rw [exec_lowWordLatchRead, execLowWordLatchRead, BEq.rfl, wordAccess_word hr ha, ← accessFault_inner s hr]
  simp [hc]

end Sys2Proof.Machine
end

section
/-! The host's reads and writes through the apertures of BAR2 (R473, R474, R476). -/

namespace Sys2Proof.Machine

variable {s : State} {o : BitVec 36} {m n : Nat} {d : List (Option Byte)}

theorem exec_bar2Read : exec (.bar2Read o n) s = execBar2Read o n s := rfl

theorem exec_bar2Write : exec (.bar2Write o d) s = execBar2Write o d s := rfl

theorem exec_bar2Read_closed (hl : s.host.link = true) (hd : s.host.d3 = false) (h : hostOpen s = false) :
    exec (.bar2Read o n) s = .next (s.emit .unsupported) := by
  rw [exec_bar2Read, execBar2Read, hostRequest_closed hl hd h]

theorem exec_bar2Write_closed (hl : s.host.link = true) (hd : s.host.d3 = false) (h : hostOpen s = false) :
    exec (.bar2Write o d) s = .next (s.emit .unsupported) := by
  rw [exec_bar2Write, execBar2Write, hostRequest_closed hl hd h]

theorem exec_bar2Read_scratch (ho : hostOpen s = true) (hn : n ≠ 0) (hm : bar2Mga s o.toNat = some m)
    (hs : served s m n = true) (hc : mgaClass m = 0) : exec (.bar2Read o n) s =
      .next ((spRead s (mgaCore m) (mgaOff25 m) n rqRw).2.emit (.data (spRead s (mgaCore m) (mgaOff25 m) n rqRw).1)) := by
  rw [exec_bar2Read, execBar2Read, hostRequest_open ho]
  simp [hn, hm, hs, hc]

theorem exec_bar2Read_noAperture (ho : hostOpen s = true) (hn : n ≠ 0) (hm : bar2Mga s o.toNat = none) :
    exec (.bar2Read o n) s = .next ((bar2Fault s o.toNat).emit (.data (List.replicate n 255))) := by
  rw [exec_bar2Read, execBar2Read, hostRequest_open ho]
  simp [hn, hm]

theorem exec_bar2Write_noBytes (ho : hostOpen s = true) (h : d.all Option.isNone = true) :
    exec (.bar2Write o d) s = .next s := by
  rw [exec_bar2Write, execBar2Write, hostRequest_open ho, if_pos h]

theorem exec_bar2Write_noAperture (ho : hostOpen s = true) (h : d.any Option.isSome = true)
    (hm : bar2Mga s o.toNat = none) : exec (.bar2Write o d) s = .next (bar2Fault s o.toNat) := by
  have hb : ¬d.all Option.isNone = true := by
    simpa [Option.isSome_iff_ne_none] using h
  rw [exec_bar2Write, execBar2Write, hostRequest_open ho, if_neg hb, hm]

/-- One byte is one run, and lies in one line. -/
theorem enabledRuns_byte (a : Nat) (x : Byte) : enabledRuns a [some x] = [(a, [x])] := rfl

theorem linePieces_byte (a : Nat) : linePieces 1 a 0 1 = [(0, 1)] := by
  have h : min 1 (64 - a % 64) = 1 := by omega
  simp [linePieces, h]

/-- R249-R252: what a scratchpad says to a remote write is no address fault and no lock. -/
theorem remoteWrite_status (s : State) (c : CoreId) (off : Nat) (bs : List Byte) (sender : Nat) :
    (remoteWrite s c off bs sender).1 ≠ acAddr ∧ (remoteWrite s c off bs sender).1 ≠ acLocked := by
  unfold remoteWrite
  split
  · simp [acOk, acAddr, acLocked]
  · split <;> simp [acOk, acAddr, acLocked, acNoCredit, acWindow]

theorem hubWrite_scratch {bs : List Byte} (hl : lockedAt s m bs.length = false) (hs : served s m bs.length = true)
    (hc : mgaClass m = 0) (src : CaneSrc) :
    hubWrite s m bs src = remoteWrite s (mgaCore m) (mgaOff25 m) bs hubSender := by
  simp [hubWrite, hl, hs, hc]

theorem exec_bar2Write_byte {x : Byte} (ho : hostOpen s = true) (hm : bar2Mga s o.toNat = some m) (hc : mgaClass m = 0)
    (hl : lockedAt s m 1 = false) (hs : served s m 1 = true) :
    exec (.bar2Write o [some x]) s = .next (remoteWrite s (mgaCore m) (mgaOff25 m) [x] hubSender).2 := by
  obtain ⟨hna, hnl⟩ := remoteWrite_status s (mgaCore m) (mgaOff25 m) [x] hubSender
  have hw := hubWrite_scratch (bs := [x]) hl hs hc (.host 0)
  rw [exec_bar2Write, execBar2Write, hostRequest_open ho]
  simp [hm, enabledRuns_byte, linePieces_byte, hw, hna, hnl]

end Sys2Proof.Machine
end

section
namespace Sys2Proof.Machine

/-- Settles O40: each clause is the lemma above about that access. -/
theorem registerAndApertureAccess : Obligations.RegisterAndApertureAccess := by
  unfold Obligations.RegisterAndApertureAccess
  intro at_ s
  have hr : Requester.firmware ≠ .host := by decide
  refine ⟨?write, ?narrow, ?read, ?page, ?aperture⟩
  case write =>
    intro v t b ha hu hc
    exact exec_registerWrite_stored hr ha hu hc
  case narrow =>
    intro n v h
    exact ⟨exec_registerWrite_narrow hr h v, exec_read_narrow hr h⟩
  case read =>
    intro ha hu
    exact ⟨fun v t hc => exec_read_register hr ha hu hc, fun hc => exec_read_noRegister hr ha hc⟩
  case page =>
    intro ha hsp ho _ _ hu v
    exact ⟨_, exec_registerWrite_host_unserved ho ha hu v, accessFault_host s hsp⟩
  case aperture =>
    intro hl hd
    refine ⟨fun h o n d => ⟨exec_bar2Read_closed hl hd h, exec_bar2Write_closed hl hd h⟩, fun ho o => ⟨?_, ?_, ?_, ?_, ?_⟩⟩
    · intro n m hn hm hs hc
      exact exec_bar2Read_scratch ho hn hm hs hc
    · intro n hn hm
      exact exec_bar2Read_noAperture ho hn hm
    · intro d h hm
      exact exec_bar2Write_noAperture ho h hm
    · intro d h
      exact exec_bar2Write_noBytes ho h
    · intro m x hm hc hlk hs
      exact exec_bar2Write_byte ho hm hc hlk hs

end Sys2Proof.Machine
end

section
/-! SUPPORT. Canonical memory, as a condition that `simp` carries through the model's operations: the stores keep it, and so
do conditionals and folds of what keeps it. The sections below say of each operation of a file of the model, in that file's
order, that it changes no byte (`_mem`) or keeps memory canonical (`_canonical`); a command's lemma is about the state it
leaves. -/

namespace Sys2Proof.Machine

@[simp] theorem State.mem_ite {p : Prop} [Decidable p] (a b : State) :
    (if p then a else b).mem = if p then a.mem else b.mem :=
  apply_ite _ _ _ _

/-- Memory in canonical form, as a condition that `simp` carries through the operations below without unfolding it. -/
def Canonical (m : List Host.Cell) : Prop := Memory.wf m

@[simp] theorem canonical_ite {p : Prop} [Decidable p] (m n : List Host.Cell) :
    Canonical (if p then m else n) ↔ if p then Canonical m else Canonical n := by
  split <;> rfl

theorem canonical_of_mem {s t : State} (e : t.mem = s.mem) (h : Canonical s.mem) : Canonical t.mem :=
  e ▸ h

theorem canonical_of_ite {p : Prop} [Decidable p] {a b : State} (ha : Canonical a.mem) (hb : Canonical b.mem) :
    Canonical (if p then a else b).mem := by
  split <;> assumption

@[simp] theorem State.wrBytes_canonical {s : State} (h : Canonical s.mem) (a : Nat) (l : List Byte) :
    Canonical (s.wrBytes a l).mem :=
  Memory.wf_wrBytes l h a

@[simp] theorem State.wrLe_canonical {s : State} (h : Canonical s.mem) (a n v : Nat) : Canonical (s.wrLe a n v).mem :=
  Memory.wf_wrLe h a n v

@[simp] theorem State.zeroRange_canonical {s : State} (h : Canonical s.mem) (lo hi : Nat) :
    Canonical (s.zeroRange lo hi).mem :=
  Memory.wf_zeroRange h lo hi

@[simp] theorem spWrite_canonical {s : State} (h : Canonical s.mem) (c : CoreId) (off : Nat) (bs : List Byte) (req : Nat) :
    Canonical (spWrite s c off bs req).mem :=
  Memory.wf_spWrite h c off bs req

@[simp] theorem stackWrite_canonical {s : State} (h : Canonical s.mem) (k off : Nat) (bs : List Byte) :
    Canonical (stackWrite s k off bs).mem :=
  Memory.wf_stackWrite h k off bs

@[simp] theorem zeroScratch_canonical {s : State} (h : Canonical s.mem) (c : CoreId) : Canonical (zeroScratch s c).mem :=
  Memory.wf_zeroScratch h c

theorem foldl_canonical {α : Type} {f : State → α → State} (hf : ∀ t a, Canonical t.mem → Canonical (f t a).mem)
    {s : State} (h : Canonical s.mem) (l : List α) : Canonical (l.foldl f s).mem :=
  foldl_keeps (fun t : State => Canonical t.mem) f hf l s h

@[simp] theorem after_next (s t : State) : after (.next t) s = t := (rfl)

theorem canonical_after_ite {p : Prop} [Decidable p] {s : State} {a b : Host.Outcome State Fault Refusal}
    (ha : Canonical (after a s).mem) (hb : Canonical (after b s).mem) : Canonical (after (if p then a else b) s).mem := by
  split <;> assumption

end Sys2Proof.Machine
end

section
/-! SUPPORT. Memory after the operations of `Machine/Ops.lean`: the accesses to cores, passes and registers. -/

namespace Sys2Proof.Machine

variable (s : State)

@[simp] theorem State.lgR_mem (k : LogKind) (u : Nat) (args : List Nat) : (State.lgR s k u args).mem = s.mem := by
  simp [State.lgR]

@[simp] theorem cnErr_mem (d src ty port : Nat) (hdrUe : Bool) : (cnErr s d src ty port hdrUe).mem = s.mem := by
  simp [cnErr]

@[simp] theorem badSource_mem (src : NodeId) (ty : Nat) : (badSource s src ty).mem = s.mem := by
  unfold badSource
  split <;> rfl

@[simp] theorem State.raise_mem (src dst : NodeId) (e : ErrorReport) : (State.raise s src dst e).mem = s.mem := by
  simp [State.raise]

@[simp] theorem reportCauseSeq_mem (g : Gather) (seq : Nat) (range mem : Bool) :
    (reportCauseSeq s g seq range mem).mem = s.mem := by
  simp [reportCauseSeq]

@[simp] theorem raiseDie_mem (d : DieId) (info : Bool) (e : FaultEvent) : (raiseDie s d info e).mem = s.mem := by
  simp [raiseDie]

@[simp] theorem raiseHub_mem (info : Bool) (e : FaultEvent) : (raiseHub s info e).mem = s.mem := by
  simp [raiseHub]

@[simp] theorem noteAt_mem (n : NodeId) (code : Nat) (detail : List Nat) : (noteAt s n code detail).mem = s.mem := by
  unfold noteAt
  split <;> rfl

@[simp] theorem takeTrap_mem (c : CoreId) (code info : Nat) (own : optParam Nat 0) :
    (takeTrap s c code info own).mem = s.mem := by
  simp [takeTrap]

end Sys2Proof.Machine
end

section
/-! SUPPORT. Memory after the operations of `Machine/Ecc.lean`: the ECC events. -/

namespace Sys2Proof.Machine

variable (s : State)

@[simp] theorem mapRow_mem (n row : Nat) : (mapRow s n row).mem = s.mem := by
  simp only [mapRow]
  split <;> simp

@[simp] theorem spRead_mem (c : CoreId) (off n req : Nat) : (spRead s c off n req).2.mem = s.mem :=
  foldl_mem _ (fun t p => eccEvent_mem t c req p) _ s

@[simp] theorem spTouch_mem (c : CoreId) (off n req : Nat) : (spTouch s c off n req).mem = s.mem :=
  spRead_mem s c off n req

end Sys2Proof.Machine
end

section
/-! SUPPORT. Memory after the operations of `Machine/Csr.lean`: reads and writes of register words. -/

namespace Sys2Proof.Machine

variable (s : State)

@[simp] theorem markRead_mem (x0 : List (Field × Nat × Nat)) : (markRead s x0).mem = s.mem := by
  unfold markRead
  split <;> simp

/-- A read of a register word may change a latch or a mailbox's mark, and no byte (R68, R492). -/
theorem csrRead_mem {sp : Space} {u off v : Nat} {t : State} (h : csrRead s sp u off = some (v, t)) : t.mem = s.mem := by
  unfold csrRead at h
  (repeat' split at h) <;> cases h <;> simp

@[simp] theorem writeField_mem (r : Requester) (sp : Space) (u whole : Nat) (p : Field × Nat × Nat) :
    (writeField s r sp u whole p).mem = s.mem := by
  simp only [writeField]
  (repeat' split) <;> simp

theorem csrWrite_mem {r : Requester} {sp : Space} {u off v : Nat} {p : State × Bool}
    (h : csrWrite s r sp u off v = some p) : p.1.mem = s.mem := by
  unfold csrWrite at h
  (repeat' split at h) <;> cases h <;> simp [foldl_mem]

@[simp] theorem loadWord_mem (sp : Space) (u off v : Nat) : (loadWord s sp u off v).mem = s.mem := by
  simp [loadWord, foldl_mem]

@[simp] theorem clearAt_mem (f : Field → Nat → Nat → Nat → Bool) : (clearAt s f).mem = s.mem := by
  simp [clearAt]

@[simp] theorem clearRegs_mem (f : Field → Nat → Nat → Bool) : (clearRegs s f).mem = s.mem := by
  simp [clearRegs]

@[simp] theorem applyPending_mem : (applyPending s).mem = s.mem := by
  simp [applyPending]

end Sys2Proof.Machine
end

section
/-! SUPPORT. Memory after the operations of `Machine/Operands.lean`: operands and the effect of an instruction. -/

namespace Sys2Proof.Machine

variable (s : State)

@[simp] theorem wrS_mem (c : CoreId) (n : Nat) (v : Word) : (wrS s c n v).mem = s.mem := by
  simp [wrS]

@[simp] theorem wrA_mem (c : CoreId) (n v : Nat) : (wrA s c n v).mem = s.mem := by
  simp [wrA]

@[simp] theorem wrV_mem (c : CoreId) (n : Nat) (v : VReg) : (wrV s c n v).mem = s.mem := by
  simp [wrV]

@[simp] theorem setLoops_mem (c : CoreId) (l : List LoopEnt) : (setLoops s c l).mem = s.mem := by
  simp [setLoops]

@[simp] theorem setSb_mem (c : CoreId) (l : List SbEnt) : (setSb s c l).mem = s.mem := by
  simp [setSb]

@[simp] theorem releaseSb_mem (c : CoreId) (p : SbOwner → Bool) : (releaseSb s c p).mem = s.mem := by
  simp [releaseSb]

@[simp] theorem sendCredit_mem (c : CoreId) (q : Nat) : (sendCredit s c q).mem = s.mem := by
  unfold sendCredit
  split <;> simp

@[simp] theorem addCredit_mem (c : CoreId) (q e l : Nat) : (addCredit s c q e l).mem = s.mem := by
  simp [addCredit]

@[simp] theorem popHead_mem (c : CoreId) (q : Nat) : (popHead s c q).mem = s.mem := by
  simp [popHead]

theorem readPort_mem {c : CoreId} {p : Nat} {v : Word} {t : State} (h : readPort s c p = .val v t) : t.mem = s.mem := by
  unfold readPort at h
  simp only at h
  (repeat' split at h) <;> cases h <;> simp

theorem readSrc_mem {c : CoreId} {code : Nat} {v : Word} {t : State} (h : readSrc s c code = .val v t) : t.mem = s.mem := by
  unfold readSrc at h
  split at h
  · cases h
    rfl
  · exact readPort_mem s h

/-- What an effect leaves to be committed satisfies a condition on memory: the state of an instruction that completes, and the
change of one that waits, where the state it is made to satisfies it. -/
def Eff.Keeps (P : List Host.Cell → Prop) : Eff → Prop
  | .done t => P t.mem
  | .jump t _ => P t.mem
  | .wait f => ∀ u : State, P u.mem → P (f u).mem
  | _ => True

section
variable {P : List Host.Cell → Prop}

@[simp] theorem Eff.keeps_done {t : State} : (Eff.done t).Keeps P ↔ P t.mem := Iff.rfl
@[simp] theorem Eff.keeps_jump {t : State} {n : Int} : (Eff.jump t n).Keeps P ↔ P t.mem := Iff.rfl
@[simp] theorem Eff.keeps_wait {f : State → State} : (Eff.wait f).Keeps P ↔ ∀ u : State, P u.mem → P (f u).mem := Iff.rfl
@[simp] theorem Eff.keeps_trap (code info : Nat) : (Eff.trap code info).Keeps P := trivial
@[simp] theorem Eff.keeps_held : Eff.held.Keeps P := trivial

@[simp] theorem Eff.keeps_ite {q : Prop} [Decidable q] (a b : Eff) :
    (if q then a else b).Keeps P ↔ if q then a.Keeps P else b.Keeps P := by
  split <;> rfl

theorem withSrc_keeps {s : State} {c : CoreId} {code : BitVec 6} {k : Word → State → Eff} (hs : P s.mem)
    (hk : ∀ x t, P t.mem → (k x t).Keeps P) : (withSrc c code s k).Keeps P := by
  unfold withSrc
  split
  · exact hk _ _ (by rwa [readSrc_mem s ‹_›])
  · trivial
  · simp

theorem withSrc2_keeps {s : State} {c : CoreId} {w : IFields} {k : Word → Word → State → Eff} (hs : P s.mem)
    (hk : ∀ x y t, P t.mem → (k x y t).Keeps P) : (withSrc2 c w s k).Keeps P :=
  withSrc_keeps hs fun x _ h => withSrc_keeps h fun y t ht => hk x y t ht

end

@[simp] theorem doneS_keeps {P : List Host.Cell → Prop} {c : CoreId} {w : IFields} {v : Word} :
    (doneS c w v s).Keeps P ↔ P s.mem := by
  simp [doneS]

@[simp] theorem advance_mem (c : CoreId) : (advance s c).mem = s.mem := by
  simp [advance]

@[simp] theorem unhold_mem (c : CoreId) : (unhold s c).mem = s.mem := by
  simp [unhold]

theorem commitEff_keeps {P : List Host.Cell → Prop} {s : State} {e : Eff} (hs : P s.mem) (he : e.Keeps P) (c : CoreId) :
    P (commitEff s c e).mem := by
  unfold commitEff
  split
  · simpa using he
  · simp only [State.mem_ite]
    split
    · simpa using hs
    · simpa using he
  · simpa using hs
  · exact he s hs
  · simpa using hs

theorem issue_keeps {P : List Host.Cell → Prop} {s : State} {opc : Nat} {f : Form} {c : CoreId} {w : IFields}
    {body : State → Eff} (hs : P s.mem) (hb : (body s).Keeps P) : P (issue opc f c w s body).mem := by
  unfold issue
  split
  · split
    · exact commitEff_keeps hs hb c
    · simpa using hs
  · exact hs

/-- The issue of an instruction whose effect writes no memory. -/
@[simp] theorem issue_mem {opc : Nat} {f : Form} {c : CoreId} {w : IFields} {body : State → Eff}
    (hb : (body s).Keeps (· = s.mem)) : (issue opc f c w s body).mem = s.mem :=
  issue_keeps (P := (· = s.mem)) rfl hb

end Sys2Proof.Machine
end

section
/-! SUPPORT. Memory after the operations of `Machine/Flags.lean`: the exception flags. -/

namespace Sys2Proof.Machine

variable (s : State)

@[simp] theorem addVFlags_mem (c : CoreId) (f : VFlags) : (addVFlags s c f).mem = s.mem := by
  simp [addVFlags]

@[simp] theorem addCFlags_mem (c : CoreId) (f : CFlags) (clips sats : Nat) :
    (addCFlags s c f clips sats).mem = s.mem := by
  simp [addCFlags]

end Sys2Proof.Machine
end

section
/-! SUPPORT. Memory after the operations of `Machine/Marver.lean`: the vector instructions. -/

namespace Sys2Proof.Machine

variable (s : State)

@[simp] theorem doneV_keeps {P : List Host.Cell → Prop} {c : CoreId} {w : IFields} {width : Nat} {l : List LaneRes} :
    (doneV c w width l s).Keeps P ↔ P s.mem := by
  simp [doneV]

@[simp] theorem vec2_keeps {P : List Host.Cell → Prop} (c : CoreId) (w : IFields) (ok : Nat → Bool)
    (f : Nat → Nat → Nat → LaneRes) (h : P s.mem) : (vec2 c w s ok f).Keeps P := by
  simp [vec2, h]

@[simp] theorem vec1_keeps {P : List Host.Cell → Prop} (c : CoreId) (w : IFields) (f : Nat → Nat → LaneRes)
    (h : P s.mem) : (vec1 c w s f).Keeps P := by
  simp [vec1, h]

@[simp] theorem vec3_keeps {P : List Host.Cell → Prop} (c : CoreId) (w : IFields) (ok : Nat → Bool)
    (f : Nat → Nat → Nat → Nat → LaneRes) (h : P s.mem) : (vec3 c w s ok f).Keeps P := by
  simp [vec3, h]

@[simp] theorem execVadd_mem (c : CoreId) (w : IFields) : (after (execVadd c w s) s).mem = s.mem := by
  simp [execVadd]

@[simp] theorem execVsub_mem (c : CoreId) (w : IFields) : (after (execVsub c w s) s).mem = s.mem := by
  simp [execVsub]

@[simp] theorem execVmul_mem (c : CoreId) (w : IFields) : (after (execVmul c w s) s).mem = s.mem := by
  simp [execVmul]

@[simp] theorem execVfma_mem (c : CoreId) (w : IFields) : (after (execVfma c w s) s).mem = s.mem := by
  simp [execVfma]

@[simp] theorem execVmin_mem (c : CoreId) (w : IFields) : (after (execVmin c w s) s).mem = s.mem := by
  simp [execVmin]

@[simp] theorem execVmax_mem (c : CoreId) (w : IFields) : (after (execVmax c w s) s).mem = s.mem := by
  simp [execVmax]

@[simp] theorem execVabs_mem (c : CoreId) (w : IFields) : (after (execVabs c w s) s).mem = s.mem := by
  simp [execVabs]

@[simp] theorem execVneg_mem (c : CoreId) (w : IFields) : (after (execVneg c w s) s).mem = s.mem := by
  simp [execVneg]

@[simp] theorem execVcmp_mem (c : CoreId) (w : IFields) : (after (execVcmp c w s) s).mem = s.mem := by
  simp [execVcmp]

@[simp] theorem execVsel_mem (c : CoreId) (w : IFields) : (after (execVsel c w s) s).mem = s.mem := by
  simp [execVsel]

@[simp] theorem execVmov_mem (c : CoreId) (w : IFields) : (after (execVmov c w s) s).mem = s.mem := by
  simp [execVmov]

@[simp] theorem bodyVbcast_keeps {P : List Host.Cell → Prop} (c : CoreId) (w : IFields) (h : P s.mem) :
    (bodyVbcast c w s).Keeps P := by
  unfold bodyVbcast
  simp only
  split
  · exact withSrc_keeps h fun x t ht => by simpa using ht
  · trivial

@[simp] theorem execVbcast_mem (c : CoreId) (w : IFields) : (after (execVbcast c w s) s).mem = s.mem := by
  simp [execVbcast]

@[simp] theorem execVand_mem (c : CoreId) (w : IFields) : (after (execVand c w s) s).mem = s.mem := by
  simp [execVand]

@[simp] theorem execVor_mem (c : CoreId) (w : IFields) : (after (execVor c w s) s).mem = s.mem := by
  simp [execVor]

@[simp] theorem execVxor_mem (c : CoreId) (w : IFields) : (after (execVxor c w s) s).mem = s.mem := by
  simp [execVxor]

@[simp] theorem execVshl_mem (c : CoreId) (w : IFields) : (after (execVshl c w s) s).mem = s.mem := by
  simp [execVshl]

@[simp] theorem reduce_keeps {P : List Host.Cell → Prop} (c : CoreId) (w : IFields) (f : Nat → List Nat → LaneRes)
    (h : P s.mem) : (reduce c w s f).Keeps P := by
  simp [reduce, h]

@[simp] theorem execVrsum_mem (c : CoreId) (w : IFields) : (after (execVrsum c w s) s).mem = s.mem := by
  simp [execVrsum]

@[simp] theorem execVrmax_mem (c : CoreId) (w : IFields) : (after (execVrmax c w s) s).mem = s.mem := by
  simp [execVrmax]

@[simp] theorem execVrmin_mem (c : CoreId) (w : IFields) : (after (execVrmin c w s) s).mem = s.mem := by
  simp [execVrmin]

@[simp] theorem execVramax_mem (c : CoreId) (w : IFields) : (after (execVramax c w s) s).mem = s.mem := by
  simp [execVramax]

@[simp] theorem execVperm_mem (c : CoreId) (w : IFields) : (after (execVperm c w s) s).mem = s.mem := by
  simp [execVperm]

@[simp] theorem execVslide_mem (c : CoreId) (w : IFields) : (after (execVslide c w s) s).mem = s.mem := by
  simp [execVslide]

@[simp] theorem execVext_mem (c : CoreId) (w : IFields) : (after (execVext c w s) s).mem = s.mem := by
  simp [execVext]

@[simp] theorem execVins_mem (c : CoreId) (w : IFields) : (after (execVins c w s) s).mem = s.mem := by
  rw [execVins, after_next]
  refine issue_mem s (withSrc_keeps (P := (· = s.mem)) rfl fun x t ht => ?_)
  simpa using ht

end Sys2Proof.Machine
end

section
/-! SUPPORT. Memory after the operations of `Machine/Convert.lean`: the conversions. -/

namespace Sys2Proof.Machine

variable (s : State)

@[simp] theorem putElems_mem (c : CoreId) (fd d start : Nat) (l : List ElemRes) :
    (putElems s c fd d start l).mem = s.mem := by
  simp [putElems]

@[simp] theorem bodyCvt_keeps {P : List Host.Cell → Prop} (c : CoreId) (w : IFields) (h : P s.mem) :
    (bodyCvt c w s).Keeps P := by
  unfold bodyCvt
  split <;> simp [h]

@[simp] theorem execCvt_mem (c : CoreId) (w : IFields) : (after (execCvt c w s) s).mem = s.mem := by
  simp [execCvt]

@[simp] theorem bodyCvtx_keeps {P : List Host.Cell → Prop} (c : CoreId) (w : IFields) (h : P s.mem) :
    (bodyCvtx c w s).Keeps P := by
  simp only [bodyCvtx]
  split <;> simp [h]

@[simp] theorem execCvtx_mem (c : CoreId) (w : IFields) : (after (execCvtx c w s) s).mem = s.mem := by
  simp [execCvtx]

@[simp] theorem bodyCvts_keeps {P : List Host.Cell → Prop} (c : CoreId) (w : IFields) (h : P s.mem) :
    (bodyCvts c w s).Keeps P := by
  unfold bodyCvts
  simp only
  (repeat' split) <;> simp [h]

@[simp] theorem execCvts_mem (c : CoreId) (w : IFields) : (after (execCvts c w s) s).mem = s.mem := by
  simp [execCvts]

@[simp] theorem bodySclx_keeps {P : List Host.Cell → Prop} (c : CoreId) (w : IFields) (h : P s.mem) :
    (bodySclx c w s).Keeps P := by
  simp [bodySclx, h]

@[simp] theorem execSclx_mem (c : CoreId) (w : IFields) : (after (execSclx c w s) s).mem = s.mem := by
  simp [execSclx]

end Sys2Proof.Machine
end

section
/-! SUPPORT. Memory after the operations of `Machine/LocalMem.lean`: the loads and stores of a core. -/

namespace Sys2Proof.Machine

variable (s : State)

theorem withRanges_keeps {P : List Host.Cell → Prop} {s : State} {c : CoreId} {new : List SbEnt} {k : State → Eff}
    (hk : (k s).Keeps P) : (withRanges c s new k).Keeps P := by
  unfold withRanges
  split
  · exact hk
  · simp

theorem withLocal_keeps {P : List Host.Cell → Prop} {s : State} {c : CoreId} {a n align : Nat} {write : Bool}
    {k : State → Eff} (hk : (k s).Keeps P) : (withLocal c s a n align write k).Keeps P := by
  unfold withLocal
  split
  · trivial
  · split
    · trivial
    · exact withRanges_keeps hk

@[simp] theorem bodyLw_keeps {P : List Host.Cell → Prop} (c : CoreId) (w : IFields) (h : P s.mem) :
    (bodyLw c w s).Keeps P :=
  withSrc_keeps h fun x t ht => withLocal_keeps (by simp [ht])

@[simp] theorem execLw_mem (c : CoreId) (w : IFields) : (after (execLw c w s) s).mem = s.mem := by
  simp [execLw]

theorem bodySw_keeps_canonical {s : State} (h : Canonical s.mem) (c : CoreId) (w : IFields) :
    (bodySw c w s).Keeps Canonical :=
  withSrc2_keeps h fun _ _ _ ht => withLocal_keeps (spWrite_canonical ht _ _ _ _)

@[simp] theorem execSw_canonical {s : State} (h : Canonical s.mem) (c : CoreId) (w : IFields) :
    Canonical (after (execSw c w s) s).mem := by
  rw [execSw, after_next]
  exact issue_keeps h (bodySw_keeps_canonical h c w)

@[simp] theorem bodyLa_keeps {P : List Host.Cell → Prop} (c : CoreId) (w : IFields) (h : P s.mem) :
    (bodyLa c w s).Keeps P :=
  withSrc_keeps h fun x t ht => withLocal_keeps (by simp [ht])

@[simp] theorem execLa_mem (c : CoreId) (w : IFields) : (after (execLa c w s) s).mem = s.mem := by
  simp [execLa]

theorem bodySa_keeps_canonical {s : State} (h : Canonical s.mem) (c : CoreId) (w : IFields) :
    (bodySa c w s).Keeps Canonical :=
  withSrc_keeps h fun _ _ ht => withLocal_keeps (spWrite_canonical ht _ _ _ _)

@[simp] theorem execSa_canonical {s : State} (h : Canonical s.mem) (c : CoreId) (w : IFields) :
    Canonical (after (execSa c w s) s).mem := by
  rw [execSa, after_next]
  exact issue_keeps h (bodySa_keeps_canonical h c w)

@[simp] theorem vecPost_mem (c : CoreId) (w : IFields) : (vecPost c w s).mem = s.mem := by
  simp [vecPost]

@[simp] theorem bodyVld_keeps {P : List Host.Cell → Prop} (c : CoreId) (w : IFields) (h : P s.mem) :
    (bodyVld c w s).Keeps P := by
  unfold bodyVld
  simp only
  split
  · trivial
  · exact withLocal_keeps (by simp [h])

@[simp] theorem execVld_mem (c : CoreId) (w : IFields) : (after (execVld c w s) s).mem = s.mem := by
  simp [execVld]

theorem bodyVst_keeps_canonical {s : State} (h : Canonical s.mem) (c : CoreId) (w : IFields) :
    (bodyVst c w s).Keeps Canonical := by
  unfold bodyVst
  simp only
  split
  · trivial
  · refine withLocal_keeps ?_
    simp [h]

@[simp] theorem execVst_canonical {s : State} (h : Canonical s.mem) (c : CoreId) (w : IFields) :
    Canonical (after (execVst c w s) s).mem := by
  rw [execVst, after_next]
  exact issue_keeps h (bodyVst_keeps_canonical h c w)

end Sys2Proof.Machine
end

section
/-! SUPPORT. Memory after the operations of `Machine/Remote.lean`: the remote accesses a core asks for. -/

namespace Sys2Proof.Machine

variable (s : State)

@[simp] theorem rcDrop_mem (c : CoreId) (m : Nat) : (rcDrop s c m).mem = s.mem := by
  unfold rcDrop
  split <;> rfl

@[simp] theorem rcInvalidate_mem (c : CoreId) : (rcInvalidate s c).mem = s.mem := by
  simp [rcInvalidate]

@[simp] theorem rcInstall_canonical {s : State} (h : Canonical s.mem) (c : CoreId) (m : Nat) (data : List Byte) :
    Canonical (rcInstall s c m data).mem := by
  simp [rcInstall, h]

@[simp] theorem newReq_mem (c : CoreId) (m dest : Nat) (read fill : Bool) :
    (newReq s c m dest read fill).1.mem = s.mem := rfl

@[simp] theorem loadFault_keeps {P : List Host.Cell → Prop} (c : CoreId) (m : Nat) (unreach : Bool) (h : P s.mem) :
    (loadFault c m unreach s).Keeps P := by
  simp [loadFault, h]

@[simp] theorem rcMiss_keeps {P : List Host.Cell → Prop} (c : CoreId) (w : IFields) (m : Nat) (n : NodeId)
    (h : P s.mem) : (rcMiss c w m n s).Keeps P := by
  simp [rcMiss, h]

@[simp] theorem bodyRlw_keeps {P : List Host.Cell → Prop} (c : CoreId) (w : IFields) (h : P s.mem) :
    (bodyRlw c w s).Keeps P := by
  unfold bodyRlw
  simp only
  (repeat' split) <;> simp [h]

@[simp] theorem execRlw_mem (c : CoreId) (w : IFields) : (after (execRlw c w s) s).mem = s.mem := by
  simp [execRlw]

@[simp] theorem postWrite_mem (c : CoreId) (m v : Nat) : (postWrite s c m v).mem = s.mem := by
  unfold postWrite
  split <;> simp

@[simp] theorem bodyRsw_keeps {P : List Host.Cell → Prop} (c : CoreId) (w : IFields) (h : P s.mem) :
    (bodyRsw c w s).Keeps P := by
  unfold bodyRsw
  simp only
  split
  · trivial
  · split
    · trivial
    · exact withSrc_keeps h fun x t ht => by simp [ht]

@[simp] theorem execRsw_mem (c : CoreId) (w : IFields) : (after (execRsw c w s) s).mem = s.mem := by
  simp [execRsw]

end Sys2Proof.Machine
end

section
/-! SUPPORT. Memory after the operations of `Machine/Queues.lean`: the queues. -/

namespace Sys2Proof.Machine

variable (s : State)

@[simp] theorem inject_mem (c : CoreId) (n : NodeId) (p : Packet) : (inject s c n p).mem = s.mem := by
  simp [inject]

@[simp] theorem dropSend_mem (c : CoreId) (e : Nat) : (dropSend s c e).mem = s.mem := by
  simp [dropSend]

theorem installSend_mem {c : CoreId} {h depth lines : Nat} {ring : Bool} {t : State}
    (ht : installSend s c h ring depth lines = some t) : t.mem = s.mem := by
  obtain ⟨e, -, rfl⟩ := Option.map_eq_some_iff.1 ht
  simp

@[simp] theorem sendEntry_mem (c : CoreId) (h : Nat) (q : QEnt) : (sendEntry s c h q).mem = s.mem := by
  simp [sendEntry]

@[simp] theorem sendPad_mem (c : CoreId) (h line lines pseq : Nat) : (sendPad s c h line lines pseq).mem = s.mem := by
  simp [sendPad]

@[simp] theorem sendRecord_mem (c : CoreId) (h line len rseq pseq base : Nat) :
    (sendRecord s c h line len rseq pseq base).mem = s.mem := by
  unfold sendRecord
  rw [State.bump_mem, foldl_mem _ fun t b => by simp, spRead_mem]

@[simp] theorem releaseGate_mem (c : CoreId) (m : GateEnt) : (releaseGate s c m).mem = s.mem := by
  simp [releaseGate]

@[simp] theorem cancelGate_mem (c : CoreId) (m : GateEnt) : (cancelGate s c m).mem = s.mem := by
  unfold cancelGate
  split <;> simp

@[simp] theorem releaseGates_mem (c : CoreId) (ph : Nat) : (releaseGates s c ph).mem = s.mem := by
  simp [releaseGates, foldl_mem]

@[simp] theorem cancelGates_mem (c : CoreId) (p : GateEnt → Bool) : (cancelGates s c p).mem = s.mem := by
  simp [cancelGates, foldl_mem]

/-- The state a send attempt leaves. -/
def SendRes.state : SendRes → State
  | .status _ s => s
  | .noCredit s => s

@[simp] theorem trySend_mem (c : CoreId) (h b : Nat) : (trySend s c h b).state.mem = s.mem := by
  unfold trySend
  simp only
  split
  · rfl
  · split
    · rfl
    · split <;> simp [SendRes.state]

@[simp] theorem trySendRing_mem (c : CoreId) (h base len : Nat) : (trySendRing s c h base len).state.mem = s.mem := by
  unfold trySendRing
  simp only
  split
  · rfl
  · (repeat' split) <;> simp [SendRes.state]

theorem endSend_keeps {P : List Host.Cell → Prop} {s : State} {c : CoreId} {w : IFields} {h : Nat} {blocking : Bool}
    {try_ : State → SendRes} (ht : ∀ t, (try_ t).state.mem = t.mem) (hs : P s.mem) :
    (endSend c w h blocking try_ s).Keeps P := by
  unfold endSend
  split
  · next n t heq =>
    have hm : t.mem = s.mem := by simpa [heq, SendRes.state] using ht s
    simp [hm, hs]
  · next t heq =>
    have hm : t.mem = s.mem := by simpa [heq, SendRes.state] using ht s
    split
    · intro u hu
      simp only [State.setCst_mem]
      split
      · next v heq =>
        have hv : v.mem = u.mem := by simpa [heq, SendRes.state] using ht u
        exact hv ▸ hu
      · exact hu
    · simpa [hm] using hs

@[simp] theorem bodyQsend_keeps {P : List Host.Cell → Prop} (blocking : Bool) (c : CoreId) (w : IFields) (h : P s.mem) :
    (bodyQsend blocking c w s).Keeps P := by
  unfold bodyQsend
  split
  · trivial
  · exact withSrc_keeps h fun x t ht => endSend_keeps (fun u => by simp) ht

@[simp] theorem execQsend_mem (c : CoreId) (w : IFields) : (after (execQsend c w s) s).mem = s.mem := by
  simp [execQsend]

@[simp] theorem execQsendn_mem (c : CoreId) (w : IFields) : (after (execQsendn c w s) s).mem = s.mem := by
  simp [execQsendn]

@[simp] theorem bodyQsendr_keeps {P : List Host.Cell → Prop} (blocking : Bool) (c : CoreId) (w : IFields) (h : P s.mem) :
    (bodyQsendr blocking c w s).Keeps P := by
  refine withSrc_keeps h fun x t ht => ?_
  have go := endSend_keeps (c := c) (w := w) (h := x.toNat) (blocking := blocking)
    (try_ := fun u => trySendRing u c x.toNat (aBase (rdA t c (w.b.toNat - 0x20))) (aLen (rdA t c (w.b.toNat - 0x20))))
    (fun u => by simp) ht
  simp only
  split
  · exact go
  · split
    · trivial
    · exact withRanges_keeps go

@[simp] theorem execQsendr_mem (c : CoreId) (w : IFields) : (after (execQsendr c w s) s).mem = s.mem := by
  simp [execQsendr]

@[simp] theorem execQsendrn_mem (c : CoreId) (w : IFields) : (after (execQsendrn c w s) s).mem = s.mem := by
  simp [execQsendrn]

@[simp] theorem bodyQbind_keeps {P : List Host.Cell → Prop} (unbind : Bool) (c : CoreId) (w : IFields) (h : P s.mem) :
    (bodyQbind unbind c w s).Keeps P := by
  refine withSrc_keeps h fun _ _ ht => ?_
  simp [ht]

@[simp] theorem execQbind_mem (c : CoreId) (w : IFields) : (after (execQbind c w s) s).mem = s.mem := by
  simp [execQbind]

@[simp] theorem execQunbind_mem (c : CoreId) (w : IFields) : (after (execQunbind c w s) s).mem = s.mem := by
  simp [execQunbind]

@[simp] theorem bodyQpop_keeps {P : List Host.Cell → Prop} (c : CoreId) (w : IFields) (h : P s.mem) :
    (bodyQpop c w s).Keeps P := by
  unfold bodyQpop
  split <;> simp [h]

@[simp] theorem execQpop_mem (c : CoreId) (w : IFields) : (after (execQpop c w s) s).mem = s.mem := by
  simp [execQpop]

@[simp] theorem bodyQcount_keeps {P : List Host.Cell → Prop} (c : CoreId) (w : IFields) (h : P s.mem) :
    (bodyQcount c w s).Keeps P := by
  unfold bodyQcount
  split <;> simp [h]

@[simp] theorem execQcount_mem (c : CoreId) (w : IFields) : (after (execQcount c w s) s).mem = s.mem := by
  simp [execQcount]

@[simp] theorem createFail_mem (c : CoreId) (reason : Nat) : (createFail s c reason).mem = s.mem := by
  simp [createFail]

@[simp] theorem freeQueue_mem (c : CoreId) (q : Nat) : (freeQueue s c q).mem = s.mem := by
  simp [freeQueue]

@[simp] theorem reserveQueue_mem (c : CoreId) (a b q : Nat) : (reserveQueue s c a b q).mem = s.mem := by
  simp [reserveQueue]

@[simp] theorem takeOperands_mem (c : CoreId) : (takeOperands s c).mem = s.mem := by
  unfold takeOperands
  simp only
  split
  · rw [readSrc_mem _ ‹_›]
    split
    · exact readSrc_mem _ ‹_›
    · rfl
  · split
    · exact readSrc_mem _ ‹_›
    · rfl

@[simp] theorem holdHandle_mem (c : CoreId) (h : HandleWait) : (holdHandle s c h).mem = s.mem := by
  simp [holdHandle]

@[simp] theorem dropHandle_mem (c : CoreId) : (dropHandle s c).mem = s.mem := by
  unfold dropHandle
  (repeat' split) <;> simp

@[simp] theorem bodyQcreate_keeps {P : List Host.Cell → Prop} (c : CoreId) (w : IFields) (h : P s.mem) :
    (bodyQcreate c w s).Keeps P := by
  refine withSrc2_keeps h fun _ _ _ ht => ?_
  (repeat' split) <;> simp [ht]

@[simp] theorem execQcreate_mem (c : CoreId) (w : IFields) : (after (execQcreate c w s) s).mem = s.mem := by
  simp [execQcreate]

@[simp] theorem startDestroy_mem (c : CoreId) (q : Nat) : (startDestroy s c q).1.mem = s.mem := by
  unfold startDestroy
  simp only
  split
  · simp
  · split <;> simp

@[simp] theorem bodyQdestroy_keeps {P : List Host.Cell → Prop} (c : CoreId) (w : IFields) (h : P s.mem) :
    (bodyQdestroy c w s).Keeps P := by
  refine withSrc_keeps h fun _ _ ht => ?_
  simp [ht]

@[simp] theorem execQdestroy_mem (c : CoreId) (w : IFields) : (after (execQdestroy c w s) s).mem = s.mem := by
  simp [execQdestroy]

@[simp] theorem freeLines_mem (c : CoreId) (q : Nat) : (freeLines s c q).mem = s.mem := by
  simp [freeLines]

@[simp] theorem ringRelease_mem (c : CoreId) (q n : Nat) : (ringRelease s c q n).mem = s.mem := by
  simp [ringRelease]

@[simp] theorem pushEntry_mem (c : CoreId) (q : Nat) (e : QEnt) : (pushEntry s c q e).mem = s.mem := by
  simp [pushEntry]

@[simp] theorem landMsg_canonical {s : State} (h : Canonical s.mem) (c : CoreId) (m : QMsg) :
    Canonical (landMsg s c m).mem := by
  unfold landMsg
  (repeat' split) <;> simp [h]

@[simp] theorem flushQueue_mem (c : CoreId) (phs : List Nat) (q : Nat) : (flushQueue s c phs q).mem = s.mem := by
  simp [flushQueue]

@[simp] theorem flushQm_mem (c : CoreId) (phs : List Nat) : (flushQm s c phs).mem = s.mem := by
  simp [flushQm, foldl_mem]

@[simp] theorem fullCredit_mem (c : CoreId) (e depth lines : Nat) : (fullCredit s c e depth lines).mem = s.mem := by
  simp [fullCredit]

@[simp] theorem resetChannel_mem (c : CoreId) (q : Nat) : (resetChannel s c q).mem = s.mem := by
  simp only [resetChannel]
  (repeat' split) <;> simp

@[simp] theorem resetChannelsOf_mem (c : CoreId) : (resetChannelsOf s c).mem = s.mem := by
  simp [resetChannelsOf, foldl_mem]

end Sys2Proof.Machine
end

section
/-! SUPPORT. Memory after the operations of `Machine/Slots.lean`: the slots' runs. -/

namespace Sys2Proof.Machine

variable (s : State)

@[simp] theorem postRecord_mem (n addr : Nat) (bs : List Byte) : (postRecord s n addr bs).mem = s.mem := by
  simp [postRecord]

@[simp] theorem writeRecord_mem (n : Nat) (e : SqEntry) (status flags info : Nat) :
    (writeRecord s n e status flags info).mem = s.mem := by
  simp [writeRecord]

@[simp] theorem endDisabling_mem (n : Nat) : (endDisabling s n).mem = s.mem := by
  simp [endDisabling]

@[simp] theorem finishRunOf_mem (n : Nat) (r : SlotRun) (status flags info : Nat) :
    (finishRunOf s n r status flags info).mem = s.mem := by
  simp [finishRunOf]

@[simp] theorem setRun_mem (n : Nat) (r : SlotRun) : (setRun s n r).mem = s.mem := by
  simp [setRun]

@[simp] theorem copyMoved_mem (n uid k : Nat) : (copyMoved s n uid k).mem = s.mem := by
  unfold copyMoved
  split <;> rfl

@[simp] theorem copyFail_mem (n uid status at_ : Nat) : (copyFail s n uid status at_).mem = s.mem := by
  unfold copyFail
  (repeat' split) <;> simp

@[simp] theorem runReported_mem (d : DieId) (i : Nat) (g : Option Gather) (pseq runs : Nat) :
    (runReported s d i g pseq runs).mem = s.mem := by
  cases g <;> simp [runReported, foldl_mem]

@[simp] theorem sealRuns_mem (g : Gather) (ph : Nat) : (sealRuns s g ph).mem = s.mem := by
  simp [sealRuns, foldl_mem]

@[simp] theorem recallRuns_mem (g : Gather) (ph : Nat) : (recallRuns s g ph).mem = s.mem := by
  simp [recallRuns, foldl_mem]

@[simp] theorem loseRuns_mem : (loseRuns s).mem = s.mem := by
  simp [loseRuns, foldl_mem]

@[simp] theorem publish_mem (m status : Nat) : (publish s m status).mem = s.mem := by
  simp only [publish]
  split <;> simp [foldl_mem]

@[simp] theorem commitMail_mem (m len : Nat) (tag : Option (Gather × Nat)) : (commitMail s m len tag).mem = s.mem := by
  simp [commitMail]

@[simp] theorem sealMails_mem (g : Gather) (ph : Nat) : (sealMails s g ph).mem = s.mem := by
  simp [sealMails, foldl_mem]

@[simp] theorem recallMails_mem (g : Gather) (ph : Nat) : (recallMails s g ph).mem = s.mem := by
  simp [recallMails, foldl_mem]

end Sys2Proof.Machine
end

section
/-! SUPPORT. Memory after the operations of `Machine/Ports.lean`: the ports' registers. -/

namespace Sys2Proof.Machine

variable (s : State)

@[simp] theorem wrP_mem (p : PortId) (F FH : Field) (v : Nat) (j : optParam Nat 0) :
    (wrP s p F FH v j).mem = s.mem := by
  unfold wrP
  split <;> rfl

@[simp] theorem bumpP_mem (p : PortId) (F FH : Field) (n : optParam Nat 1) : (bumpP s p F FH n).mem = s.mem := by
  simp [bumpP]

@[simp] theorem raisePort_mem (p : PortId) (code : Nat) (lane : Option Nat) :
    (raisePort s p code lane).mem = s.mem := by
  simp only [raisePort]
  split <;> simp

@[simp] theorem sbSend_mem (p : PortId) (ty payload : Nat) : (sbSend s p ty payload).mem = s.mem := by
  simp [sbSend]

@[simp] theorem sbPort_mem (p : PortId) : (sbPort s p).mem = s.mem := by
  simp only [sbPort]
  (repeat' split) <;> simp

@[simp] theorem sidebandTick_mem : (sidebandTick s).mem = s.mem := by
  simp [sidebandTick, foldl_mem]

@[simp] theorem sbReceive_mem {p : PortId} {ty payload seq : Nat} {crc : BitVec 8} {k : State → State}
    (hk : ∀ t, (k t).mem = t.mem) : (sbReceive s p ty payload seq crc k).mem = s.mem := by
  simp [sbReceive, hk]

theorem sbReceive_canonical {s : State} {p : PortId} {ty payload seq : Nat} {crc : BitVec 8} {k : State → State}
    (h : Canonical s.mem) (hk : ∀ t, Canonical t.mem → Canonical (k t).mem) :
    Canonical (sbReceive s p ty payload seq crc k).mem := by
  simp [sbReceive, h, hk]

@[simp] theorem setHold_mem (d : DieId) (i key : Nat) (on : Bool) : (setHold s d i key on).mem = s.mem := by
  simp [setHold]

@[simp] theorem holdPort_mem (p : PortId) (on : Bool) : (holdPort s p on).mem = s.mem := by
  cases p <;> simp [holdPort, foldl_mem]

@[simp] theorem updHold_mem (p : PortId) : (updHold s p).mem = s.mem := by
  simp [updHold]

@[simp] theorem txPush_mem (p : PortId) (pl : Payload) : (txPush s p pl).mem = s.mem := by
  simp [txPush]

@[simp] theorem caneReq_mem (k : Nat) (r : CaneReq) : (caneReq s k r).mem = s.mem := by
  simp [caneReq]

end Sys2Proof.Machine
end

section
/-! SUPPORT. Memory after the operations of `Machine/Control.lean`: the control packets. -/

namespace Sys2Proof.Machine

variable (s : State)

@[simp] theorem enqueue_mem (k : CtlPkt) : (enqueue s k).mem = s.mem := by
  simp [enqueue]

@[simp] theorem takeOut_mem (o : Out) : (takeOut s o).mem = s.mem := by
  cases o <;> simp [takeOut, foldl_mem]

@[simp] theorem intake_mem : (intake s).mem = s.mem := by
  simp [intake, foldl_mem]

@[simp] theorem pushFlit_mem (key port : Nat) (f : CtlFlit) : (pushFlit s key port f).mem = s.mem := by
  simp [pushFlit]

@[simp] theorem pushPacket_mem (key port : Nat) (p : CtlPkt) (at_ : Nat) :
    (pushPacket s key port p at_).mem = s.mem := by
  simp [pushPacket, foldl_mem]

@[simp] theorem takeCtrl_mem (p : PortId) : (takeCtrl s p).1.mem = s.mem := by
  unfold takeCtrl
  split <;> rfl

@[simp] theorem landAt_mem (n : NodeId) (p : CtlPkt) (delay : Nat) : (landAt s n p delay).mem = s.mem := by
  simp [landAt]

@[simp] theorem lostReply_mem (p : CtlPkt) : (lostReply s p).mem = s.mem := by
  unfold lostReply
  split <;> rfl

@[simp] theorem follow_mem (node : NodeId) (p : CtlPkt) (h : Hop) : (follow s node p h).mem = s.mem := by
  unfold follow
  split <;> simp

@[simp] theorem arriveAt_mem (node : NodeId) (p : CtlPkt) : (arriveAt s node p).mem = s.mem := by
  unfold arriveAt
  (repeat' split) <;> simp

@[simp] theorem injectPkt_mem (p : CtlPkt) : (injectPkt s p).mem = s.mem := by
  unfold injectPkt
  split <;> simp

@[simp] theorem injectNode_mem (n : Nat) : (injectNode s n).mem = s.mem := by
  simp only [injectNode]
  (repeat' split) <;> simp

@[simp] theorem absentReply_mem (d : DieId) (p : CtlPkt) : (absentReply s d p).mem = s.mem := by
  unfold absentReply
  split <;> simp

@[simp] theorem routeFront_mem (d : DieId) (r k b : Nat) : (routeFront s d r k b).mem = s.mem := by
  simp only [routeFront]
  split <;> simp

@[simp] theorem losePacket_mem (p : CtlPkt) : (losePacket s p).mem = s.mem := by
  simp [losePacket]

@[simp] theorem cutPacket_mem (d : DieId) (r k : Nat) (p : CtlPkt) (k0 : Nat) :
    (cutPacket s d r k p k0).mem = s.mem := by
  simp [cutPacket]

@[simp] theorem leave_mem (d : DieId) (r k o : Nat) (f : CtlFlit) : (leave s d r k o f).mem = s.mem := by
  unfold leave
  (repeat' split) <;> simp

@[simp] theorem serveOut_mem (d : DieId) (r k o : Nat) : (serveOut s d r k o).mem = s.mem := by
  simp only [serveOut]
  (repeat' split) <;> simp

@[simp] theorem routerNclk_mem (key : Nat) : (routerNclk s key).mem = s.mem := by
  simp [routerNclk, foldl_mem]

@[simp] theorem landCtrl_mem (p : PortId) (f : CtlFlit) : (landCtrl s p f).mem = s.mem := by
  unfold landCtrl
  split <;> simp

@[simp] theorem leaveCh_mem (d : DieId) : (leaveCh s d).mem = s.mem := by
  simp [leaveCh]

@[simp] theorem landOne_mem (n : NodeId) (p : CtlPkt) : (landOne s n p).mem = s.mem := by
  unfold landOne
  (repeat' split) <;> simp

@[simp] theorem landDue_mem : (landDue s).mem = s.mem := by
  simp [landDue, foldl_mem]

@[simp] theorem controlTick_mem : (controlTick s).mem = s.mem := by
  simp [controlTick, foldl_mem]

@[simp] theorem dropControl_mem (d : DieId) (r k port : Nat) (hdrUe : Bool) :
    (dropControl s d r k port hdrUe).mem = s.mem := by
  simp only [dropControl]
  split <;> simp

end Sys2Proof.Machine
end

section
/-! SUPPORT. Memory after the operations of `Machine/Lehr.lean`: power states and clocks. -/

namespace Sys2Proof.Machine

variable (s : State)

@[simp] theorem updVset_mem (d : DieId) : (updVset s d).mem = s.mem := by
  simp [updVset]

@[simp] theorem setReq_mem (g : Gather) (code : Nat) : (setReq s g code).mem = s.mem := by
  simp [setReq]

@[simp] theorem reqFromDemand_mem (g : Gather) : (reqFromDemand s g).mem = s.mem := by
  simp [reqFromDemand]

@[simp] theorem finishStop_mem (g : Gather) (code : Nat) : (finishStop s g code).mem = s.mem := by
  simp [finishStop]

@[simp] theorem startStop_mem (g : Gather) (code : Nat) : (startStop s g code).mem = s.mem := by
  simp [startStop, foldl_mem]

@[simp] theorem ratioDone_mem (g : Gather) (c : CoreId) : (ratioDone s g c).mem = s.mem := by
  unfold ratioDone
  split <;> simp

@[simp] theorem updBoost_mem (d : DieId) : (updBoost s d).mem = s.mem := by
  simp [updBoost]

@[simp] theorem lateHint_mem (g : Gather) : (lateHint s g).mem = s.mem := by
  unfold lateHint
  split <;> simp

@[simp] theorem phaseHint_mem (g : Gather) (ph nph : Nat) : (phaseHint s g ph nph).mem = s.mem := by
  simp [phaseHint]

@[simp] theorem restIsland_mem (d : DieId) (n : Nat) : (restIsland s d n).mem = s.mem := by
  simp [restIsland]

@[simp] theorem enterState_mem (c : CoreId) (st : Nat) : (enterState s c st).mem = s.mem := by
  simp [enterState]

@[simp] theorem restAt_mem (c : CoreId) (g : Gather) (next nph : Nat) : (restAt s c g next nph).mem = s.mem := by
  unfold restAt
  split <;> simp

@[simp] theorem powerDone_mem (d : Nat) (p : PowerUp) : (powerDone s d p).mem = s.mem := by
  simp [powerDone]

@[simp] theorem consider_mem (d k : Nat) : (consider s d k).mem = s.mem := by
  unfold consider
  split <;> simp

@[simp] theorem requestUp_mem (d : DieId) (n : Nat) (l : List Nat) : (requestUp s d n l).mem = s.mem := by
  simp [requestUp]

@[simp] theorem wakeSpares_mem (d : DieId) (ps : List Nat) : (wakeSpares s d ps).mem = s.mem := by
  simp [wakeSpares, foldl_mem]

@[simp] theorem restSpares_mem (d : DieId) (ps : List Nat) : (restSpares s d ps).mem = s.mem := by
  simp [restSpares]

@[simp] theorem startWakes_mem (d : DieId) (cs : List CoreId) (late : Bool) : (startWakes s d cs late).mem = s.mem := by
  simp [startWakes, foldl_mem]

@[simp] theorem toCore_mem {c : CoreId} {src : NodeId} {p : Packet} {k : State → State} (hk : (k s).mem = s.mem) :
    (toCore s c src p k).mem = s.mem := by
  simp [toCore, hk]

theorem toCore_canonical {s : State} {c : CoreId} {src : NodeId} {p : Packet} {k : State → State} (h : Canonical s.mem)
    (hk : Canonical (k s).mem) : Canonical (toCore s c src p k).mem := by
  simp [toCore, h, hk]

end Sys2Proof.Machine
end

section
/-! SUPPORT. Memory after the operations of `Machine/Streams.lean`: the streams and the flits that cross a die. -/

namespace Sys2Proof.Machine

variable (s : State)

@[simp] theorem setStat_mem (l : List (DieId × Nat)) (F : Field) (v : Nat) : (setStat s l F v).mem = s.mem := by
  simp [setStat, foldl_mem]

@[simp] theorem mapStream_mem (l : List (DieId × Nat)) (f : DieId × Nat → StreamX → StreamX) :
    (mapStream s l f).mem = s.mem := by
  simp [mapStream, foldl_mem]

@[simp] theorem readIndex_mem (d : DieId) (i : Nat) (dst : Bool) (lines : List Nat) :
    (readIndex s d i dst lines).mem = s.mem := by
  simp [readIndex, foldl_mem]

@[simp] theorem updCredit0_mem (d : DieId) (i : Nat) : (updCredit0 s d i).mem = s.mem := by
  simp [updCredit0]

@[simp] theorem releaseRange_mem (d : DieId) (i : Nat) (o : SbOwner) : (releaseRange s d i o).mem = s.mem := by
  simp [releaseRange]

@[simp] theorem releaseRun_mem (d : DieId) (i : Nat) : (releaseRun s d i).mem = s.mem := by
  simp [releaseRun]

@[simp] theorem updGated_mem (d : DieId) (i : Nat) : (updGated s d i).mem = s.mem := by
  simp [updGated]

@[simp] theorem updGates_mem : (updGates s).mem = s.mem := by
  simp [updGates, foldl_mem]

@[simp] theorem trigger_mem (d : DieId) (i ph : Nat) : (trigger s d i ph).mem = s.mem := by
  simp [trigger]

@[simp] theorem setHeld_mem (g : Gather) (on : Bool) : (setHeld s g on).mem = s.mem := by
  simp [setHeld]

@[simp] theorem endRecovery_mem (g : Gather) : (endRecovery s g).mem = s.mem := by
  simp [endRecovery]

@[simp] theorem endRecoveries_mem : (endRecoveries s).mem = s.mem := by
  simp [endRecoveries, foldl_mem]

@[simp] theorem refetchRun_mem (q : Nat × Nat) : (refetchRun s q).mem = s.mem := by
  simp [refetchRun]

@[simp] theorem refetched_mem (l : List (DieId × Nat)) : (refetched s l).mem = s.mem := by
  simp [refetched, foldl_mem]

@[simp] theorem finishRun_mem (d : DieId) (i : Nat) : (finishRun s d i).mem = s.mem := by
  simp [finishRun, foldl_mem]

@[simp] theorem endFault_mem (d : DieId) (i : Nat) : (endFault s d i).mem = s.mem := by
  simp [endFault]

@[simp] theorem endFaultAt_mem (d : DieId) (i : Nat) : (endFaultAt s d i).mem = s.mem := by
  simp [endFaultAt]

@[simp] theorem phaseStreams_mem (c : CoreId) (ph : Nat) : (phaseStreams s c ph).mem = s.mem := by
  simp [phaseStreams, foldl_mem]

@[simp] theorem flushStream_mem (c : CoreId) (phs : List Nat) (d : DieId) (i : Nat) :
    (flushStream s c phs d i).mem = s.mem := by
  simp [flushStream]

@[simp] theorem flushStreams_mem (c : CoreId) (phs : List Nat) : (flushStreams s c phs).mem = s.mem := by
  simp [flushStreams, foldl_mem]

@[simp] theorem hostRead_mem (addr n : Nat) (w : HostWhat) : (hostRead s addr n w).mem = s.mem := by
  simp [hostRead]

@[simp] theorem askLines_mem (fuel : Nat) (d : DieId) (i : Nat) : (askLines fuel s d i).mem = s.mem := by
  induction fuel generalizing s with
  | zero => rfl
  | succ n ih =>
    unfold askLines
    refine ite_mem rfl ?_
    split
    · rfl
    · simp [ih]

@[simp] theorem countSent_mem (d : DieId) (i : Nat) (n : NodeId) : (countSent s d i n).mem = s.mem := by
  simp [countSent]

@[simp] theorem settle_mem (d : DieId) (i : Nat) : (settle s d i).mem = s.mem := by
  simp [settle]

@[simp] theorem feed_mem (d : DieId) (i : Nat) : (feed s d i).mem = s.mem := by
  simp [feed]

@[simp] theorem lineArrives_mem (d : DieId) (i n : Nat) (data : List Byte) :
    (lineArrives s d i n data).mem = s.mem := by
  simp [lineArrives]

@[simp] theorem lineFails_mem (d : DieId) (i n : Nat) : (lineFails s d i n).mem = s.mem := by
  simp [lineFails]

@[simp] theorem offerFlit_mem (port : PortId) (k : Nat) (d : DieId) (i : Nat) :
    (offerFlit s port k d i).mem = s.mem := by
  unfold offerFlit
  split <;> simp

@[simp] theorem offerInbound_mem (k : Nat) (d : DieId) (i : Nat) : (offerInbound s k d i).mem = s.mem := by
  simp only [offerInbound]
  split <;> simp

@[simp] theorem offerSlots_mem (d : DieId) : (offerSlots s d).mem = s.mem := by
  unfold offerSlots
  split
  · rfl
  · refine foldl_mem _ (fun t n => foldl_mem _ (fun u k => ?_) _ t) _ s
    split <;> simp

@[simp] theorem freshSeq_mem (l : List (DieId × Nat)) : (freshSeq s l).mem = s.mem := by
  simp [freshSeq, foldl_mem]

@[simp] theorem execStreamRunStart_mem (d : DieId) (i : Fin 32768) :
    (after (execStreamRunStart d i s) s).mem = s.mem := by
  simp [execStreamRunStart]

@[simp] theorem execScredit_mem (n : NodeId) (i : Fin 32768) (count : Nat) :
    (after (execScredit n i count s) s).mem = s.mem := by
  simp [execScredit]

@[simp] theorem returnCredit_mem (d : DieId) (i n : Nat) (from_ : NodeId) :
    (returnCredit s d i n from_).mem = s.mem := by
  simp [returnCredit, foldl_mem]

@[simp] theorem flitDone_mem (d : DieId) (i : Nat) (last : Bool) (from_ : NodeId) :
    (flitDone s d i last from_).mem = s.mem := by
  simp [flitDone]

@[simp] theorem foldFlags_mem (f : Flit) (g : Option Gather) : (foldFlags s f g).mem = s.mem := by
  unfold foldFlags
  split <;> simp

@[simp] theorem fillRemote_canonical {s : State} (h : Canonical s.mem) (d : DieId) (i n : Nat) (f : Flit) :
    Canonical (fillRemote s d i n f).mem := by
  simp only [fillRemote]
  (repeat' split) <;> simp [h]

@[simp] theorem flitCame_mem (d : DieId) (i : Nat) (f : Flit) : (flitCame s d i f).mem = s.mem := by
  simp [flitCame]

@[simp] theorem writeFlit_canonical {s : State} (h : Canonical s.mem) (c : CoreId) (d : DieId) (i : Nat) (f : Flit) :
    Canonical (writeFlit s c d i f).mem := by
  unfold writeFlit
  extract_lets ls ok s1 s2
  have h1 : Canonical s1.mem := foldl_canonical (fun t q ht => by split <;> simp [ht]) (by simp [h]) ok
  have h2 : Canonical s2.mem := by simpa [s2] using h1
  split <;> simp [h2]

@[simp] theorem misroute_mem (c : CoreId) (f : Flit) : (misroute s c f).mem = s.mem := by
  simp [misroute]

@[simp] theorem eject_canonical {s : State} (h : Canonical s.mem) (c : CoreId) (f : Flit) :
    Canonical (eject s c f).mem := by
  simp [eject, h]

@[simp] theorem routerIn_mem (c : CoreId) (inp : Nat) (f : Flit) (delay : Nat) :
    (routerIn s c inp f delay).mem = s.mem := by
  simp [routerIn]

theorem offerLoc_mem (c : CoreId) (i : Nat) :
    (offerLoc s c i).1.mem = s.mem ∧ ∀ f t, (offerLoc s c i).2 = some (f, t) → t.mem = s.mem := by
  unfold offerLoc
  extract_lets d f s1 rd
  have h1 : s1.mem = s.mem := readIndex_mem ..
  have hr : ∀ (t : State) (n : Nat) (a : List Byte × State), rd t n = some a → a.2.mem = t.mem := by
    intro t n a h
    simp only [rd] at h
    split at h
    · obtain ⟨o, -, rfl⟩ := Option.map_eq_some_iff.1 h
      simp
    · cases h
      rfl
  clear_value s1 rd
  split
  · split
    · simp [h1]
    · next a ha =>
      have h2 := hr _ _ _ ha
      split
      · simp [h1, h2]
      · next b hb => simp [h1, h2, hr _ _ _ hb]
  · simp

/-- A flit found at an input is taken from it, and one not found leaves the state as it is or faulted: no byte changes. -/
theorem takeIn_mem (c : CoreId) (inp i more : Nat) :
    (takeIn s c inp i more).1.mem = s.mem ∧ ∀ f t, (takeIn s c inp i more).2 = some (f, t) → t.mem = s.mem := by
  unfold takeIn
  simp only
  split
  · simp
  · split <;> simp +contextual

@[simp] theorem flitLost_mem (c : CoreId) (f : Flit) : (flitLost s c f).mem = s.mem := by
  simp [flitLost]

@[simp] theorem flitFixed_mem (c : CoreId) (f : Flit) (n : Nat) : (flitFixed s c f n).mem = s.mem := by
  simp [flitFixed, foldl_mem]

theorem findIn_mem (c : CoreId) (inp i more : Nat) (k : FlitCheck) :
    (findIn s c inp i more k).1.mem = s.mem ∧ ∀ f t, (findIn s c inp i more k).2 = some (f, t) → t.mem = s.mem := by
  have h : ∀ r, (if inp = 0 then offerLoc s c i else takeIn s c inp i more) = r →
      r.1.mem = s.mem ∧ ∀ f t, r.2 = some (f, t) → t.mem = s.mem := by
    rintro r rfl
    split
    · exact offerLoc_mem s c i
    · exact takeIn_mem s c inp i more
  unfold findIn
  split
  · simpa using (h _ ‹_›).1
  · obtain ⟨-, h2⟩ := h _ ‹_›
    have ht := h2 _ _ rfl
    split <;> simp [ht]

@[simp] theorem updFold_mem (c : CoreId) : (updFold s c).mem = s.mem := by
  simp [updFold]

@[simp] theorem loadFold_mem (c : CoreId) (inp i : Nat) (k : FlitCheck) : (loadFold s c inp i k).mem = s.mem := by
  obtain ⟨hn, hf⟩ := findIn_mem s c inp i 2 k
  unfold loadFold
  split
  · rfl
  · split <;> simp_all

@[simp] theorem sendOut_canonical {s : State} (h : Canonical s.mem) (c : CoreId) (p : Nat) (alt : Bool) (f : Flit) :
    Canonical (sendOut s c p alt f).mem := by
  simp only [sendOut]
  (repeat' split) <;> simp [h]

@[simp] theorem foldNode_canonical {s : State} (h : Canonical s.mem) (c : CoreId) (port : Nat) (e : TabEnt)
    (a b : FlitCheck) : Canonical (foldNode s c port e a b).mem := by
  simp only [foldNode]
  split <;> simp [h]

@[simp] theorem execFlitForward_canonical {s : State} (h : Canonical s.mem) (c : CoreId) (port : Fin 9) (slot : Fin 4096)
    (ecc : FlitChecks) : Canonical (after (execFlitForward c port slot ecc s) s).mem := by
  rw [execFlitForward, after_next]
  refine canonical_of_ite h ?_
  extract_lets s1
  have h1 : Canonical s1.mem := by simpa [s1] using h
  clear_value s1
  refine canonical_of_ite (by simp [h1]) (canonical_of_ite (by simp [h1]) ?_)
  split
  · next t heq =>
    have ht : t.mem = s1.mem := (findIn_mem s1 _ _ _ 0 ecc.first).2 _ _ (by rw [heq])
    exact sendOut_canonical (ht ▸ h1) ..
  · next t heq =>
    have ht : t.mem = s1.mem := (congrArg (·.1.mem) heq).symm.trans (findIn_mem s1 _ _ _ 0 ecc.first).1
    simpa [ht] using h1

@[simp] theorem execFlitExpire_mem (c : CoreId) (port : Fin 9) : (after (execFlitExpire c port s) s).mem = s.mem := by
  simp only [execFlitExpire]
  split <;> simp

@[simp] theorem execToken_mem (d : DieId) (seq : Fin 16) (crc : BitVec 8) :
    (after (execToken d seq crc s) s).mem = s.mem := by
  simp [execToken]

@[simp] theorem execStreamStall_mem (d : DieId) (i : Fin 32768) : (after (execStreamStall d i s) s).mem = s.mem := by
  simp [execStreamStall]

@[simp] theorem dropQueued_mem (p : DieId × Nat) : (dropQueued s p).mem = s.mem := by
  unfold dropQueued
  simp only
  rw [foldl_mem _ fun t m => by split <;> simp, foldl_mem _ fun t q => by simp]

@[simp] theorem stopStream_mem (d : DieId) (i : Nat) : (stopStream s d i).mem = s.mem := by
  simp [stopStream, foldl_mem]

@[simp] theorem execStreamStop_mem (r : Requester) (d : DieId) (i : Fin 32768) :
    (after (execStreamStop r d i s) s).mem = s.mem := by
  simp [execStreamStop]

@[simp] theorem execStreamRunComplete_mem (d : DieId) (i : Fin 32768) :
    (after (execStreamRunComplete d i s) s).mem = s.mem := by
  simp [execStreamRunComplete]

@[simp] theorem execSwap_mem (r : Requester) (d : DieId) : (after (execSwap r d s) s).mem = s.mem := by
  simp [execSwap]

@[simp] theorem applyKey_mem (d : DieId) (n : Nat) : (applyKey s d n).mem = s.mem := by
  unfold applyKey
  split <;> rfl

@[simp] theorem swapDie_mem (d : DieId) : (swapDie s d).mem = s.mem := by
  simp [swapDie, foldl_mem]

@[simp] theorem flipPeer_mem (l : List DieId) (p : DieId × Fin 9) : (flipPeer l s p).mem = s.mem := by
  unfold flipPeer
  split <;> simp

@[simp] theorem swapDies_mem (l : List DieId) : (swapDies s l).mem = s.mem := by
  simp [swapDies, foldl_mem]

@[simp] theorem dropSwap_mem (d : DieId) : (dropSwap s d).mem = s.mem := by
  simp [dropSwap]

@[simp] theorem execFallbackSwap_mem (d : DieId) : (after (execFallbackSwap d s) s).mem = s.mem := by
  simp [execFallbackSwap, foldl_mem]

@[simp] theorem bodyStrig_keeps {P : List Host.Cell → Prop} (c : CoreId) (w : IFields) (h : P s.mem) :
    (bodyStrig c w s).Keeps P := by
  refine withSrc_keeps h fun x t ht => ?_
  simp only
  split
  · trivial
  · split
    · trivial
    · exact withRanges_keeps (by simpa using ht)

@[simp] theorem execStrig_mem (c : CoreId) (w : IFields) : (after (execStrig c w s) s).mem = s.mem := by
  simp [execStrig]

@[simp] theorem bodySwait_keeps {P : List Host.Cell → Prop} (c : CoreId) (w : IFields) (h : P s.mem) :
    (bodySwait c w s).Keeps P := by
  refine withSrc_keeps h fun _ _ ht => ?_
  simp [ht]

@[simp] theorem execSwait_mem (c : CoreId) (w : IFields) : (after (execSwait c w s) s).mem = s.mem := by
  simp [execSwait]

@[simp] theorem bodySstat_keeps {P : List Host.Cell → Prop} (c : CoreId) (w : IFields) (h : P s.mem) :
    (bodySstat c w s).Keeps P :=
  withSrc_keeps h fun x t ht => by simpa using ht

@[simp] theorem execSstat_mem (c : CoreId) (w : IFields) : (after (execSstat c w s) s).mem = s.mem := by
  simp [execSstat]

end Sys2Proof.Machine
end

section
/-! SUPPORT. Memory after the operations of `Machine/Matrix.lean`: the matrix passes. -/

namespace Sys2Proof.Machine

variable (s : State)

@[simp] theorem updStat_mem (c : CoreId) : (updStat s c).mem = s.mem := by
  simp [updStat]

@[simp] theorem setPasses_mem (c : CoreId) (l : List Pass) : (setPasses s c l).mem = s.mem := by
  simp [setPasses]

@[simp] theorem emptyStat_mem (c : CoreId) : (emptyStat s c).mem = s.mem := by
  simp [emptyStat]

@[simp] theorem setPass_mem (c : CoreId) (p : Pass) : (setPass s c p).mem = s.mem := by
  simp [setPass]

@[simp] theorem mpassPost_mem (c : CoreId) (w : IFields) : (mpassPost c w s).mem = s.mem := by
  simp [mpassPost]

@[simp] theorem enterPass_mem (c : CoreId) (g : Geo) (d : PassDesc) : (enterPass s c g d).mem = s.mem := by
  simp [enterPass]

@[simp] theorem bodyMpass_keeps {P : List Host.Cell → Prop} (c : CoreId) (w : IFields) (h : P s.mem) :
    (bodyMpass c w s).Keeps P := by
  simp [bodyMpass, withRanges_keeps, h]

@[simp] theorem execMpass_mem (c : CoreId) (w : IFields) : (after (execMpass c w s) s).mem = s.mem := by
  simp [execMpass]

theorem waitSync_keeps {P : List Host.Cell → Prop} {s : State} {c : CoreId} {ok : Bool} {k : State → Eff}
    (hk : (k s).Keeps P) : (waitSync c s ok k).Keeps P := by
  unfold waitSync
  split
  · exact hk
  · simp

@[simp] theorem bodyMwait_keeps {P : List Host.Cell → Prop} (c : CoreId) (w : IFields) (h : P s.mem) :
    (bodyMwait c w s).Keeps P :=
  waitSync_keeps (by simp [h])

@[simp] theorem execMwait_mem (c : CoreId) (w : IFields) : (after (execMwait c w s) s).mem = s.mem := by
  simp [execMwait]

@[simp] theorem readTileRows_mem (c : CoreId) (g : Geo) (d : PassDesc) (base : Nat) :
    (readTileRows s c g d base).2.mem = s.mem :=
  foldl_keeps (fun r : List (List Nat) × State => r.2.mem = s.mem) _ (fun r k h => by simp [h]) _ _ rfl

@[simp] theorem readTileScales_mem (c : CoreId) (g : Geo) (d : PassDesc) : (readTileScales s c g d).2.mem = s.mem := by
  unfold readTileScales
  split <;> simp

@[simp] theorem tileError_mem (c : CoreId) (p : Pass) : (tileError s c p).mem = s.mem := by
  simp [tileError]

@[simp] theorem execTileLoadComplete_mem (c : CoreId) (parity : Bool) :
    (after (execTileLoadComplete c parity s) s).mem = s.mem := by
  unfold execTileLoadComplete
  (repeat' split) <;> simp

@[simp] theorem execPassSwap_mem (c : CoreId) : (after (execPassSwap c s) s).mem = s.mem := by
  simp only [execPassSwap]
  (repeat' split) <;> simp

theorem portRow_canonical {s : State} (h : Canonical s.mem) (c : CoreId) (isInt : Bool) (d : PassDesc) (oop chan : Nat)
    (res : List Nat) : Canonical (portRow s c isInt d oop chan res).1.mem := by
  unfold portRow
  refine spWrite_canonical ?_ ..
  split <;> simp [h]

@[simp] theorem portWeights_mem (c : CoreId) (g : Geo) (d : PassDesc) (chan : Nat) (sc : List Byte) :
    (portWeights s c g d chan sc).2.2.mem = s.mem := by
  unfold portWeights
  simp only
  (repeat' split) <;> simp

@[simp] theorem readAhead_mem (c : CoreId) (g : Geo) (d : PassDesc) (j total : Nat) (l : List RowGroup) (sc : List Byte) :
    (readAhead c g d j total l sc s).2.2.mem = s.mem :=
  foldl_keeps (fun r : List RowGroup × List Byte × State => r.2.2.mem = s.mem) _
    (fun r i h => foldl_keeps (fun q : RowGroup × List Byte × State => q.2.2.mem = s.mem) _ (fun q ch hq => by simp [hq])
      _ _ h)
    _ _ rfl

@[simp] theorem portCredits_mem (c : CoreId) (i n : Nat) : (portCredits s c i n).mem = s.mem := by
  induction n generalizing s with
  | zero => rfl
  | succ n ih => simp [portCredits, ih]

@[simp] theorem execRowGroupEntry_canonical {s : State} (h : Canonical s.mem) (c : CoreId) (parity : Bool) :
    Canonical (after (execRowGroupEntry c parity s) s).mem := by
  unfold execRowGroupEntry
  split
  · exact h
  · extract_lets u d g n last j chans si wait rows t s000 s00 y s0 buf srow fetched wcs wvs xcs xvs res isInt oop port at_
      half take samp x1 wfull xfull cap s1 cyc s2 f p1 s3
    refine canonical_after_ite h ?_
    have h00 : Canonical s00.mem := by
      simp only [s00, s000]
      simp [h]
    clear_value s00 rows
    have h0 : Canonical s0.mem := by
      simp only [s0]
      split <;> simp [h00]
    clear_value s0
    have hb : Canonical buf.2.2.mem := by
      simp only [buf]
      split <;> simp [h0]
    clear_value buf
    have hf : Canonical fetched.2.mem := by
      simp only [fetched]
      split <;> simp [h0, hb]
    clear_value fetched
    have hp : Canonical port.1.mem :=
      foldl_keeps (fun r : State × PFlags => Canonical r.1.mem) _ (fun r q hr => by exact portRow_canonical hr ..) _ _ hf
    clear_value port
    have h1 : Canonical s1.mem := by
      simp only [s1]
      refine canonical_of_ite (canonical_of_ite ?_ ?_) hp <;> simpa using hp
    clear_value s1
    have h3 : Canonical s3.mem := by simpa [s3, s2] using h1
    rw [after_next, setPass_mem]
    exact h3

end Sys2Proof.Machine
end

section
/-! SUPPORT. Memory after the operations of `Machine/Sync.lean`: barriers and phases. -/

namespace Sys2Proof.Machine

variable (s : State)

@[simp] theorem setArrived_mem (d : DieId) (g v : Nat) : (setArrived s d g v).mem = s.mem := by
  simp [setArrived]

@[simp] theorem arrive_mem (c : CoreId) (g : Nat) : (arrive s c g).mem = s.mem := by
  simp [arrive]

@[simp] theorem unarrive_mem (c : CoreId) (g : Nat) : (unarrive s c g).mem = s.mem := by
  simp [unarrive]

@[simp] theorem setBarWait_mem (c : CoreId) (w : Option (Nat × BarKind)) : (setBarWait s c w).mem = s.mem := by
  simp [setBarWait]

@[simp] theorem withdraw_mem (c : CoreId) : (withdraw s c).mem = s.mem := by
  unfold withdraw
  split <;> simp

@[simp] theorem barPass_mem (c : CoreId) : (barPass s c).mem = s.mem := by
  simp [barPass]

@[simp] theorem releaseCore_mem (g : Nat) (c : CoreId) : (releaseCore s g c).mem = s.mem := by
  simp only [releaseCore]
  (repeat' split) <;> simp

@[simp] theorem completeRound_mem (d : DieId) (g : Nat) : (completeRound s d g).mem = s.mem := by
  simp [completeRound, foldl_mem]

@[simp] theorem updSeal_mem (g : Gather) : (updSeal s g).mem = s.mem := by
  simp [updSeal]

@[simp] theorem updSeals_mem : (updSeals s).mem = s.mem := by
  simp [updSeals, foldl_mem]

@[simp] theorem startCore_mem (ph : Nat) (c : CoreId) : (startCore ph s c).mem = s.mem := by
  unfold startCore
  simp only
  split <;> simp

@[simp] theorem startPhase_mem (g : Gather) (grp : Nat) : (startPhase s g grp).mem = s.mem := by
  simp [startPhase, foldl_mem]

@[simp] theorem enterAt_mem (c : CoreId) (ph rung : Nat) : (enterAt s c ph rung).mem = s.mem := by
  simp [enterAt]

@[simp] theorem endPhase_mem (g : Gather) (grp : Nat) : (endPhase s g grp).mem = s.mem := by
  unfold endPhase
  simp only
  rw [foldl_mem _ fun t c => by split <;> simp]
  simp

@[simp] theorem beginStep_mem (g : Gather) : (beginStep s g).mem = s.mem := by
  simp [beginStep, foldl_mem]

@[simp] theorem execBarrierRelease_mem (d : DieId) (g : Fin 64) : (after (execBarrierRelease d g s) s).mem = s.mem := by
  simp [execBarrierRelease]

@[simp] theorem execBarrierStall_mem (d : DieId) (g : Fin 64) : (after (execBarrierStall d g s) s).mem = s.mem := by
  simp [execBarrierStall]

@[simp] theorem execSyncParity_mem (d : DieId) (bundle : Fin 2) (at_ : Pos) :
    (after (execSyncParity d bundle at_ s) s).mem = s.mem := by
  simp [execSyncParity]

@[simp] theorem execSync_mem (m : SyncMsg) (seq : Fin 16) (crc : BitVec 8) :
    (after (execSync m seq crc s) s).mem = s.mem := by
  cases m <;> simp [execSync, foldl_mem]

@[simp] theorem resetCross_mem (d : DieId) : (resetCross s d).mem = s.mem := by
  simp [resetCross, foldl_mem]

@[simp] theorem dueCross_mem (d : DieId) : (dueCross s d).mem = s.mem := by
  unfold dueCross
  split <;> simp

@[simp] theorem reapplyMasks_mem (s0 : State) (d : DieId) : (reapplyMasks s0 s d).mem = s.mem :=
  foldl_mem _ (fun t g => by simp) _ s

theorem barHold_keeps {P : List Host.Cell → Prop} (c : CoreId) (g : Nat) (k : BarKind) (again : Bool) :
    (barHold c g k again).Keeps P := by
  intro u h
  simpa using h

@[simp] theorem bodyBar_keeps {P : List Host.Cell → Prop} (c : CoreId) (w : IFields) : (bodyBar c w s).Keeps P := by
  rw [bodyBar]
  exact waitSync_keeps (barHold_keeps c _ _ _)

@[simp] theorem execBar_mem (c : CoreId) (w : IFields) : (after (execBar c w s) s).mem = s.mem := by
  simp [execBar]

@[simp] theorem bodyBara_keeps {P : List Host.Cell → Prop} (c : CoreId) (w : IFields) (h : P s.mem) :
    (bodyBara c w s).Keeps P := by
  unfold bodyBara
  simp only
  split
  · exact barHold_keeps c _ _ _
  · exact waitSync_keeps (by simp [h])

@[simp] theorem execBara_mem (c : CoreId) (w : IFields) : (after (execBara c w s) s).mem = s.mem := by
  simp [execBara]

@[simp] theorem bodyBarw_keeps {P : List Host.Cell → Prop} (c : CoreId) (w : IFields) : (bodyBarw c w s).Keeps P := by
  simp [bodyBarw]

@[simp] theorem execBarw_mem (c : CoreId) (w : IFields) : (after (execBarw c w s) s).mem = s.mem := by
  simp [execBarw]

@[simp] theorem bodyPhstart_keeps {P : List Host.Cell → Prop} (c : CoreId) (h : P s.mem) : (bodyPhstart c s).Keeps P := by
  unfold bodyPhstart
  split
  · trivial
  · split
    · exact h
    · simp [barHold]

@[simp] theorem execPhstart_mem (c : CoreId) (w : IFields) : (after (execPhstart c w s) s).mem = s.mem := by
  simp [execPhstart]

@[simp] theorem bodyPhend_keeps {P : List Host.Cell → Prop} (c : CoreId) : (bodyPhend c s).Keeps P := by
  unfold bodyPhend
  split
  · trivial
  · simp only
    split
    · simp [barHold]
    · exact waitSync_keeps (by simp [barHold])

@[simp] theorem execPhend_mem (c : CoreId) (w : IFields) : (after (execPhend c w s) s).mem = s.mem := by
  simp [execPhend]

end Sys2Proof.Machine
end

section
/-! SUPPORT. Memory after the operations of `Machine/System.lean`: the system instructions and traps. -/

namespace Sys2Proof.Machine

variable (s : State)

@[simp] theorem passComplete_mem (c : CoreId) : (passComplete c s).mem = s.mem := by
  unfold passComplete
  split <;> simp

@[simp] theorem execPassComplete_mem (c : CoreId) : (after (execPassComplete c s) s).mem = s.mem := by
  simp [execPassComplete]

@[simp] theorem execShadowRecompute_mem (c : CoreId) : (after (execShadowRecompute c s) s).mem = s.mem := by
  unfold execShadowRecompute
  split <;> simp [foldl_mem]

@[simp] theorem bodyCsrr_keeps {P : List Host.Cell → Prop} (c : CoreId) (w : IFields) (h : P s.mem) :
    (bodyCsrr c w s).Keeps P := by
  unfold bodyCsrr
  split
  · simpa [csrRead_mem s ‹_›] using h
  · trivial

@[simp] theorem execCsrr_mem (c : CoreId) (w : IFields) : (after (execCsrr c w s) s).mem = s.mem := by
  simp [execCsrr]

@[simp] theorem execNop_mem (c : CoreId) (w : IFields) : (after (execNop c w s) s).mem = s.mem := by
  simp [execNop]

@[simp] theorem bodyFence_keeps {P : List Host.Cell → Prop} (c : CoreId) (w : IFields) (h : P s.mem) :
    (bodyFence c w s).Keeps P :=
  waitSync_keeps (by simp [h])

@[simp] theorem execFence_mem (c : CoreId) (w : IFields) : (after (execFence c w s) s).mem = s.mem := by
  simp [execFence]

@[simp] theorem execTrap_mem (c : CoreId) (w : IFields) : (after (execTrap c w s) s).mem = s.mem := by
  simp [execTrap]

@[simp] theorem bodyHalt_keeps {P : List Host.Cell → Prop} (c : CoreId) : (bodyHalt c s).Keeps P :=
  waitSync_keeps (by simp)

@[simp] theorem execHalt_mem (c : CoreId) (w : IFields) : (after (execHalt c w s) s).mem = s.mem := by
  simp [execHalt]

@[simp] theorem execIllegal_mem (c : CoreId) : (after (execIllegal c s) s).mem = s.mem := by
  simp [execIllegal]

@[simp] theorem execImemUe_mem (c : CoreId) : (after (execImemUe c s) s).mem = s.mem := by
  simp [execImemUe]

@[simp] theorem trapAction_mem {r : Requester} {c : CoreId} {k : State → State} (hk : ∀ t, (k t).mem = t.mem) :
    (trapAction r c s k).mem = s.mem := by
  simp [trapAction, hk]

@[simp] theorem resumeCore_mem (c : CoreId) : (resumeCore s c).mem = s.mem := by
  simp [resumeCore]

@[simp] theorem execResume_mem (r : Requester) (c : CoreId) : (after (execResume r c s) s).mem = s.mem := by
  simp [execResume]

@[simp] theorem skipCore_mem (c : CoreId) : (skipCore s c).mem = s.mem := by
  simp [skipCore]

@[simp] theorem execSkip_mem (r : Requester) (c : CoreId) : (after (execSkip r c s) s).mem = s.mem := by
  simp [execSkip]

@[simp] theorem gotoCore_mem (c : CoreId) (n : Nat) : (gotoCore s c n).mem = s.mem := by
  simp [gotoCore]

@[simp] theorem execGoto_mem (r : Requester) (c : CoreId) (newpc : BitVec 13) :
    (after (execGoto r c newpc s) s).mem = s.mem := by
  simp [execGoto]

@[simp] theorem stopCore_mem (c : CoreId) : (stopCore s c).mem = s.mem := by
  unfold stopCore
  (repeat' split) <;> simp

@[simp] theorem execTrapctlStop_mem (r : Requester) (c : CoreId) : (after (execTrapctlStop r c s) s).mem = s.mem := by
  simp [execTrapctlStop]

@[simp] theorem regWrite_mem {r : Requester} {c : CoreId} {k : State → State} (hk : (k s).mem = s.mem) :
    (regWrite r c s k).mem = s.mem := by
  simp [regWrite, hk]

@[simp] theorem execCsSregWrite_mem (r : Requester) (c : CoreId) (n : Fin 32) (v : Word) :
    (after (execCsSregWrite r c n v s) s).mem = s.mem := by
  simp [execCsSregWrite]

@[simp] theorem execCsAregWrite_mem (r : Requester) (c : CoreId) (n : Fin 16) (high : Bool) (v : Word) :
    (after (execCsAregWrite r c n high v s) s).mem = s.mem := by
  simp [execCsAregWrite]

end Sys2Proof.Machine
end

section
/-! SUPPORT. Memory after the operations of `Machine/Seal.lean`: sealing. -/

namespace Sys2Proof.Machine

variable (s : State)

@[simp] theorem sendVerdict_mem (v : VerdictMsg) (own : Bool) : (sendVerdict s v own).mem = s.mem := by
  simp [sendVerdict, foldl_mem]

@[simp] theorem judged_mem (g : Gather) (q cause : Nat) (recalled : Bool) :
    (judged s g q cause recalled).mem = s.mem := by
  simp [judged]

@[simp] theorem recallFrom_mem (g : Gather) (q first rung : Nat) : (recallFrom s g q first rung).mem = s.mem := by
  simp [recallFrom, foldl_mem]

@[simp] theorem giveUpStep_mem (g : Option Gather) : (giveUpStep s g).mem = s.mem := by
  unfold giveUpStep
  simp only [loseRuns_mem]
  exact foldl_mem _ (fun t h => by split <;> simp) _ s

@[simp] theorem giveUp_mem (g : Gather) : (giveUp s g).mem = s.mem := by
  simp [giveUp]

@[simp] theorem sealPhase_mem (g : Gather) (p : PhaseX) (cause : Nat) : (sealPhase s g p cause).mem = s.mem := by
  simp [sealPhase]

@[simp] theorem judge_mem (g : Gather) (p : PhaseX) : (judge s g p).mem = s.mem := by
  simp [judge]

@[simp] theorem execSealVerdict_mem (g : Gather) : (after (execSealVerdict g s) s).mem = s.mem := by
  unfold execSealVerdict
  split <;> simp

@[simp] theorem forceRecall_mem (g : Gather) : (forceRecall s g).mem = s.mem := by
  unfold forceRecall
  split <;> simp

@[simp] theorem flushCore_mem (c : CoreId) (phs : List Nat) : (flushCore s c phs).mem = s.mem := by
  rw [flushCore]
  generalize ht : flushStreams _ _ _ = t
  have h : t.mem = s.mem := by simp [← ht]
  generalize gatherOf _ c = o
  cases o <;> simp [h]

@[simp] theorem verdictCore_mem (c : CoreId) (v : VerdictMsg) : (verdictCore s c v).mem = s.mem := by
  simp [verdictCore, foldl_mem]

@[simp] theorem verdictGather_mem (h : Gather) (v : VerdictMsg) : (verdictGather s h v).mem = s.mem := by
  simp only [verdictGather]
  (repeat' split) <;> simp

@[simp] theorem execRerunStart_mem (g : Gather) : (after (execRerunStart g s) s).mem = s.mem := by
  simp only [execRerunStart]
  split <;> simp [foldl_mem]

@[simp] theorem rungReturn_mem (g : Gather) : (rungReturn s g).mem = s.mem := by
  simp [rungReturn]

end Sys2Proof.Machine
end

section
/-! SUPPORT. Memory after the operations of `Machine/Scratch.lean`: the scratchpads. -/

namespace Sys2Proof.Machine

variable (s : State)

@[simp] theorem setArb_mem (c : CoreId) (bank : Nat) (q : DynReq) (a : ArbReq) : (setArb s c bank q a).mem = s.mem := by
  simp [setArb]

@[simp] theorem arbLose_mem (bank : Nat) (c : CoreId) (q : DynReq) : (arbLose bank c s q).mem = s.mem := by
  simp [arbLose]

@[simp] theorem markLine_mem (c : CoreId) (line word : Nat) (e : EccFind) : (markLine s c line word e).mem = s.mem := by
  unfold markLine
  split <;> rfl

@[simp] theorem lineAccess_mem (c : CoreId) (line : Nat) (a : BankAccess) (req : Nat) :
    (lineAccess s c line a req).mem = s.mem := by
  unfold lineAccess
  split <;> simp

@[simp] theorem execBankGrant_mem (c : CoreId) (bank : Fin 16) (a : BankAccess) :
    (after (execBankGrant c bank a s) s).mem = s.mem := by
  simp only [execBankGrant]
  (repeat' split) <;> simp [foldl_mem]

@[simp] theorem execBankBackoffExpiry_mem (c : CoreId) (bank : Fin 16) (q : DynReq) :
    (after (execBankBackoffExpiry c bank q s) s).mem = s.mem := by
  simp [execBankBackoffExpiry]

@[simp] theorem execEccWriteback_mem (c : CoreId) (word : Nat) : (after (execEccWriteback c word s) s).mem = s.mem := by
  simp [execEccWriteback]

@[simp] theorem execRowMapOut_mem (c : CoreId) (row : Nat) : (after (execRowMapOut c row s) s).mem = s.mem := by
  simp [execRowMapOut]

@[simp] theorem execMapOutComplete_mem (c : CoreId) : (after (execMapOutComplete c s) s).mem = s.mem := by
  unfold execMapOutComplete
  split <;> simp [foldl_mem]

@[simp] theorem execPatrolScrub_mem (c : CoreId) (bank : Fin 16) (e : EccFind) :
    (after (execPatrolScrub c bank e s) s).mem = s.mem := by
  simp [execPatrolScrub]

@[simp] theorem startZero_mem (c : CoreId) : (startZero s c).mem = s.mem := by
  simp [startZero]

@[simp] theorem execZero_mem (r : Requester) (c : CoreId) : (after (execZero r c s) s).mem = s.mem := by
  simp [execZero]

@[simp] theorem execZeroComplete_canonical {s : State} (h : Canonical s.mem) (c : CoreId) :
    Canonical (after (execZeroComplete c s) s).mem := by
  simp [execZeroComplete, h]

@[simp] theorem execRcinv_mem (r : Requester) (c : CoreId) : (after (execRcinv r c s) s).mem = s.mem := by
  simp [execRcinv]

@[simp] theorem execRcinvComplete_mem (c : CoreId) : (after (execRcinvComplete c s) s).mem = s.mem := by
  simp [execRcinvComplete]

end Sys2Proof.Machine
end

section
/-! SUPPORT. Memory after the operations of `Machine/Messages.lean`: queue messages and replies. -/

namespace Sys2Proof.Machine

variable (s : State)

@[simp] theorem retrySend_mem (c : CoreId) : (retrySend s c).mem = s.mem := by
  unfold retrySend
  refine ite_mem (ite_mem ?_ (ite_mem ?_ rfl)) rfl
  · exact commitEff_keeps (P := (· = s.mem)) rfl (by simp) c
  · exact commitEff_keeps (P := (· = s.mem)) rfl (by simp) c

@[simp] theorem setHubSend_mem (e : HubSend) : (setHubSend s e).mem = s.mem := by
  simp [setHubSend]

@[simp] theorem hubMsg_mem (h : Nat) (b : QBody) : (hubMsg s h b).mem = s.mem := by
  simp [hubMsg]

@[simp] theorem hubTrySend_mem (n : Nat) (r : SlotRun) : (hubTrySend s n r).mem = s.mem := by
  simp only [hubTrySend]
  split <;> simp

@[simp] theorem hubTryRing_mem (n : Nat) (r : SlotRun) : (hubTryRing s n r).mem = s.mem := by
  simp only [hubTryRing]
  split <;> simp [foldl_mem]

@[simp] theorem hubTry_mem (n : Nat) (r : SlotRun) : (hubTry s n r).mem = s.mem := by
  simp [hubTry]

@[simp] theorem hubRetry_mem (h : Nat) : (hubRetry s h).mem = s.mem := by
  simp [hubRetry, foldl_mem]

@[simp] theorem hubStale_mem (h : Nat) : (hubStale s h).mem = s.mem := by
  simp [hubStale, foldl_mem]

@[simp] theorem execQmsg_canonical {s : State} (h : Canonical s.mem) (c : CoreId) (m : QMsg) :
    Canonical (after (execQmsg c m s) s).mem := by
  rw [execQmsg, after_next]
  exact toCore_canonical h (landMsg_canonical h c m)

@[simp] theorem takeFlush_mem (c : CoreId) (h : Nat) : (takeFlush c h s).mem = s.mem := by
  simp [takeFlush]

@[simp] theorem execFlush_mem (c : CoreId) (handle : Word) : (after (execFlush c handle s) s).mem = s.mem := by
  simp [execFlush]

@[simp] theorem takeCredit_mem (c : CoreId) (h entries lines : Nat) : (takeCredit c h entries lines s).mem = s.mem := by
  unfold takeCredit
  split <;> simp

@[simp] theorem execQcredit_mem (n : NodeId) (handle : Word) (entries lines : Nat) :
    (after (execQcredit n handle entries lines s) s).mem = s.mem := by
  unfold execQcredit
  split <;> simp

@[simp] theorem execQcreditTimer_mem (c : CoreId) (q : Fin 256) : (after (execQcreditTimer c q s) s).mem = s.mem := by
  simp [execQcreditTimer]

@[simp] theorem execRingRelease_mem (c : CoreId) (q : Fin 256) (count : BitVec 8) :
    (after (execRingRelease c q count s) s).mem = s.mem := by
  simp [execRingRelease]

@[simp] theorem endHandle_mem (c : CoreId) (dest v : Nat) : (endHandle s c dest v).mem = s.mem := by
  simp [endHandle]

@[simp] theorem ackHandle_mem (n : NodeId) (h : Nat) (f : Option Nat) : (ackHandle n h f s).mem = s.mem := by
  simp [ackHandle]

@[simp] theorem takeCreate_mem (c : CoreId) (h : Nat) (ring : Bool) (depth lines : Nat) :
    (takeCreate c h ring depth lines s).mem = s.mem := by
  unfold takeCreate
  split
  · simp [installSend_mem s ‹_›]
  · simp

@[simp] theorem execHandleCreate_mem (n : NodeId) (handle : Word) (ring : Bool) (depth lines : Nat) :
    (after (execHandleCreate n handle ring depth lines s) s).mem = s.mem := by
  unfold execHandleCreate
  split <;> simp

@[simp] theorem dropChannel_mem (c : CoreId) (h : Nat) : (dropChannel s c h).mem = s.mem := by
  unfold dropChannel
  split <;> simp [foldl_mem]

@[simp] theorem execHandleDestroy_mem (n : NodeId) (handle : Word) :
    (after (execHandleDestroy n handle s) s).mem = s.mem := by
  unfold execHandleDestroy
  split <;> simp

@[simp] theorem purgeDie_mem (d : DieId) : (purgeDie s d).mem = s.mem := by
  simp [purgeDie, foldl_mem]

@[simp] theorem execHandlePurge_mem (d : DieId) : (after (execHandlePurge d s) s).mem = s.mem := by
  simp [execHandlePurge]

@[simp] theorem endDestroy_mem (c : CoreId) (q : Nat) : (endDestroy s c q).mem = s.mem := by
  simp [endDestroy]

@[simp] theorem takeAck_mem (c : CoreId) (h : Nat) (fail : Option Nat) : (takeAck c h fail s).mem = s.mem := by
  unfold takeAck
  (repeat' split) <;> simp

@[simp] theorem execHandleAck_mem (c : CoreId) (handle : Word) (fail : Option Nat) :
    (after (execHandleAck c handle fail s) s).mem = s.mem := by
  simp [execHandleAck]

@[simp] theorem firmwareDestroy_mem (c : CoreId) (q : Nat) : (firmwareDestroy s c q).mem = s.mem := by
  simp [firmwareDestroy]

@[simp] theorem execCqCmdDestroy_mem (r : Requester) (c : CoreId) (q : Fin 256) :
    (after (execCqCmdDestroy r c q s) s).mem = s.mem := by
  simp [execCqCmdDestroy]

@[simp] theorem dropReq_mem (c : CoreId) (q : NetReq) : (dropReq s c q).mem = s.mem := by
  simp [dropReq]

@[simp] theorem execRdrsp_canonical {s : State} (h : Canonical s.mem) (c : CoreId) (tag : BitVec 12) (fault : Bool)
    (data : List Byte) : Canonical (after (execRdrsp c tag fault data s) s).mem := by
  unfold execRdrsp
  split <;> simp [h]

@[simp] theorem takeWrrsp_mem (c : CoreId) (tag : Nat) (ok : Bool) : (takeWrrsp c tag ok s).mem = s.mem := by
  unfold takeWrrsp
  split <;> simp

@[simp] theorem execWrrsp_mem (c : CoreId) (tag : BitVec 12) (ok : Bool) :
    (after (execWrrsp c tag ok s) s).mem = s.mem := by
  simp [execWrrsp]

@[simp] theorem execCnTimeout_mem (c : CoreId) (tag : BitVec 12) : (after (execCnTimeout c tag s) s).mem = s.mem := by
  unfold execCnTimeout
  split <;> simp

@[simp] theorem execBlockedSend_mem (c : CoreId) : (after (execBlockedSend c s) s).mem = s.mem := by
  simp [execBlockedSend]

@[simp] theorem setReports_mem (k : Nat) (l : List BlockReport) : (setReports s k l).mem = s.mem := by
  simp [setReports]

@[simp] theorem execTrapPacket_mem (c : CoreId) (code dest own : Nat) :
    (after (execTrapPacket c code dest own s) s).mem = s.mem := by
  simp [execTrapPacket]

@[simp] theorem endBlocked_mem (c : CoreId) (skip : Bool) : (endBlocked s c skip).mem = s.mem := by
  simp [endBlocked]

@[simp] theorem unmatched_mem (r : BlockReport) : (unmatched s r).mem = s.mem := by
  simp [unmatched]

@[simp] theorem execDeadlockResolve_mem (col : Collector) (a b : BlockReport) :
    (after (execDeadlockResolve col a b s) s).mem = s.mem := by
  simp [execDeadlockResolve]

end Sys2Proof.Machine
end

section
/-! SUPPORT. Memory after the operations of `Machine/Rows.lean`: fences and shifts of a row. -/

namespace Sys2Proof.Machine

variable (s : State)

@[simp] theorem setPos_mem (d r c v : Nat) : (setPos s d r c v).mem = s.mem := by
  simp [setPos]

@[simp] theorem setLmap_mem (d r : Nat) (l : List Nat) : (setLmap s d r l).mem = s.mem := by
  simp [setLmap, foldl_mem]

@[simp] theorem updRow_mem (d r : Nat) : (updRow s d r).mem = s.mem := by
  simp [updRow, foldl_mem]

@[simp] theorem requestFence_mem (d : DieId) (r : Nat) (cs : List Nat) : (requestFence s d r cs).mem = s.mem := by
  simp [requestFence, foldl_mem]

@[simp] theorem execFenceReq_mem (r : Requester) (d : DieId) (row : Fin 8) (cols : BitVec 10) :
    (after (execFenceReq r d row cols s) s).mem = s.mem := by
  simp [execFenceReq]

@[simp] theorem applyFences_mem (d : DieId) (r : Nat) : (applyFences s d r).mem = s.mem := by
  simp [applyFences, foldl_mem]

@[simp] theorem execFenceShift_mem (d : DieId) (row : Fin 8) : (after (execFenceShift d row s) s).mem = s.mem := by
  unfold execFenceShift
  split <;> simp

@[simp] theorem markDegraded_mem (d : DieId) : (markDegraded s d).mem = s.mem := by
  simp [markDegraded, foldl_mem]

@[simp] theorem settleRow_mem (d r : Nat) : (settleRow s d r).mem = s.mem := by
  simp [settleRow, foldl_mem]

@[simp] theorem refetchMoved_mem (cs : List CoreId) : (refetchMoved s cs).mem = s.mem := by
  simp [refetchMoved, foldl_mem]

@[simp] theorem execShiftComplete_canonical {s : State} (h : Canonical s.mem) (d : DieId) (row : Fin 8) :
    Canonical (after (execShiftComplete d row s) s).mem := by
  rw [execShiftComplete, after_next]
  split
  · exact h
  · extract_lets ps s0 x s1 s2 s3
    have h2 : Canonical s2.mem := by simpa [s2, s1, s0] using h
    clear_value s2
    have h3 : Canonical s3.mem := foldl_canonical (fun t k ht => by simp [ht]) h2 _
    clear_value s3
    exact canonical_of_ite h (by simpa using h3)

@[simp] theorem endSpareWakes_mem (d : DieId) : (endSpareWakes s d).mem = s.mem := by
  simp [endSpareWakes, foldl_mem]

@[simp] theorem mapDie_mem (d : DieId) : (mapDie s d).mem = s.mem := by
  simp [mapDie, foldl_mem]

end Sys2Proof.Machine
end

section
/-! SUPPORT. Memory after the operations of `Machine/Links.lean`: the link groups. -/

namespace Sys2Proof.Machine

variable (s : State)

@[simp] theorem dropPayload_mem (p : PortId) (sub : Nat) (f : Flit) : (dropPayload s p sub f).mem = s.mem := by
  unfold dropPayload
  split <;> rfl

@[simp] theorem stackFlit_canonical {s : State} (h : Canonical s.mem) (k : Fin 16) (f : Flit) :
    Canonical (stackFlit s k f).mem := by
  unfold stackFlit
  extract_lets d i dst ls ok s1
  have h1 : Canonical s1.mem := foldl_canonical (fun t q ht => by split <;> simp [ht]) (by simp [h]) ok
  refine canonical_of_ite h (canonical_of_ite ?_ ?_) <;> simp [h1]

@[simp] theorem fillSpan_mem (m : Fin 8) : (fillSpan s m).mem = s.mem := by
  simp [fillSpan]

@[simp] theorem hubFlit_canonical {s : State} (h : Canonical s.mem) (d : DieId) (f : Flit) :
    Canonical (hubFlit s d f).mem := by
  unfold hubFlit
  extract_lets i ls c ok s1 s2
  have h1 : Canonical s1.mem := foldl_canonical (fun t q ht => by split <;> simp [ht]) (by simp [h]) ok
  clear_value s1
  have h2 : Canonical s2.mem := by simpa [s2] using h1
  clear_value s2 ls ok
  split
  · exact h
  · split
    · split <;> simp [h2]
    · split <;> simp [h]

@[simp] theorem spanFlit_mem (m : Fin 8) (f : Flit) : (spanFlit s m f).mem = s.mem := by
  unfold spanFlit
  split <;> simp

@[simp] theorem deliver_canonical {s : State} (h : Canonical s.mem) (p : PortId) (pl : Payload) :
    Canonical (deliver s p pl).mem := by
  unfold deliver
  (repeat' split) <;> simp [h]

@[simp] theorem countSpares_mem (p : PortId) : (countSpares s p).mem = s.mem := by
  simp [countSpares]

@[simp] theorem useSpare_mem (p : PortId) (lane k : Nat) : (useSpare s p lane k).mem = s.mem := by
  simp [useSpare, foldl_mem]

@[simp] theorem loseGroup_mem (p : PortId) (lane : Nat) : (loseGroup s p lane).mem = s.mem := by
  simp [loseGroup]

@[simp] theorem loseSpare_mem (p : PortId) (wire : Nat) : (loseSpare s p wire).mem = s.mem := by
  simp [loseSpare]

@[simp] theorem steerNow_mem (p : PortId) (wire : Nat) : (steerNow s p wire).mem = s.mem := by
  simp only [steerNow]
  (repeat' split) <;> simp

@[simp] theorem settleLanes_mem (p : PortId) : (settleLanes s p).mem = s.mem := by
  unfold settleLanes
  split <;> simp

@[simp] theorem sendLcmd_mem (p : PortId) (w : Nat) : (sendLcmd s p w).mem = s.mem := by
  simp [sendLcmd]

@[simp] theorem applyChanges_mem (p : PortId) (tx : Bool) (gseq : Nat) : (applyChanges s p tx gseq).mem = s.mem := by
  unfold applyChanges
  simp only
  rw [foldl_mem _ fun t c => by split <;> simp]
  simp

@[simp] theorem takeLcmd_mem (p : PortId) (w : Nat) : (takeLcmd s p w).mem = s.mem := by
  unfold takeLcmd
  split <;> rfl

@[simp] theorem takeCross_mem (p : PortId) : (takeCross s p).1.mem = s.mem := by
  unfold takeCross
  split <;> simp

@[simp] theorem formGroup_mem (p : PortId) : (formGroup s p).1.mem = s.mem := by
  unfold formGroup
  simp only
  split
  · rfl
  · split
    · simp
    · split
      · simp
      · split <;> simp

@[simp] theorem takeHeader_mem (p : PortId) (ack : Nat) (nak : Bool) : (takeHeader s p ack nak).mem = s.mem := by
  simp [takeHeader]

@[simp] theorem badGroup_mem (p : PortId) (lanes : List Nat) : (badGroup s p lanes).mem = s.mem := by
  simp [badGroup, foldl_mem]

@[simp] theorem spanCredit_mem (m : Fin 8) (q : Nat × Nat) : (spanCredit s m q).mem = s.mem := by
  unfold spanCredit
  split <;> simp

@[simp] theorem takeBeat_mem (p : PortId) (g : LGroup) : (takeBeat s p g).mem = s.mem := by
  unfold takeBeat
  simp only [takeLcmd_mem]
  split
  · simp
    split <;> simp
  · split <;> simp

@[simp] theorem deliverGroups_canonical {s : State} (h : Canonical s.mem) (fuel : Nat) (p : PortId) (g : LGroup) :
    Canonical (deliverGroups fuel s p g).mem := by
  induction fuel generalizing s g with
  | zero => exact h
  | succ n ih =>
    unfold deliverGroups
    split
    · simp [h]
    · extract_lets x y s2
      have h2 : Canonical s2.mem := by
        simp only [s2, takeBeat_mem]
        exact foldl_canonical (fun t pl ht => deliver_canonical ht p pl) (by simpa using h) _
      split
      · exact h2
      · exact canonical_of_ite (ih (by simpa using h2) _) h2

@[simp] theorem goodGroup_canonical {s : State} (h : Canonical s.mem) (p : PortId) (g : LGroup) :
    Canonical (goodGroup s p g).mem := by
  simp [goodGroup, h]

@[simp] theorem startRetrain_mem (p : PortId) : (startRetrain s p).mem = s.mem := by
  unfold startRetrain
  split
  · exact foldl_mem _ (fun t q => by simp only; split <;> simp) _ s
  · rfl

@[simp] theorem failedReplay_mem (p : PortId) : (failedReplay s p).mem = s.mem := by
  simp [failedReplay]

@[simp] theorem portDown_mem (p : PortId) : (portDown s p).mem = s.mem := by
  simp [portDown, foldl_mem]

@[simp] theorem linkFault_mem (p : PortId) : (linkFault s p).mem = s.mem := by
  simp [linkFault]

@[simp] theorem emitIdent_mem (m : Fin 8) (nonce : Nat) : (emitIdent s m nonce).mem = s.mem :=
  foldl_mem _ (fun t _ => State.emit_mem t _) _ s

@[simp] theorem sendIdent_mem (m : Fin 8) : (sendIdent s m).mem = s.mem := by
  simp [sendIdent]

@[simp] theorem repeatIdent_mem (p : PortId) : (repeatIdent s p).mem = s.mem := by
  simp only [repeatIdent]
  (repeat' split) <;> simp

@[simp] theorem sendSpan_mem (m : Fin 8) : (sendSpan s m).mem = s.mem := by
  have h := formGroup_mem s (.span m)
  unfold sendSpan
  simp only
  split <;> simp_all

@[simp] theorem authFails_mem (p : PortId) : (authFails s p).mem = s.mem := by
  simp [authFails]

@[simp] theorem countFec_mem (p : PortId) (g : SpanGroup) : (countFec s p g).mem = s.mem := by
  simp [countFec]

@[simp] theorem takeGroup_canonical {s : State} (h : Canonical s.mem) (p : PortId) (q : Option PortId) (rpl : Bool)
    (g : LGroup) : Canonical (takeGroup s p q rpl g).mem := by
  unfold takeGroup
  split <;> simp [h]

@[simp] theorem receiveCane_canonical {s : State} (h : Canonical s.mem) (p q : PortId) (errs : List WireErr) :
    Canonical (receiveCane s p q errs).mem := by
  have hg := formGroup_mem s q
  unfold receiveCane
  split
  · next heq =>
    rw [heq] at hg
    exact hg ▸ h
  · next t g rpl heq =>
    rw [heq] at hg
    extract_lets y ack t0 t1 w hd r t2
    have h1 : Canonical t1.mem := by
      have : t.mem = s.mem := hg
      simp [t1, t0, this, h]
    clear_value t1 r
    have h2 : Canonical t2.mem := by simpa [t2] using h1
    refine canonical_of_ite (takeGroup_canonical (by simpa using h1) ..) (canonical_of_ite ?_ h2)
    simpa using h2

@[simp] theorem receiveSpan_canonical {s : State} (h : Canonical s.mem) (m : Fin 8) (g : SpanGroup) :
    Canonical (receiveSpan s m g).mem := by
  unfold receiveSpan
  extract_lets p t
  have ht : Canonical t.mem := by simpa [t] using h
  clear_value t
  split
  · extract_lets again t1
    have h1 : Canonical t1.mem := by simpa [t1] using ht
    exact takeGroup_canonical (by simpa using h1) ..
  · simpa using ht
  · simpa using ht

@[simp] theorem linkBeatAt_canonical {s : State} (h : Canonical s.mem) (p : PortId) (errs : List WireErr)
    (grp : Option SpanGroup) : Canonical (linkBeatAt s p errs grp).mem := by
  unfold linkBeatAt
  split <;> simp [h]

@[simp] theorem execAckTimeout_mem (p : PortId) : (after (execAckTimeout p s) s).mem = s.mem := by
  simp only [execAckTimeout]
  split <;> simp

@[simp] theorem addChange_mem (p : PortId) (c : LaneChange) : (addChange s p c).mem = s.mem := by
  simp [addChange]

@[simp] theorem execSteer_mem (p : PortId) (lane : Fin 256) (spare : Fin 8) (at_ : BitVec 12) :
    (after (execSteer p lane spare at_ s) s).mem = s.mem := by
  simp [execSteer]

@[simp] theorem execSteerAck_mem (p : PortId) (lane : Fin 256) (spare : Fin 8) (at_ : BitVec 12) :
    (after (execSteerAck p lane spare at_ s) s).mem = s.mem := by
  simp [execSteerAck]

@[simp] theorem execWidth_mem (p : PortId) (width : Fin 4) (at_ : BitVec 12) :
    (after (execWidth p width at_ s) s).mem = s.mem := by
  simp [execWidth]

@[simp] theorem execWidthAck_mem (p : PortId) (width : Fin 4) (at_ : BitVec 12) :
    (after (execWidthAck p width at_ s) s).mem = s.mem := by
  simp [execWidthAck]

@[simp] theorem announceSteer_mem (p : PortId) (lane k : Nat) : (announceSteer s p lane k).mem = s.mem := by
  simp [announceSteer]

@[simp] theorem announceWidth_mem (p : PortId) : (announceWidth s p).mem = s.mem := by
  simp [announceWidth]

@[simp] theorem execRetrain_mem (r : Requester) (p : PortId) : (after (execRetrain r p s) s).mem = s.mem := by
  simp [execRetrain]

@[simp] theorem stackUp_mem (p : PortId) : (stackUp s p).mem = s.mem := by
  unfold stackUp
  split <;> simp

@[simp] theorem findLanes_mem (p : PortId) (e : EndLanes) : (findLanes s p e).mem = s.mem := by
  simp [findLanes, foldl_mem]

@[simp] theorem resumePort_mem (p : PortId) (latency : Nat) : (resumePort s p latency).mem = s.mem := by
  unfold resumePort
  split <;> simp

@[simp] theorem holdStream_mem (d : DieId) (i key : Nat) (on : Bool) : (holdStream s d i key on).mem = s.mem := by
  simp [holdStream, foldl_mem]

@[simp] theorem execSbHold_mem (d : DieId) (p : Fin 9) (i : Fin 32768) (seq : Fin 16) (crc : BitVec 8) :
    (after (execSbHold d p i seq crc s) s).mem = s.mem := by
  simp [execSbHold]

@[simp] theorem execSbRelease_mem (d : DieId) (p : Fin 9) (i : Fin 32768) (seq : Fin 16) (crc : BitVec 8) :
    (after (execSbRelease d p i seq crc s) s).mem = s.mem := by
  simp [execSbRelease]

@[simp] theorem execSbScredit_mem (d : DieId) (p : Fin 9) (i : Fin 32768) (count seq : Fin 16) (crc : BitVec 8) :
    (after (execSbScredit d p i count seq crc s) s).mem = s.mem := by
  simp [execSbScredit]

@[simp] theorem abandonStops_mem (d : DieId) : (abandonStops s d).mem = s.mem := by
  simp [abandonStops, foldl_mem]

@[simp] theorem stopDie_mem (d : DieId) : (stopDie s d).mem = s.mem := by
  unfold stopDie
  simp only [abandonStops_mem, State.setDx_mem]
  rw [foldl_mem _ fun t p => by split <;> simp]
  simp

@[simp] theorem orderStop_mem (d : DieId) : (orderStop s d).mem = s.mem := by
  simp [orderStop]

@[simp] theorem execMark_mem (d : DieId) (m : MarkMsg) (seq : Fin 16) (crc : BitVec 8) :
    (after (execMark d m seq crc s) s).mem = s.mem := by
  unfold execMark
  split <;> simp

@[simp] theorem execSbread_mem (d : DieId) (off : Nat) (seq : Fin 16) (crc : BitVec 8) :
    (after (execSbread d off seq crc s) s).mem = s.mem := by
  rw [execSbread, after_next]
  refine sbReceive_mem s fun t => ?_
  split
  · simp [csrRead_mem t ‹_›]
  · simp

@[simp] theorem execSbnak_mem (p : PortId) (m : NakMsg) : (after (execSbnak p m s) s).mem = s.mem := by
  simp [execSbnak]

@[simp] theorem loseClock_mem (d : DieId) : (loseClock s d).mem = s.mem := by
  simp [loseClock]

@[simp] theorem execClockLost_mem (d : DieId) : (after (execClockLost d s) s).mem = s.mem := by
  simp [execClockLost]

@[simp] theorem execStop_mem (d : DieId) (seq : Fin 16) (crc : BitVec 8) :
    (after (execStop d seq crc s) s).mem = s.mem := by
  simp [execStop]

@[simp] theorem execCrossSlip_mem (x : Crossing) : (after (execCrossSlip x s) s).mem = s.mem := by
  unfold execCrossSlip
  split <;> simp

@[simp] theorem sendMarks_mem (m : Fin 8) : (sendMarks s m).mem = s.mem := by
  simp [sendMarks, foldl_mem]

@[simp] theorem execLaneMarker_mem (p lane : Fin 8) (mark : Option (BitVec 80)) :
    (after (execLaneMarker p lane mark s) s).mem = s.mem := by
  simp [execLaneMarker]

end Sys2Proof.Machine
end

section
/-! SUPPORT. Memory after the operations of `Machine/Transcend.lean`: the special functions. -/

namespace Sys2Proof.Machine

variable (s : State)

@[simp] theorem transBody_keeps {P : List Host.Cell → Prop} (op : Nat) (c : CoreId) (w : IFields) (h : P s.mem) :
    (transBody op c w s).Keeps P := by
  simp [transBody, h]

@[simp] theorem execVexp2_mem (c : CoreId) (w : IFields) : (after (execVexp2 c w s) s).mem = s.mem := by
  simp [execVexp2]

@[simp] theorem execVexp_mem (c : CoreId) (w : IFields) : (after (execVexp c w s) s).mem = s.mem := by
  simp [execVexp]

@[simp] theorem execVlog2_mem (c : CoreId) (w : IFields) : (after (execVlog2 c w s) s).mem = s.mem := by
  simp [execVlog2]

@[simp] theorem execVln_mem (c : CoreId) (w : IFields) : (after (execVln c w s) s).mem = s.mem := by
  simp [execVln]

@[simp] theorem execVrcp_mem (c : CoreId) (w : IFields) : (after (execVrcp c w s) s).mem = s.mem := by
  simp [execVrcp]

@[simp] theorem execVrsqrt_mem (c : CoreId) (w : IFields) : (after (execVrsqrt c w s) s).mem = s.mem := by
  simp [execVrsqrt]

@[simp] theorem execVsqrt_mem (c : CoreId) (w : IFields) : (after (execVsqrt c w s) s).mem = s.mem := by
  simp [execVsqrt]

@[simp] theorem execVtanh_mem (c : CoreId) (w : IFields) : (after (execVtanh c w s) s).mem = s.mem := by
  simp [execVtanh]

@[simp] theorem execVsigm_mem (c : CoreId) (w : IFields) : (after (execVsigm c w s) s).mem = s.mem := by
  simp [execVsigm]

@[simp] theorem execVerf_mem (c : CoreId) (w : IFields) : (after (execVerf c w s) s).mem = s.mem := by
  simp [execVerf]

@[simp] theorem execVsin_mem (c : CoreId) (w : IFields) : (after (execVsin c w s) s).mem = s.mem := by
  simp [execVsin]

@[simp] theorem execVcos_mem (c : CoreId) (w : IFields) : (after (execVcos c w s) s).mem = s.mem := by
  simp [execVcos]

end Sys2Proof.Machine
end

section
/-! SUPPORT. Memory after the operations of `Machine/Stacks.lean`: the stacks. -/

namespace Sys2Proof.Machine

variable (s : State)

@[simp] theorem wrT_mem (k : Nat) (F : Field) (v : Nat) (j : optParam Nat 0) : (wrT s k F v j).mem = s.mem := by
  simp [wrT]

@[simp] theorem bumpT_mem (k : Nat) (F : Field) (n : optParam Nat 1) : (bumpT s k F n).mem = s.mem := by
  simp [bumpT]

@[simp] theorem setLayer_mem (k l v : Nat) : (setLayer s k l v).mem = s.mem := by
  simp [setLayer]

@[simp] theorem updStack_mem (k : Nat) : (updStack s k).mem = s.mem := by
  unfold updStack
  split <;> simp

@[simp] theorem stackEcc_mem (k req : Nat) (p : Nat × Nat) : (stackEcc k req s p).mem = s.mem := by
  simp [stackEcc, State.raise]

@[simp] theorem stackRead_mem (k off n req : Nat) : (stackRead s k off n req).2.2.mem = s.mem :=
  foldl_mem _ (fun t p => stackEcc_mem t k req p) _ s

@[simp] theorem leaveEngine_mem (k l : Nat) : (leaveEngine s k l).mem = s.mem := by
  simp [leaveEngine]

@[simp] theorem dropPartials_mem (k l : Nat) : (dropPartials s k l).mem = s.mem := by
  simp [dropPartials, foldl_mem]

@[simp] theorem layerLost_mem (k l : Nat) : (layerLost s k l).mem = s.mem := by
  simp [layerLost, foldl_mem]

@[simp] theorem storeW_canonical {s : State} (h : Canonical s.mem) (k a w : Nat) : Canonical (storeW s k a w).mem := by
  simp [storeW, h]

@[simp] theorem storeM_canonical {s : State} (h : Canonical s.mem) (k a v : Nat) : Canonical (storeM s k a v).mem := by
  simp [storeM, h]

@[simp] theorem storeElem_canonical {s : State} (h : Canonical s.mem) (k l i rule : Nat) (n : Nat × Nat × Nat) :
    Canonical (storeElem k l i rule s n).mem := by
  simp [storeElem, h]

@[simp] theorem copyTile_canonical {s : State} (h : Canonical s.mem) (fd rule b a : Nat) (ws : List Nat) :
    Canonical (copyTile fd rule b s a ws).mem := by
  simp [copyTile, h]

@[simp] theorem copyLine_canonical {s : State} (h : Canonical s.mem) (k l lc : Nat) (ws : List Nat) :
    Canonical (copyLine k l lc s ws).mem := by
  unfold copyLine
  simp only
  split
  · simp [h]
  · exact h
  · exact foldl_canonical (fun t p ht => copyTile_canonical ht ..) h _

@[simp] theorem copyLayer_canonical {s : State} (h : Canonical s.mem) (k l n : Nat) :
    Canonical (copyLayer s k l n).mem := by
  unfold copyLayer
  exact canonical_of_ite (foldl_canonical (fun t lc ht => copyLine_canonical ht ..) h _) h

@[simp] theorem storeLayer_canonical {s : State} (h : Canonical s.mem) (k l r n : Nat) :
    Canonical (storeLayer s k l r n).mem :=
  copyLayer_canonical (foldl_canonical (fun t i ht => by simp [ht]) h _) ..

@[simp] theorem clearMarks_mem (k : Nat) (p : Nat × Nat) : (clearMarks s k p).mem = s.mem := by
  simp [clearMarks, foldl_mem]

@[simp] theorem passErrors_mem (k l : Nat) (second : Bool) : (passErrors s k l second).2.mem = s.mem :=
  foldl_keeps (fun r : Bool × State => r.2.mem = s.mem) _
    (fun r rg h => by
      split
      · exact h
      · exact (foldl_mem _ (fun t p => stackEcc_mem t k 2 p) _ _).trans h) _ _ rfl

@[simp] theorem partWrites_canonical {s : State} (h : Canonical s.mem) (k l : Nat) :
    Canonical (partWrites s k l).mem := by
  simp [partWrites, h]

@[simp] theorem setStackArb_mem (k pc q : Nat) (a : StackArb) : (setStackArb s k pc q a).mem = s.mem := by
  simp [setStackArb]

@[simp] theorem stackLose_mem (k pc q : Nat) : (stackLose k pc s q).mem = s.mem := by
  simp [stackLose]

@[simp] theorem markWord_mem (k off : Nat) (word : Fin 8) (e : EccFind) : (markWord s k off word e).mem = s.mem := by
  unfold markWord
  split <;> rfl

@[simp] theorem fillRead_mem (k node tag : Nat) (r : CaneReq) (data : List Byte) (bad : Bool) :
    (fillRead s k node tag r data bad).mem = s.mem := by
  unfold fillRead
  refine ite_mem rfl ?_
  split <;> simp only [State.send_mem, State.setTx_mem]

@[simp] theorem hostPiece_mem (id off : Nat) (data : List Byte) (bad : Bool) :
    (hostPiece s id off data bad).mem = s.mem := by
  simp [hostPiece]

@[simp] theorem serveRead_mem (k : Nat) (r : CaneReq) : (serveRead s k r).mem = s.mem := by
  unfold serveRead
  simp only
  split
  · split <;> simp
  · simp
  · split <;> simp
  · simp
  · split <;> simp

@[simp] theorem gradLine_mem (k : Nat) (r : CaneReq) (l : Nat) : (gradLine k r s l).mem = s.mem := by
  simp [gradLine]

@[simp] theorem serveWrite_canonical {s : State} (h : Canonical s.mem) (k : Nat) (r : CaneReq) :
    Canonical (serveWrite s k r).mem := by
  unfold serveWrite
  (repeat' split) <;> simp [h, foldl_mem]

@[simp] theorem dropCane_mem (k : Nat) (r : CaneReq) : (dropCane s k r).mem = s.mem := by
  simp [dropCane]

@[simp] theorem serveScrub_mem (k pc : Nat) (word : Fin 8) (e : EccFind) : (serveScrub s k pc word e).mem = s.mem := by
  unfold serveScrub
  simp only
  split
  · rfl
  · refine ite_mem ?_ (by simp)
    exact (foldl_mem (α := Nat × Nat) _ (fun t q => setBad_mem t q.1 0) _ _).trans (State.setTx_mem ..)

@[simp] theorem mergeRead_mem (k : Nat) (r : CaneReq) (o : StackOffer) : (mergeRead s k r o).mem = s.mem := by
  simp [mergeRead, foldl_mem]

@[simp] theorem updateError_mem (k pc l : Nat) (word : Fin 8) (e : EccFind) :
    (updateError s k pc l word e).mem = s.mem := by
  simp [updateError]

@[simp] theorem serve_canonical {s : State} (h : Canonical s.mem) (k pc : Nat) (o : StackOffer) (q : Nat) :
    Canonical (serve s k pc o q).mem := by
  unfold serve
  (repeat' split) <;> simp [h]

@[simp] theorem execRefresh_mem (k : StackId) (pc : Fin 24) : (after (execRefresh k pc s) s).mem = s.mem := by
  simp [execRefresh]

@[simp] theorem execStackGrant_canonical {s : State} (h : Canonical s.mem) (k : StackId) (pc : Fin 24)
    (o : StackOffer) : Canonical (after (execStackGrant k pc o s) s).mem := by
  simp only [execStackGrant]
  (repeat' split) <;> simp [h, foldl_mem]

@[simp] theorem execStackBackoffExpiry_mem (k : StackId) (pc : Fin 24) (q : Fin 4) :
    (after (execStackBackoffExpiry k pc q s) s).mem = s.mem := by
  simp [execStackBackoffExpiry]

@[simp] theorem layerDone_mem (k l : Nat) : (layerDone s k l).mem = s.mem := by
  simp [layerDone]

@[simp] theorem applyLayer_canonical {s : State} (h : Canonical s.mem) (k l r : Nat) :
    Canonical (applyLayer s k l r).mem := by
  simp [applyLayer, h, foldl_mem]

@[simp] theorem combine_mem (k l : Nat) : (combine s k l).mem = s.mem := by
  simp [combine, foldl_mem]

@[simp] theorem partialArrives_mem (k j sw su : Nat) : (partialArrives s k j sw su).mem = s.mem := by
  simp only [partialArrives]
  (repeat' split) <;> simp

@[simp] theorem execPass1Complete_canonical {s : State} (h : Canonical s.mem) (k : StackId) (l : Fin 1024) :
    Canonical (after (execPass1Complete k l s) s).mem := by
  simp [execPass1Complete, h]

@[simp] theorem execPass2Complete_canonical {s : State} (h : Canonical s.mem) (k : StackId) (l : Fin 1024) :
    Canonical (after (execPass2Complete k l s) s).mem := by
  simp [execPass2Complete, h]

@[simp] theorem execUpdateTimeout_mem (k : StackId) (l : Fin 1024) :
    (after (execUpdateTimeout k l s) s).mem = s.mem := by
  simp [execUpdateTimeout]

@[simp] theorem execLayerLost_canonical {s : State} (h : Canonical s.mem) (k : StackId) (l : Fin 1024) :
    Canonical (after (execLayerLost k l s) s).mem := by
  simp [execLayerLost, h]

@[simp] theorem loseAll_canonical {s : State} (h : Canonical s.mem) (k : Nat) : Canonical (loseAll s k).mem :=
  foldl_canonical (fun t l ht => by simp [ht]) h _

@[simp] theorem execSelfRefreshEntry_canonical {s : State} (h : Canonical s.mem) (k : StackId) :
    Canonical (after (execSelfRefreshEntry k s) s).mem := by
  simp [execSelfRefreshEntry, h]

@[simp] theorem execSelfRefreshExit_mem (k : StackId) : (after (execSelfRefreshExit k s) s).mem = s.mem := by
  simp [execSelfRefreshExit]

@[simp] theorem execCopy_mem (r : Requester) (k : StackId) (l : Fin 1024) :
    (after (execCopy r k l s) s).mem = s.mem := by
  simp [execCopy]

@[simp] theorem execLayerCopyComplete_canonical {s : State} (h : Canonical s.mem) (k : StackId) (l : Fin 1024) :
    Canonical (after (execLayerCopyComplete k l s) s).mem := by
  simp [execLayerCopyComplete, h, foldl_mem]

@[simp] theorem execStackZero_canonical {s : State} (h : Canonical s.mem) (r : Requester) (k : StackId) :
    Canonical (after (execStackZero r k s) s).mem := by
  simp [execStackZero, h]

@[simp] theorem zeroStack_canonical {s : State} (h : Canonical s.mem) (k : Nat) : Canonical (zeroStack s k).mem :=
  Memory.wf_zeroRange h _ _

@[simp] theorem execStackZeroComplete_canonical {s : State} (h : Canonical s.mem) (k : StackId) :
    Canonical (after (execStackZeroComplete k s) s).mem := by
  simp [execStackZeroComplete, h]

@[simp] theorem execStackScrub_mem (k : StackId) : (after (execStackScrub k s) s).mem = s.mem := by
  simp [execStackScrub]

end Sys2Proof.Machine
end

section
/-! SUPPORT. Memory after the operations of `Machine/Access.lean`: the checks of remote accesses. -/

namespace Sys2Proof.Machine

variable (s : State)

@[simp] theorem countWin_mem (u : Nat) : (countWin s u).mem = s.mem := by
  simp [countWin]

@[simp] theorem remoteWrite_canonical {s : State} (h : Canonical s.mem) (c : CoreId) (off : Nat) (bs : List Byte)
    (sender : Nat) : Canonical (remoteWrite s c off bs sender).2.mem := by
  unfold remoteWrite
  simp only
  split
  · exact h
  · split <;> simp [h]

@[simp] theorem hubWrite_canonical {s : State} (h : Canonical s.mem) (m : Nat) (bs : List Byte) (src : CaneSrc) :
    Canonical (hubWrite s m bs src).2.mem := by
  unfold hubWrite
  (repeat' split) <;> simp [h]

@[simp] theorem bar2Fault_mem (m : Nat) : (bar2Fault s m).mem = s.mem := by
  simp [bar2Fault]

@[simp] theorem hostRequest_mem {k : State → State} (hk : (k s).mem = s.mem) : (hostRequest s k).mem = s.mem := by
  simp [hostRequest, hk]

theorem hostRequest_canonical {s : State} {k : State → State} (h : Canonical s.mem) (hk : Canonical (k s).mem) :
    Canonical (hostRequest s k).mem := by
  simp [hostRequest, h, hk]

@[simp] theorem execBar2Read_mem (o : BitVec 36) (n : Nat) : (after (execBar2Read o n s) s).mem = s.mem := by
  rw [execBar2Read, after_next]
  refine hostRequest_mem s ?_
  split
  · rfl
  · split
    · simp
    · refine ite_mem (by simp) (ite_mem (by simp) ?_)
      exact foldl_mem _ (fun t p => by simp) _ _

@[simp] theorem execBar2Write_canonical {s : State} (h : Canonical s.mem) (o : BitVec 36) (data : List (Option Byte)) :
    Canonical (after (execBar2Write o data s) s).mem := by
  rw [execBar2Write, after_next]
  refine hostRequest_canonical h (canonical_of_ite h ?_)
  split
  · simp [h]
  · exact foldl_canonical (fun t run ht => foldl_canonical (fun u p hu => by simp [hu]) ht _) h _

end Sys2Proof.Machine
end

section
/-! SUPPORT. Memory after the operations of `Machine/Hub.lean`: the hub and the host's slots. -/

namespace Sys2Proof.Machine

variable (s : State)

@[simp] theorem dropCopy_mem (n uid keep : Nat) : (dropCopy s n uid keep).mem = s.mem := by
  simp [dropCopy, foldl_mem]

@[simp] theorem endCopy_mem (n uid : Nat) : (endCopy s n uid).mem = s.mem := by
  simp [endCopy]

@[simp] theorem disableSlot_mem (link : Bool) (n : Nat) : (disableSlot link s n).mem = s.mem := by
  simp [disableSlot, foldl_mem]

@[simp] theorem execSlotDisable_mem (r : Requester) (slot : Fin 64) :
    (after (execSlotDisable r slot s) s).mem = s.mem := by
  simp [execSlotDisable]

@[simp] theorem execSlotEnable_mem (r : Requester) (slot : Fin 64) :
    (after (execSlotEnable r slot s) s).mem = s.mem := by
  simp [execSlotEnable]

@[simp] theorem resetField_mem (F : Field) : (resetField s F).mem = s.mem := by
  simp [resetField, foldl_mem]

@[simp] theorem resetHost_mem : (resetHost s).mem = s.mem := by
  simp [resetHost, foldl_mem]

@[simp] theorem execFunctionLevelReset_mem : (after (execFunctionLevelReset s) s).mem = s.mem := by
  simp [execFunctionLevelReset]

@[simp] theorem execHotReset_mem : (after (execHotReset s) s).mem = s.mem := by
  simp [execHotReset]

@[simp] theorem linkDown_mem : (linkDown s).mem = s.mem := by
  simp [linkDown]

@[simp] theorem execLinkDown_mem : (after (execLinkDown s) s).mem = s.mem := by
  simp [execLinkDown]

@[simp] theorem execD3hotEntry_mem : (after (execD3hotEntry s) s).mem = s.mem := by
  simp [execD3hotEntry]

@[simp] theorem execD0Return_mem : (after (execD0Return s) s).mem = s.mem := by
  simp [execD0Return]

@[simp] theorem execPuntyWatchdog_mem (p : Fin 4) : (after (execPuntyWatchdog p s) s).mem = s.mem := by
  simp [execPuntyWatchdog]

@[simp] theorem fetchMore_mem (n : Nat) : (fetchMore s n).mem = s.mem := by
  simp [fetchMore]

@[simp] theorem slotFault_mem (n reason : Nat) : (slotFault s n reason).mem = s.mem := by
  simp [slotFault]

@[simp] theorem doorbell_mem {n : Nat} {k : State → State} (hk : (k s).mem = s.mem) : (doorbell s n k).mem = s.mem := by
  simp [doorbell, hk]

@[simp] theorem execSqTailDoorbell_mem (slot : Fin 64) (t : Word) :
    (after (execSqTailDoorbell slot t s) s).mem = s.mem := by
  simp [execSqTailDoorbell]

@[simp] theorem execCqHeadDoorbell_mem (slot : Fin 64) (h : Word) :
    (after (execCqHeadDoorbell slot h s) s).mem = s.mem := by
  simp [execCqHeadDoorbell]

@[simp] theorem entriesArrive_mem (n : Nat) (data : List Byte) : (entriesArrive s n data).mem = s.mem := by
  simp [entriesArrive]

@[simp] theorem dropRead_mem (id : Nat) : (dropRead s id).mem = s.mem := by
  simp [dropRead]

@[simp] theorem execEntryFetch_mem (slot : Fin 64) (data : List Byte) :
    (after (execEntryFetch slot data s) s).mem = s.mem := by
  unfold execEntryFetch
  split <;> simp

theorem startEntry_mem {slot : Fin 64} {is : SqEntry → Bool} {k : State → Nat → SlotRun → State}
    (hk : ∀ t n r, (k t n r).mem = t.mem) : (startEntry s slot is k).mem = s.mem := by
  unfold startEntry
  simp only
  split
  · rfl
  · simp [hk]

theorem startEntry_canonical {s : State} {slot : Fin 64} {is : SqEntry → Bool} {k : State → Nat → SlotRun → State}
    (h : Canonical s.mem) (hk : ∀ t n r, Canonical t.mem → Canonical (k t n r).mem) :
    Canonical (startEntry s slot is k).mem := by
  unfold startEntry
  simp only
  split
  · exact h
  · split <;> simp [hk, h]

@[simp] theorem execSqNop_mem (slot : Fin 64) : (after (execSqNop slot s) s).mem = s.mem := by
  rw [execSqNop, after_next]
  exact startEntry_mem s fun t n r => by simp

@[simp] theorem copyLine1_canonical {s : State} (h : Canonical s.mem) (n : Nat) (r : SlotRun) (bs : Nat → List Byte)
    (o : Nat) : Canonical (copyLine1 n r bs s o).mem := by
  unfold copyLine1
  split <;> simp [h]

@[simp] theorem copyAsk_mem (n : Nat) (r : SlotRun) (o : Nat) : (copyAsk s n r o).mem = s.mem := by
  simp [copyAsk]

@[simp] theorem execCopyIn_mem (slot : Fin 64) : (after (execCopyIn slot s) s).mem = s.mem := by
  rw [execCopyIn, after_next]
  exact startEntry_mem s fun t n r => by simp

@[simp] theorem execZfill_canonical {s : State} (h : Canonical s.mem) (slot : Fin 64) :
    Canonical (after (execZfill slot s) s).mem := by
  rw [execZfill, after_next]
  exact startEntry_canonical h fun t n r ht => foldl_canonical (fun u o hu => copyLine1_canonical hu ..) ht _

@[simp] theorem copyOut1_mem (n : Nat) (r : SlotRun) (o : Nat) : (copyOut1 n r s o).mem = s.mem := by
  unfold copyOut1
  split <;> simp

@[simp] theorem execCopyOut_mem (slot : Fin 64) : (after (execCopyOut slot s) s).mem = s.mem := by
  rw [execCopyOut, after_next]
  exact startEntry_mem s fun t n r => foldl_mem _ (fun u o => by simp) _ t

@[simp] theorem execHostCopyComplete_mem (slot : Fin 64) : (after (execHostCopyComplete slot s) s).mem = s.mem := by
  simp only [execHostCopyComplete]
  (repeat' split) <;> simp

@[simp] theorem sendrAsk_mem (n : Nat) (r : SlotRun) : (sendrAsk s n r).mem = s.mem := by
  simp only [sendrAsk]
  split <;> simp

@[simp] theorem copyData_canonical {s : State} (h : Canonical s.mem) (n uid o : Nat) (data : List Byte) :
    Canonical (copyData s n uid o data).mem := by
  unfold copyData
  split
  · exact h
  · extract_lets r1 s1 t
    have ht : Canonical t.mem := foldl_canonical (fun u l hu => copyLine1_canonical hu ..) h _
    have h1 : Canonical s1.mem := by simpa [s1] using h
    refine canonical_of_ite (canonical_of_ite ?_ ?_) (canonical_of_ite ht ?_) <;> simp [h1, ht]

@[simp] theorem readFails_mem (q : HostRead) : (readFails s q).mem = s.mem := by
  simp only [readFails]
  (repeat' split) <;> simp

@[simp] theorem execHostCompletion_canonical {s : State} (h : Canonical s.mem) (id : Nat) (c : Completion) :
    Canonical (after (execHostCompletion id c s) s).mem := by
  unfold execHostCompletion
  (repeat' split) <;> simp [h]

@[simp] theorem execCompletionTimeout_mem (id : Nat) : (after (execCompletionTimeout id s) s).mem = s.mem := by
  unfold execCompletionTimeout
  split <;> simp

@[simp] theorem ideLost_mem : (ideLost s).mem = s.mem := by
  simp [ideLost, foldl_mem]

@[simp] theorem execIdeSecureLoss_mem : (after (execIdeSecureLoss s) s).mem = s.mem := by
  simp [execIdeSecureLoss]

@[simp] theorem execSend_mem (slot : Fin 64) : (after (execSend slot s) s).mem = s.mem := by
  rw [execSend, after_next]
  exact startEntry_mem s fun t n r => by simp

@[simp] theorem execSendr_mem (slot : Fin 64) : (after (execSendr slot s) s).mem = s.mem := by
  rw [execSendr, after_next]
  exact startEntry_mem s fun t n r => by simp

@[simp] theorem execSendtoExpiry_mem (slot : Fin 64) (tag : BitVec 16) :
    (after (execSendtoExpiry slot tag s) s).mem = s.mem := by
  unfold execSendtoExpiry
  split <;> simp

@[simp] theorem execAwaitRun_mem (slot : Fin 64) : (after (execAwaitRun slot s) s).mem = s.mem := by
  rw [execAwaitRun, after_next]
  exact startEntry_mem s fun t n r => rfl

@[simp] theorem execStepWait_mem (slot : Fin 64) : (after (execStepWait slot s) s).mem = s.mem := by
  rw [execStepWait, after_next]
  exact startEntry_mem s fun t n r => by simp

@[simp] theorem stepEnds_mem (step flags : Nat) : (stepEnds s step flags).mem = s.mem := by
  simp [stepEnds, foldl_mem]

@[simp] theorem releaseStep_mem : (releaseStep s).mem = s.mem := by
  simp [releaseStep, foldl_mem]

@[simp] theorem spendRelease_mem : (spendRelease s).mem = s.mem := by
  simp [spendRelease]

@[simp] theorem bankSteps_mem (k : Nat) : (bankSteps s k).mem = s.mem := by
  simp [bankSteps]

@[simp] theorem execStepGo_mem (slot : Fin 64) : (after (execStepGo slot s) s).mem = s.mem := by
  rw [execStepGo, after_next]
  exact startEntry_mem s fun t n r => by simp

@[simp] theorem execStepHoldWrite_mem (r : Requester) (v : Bool) : (after (execStepHoldWrite r v s) s).mem = s.mem := by
  simp [execStepHoldWrite]

@[simp] theorem execStepctlGo_mem (r : Requester) : (after (execStepctlGo r s) s).mem = s.mem := by
  simp [execStepctlGo]

@[simp] theorem execIrqModerationTimeout_mem (slot : Fin 64) :
    (after (execIrqModerationTimeout slot s) s).mem = s.mem := by
  simp [execIrqModerationTimeout]

@[simp] theorem execMailboxCommit_mem (r : Requester) (m : Fin 16) (tag : Option (Gather × BitVec 16)) :
    (after (execMailboxCommit r m tag s) s).mem = s.mem := by
  simp [execMailboxCommit]

@[simp] theorem endQueries_mem (m : Nat) : (endQueries s m).mem = s.mem := by
  simp [endQueries, foldl_mem]

@[simp] theorem execMailboxRelease_mem (r : Requester) (m : Fin 16) :
    (after (execMailboxRelease r m s) s).mem = s.mem := by
  simp [execMailboxRelease]

@[simp] theorem execMailboxStatusRead_mem (m : Fin 16) : (after (execMailboxStatusRead m s) s).mem = s.mem := by
  rw [execMailboxStatusRead, after_next]
  refine hostRequest_mem s ?_
  split
  · simp [csrRead_mem s ‹_›]
  · rfl

@[simp] theorem verdictSlots_mem (v : VerdictMsg) : (verdictSlots s v).mem = s.mem := by
  simp [verdictSlots]

@[simp] theorem execVerdict_mem (dest : VerdictTo) (v : VerdictMsg) : (after (execVerdict dest v s) s).mem = s.mem := by
  unfold execVerdict
  split <;> simp

end Sys2Proof.Machine
end

section
/-! SUPPORT. Memory after the operations of `Machine/Power.lean`: references, power and margins. -/

namespace Sys2Proof.Machine

variable (s : State)

@[simp] theorem openRound_mem (num den : Nat) : (openRound s num den).2.mem = s.mem := by
  unfold openRound
  split <;> rfl

@[simp] theorem execSlotIdChange_mem (slot : BitVec 4) : (after (execSlotIdChange slot s) s).mem = s.mem := by
  simp [execSlotIdChange]

@[simp] theorem execRefLost_mem : (after (execRefLost s) s).mem = s.mem := by
  simp [execRefLost]

@[simp] theorem execHoldExpired_mem : (after (execHoldExpired s) s).mem = s.mem := by
  simp [execHoldExpired, foldl_mem]

@[simp] theorem startSpan_mem (m : Nat) : (startSpan s m).mem = s.mem := by
  simp [startSpan]

@[simp] theorem locked_mem : (locked s).mem = s.mem := by
  simp [locked, foldl_mem]

@[simp] theorem execRelock_mem : (after (execRelock s) s).mem = s.mem := by
  simp [execRelock]

@[simp] theorem execAclkRequest_mem (r : Requester) (g : Gather) (code : BitVec 2) :
    (after (execAclkRequest r g code s) s).mem = s.mem := by
  simp [execAclkRequest]

@[simp] theorem execAclkRatioChange_mem (g : Gather) : (after (execAclkRatioChange g s) s).mem = s.mem := by
  simp [execAclkRatioChange]

@[simp] theorem slowIsland_mem (d : DieId) (n : Nat) : (slowIsland s d n).mem = s.mem := by
  simp [slowIsland, foldl_mem]

theorem raiseCrz_mem {d : DieId} {k : Nat} {t : State} (h : raiseCrz s d k = some t) : t.mem = s.mem := by
  unfold raiseCrz at h
  simp only at h
  split at h
  · simp at h
  · obtain rfl := Option.some.inj h
    simp

@[simp] theorem raiseCrz_getD_mem {d : DieId} {k : Nat} {u : State} (hu : u.mem = s.mem) :
    ((raiseCrz s d k).getD u).mem = s.mem := by
  cases h : raiseCrz s d k with
  | none => exact hu
  | some t => exact raiseCrz_mem s h

@[simp] theorem execMarginSample_mem (d : DieId) (isl : Fin 16) (marginA marginN : BitVec 4) :
    (after (execMarginSample d isl marginA marginN s) s).mem = s.mem := by
  simp [execMarginSample]

@[simp] theorem execCrzLevelWrite_mem (r : Requester) (d : DieId) (isl : Fin 16) (warn crit : BitVec 4) :
    (after (execCrzLevelWrite r d isl warn crit s) s).mem = s.mem := by
  simp [execCrzLevelWrite]

@[simp] theorem execCrzoffDecay_mem (d : DieId) : (after (execCrzoffDecay d s) s).mem = s.mem := by
  simp [execCrzoffDecay]

@[simp] theorem execSenseInvalid_mem (d : DieId) (f : Fin 4) : (after (execSenseInvalid d f s) s).mem = s.mem := by
  simp [execSenseInvalid]

@[simp] theorem execSensePairValid_mem (d : DieId) (f : Fin 4) : (after (execSensePairValid d f s) s).mem = s.mem := by
  simp [execSensePairValid]

@[simp] theorem estimateIsland_mem (d : DieId) (acc : Nat × State) (p : IslandSample × Nat) :
    (estimateIsland d acc p).2.mem = acc.2.mem := by
  simp [estimateIsland]

@[simp] theorem stackHeat_mem (d : DieId) (p : Nat × Nat) : (stackHeat d s p).mem = s.mem := by
  simp [stackHeat]

@[simp] theorem setSense_mem (d : Nat) (l : List Nat) : (setSense s d l).mem = s.mem := by
  simp [setSense]

@[simp] theorem execPowerEstimate_mem (d : DieId) (p : PowerSample) : (after (execPowerEstimate d p s) s).mem = s.mem := by
  unfold execPowerEstimate
  extract_lets u r q s1 x s2 s3 y s3' z s3'' s4
  have hr : r.2.mem = s.mem :=
    foldl_keeps (fun a : Nat × State => a.2.mem = s.mem) _ (fun a i ha => by simpa using ha) _ _ (by simp)
  clear_value r
  have h2 : s2.mem = r.2.mem := by simp [s2, s1, q]
  clear_value s2
  have h3 : s3.mem = s2.mem := foldl_mem _ (fun t k => by simp) _ _
  clear_value s3
  have h4 : s4.mem = s3''.mem := foldl_mem _ (fun t k => by split <;> simp) _ _
  rw [after_next, foldl_mem _ fun t k => by simp, h4]
  simp [s3'', s3', h3, h2, hr]

@[simp] theorem execKcalCalibrate_mem (d : DieId) (mw : Nat) : (after (execKcalCalibrate d mw s) s).mem = s.mem := by
  simp [execKcalCalibrate]

@[simp] theorem execBoostExpiry_mem (g : Gather) : (after (execBoostExpiry g s) s).mem = s.mem := by
  simp [execBoostExpiry]

@[simp] theorem setUp_mem (d : Nat) (p q : PowerUp) : (setUp s d p q).mem = s.mem := by
  simp [setUp]

@[simp] theorem execStaging_mem (d : DieId) (isl : Fin 16) : (after (execStaging d isl s) s).mem = s.mem := by
  simp only [execStaging]
  split <;> simp [foldl_mem]

@[simp] theorem execStagedSwitchClose_mem (d : DieId) (isl : Fin 16) :
    (after (execStagedSwitchClose d isl s) s).mem = s.mem := by
  simp only [execStagedSwitchClose]
  split <;> simp

@[simp] theorem pushBucket_mem (d v : Nat) : (pushBucket s d v).mem = s.mem := by
  simp [pushBucket]

@[simp] theorem execInputSample_mem (mv ma : Nat) : (after (execInputSample mv ma s) s).mem = s.mem := by
  simp [execInputSample]

@[simp] theorem nextShare_mem (d num den : Nat) : (nextShare d num den s).mem = s.mem := by
  simp [nextShare]

@[simp] theorem execCapShareUpdate_mem : (after (execCapShareUpdate s) s).mem = s.mem := by
  simp [execCapShareUpdate]

@[simp] theorem setDem_mem (g : Gather) (v : Nat) : (setDem s g v).mem = s.mem := by
  simp [setDem]

@[simp] theorem unmet_mem (d : DieId) : (unmet s d).mem = s.mem := by
  simp [unmet]

@[simp] theorem met_mem (d : DieId) : (met s d).mem = s.mem := by
  simp [met]

@[simp] theorem execCapStep_mem (d : DieId) : (after (execCapStep d s) s).mem = s.mem := by
  simp only [execCapStep]
  (repeat' split) <;> simp [foldl_mem]

end Sys2Proof.Machine
end

section
/-! SUPPORT. Memory after the operations of `Machine/Image.lean`: the image's records. -/

namespace Sys2Proof.Machine

variable (s : State)

@[simp] theorem imgTouch_mem (src n : Nat) : (imgTouch s src n).mem = s.mem :=
  foldl_mem _ (fun t p => stackEcc_mem t _ 0 p) _ s

@[simp] theorem writeDieWord_mem (d b off v : Nat) : (writeDieWord s d b off v).mem = s.mem := by
  simp [writeDieWord]

@[simp] theorem writeCoreWord_mem (c : CoreId) (b off v : Nat) : (writeCoreWord s c b off v).mem = s.mem := by
  simp [writeCoreWord]

@[simp] theorem writeWords_mem {f : State → Nat → Nat → State} (h : ∀ t o v, (f t o v).mem = t.mem) (off : Nat)
    (l : List Nat) : (writeWords f s off l).mem = s.mem := by
  induction l generalizing s off with
  | nil => rfl
  | cons v r ih => rw [writeWords, ih, h]

@[simp] theorem writeRec_mem (bk : Nat → Nat → Nat) (r : ImgRec) : (writeRec bk s r).mem = s.mem := by
  unfold writeRec
  split
  · simp
  · exact foldl_mem _ (fun t c => by simp) _ s

@[simp] theorem clearParison_mem : (clearParison s).mem = s.mem := by
  simp [clearParison]

end Sys2Proof.Machine
end

section
/-! SUPPORT. Memory after the operations of `Machine/Checks.lean`: the image's checks. -/

namespace Sys2Proof.Machine

variable (s : State)

@[simp] theorem emptyTables_mem (ds : List DieId) (bk : Nat → Nat → Nat) : (emptyTables s ds bk).mem = s.mem := by
  simp [emptyTables]

end Sys2Proof.Machine
end

section
/-! SUPPORT. Memory after the operations of `Machine/Parison.lean`: the load of an image. -/

namespace Sys2Proof.Machine

variable (s : State)

@[simp] theorem setStage_mem (v : Nat) : (setStage s v).mem = s.mem := by
  simp [setStage]

@[simp] theorem endLoad_mem (status : Nat) : (endLoad s status).mem = s.mem := by
  simp [endLoad]

@[simp] theorem unlock_mem (f : LockFor → Bool) : (unlock s f).mem = s.mem := by
  simp [unlock]

@[simp] theorem setGst_mem (g : Gather) (v : Nat) : (setGst s g v).mem = s.mem := by
  simp [setGst]

@[simp] theorem execLoad_mem (r : Requester) : (after (execLoad r s) s).mem = s.mem := by
  simp [execLoad]

@[simp] theorem fullEnded_mem (full : Bool) : (fullEnded s full).mem = s.mem := by
  simp [fullEnded]

@[simp] theorem refuseLoad_mem (f : Fail) : (refuseLoad s f).mem = s.mem := by
  simp [refuseLoad]

@[simp] theorem checkReads_mem : (checkReads s).mem = s.mem := by
  simp [checkReads]

@[simp] theorem execParisonCheckComplete_mem : (after (execParisonCheckComplete s) s).mem = s.mem := by
  simp only [execParisonCheckComplete]
  (repeat' split) <;> simp

@[simp] theorem offerStep_mem : (offerStep s).mem = s.mem := by
  simp [offerStep]

@[simp] theorem endWait_mem : (endWait s).mem = s.mem := by
  unfold endWait
  (repeat' split) <;> simp [foldl_mem]

@[simp] theorem execAbort_mem (r : Requester) : (after (execAbort r s) s).mem = s.mem := by
  simp [execAbort]

@[simp] theorem execQuiesceTo_mem : (after (execQuiesceTo s) s).mem = s.mem := by
  unfold execQuiesceTo
  split <;> simp

@[simp] theorem parisonCore_mem (c : CoreId) (p : ParisonPkt) : (parisonCore s c p).mem = s.mem := by
  simp [parisonCore]

@[simp] theorem parisonDie_mem (d : Nat) (p : ParisonPkt) : (parisonDie s d p).mem = s.mem := by
  simp [parisonDie]

@[simp] theorem execParison_mem (src : NodeId) (pkt : ParisonPkt) : (after (execParison src pkt s) s).mem = s.mem := by
  simp [execParison, foldl_mem]

@[simp] theorem sendSection_mem (im : Image) (n : Nat) : (sendSection s im n).mem = s.mem := by
  simp [sendSection, foldl_mem]

@[simp] theorem takeQueues_mem (c : CoreId) (q e : Nat → Bool) : (takeQueues s c q e).mem = s.mem := by
  simp [takeQueues, foldl_mem]

@[simp] theorem takeHubSends_mem (cs : List CoreId) (q : CoreId → Nat → Bool) : (takeHubSends s cs q).mem = s.mem := by
  simp [takeHubSends]

@[simp] theorem startRatio_mem (g : Gather) : (startRatio s g).mem = s.mem := by
  simp [startRatio]

@[simp] theorem enterIdle_mem : (enterIdle s).mem = s.mem := by
  simp [enterIdle, foldl_mem]

@[simp] theorem sealLoad_mem (im : Image) (keep : List Image) (l : Nat) (f : LockFor) (gone : LockFor → Bool) :
    (sealLoad s im keep l f gone).mem = s.mem := by
  simp [sealLoad]

@[simp] theorem watchDefault_mem (im : Image) (g : Gather) : (watchDefault s im g).mem = s.mem := by
  simp [watchDefault]

@[simp] theorem sealFull_mem (im : Image) : (sealFull s im).mem = s.mem := by
  simp [sealFull, foldl_mem]

@[simp] theorem formHub_mem (b : Nat) (d : DieId) : (formHub b s d).mem = s.mem := by
  simp [formHub, foldl_mem]

@[simp] theorem sealSegment_mem (im : Image) (u : Nat) : (sealSegment s im u).mem = s.mem := by
  simp [sealSegment, foldl_mem]

@[simp] theorem endSealing_mem : (endSealing s).mem = s.mem := by
  unfold endSealing
  (repeat' split) <;> simp

@[simp] theorem nextSection_mem (n : Nat) (im : Image) (k : Nat) : (nextSection n s im k).mem = s.mem := by
  induction n generalizing k with
  | zero => simp [nextSection]
  | succ n ih => simp [nextSection, ih]

@[simp] theorem freshCore_mem (c : CoreId) : (freshCore s c).mem = s.mem := by
  simp [freshCore]

@[simp] theorem stopStreams_mem (d : DieId) (f : Nat → Bool) : (stopStreams s d f).mem = s.mem := by
  simp [stopStreams, foldl_mem]

@[simp] theorem remapDie_canonical {s : State} (h : Canonical s.mem) (d : DieId) : Canonical (remapDie s d).mem :=
  foldl_canonical (fun t c ht => by simp [ht]) (by simpa using h) _

@[simp] theorem retrainDie_mem (d : DieId) : (retrainDie s d).mem = s.mem := by
  simp [retrainDie, foldl_mem]

@[simp] theorem retrainAll_mem : (retrainAll s).mem = s.mem := by
  simp [retrainAll, foldl_mem]

@[simp] theorem clearModule_canonical {s : State} (h : Canonical s.mem) (im : Image) :
    Canonical (clearModule s im).mem := by
  unfold clearModule
  extract_lets s1 s2 s3 s4 s5
  have h1 : s1.mem = s.mem := foldl_mem _ (fun t d => by simp) _ _
  have h2 : s2.mem = s1.mem := foldl_mem _ (fun t d => by simp) _ _
  have h3 : s3.mem = s2.mem := by
    simp only [s3]
    rw [foldl_mem _ fun t c => by simp]
    simp
  clear_value s3
  have h4 : s4.mem = s3.mem := rfl
  clear_value s4
  have h5 : s5.mem = s4.mem := by
    simp only [s5]
    split <;> simp
  rw [foldl_mem _ fun t k => by simp]
  refine foldl_canonical (fun t d ht => by simp [ht]) ?_ _
  rw [h5, h4, h3, h2, h1]
  exact h

@[simp] theorem dropParison_mem : (dropParison s).mem = s.mem := by
  simp [dropParison, foldl_mem]

@[simp] theorem execParisonApply_canonical {s : State} (h : Canonical s.mem) :
    Canonical (after (execParisonApply s) s).mem := by
  unfold execParisonApply
  split <;> simp [h]

@[simp] theorem idleCore_mem (c : CoreId) : (idleCore s c).mem = s.mem := by
  unfold idleCore
  simp [foldl_mem]

@[simp] theorem execSegmentApply_mem : (after (execSegmentApply s) s).mem = s.mem := by
  simp only [execSegmentApply]
  (repeat' split) <;> simp [foldl_mem]

@[simp] theorem execParisonSectionAck_mem (d : DieId) (sect : Nat) :
    (after (execParisonSectionAck d sect s) s).mem = s.mem := by
  unfold execParisonSectionAck
  split <;> simp

@[simp] theorem appFails_mem (im : Image) : (appFails s im).mem = s.mem := by
  unfold appFails
  split <;> simp [foldl_mem]

@[simp] theorem failLoad_mem : (failLoad s).mem = s.mem := by
  unfold failLoad
  split <;> simp

@[simp] theorem failLoadFor_mem (d : DieId) : (failLoadFor s d).mem = s.mem := by
  unfold failLoadFor
  split <;> simp

@[simp] theorem imageLost_mem (im : Image) : (imageLost s im).mem = s.mem := by
  simp [imageLost]

@[simp] theorem wantSet_mem (n : Nat) : (wantSet s n).mem = s.mem := by
  simp [wantSet, foldl_mem]

@[simp] theorem copyTables_mem (p : DieId × Fin 9) : (copyTables s p).mem = s.mem := by
  simp [copyTables, foldl_mem]

@[simp] theorem standbySet_mem (n : Nat) : (standbySet s n).mem = s.mem := by
  unfold standbySet
  split <;> simp [foldl_mem]

end Sys2Proof.Machine
end

section
/-! SUPPORT. Memory after the operations of `Machine/Faults.lean`: fault events and what they order. -/

namespace Sys2Proof.Machine

variable (s : State)

@[simp] theorem announce_mem (tr : Nat) : (announce s tr).mem = s.mem := by
  simp [announce]

@[simp] theorem sendEvent_mem (e : PldmEvent) : (sendEvent s e).mem = s.mem := by
  simp [sendEvent]

@[simp] theorem execPldmEventRetry_mem (tr : Fin 2) (e : PldmEvent) :
    (after (execPldmEventRetry tr e s) s).mem = s.mem := by
  simp only [execPldmEventRetry]
  split <;> simp

@[simp] theorem storeRec_mem (r : FaultRec) : (storeRec s r).mem = s.mem := by
  simp [storeRec]

@[simp] theorem reportRec_mem (k : Nat) (r : FaultRec) : (reportRec s k r).mem = s.mem := by
  simp [reportRec]

@[simp] theorem noteRec_mem (e : FaultEvent) (sev action left : Nat) : (noteRec s e sev action left).mem = s.mem := by
  simp [noteRec]

@[simp] theorem fatalRec_mem (code unit item action : Nat) : (fatalRec s code unit item action).mem = s.mem := by
  simp [fatalRec]

@[simp] theorem addRepair_mem (r : Repair) : (addRepair s r).mem = s.mem := by
  simp [addRepair]

@[simp] theorem dropFence_mem (d : DieId) (r c : Nat) : (dropFence s d r c).mem = s.mem := by
  simp [dropFence]

@[simp] theorem loseStep_mem (unit : Nat) : (loseStep s unit).mem = s.mem := by
  simp [loseStep]

@[simp] theorem recallHold_mem (g : Gather) : (recallHold s g).mem = s.mem := by
  simp [recallHold]

@[simp] theorem stoneFence_mem (d : DieId) (r c : Nat) : (stoneFence s d r c).mem = s.mem := by
  simp [stoneFence]

@[simp] theorem markStoned_mem (d : DieId) (r c : Nat) : (markStoned s d r c).mem = s.mem := by
  simp [markStoned]

@[simp] theorem deadCore_mem (c : CoreId) (noRefetch : Bool) : (deadCore s c noRefetch).mem = s.mem := by
  simp only [deadCore]
  split <;> simp

@[simp] theorem execStopTimeout_mem (c : CoreId) (noRefetch : Bool) :
    (after (execStopTimeout c noRefetch s) s).mem = s.mem := by
  simp [execStopTimeout]

@[simp] theorem lateStone_mem (d : DieId) (r c : Nat) : (lateStone s d r c).mem = s.mem := by
  simp only [lateStone]
  split <;> simp

@[simp] theorem scanFails_mem (d : DieId) (r c : Nat) : (scanFails s d r c).mem = s.mem := by
  simp [scanFails]

@[simp] theorem fenceAct_mem (d : DieId) (r c : Nat) (t : State) : (fenceAct s d r c t).2.2.mem = t.mem := rfl

theorem fenceIdle_mem {d : DieId} {r c : Nat} {t : State} (h : t.mem = s.mem) : (fenceIdle s d r c t).2.2.mem = s.mem := by
  unfold fenceIdle
  split <;> simp [h]

@[simp] theorem actSram_mem (e : FaultEvent) (d : DieId) : (actSram s e d).2.2.mem = s.mem := by
  unfold actSram
  split
  · rfl
  · simp only
    split
    · exact fenceIdle_mem s rfl
    · (repeat' split) <;> simp

@[simp] theorem actDram_mem (e : FaultEvent) : (actDram s e).2.2.mem = s.mem := by
  unfold actDram
  simp only
  (repeat' split) <;> simp

@[simp] theorem loseDie_canonical {s : State} (h : Canonical s.mem) (d : DieId) : Canonical (loseDie s d).mem := by
  unfold loseDie
  extract_lets u s1 s2 s3 s4 y s6 s7 recent held x s8 s9
  refine canonical_of_ite h ?_
  have h3 : Canonical s3.mem := by simpa [s3, s2, s1] using h
  clear_value s3
  have h4 : s4.mem = s3.mem := foldl_mem _ (fun t e => by simp) _ _
  clear_value s4
  have h6 : Canonical s6.mem := by simpa [s6, h4] using h3
  have h7 : Canonical s7.mem := foldl_canonical (fun t k ht => canonical_of_ite (by simp [ht]) ht) h6 _
  clear_value s7
  have h9 : Canonical s9.mem := by simpa [s9, s8] using h7
  clear_value s9
  exact canonical_of_ite (by simpa using h9) (by simpa using h9)

@[simp] theorem portLost_canonical {s : State} (h : Canonical s.mem) (p0 : PortId) : Canonical (portLost s p0).mem := by
  simp only [portLost]
  (repeat' split) <;> simp [h]

@[simp] theorem narrow_canonical {s : State} (h : Canonical s.mem) (p : PortId) : Canonical (narrow s p).2.2.mem := by
  unfold narrow
  extract_lets w s1
  have h1 : Canonical s1.mem := by simpa [s1] using h
  clear_value s1
  split
  · simp [h]
  · split
    · exact h
    · (repeat' split) <;> simp [h1]

@[simp] theorem actLane_canonical {s : State} (h : Canonical s.mem) (e : FaultEvent) : Canonical (actLane s e).2.2.mem := by
  unfold actLane
  split
  · exact h
  · extract_lets wire mark t u
    have hu : Canonical u.mem := by simpa [u, mark] using h
    have ht : Canonical t.mem := by simpa [t, mark] using h
    split
    · exact narrow_canonical (by simpa [mark] using h) _
    · exact ht
    · split
      · exact h
      · split
        · simpa using hu
        · exact narrow_canonical (by simpa using hu) _

@[simp] theorem failRouter_mem (d : DieId) (r c : Nat) : (failRouter s d r c).mem = s.mem := by
  simp [failRouter]

@[simp] theorem actRouter_mem (d : DieId) (r c : Nat) : (actRouter s d r c).2.2.mem = s.mem := by
  unfold actRouter
  simp only
  split
  · exact fenceIdle_mem s (by simp)
  · split
    · simp [foldl_mem]
    · split <;> simp [foldl_mem]

@[simp] theorem linkCourse_mem (d : DieId) (l : List Nat) (keys : List (Nat × Nat × Nat)) :
    (linkCourse s d l keys).2.2.mem = s.mem := by
  unfold linkCourse
  simp only
  split <;> simp [foldl_mem]

@[simp] theorem failBundle_mem (d : DieId) (b : Nat) : (failBundle s d b).2.2.mem = s.mem := by
  unfold failBundle
  simp only
  (repeat' split) <;> simp [foldl_mem]

@[simp] theorem wireFails_mem (d : DieId) (b w : Nat) : (wireFails s d b w).mem = s.mem := by
  simp [wireFails]

@[simp] theorem applySeams_mem (d : DieId) : (applySeams s d).mem = s.mem :=
  foldl_mem _ (fun t b => by simp only; split <;> rfl) _ s

@[simp] theorem shortIsland_mem (d : DieId) (n : Nat) : (shortIsland s d n).mem = s.mem := by
  unfold shortIsland
  simp only [loseStep_mem, updRow_mem, addRepair_mem]
  rw [foldl_mem _ fun t c => by simp only [setPos_mem, State.setDx_mem]; split <;> simp]
  simp

@[simp] theorem classAct_canonical {s : State} (h : Canonical s.mem) (e : FaultEvent) :
    Canonical (classAct s e).2.2.mem := by
  have hf : ∀ d t r c, t.mem = s.mem → Canonical (fenceIdle s d r c t).2.2.mem := fun d t r c ht => by
    rw [fenceIdle_mem s ht]
    exact h
  unfold classAct
  extract_lets d q
  split
  · split <;> simp [h]
  · simp [h]
  · simp [h]
  · split <;> simp [h]
  · split
    · extract_lets r c
      split
      · simp [h]
      · split <;> simp [h, hf]
    · exact h
  · split
    · split <;> simp [h]
    · exact h
  · split <;> exact h
  · simp [h]
  · simp [h]

@[simp] theorem track_mem (k : Nat) (e : FaultEvent) (x : FaultItem) : (track s k e x).mem = s.mem := by
  simp [track]

@[simp] theorem countStone_mem (k cls : Nat) : (countStone s k cls).mem = s.mem := by
  simp [countStone]

@[simp] theorem judgeEvent_canonical {s : State} (h : Canonical s.mem) (e : FaultEvent) :
    Canonical (judgeEvent s e).mem := by
  unfold judgeEvent
  extract_lets k t w x ue r s1 s3 a s2
  have h1 : Canonical s1.mem := by simpa [s1] using h
  clear_value s1
  have h3 : Canonical s3.mem := by simpa [s3] using h1
  clear_value s3
  have ha : Canonical a.2.2.mem := classAct_canonical h3 e
  have h2 : Canonical s2.mem := by simpa [s2] using h1
  clear_value a s2
  split
  · simpa using ha
  · split <;> simp [h2]

@[simp] theorem lostControl_mem (unit : Nat) : (lostControl s unit).mem = s.mem := by
  simp [lostControl]

@[simp] theorem controlError_mem (e : FaultEvent) : (controlError s e).mem = s.mem := by
  simp only [controlError]
  (repeat' split) <;> simp

@[simp] theorem seamError_mem (e : FaultEvent) : (seamError s e).mem = s.mem := by
  unfold seamError
  split <;> simp

@[simp] theorem entryError_mem (e : FaultEvent) : (entryError s e).mem = s.mem := by
  unfold entryError
  split <;> simp

@[simp] theorem flitError_mem (e : FaultEvent) : (flitError s e).mem = s.mem := by
  unfold flitError
  split <;> simp

@[simp] theorem takeEvent_canonical {s : State} (h : Canonical s.mem) (e : FaultEvent) :
    Canonical (takeEvent s e).mem := by
  simp [takeEvent, h]

@[simp] theorem execFaultEvent_canonical {s : State} (h : Canonical s.mem) (e : FaultEvent) :
    Canonical (after (execFaultEvent e s) s).mem := by
  simp [execFaultEvent, h]

@[simp] theorem execError_canonical {s : State} (h : Canonical s.mem) (col : Collector) (e : ErrorReport) :
    Canonical (after (execError col e s) s).mem := by
  unfold execError
  split <;> simp [h]

@[simp] theorem selftestStone_mem (c : CoreId) : (selftestStone s c).mem = s.mem := by
  simp [selftestStone]

@[simp] theorem execIslandShort_canonical {s : State} (h : Canonical s.mem) (d : DieId) (isl : Fin 16) :
    Canonical (after (execIslandShort d isl s) s).mem := by
  simp [execIslandShort, h]

@[simp] theorem tripDie_canonical {s : State} (h : Canonical s.mem) (d : DieId) (code cause : Nat) :
    Canonical (tripDie s d code cause).mem := by
  simp [tripDie, h]

@[simp] theorem execVddlTrip_canonical {s : State} (h : Canonical s.mem) (d : DieId) :
    Canonical (after (execVddlTrip d s) s).mem := by
  simp [execVddlTrip, h]

@[simp] theorem execThermalTrip_canonical {s : State} (h : Canonical s.mem) (d : DieId) :
    Canonical (after (execThermalTrip d s) s).mem := by
  simp [execThermalTrip, h]

@[simp] theorem execStackThermalTrip_canonical {s : State} (h : Canonical s.mem) (k : StackId) :
    Canonical (after (execStackThermalTrip k s) s).mem := by
  simp [execStackThermalTrip, h]

@[simp] theorem execClklost_canonical {s : State} (h : Canonical s.mem) (d : DieId) (seq : Fin 16) (crc : BitVec 8) :
    Canonical (after (execClklost d seq crc s) s).mem := by
  rw [execClklost, after_next]
  exact sbReceive_canonical h fun t ht => by simp [ht]

@[simp] theorem endFallen_canonical {s : State} (h : Canonical s.mem) (p : PortId) : Canonical (endFallen s p).mem := by
  simp [endFallen, h]

@[simp] theorem execLinkGroupReceive_canonical {s : State} (h : Canonical s.mem) (p : PortId) (errs : List WireErr)
    (grp : Option SpanGroup) : Canonical (after (execLinkGroupReceive p errs grp s) s).mem := by
  simp [execLinkGroupReceive, h]

@[simp] theorem trainLanes_mem (p : PortId) (near far : EndLanes) : (trainLanes s p near far).mem = s.mem := by
  unfold trainLanes
  split <;> simp [foldl_mem]

@[simp] theorem execLinkTrainingComplete_canonical {s : State} (h : Canonical s.mem) (p : PortId) (ok : Bool)
    (near far : EndLanes) (latency : BitVec 8) :
    Canonical (after (execLinkTrainingComplete p ok near far latency s) s).mem := by
  unfold execLinkTrainingComplete
  (repeat' split) <;> simp [h, foldl_mem]

@[simp] theorem execPortClockLoss_canonical {s : State} (h : Canonical s.mem) (d : DieId) (p : Fin 9) :
    Canonical (after (execPortClockLoss d p s) s).mem := by
  simp [execPortClockLoss, h]

@[simp] theorem startScan_mem (d : DieId) : (startScan s d).mem = s.mem := by
  simp [startScan]

@[simp] theorem execScanStart_mem (r : Requester) (d : DieId) : (after (execScanStart r d s) s).mem = s.mem := by
  simp [execScanStart]

@[simp] theorem scanEnds_mem (d : DieId) (pass : Bool) (pattern : Nat) : (scanEnds s d pass pattern).mem = s.mem := by
  unfold scanEnds
  split <;> simp

@[simp] theorem execRotation_mem (d : DieId) : (after (execRotation d s) s).mem = s.mem := by
  simp only [execRotation]
  (repeat' split) <;> simp

@[simp] theorem execForcedRecall_mem (r : Requester) (g : Gather) : (after (execForcedRecall r g s) s).mem = s.mem := by
  simp [execForcedRecall]

@[simp] theorem execGatherHold_mem (r : Requester) (g : Gather) : (after (execGatherHold r g s) s).mem = s.mem := by
  simp [execGatherHold]

@[simp] theorem execGatherRelease_mem (r : Requester) (g : Gather) :
    (after (execGatherRelease r g s) s).mem = s.mem := by
  simp [execGatherRelease]

@[simp] theorem execRefetch_mem (r : Requester) (d : DieId) (i : Fin 32768) :
    (after (execRefetch r d i s) s).mem = s.mem := by
  simp [execRefetch]

@[simp] theorem execIntr_mem (dest : NodeId) (cause : Nat) : (after (execIntr dest cause s) s).mem = s.mem := by
  unfold execIntr
  split <;> rfl

@[simp] theorem execCtrl_mem (dest : NodeId) (cmd : CtrlCmd) : (after (execCtrl dest cmd s) s).mem = s.mem := by
  unfold execCtrl
  (repeat' split) <;> simp

end Sys2Proof.Machine
end

section
/-! SUPPORT. Memory after the operations of `Machine/Boot.lean`: starts and resets. -/

namespace Sys2Proof.Machine

variable (s : State)

@[simp] theorem unpowered_canonical : Canonical (unpowered s).mem := Memory.wf_reset

@[simp] theorem inputFails_canonical {s : State} (h : Canonical s.mem) : Canonical (inputFails s).mem := by
  simp [inputFails, h]

@[simp] theorem readLicences_mem : (readLicences s).mem = s.mem := by
  simp [readLicences, foldl_mem]

@[simp] theorem setImg_mem (n : Nat) (x : FwImage) : (setImg s n x).mem = s.mem := by
  simp [setImg]

@[simp] theorem stopStart_mem (n : Nat) : (stopStart s n).mem = s.mem := by
  simp [stopStart]

@[simp] theorem bootFirmware_mem : (bootFirmware s).mem = s.mem := by
  unfold bootFirmware
  split <;> simp

@[simp] theorem holdDie_mem (d : DieId) : (holdDie s d).mem = s.mem := by
  simp [holdDie]

@[simp] theorem applyRepairs_mem (d : DieId) (warm : Bool) : (applyRepairs s d warm).mem = s.mem := by
  refine foldl_mem _ (fun t r => ?_) _ s
  split <;> simp [foldl_mem]

@[simp] theorem applyRowRepairs_mem (d : DieId) : (applyRowRepairs s d).mem = s.mem := by
  simp [applyRowRepairs, foldl_mem]

@[simp] theorem applyLaneRepairs_mem (at_ : PortId → Bool) : (applyLaneRepairs s at_).mem = s.mem := by
  refine foldl_mem _ (fun t r => ?_) _ s
  split <;> simp

@[simp] theorem freshCores_canonical {s : State} (h : Canonical s.mem) (d : DieId) : Canonical (freshCores s d).mem :=
  foldl_canonical (fun t c ht => by simp [ht]) (by simpa using h) _

@[simp] theorem trainPorts_mem (d : DieId) : (trainPorts s d).mem = s.mem := by
  simp [trainPorts, foldl_mem]

@[simp] theorem clockDie_mem (d : DieId) : (clockDie s d).mem = s.mem := by
  simp [clockDie]

@[simp] theorem testStack_canonical {s : State} (h : Canonical s.mem) (k : Nat) : Canonical (testStack s k).mem := by
  simp [testStack, h]

@[simp] theorem clearDie_mem (d : DieId) : (clearDie s d).mem = s.mem := by
  simp [clearDie]

@[simp] theorem mapAfresh_mem (warm : Bool) (d : DieId) : (mapAfresh s warm d).mem = s.mem := by
  simp [mapAfresh]

@[simp] theorem abortLoad_mem : (abortLoad s).mem = s.mem := by
  simp [abortLoad]

@[simp] theorem scrubCore_mem (c : CoreId) : (scrubCore s c).mem = s.mem := by
  simp [scrubCore]

@[simp] theorem markScrub_mem (d : DieId) : (markScrub s d).mem = s.mem := by
  simp [markScrub]

@[simp] theorem scrubDie_canonical {s : State} (h : Canonical s.mem) (d : DieId) : Canonical (scrubDie s d).mem := by
  unfold scrubDie
  refine canonical_of_ite ?_ h
  rw [State.wb_mem]
  exact foldl_canonical (fun t k ht => testStack_canonical ht _) (by simpa using h) _

@[simp] theorem startRelease_canonical {s : State} (h : Canonical s.mem) (keep : Option Nat) :
    Canonical (startRelease s keep).mem := by
  unfold startRelease
  extract_lets s1 s2 s3 s4 s5 x y s6 live away s7
  have h1 : s1.mem = s.mem := by simp [s1]
  have h2 : s2.mem = s1.mem := foldl_mem _ (fun t g => by simp) _ _
  have h3 : s3.mem = s2.mem := foldl_mem _ (fun t d => by simp) _ _
  have h4 : s4.mem = s3.mem := by
    simp only [s4, ideLost_mem, abortLoad_mem]
    exact foldl_mem _ (fun t k => by simp) _ _
  have h5 : s5.mem = s4.mem := foldl_mem _ (fun t m => by split <;> simp) _ _
  clear_value s5
  have h6 : s6.mem = s5.mem := rfl
  clear_value s6 live
  have ha : away.mem = s6.mem := by
    simp only [away]
    rw [foldl_mem _ fun t d => by simp]
    simp
  have h7 : s7.mem = away.mem := foldl_mem _ (fun t c => by simp) _ _
  refine foldl_canonical (fun t k ht => canonical_of_ite (by simp [ht]) ht) ?_ _
  rw [h7, ha, h6, h5, h4, h3, h2, h1]
  exact h

@[simp] theorem warmReset_canonical {s : State} (h : Canonical s.mem) (full : Bool) :
    Canonical (warmReset s full).mem := by
  unfold warmReset
  extract_lets fast slow path x z t t1 t2
  have ht : Canonical t.mem := smWf_filter _ _ _ h
  clear_value t
  have h1 : t1.mem = t.mem := foldl_mem _ (fun u d => by simp only; split <;> simp) _ _
  have h2 : t2.mem = t1.mem := foldl_mem _ (fun u k => by split <;> simp) _ _
  clear_value t2
  simpa [h2, h1] using ht

@[simp] theorem orderWarm_canonical {s : State} (h : Canonical s.mem) (full : Bool) :
    Canonical (orderWarm s full).mem := by
  simp [orderWarm, h]

@[simp] theorem execWarm_canonical {s : State} (h : Canonical s.mem) (r : Requester) (full : Bool) :
    Canonical (after (execWarm r full s) s).mem := by
  simp [execWarm, h]

@[simp] theorem endRelease_canonical {s : State} (h : Canonical s.mem) : Canonical (endRelease s).mem := by
  unfold endRelease
  (repeat' split) <;> simp [h, foldl_mem]

@[simp] theorem toStage_mem (n : Nat) : (toStage s n).mem = s.mem := by
  simp [toStage]

@[simp] theorem failDie_canonical {s : State} (h : Canonical s.mem) (d : DieId) : Canonical (failDie s d).mem := by
  unfold failDie
  extract_lets x s1 s2
  have h2 : Canonical s2.mem := by
    simp only [s2]
    exact foldl_canonical (fun t k ht => testStack_canonical ht _) (by simpa [s1] using h) _
  clear_value s2
  exact canonical_of_ite (by simpa using h2) (by simpa using h)

@[simp] theorem endBoot_mem : (endBoot s).mem = s.mem := by
  simp [endBoot]

@[simp] theorem endClocks_mem : (endClocks s).mem = s.mem := by
  simp [endClocks, foldl_mem]

@[simp] theorem endMemories_canonical {s : State} (h : Canonical s.mem) (r : StageResult) :
    Canonical (endMemories s r).mem := by
  unfold endMemories
  extract_lets s1 x s2 s3 s4
  have h1 : Canonical s1.mem := foldl_canonical (fun t k ht => canonical_of_ite ht (by simp [ht])) h _
  clear_value s1
  have h2 : Canonical s2.mem := by
    refine foldl_canonical (fun t d ht => by simp [ht]) ?_ _
    rw [foldl_mem _ fun t d => by simp]
    exact h1
  clear_value s2
  have h3 : Canonical s3.mem := canonical_of_ite (startRelease_canonical h2 _) h2
  clear_value s3
  have h4 : s4.mem = s3.mem := by
    simp only [s4]
    rw [foldl_mem _ fun t d => by simp]
    simp
  rw [toStage_mem, foldl_mem _ fun t m => by simp, h4]
  exact h3

@[simp] theorem settleDown_mem (p : PortId) : (settleDown s p).mem = s.mem := by
  simp [settleDown]

@[simp] theorem badLane_mem (x : PortId × Fin 264) : (badLane s x).mem = s.mem := by
  simp only [badLane]
  split <;> simp

@[simp] theorem endLinks_canonical {s : State} (h : Canonical s.mem) (r : StageResult) :
    Canonical (endLinks s r).mem := by
  unfold endLinks
  extract_lets s1
  have h1 : s1.mem = s.mem := foldl_mem _ (fun t x => by simp) _ _
  clear_value s1
  rw [toStage_mem]
  exact foldl_canonical (fun t d ht => canonical_of_ite ht (by simp [ht])) (h1 ▸ h) _

@[simp] theorem scanFailsAt_mem (p : Pos) : (scanFailsAt s p).mem = s.mem := by
  simp [scanFailsAt]

@[simp] theorem routerFailsAt_mem (p : Pos) : (routerFailsAt s p).mem = s.mem := by
  simp [routerFailsAt]

@[simp] theorem endCores_canonical {s : State} (h : Canonical s.mem) (r : StageResult) :
    Canonical (endCores s r).mem := by
  unfold endCores
  extract_lets scanned s1 s2 s3 s4
  have h1 : s1.mem = s.mem := by
    simp only [s1]
    rw [foldl_mem _ fun t p => by simp, foldl_mem _ fun t p => by simp]
  have h2 : s2.mem = s1.mem := foldl_mem _ (fun t d => by simp) _ _
  have h3 : s3.mem = s2.mem := foldl_mem _ (fun t c => by split <;> simp) _ _
  have h4 : s4.mem = s3.mem := foldl_mem _ (fun t d => by simp) _ _
  rw [toStage_mem]
  refine foldl_canonical (fun t d ht => by simp [ht]) ?_ _
  rw [h4, h3, h2, h1]
  exact h

@[simp] theorem declareReady_mem : (declareReady s).mem = s.mem := by
  simp [declareReady]

@[simp] theorem execColdStartStageEnd_canonical {s : State} (h : Canonical s.mem) (r : StageResult) :
    Canonical (after (execColdStartStageEnd r s) s).mem := by
  unfold execColdStartStageEnd
  extract_lets st t
  have ht : Canonical t.mem := foldl_canonical (fun u d hu => failDie_canonical hu d) h _
  clear_value t st
  rw [after_next]
  refine canonical_of_ite h (canonical_of_ite (by simpa using h) ?_)
  split <;> simp [ht]

@[simp] theorem execMrefTimeout_mem : (after (execMrefTimeout s) s).mem = s.mem := by
  simp [execMrefTimeout]

@[simp] theorem execSelftestTimeout_mem (c : CoreId) : (after (execSelftestTimeout c s) s).mem = s.mem := by
  simp [execSelftestTimeout]

@[simp] theorem execConfigRetryEnd_mem : (after (execConfigRetryEnd s) s).mem = s.mem := by
  simp [execConfigRetryEnd]

@[simp] theorem execDieRst_canonical {s : State} (h : Canonical s.mem) (r : Requester) (d : DieId) (full : Bool) :
    Canonical (after (execDieRst r d full s) s).mem := by
  simp [execDieRst, h]

@[simp] theorem reloadDie_canonical {s : State} (h : Canonical s.mem) (d : DieId) : Canonical (reloadDie s d).mem := by
  simp only [reloadDie]
  (repeat' split) <;> simp [h, foldl_mem]

@[simp] theorem execDieResetComplete_canonical {s : State} (h : Canonical s.mem) (d : DieId) (ok : Bool) :
    Canonical (after (execDieResetComplete d ok s) s).mem := by
  unfold execDieResetComplete
  extract_lets u
  rw [after_next]
  refine canonical_of_ite h (canonical_of_ite (by simp [h]) (canonical_of_ite ?_ (by simpa using h)))
  exact foldl_canonical (fun t k ht => by simp [ht]) (by simpa using h) _

@[simp] theorem execPwrEnAssert_mem (mv lowMs : Nat) : (after (execPwrEnAssert mv lowMs s) s).mem = s.mem := by
  simp [execPwrEnAssert]

@[simp] theorem execColdStart_canonical {s : State} (h : Canonical s.mem) :
    Canonical (after (execColdStart s) s).mem := by
  simp [execColdStart, h, foldl_mem]

@[simp] theorem execInputUndervoltage_mem : (after (execInputUndervoltage s) s).mem = s.mem := by
  simp [execInputUndervoltage]

@[simp] theorem execInputOvervoltage_canonical {s : State} (h : Canonical s.mem) (mv : Nat) :
    Canonical (after (execInputOvervoltage mv s) s).mem := by
  simp [execInputOvervoltage, h]

@[simp] theorem execInputOvercurrent_canonical {s : State} (h : Canonical s.mem) :
    Canonical (after (execInputOvercurrent s) s).mem := by
  simp [execInputOvercurrent, h]

@[simp] theorem execInputFail_canonical {s : State} (h : Canonical s.mem) :
    Canonical (after (execInputFail s) s).mem := by
  simp [execInputFail, h]

@[simp] theorem execInputReturn_mem : (after (execInputReturn s) s).mem = s.mem := by
  simp [execInputReturn]

@[simp] theorem execPwrEnDeassert_canonical {s : State} (h : Canonical s.mem) :
    Canonical (after (execPwrEnDeassert s) s).mem := by
  simp [execPwrEnDeassert, h]

@[simp] theorem execHubThermalTrip_canonical {s : State} (h : Canonical s.mem) :
    Canonical (after (execHubThermalTrip s) s).mem := by
  simp [execHubThermalTrip, h]

@[simp] theorem execStrapInputChange_mem (btest level : Bool) :
    (after (execStrapInputChange btest level s) s).mem = s.mem := by
  simp [execStrapInputChange]

@[simp] theorem execPerstAssert_mem : (after (execPerstAssert s) s).mem = s.mem := by
  simp [execPerstAssert]

@[simp] theorem execPerstDeassert_mem : (after (execPerstDeassert s) s).mem = s.mem := by
  simp [execPerstDeassert]

@[simp] theorem flushOwed_mem : (flushOwed s).mem = s.mem := by
  simp [flushOwed, foldl_mem]

@[simp] theorem execPcieLinkUp_mem : (after (execPcieLinkUp s) s).mem = s.mem := by
  simp [execPcieLinkUp]

@[simp] theorem execLeak_mem : (after (execLeak s) s).mem = s.mem := by
  simp [execLeak]

@[simp] theorem execCblChange_canonical {s : State} (h : Canonical s.mem) (p : Fin 8) (present : Bool) :
    Canonical (after (execCblChange p present s) s).mem := by
  simp [execCblChange, h]

@[simp] theorem tapSelect_mem (i : TapInstr) : (tapSelect s i).mem = s.mem := by
  simp [tapSelect]

@[simp] theorem execBypass_mem : (after (execBypass s) s).mem = s.mem := by
  simp [execBypass]

@[simp] theorem execIdcode_mem : (after (execIdcode s) s).mem = s.mem := by
  simp [execIdcode]

@[simp] theorem execSamplePreload_mem : (after (execSamplePreload s) s).mem = s.mem := by
  simp [execSamplePreload]

@[simp] theorem execExtest_mem : (after (execExtest s) s).mem = s.mem := by
  simp [execExtest]

@[simp] theorem execClamp_mem : (after (execClamp s) s).mem = s.mem := by
  simp [execClamp]

@[simp] theorem execHighz_mem : (after (execHighz s) s).mem = s.mem := by
  simp [execHighz]

@[simp] theorem execExtestPulse_mem : (after (execExtestPulse s) s).mem = s.mem := by
  simp [execExtestPulse]

@[simp] theorem execExtestTrain_mem : (after (execExtestTrain s) s).mem = s.mem := by
  simp [execExtestTrain]

@[simp] theorem execIdent_mem (p : Fin 8) (m : IdentMsg) : (after (execIdent p m s) s).mem = s.mem := by
  simp only [execIdent]
  split <;> simp

end Sys2Proof.Machine
end

section
/-! SUPPORT. Memory after the operations of `Machine/Boundary.lean`: the step boundary. -/

namespace Sys2Proof.Machine

variable (s : State)

@[simp] theorem retrainCrossing_mem (d : DieId) (n : Nat) : (retrainCrossing d s n).mem = s.mem := by
  unfold retrainCrossing
  simp only
  split
  · split <;> simp
  · rfl

@[simp] theorem applyBoundary_mem (d : DieId) : (applyBoundary s d).mem = s.mem := by
  simp only [applyBoundary]
  split <;> simp [foldl_mem]

@[simp] theorem newStep_mem (g : Gather) : (newStep s g).mem = s.mem := by
  simp [newStep]

@[simp] theorem execStepBoundary_mem : (after (execStepBoundary s) s).mem = s.mem := by
  unfold execStepBoundary
  rw [after_next]
  refine ite_mem rfl ?_
  extract_lets n s1 x s2 s3 s4 s4' s5 y z
  have h1 : s1.mem = s.mem := by
    simp only [s1]
    rw [foldl_mem _ fun t d => by simp]
    simp
  clear_value s1
  have h2 : s2.mem = s1.mem := by simp [s2, x]
  clear_value s2
  have h3 : s3.mem = s2.mem := by simp [s3]
  have h4 : s4.mem = s3.mem := foldl_mem _ (fun t k => by simp) _ _
  clear_value s4
  have h4' : s4'.mem = s4.mem := rfl
  clear_value s4'
  have h5 : s5.mem = s4'.mem := by
    simp only [s5, enterIdle_mem]
    exact foldl_mem _ (fun t g => by simp) _ _
  have hs : s5.mem = s.mem := by rw [h5, h4', h4, h3, h2, h1]
  clear_value s5
  split
  · refine ite_mem ?_ (by simpa using hs)
    exact (foldl_mem _ (fun t g => by simp) _ _).trans hs
  · simpa using hs

end Sys2Proof.Machine
end

section
/-! SUPPORT. Memory after the operations of `Machine/Store.lean`: stores to register words, with their events. -/

namespace Sys2Proof.Machine

variable (s : State)

@[simp] theorem coreEvents_mem (r : Requester) (u off v : Nat) : (coreEvents r u off v s).mem = s.mem := by
  unfold coreEvents
  extract_lets c s1
  refine ite_mem ?_ (ite_mem (by simp) (ite_mem (by simp) (ite_mem ?_ (ite_mem (by simp) (ite_mem ?_ rfl)))))
  · split <;> simp
  · have h1 : s1.mem = s.mem := ite_mem (by simp) rfl
    exact (ite_mem (by simp) rfl).trans h1
  · exact ite_mem (by simp) rfl

@[simp] theorem stackEvents_canonical {s : State} (h : Canonical s.mem) (r : Requester) (d off v : Nat) :
    Canonical (stackEvents r d off v s).mem := by
  unfold stackEvents
  extract_lets k o s1 j crucible
  have h1 : Canonical s1.mem := canonical_of_ite (execStackZero_canonical h ..) h
  clear_value s1
  refine canonical_of_ite (canonical_of_ite (by simpa using h1) h1) (canonical_of_ite ?_ h)
  exact canonical_of_ite (by simpa using h) (canonical_of_ite (by simpa using h) (canonical_of_ite h (by simpa using h)))

@[simp] theorem dieEvents_canonical {s : State} (h : Canonical s.mem) (r : Requester) (u off v : Nat) :
    Canonical (dieEvents r u off v s).mem := by
  unfold dieEvents
  extract_lets d cs i q n w k sc g s1 s2
  have hc : Canonical sc.mem := canonical_of_ite (by simpa using h) h
  have h1 : Canonical s1.mem := canonical_of_ite (by simpa using h) h
  have h2 : Canonical s2.mem := canonical_of_ite (by simpa using h1) h1
  clear_value sc s1 s2
  refine canonical_of_ite (canonical_of_ite h (by simpa using h)) ?_
  refine canonical_of_ite (canonical_of_ite h (by simpa using h)) ?_
  refine canonical_of_ite (canonical_of_ite hc (by simpa using hc)) ?_
  refine canonical_of_ite (canonical_of_ite (by simpa using h) h) ?_
  refine canonical_of_ite (canonical_of_ite (by simpa using h2) h2) ?_
  refine canonical_of_ite (canonical_of_ite (by simpa using h) h) ?_
  refine canonical_of_ite (canonical_of_ite (by simpa using h) h) ?_
  refine canonical_of_ite (canonical_of_ite (by simpa using h) h) ?_
  refine canonical_of_ite (canonical_of_ite (by simpa using h) h) ?_
  exact canonical_of_ite (by simp [h]) h

@[simp] theorem hubEvents_canonical {s : State} (h : Canonical s.mem) (r : Requester) (off v : Nat) :
    Canonical (hubEvents r off v s).mem := by
  unfold hubEvents
  extract_lets hold s1 n e m p full
  have h1 : Canonical s1.mem := canonical_of_ite h (by simpa using h)
  clear_value s1
  refine canonical_of_ite ?_ ?_
  · split <;> simp [h]
  refine canonical_of_ite (canonical_of_ite (by simpa using h1) h1) ?_
  refine canonical_of_ite (canonical_of_ite h (canonical_of_ite (by simpa using h) (by simpa using h))) ?_
  refine canonical_of_ite (canonical_of_ite ?_ (canonical_of_ite (by simpa using h) h)) ?_
  · exact canonical_of_ite (by simpa using h) h
  refine canonical_of_ite (canonical_of_ite (by simpa using h) h) ?_
  exact canonical_of_ite (canonical_of_ite (by simp [h]) (canonical_of_ite (by simp [h]) h)) h

@[simp] theorem admitWord_mem (sp : Space) (off v : Nat) : (admitWord s sp off v).2.mem = s.mem := by
  unfold admitWord
  split <;> simp

theorem csrStore_canonical {s : State} (h : Canonical s.mem) {r : Requester} {sp : Space} {u off v : Nat} {p : State × Bool}
    (hp : csrStore s r sp u off v = some p) : Canonical p.1.mem := by
  unfold csrStore at hp
  extract_lets a at hp
  have ha : Canonical a.2.mem := by simpa [a] using h
  clear_value a
  split at hp
  · cases hp
    simpa using h
  · split at hp
    · cases hp
    · next heq =>
      cases hp
      exact csrWrite_mem _ heq ▸ ha
    · next t heq =>
      have ht : Canonical t.mem := csrWrite_mem _ heq ▸ ha
      cases hp
      refine canonical_of_ite ht ?_
      split <;> simp [ht]

theorem wordAccess_mem {r : Requester} {at_ : CsrAddr} {ok read : Bool} {k : State → State} (hk : (k s).mem = s.mem) :
    (wordAccess s r at_ ok read k).mem = s.mem := by
  unfold wordAccess
  simp only
  split <;> simp [hk]

theorem wordAccess_canonical {s : State} {r : Requester} {at_ : CsrAddr} {ok read : Bool} {k : State → State}
    (h : Canonical s.mem) (hk : Canonical (k s).mem) : Canonical (wordAccess s r at_ ok read k).mem := by
  unfold wordAccess
  extract_lets narrow go
  have hg : Canonical (go s).mem := canonical_of_ite hk (by simpa [narrow] using h)
  split
  · exact hostRequest_canonical h hg
  · exact hg

@[simp] theorem accessFault_mem (r : Requester) (at_ : CsrAddr) : (accessFault s r at_).mem = s.mem := by
  simp [accessFault]

@[simp] theorem execRegisterWrite_canonical {s : State} (h : Canonical s.mem) (r : Requester) (at_ : CsrAddr) (bytes : Nat)
    (v : Word) : Canonical (after (execRegisterWrite r at_ bytes v s) s).mem := by
  rw [execRegisterWrite, after_next]
  refine wordAccess_canonical h (canonical_of_ite (by simpa using h) ?_)
  split
  · next heq => exact csrStore_canonical h heq
  · simpa using h

@[simp] theorem execLowWordLatchRead_mem (r : Requester) (at_ : CsrSpan) :
    (after (execLowWordLatchRead r at_ s) s).mem = s.mem := by
  rw [execLowWordLatchRead, after_next]
  refine wordAccess_mem s ?_
  split
  · next h =>
    split at h
    · simp [csrRead_mem s h]
    · cases h
  · simp

@[simp] theorem bodyCsrw_keeps_canonical {s : State} (h : Canonical s.mem) (c : CoreId) (w : IFields) :
    (bodyCsrw c w s).Keeps Canonical := by
  refine withSrc_keeps h fun x t ht => ?_
  split
  · trivial
  · next heq => simpa using csrStore_canonical ht heq

@[simp] theorem execCsrw_canonical {s : State} (h : Canonical s.mem) (c : CoreId) (w : IFields) :
    Canonical (after (execCsrw c w s) s).mem := by
  rw [execCsrw, after_next]
  exact issue_keeps h (bodyCsrw_keeps_canonical h c w)

end Sys2Proof.Machine
end

section
/-! SUPPORT. Memory after the operations of `Machine/Net.lean`: requests at their target. -/

namespace Sys2Proof.Machine

variable (s : State)

@[simp] theorem reqFault_mem (src : NodeId) (m : Nat) : (reqFault s src m).mem = s.mem := by
  simp [reqFault]

@[simp] theorem sendRdrsp_mem (src : NodeId) (tag m n : Nat) (r : Option (List Byte)) :
    (sendRdrsp s src tag m n r).mem = s.mem := by
  simp [sendRdrsp]

@[simp] theorem takeRead_mem (src : NodeId) (tag m : Nat) (fill : Bool) : (takeRead src tag m fill s).mem = s.mem := by
  unfold takeRead
  simp only
  split
  · split
    · simp [foldl_mem]
    · split <;> simp
  · split
    · split <;> simp
    · split
      · simp
      · split
        · next h =>
          split at h
          · simp [csrRead_mem s h]
          · cases h
        · simp

@[simp] theorem storeWords_canonical {s : State} (h : Canonical s.mem) (r : Requester) (src : NodeId) (a : CsrAddr)
    (l : List (Nat × Nat)) : Canonical (storeWords s r src a l).1.mem := by
  unfold storeWords
  split
  · simpa using h
  · split
    · simpa using h
    · refine foldl_canonical (fun t p ht => ?_) h l
      split
      · next heq => exact csrStore_canonical ht heq
      · exact ht

@[simp] theorem takeWriteReq_canonical {s : State} (h : Canonical s.mem) (src : NodeId) (tag m : Nat) (data : List Byte) :
    Canonical (takeWriteReq src tag m data s).mem := by
  unfold takeWriteReq
  extract_lets n reply r
  have hr : ∀ t ok, Canonical t.mem → Canonical (reply t ok).mem := fun t ok ht => by simpa [reply] using ht
  have hw : Canonical r.2.mem := by simp [r, h]
  clear_value reply r
  have hf : Canonical (reply (reqFault s src m) false).mem := hr _ _ (by simpa using h)
  refine canonical_of_ite (canonical_of_ite hf (canonical_of_ite (by simpa using h) hf)) ?_
  refine canonical_of_ite (canonical_of_ite (hr _ _ hw) hf) ?_
  split
  · exact hf
  · refine canonical_of_ite hf (canonical_of_ite (hr _ _ (by simpa using h)) ?_)
    exact hr _ _ (storeWords_canonical h ..)

@[simp] theorem toTarget_mem {src : NodeId} {m : Nat} {p : Packet} {k : State → State} (hk : (k s).mem = s.mem) :
    (toTarget s src m p k).mem = s.mem := by
  simp [toTarget, hk]

theorem toTarget_canonical {s : State} {src : NodeId} {m : Nat} {p : Packet} {k : State → State} (h : Canonical s.mem)
    (hk : Canonical (k s).mem) : Canonical (toTarget s src m p k).mem :=
  canonical_of_ite (toCore_canonical h hk) hk

@[simp] theorem execRdreq_mem (src : NodeId) (tag : BitVec 12) (mga : Mga) (fill : Bool) :
    (after (execRdreq src tag mga fill s) s).mem = s.mem := by
  simp [execRdreq]

@[simp] theorem execWrreq_canonical {s : State} (h : Canonical s.mem) (src : NodeId) (tag : BitVec 12) (mga : Mga)
    (data : List Byte) : Canonical (after (execWrreq src tag mga data s) s).mem := by
  rw [execWrreq, after_next]
  exact toTarget_canonical h (takeWriteReq_canonical h ..)

@[simp] theorem takePacket_canonical {s : State} (h : Canonical s.mem) (c : CoreId) (p : Nat × Packet) :
    Canonical (takePacket c p s).mem := by
  unfold takePacket
  split <;> simp [h]

@[simp] theorem loseRegs_mem (c : CoreId) : (loseRegs s c).mem = s.mem := by
  simp [loseRegs, foldl_mem]

@[simp] theorem execWakeComplete_canonical {s : State} (h : Canonical s.mem) (c : CoreId) :
    Canonical (after (execWakeComplete c s) s).mem := by
  rw [execWakeComplete, after_next]
  split
  · exact h
  · extract_lets u s1 x s2 s3 l
    have h1 : Canonical s1.mem := canonical_of_ite (by simp [h]) h
    clear_value s1
    have h3 : Canonical s3.mem := canonical_of_ite (by simpa [s2] using h1) (by simpa [s2] using h1)
    clear_value s3
    refine canonical_of_ite h ?_
    exact foldl_canonical (fun t p ht => takePacket_canonical ht ..) (by simpa using h3) _

end Sys2Proof.Machine
end

section
/-! SUPPORT. Memory after the operations of `Machine/Manage.lean`: management and its transports. -/

namespace Sys2Proof.Machine

variable (s : State)

@[simp] theorem execQuery_mem (slot : Fin 64) : (after (execQuery slot s) s).mem = s.mem := by
  rw [execQuery, after_next]
  exact startEntry_mem s fun t n r => by simp

@[simp] theorem refreshSensor_mem (n : Nat) : (refreshSensor s n).mem = s.mem := by
  unfold refreshSensor
  split <;> simp

@[simp] theorem execSensorRefresh_mem : (after (execSensorRefresh s) s).mem = s.mem := by
  simp [execSensorRefresh, foldl_mem]

@[simp] theorem mgmt_mem (tr : Fin 2) (r : MgmtReply) : (mgmt s tr r).mem = s.mem := by
  simp [mgmt]

@[simp] theorem served2_mem {tr : Fin 2} {k : State → State} (hk : (k s).mem = s.mem) : (served2 s tr k).mem = s.mem := by
  simp [served2, hk]

theorem served2_canonical {s : State} {tr : Fin 2} {k : State → State} (h : Canonical s.mem) (hk : Canonical (k s).mem) :
    Canonical (served2 s tr k).mem := by
  simp [served2, h, hk]

@[simp] theorem execSetEndpointId_mem (tr : Fin 2) (eid : BitVec 8) :
    (after (execSetEndpointId tr eid s) s).mem = s.mem := by
  simp [execSetEndpointId]

@[simp] theorem execGetEndpointId_mem (tr : Fin 2) : (after (execGetEndpointId tr s) s).mem = s.mem := by
  simp [execGetEndpointId]

@[simp] theorem execGetMctpVersionSupport_mem (tr : Fin 2) (ty : BitVec 8) :
    (after (execGetMctpVersionSupport tr ty s) s).mem = s.mem := by
  simp [execGetMctpVersionSupport]

@[simp] theorem execGetMessageTypeSupport_mem (tr : Fin 2) :
    (after (execGetMessageTypeSupport tr s) s).mem = s.mem := by
  simp [execGetMessageTypeSupport]

@[simp] theorem execGetVendorDefinedMessageSupport_mem (tr : Fin 2) (sel : Nat) :
    (after (execGetVendorDefinedMessageSupport tr sel s) s).mem = s.mem := by
  simp [execGetVendorDefinedMessageSupport]

@[simp] theorem execUnsupportedMctpMessage_mem (tr : Fin 2) (ty : BitVec 8) :
    (after (execUnsupportedMctpMessage tr ty s) s).mem = s.mem := by
  simp [execUnsupportedMctpMessage]

@[simp] theorem execGetReport_mem (tr : Fin 2) (n : Nat) : (after (execGetReport tr n s) s).mem = s.mem := by
  simp [execGetReport]

@[simp] theorem execWarmReset_canonical {s : State} (h : Canonical s.mem) (tr : Fin 2) (full : Bool) :
    Canonical (after (execWarmReset tr full s) s).mem := by
  rw [execWarmReset, after_next]
  exact served2_canonical h (by simp [h])

@[simp] theorem execReadFaultLog_mem (tr : Fin 2) (id n : Nat) :
    (after (execReadFaultLog tr id n s) s).mem = s.mem := by
  simp [execReadFaultLog]

@[simp] theorem execPldmMessage_mem (tr : Fin 2) (m : PldmReq) : (after (execPldmMessage tr m s) s).mem = s.mem := by
  unfold execPldmMessage
  split <;> simp

@[simp] theorem i3c_mem {k : State → State} (hk : (k s).mem = s.mem) : (i3c s k).mem = s.mem := by
  simp [i3c, hk]

@[simp] theorem execEntdaa_mem (addr : BitVec 7) : (after (execEntdaa addr s) s).mem = s.mem := by
  simp [execEntdaa]

@[simp] theorem execRstdaa_mem : (after (execRstdaa s) s).mem = s.mem := by
  simp [execRstdaa]

@[simp] theorem execGetpid_mem : (after (execGetpid s) s).mem = s.mem := by
  simp [execGetpid]

@[simp] theorem i3cOpen_mem (bytes : Nat) : (i3cOpen s bytes).mem = s.mem := by
  simp [i3cOpen]

@[simp] theorem execGetbcr_mem : (after (execGetbcr s) s).mem = s.mem := by
  simp [execGetbcr]

@[simp] theorem execGetdcr_mem : (after (execGetdcr s) s).mem = s.mem := by
  simp [execGetdcr]

@[simp] theorem execGetmrl_mem : (after (execGetmrl s) s).mem = s.mem := by
  simp [execGetmrl]

@[simp] theorem execGetmwl_mem : (after (execGetmwl s) s).mem = s.mem := by
  simp [execGetmwl]

@[simp] theorem execEnec_mem (ibi : Bool) : (after (execEnec ibi s) s).mem = s.mem := by
  simp [execEnec]

@[simp] theorem execDisec_mem (ibi : Bool) : (after (execDisec ibi s) s).mem = s.mem := by
  simp [execDisec]

@[simp] theorem execRstact_mem (action : BitVec 8) : (after (execRstact action s) s).mem = s.mem := by
  simp [execRstact]

@[simp] theorem spdm_mem (c : SpdmCtx) (r : SpdmReply) : (spdm s c r).mem = s.mem := by
  simp [spdm]

@[simp] theorem onSpdm_mem {c : SpdmCtx} {k : State → State} (hk : (k s).mem = s.mem) : (onSpdm s c k).mem = s.mem := by
  simp [onSpdm, hk]

theorem onSpdm_canonical {s : State} {c : SpdmCtx} {k : State → State} (h : Canonical s.mem) (hk : Canonical (k s).mem) :
    Canonical (onSpdm s c k).mem := by
  simp [onSpdm, h, hk]

@[simp] theorem setSess_mem (x : SpdmSess) : (setSess s x).mem = s.mem := by
  simp [setSess]

@[simp] theorem execGetVersion_mem (c : SpdmCtx) : (after (execGetVersion c s) s).mem = s.mem := by
  simp [execGetVersion]

@[simp] theorem execGetCapabilities_mem (c : SpdmCtx) : (after (execGetCapabilities c s) s).mem = s.mem := by
  simp [execGetCapabilities]

@[simp] theorem execNegotiateAlgorithms_mem (c : SpdmCtx) (offered : Bool) :
    (after (execNegotiateAlgorithms c offered s) s).mem = s.mem := by
  simp [execNegotiateAlgorithms]

@[simp] theorem execGetDigests_mem (c : SpdmCtx) : (after (execGetDigests c s) s).mem = s.mem := by
  simp [execGetDigests]

@[simp] theorem execGetCertificate_mem (c : SpdmCtx) (slot : Fin 8) :
    (after (execGetCertificate c slot s) s).mem = s.mem := by
  simp [execGetCertificate]

@[simp] theorem execChallenge_mem (c : SpdmCtx) (x0 : Nat) : (after (execChallenge c x0 s) s).mem = s.mem := by
  simp [execChallenge]

@[simp] theorem execGetMeasurements_mem (c : SpdmCtx) (x0 : Nat) :
    (after (execGetMeasurements c x0 s) s).mem = s.mem := by
  simp [execGetMeasurements]

@[simp] theorem execKeyExchange_mem (c : SpdmCtx) : (after (execKeyExchange c s) s).mem = s.mem := by
  simp [execKeyExchange]

@[simp] theorem execFinish_mem (c : SpdmCtx) (leaf : Option Nat) : (after (execFinish c leaf s) s).mem = s.mem := by
  rw [execFinish, after_next]
  refine onSpdm_mem s ?_
  split <;> simp

@[simp] theorem secured_mem {c : SpdmCtx} {k : State → SpdmSess → State} (hk : ∀ x, (k s x).mem = s.mem) :
    (secured s c k).mem = s.mem := by
  refine onSpdm_mem s ?_
  split <;> simp [hk]

@[simp] theorem execHeartbeat_mem (c : SpdmCtx) : (after (execHeartbeat c s) s).mem = s.mem := by
  simp [execHeartbeat]

@[simp] theorem execKeyUpdate_mem (c : SpdmCtx) : (after (execKeyUpdate c s) s).mem = s.mem := by
  simp [execKeyUpdate]

@[simp] theorem execEndSession_mem (c : SpdmCtx) : (after (execEndSession c s) s).mem = s.mem := by
  simp [execEndSession]

@[simp] theorem execUnsupportedSpdmRequest_mem (c : SpdmCtx) (code : BitVec 8) :
    (after (execUnsupportedSpdmRequest c code s) s).mem = s.mem := by
  simp [execUnsupportedSpdmRequest]

@[simp] theorem vendorRefused_mem (c : SpdmCtx) (code : Nat) : (vendorRefused s c code).mem = s.mem := by
  simp [vendorRefused]

@[simp] theorem vendor_mem {c : SpdmCtx} {code : Nat} {k : State → SpdmSess → State} (hk : ∀ x, (k s x).mem = s.mem) :
    (vendor s c code k).mem = s.mem := by
  refine onSpdm_mem s ?_
  split <;> simp [hk]

theorem vendor_canonical {s : State} {c : SpdmCtx} {code : Nat} {k : State → SpdmSess → State} (h : Canonical s.mem)
    (hk : ∀ x, Canonical (k s x).mem) : Canonical (vendor s c code k).mem := by
  refine onSpdm_canonical h ?_
  split <;> simp [h, hk]

@[simp] theorem followIde_mem : (followIde s).mem = s.mem := by
  simp [followIde]

@[simp] theorem execClaim_mem (c : SpdmCtx) (o : Owner) : (after (execClaim c o s) s).mem = s.mem := by
  simp [execClaim]

@[simp] theorem execRelease_canonical {s : State} (h : Canonical s.mem) (c : SpdmCtx) :
    Canonical (after (execRelease c s) s).mem := by
  rw [execRelease, after_next]
  exact vendor_canonical h fun x => canonical_of_ite (by simp [h]) (by simpa using h)

@[simp] theorem execSetKeys_mem (c : SpdmCtx) (k : KeyChange) : (after (execSetKeys c k s) s).mem = s.mem := by
  simp [execSetKeys]

@[simp] theorem execOwnerInfo_mem (c : SpdmCtx) : (after (execOwnerInfo c s) s).mem = s.mem := by
  simp [execOwnerInfo]

@[simp] theorem installLicence_mem (l : List Byte) : (installLicence s l).1.mem = s.mem := by
  unfold installLicence
  split
  · simp
  · split <;> simp

@[simp] theorem execInstallLicence_mem (c : SpdmCtx) (lic : List Byte) :
    (after (execInstallLicence c lic s) s).mem = s.mem := by
  simp [execInstallLicence]

@[simp] theorem execMctpInstallLicence_mem (tr : Fin 2) (lic : List Byte) :
    (after (execMctpInstallLicence tr lic s) s).mem = s.mem := by
  simp [execMctpInstallLicence]

@[simp] theorem writeFw_mem (n : Nat) (w : FwBlob) : (writeFw s n w).mem = s.mem := by
  simp [writeFw]

@[simp] theorem execFwStage_mem (c : SpdmCtx) (w : FwBlob) : (after (execFwStage c w s) s).mem = s.mem := by
  simp [execFwStage]

@[simp] theorem execFwCommit_mem (c : SpdmCtx) (svn : Fin 65) : (after (execFwCommit c svn s) s).mem = s.mem := by
  simp [execFwCommit]

@[simp] theorem execIdeKm_mem (c : SpdmCtx) : (after (execIdeKm c s) s).mem = s.mem := by
  simp [execIdeKm]

@[simp] theorem execDoeDiscovery_mem (index : Nat) : (after (execDoeDiscovery index s) s).mem = s.mem := by
  simp [execDoeDiscovery]

end Sys2Proof.Machine
end

section
/-! SUPPORT. Memory after the operations of `Machine/Jacks.lean`: the console's lines. -/

namespace Sys2Proof.Machine

variable (s : State)

@[simp] theorem console_mem (l : List Nat) : (console s l).mem = s.mem := by
  simp [console]

theorem peekWord_mem {m v : Nat} {e : Bool} {t : State} (h : peekWord s m = some (v, e, t)) : t.mem = s.mem := by
  unfold peekWord at h
  split at h
  · split at h
    · obtain ⟨r, hr, he⟩ := Option.map_eq_some_iff.1 h
      cases he
      exact csrRead_mem s hr
    · cases h
  · split at h
    · cases h
    · split at h <;> cases h <;> simp

theorem peekWords_mem {n m : Nat} {l : List Nat} {e : Bool} {t : State} (h : peekWords n m s = some (l, e, t)) :
    t.mem = s.mem := by
  induction n generalizing m s l e with
  | zero =>
    cases h
    rfl
  | succ n ih =>
    rw [peekWords] at h
    split at h
    · cases h
    · obtain ⟨r, hr, he⟩ := Option.map_eq_some_iff.1 h
      cases he
      rw [ih _ hr, peekWord_mem _ ‹_›]

@[simp] theorem runPeek_mem (m n : Nat) : (runPeek s m n).1.mem = s.mem := by
  unfold runPeek
  simp only
  split
  · rfl
  · split
    · rfl
    · split
      · rfl
      · split
        · simp [peekWords_mem s ‹_›]
        · simp

@[simp] theorem pokeWord_canonical {s : State} (h : Canonical s.mem) (m v : Nat) : Canonical (pokeWord s m v).1.mem := by
  unfold pokeWord
  extract_lets stage
  split
  · exact h
  · split
    · exact h
    · split
      · exact h
      · split
        · split
          · simpa using h
          · split
            · next heq => exact csrStore_canonical h heq
            · next heq => exact csrStore_canonical h heq
            · simpa using h
        · split
          · simpa using h
          · split <;> simp [h]

@[simp] theorem runPoke_canonical {s : State} (h : Canonical s.mem) (m v : Nat) : Canonical (runPoke s m v).1.mem := by
  unfold runPoke
  extract_lets r t x
  have hr : Canonical r.1.mem := by
    simp only [r]
    split <;> simp [h]
  clear_value r
  simpa [t] using hr

@[simp] theorem runLog_mem (first : Option Nat) (n : Nat) : (runLog s first n).1.mem = s.mem := by
  unfold runLog
  simp only
  split <;> rfl

@[simp] theorem runEye_mem (p : PortId) (counts : List Nat) (retrained : Bool) :
    (runEye s p counts retrained).1.mem = s.mem := by
  unfold runEye
  (repeat' split) <;> simp

@[simp] theorem runRecover_mem (w : FwBlob) : (runRecover s w).1.mem = s.mem := by
  unfold runRecover
  split <;> simp

@[simp] theorem runJk_canonical {s : State} (h : Canonical s.mem) (k : JkCmd) : Canonical (runJk s k).1.mem := by
  unfold runJk
  extract_lets fin
  have hf : ∀ p : State × JkStatus, (fin p).1 = p.1 := fun _ => rfl
  clear_value fin
  split
  · exact h
  · cases k <;> simp only <;> (repeat' split) <;> simp [h, hf]

@[simp] theorem runLine_canonical {s : State} (h : Canonical s.mem) (len : Nat) (k : JkCmd) :
    Canonical (runLine s len k).mem := by
  unfold runLine
  extract_lets r
  have hr : Canonical r.1.mem := by simp [r, h]
  clear_value r
  refine canonical_of_ite (by simpa using h) ?_
  split
  · simpa using hr
  · extract_lets t
    split <;> simp [t, hr]

@[simp] theorem jkLine_canonical {s : State} (h : Canonical s.mem) (len : Nat) (k : JkCmd) :
    Canonical (jkLine s len k).mem := by
  simp [jkLine, h]

@[simp] theorem endBusy_canonical {s : State} (h : Canonical s.mem) : Canonical (endBusy s).mem :=
  foldl_canonical (fun t p ht => by simp [ht]) (by simpa using h) _

@[simp] theorem execJkHelp_canonical {s : State} (h : Canonical s.mem) (len : Nat) :
    Canonical (after (execJkHelp len s) s).mem := by
  simp [execJkHelp, h]

@[simp] theorem execJkBaud_canonical {s : State} (h : Canonical s.mem) (len rate : Nat) :
    Canonical (after (execJkBaud len rate s) s).mem := by
  simp [execJkBaud, h]

@[simp] theorem execJkId_canonical {s : State} (h : Canonical s.mem) (len : Nat) :
    Canonical (after (execJkId len s) s).mem := by
  simp [execJkId, h]

@[simp] theorem execJkFaults_canonical {s : State} (h : Canonical s.mem) (len : Nat) :
    Canonical (after (execJkFaults len s) s).mem := by
  simp [execJkFaults, h]

@[simp] theorem execJkGather_canonical {s : State} (h : Canonical s.mem) (len : Nat) (d : Option DieId) :
    Canonical (after (execJkGather len d s) s).mem := by
  simp [execJkGather, h]

@[simp] theorem execJkPower_canonical {s : State} (h : Canonical s.mem) (len : Nat) :
    Canonical (after (execJkPower len s) s).mem := by
  simp [execJkPower, h]

@[simp] theorem execJkIsland_canonical {s : State} (h : Canonical s.mem) (len : Nat) (d : DieId) (n : Option (Fin 16)) :
    Canonical (after (execJkIsland len d n s) s).mem := by
  simp [execJkIsland, h]

@[simp] theorem execJkClk_canonical {s : State} (h : Canonical s.mem) (len : Nat) :
    Canonical (after (execJkClk len s) s).mem := by
  simp [execJkClk, h]

@[simp] theorem execJkLog_canonical {s : State} (h : Canonical s.mem) (len : Nat) (first : Option Nat) (n : Nat) :
    Canonical (after (execJkLog len first n s) s).mem := by
  simp [execJkLog, h]

@[simp] theorem execJkPeek_canonical {s : State} (h : Canonical s.mem) (len : Nat) (mga : Mga) (n : Nat) :
    Canonical (after (execJkPeek len mga n s) s).mem := by
  simp [execJkPeek, h]

@[simp] theorem execJkPoke_canonical {s : State} (h : Canonical s.mem) (len : Nat) (mga : Mga) (v : Word) :
    Canonical (after (execJkPoke len mga v s) s).mem := by
  simp [execJkPoke, h]

@[simp] theorem execJkEye_canonical {s : State} (h : Canonical s.mem) (len : Nat) (p : PortId) (lane : Nat)
    (counts : List Nat) (retrained : Bool) : Canonical (after (execJkEye len p lane counts retrained s) s).mem := by
  simp [execJkEye, h]

@[simp] theorem execJkScan_canonical {s : State} (h : Canonical s.mem) (len : Nat) (d : DieId) (row : Fin 8)
    (col : Fin 10) : Canonical (after (execJkScan len d row col s) s).mem := by
  simp [execJkScan, h]

@[simp] theorem execJkParison_canonical {s : State} (h : Canonical s.mem) (len : Nat) :
    Canonical (after (execJkParison len s) s).mem := by
  simp [execJkParison, h]

@[simp] theorem execJkParisonDump_canonical {s : State} (h : Canonical s.mem) (len sect : Nat) :
    Canonical (after (execJkParisonDump len sect s) s).mem := by
  simp [execJkParisonDump, h]

@[simp] theorem execJkWarm_canonical {s : State} (h : Canonical s.mem) (len : Nat) (full : Bool) :
    Canonical (after (execJkWarm len full s) s).mem := by
  simp [execJkWarm, h]

@[simp] theorem execJkRecover_canonical {s : State} (h : Canonical s.mem) (len : Nat) (w : FwBlob) :
    Canonical (after (execJkRecover len w s) s).mem := by
  simp [execJkRecover, h]

@[simp] theorem execJkCtrlC_canonical {s : State} (h : Canonical s.mem) : Canonical (after (execJkCtrlC s) s).mem := by
  simp [execJkCtrlC, h]

@[simp] theorem execScanComplete_canonical {s : State} (h : Canonical s.mem) (d : DieId) (pass : Bool)
    (pattern : BitVec 16) : Canonical (after (execScanComplete d pass pattern s) s).mem := by
  simp [execScanComplete, h]

end Sys2Proof.Machine
end

section
/-! SUPPORT. Memory after the operations of `Machine/Scalar.lean`: the scalar instructions and branches. -/

namespace Sys2Proof.Machine

variable (s : State)

@[simp] theorem aluRR_keeps {P : List Host.Cell → Prop} (f : Word → Word → Word) (c : CoreId) (w : IFields)
    (h : P s.mem) : (aluRR f c w s).Keeps P := by
  refine withSrc2_keeps h fun _ _ _ ht => ?_
  simp [ht]

@[simp] theorem aluRI_keeps {P : List Host.Cell → Prop} (f : Word → Word → Word) (c : CoreId) (w : IFields)
    (h : P s.mem) : (aluRI f c w s).Keeps P := by
  refine withSrc_keeps h fun _ _ ht => ?_
  simp [ht]

@[simp] theorem execAdd_mem (c : CoreId) (w : IFields) : (after (execAdd c w s) s).mem = s.mem := by
  simp [execAdd]

@[simp] theorem execSub_mem (c : CoreId) (w : IFields) : (after (execSub c w s) s).mem = s.mem := by
  simp [execSub]

@[simp] theorem execAnd_mem (c : CoreId) (w : IFields) : (after (execAnd c w s) s).mem = s.mem := by
  simp [execAnd]

@[simp] theorem execOr_mem (c : CoreId) (w : IFields) : (after (execOr c w s) s).mem = s.mem := by
  simp [execOr]

@[simp] theorem execXor_mem (c : CoreId) (w : IFields) : (after (execXor c w s) s).mem = s.mem := by
  simp [execXor]

@[simp] theorem execSll_mem (c : CoreId) (w : IFields) : (after (execSll c w s) s).mem = s.mem := by
  simp [execSll]

@[simp] theorem execSrl_mem (c : CoreId) (w : IFields) : (after (execSrl c w s) s).mem = s.mem := by
  simp [execSrl]

@[simp] theorem execSra_mem (c : CoreId) (w : IFields) : (after (execSra c w s) s).mem = s.mem := by
  simp [execSra]

@[simp] theorem execSlt_mem (c : CoreId) (w : IFields) : (after (execSlt c w s) s).mem = s.mem := by
  simp [execSlt]

@[simp] theorem execSltu_mem (c : CoreId) (w : IFields) : (after (execSltu c w s) s).mem = s.mem := by
  simp [execSltu]

@[simp] theorem execMul_mem (c : CoreId) (w : IFields) : (after (execMul c w s) s).mem = s.mem := by
  simp [execMul]

@[simp] theorem execMulh_mem (c : CoreId) (w : IFields) : (after (execMulh c w s) s).mem = s.mem := by
  simp [execMulh]

@[simp] theorem execMin_mem (c : CoreId) (w : IFields) : (after (execMin c w s) s).mem = s.mem := by
  simp [execMin]

@[simp] theorem execMax_mem (c : CoreId) (w : IFields) : (after (execMax c w s) s).mem = s.mem := by
  simp [execMax]

@[simp] theorem execEq_mem (c : CoreId) (w : IFields) : (after (execEq c w s) s).mem = s.mem := by
  simp [execEq]

@[simp] theorem execNe_mem (c : CoreId) (w : IFields) : (after (execNe c w s) s).mem = s.mem := by
  simp [execNe]

@[simp] theorem execAddi_mem (c : CoreId) (w : IFields) : (after (execAddi c w s) s).mem = s.mem := by
  simp [execAddi]

@[simp] theorem execSubi_mem (c : CoreId) (w : IFields) : (after (execSubi c w s) s).mem = s.mem := by
  simp [execSubi]

@[simp] theorem execAndi_mem (c : CoreId) (w : IFields) : (after (execAndi c w s) s).mem = s.mem := by
  simp [execAndi]

@[simp] theorem execOri_mem (c : CoreId) (w : IFields) : (after (execOri c w s) s).mem = s.mem := by
  simp [execOri]

@[simp] theorem execXori_mem (c : CoreId) (w : IFields) : (after (execXori c w s) s).mem = s.mem := by
  simp [execXori]

@[simp] theorem execSlli_mem (c : CoreId) (w : IFields) : (after (execSlli c w s) s).mem = s.mem := by
  simp [execSlli]

@[simp] theorem execSrli_mem (c : CoreId) (w : IFields) : (after (execSrli c w s) s).mem = s.mem := by
  simp [execSrli]

@[simp] theorem execSrai_mem (c : CoreId) (w : IFields) : (after (execSrai c w s) s).mem = s.mem := by
  simp [execSrai]

@[simp] theorem execSlti_mem (c : CoreId) (w : IFields) : (after (execSlti c w s) s).mem = s.mem := by
  simp [execSlti]

@[simp] theorem execSltui_mem (c : CoreId) (w : IFields) : (after (execSltui c w s) s).mem = s.mem := by
  simp [execSltui]

@[simp] theorem execMuli_mem (c : CoreId) (w : IFields) : (after (execMuli c w s) s).mem = s.mem := by
  simp [execMuli]

@[simp] theorem execMulhi_mem (c : CoreId) (w : IFields) : (after (execMulhi c w s) s).mem = s.mem := by
  simp [execMulhi]

@[simp] theorem execMini_mem (c : CoreId) (w : IFields) : (after (execMini c w s) s).mem = s.mem := by
  simp [execMini]

@[simp] theorem execMaxi_mem (c : CoreId) (w : IFields) : (after (execMaxi c w s) s).mem = s.mem := by
  simp [execMaxi]

@[simp] theorem execEqi_mem (c : CoreId) (w : IFields) : (after (execEqi c w s) s).mem = s.mem := by
  simp [execEqi]

@[simp] theorem execNei_mem (c : CoreId) (w : IFields) : (after (execNei c w s) s).mem = s.mem := by
  simp [execNei]

@[simp] theorem branch_keeps {P : List Host.Cell → Prop} (p : Word → Word → Bool) (c : CoreId) (w : IFields)
    (h : P s.mem) : (branch p c w s).Keeps P := by
  refine withSrc2_keeps h fun _ _ _ ht => ?_
  simp [ht]

@[simp] theorem execBeq_mem (c : CoreId) (w : IFields) : (after (execBeq c w s) s).mem = s.mem := by
  simp [execBeq]

@[simp] theorem execBne_mem (c : CoreId) (w : IFields) : (after (execBne c w s) s).mem = s.mem := by
  simp [execBne]

@[simp] theorem execBlt_mem (c : CoreId) (w : IFields) : (after (execBlt c w s) s).mem = s.mem := by
  simp [execBlt]

@[simp] theorem execBge_mem (c : CoreId) (w : IFields) : (after (execBge c w s) s).mem = s.mem := by
  simp [execBge]

@[simp] theorem execBltu_mem (c : CoreId) (w : IFields) : (after (execBltu c w s) s).mem = s.mem := by
  simp [execBltu]

@[simp] theorem execBgeu_mem (c : CoreId) (w : IFields) : (after (execBgeu c w s) s).mem = s.mem := by
  simp [execBgeu]

@[simp] theorem bodyJ_keeps {P : List Host.Cell → Prop} (c : CoreId) (w : IFields) (h : P s.mem) :
    (bodyJ c w s).Keeps P := by
  simp [bodyJ, h]

@[simp] theorem execJ_mem (c : CoreId) (w : IFields) : (after (execJ c w s) s).mem = s.mem := by
  simp [execJ]

@[simp] theorem bodyJal_keeps {P : List Host.Cell → Prop} (c : CoreId) (w : IFields) (h : P s.mem) :
    (bodyJal c w s).Keeps P := by
  simp [bodyJal, h]

@[simp] theorem execJal_mem (c : CoreId) (w : IFields) : (after (execJal c w s) s).mem = s.mem := by
  simp [execJal]

@[simp] theorem bodyJr_keeps {P : List Host.Cell → Prop} (c : CoreId) (w : IFields) (h : P s.mem) :
    (bodyJr c w s).Keeps P := by
  refine withSrc_keeps h fun _ _ ht => ?_
  simp [ht]

@[simp] theorem execJr_mem (c : CoreId) (w : IFields) : (after (execJr c w s) s).mem = s.mem := by
  simp [execJr]

@[simp] theorem bodyLoop_keeps {P : List Host.Cell → Prop} (c : CoreId) (w : IFields) (h : P s.mem) :
    (bodyLoop c w s).Keeps P := by
  unfold bodyLoop
  extract_lets n pc ls inside
  clear_value inside
  split
  · trivial
  · split
    · trivial
    · split
      · trivial
      · exact withSrc_keeps h fun x t ht => by simp [ht]

@[simp] theorem execLoop_mem (c : CoreId) (w : IFields) : (after (execLoop c w s) s).mem = s.mem := by
  simp [execLoop]

@[simp] theorem bodyAset_keeps {P : List Host.Cell → Prop} (c : CoreId) (w : IFields) (h : P s.mem) :
    (bodyAset c w s).Keeps P := by
  refine withSrc2_keeps h fun _ _ _ ht => ?_
  simp [ht]

@[simp] theorem execAset_mem (c : CoreId) (w : IFields) : (after (execAset c w s) s).mem = s.mem := by
  simp [execAset]

@[simp] theorem bodyAinc_keeps {P : List Host.Cell → Prop} (c : CoreId) (w : IFields) (h : P s.mem) :
    (bodyAinc c w s).Keeps P := by
  simp [bodyAinc, h]

@[simp] theorem execAinc_mem (c : CoreId) (w : IFields) : (after (execAinc c w s) s).mem = s.mem := by
  simp [execAinc]

@[simp] theorem bodyAadd_keeps {P : List Host.Cell → Prop} (c : CoreId) (w : IFields) (h : P s.mem) :
    (bodyAadd c w s).Keeps P := by
  refine withSrc_keeps h fun _ _ ht => ?_
  simp [ht]

@[simp] theorem execAadd_mem (c : CoreId) (w : IFields) : (after (execAadd c w s) s).mem = s.mem := by
  simp [execAadd]

@[simp] theorem bodyAget_keeps {P : List Host.Cell → Prop} (c : CoreId) (w : IFields) (h : P s.mem) :
    (bodyAget c w s).Keeps P := by
  unfold bodyAget
  split <;> simp [h]

@[simp] theorem execAget_mem (c : CoreId) (w : IFields) : (after (execAget c w s) s).mem = s.mem := by
  simp [execAget]

end Sys2Proof.Machine
end

section
/-! SUPPORT. Memory after the operations of `Machine/Tick.lean`: one HCLK. -/

namespace Sys2Proof.Machine

variable (s : State)

@[simp] theorem sbCount_mem (c : CoreId) : (sbCount s c).mem = s.mem := by
  unfold sbCount
  split <;> simp

@[simp] theorem aclkTick_mem (c : CoreId) : (aclkTick s c).mem = s.mem := by
  simp [aclkTick]

@[simp] theorem tickCore_mem (n : Nat) (c : CoreId) : (tickCore n s c).mem = s.mem := by
  simp [tickCore]

@[simp] theorem tickPort_mem (p : PortId) : (tickPort s p).mem = s.mem := by
  simp [tickPort]

@[simp] theorem tickDie_mem (n : Nat) (d : DieId) : (tickDie n s d).mem = s.mem := by
  simp [tickDie, foldl_mem]

@[simp] theorem tickHold_mem : (tickHold s).mem = s.mem := by
  unfold tickHold
  split <;> simp

@[simp] theorem tick_canonical {s : State} (h : Canonical s.mem) : Canonical (tick s).mem := by
  simp [tick, h, foldl_mem]

end Sys2Proof.Machine
end

section
/-! PROOFS. Every step keeps memory in canonical form. -/

namespace Sys2Proof.Machine

/-- Every command leaves canonical memory canonical: the command's own lemma says so. -/
theorem exec_canonical {s : State} (hs : Canonical s.mem) (i : Instr) : Canonical (after (exec i s) s).mem := by
  cases i with
  | registerWrite r at_ bytes v => exact execRegisterWrite_canonical hs r at_ bytes v
  | lowWordLatchRead r at_ => exact canonical_of_mem (execLowWordLatchRead_mem s r at_) hs
  | fenceReq r d row cols => exact canonical_of_mem (execFenceReq_mem s r d row cols) hs
  | fenceShift d row => exact canonical_of_mem (execFenceShift_mem s d row) hs
  | shiftComplete d row => exact execShiftComplete_canonical hs d row
  | slotIdChange slot => exact canonical_of_mem (execSlotIdChange_mem s slot) hs
  | refLost => exact canonical_of_mem (execRefLost_mem s) hs
  | relock => exact canonical_of_mem (execRelock_mem s) hs
  | holdExpired => exact canonical_of_mem (execHoldExpired_mem s) hs
  | crossSlip x => exact canonical_of_mem (execCrossSlip_mem s x) hs
  | aclkRequest r g code => exact canonical_of_mem (execAclkRequest_mem s r g code) hs
  | aclkRatioChange g => exact canonical_of_mem (execAclkRatioChange_mem s g) hs
  | marginSample d isl marginA marginN => exact canonical_of_mem (execMarginSample_mem s d isl marginA marginN) hs
  | crzLevelWrite r d isl warn crit => exact canonical_of_mem (execCrzLevelWrite_mem s r d isl warn crit) hs
  | clockLost d => exact canonical_of_mem (execClockLost_mem s d) hs
  | stop d seq crc => exact canonical_of_mem (execStop_mem s d seq crc) hs
  | mpass c w => exact canonical_of_mem (execMpass_mem s c w) hs
  | mwait c w => exact canonical_of_mem (execMwait_mem s c w) hs
  | tileLoadComplete c parity => exact canonical_of_mem (execTileLoadComplete_mem s c parity) hs
  | passSwap c => exact canonical_of_mem (execPassSwap_mem s c) hs
  | rowGroupEntry c parity => exact execRowGroupEntry_canonical hs c parity
  | passComplete c => exact canonical_of_mem (execPassComplete_mem s c) hs
  | cvt c w => exact canonical_of_mem (execCvt_mem s c w) hs
  | cvtx c w => exact canonical_of_mem (execCvtx_mem s c w) hs
  | cvts c w => exact canonical_of_mem (execCvts_mem s c w) hs
  | sclx c w => exact canonical_of_mem (execSclx_mem s c w) hs
  | shadowRecompute c => exact canonical_of_mem (execShadowRecompute_mem s c) hs
  | sealVerdict g => exact canonical_of_mem (execSealVerdict_mem s g) hs
  | rerunStart g => exact canonical_of_mem (execRerunStart_mem s g) hs
  | add c w => exact canonical_of_mem (execAdd_mem s c w) hs
  | sub c w => exact canonical_of_mem (execSub_mem s c w) hs
  | and c w => exact canonical_of_mem (execAnd_mem s c w) hs
  | or c w => exact canonical_of_mem (execOr_mem s c w) hs
  | xor c w => exact canonical_of_mem (execXor_mem s c w) hs
  | sll c w => exact canonical_of_mem (execSll_mem s c w) hs
  | srl c w => exact canonical_of_mem (execSrl_mem s c w) hs
  | sra c w => exact canonical_of_mem (execSra_mem s c w) hs
  | slt c w => exact canonical_of_mem (execSlt_mem s c w) hs
  | sltu c w => exact canonical_of_mem (execSltu_mem s c w) hs
  | mul c w => exact canonical_of_mem (execMul_mem s c w) hs
  | mulh c w => exact canonical_of_mem (execMulh_mem s c w) hs
  | min c w => exact canonical_of_mem (execMin_mem s c w) hs
  | max c w => exact canonical_of_mem (execMax_mem s c w) hs
  | eq c w => exact canonical_of_mem (execEq_mem s c w) hs
  | ne c w => exact canonical_of_mem (execNe_mem s c w) hs
  | addi c w => exact canonical_of_mem (execAddi_mem s c w) hs
  | subi c w => exact canonical_of_mem (execSubi_mem s c w) hs
  | andi c w => exact canonical_of_mem (execAndi_mem s c w) hs
  | ori c w => exact canonical_of_mem (execOri_mem s c w) hs
  | xori c w => exact canonical_of_mem (execXori_mem s c w) hs
  | slli c w => exact canonical_of_mem (execSlli_mem s c w) hs
  | srli c w => exact canonical_of_mem (execSrli_mem s c w) hs
  | srai c w => exact canonical_of_mem (execSrai_mem s c w) hs
  | slti c w => exact canonical_of_mem (execSlti_mem s c w) hs
  | sltui c w => exact canonical_of_mem (execSltui_mem s c w) hs
  | muli c w => exact canonical_of_mem (execMuli_mem s c w) hs
  | mulhi c w => exact canonical_of_mem (execMulhi_mem s c w) hs
  | mini c w => exact canonical_of_mem (execMini_mem s c w) hs
  | maxi c w => exact canonical_of_mem (execMaxi_mem s c w) hs
  | eqi c w => exact canonical_of_mem (execEqi_mem s c w) hs
  | nei c w => exact canonical_of_mem (execNei_mem s c w) hs
  | beq c w => exact canonical_of_mem (execBeq_mem s c w) hs
  | bne c w => exact canonical_of_mem (execBne_mem s c w) hs
  | blt c w => exact canonical_of_mem (execBlt_mem s c w) hs
  | bge c w => exact canonical_of_mem (execBge_mem s c w) hs
  | bltu c w => exact canonical_of_mem (execBltu_mem s c w) hs
  | bgeu c w => exact canonical_of_mem (execBgeu_mem s c w) hs
  | j c w => exact canonical_of_mem (execJ_mem s c w) hs
  | jal c w => exact canonical_of_mem (execJal_mem s c w) hs
  | jr c w => exact canonical_of_mem (execJr_mem s c w) hs
  | loop c w => exact canonical_of_mem (execLoop_mem s c w) hs
  | aset c w => exact canonical_of_mem (execAset_mem s c w) hs
  | ainc c w => exact canonical_of_mem (execAinc_mem s c w) hs
  | aadd c w => exact canonical_of_mem (execAadd_mem s c w) hs
  | aget c w => exact canonical_of_mem (execAget_mem s c w) hs
  | lw c w => exact canonical_of_mem (execLw_mem s c w) hs
  | sw c w => exact execSw_canonical hs c w
  | la c w => exact canonical_of_mem (execLa_mem s c w) hs
  | sa c w => exact execSa_canonical hs c w
  | vld c w => exact canonical_of_mem (execVld_mem s c w) hs
  | vst c w => exact execVst_canonical hs c w
  | rlw c w => exact canonical_of_mem (execRlw_mem s c w) hs
  | rsw c w => exact canonical_of_mem (execRsw_mem s c w) hs
  | vadd c w => exact canonical_of_mem (execVadd_mem s c w) hs
  | vsub c w => exact canonical_of_mem (execVsub_mem s c w) hs
  | vmul c w => exact canonical_of_mem (execVmul_mem s c w) hs
  | vfma c w => exact canonical_of_mem (execVfma_mem s c w) hs
  | vmin c w => exact canonical_of_mem (execVmin_mem s c w) hs
  | vmax c w => exact canonical_of_mem (execVmax_mem s c w) hs
  | vabs c w => exact canonical_of_mem (execVabs_mem s c w) hs
  | vneg c w => exact canonical_of_mem (execVneg_mem s c w) hs
  | vcmp c w => exact canonical_of_mem (execVcmp_mem s c w) hs
  | vsel c w => exact canonical_of_mem (execVsel_mem s c w) hs
  | vmov c w => exact canonical_of_mem (execVmov_mem s c w) hs
  | vbcast c w => exact canonical_of_mem (execVbcast_mem s c w) hs
  | vand c w => exact canonical_of_mem (execVand_mem s c w) hs
  | vor c w => exact canonical_of_mem (execVor_mem s c w) hs
  | vxor c w => exact canonical_of_mem (execVxor_mem s c w) hs
  | vshl c w => exact canonical_of_mem (execVshl_mem s c w) hs
  | vrsum c w => exact canonical_of_mem (execVrsum_mem s c w) hs
  | vrmax c w => exact canonical_of_mem (execVrmax_mem s c w) hs
  | vrmin c w => exact canonical_of_mem (execVrmin_mem s c w) hs
  | vramax c w => exact canonical_of_mem (execVramax_mem s c w) hs
  | vperm c w => exact canonical_of_mem (execVperm_mem s c w) hs
  | vslide c w => exact canonical_of_mem (execVslide_mem s c w) hs
  | vext c w => exact canonical_of_mem (execVext_mem s c w) hs
  | vins c w => exact canonical_of_mem (execVins_mem s c w) hs
  | vexp2 c w => exact canonical_of_mem (execVexp2_mem s c w) hs
  | vexp c w => exact canonical_of_mem (execVexp_mem s c w) hs
  | vlog2 c w => exact canonical_of_mem (execVlog2_mem s c w) hs
  | vln c w => exact canonical_of_mem (execVln_mem s c w) hs
  | vrcp c w => exact canonical_of_mem (execVrcp_mem s c w) hs
  | vrsqrt c w => exact canonical_of_mem (execVrsqrt_mem s c w) hs
  | vsqrt c w => exact canonical_of_mem (execVsqrt_mem s c w) hs
  | vtanh c w => exact canonical_of_mem (execVtanh_mem s c w) hs
  | vsigm c w => exact canonical_of_mem (execVsigm_mem s c w) hs
  | verf c w => exact canonical_of_mem (execVerf_mem s c w) hs
  | vsin c w => exact canonical_of_mem (execVsin_mem s c w) hs
  | vcos c w => exact canonical_of_mem (execVcos_mem s c w) hs
  | strig c w => exact canonical_of_mem (execStrig_mem s c w) hs
  | swait c w => exact canonical_of_mem (execSwait_mem s c w) hs
  | sstat c w => exact canonical_of_mem (execSstat_mem s c w) hs
  | qsend c w => exact canonical_of_mem (execQsend_mem s c w) hs
  | qsendn c w => exact canonical_of_mem (execQsendn_mem s c w) hs
  | qsendr c w => exact canonical_of_mem (execQsendr_mem s c w) hs
  | qsendrn c w => exact canonical_of_mem (execQsendrn_mem s c w) hs
  | qbind c w => exact canonical_of_mem (execQbind_mem s c w) hs
  | qunbind c w => exact canonical_of_mem (execQunbind_mem s c w) hs
  | qpop c w => exact canonical_of_mem (execQpop_mem s c w) hs
  | qcount c w => exact canonical_of_mem (execQcount_mem s c w) hs
  | qcreate c w => exact canonical_of_mem (execQcreate_mem s c w) hs
  | qdestroy c w => exact canonical_of_mem (execQdestroy_mem s c w) hs
  | bar c w => exact canonical_of_mem (execBar_mem s c w) hs
  | bara c w => exact canonical_of_mem (execBara_mem s c w) hs
  | barw c w => exact canonical_of_mem (execBarw_mem s c w) hs
  | phstart c w => exact canonical_of_mem (execPhstart_mem s c w) hs
  | phend c w => exact canonical_of_mem (execPhend_mem s c w) hs
  | csrr c w => exact canonical_of_mem (execCsrr_mem s c w) hs
  | csrw c w => exact execCsrw_canonical hs c w
  | nop c w => exact canonical_of_mem (execNop_mem s c w) hs
  | fence c w => exact canonical_of_mem (execFence_mem s c w) hs
  | trap c w => exact canonical_of_mem (execTrap_mem s c w) hs
  | halt c w => exact canonical_of_mem (execHalt_mem s c w) hs
  | resume r c => exact canonical_of_mem (execResume_mem s r c) hs
  | skip r c => exact canonical_of_mem (execSkip_mem s r c) hs
  | goto r c newpc => exact canonical_of_mem (execGoto_mem s r c newpc) hs
  | trapctlStop r c => exact canonical_of_mem (execTrapctlStop_mem s r c) hs
  | csSregWrite r c n v => exact canonical_of_mem (execCsSregWrite_mem s r c n v) hs
  | csAregWrite r c n high v => exact canonical_of_mem (execCsAregWrite_mem s r c n high v) hs
  | bankGrant c bank a => exact canonical_of_mem (execBankGrant_mem s c bank a) hs
  | bankBackoffExpiry c bank q => exact canonical_of_mem (execBankBackoffExpiry_mem s c bank q) hs
  | eccWriteback c word => exact canonical_of_mem (execEccWriteback_mem s c word) hs
  | rowMapOut c row => exact canonical_of_mem (execRowMapOut_mem s c row) hs
  | mapOutComplete c => exact canonical_of_mem (execMapOutComplete_mem s c) hs
  | patrolScrub c bank e => exact canonical_of_mem (execPatrolScrub_mem s c bank e) hs
  | zero r c => exact canonical_of_mem (execZero_mem s r c) hs
  | zeroComplete c => exact execZeroComplete_canonical hs c
  | rcinv r c => exact canonical_of_mem (execRcinv_mem s r c) hs
  | rcinvComplete c => exact canonical_of_mem (execRcinvComplete_mem s c) hs
  | token d seq crc => exact canonical_of_mem (execToken_mem s d seq crc) hs
  | flitForward c port slot ecc => exact execFlitForward_canonical hs c port slot ecc
  | flitExpire c port => exact canonical_of_mem (execFlitExpire_mem s c port) hs
  | streamRunStart d ix => exact canonical_of_mem (execStreamRunStart_mem s d ix) hs
  | streamRunComplete d ix => exact canonical_of_mem (execStreamRunComplete_mem s d ix) hs
  | scredit n ix count => exact canonical_of_mem (execScredit_mem s n ix count) hs
  | streamStall d ix => exact canonical_of_mem (execStreamStall_mem s d ix) hs
  | streamStop r d ix => exact canonical_of_mem (execStreamStop_mem s r d ix) hs
  | swap r d => exact canonical_of_mem (execSwap_mem s r d) hs
  | fallbackSwap d => exact canonical_of_mem (execFallbackSwap_mem s d) hs
  | verdict dest v => exact canonical_of_mem (execVerdict_mem s dest v) hs
  | trapPacket c code dest own => exact canonical_of_mem (execTrapPacket_mem s c code dest own) hs
  | error col e => exact execError_canonical hs col e
  | intr dest cause => exact canonical_of_mem (execIntr_mem s dest cause) hs
  | ctrl dest cmd => exact canonical_of_mem (execCtrl_mem s dest cmd) hs
  | qmsg c m => exact execQmsg_canonical hs c m
  | flush c handle => exact canonical_of_mem (execFlush_mem s c handle) hs
  | qcredit n handle entries lines => exact canonical_of_mem (execQcredit_mem s n handle entries lines) hs
  | qcreditTimer c q => exact canonical_of_mem (execQcreditTimer_mem s c q) hs
  | rdreq src tag mga fill => exact canonical_of_mem (execRdreq_mem s src tag mga fill) hs
  | rdrsp c tag fault data => exact execRdrsp_canonical hs c tag fault data
  | wrreq src tag mga data => exact execWrreq_canonical hs src tag mga data
  | wrrsp c tag ok => exact canonical_of_mem (execWrrsp_mem s c tag ok) hs
  | parison src pkt => exact canonical_of_mem (execParison_mem s src pkt) hs
  | handleCreate n handle ring depth lines => exact canonical_of_mem (execHandleCreate_mem s n handle ring depth lines) hs
  | handleDestroy n handle => exact canonical_of_mem (execHandleDestroy_mem s n handle) hs
  | handlePurge d => exact canonical_of_mem (execHandlePurge_mem s d) hs
  | handleAck c handle fail => exact canonical_of_mem (execHandleAck_mem s c handle fail) hs
  | cnTimeout c tag => exact canonical_of_mem (execCnTimeout_mem s c tag) hs
  | barrierRelease d g => exact canonical_of_mem (execBarrierRelease_mem s d g) hs
  | barrierStall d g => exact canonical_of_mem (execBarrierStall_mem s d g) hs
  | syncParity d bundle at_ => exact canonical_of_mem (execSyncParity_mem s d bundle at_) hs
  | sync m seq crc => exact canonical_of_mem (execSync_mem s m seq crc) hs
  | ringRelease c q count => exact canonical_of_mem (execRingRelease_mem s c q count) hs
  | cqCmdDestroy r c q => exact canonical_of_mem (execCqCmdDestroy_mem s r c q) hs
  | blockedSend c => exact canonical_of_mem (execBlockedSend_mem s c) hs
  | deadlockResolve col a b => exact canonical_of_mem (execDeadlockResolve_mem s col a b) hs
  | load r => exact canonical_of_mem (execLoad_mem s r) hs
  | abort r => exact canonical_of_mem (execAbort_mem s r) hs
  | parisonCheckComplete => exact canonical_of_mem (execParisonCheckComplete_mem s) hs
  | parisonApply => exact execParisonApply_canonical hs
  | segmentApply => exact canonical_of_mem (execSegmentApply_mem s) hs
  | quiesceTo => exact canonical_of_mem (execQuiesceTo_mem s) hs
  | parisonSectionAck d sect => exact canonical_of_mem (execParisonSectionAck_mem s d sect) hs
  | stepBoundary => exact canonical_of_mem (execStepBoundary_mem s) hs
  | linkGroupReceive p errs grp => exact execLinkGroupReceive_canonical hs p errs grp
  | ackTimeout p => exact canonical_of_mem (execAckTimeout_mem s p) hs
  | sbHold d p ix seq crc => exact canonical_of_mem (execSbHold_mem s d p ix seq crc) hs
  | sbRelease d p ix seq crc => exact canonical_of_mem (execSbRelease_mem s d p ix seq crc) hs
  | steer p lane spare at_ => exact canonical_of_mem (execSteer_mem s p lane spare at_) hs
  | width p width at_ => exact canonical_of_mem (execWidth_mem s p width at_) hs
  | steerAck p lane spare at_ => exact canonical_of_mem (execSteerAck_mem s p lane spare at_) hs
  | widthAck p width at_ => exact canonical_of_mem (execWidthAck_mem s p width at_) hs
  | retrain r p => exact canonical_of_mem (execRetrain_mem s r p) hs
  | linkTrainingComplete p ok near far latency => exact execLinkTrainingComplete_canonical hs p ok near far latency
  | sbScredit d p ix count seq crc => exact canonical_of_mem (execSbScredit_mem s d p ix count seq crc) hs
  | mark d m seq crc => exact canonical_of_mem (execMark_mem s d m seq crc) hs
  | sbread d off seq crc => exact canonical_of_mem (execSbread_mem s d off seq crc) hs
  | sbnak p m => exact canonical_of_mem (execSbnak_mem s p m) hs
  | clklost d seq crc => exact execClklost_canonical hs d seq crc
  | ident p m => exact canonical_of_mem (execIdent_mem s p m) hs
  | laneMarker p lane mark => exact canonical_of_mem (execLaneMarker_mem s p lane mark) hs
  | cblChange p present => exact execCblChange_canonical hs p present
  | refresh k pc => exact canonical_of_mem (execRefresh_mem s k pc) hs
  | stackGrant k pc o => exact execStackGrant_canonical hs k pc o
  | stackBackoffExpiry k pc q => exact canonical_of_mem (execStackBackoffExpiry_mem s k pc q) hs
  | selfRefreshEntry k => exact execSelfRefreshEntry_canonical hs k
  | selfRefreshExit k => exact canonical_of_mem (execSelfRefreshExit_mem s k) hs
  | pass1Complete k l => exact execPass1Complete_canonical hs k l
  | pass2Complete k l => exact execPass2Complete_canonical hs k l
  | updateTimeout k l => exact canonical_of_mem (execUpdateTimeout_mem s k l) hs
  | layerLost k l => exact execLayerLost_canonical hs k l
  | stackZero r k => exact execStackZero_canonical hs r k
  | stackZeroComplete k => exact execStackZeroComplete_canonical hs k
  | copy r k l => exact canonical_of_mem (execCopy_mem s r k l) hs
  | layerCopyComplete k l => exact execLayerCopyComplete_canonical hs k l
  | stackScrub k => exact canonical_of_mem (execStackScrub_mem s k) hs
  | puntyWatchdog p => exact canonical_of_mem (execPuntyWatchdog_mem s p) hs
  | functionLevelReset => exact canonical_of_mem (execFunctionLevelReset_mem s) hs
  | hotReset => exact canonical_of_mem (execHotReset_mem s) hs
  | linkDown => exact canonical_of_mem (execLinkDown_mem s) hs
  | d3hotEntry => exact canonical_of_mem (execD3hotEntry_mem s) hs
  | d0Return => exact canonical_of_mem (execD0Return_mem s) hs
  | hostCompletion id c => exact execHostCompletion_canonical hs id c
  | completionTimeout id => exact canonical_of_mem (execCompletionTimeout_mem s id) hs
  | bar2Read o n => exact canonical_of_mem (execBar2Read_mem s o n) hs
  | bar2Write o data => exact execBar2Write_canonical hs o data
  | ideSecureLoss => exact canonical_of_mem (execIdeSecureLoss_mem s) hs
  | sqTailDoorbell slot t => exact canonical_of_mem (execSqTailDoorbell_mem s slot t) hs
  | cqHeadDoorbell slot h => exact canonical_of_mem (execCqHeadDoorbell_mem s slot h) hs
  | slotEnable r slot => exact canonical_of_mem (execSlotEnable_mem s r slot) hs
  | slotDisable r slot => exact canonical_of_mem (execSlotDisable_mem s r slot) hs
  | entryFetch slot data => exact canonical_of_mem (execEntryFetch_mem s slot data) hs
  | sqNop slot => exact canonical_of_mem (execSqNop_mem s slot) hs
  | copyIn slot => exact canonical_of_mem (execCopyIn_mem s slot) hs
  | zfill slot => exact execZfill_canonical hs slot
  | copyOut slot => exact canonical_of_mem (execCopyOut_mem s slot) hs
  | send slot => exact canonical_of_mem (execSend_mem s slot) hs
  | sendr slot => exact canonical_of_mem (execSendr_mem s slot) hs
  | awaitRun slot => exact canonical_of_mem (execAwaitRun_mem s slot) hs
  | stepWait slot => exact canonical_of_mem (execStepWait_mem s slot) hs
  | stepGo slot => exact canonical_of_mem (execStepGo_mem s slot) hs
  | query slot => exact canonical_of_mem (execQuery_mem s slot) hs
  | hostCopyComplete slot => exact canonical_of_mem (execHostCopyComplete_mem s slot) hs
  | sendtoExpiry slot tag => exact canonical_of_mem (execSendtoExpiry_mem s slot tag) hs
  | irqModerationTimeout slot => exact canonical_of_mem (execIrqModerationTimeout_mem s slot) hs
  | stepHoldWrite r v => exact canonical_of_mem (execStepHoldWrite_mem s r v) hs
  | stepctlGo r => exact canonical_of_mem (execStepctlGo_mem s r) hs
  | mailboxCommit r m tag => exact canonical_of_mem (execMailboxCommit_mem s r m tag) hs
  | mailboxRelease r m => exact canonical_of_mem (execMailboxRelease_mem s r m) hs
  | mailboxStatusRead m => exact canonical_of_mem (execMailboxStatusRead_mem s m) hs
  | powerEstimate d p => exact canonical_of_mem (execPowerEstimate_mem s d p) hs
  | kcalCalibrate d mw => exact canonical_of_mem (execKcalCalibrate_mem s d mw) hs
  | crzoffDecay d => exact canonical_of_mem (execCrzoffDecay_mem s d) hs
  | senseInvalid d f => exact canonical_of_mem (execSenseInvalid_mem s d f) hs
  | islandShort d isl => exact execIslandShort_canonical hs d isl
  | vddlTrip d => exact execVddlTrip_canonical hs d
  | boostExpiry g => exact canonical_of_mem (execBoostExpiry_mem s g) hs
  | staging d isl => exact canonical_of_mem (execStaging_mem s d isl) hs
  | stagedSwitchClose d isl => exact canonical_of_mem (execStagedSwitchClose_mem s d isl) hs
  | wakeComplete c => exact execWakeComplete_canonical hs c
  | inputSample mv ma => exact canonical_of_mem (execInputSample_mem s mv ma) hs
  | capShareUpdate => exact canonical_of_mem (execCapShareUpdate_mem s) hs
  | capStep d => exact canonical_of_mem (execCapStep_mem s d) hs
  | thermalTrip d => exact execThermalTrip_canonical hs d
  | hubThermalTrip => exact execHubThermalTrip_canonical hs
  | stackThermalTrip k => exact execStackThermalTrip_canonical hs k
  | faultEvent e => exact execFaultEvent_canonical hs e
  | dieResetComplete d ok => exact execDieResetComplete_canonical hs d ok
  | scanStart r d => exact canonical_of_mem (execScanStart_mem s r d) hs
  | scanComplete d pass pattern => exact execScanComplete_canonical hs d pass pattern
  | rotation d => exact canonical_of_mem (execRotation_mem s d) hs
  | forcedRecall r g => exact canonical_of_mem (execForcedRecall_mem s r g) hs
  | gatherHold r g => exact canonical_of_mem (execGatherHold_mem s r g) hs
  | gatherRelease r g => exact canonical_of_mem (execGatherRelease_mem s r g) hs
  | refetch r d ix => exact canonical_of_mem (execRefetch_mem s r d ix) hs
  | stopTimeout c noRefetch => exact canonical_of_mem (execStopTimeout_mem s c noRefetch) hs
  | pldmEventRetry tr e => exact canonical_of_mem (execPldmEventRetry_mem s tr e) hs
  | pwrEnAssert mv lowMs => exact canonical_of_mem (execPwrEnAssert_mem s mv lowMs) hs
  | coldStart => exact execColdStart_canonical hs
  | coldStartStageEnd r => exact execColdStartStageEnd_canonical hs r
  | selftestTimeout c => exact canonical_of_mem (execSelftestTimeout_mem s c) hs
  | configRetryEnd => exact canonical_of_mem (execConfigRetryEnd_mem s) hs
  | warm r full => exact execWarm_canonical hs r full
  | dieRst r d full => exact execDieRst_canonical hs r d full
  | getVersion c => exact canonical_of_mem (execGetVersion_mem s c) hs
  | getCapabilities c => exact canonical_of_mem (execGetCapabilities_mem s c) hs
  | negotiateAlgorithms c offered => exact canonical_of_mem (execNegotiateAlgorithms_mem s c offered) hs
  | getDigests c => exact canonical_of_mem (execGetDigests_mem s c) hs
  | getCertificate c slot => exact canonical_of_mem (execGetCertificate_mem s c slot) hs
  | challenge c nonce => exact canonical_of_mem (execChallenge_mem s c nonce) hs
  | getMeasurements c nonce => exact canonical_of_mem (execGetMeasurements_mem s c nonce) hs
  | keyExchange c => exact canonical_of_mem (execKeyExchange_mem s c) hs
  | finish c leaf => exact canonical_of_mem (execFinish_mem s c leaf) hs
  | heartbeat c => exact canonical_of_mem (execHeartbeat_mem s c) hs
  | keyUpdate c => exact canonical_of_mem (execKeyUpdate_mem s c) hs
  | endSession c => exact canonical_of_mem (execEndSession_mem s c) hs
  | claim c o => exact canonical_of_mem (execClaim_mem s c o) hs
  | release c => exact execRelease_canonical hs c
  | setKeys c k => exact canonical_of_mem (execSetKeys_mem s c k) hs
  | installLicence c lic => exact canonical_of_mem (execInstallLicence_mem s c lic) hs
  | fwStage c w => exact canonical_of_mem (execFwStage_mem s c w) hs
  | fwCommit c svn => exact canonical_of_mem (execFwCommit_mem s c svn) hs
  | ownerInfo c => exact canonical_of_mem (execOwnerInfo_mem s c) hs
  | setEndpointId tr eid => exact canonical_of_mem (execSetEndpointId_mem s tr eid) hs
  | getEndpointId tr => exact canonical_of_mem (execGetEndpointId_mem s tr) hs
  | getMctpVersionSupport tr ty => exact canonical_of_mem (execGetMctpVersionSupport_mem s tr ty) hs
  | getMessageTypeSupport tr => exact canonical_of_mem (execGetMessageTypeSupport_mem s tr) hs
  | getVendorDefinedMessageSupport tr sel => exact canonical_of_mem (execGetVendorDefinedMessageSupport_mem s tr sel) hs
  | unsupportedMctpMessage tr ty => exact canonical_of_mem (execUnsupportedMctpMessage_mem s tr ty) hs
  | pldmMessage tr m => exact canonical_of_mem (execPldmMessage_mem s tr m) hs
  | getReport tr n => exact canonical_of_mem (execGetReport_mem s tr n) hs
  | warmReset tr full => exact execWarmReset_canonical hs tr full
  | mctpInstallLicence tr lic => exact canonical_of_mem (execMctpInstallLicence_mem s tr lic) hs
  | readFaultLog tr id n => exact canonical_of_mem (execReadFaultLog_mem s tr id n) hs
  | entdaa addr => exact canonical_of_mem (execEntdaa_mem s addr) hs
  | rstdaa => exact canonical_of_mem (execRstdaa_mem s) hs
  | getpid => exact canonical_of_mem (execGetpid_mem s) hs
  | getbcr => exact canonical_of_mem (execGetbcr_mem s) hs
  | getdcr => exact canonical_of_mem (execGetdcr_mem s) hs
  | getmrl => exact canonical_of_mem (execGetmrl_mem s) hs
  | getmwl => exact canonical_of_mem (execGetmwl_mem s) hs
  | enec ibi => exact canonical_of_mem (execEnec_mem s ibi) hs
  | disec ibi => exact canonical_of_mem (execDisec_mem s ibi) hs
  | rstact action => exact canonical_of_mem (execRstact_mem s action) hs
  | sensorRefresh => exact canonical_of_mem (execSensorRefresh_mem s) hs
  | jkHelp len => exact execJkHelp_canonical hs len
  | jkBaud len rate => exact execJkBaud_canonical hs len rate
  | jkId len => exact execJkId_canonical hs len
  | jkFaults len => exact execJkFaults_canonical hs len
  | jkGather len d => exact execJkGather_canonical hs len d
  | jkPower len => exact execJkPower_canonical hs len
  | jkIsland len d n => exact execJkIsland_canonical hs len d n
  | jkClk len => exact execJkClk_canonical hs len
  | jkLog len first n => exact execJkLog_canonical hs len first n
  | jkPeek len mga n => exact execJkPeek_canonical hs len mga n
  | jkPoke len mga v => exact execJkPoke_canonical hs len mga v
  | jkEye len p lane counts retrained => exact execJkEye_canonical hs len p lane counts retrained
  | jkScan len d row col => exact execJkScan_canonical hs len d row col
  | jkParison len => exact execJkParison_canonical hs len
  | jkParisonDump len sect => exact execJkParisonDump_canonical hs len sect
  | jkWarm len full => exact execJkWarm_canonical hs len full
  | jkCtrlC => exact execJkCtrlC_canonical hs
  | jkRecover len w => exact execJkRecover_canonical hs len w
  | bypass => exact canonical_of_mem (execBypass_mem s) hs
  | idcode => exact canonical_of_mem (execIdcode_mem s) hs
  | samplePreload => exact canonical_of_mem (execSamplePreload_mem s) hs
  | extest => exact canonical_of_mem (execExtest_mem s) hs
  | clamp => exact canonical_of_mem (execClamp_mem s) hs
  | highz => exact canonical_of_mem (execHighz_mem s) hs
  | extestPulse => exact canonical_of_mem (execExtestPulse_mem s) hs
  | extestTrain => exact canonical_of_mem (execExtestTrain_mem s) hs
  | inputUndervoltage => exact canonical_of_mem (execInputUndervoltage_mem s) hs
  | inputOvervoltage mv => exact execInputOvervoltage_canonical hs mv
  | inputOvercurrent => exact execInputOvercurrent_canonical hs
  | inputFail => exact execInputFail_canonical hs
  | pwrEnDeassert => exact execPwrEnDeassert_canonical hs
  | perstAssert => exact canonical_of_mem (execPerstAssert_mem s) hs
  | perstDeassert => exact canonical_of_mem (execPerstDeassert_mem s) hs
  | mrefTimeout => exact canonical_of_mem (execMrefTimeout_mem s) hs
  | strapInputChange btest level => exact canonical_of_mem (execStrapInputChange_mem s btest level) hs
  | leak => exact canonical_of_mem (execLeak_mem s) hs
  | ideKm c => exact canonical_of_mem (execIdeKm_mem s c) hs
  | pcieLinkUp => exact canonical_of_mem (execPcieLinkUp_mem s) hs
  | doeDiscovery index => exact canonical_of_mem (execDoeDiscovery_mem s index) hs
  | unsupportedSpdmRequest c code => exact canonical_of_mem (execUnsupportedSpdmRequest_mem s c code) hs
  | illegal c => exact canonical_of_mem (execIllegal_mem s c) hs
  | imemUe c => exact canonical_of_mem (execImemUe_mem s c) hs
  | portClockLoss d p => exact execPortClockLoss_canonical hs d p
  | sensePairValid d f => exact canonical_of_mem (execSensePairValid_mem s d f) hs
  | inputReturn => exact canonical_of_mem (execInputReturn_mem s) hs

theorem step_canonical {s t : State} (h : Canonical s.mem) (ht : step s = .next t) : Canonical t.mem := by
  unfold step at ht
  split at ht
  · cases ht
    exact tick_canonical h
  · next i rest _ =>
    have hi := exec_canonical (s := { s with pending := rest }) h i
    rwa [ht] at hi

/-- Settles O5, by the lemma of each command and of the tick. -/
theorem memoryCanonicalKept : Obligations.MemoryCanonicalKept :=
  fun _ _ h ht => step_canonical h ht

end Sys2Proof.Machine
end

section
/-! SUPPORT. Packets at an awake core and requests at its scratchpad (R47, R199, R318). -/

namespace Sys2Proof.Machine

variable {c : CoreId} {s : State}

theorem exec_rdreq (src : NodeId) (tag : BitVec 12) (m : Mga) (fill : Bool) :
    exec (.rdreq src tag m fill) s = execRdreq src tag m fill s :=
  rfl

theorem exec_wrreq (src : NodeId) (tag : BitVec 12) (m : Mga) (data : List Byte) :
    exec (.wrreq src tag m data) s = execWrreq src tag m data s :=
  rfl

theorem exec_rdrsp (tag : BitVec 12) (fault : Bool) (data : List Byte) :
    exec (.rdrsp c tag fault data) s = execRdrsp c tag fault data s :=
  rfl

theorem toCore_of_takes (h : Takes c s) (src : NodeId) (p : Packet) (k : State → State) : toCore s c src p k = k s := by
  obtain ⟨hclk, hawake⟩ := h
  simp [toCore, hclk, hawake]

theorem toTarget_of_takes {m : Nat} (hm : mgaCore m = c) (h : Takes c s) (src : NodeId) (p : Packet) (k : State → State) :
    toTarget s src m p k = k s := by
  unfold toTarget
  split
  · rw [hm, toCore_of_takes h]
  · rfl

theorem takeRead_served {m : Nat} (hc : mgaClass m = 0) (hm : mgaCore m = c) (hs : served s m 4 = true) (src : NodeId)
    (tag : Nat) : takeRead src tag m false s =
      (spRead s c (mgaOff25 m) 4 rqRw).2.send (answerNode m) src (.rdrsp tag false (spRead s c (mgaOff25 m) 4 rqRw).1) := by
  simp [takeRead, hc, hm, hs, sendRdrsp]

theorem takeRead_notServed {m : Nat} (hc : mgaClass m = 0) (hs : served s m 4 = false) (src : NodeId) (tag : Nat) :
    takeRead src tag m false s =
      (reqFault s src m).send (answerNode m) src (.rdrsp tag true [255, 255, 255, 255]) := by
  simp [takeRead, hc, hs, sendRdrsp]

theorem takeWriteReq_served {m : Nat} {data : List Byte} (hc : mgaClass m = 0) (hm : mgaCore m = c)
    (hs : served s m data.length = true) (src : NodeId) (tag : Nat) : takeWriteReq src tag m data s =
      (remoteWrite s c (mgaOff25 m) data (nodeSender src)).2.send (answerNode m) src
        (.wrrsp tag ((remoteWrite s c (mgaOff25 m) data (nodeSender src)).1 == acOk)) := by
  simp [takeWriteReq, hc, hm, hs]

theorem remoteWrite_open {off n : Nat} {data : List Byte} (hd : data ≠ [])
    (hw : winCheck s c off data.length n = .accept none) :
    remoteWrite s c off data n = (acOk, spWrite s c off data rqRw) := by
  simp [remoteWrite, hd, hw]

theorem exec_rdrsp_data {tag : BitVec 12} {q : NetReq} {data : List Byte} (h : Takes c s)
    (hq : findReq s c tag.toNat true = some q) (hf : q.fill = false) (hd : data.length = 4) :
    exec (.rdrsp c tag false data) s =
      .next (advance ((wrS (dropReq s c q) c q.dest (BitVec.ofNat 32 (ofLeBytes data))).setCst c stRun) c) := by
  have hw : data.take 4 = data := List.take_of_length_le hd.le
  simp [exec_rdrsp, execRdrsp, h.1, hq, hf, hd, hw]

theorem exec_rdrsp_fault {tag : BitVec 12} {q : NetReq} (h : Takes c s) (hq : findReq s c tag.toNat true = some q)
    (data : List Byte) :
    exec (.rdrsp c tag true data) s = .next (takeTrap (dropReq s c q) c trAddrFault (q.mga % 2 ^ 32)) := by
  simp [exec_rdrsp, execRdrsp, h.1, hq]

theorem exec_wrrsp {tag : BitVec 12} {q : NetReq} (h : Takes c s) (hq : findReq s c tag.toNat false = some q) (ok : Bool) :
    exec (.wrrsp c tag ok) s =
      .next (if ok then dropReq s c q else (dropReq s c q).wb Reg.CS_STAT_RFAULT (coreU c) true) := by
  show execWrrsp c tag ok s = _
  simp [execWrrsp, toCore_of_takes h, takeWrrsp, hq]

/-- The requests of a core after one is dropped. -/
theorem dropReq_tags (q : NetReq) : ∀ r ∈ ((dropReq s c q).cx c).reqs, r.tag ≠ q.tag := by
  simp [dropReq]

theorem takeTrap_cx (code info : Nat) (d : CoreId) : (takeTrap s c code info).cx d = s.cx d := rfl

theorem exec_cnTimeout {tag : BitVec 12} {q : NetReq}
    (hq : (s.cx c).reqs.find? (fun q => q.tag == tag.toNat) = some q) :
    ∃ t, exec (.cnTimeout c tag) s = .next t ∧ (∀ r ∈ (t.cx c).reqs, r.tag ≠ q.tag) ∧
      (q.read = true → t.cst c = stTrapped ∧ t.rd Reg.CS_TRAP_CODE (coreU c) = trAddrFault) := by
  have hx : exec (.cnTimeout c tag) s = .next
      (if q.read then takeTrap ((dropReq s c q).lg LogKind.cnTimeout (coreU c) [q.tag, q.mga]) c trAddrFault (q.mga % 2 ^ 32)
        else (dropReq s c q).lg LogKind.cnTimeout (coreU c) [q.tag, q.mga]) := by
    show execCnTimeout c tag s = _
    simp [execCnTimeout, hq]
  refine ⟨_, hx, ?_, fun hr => ?_⟩
  · split
    · rw [takeTrap_cx]
      simpa using dropReq_tags q
    · simpa using dropReq_tags q
  · rw [if_pos hr]
    exact ⟨takeTrapAt_cst .., takeTrapAt_code ..⟩

/-- The state a core's wake ends in, where it kept its registers and no packet waits for it. -/
def wokenState (s : State) (c : CoreId) (late : Bool) : State :=
  let t := ((s.setCx c { s.cx c with waking := none }).wr Reg.LH_CSTATE_STATE (coreU c) 0).wb Reg.DN_RSTAT_PASSTHRU (coreU c)
    false
  let u := if late then t.bump Reg.LH_LATE_COUNT (coreU c) else t
  { u with ejected := smSet [] u.ejected (coreU c) [] }

theorem exec_wakeComplete {late : Bool} (hw : (s.cx c).waking = some late) (hu : (s.pw c.die.val).ups = [])
    (he : smGet [] s.ejected (coreU c) = []) (hc : cstateOf s c < 4) :
    exec (.wakeComplete c) s = .next (wokenState s c late) := by
  have hc4 : cstateOf s c ≠ 4 := by omega
  show execWakeComplete c s = _
  cases late <;> simp [execWakeComplete, wokenState, hw, hu, hc4, he]

theorem wokenState_waking (late : Bool) : ((wokenState s c late).cx c).waking = none := by
  cases late
  · exact congrArg CoreX.waking (State.cx_setCx_same ..)
  · exact congrArg CoreX.waking (State.cx_setCx_same ..)

theorem wokenState_cstate (late : Bool) : cstateOf (wokenState s c late) c = 0 := by
  have h : ∀ t : State, ((t.wr Reg.LH_CSTATE_STATE (coreU c) 0).wb Reg.DN_RSTAT_PASSTHRU (coreU c) false).rd
      Reg.LH_CSTATE_STATE (coreU c) = 0 := fun t => by
    rw [State.wb, State.rd_wr_ne _ (by decide), State.rd_wr_same, Nat.zero_mod]
  cases late
  · exact h _
  · exact (State.rd_wr_ne _ (by decide) ..).trans (h _)

theorem wokenState_passthru (late : Bool) : (wokenState s c late).rb Reg.DN_RSTAT_PASSTHRU (coreU c) = false := by
  have h : ∀ t : State, (t.wb Reg.DN_RSTAT_PASSTHRU (coreU c) false).rb Reg.DN_RSTAT_PASSTHRU (coreU c) = false :=
    fun t => State.rb_wb_same t _ _ _ _ _ (by decide)
  cases late
  · exact h _
  · exact (State.rb_wr_ne _ (by decide) ..).trans (h _)

/-- A command that changes no byte leaves memory reading as it did. -/
theorem sameMemory_of_exec {i : Instr} {t : State} (h : exec i s = .next t) (hm : (after (exec i s) s).mem = s.mem) :
    SameMemory s t :=
  sameMemory_of_mem (by simpa [h] using hm)

end Sys2Proof.Machine
end

section
/-! PROOFS. Requests at their target, replies at their core, timeouts and the end of a wake. -/

namespace Sys2Proof.Machine

/-- Settles O38: each clause is the equation of its command at a core that takes packets. -/
theorem controlNetworkTraffic : Obligations.ControlNetworkTraffic := by
  intro c s
  refine ⟨fun src tag m hc hm ht => ⟨fun hs => ?_, fun hs => ?_, fun data hs => ?_⟩, fun off data n hd hw => ?_,
    fun tag q data ht hq => ⟨fun hf hd => ?_, ?_⟩, fun tag q ht hq => ⟨?_, ?_⟩, fun tag q hq => ?_,
    fun late hw hu he hc => ?_⟩
  · rw [← takeRead_served hc hm hs, exec_rdreq, execRdreq, toTarget_of_takes hm ht]
  · rw [← takeRead_notServed hc hs, exec_rdreq, execRdreq, toTarget_of_takes hm ht]
  · rw [← takeWriteReq_served hc hm hs, exec_wrreq, execWrreq, toTarget_of_takes hm ht]
  · exact remoteWrite_open hd hw
  · exact exec_rdrsp_data ht hq hf hd
  · exact exec_rdrsp_fault ht hq data
  · exact exec_wrrsp ht hq true
  · exact exec_wrrsp ht hq false
  · obtain ⟨t, hx, htags, htrap⟩ := exec_cnTimeout hq
    exact ⟨t, hx, htags, sameMemory_of_exec hx (execCnTimeout_mem s c tag), htrap⟩
  · have hx := exec_wakeComplete hw hu he hc
    refine ⟨_, hx, wokenState_waking late, wokenState_cstate late, sameMemory_of_mem ?_, wokenState_passthru late⟩
    cases late <;> rfl

end Sys2Proof.Machine
end

section
/-! SUPPORT. What the update of a row's counters leaves as it was, and the states of a row's positions after a fence request
(R29, R31). -/

namespace Sys2Proof.Machine

/-- A fold whose steps leave a value as it was leaves it as it was. -/
theorem foldl_fixes {α β γ : Type} (π : β → γ) (f : β → α → β) (h : ∀ b a, π (f b a) = π b) (l : List α) (b : β) :
    π (l.foldl f b) = π b :=
  foldl_keeps (fun t => π t = π b) f (fun t a ht => (h t a).trans ht) l b rfl

variable (s : State)

/-- The fields that the update of a row writes. -/
def rowCounters : List Nat :=
  [Reg.FT_ROWMAP_FENCED.id, Reg.FT_ROWMAP_HEALTHY.id, Reg.FT_ROWMAP_SHORT.id, Reg.FT_ROWMAP_PENDING.id,
    Reg.BT_IDENT_PRESENT.id, Reg.BT_IDENT_DEGRADED.id, Reg.LH_ISL_HDR.id]

theorem updRow_rd {F : Field} (h : F.id ∉ rowCounters) (d r u i j : Nat) : (updRow s d r).rd F u i j = s.rd F u i j := by
  simp only [rowCounters, List.mem_cons, List.not_mem_nil, or_false, not_or] at h
  obtain ⟨hFenced, hHealthy, hShort, hPending, hPresent, hDegraded, hHdr⟩ := h
  have hIsland : ∀ (t : State) (n : Nat), (restIsland t (Fin.ofNat 4 d) n).rd F u i j = t.rd F u i j := fun t n => by
    unfold restIsland
    extract_lets r asleep
    split
    · exact State.rd_wr_ne _ (Ne.symm hHdr) ..
    · rfl
  unfold updRow
  rw [foldl_fixes (fun t : State => t.rd F u i j) _ hIsland]
  simp only [State.wb, State.rd_wr_ne _ (Ne.symm hFenced), State.rd_wr_ne _ (Ne.symm hHealthy),
    State.rd_wr_ne _ (Ne.symm hShort), State.rd_wr_ne _ (Ne.symm hPending), State.rd_wr_ne _ (Ne.symm hPresent),
    State.rd_wr_ne _ (Ne.symm hDegraded)]

@[simp] theorem pstatF_w (c : Nat) : (pstatF c).w = 3 := by
  unfold pstatF
  split <;> rfl

theorem pstatF_notMem_rowCounters (c : Nat) : (pstatF c).id ∉ rowCounters := by
  unfold pstatF
  split <;> decide

theorem updRow_posState (d r e q c : Nat) : posState (updRow s d r) e q c = posState s e q c :=
  updRow_rd s (pstatF_notMem_rowCounters c) ..

@[simp] theorem posState_setPos_same (d r c v : Nat) : posState (setPos s d r c v) d r c = v % 2 ^ 3 := by
  rw [posState, setPos, State.rd_wr_same, pstatF_w]

theorem requestFence_hosting {d : DieId} {r c : Nat} (h : hostsCore s d r c = true) :
    requestFence s d r [c] = updRow ((setPos s d.val r c psPending).wr Reg.FT_ROWMAP_FENCE_REQ d.val
      (s.rd Reg.FT_ROWMAP_FENCE_REQ d.val r ||| 2 ^ c) r) d.val r := by
  simp [requestFence, h]

theorem requestFence_spare {d : DieId} {r c : Nat} (h : hostsCore s d r c = false) (hs : posState s d.val r c = psSpare) :
    requestFence s d r [c] = updRow (setPos s d.val r c (fenceTo s d r c)) d.val r := by
  simp [requestFence, h, hs]

/-- A position that hosts a core is pending once a fence is asked for, and the request stands in the row's register. -/
theorem requestFence_pending {d : DieId} {r c : Nat} (h : hostsCore s d r c = true) :
    posState (requestFence s d r [c]) d.val r c = psPending ∧
      (requestFence s d r [c]).rd Reg.FT_ROWMAP_FENCE_REQ d.val r =
        (s.rd Reg.FT_ROWMAP_FENCE_REQ d.val r ||| 2 ^ c) % 2 ^ 10 := by
  have hne : Reg.FT_ROWMAP_FENCE_REQ.id ≠ (pstatF c).id := by
    unfold pstatF
    split <;> decide
  rw [requestFence_hosting s h]
  constructor
  · rw [updRow_posState, posState, State.rd_wr_ne _ hne]
    exact posState_setPos_same ..
  · rw [updRow_rd _ (by decide), State.rd_wr_same]
    rfl

theorem requestFence_fenced {d : DieId} {r c : Nat} (h : hostsCore s d r c = false) (hs : posState s d.val r c = psSpare)
    (hf : smGet psQuarantine (s.dx d).fenceTo (10 * r + c) = psQuarantine) :
    posState (requestFence s d r [c]) d.val r c = psQuarantine := by
  rw [requestFence_spare s h hs, updRow_posState, posState_setPos_same, fenceTo, hf]
  rfl

theorem exec_fenceReq {r : Requester} {d : DieId} (h : mayWrite .punty r .die d.val = true) (row : Fin 8)
    (cols : BitVec 10) : exec (.fenceReq r d row cols) s =
      .next (requestFence s d row.val ((List.range 10).filter fun c => bit cols.toNat c)) := by
  show execFenceReq r d row cols s = _
  rw [execFenceReq, if_pos h]

theorem exec_fenceShift {d : DieId} {row : Fin 8} {g : Gather} (hg : soleGather s d row.val = some g)
    (hp : (s.gx g).inPhase = false) (hf : (s.gx g).toFlush = []) (hs : smGet none (s.dx d).shifts row.val = none) :
    exec (.fenceShift d row) s = .next (applyFences s d row.val) := by
  show execFenceShift d row s = _
  simp [execFenceShift, hg, hp, hf, hs]

theorem exec_shiftComplete_idle {d : DieId} {row : Fin 8} (hs : smGet none (s.dx d).shifts row.val = none) :
    exec (.shiftComplete d row) s = .next s := by
  show execShiftComplete d row s = _
  simp [execShiftComplete, hs]

end Sys2Proof.Machine
end

section
/-! SUPPORT. Memory after a range, and after the scratchpads of several cores, are zeroed. -/

namespace Sys2Proof.Machine

theorem smGet_filter_drop {α : Type} (d : α) (m : SMap α) (f : Nat → Bool) {j : Nat} (h : f j = false) :
    smGet d (m.filter fun p => f p.1) j = d := by
  induction m with
  | nil => rfl
  | cons p r ih =>
    obtain ⟨a, w⟩ := p
    by_cases e : j = a
    · subst e
      simpa [List.filter, h] using ih
    · cases hf : f a <;> simpa [List.filter, hf, smGet, e] using ih

theorem State.rdByte_zeroRange (s : State) (lo hi a : Nat) :
    (s.zeroRange lo hi).rdByte a = if a < lo ∨ hi ≤ a then s.rdByte a else 0 := by
  split
  · next h => exact smGet_filter_keep 0 s.mem (fun b => decide (b < lo ∨ hi ≤ b)) (by simpa using h)
  · next h => exact smGet_filter_drop 0 s.mem (fun b => decide (b < lo ∨ hi ≤ b)) (by simpa using h)

/-- Steps that each zero a range of `n` bytes leave every such range zero, and every byte outside them as it was. -/
theorem foldl_zeroRanges {f : State → Nat → State} {base : Nat → Nat} {n : Nat}
    (hf : ∀ t k, (f t k).mem = (t.zeroRange (base k) (base k + n)).mem) (l : List Nat) (s : State) :
    (∀ k ∈ l, ∀ a < n, (l.foldl f s).rdByte (base k + a) = 0) ∧
      ∀ a, (∀ k ∈ l, a < base k ∨ base k + n ≤ a) → (l.foldl f s).rdByte a = s.rdByte a := by
  have hstep : ∀ t k a, (f t k).rdByte a = if a < base k ∨ base k + n ≤ a then t.rdByte a else 0 := fun t k a =>
    (congrArg (smGet 0 · a) (hf t k)).trans (t.rdByte_zeroRange ..)
  have hzero : ∀ (l : List Nat) (t : State) (a : Nat), t.rdByte a = 0 → (l.foldl f t).rdByte a = 0 := fun l t a h =>
    foldl_keeps (fun u : State => u.rdByte a = 0) f (fun u k hu => by rw [hstep, hu, ite_self]) l t h
  induction l generalizing s with
  | nil => simp
  | cons k r ih =>
    obtain ⟨ihIn, ihOut⟩ := ih (f s k)
    refine ⟨fun j hj a ha => ?_, fun a h => ?_⟩
    · rcases List.mem_cons.1 hj with rfl | hj
      · refine hzero r _ _ ?_
        rw [hstep, if_neg (by omega)]
      · exact ihIn j hj a ha
    · rw [List.foldl_cons, ihOut a fun j hj => h j (List.mem_cons_of_mem _ hj), hstep,
        if_pos (h k List.mem_cons_self)]

end Sys2Proof.Machine
end

section
/-! SUPPORT. What the steps of a shift leave of the row maps and of the dies' records (R34, R35). -/

namespace Sys2Proof.Machine

variable (s : State)

/-- The fields of the row maps. -/
def rowMapIds : List Nat :=
  [Reg.FT_LMAP_PCOL0.id, Reg.FT_LMAP_PCOL1.id, Reg.FT_LMAP_PCOL2.id, Reg.FT_LMAP_PCOL3.id, Reg.FT_LMAP_PCOL4.id,
    Reg.FT_LMAP_PCOL5.id, Reg.FT_LMAP_PCOL6.id, Reg.FT_LMAP_PCOL7.id]

theorem lmapF_mem_rowMapIds (k : Nat) : (lmapF k).id ∈ rowMapIds := by
  unfold lmapF
  split <;> decide

theorem pcolOf_eq (d r k : Nat) : pcolOf s d r k = s.rd (lmapF k) d r := by
  unfold pcolOf lmapF
  rfl

/-- The row maps of a state, and its dies' records. -/
def State.rowView (s : State) : (Nat → Nat → Nat → Nat) × SMap DieX := (pcolOf s, s.dies)

theorem State.rowView_eq {s t : State} (hm : ∀ d r k, t.rd (lmapF k) d r = s.rd (lmapF k) d r) (hd : t.dies = s.dies) :
    t.rowView = s.rowView := by
  refine Prod.ext ?_ hd
  funext d r k
  show pcolOf t d r k = pcolOf s d r k
  rw [pcolOf_eq, pcolOf_eq, hm]

theorem State.dx_of_rowView {s t : State} (h : t.rowView = s.rowView) (d : DieId) : t.dx d = s.dx d :=
  congrArg (fun v : (Nat → Nat → Nat → Nat) × SMap DieX => smGet ({} : DieX) v.2 d.val) h

theorem lmapOf_of_rowView {s t : State} (h : t.rowView = s.rowView) (d r : Nat) : lmapOf t d r = lmapOf s d r :=
  congrArg (fun v : (Nat → Nat → Nat → Nat) × SMap DieX => (List.range 8).map (v.1 d r)) h

theorem State.rowView_wr {F : Field} (h : F.id ∉ rowMapIds) (u v i j : Nat) : (s.wr F u v i j).rowView = s.rowView :=
  State.rowView_eq (fun _ _ k => State.rd_wr_ne _ (fun e => h (e.symm ▸ lmapF_mem_rowMapIds k)) ..) rfl

theorem State.rowView_wb {F : Field} (h : F.id ∉ rowMapIds) (u : Nat) (b : Bool) (i j : Nat) :
    (s.wb F u b i j).rowView = s.rowView :=
  State.rowView_wr s h ..

@[simp] theorem State.rowView_setCx (c : CoreId) (x : CoreX) : (s.setCx c x).rowView = s.rowView := (rfl)
@[simp] theorem State.rowView_setSx (d : DieId) (n : Nat) (x : StreamX) : (s.setSx d n x).rowView = s.rowView := (rfl)
@[simp] theorem State.rowView_setGx (g : Gather) (x : GatherX) : (s.setGx g x).rowView = s.rowView := (rfl)
@[simp] theorem State.rowView_setSb (p : PortId) (x : SideX) : (s.setSb p x).rowView = s.rowView := (rfl)

@[simp] theorem updRow_rowView (d r : Nat) : (updRow s d r).rowView = s.rowView := by
  have hk : ∀ k, (lmapF k).id ∉ rowCounters := fun k => by
    unfold lmapF
    split <;> decide
  have hd : (updRow s d r).dies = s.dies := by
    unfold updRow
    rw [foldl_fixes State.dies _ fun t n => by
      unfold restIsland
      extract_lets r asleep
      split <;> rfl]
    rfl
  exact State.rowView_eq (fun _ _ k => updRow_rd s (hk k) ..) hd

@[simp] theorem setPos_rowView (d r c v : Nat) : (setPos s d r c v).rowView = s.rowView := by
  refine State.rowView_wr s ?_ ..
  unfold pstatF
  split <;> decide

@[simp] theorem settleRow_rowView (d r : Nat) : (settleRow s d r).rowView = s.rowView := by
  rw [settleRow, updRow_rowView]
  refine foldl_fixes State.rowView _ (fun t c => ?_) _ s
  split
  · exact setPos_rowView ..
  · rfl

@[simp] theorem zeroScratch_rowView (c : CoreId) : (zeroScratch s c).rowView = s.rowView := (rfl)

@[simp] theorem resetChannel_rowView (c : CoreId) (q : Nat) : (resetChannel s c q).rowView = s.rowView := by
  unfold resetChannel
  extract_lets u x h s1 s2 s3 depth lines
  have h3 : s3.rowView = s.rowView := by
    simp (disch := decide) only [s3, s2, s1, State.bump, State.rowView_wr, State.rowView_setCx]
  split
  · split
    · simp (disch := decide) only [fullCredit, State.rowView_wr, h3]
    · exact h3
  · exact h3
  · exact h3

@[simp] theorem resetChannelsOf_rowView (c : CoreId) : (resetChannelsOf s c).rowView = s.rowView := by
  unfold resetChannelsOf
  extract_lets own
  refine (foldl_fixes State.rowView _ (fun t e => ?_) _ own).trans (foldl_fixes State.rowView _ (fun t q => ?_) _ s)
  · split
    · exact resetChannel_rowView ..
    · rfl
  · simp only
    split
    · exact resetChannel_rowView ..
    · rfl

@[simp] theorem reapplyMasks_rowView (s0 : State) (d : DieId) : (reapplyMasks s0 s d).rowView = s.rowView :=
  foldl_fixes State.rowView _ (fun t _ => State.rowView_setSb t ..) _ s

@[simp] theorem markDegraded_rowView (d : DieId) : (markDegraded s d).rowView = s.rowView := by
  refine foldl_fixes State.rowView _ (fun t g => ?_) _ s
  split
  · exact State.rowView_wb t (by decide) ..
  · rfl

@[simp] theorem mapStream_rowView (l : List (DieId × Nat)) (f : DieId × Nat → StreamX → StreamX) :
    (mapStream s l f).rowView = s.rowView :=
  foldl_fixes State.rowView _ (fun t _ => State.rowView_setSx t ..) l s

theorem setStat_rowView {F : Field} (h : F.id ∉ rowMapIds) (l : List (DieId × Nat)) (v : Nat) :
    (setStat s l F v).rowView = s.rowView :=
  foldl_fixes State.rowView _ (fun t _ => State.rowView_wr t h ..) l s

@[simp] theorem trigger_rowView (d : DieId) (i ph : Nat) : (trigger s d i ph).rowView = s.rowView := by
  unfold trigger updGated
  extract_lets l gs s1
  split <;> simp (disch := decide) [s1, setStat_rowView]

@[simp] theorem refetchRun_rowView (q : Nat × Nat) : (refetchRun s q).rowView = s.rowView :=
  trigger_rowView ..

@[simp] theorem endRecovery_rowView (g : Gather) : (endRecovery s g).rowView = s.rowView := by
  unfold endRecovery setHeld
  extract_lets x d rows w v b s1
  split
  · simp (disch := decide) [s1, State.rowView_wr]
  · rfl

@[simp] theorem endRecoveries_rowView : (endRecoveries s).rowView = s.rowView := by
  unfold endRecoveries
  split
  · exact foldl_fixes State.rowView _ (fun t g => endRecovery_rowView t g) _ s
  · rfl

@[simp] theorem refetchMoved_rowView (cs : List CoreId) : (refetchMoved s cs).rowView = s.rowView := by
  unfold refetchMoved
  extract_lets gs s1
  rw [endRecoveries_rowView]
  refine foldl_fixes State.rowView _ (fun t g => ?_) gs s
  exact (foldl_fixes State.rowView _ (fun u q => refetchRun_rowView u q) _ _).trans (State.rowView_setGx ..)

/-- A row's map reads as last set. -/
theorem lmapOf_setLmap {l : List Nat} (hl : l.length = 8) (hb : ∀ p ∈ l, p < 16) (d r : Nat) :
    lmapOf (setLmap s d r l) d r = l := by
  have hk : ∀ k < 8, pcolOf (setLmap s d r l) d r k = (l[k]?).getD 15 % 2 ^ 4 := by
    intro k hk
    simp only [pcolOf_eq, setLmap, List.range_succ, List.range_zero, List.nil_append, List.foldl_append, List.foldl_cons,
      List.foldl_nil]
    interval_cases k <;> simp (disch := decide) only [lmapF, State.rd_wr_ne, State.rd_wr_same] <;> rfl
  refine List.ext_getElem (by simp [lmapOf, hl]) fun k h1 h2 => ?_
  simp only [lmapOf, List.getElem_map, List.getElem_range]
  have h16 := hb _ (List.getElem_mem h2)
  rw [hk k (hl ▸ h2), List.getElem?_eq_getElem h2, Option.getD_some]
  omega

@[simp] theorem setLmap_dies (d r : Nat) (l : List Nat) : (setLmap s d r l).dies = s.dies :=
  foldl_fixes State.dies _ (fun t _ => State.wr_dies t ..) _ s

end Sys2Proof.Machine
end

section
/-! PROOFS. Fence requests, and the shift of a row from its order to its completion. -/

namespace Sys2Proof.Machine

variable {s : State} {d : DieId} {row : Fin 8} {x : ShiftX}

/-- A moved core on the position its row's new map gives it: a scratchpad of zeros, channels reset. -/
def moveOnto (d : DieId) (row : Fin 8) (t : State) (k : Nat) : State :=
  let c : CoreId := ⟨d, Fin.ofNat 64 (8 * row.val + k)⟩
  let t1 := resetChannelsOf (zeroScratch t c) c
  (t1.setCx c { t1.cx c with dead := false, mapWanted := [], mapping := none }).wb
    Reg.DN_RSTAT_PASSTHRU (coreU c) (!corePresent t1 c || decide (2 ≤ cstateOf t1 c))

theorem moveOnto_mem (t : State) (k : Nat) : (moveOnto d row t k).mem =
    (t.zeroRange (spBase ⟨d, Fin.ofNat 64 (8 * row.val + k)⟩)
      (spBase ⟨d, Fin.ofNat 64 (8 * row.val + k)⟩ + 0x1800000)).mem := by
  unfold moveOnto
  extract_lets c t1
  rw [State.wb_mem, State.setCx_mem, resetChannelsOf_mem]
  rfl

theorem moveOnto_rowView (t : State) (k : Nat) : (moveOnto d row t k).rowView = t.rowView := by
  unfold moveOnto
  extract_lets c t1
  rw [State.rowView_wb _ (by decide), State.rowView_setCx, resetChannelsOf_rowView, zeroScratch_rowView]

/-- A row whose shift has ended, with its new map. -/
def settledRow (s : State) (d : DieId) (row : Fin 8) (x : ShiftX) : State :=
  let s0 := restSpares s d (x.lmap.map (10 * row.val + ·))
  let s1 := s0.setDx d { s0.dx d with shifts := smSet none (s0.dx d).shifts row.val none }
  settleRow (setLmap s1 d.val row.val x.lmap) d.val row.val

theorem settledRow_mem : (settledRow s d row x).mem = s.mem := by
  simp [settledRow]

theorem settledRow_shifts : smGet none ((settledRow s d row x).dx d).shifts row.val = none := by
  rw [settledRow, State.dx_of_rowView (settleRow_rowView ..)]
  have h : ∀ t : State, (setLmap t d.val row.val x.lmap).dx d = t.dx d := fun t =>
    congrArg (smGet ({} : DieX) · d.val) (setLmap_dies ..)
  rw [h, State.dx_setDx_same]
  show smGet none (smSet none _ row.val none) row.val = none
  exact smGet_smSet_same ..

theorem settledRow_lmap (hl : x.lmap.length = 8) (hb : ∀ p ∈ x.lmap, p < 16) :
    lmapOf (settledRow s d row x) d.val row.val = x.lmap := by
  rw [settledRow, lmapOf_of_rowView (settleRow_rowView ..)]
  exact lmapOf_setLmap _ hl hb ..

/-- The state in which a shift ends. -/
def shiftedRow (s : State) (d : DieId) (row : Fin 8) (x : ShiftX) : State :=
  refetchMoved (markDegraded (reapplyMasks s (x.moved.foldl (moveOnto d row) (settledRow s d row x)) d) d)
    (x.moved.map fun k => ⟨d, Fin.ofNat 64 (8 * row.val + k)⟩)

theorem exec_shiftComplete (hx : smGet none (s.dx d).shifts row.val = some x)
    (hr : sparesRising s d (x.lmap.map (10 * row.val + ·)) = false) :
    exec (.shiftComplete d row) s = .next (shiftedRow s d row x) := by
  show execShiftComplete d row s = _
  rw [execShiftComplete]
  simp only [hx, hr]
  rfl

theorem shiftedRow_rowView : (shiftedRow s d row x).rowView = (settledRow s d row x).rowView := by
  rw [shiftedRow, refetchMoved_rowView, markDegraded_rowView, reapplyMasks_rowView]
  exact foldl_fixes State.rowView _ (fun t k => moveOnto_rowView t k) _ _

theorem shiftedRow_mem :
    (shiftedRow s d row x).mem = (x.moved.foldl (moveOnto d row) (settledRow s d row x)).mem := by
  rw [shiftedRow, refetchMoved_mem, markDegraded_mem, reapplyMasks_mem]

theorem spBase_moved {k : Nat} (hk : k < 8) :
    spBase ⟨d, Fin.ofNat 64 (8 * row.val + k)⟩ = (64 * d.val + 8 * row.val + k) * 2 ^ 40 := by
  have hlc : (8 * row.val + k) % 64 = 8 * row.val + k := by omega
  simp only [spBase, coreU, Fin.val_ofNat, hlc, Nat.add_assoc]

/-- The bytes of the moved cores' scratchpads read zero when a shift ends, and every other byte reads as before. -/
theorem shiftedRow_rdByte (hk : ∀ k ∈ x.moved, k < 8) :
    (∀ k ∈ x.moved, ∀ a < 0x1800000,
      (shiftedRow s d row x).rdByte ((64 * d.val + 8 * row.val + k) * 2 ^ 40 + a) = 0) ∧
    ∀ a, (∀ k ∈ x.moved, a < (64 * d.val + 8 * row.val + k) * 2 ^ 40 ∨
      (64 * d.val + 8 * row.val + k) * 2 ^ 40 + 0x1800000 ≤ a) → (shiftedRow s d row x).rdByte a = s.rdByte a := by
  obtain ⟨hin, hout⟩ := foldl_zeroRanges (fun t k => moveOnto_mem (d := d) (row := row) t k) x.moved (settledRow s d row x)
  have hb : ∀ a, (shiftedRow s d row x).rdByte a =
      (x.moved.foldl (moveOnto d row) (settledRow s d row x)).rdByte a := fun a =>
    congrArg (smGet 0 · a) shiftedRow_mem
  refine ⟨fun k hkm a ha => ?_, fun a h => ?_⟩
  · rw [hb, ← spBase_moved (hk k hkm)]
    exact hin k hkm a ha
  · rw [hb, hout a fun k hkm => by rw [spBase_moved (hk k hkm)]; exact h k hkm]
    exact congrArg (smGet 0 · a) settledRow_mem

/-- Settles O41: a fence request and its shift by their equations, the shift's end by what it leaves of row map, records and
memory. -/
theorem fencesAndShifts : Obligations.FencesAndShifts := by
  intro d row s
  refine ⟨fun r cols h => exec_fenceReq s h row cols, fun c _ h => requestFence_pending s h,
    fun c _ hs h hf => requestFence_fenced s h hs hf, fun g hg hp hf hs => exec_fenceShift s hg hp hf hs,
    fun hs => exec_shiftComplete_idle s hs, fun x hx hk hl hb hr => ?_⟩
  obtain ⟨hin, hout⟩ := shiftedRow_rdByte (s := s) (d := d) (row := row) hk
  refine ⟨_, exec_shiftComplete hx hr, ?_, ?_, hin, hout⟩
  · rw [State.dx_of_rowView shiftedRow_rowView]
    exact settledRow_shifts
  · rw [lmapOf_of_rowView shiftedRow_rowView]
    exact settledRow_lmap hl hb

end Sys2Proof.Machine
end

section
/-! SUPPORT. Registers left as they were but for a few, and what the updates of VSET, requests and signals leave (R56, R58). -/

namespace Sys2Proof.Machine

theorem State.rd_wb_ne {F G : Field} (h : F.id ≠ G.id) (s : State) (u : Nat) (b : Bool) (i j w k l : Nat) :
    (s.wb F u b i j).rd G w k l = s.rd G w k l :=
  State.rd_wr_ne s h ..

/-- Every register but those of some fields reads in the second state as in the first. -/
def SameRegsBut (ids : List Nat) (s t : State) : Prop :=
  ∀ F : Field, F.id ∉ ids → ∀ u i j, t.rd F u i j = s.rd F u i j

namespace SameRegsBut

variable {ids : List Nat} {s t u : State}

theorem refl : SameRegsBut ids s s := fun _ _ _ _ _ => rfl

theorem trans (h : SameRegsBut ids s t) (k : SameRegsBut ids t u) : SameRegsBut ids s u := fun F hF a i j =>
  (k F hF a i j).trans (h F hF a i j)

theorem of_regs (h : t.regs = s.regs) : SameRegsBut ids s t := fun F _ u i j =>
  congrArg (fun m => smGet (fieldReset F u i) m (fieldKey F u i j)) h

theorem wr {F : Field} {u v i j : Nat} (h : F.id ∈ ids) : SameRegsBut ids s (s.wr F u v i j) :=
  fun _ hG _ _ _ => State.rd_wr_ne s (fun e => hG (e ▸ h)) ..

theorem wb {F : Field} {u : Nat} {b : Bool} {i j : Nat} (h : F.id ∈ ids) :
    SameRegsBut ids s (s.wb F u b i j) :=
  wr h

theorem bump {F : Field} {u n i j : Nat} (h : F.id ∈ ids) : SameRegsBut ids s (s.bump F u n i j) :=
  wr h

theorem foldl {α : Type} {f : State → α → State} (hf : ∀ t a, SameRegsBut ids t (f t a)) (l : List α) (s : State) :
    SameRegsBut ids s (l.foldl f s) :=
  foldl_keeps (SameRegsBut ids s) f (fun t a h => h.trans (hf t a)) l s refl

theorem mono {ids' : List Nat} (h : SameRegsBut ids s t) (hi : ids ⊆ ids') : SameRegsBut ids' s t := fun F hF =>
  h F fun hm => hF (hi hm)

theorem rb (h : SameRegsBut ids s t) {F : Field} (hF : F.id ∉ ids) (u i j : Nat) : t.rb F u i j = s.rb F u i j := by
  rw [State.rb, State.rb, h F hF]

end SameRegsBut

theorem updVset_sameRegs (s : State) (d : DieId) : SameRegsBut [Reg.LH_VDDL_VSET.id] s (updVset s d) := by
  unfold updVset
  split
  · exact .refl
  · exact .wr (by decide)

theorem updVset_log (s : State) (d : DieId) : (updVset s d).log = s.log := by
  unfold updVset
  split <;> rfl

theorem updVset_gx (s : State) (d : DieId) (g : Gather) : (updVset s d).gx g = s.gx g := by
  unfold updVset
  split <;> rfl

/-- The fields that a change of a gather's requested ratio writes. -/
def requestIds : List Nat := [Reg.LH_GACLK_REQ.id, Reg.LH_GACLK_PENDING.id, Reg.LH_VDDL_VSET.id]

theorem setReq_sameRegs (s : State) (g : Gather) (v : Nat) : SameRegsBut requestIds s (setReq s g v) :=
  ((SameRegsBut.wr (by decide)).trans (.wb (by decide))).trans ((updVset_sameRegs _ _).mono (by decide))

theorem slowIsland_sameRegs (s : State) (d : DieId) (n : Nat) : SameRegsBut requestIds s (slowIsland s d n) := by
  refine .foldl (fun t g => ?_) _ s
  extract_lets i x v
  unfold reqFromDemand
  extract_lets w
  split
  · exact .of_regs rfl
  · exact (SameRegsBut.of_regs rfl).trans (setReq_sameRegs _ _ _)

end Sys2Proof.Machine
end

section
/-! SUPPORT. The module reference: its loss, its holdover and the relock (R43, R51). -/

namespace Sys2Proof.Machine

variable {s : State}

/-- The state in which the loss of the reference is signalled. -/
def refLostState (s : State) : State :=
  let t := (((s.wb Reg.HB_CLKSTAT_REF_OK 0 false).wb Reg.HB_CLKSTAT_PLL_LOCK 0 false).wb Reg.HB_CLKSTAT_HOLDOVER 0 true).wr
    Reg.HB_CLKSTAT_HOLD_SEC 0 0
  { t with chip := { s.chip with holdAt := some s.hclk } }.lg LogKind.refLost hubN []

theorem exec_refLost (hh : s.rb Reg.HB_CLKSTAT_HOLDOVER 0 = false) (hl : s.rb Reg.HB_CLKSTAT_PLL_LOCK 0 = true) :
    exec .refLost s = .next (signal (refLostState s) 68) := by
  show execRefLost s = _
  rw [execRefLost, hh, hl]
  rfl

theorem signal_refLostState_rd (F : Field) (u i j : Nat) : (signal (refLostState s) 68).rd F u i j =
    ((((s.wb Reg.HB_CLKSTAT_REF_OK 0 false).wb Reg.HB_CLKSTAT_PLL_LOCK 0 false).wb Reg.HB_CLKSTAT_HOLDOVER 0 true).wr
      Reg.HB_CLKSTAT_HOLD_SEC 0 0).rd F u i j :=
  State.rd_congr (signal_regs _ _) ..

theorem exec_refLost_locked (hh : s.rb Reg.HB_CLKSTAT_HOLDOVER 0 = false) (hl : s.rb Reg.HB_CLKSTAT_PLL_LOCK 0 = true) :
    ∃ t, exec .refLost s = .next t ∧ t.rb Reg.HB_CLKSTAT_HOLDOVER 0 = true ∧ t.rb Reg.HB_CLKSTAT_REF_OK 0 = false ∧
      t.rb Reg.HB_CLKSTAT_PLL_LOCK 0 = false ∧ t.rd Reg.HB_CLKSTAT_HOLD_SEC 0 = 0 ∧ SameMemory s t := by
  have hx := exec_refLost hh hl
  refine ⟨_, hx, ?_, ?_, ?_, ?_, sameMemory_of_exec hx (execRefLost_mem s)⟩ <;>
    simp (disch := decide) only [State.rb, signal_refLostState_rd, State.wb, State.rd_wr_ne, State.rd_wr_same] <;> decide

theorem exec_refLost_holdover (hh : s.rb Reg.HB_CLKSTAT_HOLDOVER 0 = true) : exec .refLost s = .next s := by
  show execRefLost s = _
  simp [execRefLost, hh]

theorem exec_relock_idle (hh : s.rb Reg.HB_CLKSTAT_HOLDOVER 0 = false) : exec .relock s = .next s := by
  show execRelock s = _
  simp [execRelock, hh]

theorem exec_holdExpired_idle (hh : s.rb Reg.HB_CLKSTAT_HOLDOVER 0 = false) : exec .holdExpired s = .next s := by
  show execHoldExpired s = _
  simp [execHoldExpired, hh]

/-- A fold over distinct indices, of which one alone changes a value: the value after it is the value after that one step. -/
theorem exists_foldl_eq_step {α β γ : Type} (π : β → γ) {f : β → α → β} {m : α} {l : List α}
    (hne : ∀ a ∈ l, a ≠ m → ∀ b, π (f b a) = π b) (hl : l.Nodup) (hm : m ∈ l) (b : β) :
    ∃ c, π c = π b ∧ π (l.foldl f b) = π (f c m) := by
  obtain ⟨l1, l2, rfl⟩ := List.append_of_mem hm
  obtain ⟨-, hn2, hd⟩ := List.nodup_append.1 hl
  have hkeep : ∀ (k : List α), (∀ a ∈ k, a ∈ l1 ++ m :: l2 ∧ a ≠ m) → ∀ b, π (k.foldl f b) = π b := by
    intro k
    induction k with
    | nil => exact fun _ _ => rfl
    | cons a r ih =>
      intro hk b
      obtain ⟨ha, hr⟩ := List.forall_mem_cons.1 hk
      rw [List.foldl_cons, ih hr, hne a ha.1 ha.2]
  refine ⟨l1.foldl f b, hkeep l1 (fun a ha => ⟨List.mem_append_left _ ha, hd a ha m List.mem_cons_self⟩) b, ?_⟩
  rw [List.foldl_append, List.foldl_cons]
  refine hkeep l2 (fun a ha => ⟨by simp [ha], ?_⟩) _
  rintro rfl
  exact (List.nodup_cons.1 hn2).1 ha

/-- A span port's state, its record, and what decides whether it may train. -/
def State.spanView (s : State) (m : Fin 8) : Nat × SpanX × Option Owner × Nat :=
  (portState s (.span m), s.spx m, s.chip.owner, s.rd Reg.HB_ID_SPAN 0)

theorem portState_of_spanView {t : State} {m : Fin 8} (h : t.spanView m = s.spanView m) :
    portState t (.span m) = portState s (.span m) :=
  congrArg (fun v : Nat × SpanX × Option Owner × Nat => v.1) h

theorem spx_of_spanView {t : State} {m : Fin 8} (h : t.spanView m = s.spanView m) : t.spx m = s.spx m :=
  congrArg (fun v : Nat × SpanX × Option Owner × Nat => v.2.1) h

theorem State.px_setPx_ne {p q : PortId} (h : portKey q ≠ portKey p) (x : PortX) : (s.setPx p x).px q = s.px q :=
  smGet_smSet_ne _ _ _ _ h

theorem State.spx_setSpx_same (m : Fin 8) (x : SpanX) : (s.setSpx m x).spx m = x := by
  rw [State.spx, State.setSpx, State.px_setPx_same]

theorem State.spx_setSpx_ne {m n : Fin 8} (h : m ≠ n) (x : SpanX) : (s.setSpx n x).spx m = s.spx m := by
  rw [State.spx, State.setSpx, State.px_setPx_ne (by simp [portKey, Fin.val_inj, h])]
  rfl

theorem portState_wrP_ne {m n : Fin 8} (h : m ≠ n) (v : Nat) :
    portState (wrP s (.span n) Reg.LK_STAT_STATE Reg.LKH_STAT_STATE v) (.span m) = portState s (.span m) :=
  State.rd_wr_inst s _ (by simp [Fin.val_inj, h]) v

theorem portState_wrP_same (m : Fin 8) (v : Nat) :
    portState (wrP s (.span m) Reg.LK_STAT_STATE Reg.LKH_STAT_STATE v) (.span m) = v % 8 :=
  State.rd_wr_same ..

theorem startSpan_sameRegs (m : Nat) : SameRegsBut [Reg.LKH_STAT_STATE.id] s (startSpan s m) := by
  unfold startSpan
  extract_lets n p
  split
  · exact (SameRegsBut.of_regs rfl).trans (.wr (by decide))
  · exact .refl

theorem startSpan_chip (m : Nat) : (startSpan s m).chip = s.chip := by
  unfold startSpan
  extract_lets n p
  split <;> rfl

theorem startSpan_spanView_ne {m : Fin 8} {k : Nat} (h : m ≠ Fin.ofNat 8 k) :
    (startSpan s k).spanView m = s.spanView m := by
  have hs : portState (startSpan s k) (.span m) = portState s (.span m) ∧ (startSpan s k).spx m = s.spx m := by
    unfold startSpan
    extract_lets n p
    split
    · exact ⟨portState_wrP_ne h _, State.spx_setSpx_ne h _⟩
    · exact ⟨rfl, rfl⟩
  rw [State.spanView, State.spanView, hs.1, hs.2, startSpan_chip, startSpan_sameRegs _ _ (by decide)]

theorem startSpan_training {m : Fin 8} (hm : spanMayTrain s m.val = true) (hp : portState s (.span m) = lkDown) :
    portState (startSpan s m.val) (.span m) = lkTraining := by
  have he : Fin.ofNat 8 m.val = m := Fin.ofNat_val_eq_self m
  rw [startSpan, he]
  simp only [hm, hp]
  exact portState_wrP_same ..

theorem spanMayTrain_of_spanView {t : State} {m : Fin 8} (h : t.spanView m = s.spanView m) :
    spanMayTrain t m.val = spanMayTrain s m.val := by
  have he : Fin.ofNat 8 m.val = m := Fin.ofNat_val_eq_self m
  have ho : t.chip.owner = s.chip.owner := congrArg (fun v : Nat × SpanX × Option Owner × Nat => v.2.2.1) h
  have hi : t.rd Reg.HB_ID_SPAN 0 = s.rd Reg.HB_ID_SPAN 0 := congrArg (fun v : Nat × SpanX × Option Owner × Nat => v.2.2.2) h
  simp only [spanMayTrain, spanSecret, he, spx_of_spanView h, ho, hi]

/-- Span ports held over start to train again. -/
def retrainHeld (s : State) : State :=
  (List.range 8).foldl (fun t m => if (t.spx (Fin.ofNat 8 m)).heldOver then startSpan t m else t) s

theorem retrainHeld_sameRegs : SameRegsBut [Reg.LKH_STAT_STATE.id] s (retrainHeld s) := by
  refine .foldl (fun t m => ?_) _ s
  split
  · exact startSpan_sameRegs m
  · exact .refl

/-- What the relock does at one span port is what it does there alone. -/
theorem exists_retrainHeld_step (m : Fin 8) : ∃ t : State, t.spanView m = s.spanView m ∧
    (retrainHeld s).spanView m = (if (t.spx m).heldOver then startSpan t m.val else t).spanView m := by
  have he : Fin.ofNat 8 m.val = m := Fin.ofNat_val_eq_self m
  obtain ⟨t, ht, hs⟩ := exists_foldl_eq_step (fun t : State => t.spanView m)
    (f := fun t k => if (t.spx (Fin.ofNat 8 k)).heldOver then startSpan t k else t) (m := m.val) (l := List.range 8)
    (fun k hk hne t => by
      have hk8 : k < 8 := List.mem_range.1 hk
      have hkm : m ≠ Fin.ofNat 8 k := fun e => hne (by rw [e, Fin.val_ofNat, Nat.mod_eq_of_lt hk8])
      split
      · exact startSpan_spanView_ne hkm
      · rfl) List.nodup_range (List.mem_range.2 m.isLt) s
  refine ⟨t, ht, ?_⟩
  rw [retrainHeld, hs, he]

theorem retrainHeld_training {m : Fin 8} (hh : (s.spx m).heldOver = true) (hm : spanMayTrain s m.val = true)
    (hp : portState s (.span m) = lkDown) : portState (retrainHeld s) (.span m) = lkTraining := by
  obtain ⟨t, ht, hs⟩ := exists_retrainHeld_step (s := s) m
  rw [spx_of_spanView ht, if_pos hh] at hs
  refine (portState_of_spanView hs).trans (startSpan_training ?_ ?_)
  · rw [spanMayTrain_of_spanView ht, hm]
  · exact (portState_of_spanView ht).trans hp

theorem retrainHeld_notHeld {m : Fin 8} (hh : (s.spx m).heldOver = false) :
    portState (retrainHeld s) (.span m) = portState s (.span m) := by
  obtain ⟨t, ht, hs⟩ := exists_retrainHeld_step (s := s) m
  rw [spx_of_spanView ht, if_neg (by simp [hh])] at hs
  exact portState_of_spanView (hs.trans ht)

/-- The state in which the relock finds the span ports that were held over. -/
def relocked (s : State) : State :=
  let t := (((s.wb Reg.HB_CLKSTAT_REF_OK 0 true).wb Reg.HB_CLKSTAT_PLL_LOCK 0 true).wb Reg.HB_CLKSTAT_HOLDOVER 0 false).wb
    Reg.HB_CLKSTAT_HOLD_EXPIRED 0 false
  { t.lg LogKind.relock hubN [] with chip := { t.chip with holdAt := none } }

theorem exec_relock (hh : s.rb Reg.HB_CLKSTAT_HOLDOVER 0 = true) : exec .relock s = .next (retrainHeld (relocked s)) := by
  show execRelock s = _
  rw [execRelock, if_pos hh, locked, hh]
  rfl

theorem relocked_spanView (m : Fin 8) : (relocked s).spanView m = s.spanView m := by
  have hr : SameRegsBut [Reg.HB_CLKSTAT_REF_OK.id, Reg.HB_CLKSTAT_PLL_LOCK.id, Reg.HB_CLKSTAT_HOLDOVER.id,
      Reg.HB_CLKSTAT_HOLD_EXPIRED.id] s (relocked s) := by
    refine .trans (t := (((s.wb Reg.HB_CLKSTAT_REF_OK 0 true).wb Reg.HB_CLKSTAT_PLL_LOCK 0 true).wb
      Reg.HB_CLKSTAT_HOLDOVER 0 false).wb Reg.HB_CLKSTAT_HOLD_EXPIRED 0 false) ?_ (.of_regs rfl)
    exact ((SameRegsBut.wb (by decide)).trans (.wb (by decide))).trans (.wb (by decide)) |>.trans (.wb (by decide))
  rw [State.spanView, State.spanView, hr _ (by decide)]
  refine Prod.ext ?_ rfl
  exact hr Reg.LKH_STAT_STATE (by decide) ..

theorem retrainHeld_relocked_rd {F : Field} (h : F.id ≠ Reg.LKH_STAT_STATE.id) (u i j : Nat) :
    (retrainHeld (relocked s)).rd F u i j = (relocked s).rd F u i j :=
  retrainHeld_sameRegs F (by simpa using h) u i j

theorem exec_relock_holdover (hh : s.rb Reg.HB_CLKSTAT_HOLDOVER 0 = true) : ∃ t, exec .relock s = .next t ∧
    t.rb Reg.HB_CLKSTAT_HOLDOVER 0 = false ∧ t.rb Reg.HB_CLKSTAT_HOLD_EXPIRED 0 = false ∧
    t.rb Reg.HB_CLKSTAT_REF_OK 0 = true ∧ t.rb Reg.HB_CLKSTAT_PLL_LOCK 0 = true ∧
    t.rd Reg.HB_CLKSTAT_HOLD_SEC 0 = s.rd Reg.HB_CLKSTAT_HOLD_SEC 0 ∧ SameMemory s t ∧
    (∀ m : Fin 8, (s.spx m).heldOver = true → spanMayTrain s m.val = true → portState s (.span m) = lkDown →
      portState t (.span m) = lkTraining) ∧
    ∀ m : Fin 8, (s.spx m).heldOver = false → portState t (.span m) = portState s (.span m) := by
  have hx := exec_relock hh
  have hrd : ∀ (F : Field) (u i j : Nat), (relocked s).rd F u i j = ((((s.wb Reg.HB_CLKSTAT_REF_OK 0 true).wb
      Reg.HB_CLKSTAT_PLL_LOCK 0 true).wb Reg.HB_CLKSTAT_HOLDOVER 0 false).wb Reg.HB_CLKSTAT_HOLD_EXPIRED 0 false).rd F u i j :=
    fun F u i j => State.rd_congr (by rfl) F u i j
  have hspx : ∀ m, (relocked s).spx m = s.spx m := fun m => spx_of_spanView (relocked_spanView m)
  have hps : ∀ m, portState (relocked s) (.span m) = portState s (.span m) := fun m =>
    portState_of_spanView (relocked_spanView m)
  refine ⟨_, hx, ?_, ?_, ?_, ?_, ?_, sameMemory_of_exec hx (execRelock_mem s), fun m hm ht hp => ?_, fun m hm => ?_⟩
  case refine_6 =>
    exact retrainHeld_training (by rw [hspx, hm]) (by rw [spanMayTrain_of_spanView (relocked_spanView m), ht])
      (by rw [hps, hp])
  case refine_7 => rw [retrainHeld_notHeld (by rw [hspx, hm]), hps]
  all_goals simp (disch := decide) only [State.rb, retrainHeld_relocked_rd, hrd, State.wb, State.rd_wr_ne, State.rd_wr_same]
  all_goals decide

end Sys2Proof.Machine
end

section
/-! SUPPORT. The end of the holdover's 60 s: trained span ports go down (R51). -/

namespace Sys2Proof.Machine

variable {s : State}

theorem portDown_span_regs (n : Fin 8) : (portDown s (.span n)).regs =
    (((s.wr Reg.LKH_STAT_STATE 0 lkDown (8 + n.val)).wr Reg.LKH_STAT_TXW 0 3 (8 + n.val)).wr Reg.LKH_STAT_RXW 0 3
      (8 + n.val)).regs :=
  rfl

theorem portDown_span_state {n : Fin 8} (u i j : Nat) : (portDown s (.span n)).rd Reg.LKH_STAT_STATE u i j =
    (s.wr Reg.LKH_STAT_STATE 0 lkDown (8 + n.val)).rd Reg.LKH_STAT_STATE u i j := by
  rw [State.rd_congr (portDown_span_regs n), State.rd_wr_ne _ (by decide), State.rd_wr_ne _ (by decide)]

theorem portState_portDown_ne {m n : Fin 8} (h : m ≠ n) :
    portState (portDown s (.span n)) (.span m) = portState s (.span m) :=
  (portDown_span_state ..).trans (portState_wrP_ne h _)

theorem portState_portDown_same (m : Fin 8) : portState (portDown s (.span m)) (.span m) = lkDown :=
  (portDown_span_state ..).trans (portState_wrP_same ..)

theorem portDown_spx_ne {m n : Fin 8} (h : m ≠ n) : (portDown s (.span n)).spx m = s.spx m := by
  have hk : portKey (.span m) ≠ portKey (.span n) := by simp [portKey, Fin.val_inj, h]
  simp only [portDown, linkEnds, peerPort, List.foldl_cons, List.foldl_nil, State.spx, State.px_setPx_ne hk]
  rfl

/-- A span port that is held over when the holdover has lasted its time: a trained one goes down and is marked. -/
def holdSpan (t : State) (m : Fin 8) : State :=
  if portState t (.span m) ≠ lkUp ∧ portState t (.span m) ≠ lkRetrain then t
  else
    let t1 := portDown t (.span m)
    (t1.setSpx m { t1.spx m with heldOver := true }).lg LogKind.spanHeldOver hubN [m.val]

/-- A span port's state, and whether it is marked as held over. -/
def State.holdView (s : State) (m : Fin 8) : Nat × Bool := (portState s (.span m), (s.spx m).heldOver)

theorem portState_of_holdView {t : State} {m : Fin 8} {v : Nat × Bool} (h : t.holdView m = v) :
    portState t (.span m) = v.1 :=
  congrArg Prod.fst h

theorem heldOver_of_holdView {t : State} {m : Fin 8} {v : Nat × Bool} (h : t.holdView m = v) :
    (t.spx m).heldOver = v.2 :=
  congrArg Prod.snd h

theorem holdSpan_holdView_ne {m n : Fin 8} (h : m ≠ n) : (holdSpan s n).holdView m = s.holdView m := by
  unfold holdSpan
  split
  · rfl
  · exact Prod.ext (portState_portDown_ne h) (congrArg SpanX.heldOver ((State.spx_setSpx_ne h _).trans (portDown_spx_ne h)))

theorem holdSpan_trained {m : Fin 8} (h : portState s (.span m) = lkUp ∨ portState s (.span m) = lkRetrain) :
    (holdSpan s m).holdView m = (lkDown, true) := by
  have hn : ¬(portState s (.span m) ≠ lkUp ∧ portState s (.span m) ≠ lkRetrain) := fun k => h.elim k.1 k.2
  rw [holdSpan, if_neg hn]
  exact Prod.ext (portState_portDown_same m) (congrArg SpanX.heldOver (State.spx_setSpx_same ..))

theorem holdSpan_untrained {m : Fin 8} (h : portState s (.span m) ≠ lkUp) (k : portState s (.span m) ≠ lkRetrain) :
    holdSpan s m = s :=
  if_pos ⟨h, k⟩

/-- What the end of the holdover does at one span port is what it does there alone. -/
theorem exists_holdSpan_step (m : Fin 8) : ∃ t : State, t.holdView m = s.holdView m ∧
    ((List.finRange 8).foldl holdSpan s).holdView m = (holdSpan t m).holdView m :=
  exists_foldl_eq_step (fun t : State => t.holdView m) (f := holdSpan) (l := List.finRange 8)
    (fun _ _ hne _ => holdSpan_holdView_ne (Ne.symm hne)) (List.nodup_finRange 8) (List.mem_finRange m) s

theorem holdSpan_sameRegs (m : Fin 8) :
    SameRegsBut [Reg.LKH_STAT_STATE.id, Reg.LKH_STAT_TXW.id, Reg.LKH_STAT_RXW.id] s (holdSpan s m) := by
  unfold holdSpan
  split
  · exact .refl
  · refine SameRegsBut.trans (t := ((s.wr Reg.LKH_STAT_STATE 0 lkDown (8 + m.val)).wr Reg.LKH_STAT_TXW 0 3 (8 + m.val)).wr
      Reg.LKH_STAT_RXW 0 3 (8 + m.val)) ?_ (.of_regs rfl)
    exact ((SameRegsBut.wr (by decide)).trans (.wr (by decide))).trans (.wr (by decide))

/-- The state in which the end of the holdover finds the span ports. -/
def expiredState (s : State) : State :=
  (s.wb Reg.HB_CLKSTAT_HOLD_EXPIRED 0 true).wr Reg.HB_CLKSTAT_HOLD_SEC 0 (max 60 (s.rd Reg.HB_CLKSTAT_HOLD_SEC 0))

theorem exec_holdExpired (hh : s.rb Reg.HB_CLKSTAT_HOLDOVER 0 = true) (he : s.rb Reg.HB_CLKSTAT_HOLD_EXPIRED 0 = false) :
    exec .holdExpired s = .next (signal ((List.finRange 8).foldl holdSpan (expiredState s)) 68) := by
  show execHoldExpired s = _
  rw [execHoldExpired, hh, he, if_neg (by decide)]
  rfl

theorem expiredState_holdView (m : Fin 8) : (expiredState s).holdView m = s.holdView m :=
  Prod.ext ((State.rd_wr_ne _ (by decide) ..).trans (State.rd_wr_ne _ (by decide) ..)) rfl

theorem signal_holdView (t : State) (v : Nat) (m : Fin 8) : (signal t v).holdView m = t.holdView m := by
  unfold signal
  split
  · rfl
  · split <;> rfl

theorem exec_holdExpired_holdover (hh : s.rb Reg.HB_CLKSTAT_HOLDOVER 0 = true)
    (he : s.rb Reg.HB_CLKSTAT_HOLD_EXPIRED 0 = false) : ∃ t, exec .holdExpired s = .next t ∧
      t.rb Reg.HB_CLKSTAT_HOLD_EXPIRED 0 = true ∧ SameMemory s t ∧ ∀ m : Fin 8,
        (portState s (.span m) = lkUp ∨ portState s (.span m) = lkRetrain →
          portState t (.span m) = lkDown ∧ (t.spx m).heldOver = true) ∧
        (portState s (.span m) ≠ lkUp → portState s (.span m) ≠ lkRetrain →
          portState t (.span m) = portState s (.span m)) := by
  have hx := exec_holdExpired hh he
  refine ⟨_, hx, ?_, sameMemory_of_exec hx (execHoldExpired_mem s), fun m => ?_⟩
  · have hf := SameRegsBut.foldl (fun t : State => holdSpan_sameRegs (s := t)) (List.finRange 8) (expiredState s)
    rw [State.rb, State.rd_congr (signal_regs _ _), hf _ (by decide), expiredState, State.rd_wr_ne _ (by decide), State.wb,
      State.rd_wr_same]
    rfl
  · obtain ⟨t, ht, hs⟩ := exists_holdSpan_step (s := expiredState s) m
    have hv : t.holdView m = s.holdView m := ht.trans (expiredState_holdView m)
    have hp : portState t (.span m) = portState s (.span m) := portState_of_holdView hv
    have hf := (signal_holdView _ 68 m).trans hs
    refine ⟨fun h => ?_, fun hu hr => ?_⟩
    · have hd := hf.trans (holdSpan_trained (by rwa [hp]))
      exact ⟨portState_of_holdView hd, heldOver_of_holdView hd⟩
    · rw [holdSpan_untrained (by rwa [hp]) (by rwa [hp]), hv] at hf
      exact portState_of_holdView hf

end Sys2Proof.Machine
end

section
/-! SUPPORT. Requests and changes of ratio (R57, R60, R502, R503). -/

namespace Sys2Proof.Machine

variable {s : State} {g : Gather}

theorem exec_aclkRequest_undefined (h : gatherDefined s g = false) (r : Requester) (code : BitVec 2) :
    exec (.aclkRequest r g code) s = .next s := by
  show execAclkRequest r g code s = _
  simp [execAclkRequest, h]

theorem exec_aclkRequest_ignored {r : Requester} (h : gatherDefined s g = true)
    (hr : mayWrite .lehr r .die g.die.val = false) (code : BitVec 2) : exec (.aclkRequest r g code) s =
      .next (s.lg LogKind.ignoredWrite (dieN g.die.val) [Reg.LH_GACLK_REQ.id, g.idx.val]) := by
  show execAclkRequest r g code s = _
  simp [execAclkRequest, h, hr]

/-- A ratio requested, cut to the gather's limits. -/
def clampedRatio (s : State) (g : Gather) (code : BitVec 2) : Nat :=
  max (s.rd Reg.LH_GACLK_CEIL g.die.val g.idx.val) (min (s.rd Reg.LH_GACLK_FLOOR g.die.val g.idx.val) code.toNat)

/-- The state with a request that was cut entered in the log. -/
def logClamped (s : State) (g : Gather) (code : BitVec 2) : State :=
  if clampedRatio s g code = code.toNat then s
  else s.lg LogKind.clamped (dieN g.die.val) [Reg.LH_GACLK_REQ.id, code.toNat, clampedRatio s g code]

theorem exec_aclkRequest {r : Requester} (h : gatherDefined s g = true) (hr : mayWrite .lehr r .die g.die.val = true)
    (code : BitVec 2) :
    exec (.aclkRequest r g code) s = .next (setReq (logClamped s g code) g (clampedRatio s g code)) := by
  show execAclkRequest r g code s = _
  rw [execAclkRequest]
  simp only [h, hr]
  rfl

theorem setReq_req (v : Nat) : (setReq s g v).rd Reg.LH_GACLK_REQ g.die.val g.idx.val = v % 4 := by
  rw [setReq, updVset_sameRegs _ _ _ (by decide), State.wb, State.rd_wr_ne _ (by decide), State.rd_wr_same]
  rfl

theorem setReq_pending (v : Nat) : (setReq s g v).rb Reg.LH_GACLK_PENDING g.die.val g.idx.val =
    (v != s.rd Reg.LH_GACLK_APPLIED g.die.val g.idx.val) := by
  rw [setReq, (updVset_sameRegs _ _).rb (by decide), State.rb_wb_same _ _ _ _ _ _ (by decide)]

theorem setReq_log (v : Nat) : (setReq s g v).log = s.log :=
  updVset_log ..

theorem logClamped_rd (code : BitVec 2) (F : Field) (u i j : Nat) : (logClamped s g code).rd F u i j = s.rd F u i j := by
  unfold logClamped
  split <;> rfl

theorem exec_aclkRequest_clamped {r : Requester} (h : gatherDefined s g = true)
    (hr : mayWrite .lehr r .die g.die.val = true) (code : BitVec 2) : ∃ t, exec (.aclkRequest r g code) s = .next t ∧
      t.rd Reg.LH_GACLK_REQ g.die.val g.idx.val = clampedRatio s g code % 4 ∧
      t.rb Reg.LH_GACLK_PENDING g.die.val g.idx.val =
        (clampedRatio s g code != s.rd Reg.LH_GACLK_APPLIED g.die.val g.idx.val) ∧ SameMemory s t ∧
      (clampedRatio s g code = code.toNat → t.log = s.log) ∧
      (clampedRatio s g code ≠ code.toNat → t.log.length = s.log.length + 1) := by
  have hx := exec_aclkRequest h hr code
  refine ⟨_, hx, setReq_req _, ?_, sameMemory_of_exec hx (execAclkRequest_mem s r g code), fun hv => ?_, fun hv => ?_⟩
  · rw [setReq_pending, logClamped_rd]
  · rw [setReq_log, logClamped, if_pos hv]
  · rw [setReq_log, logClamped, if_neg hv]
    exact List.length_append

/-- A change of ratio begins: it is pending, the gather stands at a phase's boundary with none begun, its die has a clock, and
VDDL supports the new ratio. -/
def ratioMayStart (s : State) (g : Gather) : Prop :=
  gatherDefined s g = true ∧ s.rb Reg.LH_GACLK_PENDING g.die.val g.idx.val = true ∧ (s.gx g).inPhase = false ∧
    (s.gx g).changed = false ∧ (s.gx g).stop = none ∧ s.rb Reg.BT_CLKSTAT_STOPPED g.die.val = false ∧
    (s.rd Reg.LH_GACLK_APPLIED g.die.val g.idx.val ≤ s.rd Reg.LH_GACLK_REQ g.die.val g.idx.val ∨
      vminOf s g.die.val (s.rd Reg.LH_GACLK_REQ g.die.val g.idx.val) ≤ s.rd Reg.LH_VDDL_VSET g.die.val)

theorem exec_aclkRatioChange_starts (h : ratioMayStart s g) : exec (.aclkRatioChange g) s =
    .next (startStop s g (s.rd Reg.LH_GACLK_REQ g.die.val g.idx.val)) := by
  obtain ⟨hd, hp, hi, hc, hs, hk, hv⟩ := h
  show execAclkRatioChange g s = _
  rw [execAclkRatioChange]
  simp only [hd, hp, hi, hc, hs, hk]
  rw [if_pos]
  simpa using hv

theorem exec_aclkRatioChange_waits (h : ¬ratioMayStart s g) : exec (.aclkRatioChange g) s = .next s := by
  show execAclkRatioChange g s = _
  rw [execAclkRatioChange, if_neg]
  intro hc
  refine h ?_
  simpa [ratioMayStart, and_assoc] using hc

/-- The cores of a gather that have ACLK. -/
def clockedCores (s : State) (g : Gather) : List CoreId :=
  (gatherCores s g).filter fun c =>
    corePresent s c && !(s.cx c).dead && decide (s.rd Reg.LH_CSTATE_STATE (coreU c) < 2)

theorem startStop_none {code : Nat} (h : clockedCores s g = []) : startStop s g code = finishStop s g code := by
  have he : (clockedCores s g).isEmpty = true := by simp [h]
  exact if_pos he

theorem finishStop_inForce : (finishStop s g (s.rd Reg.LH_GACLK_REQ g.die.val g.idx.val)).rd Reg.LH_GACLK_APPLIED g.die.val
      g.idx.val = s.rd Reg.LH_GACLK_REQ g.die.val g.idx.val % 4 ∧
    (finishStop s g (s.rd Reg.LH_GACLK_REQ g.die.val g.idx.val)).rb Reg.LH_GACLK_PENDING g.die.val g.idx.val = false ∧
    ((finishStop s g (s.rd Reg.LH_GACLK_REQ g.die.val g.idx.val)).gx g).changed = true := by
  refine ⟨?_, ?_, ?_⟩
  · rw [finishStop, updVset_sameRegs _ _ _ (by decide), State.bump, State.rd_wr_ne _ (by decide), State.wb,
      State.rd_wr_ne _ (by decide), State.rd_wr_same]
    rfl
  · rw [finishStop, (updVset_sameRegs _ _).rb (by decide), State.bump, State.rb_wr_ne _ (by decide),
      State.rb_wb_same _ _ _ _ _ _ (by decide)]
    exact bne_self_eq_false ..
  · rw [finishStop, updVset_gx]
    exact congrArg GatherX.changed (State.gx_setGx_same ..)

/-- The state in which a gather's cores are told of a new ratio. -/
def stoppingState (s : State) (g : Gather) (code : Nat) : State :=
  (s.setGx g { s.gx g with stop := some (code, (clockedCores s g).map fun c => c.lc.val) }).wb Reg.LH_GACLK_STOPPING
    g.die.val true g.idx.val

theorem startStop_some {code : Nat} (h : clockedCores s g ≠ []) : startStop s g code =
    (clockedCores s g).foldl (fun t c => t.send (.dieNode g.die) (.core c) (.ctrl (.ratio g))) (stoppingState s g code) := by
  have he : ¬(clockedCores s g).isEmpty = true := by simpa using h
  exact if_neg he

theorem foldl_send_out (a : NodeId) (p : Packet) (l : List CoreId) (t : State) :
    (l.foldl (fun t c => t.send a (.core c) p) t).out = t.out ++ l.map fun c => .packet a (.core c) p := by
  induction l generalizing t with
  | nil => simp
  | cons c r ih => rw [List.foldl_cons, ih, List.map_cons, List.append_cons]; rfl

theorem startStop_asks {code : Nat} (h : clockedCores s g ≠ []) :
    (startStop s g code).rb Reg.LH_GACLK_STOPPING g.die.val g.idx.val = true ∧
      ((startStop s g code).gx g).stop = some (code, (clockedCores s g).map fun c => c.lc.val) ∧
      (startStop s g code).out =
        s.out ++ (clockedCores s g).map fun c => .packet (.dieNode g.die) (.core c) (.ctrl (.ratio g)) := by
  rw [startStop_some h]
  refine ⟨?_, ?_, foldl_send_out ..⟩
  · rw [foldl_fixes (fun t : State => t.rb Reg.LH_GACLK_STOPPING g.die.val g.idx.val) _ fun _ _ => by rfl]
    exact State.rb_wb_same _ _ _ _ _ _ (by decide)
  · rw [foldl_fixes (fun t : State => t.gx g) _ fun _ _ => by rfl]
    exact congrArg GatherX.stop (State.gx_setGx_same ..)

end Sys2Proof.Machine
end

section
/-! SUPPORT. Margin samples: what they write, what they raise, and what CRZOFF becomes (R64, R510). -/

namespace Sys2Proof.Machine

variable {s u : State} {d : DieId}

theorem vsetRaw_congr {ids : List Nat} {t : State} (h : SameRegsBut ids s t)
    (hids : ∀ F ∈ [Reg.PZ_GATHER_VALID, Reg.LH_GACLK_APPLIED, Reg.LH_GACLK_REQ, Reg.LH_VMIN_VMIN0, Reg.LH_VMIN_VMIN1,
      Reg.LH_VMIN_VMIN2, Reg.LH_VMIN_VMIN3, Reg.LH_VDDL_BOOST], F.id ∉ ids) (d : DieId) (v : Nat) :
    vsetRaw t d v = vsetRaw s d v := by
  simp only [List.forall_mem_cons] at hids
  obtain ⟨hv, ha, hr, h0, h1, h2, h3, hb, -⟩ := hids
  have hg : gathersOn t d = gathersOn s d := List.filter_congr fun g _ => h.rb hv ..
  have hm : ∀ r, vminOf t d.val r = vminOf s d.val r := fun r => by
    simp only [vminOf, h _ h0, h _ h1, h _ h2, h _ h3]
  have hf : ∀ g, fastRatio t g = fastRatio s g := fun g => by simp only [fastRatio, h _ ha, h _ hr]
  simp only [vsetRaw, hg, hm, hf, h _ hb]

theorem raiseCrz_sameRegs {ids : List Nat} (hu : SameRegsBut ids s u) (hc : Reg.LH_VDDL_CRZOFF.id ∈ ids)
    (hv : Reg.LH_VDDL_VSET.id ∈ ids) (k : Nat) : SameRegsBut ids s ((raiseCrz s d k).getD u) := by
  unfold raiseCrz
  extract_lets now v
  split
  · exact hu
  · exact (SameRegsBut.wr hc).trans ((updVset_sameRegs _ _).mono (by simpa using hv))

theorem raiseCrz_crzoff {k : Nat} (hu : u.rd Reg.LH_VDDL_CRZOFF d.val = s.rd Reg.LH_VDDL_CRZOFF d.val)
    (hv : vsetRaw s d (min 6 (s.rd Reg.LH_VDDL_CRZOFF d.val + k)) ≤ s.rd Reg.LH_VMAX_VMAX d.val) :
    ((raiseCrz s d k).getD u).rd Reg.LH_VDDL_CRZOFF d.val = min 6 (s.rd Reg.LH_VDDL_CRZOFF d.val + k) := by
  unfold raiseCrz
  extract_lets now v
  split
  case isTrue h => exact hu.trans (h.resolve_right (Nat.not_lt.2 hv)).symm
  case isFalse =>
    have h8 : v < 2 ^ Reg.LH_VDDL_CRZOFF.w := Nat.lt_of_le_of_lt (Nat.min_le_left ..) (by decide)
    rw [Option.getD_some, updVset_sameRegs _ _ _ (by decide), State.rd_wr_same, Nat.mod_eq_of_lt h8]

variable {n : Fin 16} {a b : BitVec 4}

/-- The state with the margins of a sample stored. -/
def marginStored (s : State) (d : DieId) (n : Fin 16) (a b : BitVec 4) : State :=
  (s.wr Reg.LH_CRZ_MARGIN_A d.val a.toNat n.val).wr Reg.LH_CRZ_MARGIN_N d.val b.toNat n.val

/-- The state with a margin's warning raised, counted and noted; the note says whether the margin is critical. -/
def marginWarned (s : State) (d : DieId) (n : Fin 16) (a b : BitVec 4) (crit : Bool) : State :=
  noteAt ((((marginStored s d n a b).wb Reg.LH_CRZ_WARN d.val true n.val).bump Reg.LH_CRZ_COUNT d.val 1 n.val).lg
    LogKind.margin (dieN d.val) [n.val, min a.toNat b.toNat, b2n crit]) (.dieNode d) 0x27
    [n.val, min a.toNat b.toNat, b2n crit]

/-- What a critical margin does to its state: CRIT, CRZOFF by two, and its island slowed. -/
def marginCritical (t : State) (d : DieId) (n : Fin 16) : State :=
  let t1 := t.wb Reg.LH_CRZ_CRIT d.val true n.val
  slowIsland ((raiseCrz t1 d 2).getD t1) d n.val

theorem exec_marginSample_quiet (hw : s.rd Reg.LH_CRZ_WARN_LVL d.val n.val ≤ min a.toNat b.toNat)
    (hc : s.rd Reg.LH_CRZ_CRIT_LVL d.val n.val ≤ min a.toNat b.toNat) :
    exec (.marginSample d n a b) s = .next (marginStored s d n a b) := by
  show execMarginSample d n a b s = _
  rw [execMarginSample, decide_eq_false (Nat.not_lt.2 hw), decide_eq_false (Nat.not_lt.2 hc)]
  rfl

theorem exec_marginSample_warn (hw : min a.toNat b.toNat < s.rd Reg.LH_CRZ_WARN_LVL d.val n.val)
    (hc : s.rd Reg.LH_CRZ_CRIT_LVL d.val n.val ≤ min a.toNat b.toNat) : exec (.marginSample d n a b) s =
      .next ((raiseCrz (marginWarned s d n a b false) d 1).getD (slowIsland (marginWarned s d n a b false) d n.val)) := by
  show execMarginSample d n a b s = _
  rw [execMarginSample, decide_eq_true hw, decide_eq_false (Nat.not_lt.2 hc)]
  rfl

theorem exec_marginSample_critical (hc : min a.toNat b.toNat < s.rd Reg.LH_CRZ_CRIT_LVL d.val n.val) :
    exec (.marginSample d n a b) s = .next (marginCritical
      (if min a.toNat b.toNat < s.rd Reg.LH_CRZ_WARN_LVL d.val n.val then marginWarned s d n a b true
        else marginStored s d n a b) d n) := by
  show execMarginSample d n a b s = _
  rw [execMarginSample, decide_eq_true hc]
  by_cases hw : min a.toNat b.toNat < s.rd Reg.LH_CRZ_WARN_LVL d.val n.val
  · rw [decide_eq_true hw, if_pos hw]
    rfl
  · rw [decide_eq_false hw, if_neg hw]
    rfl

/-- The fields that a margin sample itself writes. -/
def marginIds : List Nat :=
  [Reg.LH_CRZ_MARGIN_A.id, Reg.LH_CRZ_MARGIN_N.id, Reg.LH_CRZ_WARN.id, Reg.LH_CRZ_COUNT.id, Reg.LH_CRZ_CRIT.id]

/-- The fields that the answer to a low margin writes. -/
def marginEffectIds : List Nat := Reg.LH_VDDL_CRZOFF.id :: requestIds

theorem marginStored_sameRegs : SameRegsBut marginIds s (marginStored s d n a b) :=
  (SameRegsBut.wr (by decide)).trans (.wr (by decide))

theorem marginWarned_regs (c : Bool) : (marginWarned s d n a b c).regs =
    (((marginStored s d n a b).wb Reg.LH_CRZ_WARN d.val true n.val).bump Reg.LH_CRZ_COUNT d.val 1 n.val).regs :=
  rfl

theorem marginWarned_sameRegs (c : Bool) : SameRegsBut marginIds s (marginWarned s d n a b c) :=
  marginStored_sameRegs.trans ((SameRegsBut.wb (by decide)).trans ((SameRegsBut.bump (by decide)).trans
    (.of_regs (marginWarned_regs c))))

theorem marginWarned_warn (c : Bool) : (marginWarned s d n a b c).rb Reg.LH_CRZ_WARN d.val n.val = true := by
  rw [State.rb, State.rd_congr (marginWarned_regs c), State.bump, State.rd_wr_ne _ (by decide)]
  exact State.rb_wb_same _ _ _ _ _ _ (by decide)

theorem marginWarned_count (c : Bool) : (marginWarned s d n a b c).rd Reg.LH_CRZ_COUNT d.val n.val =
    satAdd 8 (s.rd Reg.LH_CRZ_COUNT d.val n.val) 1 % 256 := by
  rw [State.rd_congr (marginWarned_regs c), State.bump, State.rd_wr_same, State.wb, State.rd_wr_ne _ (by decide),
    marginStored, State.rd_wr_ne _ (by decide), State.rd_wr_ne _ (by decide)]
  rfl

theorem marginCritical_sameRegs (t : State) :
    SameRegsBut (Reg.LH_CRZ_CRIT.id :: marginEffectIds) t (marginCritical t d n) :=
  (SameRegsBut.wb (by decide)).trans ((raiseCrz_sameRegs .refl (by decide) (by decide) 2).trans
    ((slowIsland_sameRegs _ _ _).mono (by decide)))

theorem marginCritical_crit (t : State) : (marginCritical t d n).rb Reg.LH_CRZ_CRIT d.val n.val = true := by
  have hr := raiseCrz_sameRegs (s := t.wb Reg.LH_CRZ_CRIT d.val true n.val) (d := d) (ids := marginEffectIds) .refl
    (by decide) (by decide) 2
  rw [marginCritical, (slowIsland_sameRegs _ _ _).rb (by decide), hr.rb (by decide)]
  exact State.rb_wb_same _ _ _ _ _ _ (by decide)

theorem marginCritical_crzoff {t : State} (ht : SameRegsBut marginIds s t)
    (hv : vsetRaw s d (min 6 (s.rd Reg.LH_VDDL_CRZOFF d.val + 2)) ≤ s.rd Reg.LH_VMAX_VMAX d.val) :
    (marginCritical t d n).rd Reg.LH_VDDL_CRZOFF d.val = min 6 (s.rd Reg.LH_VDDL_CRZOFF d.val + 2) := by
  have h1 : SameRegsBut marginIds s (t.wb Reg.LH_CRZ_CRIT d.val true n.val) := ht.trans (.wb (by decide))
  have hn : (t.wb Reg.LH_CRZ_CRIT d.val true n.val).rd Reg.LH_VDDL_CRZOFF d.val = s.rd Reg.LH_VDDL_CRZOFF d.val :=
    h1 _ (by decide) ..
  rw [marginCritical, slowIsland_sameRegs _ _ _ _ (by decide), raiseCrz_crzoff rfl, hn]
  rwa [vsetRaw_congr h1 (by decide), hn, h1 _ (by decide)]

theorem exec_marginSample_warns (hw : min a.toNat b.toNat < s.rd Reg.LH_CRZ_WARN_LVL d.val n.val) :
    ∃ t, exec (.marginSample d n a b) s = .next t ∧ SameMemory s t ∧ t.rb Reg.LH_CRZ_WARN d.val n.val = true ∧
      t.rd Reg.LH_CRZ_COUNT d.val n.val = satAdd 8 (s.rd Reg.LH_CRZ_COUNT d.val n.val) 1 % 256 ∧
      (s.rd Reg.LH_CRZ_CRIT_LVL d.val n.val ≤ min a.toNat b.toNat →
        vsetRaw s d (min 6 (s.rd Reg.LH_VDDL_CRZOFF d.val + 1)) ≤ s.rd Reg.LH_VMAX_VMAX d.val →
        t.rd Reg.LH_VDDL_CRZOFF d.val = min 6 (s.rd Reg.LH_VDDL_CRZOFF d.val + 1)) := by
  by_cases hc : s.rd Reg.LH_CRZ_CRIT_LVL d.val n.val ≤ min a.toNat b.toNat
  · have hx := exec_marginSample_warn hw hc
    have h2 := marginWarned_sameRegs (s := s) (d := d) (n := n) (a := a) (b := b) false
    have ht := raiseCrz_sameRegs (d := d) (ids := marginEffectIds)
      ((slowIsland_sameRegs (marginWarned s d n a b false) d n.val).mono (by decide)) (by decide) (by decide) 1
    refine ⟨_, hx, sameMemory_of_exec hx (execMarginSample_mem ..), ?_, ?_, fun _ hv => ?_⟩
    · rw [ht.rb (by decide), marginWarned_warn]
    · rw [ht _ (by decide), marginWarned_count]
    · have hn : (marginWarned s d n a b false).rd Reg.LH_VDDL_CRZOFF d.val = s.rd Reg.LH_VDDL_CRZOFF d.val :=
        h2 _ (by decide) ..
      rw [raiseCrz_crzoff (slowIsland_sameRegs _ _ _ _ (by decide) ..), hn]
      rwa [vsetRaw_congr h2 (by decide), hn, h2 _ (by decide)]
  · have hx := exec_marginSample_critical (Nat.not_le.1 hc)
    rw [if_pos hw] at hx
    have ht := marginCritical_sameRegs (d := d) (n := n) (marginWarned s d n a b true)
    refine ⟨_, hx, sameMemory_of_exec hx (execMarginSample_mem ..), ?_, ?_, fun h => absurd h hc⟩
    · rw [ht.rb (by decide), marginWarned_warn]
    · rw [ht _ (by decide), marginWarned_count]

theorem exec_marginSample_crits (hc : min a.toNat b.toNat < s.rd Reg.LH_CRZ_CRIT_LVL d.val n.val) :
    ∃ t, exec (.marginSample d n a b) s = .next t ∧ SameMemory s t ∧ t.rb Reg.LH_CRZ_CRIT d.val n.val = true ∧
      (vsetRaw s d (min 6 (s.rd Reg.LH_VDDL_CRZOFF d.val + 2)) ≤ s.rd Reg.LH_VMAX_VMAX d.val →
        t.rd Reg.LH_VDDL_CRZOFF d.val = min 6 (s.rd Reg.LH_VDDL_CRZOFF d.val + 2)) := by
  have hx := exec_marginSample_critical hc
  refine ⟨_, hx, sameMemory_of_exec hx (execMarginSample_mem ..), marginCritical_crit _, marginCritical_crzoff ?_⟩
  split
  · exact marginWarned_sameRegs true
  · exact marginStored_sameRegs

end Sys2Proof.Machine
end

section
/-! SUPPORT. Margin levels, the decay of CRZOFF, and sense pairs (R64, R58). -/

namespace Sys2Proof.Machine

variable {s : State} {d : DieId}

theorem exec_crzLevelWrite_set {n : Fin 16} {warn crit : BitVec 4} (h : crit.toNat < warn.toNat) (r : Requester) :
    exec (.crzLevelWrite r d n warn crit) s =
      .next ((s.wr Reg.LH_CRZ_WARN_LVL d.val warn.toNat n.val).wr Reg.LH_CRZ_CRIT_LVL d.val crit.toNat n.val) := by
  show execCrzLevelWrite r d n warn crit s = _
  rw [execCrzLevelWrite, decide_eq_false (Nat.not_le.2 h)]
  rfl

theorem exec_crzLevelWrite_ignored {n : Fin 16} {warn crit : BitVec 4} (h : warn.toNat ≤ crit.toNat) (r : Requester) :
    exec (.crzLevelWrite r d n warn crit) s =
      .next (s.lg LogKind.ignoredWrite (dieN d.val) [Reg.LH_CRZ_WARN_LVL.id, n.val]) := by
  show execCrzLevelWrite r d n warn crit s = _
  rw [execCrzLevelWrite, decide_eq_true h]
  rfl

theorem exec_crzoffDecay : ∃ t, exec (.crzoffDecay d) s = .next t ∧
    t.rd Reg.LH_VDDL_CRZOFF d.val = (s.rd Reg.LH_VDDL_CRZOFF d.val - 1) % 8 ∧ SameMemory s t := by
  have hx : exec (.crzoffDecay d) s = .next (updVset (s.wr Reg.LH_VDDL_CRZOFF d.val (s.rd Reg.LH_VDDL_CRZOFF d.val - 1)) d) :=
    rfl
  refine ⟨_, hx, ?_, sameMemory_of_exec hx (execCrzoffDecay_mem s d)⟩
  rw [updVset_sameRegs _ _ _ (by decide), State.rd_wr_same]
  rfl

/-- Taking a set bit off a value of four bits leaves one of four bits, empty when that bit stood alone. -/
theorem sub_two_pow_of_bit (v : Fin 16) (f : Fin 4) (h : bit v.val f.val = true) :
    (v.val - 2 ^ f.val) % 16 = v.val - 2 ^ f.val ∧ (v.val - 2 ^ f.val == 0) = (v.val == 2 ^ f.val) := by
  revert v f
  decide

theorem exec_senseInvalid_unset {f : Fin 4} (h : bit (s.rd Reg.LH_VDDL_SENSEOK d.val) f.val = false) :
    exec (.senseInvalid d f) s = .next s := by
  show execSenseInvalid d f s = _
  rw [execSenseInvalid, h]
  rfl

/-- The state with a sense pair left out of the measure. -/
def senseExcluded (s : State) (d : DieId) (f : Fin 4) : State :=
  (s.wr Reg.LH_VDDL_SENSEOK d.val (s.rd Reg.LH_VDDL_SENSEOK d.val - 2 ^ f.val)).wb Reg.LH_VDDL_LOCAL d.val
    (s.rd Reg.LH_VDDL_SENSEOK d.val - 2 ^ f.val == 0)

theorem exec_senseInvalid_set {f : Fin 4} (h : bit (s.rd Reg.LH_VDDL_SENSEOK d.val) f.val = true) :
    exec (.senseInvalid d f) s = .next ((senseExcluded s d f).lg LogKind.senseInvalid (dieN d.val) [f.val]) := by
  show execSenseInvalid d f s = _
  rw [execSenseInvalid, h]
  rfl

theorem exec_senseInvalid_excludes {f : Fin 4} (h : bit (s.rd Reg.LH_VDDL_SENSEOK d.val) f.val = true)
    (hv : s.rd Reg.LH_VDDL_SENSEOK d.val < 16) : ∃ t, exec (.senseInvalid d f) s = .next t ∧
      t.rd Reg.LH_VDDL_SENSEOK d.val = s.rd Reg.LH_VDDL_SENSEOK d.val - 2 ^ f.val ∧
      t.rb Reg.LH_VDDL_LOCAL d.val = (s.rd Reg.LH_VDDL_SENSEOK d.val == 2 ^ f.val) := by
  obtain ⟨hlt, hz⟩ := sub_two_pow_of_bit ⟨_, hv⟩ f h
  refine ⟨_, exec_senseInvalid_set h, ?_, ?_⟩
  · exact (State.rd_wb_ne (by decide) ..).trans ((State.rd_wr_same ..).trans hlt)
  · exact (State.rb_wb_same _ _ _ _ _ _ (by decide)).trans hz

theorem bit_lor_two_pow (v : Nat) (f : Fin 4) : bit ((v ||| 2 ^ f.val) % 16) f.val = true := by
  have ht : Nat.testBit ((v ||| 2 ^ f.val) % 2 ^ 4) f.val = true := by
    rw [Nat.testBit_mod_two_pow, Nat.testBit_or, Nat.testBit_two_pow_self]
    simp
  rwa [Nat.testBit_eq_decide_div_mod_eq] at ht

theorem exec_sensePairValid (f : Fin 4) : ∃ t, exec (.sensePairValid d f) s = .next t ∧
    bit (t.rd Reg.LH_VDDL_SENSEOK d.val) f.val = true ∧ t.rb Reg.LH_VDDL_LOCAL d.val = false := by
  refine ⟨_, rfl, ?_, State.rb_wb_same _ _ _ _ _ _ (by decide)⟩
  rw [State.rd_wb_ne (by decide), State.rd_wr_same]
  exact bit_lor_two_pow ..

end Sys2Proof.Machine
end

section
/-! O50: the module reference, requests and changes of ratio, margins and sense pairs. -/

namespace Sys2Proof.Machine

variable {s : State}

theorem not_ratioMayStart {g : Gather} (h : gatherDefined s g = false ∨
      s.rb Reg.LH_GACLK_PENDING g.die.val g.idx.val = false ∨ (s.gx g).inPhase = true ∨ (s.gx g).changed = true ∨
      (s.gx g).stop.isSome = true ∨ s.rb Reg.BT_CLKSTAT_STOPPED g.die.val = true ∨
      (s.rd Reg.LH_GACLK_REQ g.die.val g.idx.val < s.rd Reg.LH_GACLK_APPLIED g.die.val g.idx.val ∧
        s.rd Reg.LH_VDDL_VSET g.die.val < vminOf s g.die.val (s.rd Reg.LH_GACLK_REQ g.die.val g.idx.val))) :
    ¬ratioMayStart s g := by
  rintro ⟨hd, hp, hi, hc, hs, hk, hv⟩
  simp only [hd, hp, hi, hc, hs, hk, Option.isSome_none, Bool.true_eq_false, Bool.false_eq_true, false_or] at h
  omega

/-- What a change of ratio that begins leaves: the ratio in force where no core has ACLK, else its cores asked. -/
theorem exec_aclkRatioChange_effect {g : Gather} (h : ratioMayStart s g) : ∃ t, exec (.aclkRatioChange g) s = .next t ∧
    SameMemory s t ∧
    (clockedCores s g = [] →
      t.rd Reg.LH_GACLK_APPLIED g.die.val g.idx.val = s.rd Reg.LH_GACLK_REQ g.die.val g.idx.val % 4 ∧
      t.rb Reg.LH_GACLK_PENDING g.die.val g.idx.val = false ∧ (t.gx g).changed = true) ∧
    (clockedCores s g ≠ [] → t.rb Reg.LH_GACLK_STOPPING g.die.val g.idx.val = true ∧
      (t.gx g).stop = some (s.rd Reg.LH_GACLK_REQ g.die.val g.idx.val, (clockedCores s g).map fun c => c.lc.val) ∧
      t.out = s.out ++ (clockedCores s g).map fun c => .packet (.dieNode g.die) (.core c) (.ctrl (.ratio g))) := by
  have hx := exec_aclkRatioChange_starts h
  refine ⟨_, hx, sameMemory_of_exec hx (execAclkRatioChange_mem s g), fun hn => ?_, startStop_asks⟩
  rw [startStop_none hn]
  exact finishStop_inForce

/-- Settles O50: each command's equation or effect, proved above by its own lemmas. -/
theorem referenceRatiosAndMargins : Obligations.ReferenceRatiosAndMargins := by
  unfold Obligations.ReferenceRatiosAndMargins
  intro d s
  refine ⟨fun _ => rfl, exec_refLost_locked, fun h => ⟨exec_relock_idle h, exec_holdExpired_idle h⟩,
    fun h => ⟨exec_refLost_holdover h, exec_relock_holdover h, exec_holdExpired_holdover h⟩,
    fun i r code => ⟨fun h => exec_aclkRequest_undefined h r code, fun h hr => exec_aclkRequest_ignored h hr code, ?_⟩,
    ?_, ?_, fun r n warn crit => ⟨fun h => exec_crzLevelWrite_set h r, fun h => exec_crzLevelWrite_ignored h r⟩,
    exec_crzoffDecay, fun f => ⟨exec_senseInvalid_unset, exec_senseInvalid_excludes, exec_sensePairValid f⟩⟩
  · rintro h hr v rfl
    exact exec_aclkRequest_clamped h hr code
  · rintro g req rfl rfl
    refine ⟨fun h => exec_aclkRatioChange_waits (not_ratioMayStart h), ?_⟩
    rintro hd hp hi hc hs hk hv cs rfl
    exact exec_aclkRatioChange_effect ⟨hd, hp, hi, hc, hs, hk, hv⟩
  · rintro n a b m rfl
    exact ⟨exec_marginSample_quiet, exec_marginSample_warns, exec_marginSample_crits⟩

end Sys2Proof.Machine
end

section
/-! O48: margin levels that would leave CRIT_LVL at or above WARN_LVL (R63). -/

namespace Sys2Proof.Machine

/-- A log record is a record and nothing else: registers and memory stay, and the log grows by one. -/
theorem State.lg_recordsOnly (s : State) (k : LogKind) (u : Nat) (l : List Nat) :
    SameRegs s (s.lg k u l) ∧ SameMemory s (s.lg k u l) ∧ ∃ e, (s.lg k u l).log = s.log ++ [e] :=
  ⟨fun _ _ _ _ => rfl, sameMemory_of_mem rfl, _, rfl⟩

/-- The word of an island's margin levels is refused exactly when its CRIT_LVL would be at or above its WARN_LVL. -/
theorem badLevels_crzWord (isl : Fin 16) (v : Nat) :
    badLevels .die (0x2100 + 4 * isl.val) v = true ↔ v / 2 ^ 8 % 16 ≤ v / 2 ^ 12 % 16 := by
  have hlt := isl.isLt
  have hw : fieldBits Reg.LH_CRZ_WARN_LVL v = v / 2 ^ 8 % 16 := rfl
  have hc : fieldBits Reg.LH_CRZ_CRIT_LVL v = v / 2 ^ 12 % 16 := rfl
  simp only [badLevels, BEq.rfl, Bool.true_and, decide_eq_true_eq, hw, hc]
  omega

/-- A word refused for its levels is only entered in the log, whoever stores it. -/
theorem csrStore_badLevels {sp : Space} {off v : Nat} (h : badLevels sp off v = true) (s : State) (r : Requester) (u : Nat) :
    csrStore s r sp u off v =
      some (s.lg LogKind.ignoredWrite (spaceN sp u) [Reg.LH_CRZ_WARN_LVL.id, (off - 0x2100) / 4], false) := by
  rw [csrStore, if_pos h]

/-- Settles O48: the command and the stored word both end in a state that differs by its log record alone. -/
theorem marginLevelsRefused : Obligations.MarginLevelsRefused := by
  unfold Obligations.MarginLevelsRefused
  intro r d isl s
  refine ⟨fun warn crit h => ?_, fun v h => ?_⟩
  · obtain ⟨hr, hm, e, hl⟩ := s.lg_recordsOnly LogKind.ignoredWrite (dieN d.val) [Reg.LH_CRZ_WARN_LVL.id, isl.val]
    exact ⟨_, e, exec_crzLevelWrite_ignored h r, hr, hm, hl⟩
  · obtain ⟨hr, hm, e, hl⟩ := s.lg_recordsOnly LogKind.ignoredWrite (spaceN .die d.val)
      [Reg.LH_CRZ_WARN_LVL.id, (0x2100 + 4 * isl.val - 0x2100) / 4]
    exact ⟨_, e, csrStore_badLevels ((badLevels_crzWord isl v).2 h) s r d.val, hr, hm, hl⟩

end Sys2Proof.Machine
end

section
/-! O47: a short in an island while its power-up is staged (R506, R525). -/

namespace Sys2Proof.Machine

/-- A short is judged in an island whose switch is closed or being staged: only an island that is already open has none. -/
theorem exec_islandShort_judged {s : State} {d : DieId} {i : Fin 16} (h : s.rd Reg.LH_ISL_HDR d.val i.val ≤ 1) :
    exec (.islandShort d i) s = .next (judgeEvent s (ownEvent s 7 0x0D d.val none i.val)) := by
  show execIslandShort d i s = _
  rw [execIslandShort, if_pos h]

/-- Reset, but for the power-up of island 0 of die 0, which is staged: LH_ISL.HDR reads 1. -/
def islandStaged : State := State.reset.wr Reg.LH_ISL_HDR 0 1 0

theorem islandStaged_hdr : islandStaged.rd Reg.LH_ISL_HDR 0 0 = 1 := rfl

/-- R525, R529: the short is a stone of class 7, and its island is open for good. -/
theorem judgeEvent_islandStaged_hdr :
    (judgeEvent islandStaged (ownEvent islandStaged 7 0x0D 0 none 0)).rd Reg.LH_ISL_HDR 0 0 = 3 := by
  decide +kernel

/-- Refutes O47: its clause on ISLAND_SHORT has the command leave alone every state whose LH_ISL.HDR is not 0, and so that of an
island whose power-up is staged (HDR 1). There the model judges the short, as R525 has it, and HDR becomes 3. -/
theorem not_lossesHoldsAndRecalls : ¬ Obligations.LossesHoldsAndRecalls := by
  unfold Obligations.LossesHoldsAndRecalls
  intro h
  obtain ⟨-, -, -, -, -, -, -, hShort, -⟩ := h 0 islandStaged
  have hHdr : islandStaged.rd Reg.LH_ISL_HDR (0 : DieId).val (0 : Fin 16).val = 1 := islandStaged_hdr
  have hIdle : exec (.islandShort 0 0) islandStaged = .next islandStaged := (hShort 0).1 (by rw [hHdr]; decide)
  have hSame : judgeEvent islandStaged (ownEvent islandStaged 7 0x0D 0 none 0) = islandStaged :=
    Host.Outcome.next.inj ((exec_islandShort_judged hHdr.le).symm.trans hIdle)
  have hOpen := judgeEvent_islandStaged_hdr
  rw [hSame, islandStaged_hdr] at hOpen
  exact absurd hOpen (by decide)

end Sys2Proof.Machine
end

section
/-! SUPPORT. What the updates of the array block and the reports of a pass leave of a core and of its registers (R84, R102, R107). -/

namespace Sys2Proof.Machine

variable (s : State) (c : CoreId)

@[simp] theorem setPasses_cx (l : List Pass) : (setPasses s c l).cx c = { s.cx c with passes := l } := by
  simp [setPasses, updStat]

@[simp] theorem setPass_cx (p : Pass) : (setPass s c p).cx c =
    { s.cx c with passes := (s.cx c).passes.map fun q => if q.id = p.id then p else q } :=
  setPasses_cx s c _

@[simp] theorem releaseSb_cx (f : SbOwner → Bool) : (releaseSb s c f).cx c =
    { s.cx c with sb := (s.cx c).sb.filter fun e => !f e.owner } := by
  simp [releaseSb, setSb]

/-- The pass put in a place is the only one there that has its number. -/
theorem eq_of_mem_setPass {p q : Pass} (hq : q ∈ ((setPass s c p).cx c).passes) (h : q.id = p.id) : q = p := by
  rw [setPass_cx] at hq
  obtain ⟨r, -, rfl⟩ := List.mem_map.1 hq
  by_cases hr : r.id = p.id
  · exact if_pos hr
  · rw [if_neg hr] at h
    exact absurd h hr

/-- The fields of CA_STAT that count the passes in the block. -/
def passStatIds : List Nat := [Reg.CA_STAT_WAITING.id, Reg.CA_STAT_STREAMING.id, Reg.CA_STAT_DRAINING.id]

theorem setPasses_sameRegs (l : List Pass) : SameRegsBut passStatIds s (setPasses s c l) :=
  (((SameRegsBut.of_regs rfl).trans (.wr (by decide))).trans (.wb (by decide))).trans (.wb (by decide))

theorem setPass_sameRegs (p : Pass) : SameRegsBut passStatIds s (setPass s c p) := setPasses_sameRegs s c _

@[simp] theorem reportCause_regs (range mem : Bool) : (reportCause s c range mem).regs = s.regs := by
  unfold reportCause
  split
  · rfl
  · simp only
    split <;> rfl

theorem State.rb_orF_ne {F G : Field} (h : F.id ≠ G.id) (u v i j w k l : Nat) :
    (s.orF F u v i j).rb G w k l = s.rb G w k l :=
  State.rb_wr_ne s h ..

theorem State.rb_bump_ne {F G : Field} (h : F.id ≠ G.id) (u n i j w k l : Nat) :
    (s.bump F u n i j).rb G w k l = s.rb G w k l :=
  State.rb_wr_ne s h ..

/-- A flag of one bit is set once 1 is ORed into it. -/
theorem State.rb_orF_one {F : Field} (h : F.w = 1) (u i j : Nat) : (s.orF F u 1 i j).rb F u i j = true := by
  simp [State.orF, State.rb, h]

end Sys2Proof.Machine
end

section
/-! PROOFS. Tile loads, swaps and row groups (R85, R86, R91, R629). -/

namespace Sys2Proof.Machine

variable {s : State} {c : CoreId} {p : Pass}

/-- R629: without a TILE share a load stands still. -/
theorem exec_tileLoadComplete_noShare (hp : loadingPass s c = some p) (h : bankShare s c ownTile = 0) (e : Bool) :
    exec (.tileLoadComplete c e) s = .next s := by
  show execTileLoadComplete c e s = _
  simp only [execTileLoadComplete, hp, if_pos h]

/-- A load with a TILE share marks its pass loaded in a state whose shadow register holds the tile. -/
theorem exec_tileLoadComplete (hp : loadingPass s c = some p) (h : bankShare s c ownTile ≠ 0)
    (hs : p.stage ≠ .streaming) (e : Bool) : ∃ t, (t.cx c).shadow.isSome = true ∧
      exec (.tileLoadComplete c e) s = .next (setPass t c { p with stage := .loaded, ue := p.ue || e }) := by
  have hb : (p.stage == .streaming) = false := by simpa using hs
  change ∃ t, _ ∧ execTileLoadComplete c e s = _
  simp only [execTileLoadComplete, hp, if_neg h, hb, Bool.false_eq_true, if_false]
  refine ⟨_, ?_, rfl⟩
  split <;> simp

/-- R86: the tile of a completed load is in the shadow register and its pass is loaded. -/
theorem exec_tileLoadComplete_loaded (hp : loadingPass s c = some p) (h : bankShare s c ownTile ≠ 0)
    (hs : p.stage ≠ .streaming) (e : Bool) : ∃ t, exec (.tileLoadComplete c e) s = .next t ∧
      (t.cx c).shadow.isSome = true ∧ (∀ q ∈ (t.cx c).passes, q.id = p.id → q.stage = .loaded) ∧ SameMemory s t := by
  obtain ⟨t, hx, ht⟩ := exec_tileLoadComplete hp h hs e
  refine ⟨_, ht, by simp [hx], fun q hq hi => ?_, sameMemory_of_exec ht (execTileLoadComplete_mem s c e)⟩
  rw [eq_of_mem_setPass t c hq hi]

/-- The core and CA_STAT once a tile has been swapped into the stationary register (R85, R107). -/
def swapped (s : State) (c : CoreId) (x : Tile) : State :=
  ((s.setCx c { s.cx c with tile := x, shadow := none }).wb Reg.CA_STAT_XVALID (coreU c) true).wr
    Reg.CA_STAT_XFMTP (coreU c) x.fmtp

theorem exec_passSwap {x : Tile} (hp : (s.cx c).passes.find? (fun q => q.stage != .draining) = some p)
    (hx : (s.cx c).shadow = some x) (hs : p.stage = .loaded) (ha : aclkRuns s c = true)
    (hc : s.rd Reg.LH_CSTATE_STATE (coreU c) < 2) :
    exec (.passSwap c) s = .next (setPass (swapped s c x) c { p with stage := .streaming }) := by
  show execPassSwap c s = _
  simp only [execPassSwap, hp, hx]
  exact if_pos (by simp [hs, ha, hc])

/-- R85: a swap makes the loaded tile stationary and its pass stream. -/
theorem exec_passSwap_streams {x : Tile} (hp : (s.cx c).passes.find? (fun q => q.stage != .draining) = some p)
    (hx : (s.cx c).shadow = some x) (hs : p.stage = .loaded) (ha : aclkRuns s c = true)
    (hc : s.rd Reg.LH_CSTATE_STATE (coreU c) < 2) : ∃ t, exec (.passSwap c) s = .next t ∧ (t.cx c).tile = x ∧
      (t.cx c).shadow = none ∧ t.rb Reg.CA_STAT_XVALID (coreU c) = true ∧
      t.rd Reg.CA_STAT_XFMTP (coreU c) = x.fmtp % 4 ∧ ∀ q ∈ (t.cx c).passes, q.id = p.id → q.stage = .streaming := by
  have hr := setPass_sameRegs (swapped s c x) c { p with stage := .streaming }
  refine ⟨_, exec_passSwap hp hx hs ha hc, by simp [swapped], by simp [swapped], ?_, ?_, fun q hq hi => ?_⟩
  · rw [hr.rb (by decide), swapped, State.rb_wr_ne _ (by decide)]
    exact State.rb_wb_same _ _ _ _ _ _ (by decide)
  · rw [hr _ (by decide)]
    exact State.rd_wr_same ..
  · rw [eq_of_mem_setPass _ c hq hi]

/-- With a WGT share no row from the scratchpad is missing (R91, R629). -/
theorem rowMissing_scratchpad (hw : p.desc.wsrc = false) (h : bankShare s c ownWgt ≠ 0) : rowMissing s c p = false := by
  simp [rowMissing, hw, h]

/-- The stage and row group of a pass, no pair, once its next row group has entered. -/
def Advanced (p q : Pass) : Prop :=
  q.id = p.id ∧ (p.group + 1 < (p.desc.nch + 3) / 4 → q.group = p.group + 1 ∧ q.stage = .streaming) ∧
    ((p.desc.nch + 3) / 4 ≤ p.group + 1 → q.stage = .draining)

/-- R91: a row group none of whose rows is missing enters, and its pass, no pair, advances. -/
theorem exec_rowGroupEntry (hp : streamingPass s c = some p) (hm : rowMissing s c p = false)
    (hg : (geoOf s c p.desc.fmtp p.desc.mode p.desc.heritage).isPair = false) (e : Bool) :
    ∃ t q, exec (.rowGroupEntry c e) s = .next (setPass t c q) ∧ Advanced p q := by
  change ∃ t q, execRowGroupEntry c e s = _ ∧ _
  unfold execRowGroupEntry
  simp -zeta only [hp]
  extract_lets u d g n last j chans si wait rows t s000 s00 y s0 buf srow fetched wcs wvs xcs xvs res isInt oop port at_
    half take samp x1 wfull xfull cap s1 cyc s2 f p1 s3
  have hg' : g.isPair = false := hg
  have hlast : ¬p.sub < last := by simp [last, hg']
  refine ⟨_, _, if_neg (by simp [hg', hm]), ?_⟩
  rw [if_neg hlast]
  by_cases h : p.group + 1 < n
  · rw [if_pos h]
    exact ⟨rfl, fun _ => ⟨rfl, rfl⟩, fun hn => absurd h (Nat.not_lt.2 hn)⟩
  · rw [if_neg h]
    exact ⟨rfl, fun hn => absurd hn h, fun _ => rfl⟩

/-- A row group of weights from the scratchpad advances its pass, and the last one leaves it draining. -/
theorem exec_rowGroupEntry_advances (hp : streamingPass s c = some p) (hw : p.desc.wsrc = false)
    (h : bankShare s c ownWgt ≠ 0) (hg : (geoOf s c p.desc.fmtp p.desc.mode p.desc.heritage).isPair = false) (e : Bool) :
    ∃ t, exec (.rowGroupEntry c e) s = .next t ∧
      ∀ q ∈ (t.cx c).passes, q.id = p.id → (p.group + 1 < (p.desc.nch + 3) / 4 →
        q.group = p.group + 1 ∧ q.stage = .streaming) ∧ ((p.desc.nch + 3) / 4 ≤ p.group + 1 → q.stage = .draining) := by
  obtain ⟨t, r, hx, hid, hr⟩ := exec_rowGroupEntry hp (rowMissing_scratchpad hw h) hg e
  refine ⟨_, hx, fun q hq hi => ?_⟩
  rw [eq_of_mem_setPass t c hq (hi.trans hid.symm)]
  exact hr

end Sys2Proof.Machine
end

section
/-! PROOFS. The completion of a pass and the recompute of a sample (R85, R102, R160). -/

namespace Sys2Proof.Machine

variable {s : State} {c : CoreId}

/-- The flags of a completing pass reported and added to CA_FLAGS, and the pass counted (R102). -/
def passCounted (s : State) (c : CoreId) (p : Pass) : State :=
  let t := reportCause s c (p.ovf || p.nan || p.sat) p.ue
  ((((t.orF Reg.CA_FLAGS_OVF (coreU c) (b2n p.ovf)).orF Reg.CA_FLAGS_NAN (coreU c) (b2n p.nan)).orF
    Reg.CA_FLAGS_SAT (coreU c) (b2n p.sat)).orF Reg.CA_FLAGS_UE (coreU c) (b2n p.ue)).bump Reg.CA_PASSES_COUNT (coreU c)

theorem exec_passComplete {p : Pass} {r : List Pass} (hp : (s.cx c).passes = p :: r) (hd : p.stage = .draining)
    (ha : aclkRuns s c = true) : exec (.passComplete c) s = .next (setPasses (releaseSb (passCounted s c p) c
      fun o => o == .passO p.id || o == .passX p.id || o == .passW p.id) c r) := by
  show Host.Outcome.next (passComplete c s) = _
  simp only [passComplete, hp]
  exact congrArg _ (if_neg (by simp [hd, ha]))

theorem passCounted_count (p : Pass) : (passCounted s c p).rd Reg.CA_PASSES_COUNT (coreU c) =
    satAdd 32 (s.rd Reg.CA_PASSES_COUNT (coreU c)) 1 % 2 ^ 32 := by
  rw [passCounted, State.bump, State.rd_wr_same]
  iterate 4 rw [State.orF, State.rd_wr_ne _ (by decide)]
  rw [State.rd_congr (reportCause_regs ..)]
  rfl

/-- Each flag of a completing pass is set in CA_FLAGS (R102, R108). -/
theorem passCounted_flags (p : Pass) :
    (p.ovf = true → (passCounted s c p).rb Reg.CA_FLAGS_OVF (coreU c) = true) ∧
    (p.nan = true → (passCounted s c p).rb Reg.CA_FLAGS_NAN (coreU c) = true) ∧
    (p.sat = true → (passCounted s c p).rb Reg.CA_FLAGS_SAT (coreU c) = true) ∧
    (p.ue = true → (passCounted s c p).rb Reg.CA_FLAGS_UE (coreU c) = true) := by
  refine ⟨?_, ?_, ?_, ?_⟩ <;>
  · intro h
    simp (disch := decide) only [passCounted, h, b2n, if_true, State.rb_bump_ne, State.rb_orF_ne, State.rb_orF_one]

/-- R85, R102: a drained pass leaves the block, its flags go to CA_FLAGS and CA_PASSES rises. -/
theorem exec_passComplete_leaves {p : Pass} {r : List Pass} (hp : (s.cx c).passes = p :: r) (hd : p.stage = .draining)
    (ha : aclkRuns s c = true) : ∃ t, exec (.passComplete c) s = .next t ∧ (t.cx c).passes = r ∧
      t.rd Reg.CA_PASSES_COUNT (coreU c) = satAdd 32 (s.rd Reg.CA_PASSES_COUNT (coreU c)) 1 % 2 ^ 32 ∧
      (p.ovf = true → t.rb Reg.CA_FLAGS_OVF (coreU c) = true) ∧ (p.nan = true → t.rb Reg.CA_FLAGS_NAN (coreU c) = true) ∧
      (p.sat = true → t.rb Reg.CA_FLAGS_SAT (coreU c) = true) ∧ (p.ue = true → t.rb Reg.CA_FLAGS_UE (coreU c) = true) := by
  have hr : SameRegsBut passStatIds (passCounted s c p) (setPasses (releaseSb (passCounted s c p) c
      fun o => o == .passO p.id || o == .passX p.id || o == .passW p.id) c r) :=
    (SameRegsBut.of_regs rfl).trans (setPasses_sameRegs _ c r)
  refine ⟨_, exec_passComplete hp hd ha, by simp, (hr _ (by decide) ..).trans (passCounted_count p), ?_⟩
  rw [hr.rb (by decide), hr.rb (by decide), hr.rb (by decide), hr.rb (by decide)]
  exact passCounted_flags p

/-- The captured sample cleared and counted (R160, R164), before any mismatch is reported. -/
def sampleCounted (s : State) (c : CoreId) : State :=
  (s.setCx c { s.cx c with capture := none }).bump Reg.CV_SHSAMP_COUNT (coreU c)

/-- What the reports of mismatches leave: the cores beside their registers, and every register but CV_SHMIS. -/
def OnlyMismatches (s t : State) : Prop := t.cores = s.cores ∧ SameRegsBut [Reg.CV_SHMIS_COUNT.id] s t

/-- A mismatch is counted, logged and raised as an event, and no more (R160, R162). -/
theorem onlyMismatches_reported (t : State) (u : Nat) (k : LogKind) (args : List Nat) (e : FaultEvent) :
    OnlyMismatches t (raiseCore ((t.bump Reg.CV_SHMIS_COUNT u).lg k u args) c false e) :=
  ⟨rfl, (SameRegsBut.bump (List.mem_singleton_self _)).trans (.of_regs rfl)⟩

theorem OnlyMismatches.ite {m : Prop} [Decidable m] {t u : State} (h : OnlyMismatches t u) :
    OnlyMismatches t (if m then u else t) := by
  split
  · exact h
  · exact ⟨rfl, .refl⟩

/-- A fold of steps that only report mismatches only reports mismatches. -/
theorem foldl_onlyMismatches {α : Type} {f : State → α → State} (hf : ∀ t a, OnlyMismatches t (f t a)) (l : List α)
    (s : State) : OnlyMismatches s (l.foldl f s) :=
  foldl_keeps (OnlyMismatches s) f (fun t a ht => ⟨(hf t a).1.trans ht.1, ht.2.trans (hf t a).2⟩) l s ⟨rfl, .refl⟩

theorem exec_shadowRecompute {q : Capture} (hq : (s.cx c).capture = some q) :
    ∃ t, exec (.shadowRecompute c) s = .next t ∧ OnlyMismatches (sampleCounted s c) t := by
  change ∃ t, execShadowRecompute c s = _ ∧ _
  simp only [execShadowRecompute, hq]
  refine ⟨_, rfl, foldl_onlyMismatches (fun t ch => foldl_onlyMismatches (fun u k => ?_) _ t) _ _⟩
  exact .ite (onlyMismatches_reported ..)

/-- R160: a recompute clears the capture and counts the sample. -/
theorem exec_shadowRecompute_counts {q : Capture} (hq : (s.cx c).capture = some q) :
    ∃ t, exec (.shadowRecompute c) s = .next t ∧ (t.cx c).capture = none ∧
      t.rd Reg.CV_SHSAMP_COUNT (coreU c) = satAdd 32 (s.rd Reg.CV_SHSAMP_COUNT (coreU c)) 1 % 2 ^ 32 ∧ SameMemory s t := by
  obtain ⟨t, hx, hcores, hregs⟩ := exec_shadowRecompute hq
  refine ⟨t, hx, ?_, ?_, sameMemory_of_exec hx (execShadowRecompute_mem s c)⟩
  · rw [State.cx, hcores]
    show ((sampleCounted s c).cx c).capture = none
    simp [sampleCounted]
  · rw [hregs _ (by decide)]
    exact State.rd_wr_same ..

end Sys2Proof.Machine
end

section
/-! O32: the passes in the array block (R85, R86, R91, R102, R160, R629). -/

namespace Sys2Proof.Machine

/-- Settles O32: each command's effect at the pass that it moves, proved above by its own lemmas. -/
theorem arrayBlockEvents : Obligations.ArrayBlockEvents := by
  unfold Obligations.ArrayBlockEvents
  intro c s
  exact ⟨fun _ hp => ⟨exec_tileLoadComplete_noShare hp, exec_tileLoadComplete_loaded hp⟩,
    fun _ _ => exec_passSwap_streams, fun _ => exec_rowGroupEntry_advances,
    fun _ _ => exec_passComplete_leaves, fun _ => exec_shadowRecompute_counts⟩

end Sys2Proof.Machine
end

section
/-! SUPPORT. The exact sum of two values (R80, R116): when it is a NaN, when it is infinite, and what a finite one is worth. -/

namespace Sys2Proof.Machine

/-- A signed magnitude taken to a lower quantum is worth what it was worth. -/
theorem atExp_mul_zpow (s : Bool) (m : Nat) {e q : Int} (h : q ≤ e) :
    (atExp s m e q : ℚ) * 2 ^ q = (if s then -(m : ℚ) else m) * 2 ^ e := by
  have hpow : (2 : ℚ) ^ (e - q).toNat * 2 ^ q = 2 ^ e := by
    rw [← zpow_natCast, ← zpow_add₀ two_ne_zero]
    congr 1
    omega
  cases s <;> simp [atExp, mul_assoc, hpow]

/-- A signed integer as a value is finite, at its quantum, with that integer as its signed magnitude. -/
theorem ofInt_eq_fin (z : Bool) (n q : Int) :
    ∃ c k, ofInt z n q = .fin c k q ∧ (if c then -(k : ℚ) else k) = n := by
  unfold ofInt
  split
  case isTrue h => exact ⟨z, 0, rfl, by simp [h]⟩
  case isFalse h =>
    refine ⟨_, _, rfl, ?_⟩
    have habs : (n.natAbs : ℚ) = |(n : ℚ)| := by exact_mod_cast Nat.cast_natAbs (α := ℚ) n
    rcases lt_or_gt_of_ne h with hneg | hpos
    · have : (n : ℚ) < 0 := by exact_mod_cast hneg
      simp [hneg, habs, abs_of_neg this]
    · have : (0 : ℚ) < n := by exact_mod_cast hpos
      simp [not_lt.mpr hpos.le, habs, abs_of_pos this]

/-- The sum of two finite values is finite, and is worth the sum of what they are worth. -/
theorem Val.add_fin (a b : Bool) (m n : Nat) (x y : Int) :
    ∃ c k z, (Val.fin a m x).add (.fin b n y) = .fin c k z ∧
      (if c then -(k : ℚ) else k) * 2 ^ z = (if a then -(m : ℚ) else m) * 2 ^ x + (if b then -(n : ℚ) else n) * 2 ^ y := by
  obtain ⟨c, k, hsum, hval⟩ := ofInt_eq_fin (a && b) (atExp a m x (Min.min x y) + atExp b n y (Min.min x y)) (Min.min x y)
  refine ⟨c, k, Min.min x y, hsum, ?_⟩
  rw [hval, Int.cast_add, add_mul, atExp_mul_zpow a m (min_le_left x y), atExp_mul_zpow b n (min_le_right x y)]

/-- A sum is a NaN exactly where a part is one or the parts are opposite infinities (R80). -/
theorem Val.add_eq_nan_iff (u v : Val) :
    u.add v = .nan ↔ u = .nan ∨ v = .nan ∨ ∃ b, u = .inf b ∧ v = .inf (!b) := by
  match u, v with
  | .nan, _ => simp [Val.add]
  | .inf _, .nan => simp [Val.add]
  | .fin _ _ _, .nan => simp [Val.add]
  | .inf a, .inf b => cases a <;> cases b <;> simp [Val.add]
  | .inf _, .fin _ _ _ => simp [Val.add]
  | .fin _ _ _, .inf _ => simp [Val.add]
  | .fin a m x, .fin b n y =>
    obtain ⟨c, k, z, hsum, -⟩ := Val.add_fin a b m n x y
    simp [hsum]

/-- A sum that is no NaN has the sign of an infinite part, and is infinite. -/
theorem Val.add_eq_inf {u v : Val} {b : Bool} (hn : u.add v ≠ .nan) (h : u = .inf b ∨ v = .inf b) : u.add v = .inf b := by
  rcases h with rfl | rfl
  · cases v with
    | nan => exact absurd rfl hn
    | inf c =>
      have hc : b = c := by_contra fun hc => hn (by simp [Val.add, hc])
      simp [Val.add, hc]
    | fin _ _ _ => rfl
  · cases u with
    | nan => exact absurd rfl hn
    | inf c =>
      have hc : c = b := by_contra fun hc => hn (by simp [Val.add, hc])
      simp [Val.add, hc]
    | fin _ _ _ => rfl

end Sys2Proof.Machine
end

section
/-! O49: the value of a BF16 pair (R116). -/

namespace Sys2Proof.Machine

/-- Settles O49: a pair is the sum of its parts, and each clause is the lemma above about a sum. -/
theorem pairValues : Obligations.PairValues := by
  unfold Obligations.PairValues
  intro hi lo
  refine ⟨Val.add_eq_nan_iff _ _, fun _ => Val.add_eq_inf, fun a b m n x y hhi hlo => ?_⟩
  rw [decodePair, hhi, hlo]
  exact Val.add_fin a b m n x y

end Sys2Proof.Machine
end

section
/-! SUPPORT. What the convert instructions check (R119, R135, R137, R138, R207), in the terms of Safety.lean, and the effect of each
with operands it takes and with operands it does not. -/

namespace Sys2Proof.Machine

variable {s : State} {c : CoreId} {w : IFields} {n : Nat}

/-- PART is in its range for `n` source elements (R135). -/
def PartInRange (w : IFields) (n : Nat) : Prop :=
  (n ≤ fmtCount (cvFD w) → cvPart w < fmtCount (cvFD w) / n) ∧ (fmtCount (cvFD w) < n → cvPart w < n / fmtCount (cvFD w))

/-- PART in its range names the elements of `convertSpan`. -/
theorem partOf_of_inRange (h : PartInRange w n) : partOf n (fmtCount (cvFD w)) (cvPart w) = some (convertSpan w n) := by
  by_cases hle : n ≤ fmtCount (cvFD w)
  · simp [partOf, convertSpan, hle, h.1 hle]
  · simp [partOf, convertSpan, hle, h.2 (Nat.lt_of_not_le hle)]

/-- PART out of its range names no elements. -/
theorem partOf_of_not_inRange (h : ¬ PartInRange w n) : partOf n (fmtCount (cvFD w)) (cvPart w) = none := by
  unfold PartInRange at h
  by_cases hle : n ≤ fmtCount (cvFD w)
  · have : ¬ cvPart w < fmtCount (cvFD w) / n := fun hp => h ⟨fun _ => hp, fun hlt => absurd hle (Nat.not_le_of_lt hlt)⟩
    simp [partOf, hle, this]
  · have : ¬ cvPart w < n / fmtCount (cvFD w) := fun hp => h ⟨fun hle' => absurd hle' hle, fun _ => hp⟩
    simp [partOf, hle, this]

/-- The operands a convert takes are those its check of formats and pairs passes, with PART in its range. -/
theorem convertTakes_iff : ConvertTakes w n ↔ cvOk w = true ∧ PartInRange w n := by
  simp only [ConvertTakes, cvOk, PartInRange, Bool.and_eq_true, decide_eq_true_eq, Bool.not_eq_true', Bool.and_eq_false_iff,
    beq_eq_false_iff_ne, ne_eq, Nat.mod_two_not_eq_one, imp_iff_not_or, and_assoc]

/-- The check of CVTX on block size and scaled side, as `ScaleTakes` says it. -/
theorem scaleTakes_iff : ScaleTakes w ↔
    (if cvForm w = 0 then decide (1 ≤ cvBS w ∧ cvBS w ≤ 6) else cvBS w == 0) = true ∧
      scalable (if cvSide w = 0 then cvFD w else cvFS w) = true := by
  by_cases h : cvForm w = 0 <;> simp [ScaleTakes, h]

/-- CVT with operands it takes converts the elements PART names (R136). -/
theorem exec_cvt_converts (hi : Issues s c 0x90 { d := .v, a := .v, imm := 0x7FFFF } w)
    (h : ConvertTakes w (fmtCount (cvFS w))) :
    exec (.cvt c w) s = .next (converted s c w (convertSpan w (fmtCount (cvFS w))).2.2
      ((((vecVals s c (cvFS w) w.a.toNat).drop (convertSpan w (fmtCount (cvFS w))).1).take
        (convertSpan w (fmtCount (cvFS w))).2.1).map fun v => convTo (cvFD w) (cvOM w) (timesTmul (tmulOf s c w) v))) := by
  obtain ⟨hok, hpart⟩ := convertTakes_iff.mp h
  refine congrArg Host.Outcome.next (issue_done hi ?_)
  simp only [bodyCvt, partOf_of_inRange hpart, hok]
  rfl

/-- The effect of CVT with operands the rules exclude. -/
theorem bodyCvt_trap (h : ¬ ConvertTakes w (fmtCount (cvFS w))) : bodyCvt c w s = .trap trIllegal 0 := by
  by_cases hpart : PartInRange w (fmtCount (cvFS w))
  · have hok : cvOk w = false := by simpa [convertTakes_iff, hpart] using h
    simp only [bodyCvt, partOf_of_inRange hpart, hok]
    rfl
  · simp only [bodyCvt, partOf_of_not_inRange hpart]

/-- CVTX with operands it takes converts each element with its scale (R137). -/
theorem exec_cvtx_converts (hi : Issues s c 0x91 { d := .v, a := .v, b := .v, imm := 0xFFFFFF } w)
    (h : ConvertTakes w (fmtCount (cvFS w))) (hs : ScaleTakes w) :
    exec (.cvtx c w) s = .next (converted s c w (convertSpan w (fmtCount (cvFS w))).2.2
      (((((vecVals s c (cvFS w) w.a.toNat).drop (convertSpan w (fmtCount (cvFS w))).1).take
        (convertSpan w (fmtCount (cvFS w))).2.1).zipIdx).map fun v =>
          scaledTo c w s ((if cvSide w = 0 then (convertSpan w (fmtCount (cvFS w))).2.2
            else (convertSpan w (fmtCount (cvFS w))).1) + v.2) (timesTmul (tmulOf s c w) v.1))) := by
  obtain ⟨hok, hpart⟩ := convertTakes_iff.mp h
  obtain ⟨hblk, hscal⟩ := scaleTakes_iff.mp hs
  refine congrArg Host.Outcome.next (issue_done hi ?_)
  have hside (k p i : Nat) : (if cvSide w = 0 then p else k) + i = if cvSide w = 0 then p + i else k + i := by
    split <;> rfl
  simp only [bodyCvtx, partOf_of_inRange hpart, hok, hblk, hscal, hside, Bool.not_true, Bool.or_false, Bool.false_eq_true, if_false]
  rfl

/-- The effect of CVTX with operands the rules exclude. -/
theorem bodyCvtx_trap (h : ¬ ConvertTakes w (fmtCount (cvFS w)) ∨ ¬ ScaleTakes w) :
    bodyCvtx c w s = .trap trIllegal 0 := by
  by_cases hpart : PartInRange w (fmtCount (cvFS w))
  · simp only [bodyCvtx, partOf_of_inRange hpart]
    refine if_pos ?_
    simp only [convertTakes_iff, scaleTakes_iff, hpart, and_true, not_and_or, Bool.not_eq_true] at h
    simpa only [Bool.or_eq_true, Bool.not_eq_true', or_assoc] using h
  · simp only [bodyCvtx, partOf_of_not_inRange hpart]

/-- The check of CVTS on its destination, block size and group, as `GroupTakes` says it. -/
theorem groupTakes_iff : GroupTakes w ↔ scalable (cvFD w) = true ∧ decide (1 ≤ cvBS w ∧ cvBS w ≤ 6) = true ∧
    (w.a.toNat % cvtsRegs w != 0) = false ∧
      decide (w.a.toNat + cvtsRegs w * (if cvFS w = 10 then 2 else 1) > 32) = false := by
  simp [GroupTakes, and_assoc]

/-- CVTS with operands it takes writes the scales and the elements of its blocks (R138). -/
theorem exec_cvts_writes (hi : Issues s c 0x92 { d := .v, a := .v, b := .v, imm := 0x13FFFFF } w) {k p : Nat}
    (h : ConvertTakes w (max (blkSize (cvBS w)) (fmtCount (cvFS w)))) (hg : GroupTakes w)
    (hspan : convertSpan w (max (blkSize (cvBS w)) (fmtCount (cvFS w))) = (k, n, p)) :
    exec (.cvts c w) s = .next (completed (addCFlags
      (wrV (putElems s c (cvFD w) w.d.toNat p ((cvtsBlocks c w s k n).flatMap fun q => q.2.1)) c w.b.toNat
        (putBytes (p / blkSize (cvBS w)) ((cvtsBlocks c w s k n).map Prod.fst)
          (rdV (putElems s c (cvFD w) w.d.toNat p ((cvtsBlocks c w s k n).flatMap fun q => q.2.1)) c w.b.toNat))) c
      ((cvtsBlocks c w s k n).foldl (fun f q => f.or q.2.2) (sumFlags ((cvtsBlocks c w s k n).flatMap fun q => q.2.1)).1)
      (sumFlags ((cvtsBlocks c w s k n).flatMap fun q => q.2.1)).2.1
      (sumFlags ((cvtsBlocks c w s k n).flatMap fun q => q.2.1)).2.2) c) := by
  obtain ⟨hok, hpart⟩ := convertTakes_iff.mp h
  obtain ⟨hscal, hblk, hstart, hend⟩ := groupTakes_iff.mp hg
  have hpart' := (partOf_of_inRange hpart).trans (congrArg some hspan)
  unfold cvtsRegs at hstart hend
  refine congrArg Host.Outcome.next (issue_done hi ?_)
  simp only [bodyCvts, hpart', hok, hscal, hblk, hstart, hend]
  rfl

/-- The effect of CVTS with operands the rules exclude. -/
theorem bodyCvts_trap (h : ¬ ConvertTakes w (max (blkSize (cvBS w)) (fmtCount (cvFS w))) ∨ ¬ GroupTakes w) :
    bodyCvts c w s = .trap trIllegal 0 := by
  unfold bodyCvts
  extract_lets fs fd b g step ns
  split
  · rfl
  · next hchecks =>
    have hpart : ¬ PartInRange w (max (blkSize (cvBS w)) (fmtCount (cvFS w))) := by
      intro hpart
      simp only [Bool.not_eq_true, Bool.or_eq_false_iff, Bool.not_eq_false'] at hchecks
      obtain ⟨⟨⟨⟨hok, hscal⟩, hblk⟩, hstart⟩, hend⟩ := hchecks
      exact h.elim (· (convertTakes_iff.mpr ⟨hok, hpart⟩)) (· (groupTakes_iff.mpr ⟨hscal, hblk, hstart, hend⟩))
    exact partOf_of_not_inRange hpart ▸ rfl

/-- SCLX with operands it takes writes the scales of the block maxima (R141). -/
theorem exec_sclx_writes (hi : Issues s c 0x93 { a := .v, b := .v, imm := 0x107FCF0 } w)
    (hscal : scalable (cvFD w) = true) (hpart : cvPart w ≤ 3) :
    exec (.sclx c w) s = .next (completed (addCFlags (wrV s c w.b.toNat
      (putBytes (64 * cvPart w) ((vecVals s c 0 w.a.toNat).map fun v => (scaleCode w (timesTmul (tmulOf s c w) v.abs)).1)
        (rdV s c w.b.toNat))) c
      (((vecVals s c 0 w.a.toNat).map fun v => scaleCode w (timesTmul (tmulOf s c w) v.abs)).foldl
        (fun f r => f.or r.2) {}) 0 0) c) := by
  have hlt : ¬ cvPart w > 3 := Nat.not_lt_of_le hpart
  refine congrArg Host.Outcome.next (issue_done hi ?_)
  simp [bodySclx, hscal, hlt, List.map_map, Function.comp_def]

/-- The effect of SCLX with operands the rules exclude. -/
theorem bodySclx_trap (h : scalable (cvFD w) = false ∨ 3 < cvPart w) : bodySclx c w s = .trap trIllegal 0 := by
  refine if_pos ?_
  rcases h with hscal | hpart
  · simp [hscal]
  · simp [hpart]

end Sys2Proof.Machine
end

section
/-! O17: the convert instructions (R134-R143, R188, R207). -/

namespace Sys2Proof.Machine

/-- Settles O17: each clause is the lemma above about that instruction, with operands it takes or with operands it does not. -/
theorem convertResults : Obligations.ConvertResults := by
  unfold Obligations.ConvertResults
  intro c w s
  have trapped {opc : Nat} {f : Form} {body : State → Eff} (hi : Issues s c opc f w) (hb : body s = .trap trIllegal 0) :
      Host.Outcome.next (issue opc f c w s body) = (.next (takeTrap s c trIllegal 0) : Host.Outcome State Fault Refusal) :=
    congrArg _ (issue_trap hi hb)
  exact ⟨fun hi => ⟨exec_cvt_converts hi, fun h => trapped hi (bodyCvt_trap h)⟩,
    fun hi => ⟨exec_cvtx_converts hi, fun h => trapped hi (bodyCvtx_trap h)⟩,
    fun hi => ⟨fun _ _ _ => exec_cvts_writes hi, fun h => trapped hi (bodyCvts_trap h)⟩,
    fun hi => ⟨exec_sclx_writes hi, fun h => trapped hi (bodySclx_trap h)⟩⟩

end Sys2Proof.Machine
end

section
/-! SUPPORT. Updates that change no gather and of the registers only some fields, and those of the seal units among them (R168,
R182). -/

namespace Sys2Proof.Machine

/-- From the first state to the second no gather changes, and of the registers only some fields do. -/
def KeepsGathers (ids : List Nat) (s t : State) : Prop := SameRegsBut ids s t ∧ t.gathers = s.gathers

namespace KeepsGathers

variable {ids : List Nat} {s t u : State}

theorem of_regs (hr : t.regs = s.regs) (hg : t.gathers = s.gathers) : KeepsGathers ids s t := ⟨.of_regs hr, hg⟩

theorem refl : KeepsGathers ids s s := of_regs rfl rfl

theorem trans (h : KeepsGathers ids s t) (k : KeepsGathers ids t u) : KeepsGathers ids s u :=
  ⟨h.1.trans k.1, k.2.trans h.2⟩

theorem wr {F : Field} {w v i j : Nat} (h : F.id ∈ ids) : KeepsGathers ids s (s.wr F w v i j) := ⟨.wr h, rfl⟩

theorem wb {F : Field} {w : Nat} {b : Bool} {i j : Nat} (h : F.id ∈ ids) : KeepsGathers ids s (s.wb F w b i j) := wr h

theorem setCx {c : CoreId} {x : CoreX} : KeepsGathers ids s (s.setCx c x) := of_regs rfl rfl

theorem send {a b : NodeId} {p : Packet} : KeepsGathers ids s (s.send a b p) := of_regs rfl rfl

theorem foldl {α : Type} {f : State → α → State} (hf : ∀ t a, KeepsGathers ids t (f t a)) (l : List α) (s : State) :
    KeepsGathers ids s (l.foldl f s) :=
  foldl_keeps (KeepsGathers ids s) f (fun t a h => h.trans (hf t a)) l s refl

theorem rd (h : KeepsGathers ids s t) {F : Field} (hF : F.id ∉ ids) (w i j : Nat) : t.rd F w i j = s.rd F w i j :=
  h.1 F hF w i j

theorem gx (h : KeepsGathers ids s t) (g : Gather) : t.gx g = s.gx g := by
  rw [State.gx, State.gx, h.2]

end KeepsGathers

variable (s : State)

/-- The fields that a verdict writes beside the counters of SY_VCNT: what SY_SEAL shows of it, and GATED of streams. -/
def verdictIds : List Nat :=
  [Reg.SY_SEAL_PHASE_SEQ.id, Reg.SY_SEAL_LAST.id, Reg.SY_SEAL_CAUSE.id, Reg.SY_SEAL_PROV.id, Reg.SY_SEAL_DEPTH.id,
    Reg.DN_SSTAT_GATED.id]

theorem judged_keeps (g : Gather) (q cause : Nat) (recalled : Bool) :
    KeepsGathers verdictIds s (judged s g q cause recalled) :=
  ((KeepsGathers.wr (by decide)).trans (.wb (by decide))).trans (.wr (by decide))

theorem sendVerdict_keeps (v : VerdictMsg) (own : Bool) : KeepsGathers verdictIds s (sendVerdict s v own) := by
  unfold sendVerdict
  extract_lets src s1 s2
  have hOwn : KeepsGathers verdictIds s s1 := by
    unfold s1
    split
    · exact .foldl (fun _ _ => .send) _ s
    · exact .refl
  exact (hOwn.trans (.foldl (fun _ _ => .send) _ s1)).trans .send

theorem updSeals_keeps : KeepsGathers verdictIds s (updSeals s) :=
  .foldl (fun _ _ => (KeepsGathers.wb (by decide)).trans (.wr (by decide))) _ s

theorem updGates_keeps : KeepsGathers verdictIds s (updGates s) := by
  refine .foldl (fun t p => ?_) _ s
  extract_lets d
  split
  · exact .foldl (fun _ _ => .wr (by decide)) _ t
  · exact .refl

end Sys2Proof.Machine
end

section
/-! PROOFS. The verdict on the oldest phase of a gather: a seal, or a recall one rung up (R167, R174, R182). -/

namespace Sys2Proof.Machine

variable {s : State} {g : Gather} {p : PhaseX} {r : List PhaseX}

/-- R167: a phase that has not ended gets no verdict. -/
theorem exec_sealVerdict_running (hp : (s.gx g).phases = p :: r) (he : p.ended = false) :
    exec (.sealVerdict g) s = .next s := by
  show execSealVerdict g s = _
  simp [execSealVerdict, hp, he]

/-- R167: a phase that has ended with its dependency list sealed is judged by its causes. -/
theorem exec_sealVerdict_ended (hp : (s.gx g).phases = p :: r) (he : p.ended = true)
    (hd : ∀ q ∈ phaseDeps s g p.ph, phaseSealed s q.1 q.2 = true) :
    exec (.sealVerdict g) s = .next (judge s g p) := by
  have hAll : ((phaseDeps s g p.ph).all fun q => phaseSealed s q.1 q.2) = true := List.all_eq_true.2 hd
  show execSealVerdict g s = _
  simp only [execSealVerdict, hp, he, hAll, Bool.and_self, if_true]

theorem judge_noCause (hr : p.range = false) (hm : p.mem = false) : judge s g p = sealPhase s g p 0 := by
  simp [judge, hr, hm]

theorem sealPhase_gx (cause : Nat) : (sealPhase s g p cause).gx g =
    { s.gx g with
      phases := (s.gx g).phases.filter fun q => q.ph != p.ph, nsealed := p.ph + 1
      memPh := if (s.gx g).memPh = some p.ph then none else (s.gx g).memPh } := by
  unfold sealPhase
  extract_lets x s1 s2
  rw [(updGates_keeps _).gx, (updSeals_keeps _).gx, (sendVerdict_keeps ..).gx]
  exact State.gx_setGx_same ..

/-- R183: a seal is counted once in SEALS. -/
theorem sealPhase_seals (cause : Nat) : (sealPhase s g p cause).rd Reg.SY_VCNT_SEALS g.die.val g.idx.val =
    satAdd 16 (s.rd Reg.SY_VCNT_SEALS g.die.val g.idx.val) 1 % 2 ^ 16 := by
  unfold sealPhase
  extract_lets x s1 s2
  rw [(updGates_keeps _).rd (by decide), (updSeals_keeps _).rd (by decide), (sendVerdict_keeps ..).rd (by decide)]
  unfold s2
  rw [State.bump, State.rd_wr_same, (judged_keeps ..).rd (by decide)]
  rfl

/-- R174, R175: a recall takes the phase and the later ones from the gather, which is to run it next once its cores have
flushed. -/
theorem recallFrom_gx (q first rung : Nat) : (recallFrom s g q first rung).gx g =
    { s.gx g with
      phases := (s.gx g).phases.filter fun p => decide (p.ph < q), next := q, inPhase := false, rr := some q
      waitOn := (s.gx g).waitOn.filter fun p => !rerunStarted s p
      toFlush := (gatherCores s g).map fun c => c.lc.val } := by
  unfold recallFrom
  extract_lets d i x gone before s1 s2 s3
  have hRecalls : s3.gathers = s2.gathers := by
    refine foldl_fixes State.gathers _ (fun t p => ?_) gone s2
    extract_lets cause v rec_ t1
    have hOne : t1.gathers = t.gathers := (sendVerdict_keeps ..).2
    split <;> exact hOne
  rw [(updSeals_keeps _).gx, State.wr_gx, State.gx, hRecalls]
  exact State.gx_setGx_same s g _

/-- R182: RUNG holds the rung that a recall orders. -/
theorem rungOf_recallFrom (q first rung : Nat) : rungOf (recallFrom s g q first rung) g = rung % 4 := by
  unfold recallFrom
  extract_lets d i x gone before s1 s2 s3
  rw [rungOf, (updSeals_keeps _).rd (by decide)]
  exact State.rd_wr_same ..

/-- R174, R177: a range cause below the top rung recalls the phase one rung up; beside that the gather is to hold the rung for
HOLD_STEPS steps. -/
theorem judge_range (hr : p.range = true) (hm : p.mem = false)
    (hn : rungOf s g < s.rd Reg.PZ_LADDER_NRUNG g.die.val g.idx.val) :
    (judge s g p).regs = (recallFrom s g p.ph 1 (rungOf s g + 1)).regs ∧ (judge s g p).gx g =
      { (recallFrom s g p.ph 1 (rungOf s g + 1)).gx g with
        holdLeft := (recallFrom s g p.ph 1 (rungOf s g + 1)).rd Reg.PZ_LADDER_HOLD_STEPS g.die.val g.idx.val
        memPh := none } := by
  have hTop : ¬ s.rd Reg.PZ_LADDER_NRUNG g.die.val g.idx.val ≤ rungOf s g := Nat.not_le.2 hn
  simp [judge, hr, hm, hTop, b2n]

/-- R174, R175, R177: after a range cause below the top rung the gather stands one rung up with the rerun of the phase due. -/
theorem exec_sealVerdict_recalls (hp : (s.gx g).phases = p :: r) (he : p.ended = true)
    (hd : ∀ q ∈ phaseDeps s g p.ph, phaseSealed s q.1 q.2 = true) (hr : p.range = true) (hm : p.mem = false)
    (hn : rungOf s g < s.rd Reg.PZ_LADDER_NRUNG g.die.val g.idx.val) : ∃ t,
      exec (.sealVerdict g) s = .next t ∧ rungOf t g = (rungOf s g + 1) % 4 ∧ (t.gx g).rr = some p.ph ∧
        (t.gx g).next = p.ph ∧ (∀ q ∈ (t.gx g).phases, q.ph < p.ph) ∧
        (t.gx g).toFlush = (gatherCores s g).map (fun c => c.lc.val) ∧ SameMemory s t := by
  obtain ⟨hRegs, hGx⟩ := judge_range hr hm hn
  rw [recallFrom_gx] at hGx
  refine ⟨_, exec_sealVerdict_ended hp he hd, ?_, by rw [hGx], by rw [hGx], fun q hq => ?_, by rw [hGx],
    sameMemory_of_mem (judge_mem s g p)⟩
  · rw [rungOf, State.rd_congr hRegs]
    exact rungOf_recallFrom ..
  · rw [hGx] at hq
    exact of_decide_eq_true (List.mem_filter.1 hq).2

end Sys2Proof.Machine
end

section
/-! SUPPORT. What waking cores leaves of them, and cores that go to the entry of a phase (R186, R514, R519). -/

namespace Sys2Proof.Machine

variable (s : State)

/-- The fields of the islands that a request of a power-up writes. -/
def powerUpIds : List Nat := [Reg.LH_ISL_HDR.id, Reg.LH_ISL_WAIT.id]

/-- From the first state to the second only islands' registers change, no gather and no loop stack of a core. -/
def OnlyWakes (s t : State) : Prop := KeepsGathers powerUpIds s t ∧ ∀ c, (t.cx c).loops = (s.cx c).loops

theorem OnlyWakes.of_cores {s t : State} (h : KeepsGathers powerUpIds s t) (hc : t.cores = s.cores) : OnlyWakes s t :=
  ⟨h, fun c => by rw [State.cx, State.cx, hc]⟩

theorem OnlyWakes.refl : OnlyWakes s s := .of_cores .refl rfl

theorem OnlyWakes.trans {s t u : State} (h : OnlyWakes s t) (k : OnlyWakes t u) : OnlyWakes s u :=
  ⟨h.1.trans k.1, fun c => (k.2 c).trans (h.2 c)⟩

theorem OnlyWakes.foldl {α : Type} {f : State → α → State} (hf : ∀ t a, OnlyWakes t (f t a)) (l : List α) (s : State) :
    OnlyWakes s (l.foldl f s) :=
  foldl_keeps (OnlyWakes s) f (fun t a ht => ht.trans (hf t a)) l s (.refl s)

/-- A change of one core that keeps its loop stack keeps that of every core. -/
theorem loops_setCx {c : CoreId} {x : CoreX} (h : x.loops = (s.cx c).loops) (e : CoreId) :
    ((s.setCx c x).cx e).loops = (s.cx e).loops := by
  by_cases he : coreU e = coreU c
  · simp only [State.cx, State.setCx, he, smGet_smSet_same]
    exact h
  · simp only [State.cx, State.setCx, smGet_smSet_ne _ _ _ _ he]

theorem powerDone_onlyWakes (d : Nat) (u : PowerUp) : OnlyWakes s (powerDone s d u) :=
  .of_cores ((KeepsGathers.of_regs rfl rfl).trans ((KeepsGathers.wr (by decide)).trans (.wb (by decide)))) rfl

theorem consider_onlyWakes (d k : Nat) : OnlyWakes s (consider s d k) := by
  unfold consider
  split
  · exact .refl s
  · extract_lets u
    split
    · exact .refl s
    · split
      · exact powerDone_onlyWakes s ..
      · exact .of_cores (.wb (by decide)) rfl

theorem requestUp_onlyWakes (d : DieId) (n : Nat) (l : List Nat) : OnlyWakes s (requestUp s d n l) := by
  unfold requestUp
  split
  · exact .refl s
  · extract_lets x first t
    have hQueued : OnlyWakes s t := .of_cores (.of_regs rfl rfl) rfl
    split
    · exact hQueued.trans (consider_onlyWakes t ..)
    · exact hQueued.trans (.of_cores (.wb (by decide)) rfl)

theorem startWakes_onlyWakes (d : DieId) (cs : List CoreId) (late : Bool) : OnlyWakes s (startWakes s d cs late) := by
  unfold startWakes
  extract_lets low deep s1
  have hMarked : OnlyWakes s s1 := by
    refine .foldl (fun t c => ?_) low s
    exact ⟨.setCx, loops_setCx t rfl⟩
  exact hMarked.trans (.foldl (fun t _ => requestUp_onlyWakes t ..) _ s1)

theorem coreU_inj {c e : CoreId} (h : coreU c = coreU e) : c = e := by
  obtain ⟨⟨d, hd⟩, ⟨l, hl⟩⟩ := c
  obtain ⟨⟨k, hk⟩, ⟨m, hm⟩⟩ := e
  simp only [coreU] at h
  obtain rfl : d = k := by omega
  obtain rfl : l = m := by omega
  rfl

/-- The fields of a core that its entry to a phase writes. -/
def entryIds : List Nat := [Reg.CS_STAT_LDEPTH.id, Reg.CS_PC_PC.id, Reg.CS_STAT_STATE.id]

theorem enterAt_keeps (c : CoreId) (ph rung : Nat) : KeepsGathers entryIds s (enterAt s c ph rung) := by
  unfold enterAt setLoops setBarWait State.setCst
  exact (((KeepsGathers.setCx.trans .setCx).trans .setCx).trans (.wr (by decide))).trans
    ((KeepsGathers.wr (by decide)).trans (.wr (by decide)))

/-- Entries of cores to phases leave the table of entry PCs. -/
theorem entryPc_of_keeps {s t : State} (h : KeepsGathers entryIds s t) (c : CoreId) (ph rung : Nat) :
    entryPc t c ph rung = entryPc s c ph rung := by
  rw [entryPc, entryPc, State.rd64, State.rd64, h.rd (by decide), h.rd (by decide)]

/-- In the second state a core runs, its loop stack clear, at the entry that the first has for a phase at a rung (R186). -/
def Entered (s : State) (ph rung : Nat) (t : State) (c : CoreId) : Prop :=
  t.cst c = stRun ∧ t.pc c = entryPc s c ph rung % 2 ^ 13 ∧ (t.cx c).loops = []

variable {s} {ph rung : Nat}

theorem Entered.of_onlyWakes {t u : State} {c : CoreId} (h : Entered s ph rung t c) (k : OnlyWakes t u) :
    Entered s ph rung u c := by
  obtain ⟨hState, hPc, hLoops⟩ := h
  obtain ⟨hRegs, hKept⟩ := k
  exact ⟨(hRegs.rd (by decide) ..).trans hState, (hRegs.rd (by decide) ..).trans hPc, (hKept c).trans hLoops⟩

theorem enterAt_entered (c : CoreId) : Entered s ph rung (enterAt s c ph rung) c := by
  refine ⟨State.rd_wr_same .., ?_, by simp [enterAt, setLoops]⟩
  exact (State.rd_wr_ne _ (by decide) ..).trans (State.rd_wr_same ..)

/-- One core's entry leaves another where it is. -/
theorem Entered.of_enterAt {t : State} {c e : CoreId} (h : Entered s ph rung t e) (hne : e ≠ c) :
    Entered s ph rung (enterAt t c ph rung) e := by
  have hUnit : coreU e ≠ coreU c := fun hu => hne (coreU_inj hu)
  obtain ⟨hState, hPc, hLoops⟩ := h
  refine ⟨Eq.trans ?_ hState, Eq.trans ?_ hPc, Eq.trans ?_ hLoops⟩
  · simp [enterAt, setLoops, setBarWait, State.cst, State.setCst, State.rd_wr_unit _ hUnit]
  · simp [enterAt, setLoops, setBarWait, State.pc, State.setCst, State.rd_wr_unit _ hUnit]
  · simp [enterAt, setLoops, setBarWait, State.cx, State.setCx, State.setCst, State.wr, smGet_smSet_ne _ _ _ _ hUnit]

/-- R175, R186: each of the cores sent to a phase has entered it. -/
theorem foldl_enterAt_entered (s : State) (l : List CoreId) :
    ∀ c ∈ l, Entered s ph rung (l.foldl (fun t c => enterAt t c ph rung) s) c := by
  induction l using List.reverseRecOn with
  | nil => exact fun _ h => absurd h List.not_mem_nil
  | append_singleton l a ih =>
    intro c hc
    rw [List.foldl_append, List.foldl_cons, List.foldl_nil]
    by_cases h : c = a
    · subst h
      have hTable := entryPc_of_keeps (.foldl (fun t c => enterAt_keeps t c ph rung) l s) c ph rung
      obtain ⟨hState, hPc, hLoops⟩ := enterAt_entered (s := l.foldl (fun t c => enterAt t c ph rung) s) c
      exact ⟨hState, hTable ▸ hPc, hLoops⟩
    · exact (ih c (by simpa [h] using hc)).of_enterAt h

end Sys2Proof.Machine
end

section
/-! PROOFS. The start of a due rerun (R175, R186, R519). -/

namespace Sys2Proof.Machine

variable {s : State} {g : Gather} {q : Nat}

/-- R175: a rerun that waits for no other gather's may begin. -/
theorem rerunsBegun_of_waitOn (h : (s.gx g).waitOn = []) : rerunsBegun s g q = true := by
  simp [rerunsBegun, h]

/-- A due rerun taken up, with every core of the gather at its phase, before sleeping ones are woken (R175, R519). -/
def rerunEntered (s : State) (g : Gather) (q : Nat) : State :=
  (gatherCores s g).foldl (fun t c => enterAt t c q (rungOf s g)) (s.setGx g { s.gx g with rr := none })

theorem rerunEntered_gx : (rerunEntered s g q).gx g = { s.gx g with rr := none } := by
  rw [rerunEntered, (KeepsGathers.foldl (fun t c => enterAt_keeps t c q (rungOf s g)) _ _).gx]
  exact State.gx_setGx_same ..

theorem rerunEntered_entered : ∀ c ∈ gatherCores s g, Entered s q (rungOf s g) (rerunEntered s g q) c :=
  foldl_enterAt_entered (s.setGx g { s.gx g with rr := none }) _

theorem exec_rerunStart (hr : (s.gx g).rr = some q) (hf : (s.gx g).toFlush = []) (hw : (s.gx g).waitOn = [])
    (hs : startFree s g = true) :
    exec (.rerunStart g) s = .next (startWakes (rerunEntered s g q) g.die (gatherCores s g) true) := by
  show execRerunStart g s = _
  simp [execRerunStart, hr, hf, hs, rerunsBegun_of_waitOn hw, rerunEntered]

/-- R175, R186: the start of a due rerun takes every core of the gather to the phase. -/
theorem exec_rerunStart_enters (hr : (s.gx g).rr = some q) (hf : (s.gx g).toFlush = []) (hw : (s.gx g).waitOn = [])
    (hs : startFree s g = true) : ∃ t, exec (.rerunStart g) s = .next t ∧ (t.gx g).rr = none ∧ SameMemory s t ∧
      ∀ c ∈ gatherCores s g, t.cst c = stRun ∧ t.pc c = entryPc s c q (rungOf s g) % 2 ^ 13 ∧ (t.cx c).loops = [] := by
  have hx := exec_rerunStart hr hf hw hs
  have hWakes := startWakes_onlyWakes (rerunEntered s g q) g.die (gatherCores s g) true
  refine ⟨_, hx, ?_, sameMemory_of_exec hx (execRerunStart_mem s g), fun c hc => ?_⟩
  · rw [hWakes.1.gx, rerunEntered_gx]
  · exact (rerunEntered_entered c hc).of_onlyWakes hWakes

end Sys2Proof.Machine
end

section
/-! O34: verdicts on phases, and the start of a rerun (R167, R174, R175, R182, R186). -/

namespace Sys2Proof.Machine

/-- Settles O34: a verdict seals or recalls by the causes of the phase, and a rerun sends every core of the gather to it. -/
theorem sealVerdictsAndReruns : Obligations.SealVerdictsAndReruns := by
  unfold Obligations.SealVerdictsAndReruns
  intro g s p r hp
  refine ⟨exec_sealVerdict_running hp, fun he hd => ⟨fun hr hm => ⟨?_, ?_, ?_, sealPhase_seals 0, ?_⟩,
    exec_sealVerdict_recalls hp he hd⟩, fun q => exec_rerunStart_enters⟩
  · rw [exec_sealVerdict_ended hp he hd, judge_noCause hr hm]
  · rw [sealPhase_gx]
  · rw [sealPhase_gx, hp]
  · exact sameMemory_of_mem (sealPhase_mem s g p 0)

end Sys2Proof.Machine
end

section
/-! SUPPORT. The instruction word (R187): its width, its opcode and its fields. -/

namespace Sys2Proof.Machine

theorem encodeI_lt (opc : BitVec 8) (w : IFields) : encodeI opc.toNat w < 2 ^ 64 := by
  obtain ⟨d, a, b, fn, imm⟩ := w
  simp only [encodeI]
  omega

/-- Bits 63 to 56 of the word are the opcode (R187). -/
theorem encodeI_opcode (n : Nat) (w : IFields) : encodeI n w / 2 ^ 56 = n := by
  obtain ⟨d, a, b, fn, imm⟩ := w
  simp only [encodeI]
  omega

/-- The word gives back each of its fields (R187). -/
theorem fieldsOf_encodeI (n : Nat) (w : IFields) : fieldsOf (encodeI n w) = w := by
  obtain ⟨d, a, b, fn, imm⟩ := w
  simp only [fieldsOf, encodeI, bits, IFields.mk.injEq]
  refine ⟨?_, ?_, ?_, ?_, ?_⟩
  all_goals
    refine BitVec.eq_of_toNat_eq ?_
    rw [BitVec.toNat_ofNat]
    omega

/-- Instructions with one word have one opcode and one set of fields. -/
theorem encodeI_inj {m n : Nat} {v w : IFields} (h : encodeI m v = encodeI n w) : m = n ∧ v = w :=
  ⟨by rw [← encodeI_opcode m v, h, encodeI_opcode], by rw [← fieldsOf_encodeI m v, h, fieldsOf_encodeI]⟩

/-- Settles O4: opcode and fields are disjoint ranges of bits of the word, so that division and remainder find each of them. -/
theorem instructionWordRoundTrip : Obligations.InstructionWordRoundTrip := by
  unfold Obligations.InstructionWordRoundTrip
  exact ⟨fun opc w => ⟨encodeI_lt opc w, encodeI_opcode _ w, fieldsOf_encodeI _ w⟩,
    fun _ _ _ _ h => (encodeI_inj h).imp_left BitVec.eq_of_toNat_eq⟩

end Sys2Proof.Machine
end

section
/-! SUPPORT. What the command of an instruction ends with, for each kind of effect (R186, R216, R220). -/

namespace Sys2Proof.Machine

variable {s t : State} {c : CoreId} {opc : Nat} {f : Form} {w : IFields} {body : State → Eff}

/-- The outcome of the command of an instruction with an opcode, an operand form and an effect. -/
abbrev issued (opc : Nat) (f : Form) (c : CoreId) (w : IFields) (s : State) (body : State → Eff) :
    Host.Outcome State Fault Refusal :=
  .next (issue opc f c w s body)

theorem issued_done (h : Issues s c opc f w) (hb : body s = .done t) : issued opc f c w s body = .next (completed t c) :=
  congrArg _ (issue_done h hb)

theorem issued_jump {n : Int} (h : Issues s c opc f w) (hb : body s = .jump t n) (h0 : 0 ≤ n) (h1 : n < 8192) :
    issued opc f c w s body = .next (wentTo t c n.toNat) :=
  congrArg _ (issue_jump h hb h0 h1)

theorem issued_jump_out {n : Int} (h : Issues s c opc f w) (hb : body s = .jump t n) (h0 : n < 0 ∨ 8192 ≤ n) :
    issued opc f c w s body = .next (takeTrap s c trIfetch (unsgn 32 n)) :=
  congrArg _ (issue_jump_out h hb h0)

theorem issued_trap {code info : Nat} (h : Issues s c opc f w) (hb : body s = .trap code info) :
    issued opc f c w s body = .next (takeTrap s c code info) :=
  congrArg _ (issue_trap h hb)

theorem issued_wait {g : State → State} (h : Issues s c opc f w) (hb : body s = .wait g) (ht : g s = t) :
    issued opc f c w s body = .next t :=
  congrArg _ ((issue_wait h hb).trans ht)

theorem issued_held (h : Issues s c opc f w) (hb : body s = .held) : issued opc f c w s body = .next (s.setCst c stRun) :=
  congrArg _ (issue_held h hb)

theorem issued_away (h : atInstr s c opc w = false) : issued opc f c w s body = .next s := congrArg _ (issue_away h)

/-- A condition that holds lets the instruction go on. -/
theorem waitSync_of_true {ok : Bool} {k : State → Eff} (h : ok = true) : waitSync c s ok k = k s := if_pos h

/-- A condition that does not hold yet makes the core wait in WAIT_SYNC (R220). -/
theorem waitSync_of_false {ok : Bool} {k : State → Eff} (h : ok = false) :
    waitSync c s ok k = .wait fun s0 => s0.setCst c stWaitSync := if_neg (by simp [h])

end Sys2Proof.Machine
end

section
/-! O6, O7: the register-register and register-immediate instructions (R194). -/

namespace Sys2Proof.Machine

variable {s t : State} {c : CoreId} {w : IFields} {x y : Word} {opc : Nat}

/-- A register-register instruction writes its function of both sources. -/
theorem issued_aluRR (hr : Reads2 s c w x y t) (hi : Issues s c opc formRRR w) (f : Word → Word → Word) :
    issued opc formRRR c w s (aluRR f c w) = .next (wroteS t c w (f x y)) :=
  issued_done hi (withSrc2_val hr)

/-- A register-immediate instruction writes its function of its source and IMM. -/
theorem issued_aluRI (hr : Reads s c w.a x t) (hi : Issues s c opc formRRI w) (f : Word → Word → Word) :
    issued opc formRRI c w s (aluRI f c w) = .next (wroteS t c w (f x w.imm)) :=
  issued_done hi (withSrc_val hr)

/-- Settles O6: each instruction is `aluRR` with the function its rule names. -/
theorem scalarRegisterResults : Obligations.ScalarRegisterResults := by
  unfold Obligations.ScalarRegisterResults
  intro c w s t x y hr
  exact ⟨(issued_aluRR hr · opAdd), (issued_aluRR hr · opSub), (issued_aluRR hr · opAnd), (issued_aluRR hr · opOr),
    (issued_aluRR hr · opXor), (issued_aluRR hr · opSll), (issued_aluRR hr · opSrl), (issued_aluRR hr · opSra),
    (issued_aluRR hr · opSlt), (issued_aluRR hr · opSltu), (issued_aluRR hr · opMul), (issued_aluRR hr · opMulh),
    (issued_aluRR hr · opMin), (issued_aluRR hr · opMax), (issued_aluRR hr · opEq), (issued_aluRR hr · opNe)⟩

/-- Settles O7: each instruction is `aluRI` with the function its rule names. -/
theorem scalarImmediateResults : Obligations.ScalarImmediateResults := by
  unfold Obligations.ScalarImmediateResults
  intro c w s t x hr
  exact ⟨(issued_aluRI hr · opAdd), (issued_aluRI hr · opSub), (issued_aluRI hr · opAnd), (issued_aluRI hr · opOr),
    (issued_aluRI hr · opXor), (issued_aluRI hr · opSll), (issued_aluRI hr · opSrl), (issued_aluRI hr · opSra),
    (issued_aluRI hr · opSlt), (issued_aluRI hr · opSltu), (issued_aluRI hr · opMul), (issued_aluRI hr · opMulh),
    (issued_aluRI hr · opMin), (issued_aluRI hr · opMax), (issued_aluRI hr · opEq), (issued_aluRI hr · opNe)⟩

end Sys2Proof.Machine
end

section
/-! O8, O9: branches and jumps (R195, R196). -/

namespace Sys2Proof.Machine

variable {s t : State} {c : CoreId} {w : IFields} {x y : Word} {opc : Nat}

/-- A branch goes to PC + IMM where its comparison holds, and past the instruction where it does not. -/
theorem issued_branch {p : Word → Word → Bool} {q : Prop} [Decidable q] (hr : Reads2 s c w x y t)
    (h0 : 0 ≤ (s.pc c : Int) + w.imm.toInt) (h1 : (s.pc c : Int) + w.imm.toInt < 8192) (hq : p x y = true ↔ q)
    (hi : Issues s c opc formBr w) : issued opc formBr c w s (branch p c w) =
      .next (if q then wentTo t c ((s.pc c : Int) + w.imm.toInt).toNat else completed t c) := by
  have hb : branch p c w s = if p x y then .jump t ((s.pc c : Int) + w.imm.toInt) else .done t := withSrc2_val hr
  by_cases h : q
  · rw [if_pos (hq.mpr h)] at hb
    rw [if_pos h, issued_jump hi hb h0 h1]
  · rw [if_neg (mt hq.mp h)] at hb
    rw [if_neg h, issued_done hi hb]

/-- A taken branch whose target lies outside the memory traps. -/
theorem issued_branch_out {p : Word → Word → Bool} (hr : Reads2 s c w x y t) (hp : p x y = true)
    (ho : (s.pc c : Int) + w.imm.toInt < 0 ∨ 8192 ≤ (s.pc c : Int) + w.imm.toInt) (hi : Issues s c opc formBr w) :
    issued opc formBr c w s (branch p c w) = .next (takeTrap s c trIfetch (unsgn 32 ((s.pc c : Int) + w.imm.toInt))) :=
  issued_jump_out hi ((withSrc2_val hr).trans (if_pos hp)) ho

/-- JR goes to the low 13 bits of its source, which lie in the memory. -/
theorem issued_jr (hr : Reads s c w.a x t) (hi : Issues s c 0x38 { a := .sq } w) :
    issued 0x38 { a := .sq } c w s (bodyJr c w) = .next (wentTo t c (x.toNat % 8192)) := by
  have hb : bodyJr c w s = .jump t (x.toNat % 8192 : Nat) := withSrc_val hr
  rw [issued_jump hi hb (by omega) (by omega), Int.toNat_natCast]

/-- Settles O8: each branch by its comparison, the jumps by their targets. -/
theorem branchesAndJumps : Obligations.BranchesAndJumps := by
  unfold Obligations.BranchesAndJumps
  intro c w s t x y
  refine ⟨fun hr h0 h1 => ⟨?_, ?_, ?_, ?_, ?_, ?_⟩, fun h0 h1 => ⟨(issued_jump · rfl h0 h1), (issued_jump · rfl h0 h1)⟩, issued_jr⟩
  · exact issued_branch hr h0 h1 beq_iff_eq
  · exact issued_branch hr h0 h1 bne_iff_ne
  · exact issued_branch hr h0 h1 Iff.rfl
  · exact issued_branch hr h0 h1 (Bool.not_eq_true' _).to_iff
  · exact issued_branch hr h0 h1 Iff.rfl
  · exact issued_branch hr h0 h1 (Bool.not_eq_true' _).to_iff

/-- Settles O9: a target outside the memory traps with the state at issue, whatever the instruction was to do. -/
theorem jumpOutsideMemoryTraps : Obligations.JumpOutsideMemoryTraps := by
  unfold Obligations.JumpOutsideMemoryTraps
  intro c w s t x ho
  exact ⟨fun hr => issued_branch_out hr (beq_self_eq_true x) ho, (issued_jump_out · rfl ho), (issued_jump_out · rfl ho)⟩

end Sys2Proof.Machine
end

section
/-! O10: LOOP and the address descriptors (R195, R197). -/

namespace Sys2Proof.Machine

variable {s t : State} {c : CoreId} {w : IFields} {x : Word}

/-- The effect of LOOP with a body that none of its checks refuses. -/
theorem bodyLoop_fits (hr : Reads s c w.a x t) (hn : w.imm.toNat ≠ 0) (hm : s.pc c + w.imm.toNat < 8192)
    (hd : (s.cx c).loops.length < 4) (hl : ∀ l ∈ (s.cx c).loops.head?, s.pc c + w.imm.toNat ≤ l.last) :
    bodyLoop c w s = .done (if x = 0 then t.wr Reg.CS_PC_PC (coreU c) (s.pc c + w.imm.toNat)
      else setLoops t c (⟨s.pc c + 1, s.pc c + w.imm.toNat, x.toNat⟩ :: (t.cx c).loops)) := by
  have hin : (match (s.cx c).loops with | [] => true | l :: _ => decide (s.pc c + w.imm.toNat ≤ l.last)) = true := by
    cases h : (s.cx c).loops with
    | nil => rfl
    | cons l r => exact decide_eq_true (hl l (by simp [h]))
  unfold bodyLoop
  extract_lets n pc ls inside
  have hinside : inside = true := hin
  rw [if_neg (by simp [hinside, n, hn]), if_neg (by simpa [ls] using hd), if_neg (by simpa [n, pc] using hm), withSrc_val hr]
  split <;> rfl

/-- Settles O10: LOOP by its checks, the descriptor instructions by their effects. -/
theorem loopAndDescriptorResults : Obligations.LoopAndDescriptorResults := by
  unfold Obligations.LoopAndDescriptorResults
  intro c w s t x y
  refine ⟨fun hr hi hn hm hd hl => issued_done hi (bodyLoop_fits hr hn hm hd hl), fun hr hi => issued_done hi (withSrc2_val hr),
    (issued_done · rfl), fun hr hi => issued_done hi (withSrc_val hr), fun hi => ⟨fun h => ?_, fun h => ?_, fun h => ?_, fun h => ?_⟩⟩
  · exact issued_done hi (by rw [bodyAget, h]; rfl)
  · exact issued_done hi (by rw [bodyAget, h]; rfl)
  · exact issued_done hi (by rw [bodyAget, h]; rfl)
  · exact issued_trap hi (by rw [bodyAget, h]; rfl)

end Sys2Proof.Machine
end

section
/-! O11: loads and stores of the core's own scratchpad (R198, R239, R629). -/

namespace Sys2Proof.Machine

variable {s t : State} {c : CoreId} {w : IFields} {x y : Word} {a n align : Nat} {write : Bool} {k : State → Eff}

/-- An access that lies in the populated scratchpad, is aligned and whose lines the scoreboard admits goes on. -/
theorem withLocal_admitted (hl : a + n ≤ spLimit s c) (ha : a % align = 0)
    (hs : sbAdmits (s.cx c).sb [bytesRange a n write] = true) : withLocal c s a n align write k = k s := by
  rw [withLocal, if_neg (Nat.not_lt.mpr hl), if_neg (not_not.mpr ha), withRanges, if_pos hs]

/-- A VLD or VST with a VEC share in the bank slot table is a local access (R629). -/
theorem vec_not_held {e f : Eff} (h : bankShare s c ownVec ≠ 0) :
    (if a + 256 ≤ spLimit s c ∧ a % 64 = 0 ∧ bankShare s c ownVec = 0 then e else f) = f :=
  if_neg fun hh => h hh.2.2

/-- Settles O11: each access passes its check, and its effect is that of the access. -/
theorem localLoadsAndStores : Obligations.LocalLoadsAndStores := by
  unfold Obligations.LocalLoadsAndStores
  intro c w s t x y a
  refine ⟨?_, ?_, ?_, ?_, ?_⟩
  · rintro hr rfl hl ha hs hi
    exact issued_done hi ((withSrc_val hr).trans (withLocal_admitted hl ha hs))
  · rintro hr rfl hl ha hs hi
    exact issued_done hi ((withSrc2_val hr).trans (withLocal_admitted hl ha hs))
  · rintro hr rfl hl ha hs hi
    exact issued_done hi ((withSrc_val hr).trans (withLocal_admitted hl ha hs))
  · rintro hr rfl hl ha hs hi
    exact issued_done hi ((withSrc_val hr).trans (withLocal_admitted hl ha hs))
  · rintro rfl hl ha hv
    exact ⟨fun hs hi => issued_done hi ((vec_not_held hv).trans (withLocal_admitted hl ha hs)),
      fun hs hi => issued_done hi ((vec_not_held hv).trans (withLocal_admitted hl ha hs))⟩

end Sys2Proof.Machine
end

section
/-! O13 to O16: lane operations of Marver (R202-R206). -/

namespace Sys2Proof.Machine

variable {s t : State} {c : CoreId} {w : IFields} {opc : Nat} {frm : Form}

/-- The effect of a lane-wise operation on one register of a known type. -/
theorem vec1_known (f : Nat → Nat → LaneRes) (h : tKnown (vType w) = true) :
    vec1 c w s f = doneV c w (tBits (vType w)) ((lanesOf s c w w.a.toNat).map (f (vType w))) s :=
  if_pos h

/-- The effect of a lane-wise operation on two registers of a known type that it takes. -/
theorem vec2_known {ok : Nat → Bool} (f : Nat → Nat → Nat → LaneRes) (h : tKnown (vType w) = true) (hk : ok (vType w) = true) :
    vec2 c w s ok f = doneV c w (tBits (vType w))
      (map2 (f (vType w)) (lanesOf s c w w.a.toNat) (lanesOf s c w w.b.toNat)) s :=
  if_pos (by rw [h, hk]; rfl)

/-- The effect of a lane-wise operation on three registers of a known type that it takes. -/
theorem vec3_known {ok : Nat → Bool} (f : Nat → Nat → Nat → Nat → LaneRes) (h : tKnown (vType w) = true)
    (hk : ok (vType w) = true) : vec3 c w s ok f = doneV c w (tBits (vType w))
      (map3 (f (vType w)) (lanesOf s c w w.a.toNat) (lanesOf s c w w.b.toNat) (lanesOf s c w (vSrcC w))) s :=
  if_pos (by rw [h, hk]; rfl)

/-- An instruction that completes a lane operation. -/
theorem issued_lanes {body : State → Eff} {width : Nat} {l : List LaneRes} (hi : Issues s c opc frm w)
    (hb : body s = doneV c w width l t) : issued opc frm c w s body = .next (wroteLanes t c w width l) :=
  issued_done hi hb

/-- Settles O13: each operation is a lane-wise one of the type it takes. -/
theorem vectorLaneResults : Obligations.VectorLaneResults := by
  unfold Obligations.VectorLaneResults
  intro c w s _ hk
  refine ⟨fun ha => ⟨fun hi => issued_lanes hi (vec2_known laneAdd hk ha), fun hi => issued_lanes hi (vec2_known laneSub hk ha),
      fun hi => issued_lanes hi (vec2_known laneMul hk ha)⟩,
    fun hi => issued_lanes hi (vec2_known laneMin hk rfl), fun hi => issued_lanes hi (vec2_known laneMax hk rfl),
    fun hi => issued_lanes hi (vec1_known laneAbs hk), fun hi => issued_lanes hi (vec1_known laneNeg hk),
    fun ha hi => issued_lanes hi (vec3_known laneFma hk ha), fun hp hi => issued_lanes hi ?_,
    fun hi => issued_lanes hi (vec3_known laneSel hk rfl), fun ht => ?_⟩
  · have h7 : w.fn.toNat ≠ 7 := fun h => hp (BitVec.eq_of_toNat_eq h)
    exact (if_neg h7).trans (vec2_known (laneCmp w.fn.toNat) hk rfl)
  · have hint : okInt (vType w) = true := beq_iff_eq.mpr ht
    exact ⟨fun hi => issued_lanes hi (vec2_known (fun _ x y => (x &&& y, {})) hk hint),
      fun hi => issued_lanes hi (vec2_known (fun _ x y => (x ||| y, {})) hk hint),
      fun hi => issued_lanes hi (vec2_known (fun _ x y => (x ^^^ y, {})) hk hint),
      fun hi => issued_lanes hi ((if_pos ht).trans (vec1_known (fun _ => laneShift (bit w.fn.toNat 0) (bits w.imm.toNat 8 5)) hk))⟩

/-- An INT32 lane moves as it is. -/
theorem laneMove_int (k : Nat) : laneMove 15 k = (k, {}) := rfl

/-- A float lane that is no NaN moves as it is (R113). -/
theorem laneMove_number {n k : Nat} (hn : n ≠ 15) (hk : (decodeElem n k == .nan) = false) : laneMove n k = (k, {}) := by
  rw [laneMove, if_neg hn]
  exact if_neg (by simp [hk])

/-- Settles O14: moves by lane as lane operations, VEXT and VINS by their word. -/
theorem vectorMovesAndPermutes : Obligations.VectorMovesAndPermutes := by
  unfold Obligations.VectorMovesAndPermutes
  intro c w s t x
  refine ⟨fun hk => ⟨fun hi => issued_lanes hi (vec1_known laneMove hk), fun hr h8 hi => issued_lanes hi ?_,
    fun k => ⟨laneMove_int k, laneMove_number⟩, by decide, fun hi => issued_lanes hi (if_pos hk), fun hi => ?_⟩,
    (issued_done · rfl), fun hr hi => issued_done hi (withSrc_val hr)⟩
  · exact (if_pos (by rw [hk, h8]; rfl)).trans (withSrc_val hr)
  · have hw : slideBits s w = tBits (vType w) := if_pos hk
    refine issued_lanes hi ((if_pos hk).trans ?_)
    rw [hw]
    rfl

/-- A reduction whose segments fit the register and number at most 64 writes one lane for each. -/
theorem reduce_fits (f : Nat → List Nat → LaneRes) (hk : tKnown (vType w) = true)
    (hs : 2 ^ (w.fn.toNat % 16) ≤ (lanesOf s c w w.a.toNat).length)
    (hn : (lanesOf s c w w.a.toNat).length / 2 ^ (w.fn.toNat % 16) ≤ 64) :
    reduce c w s f = doneV c w 32 ((chunks (2 ^ (w.fn.toNat % 16)) (lanesOf s c w w.a.toNat).length
      (lanesOf s c w w.a.toNat)).map (f (vType w))) s :=
  (if_neg (by simp [hk])).trans (if_neg (not_or.mpr ⟨Nat.not_lt.mpr hs, Nat.not_lt.mpr hn⟩))

/-- A reduction whose segments do not fit the register or are more than 64 is ILLEGAL. -/
theorem reduce_refused (f : Nat → List Nat → LaneRes) (hk : tKnown (vType w) = true)
    (h : (lanesOf s c w w.a.toNat).length < 2 ^ (w.fn.toNat % 16) ∨
      64 < (lanesOf s c w w.a.toNat).length / 2 ^ (w.fn.toNat % 16)) : reduce c w s f = .trap trIllegal 0 :=
  (if_neg (by simp [hk])).trans (if_pos h)

/-- Both outcomes of a reduction. -/
theorem issued_reduce (f : Nat → List Nat → LaneRes) (hk : tKnown (vType w) = true) (hi : Issues s c opc frm w) :
    (2 ^ (w.fn.toNat % 16) ≤ (lanesOf s c w w.a.toNat).length →
      (lanesOf s c w w.a.toNat).length / 2 ^ (w.fn.toNat % 16) ≤ 64 →
      issued opc frm c w s (fun s => reduce c w s f) = .next (wroteLanes s c w 32 ((chunks (2 ^ (w.fn.toNat % 16))
        (lanesOf s c w w.a.toNat).length (lanesOf s c w w.a.toNat)).map (f (vType w))))) ∧
    ((lanesOf s c w w.a.toNat).length < 2 ^ (w.fn.toNat % 16) ∨
        64 < (lanesOf s c w w.a.toNat).length / 2 ^ (w.fn.toNat % 16) →
      issued opc frm c w s (fun s => reduce c w s f) = .next (takeTrap s c trIllegal 0)) :=
  ⟨fun hs hn => issued_lanes hi (reduce_fits f hk hs hn), fun h => issued_trap hi (reduce_refused f hk h)⟩

/-- Settles O15: each of the four is a reduction with the function its rule names. -/
theorem segmentedReductions : Obligations.SegmentedReductions := by
  unfold Obligations.SegmentedReductions
  intro c w s _ hk o f g i hm hi
  simp only [List.mem_cons, Prod.mk.injEq, List.not_mem_nil, or_false] at hm
  obtain ⟨rfl, rfl, rfl, rfl⟩ | ⟨rfl, rfl, rfl, rfl⟩ | ⟨rfl, rfl, rfl, rfl⟩ | ⟨rfl, rfl, rfl, rfl⟩ := hm
  · exact issued_reduce _ hk hi
  · exact issued_reduce _ hk hi
  · exact issued_reduce _ hk hi
  · exact issued_reduce _ hk hi

/-- FP32 and BF16 are known types. -/
theorem tKnown_of_trans (h : vType w = 0 ∨ vType w = 2) : tKnown (vType w) = true := by
  rcases h with h | h <;> rw [h] <;> rfl

/-- The effect of a transcendental operation on a type it takes. -/
theorem transBody_takes (op : Nat) (h : vType w = 0 ∨ vType w = 2) :
    transBody op c w s = doneV c w (tBits (vType w)) ((lanesOf s c w w.a.toNat).map (transLane op (vType w))) s :=
  (if_pos h).trans (vec1_known _ (tKnown_of_trans h))

theorem issued_trans (op : Nat) (h : vType w = 0 ∨ vType w = 2) (hi : Issues s c opc frm w) :
    issued opc frm c w s (transBody op c w) =
      .next (wroteLanes s c w (tBits (vType w)) ((lanesOf s c w w.a.toNat).map (transLane op (vType w)))) :=
  issued_lanes hi (transBody_takes op h)

/-- At an operand with a special result an FP32 lane is that result (R206). -/
theorem transLane_special {op x : Nat} {r : LaneRes} (h : transSpecial op (decodeElem 0 x) = some r) : transLane op 0 x = r := by
  simp only [transLane, trans32, h, if_true]

/-- The first number of a lane with a special result. -/
theorem transLane_special_fst {op x n : Nat} {r : LaneRes} (h : transSpecial op (decodeElem 0 x) = some r) (hr : r.1 = n) :
    (transLane op 0 x).1 = n :=
  (congrArg Prod.fst (transLane_special h)).trans hr

/-- The special results of log2 and ln at zeros and at a negative operand. -/
theorem transSpecial_log : ∀ k ∈ [2, 3], transSpecial k (decodeElem 0 0) = some (0xFF800000, { ovf := true }) ∧
    transSpecial k (decodeElem 0 0x80000000) = some (0xFF800000, { ovf := true }) ∧
    transSpecial k (decodeElem 0 0xBF800000) = some (0x7FC00000, { nan := true }) := by decide

/-- Sine and cosine have no value at the infinities. -/
theorem transSpecial_trig : ∀ k ∈ [10, 11], transSpecial k (decodeElem 0 0x7F800000) = some (0x7FC00000, { nan := true }) ∧
    transSpecial k (decodeElem 0 0xFF800000) = some (0x7FC00000, { nan := true }) := by decide

/-- Settles O16: each operation is a lane-wise one, and the table of its special operands comes before every other result. -/
theorem transcendentalResults : Obligations.TranscendentalResults := by
  unfold Obligations.TranscendentalResults
  intro c w s _ ht
  have fst {op x n : Nat} {r : LaneRes} := @transLane_special_fst op x n r
  have trig (hi : Issues s c 0x8A formTrig w) :
      (bit w.fn.toNat 0 = false → exec (.vsin c w) s = issued 0x8A formTrig c w s (transBody 10 c w)) ∧
        (bit w.fn.toNat 0 = true → exec (.vcos c w) s = issued 0x8A formTrig c w s (transBody 11 c w)) :=
    ⟨fun h => congrArg Host.Outcome.next (if_neg (by simp [h])), fun h => congrArg Host.Outcome.next (if_pos h)⟩
  refine ⟨issued_trans 0 ht, issued_trans 1 ht, issued_trans 2 ht, issued_trans 3 ht, issued_trans 4 ht, issued_trans 5 ht,
    issued_trans 6 ht, issued_trans 7 ht, issued_trans 8 ht, issued_trans 9 ht,
    fun hi => ⟨fun h => ((trig hi).1 h).trans (issued_trans 10 ht hi), fun h => ((trig hi).2 h).trans (issued_trans 11 ht hi)⟩,
    fun k _ => ?_, fst rfl rfl, fst rfl rfl, fst rfl rfl, fst rfl rfl, fun k hk => ?_, fst rfl rfl, fst rfl rfl, ?_, fst rfl rfl, fst rfl rfl, fst rfl rfl, fst rfl rfl, ?_,
    fst rfl rfl, fst rfl rfl, fst rfl rfl, fst rfl rfl, fst rfl rfl, fst rfl rfl, fst rfl rfl, fst rfl rfl, fst rfl rfl, fun k hk => ?_⟩
  · have hn : transLane k 0 0x7FC00000 = (0x7FC00000, { nan := true }) := transLane_special rfl
    exact ⟨congrArg Prod.fst hn, congrArg (·.2.nan) hn⟩
  · obtain ⟨hz, hnz, hneg⟩ := transSpecial_log k hk
    exact ⟨fst hz rfl, fst hnz rfl, fst hneg rfl⟩
  · exact congrArg (·.2.divz) (transLane_special (op := 4) (x := 0) rfl)
  · exact congrArg (·.2.divz) (transLane_special (op := 5) (x := 0x80000000) rfl)
  · obtain ⟨hp, hn⟩ := transSpecial_trig k hk
    exact ⟨fst hp rfl, fst hn rfl⟩

end Sys2Proof.Machine
end

section
/-! O12: what the stores of a core leave unchanged (R198, R225). -/

namespace Sys2Proof.Machine

variable {s t u : State} {c : CoreId} {w : IFields} {lo n : Nat}

/-- A memory in which every byte outside a range is that of a state. -/
def KeptOutside (lo n : Nat) (s : State) (m : List Host.Cell) : Prop :=
  ∀ a, a < lo ∨ lo + n ≤ a → smGet 0 m a = s.rdByte a

theorem keptOutside_of_mem {m : List Host.Cell} (h : m = s.mem) : KeptOutside lo n s m := fun _ _ => h ▸ rfl

theorem leBytes_length (n v : Nat) : (leBytes n v).length = n := by
  induction n generalizing v with
  | zero => rfl
  | succ n ih => exact congrArg (· + 1) (ih (v / 256))

/-- Bytes stored from an address on leave every byte outside them, the kept words among them too. -/
theorem State.rdByte_wrKeep (keep : List Nat) (l : List Byte) : ∀ (s : State) (a m : Nat), m < a ∨ a + l.length ≤ m →
    (s.wrKeep keep a l).rdByte m = s.rdByte m := by
  induction l with
  | nil => intro s a m _; rfl
  | cons b r ih =>
    intro s a m h
    rw [List.length_cons] at h
    rw [State.wrKeep, ih _ _ _ (by omega)]
    split
    · rfl
    · exact State.rdByte_wrByte_ne s (by omega) b

/-- A store to the scratchpad leaves every byte outside the stored ones. -/
theorem spWrite_rdByte (s : State) (c : CoreId) (off : Nat) (bs : List Byte) (req : Nat) {a : Nat}
    (h : a < spBase c + off ∨ spBase c + off + bs.length ≤ a) : (spWrite s c off bs req).rdByte a = s.rdByte a := by
  unfold spWrite
  extract_lets b
  split
  · exact State.rdByte_wrBytes bs s b a h
  · extract_lets part keep s1 s2
    have hmem : s2.mem = s.mem := by
      rw [foldl_mem _ fun (t : State) (p : Nat × Nat) => setBad_mem t p.1 0,
        foldl_mem _ fun (t : State) (p : Nat × Nat) => eccEvent_mem t c req p]
    rw [State.rdByte_wrKeep keep bs s2 b a h]
    exact congrArg (smGet 0 · a) hmem

/-- A store to the scratchpad keeps a memory outside a range that covers it. -/
theorem spWrite_keptOutside {off : Nat} {bs : List Byte} (h : KeptOutside (spBase c + off) n s t.mem) (hn : bs.length = n)
    (req : Nat) : KeptOutside (spBase c + off) n s (spWrite t c off bs req).mem := fun a ha =>
  (spWrite_rdByte t c off bs req (hn.symm ▸ ha)).trans (h a ha)

/-- An instruction whose effect keeps memory outside a range reads every byte there as before. -/
theorem sameOutside_of_issue {opc : Nat} {f : Form} {body : State → Eff} (hb : (body s).Keeps (KeptOutside lo n s))
    (h : issued opc f c w s body = .next u) : SameOutside lo n s u := by
  cases h
  exact issue_keeps (keptOutside_of_mem rfl) hb

/-- Settles O12: each store's effect writes its bytes only, and waits and traps write none. -/
theorem storesChangeOnlyTheirBytes : Obligations.StoresChangeOnlyTheirBytes := by
  unfold Obligations.StoresChangeOnlyTheirBytes
  intro c w s t x y u
  refine ⟨fun hr _ hx => sameOutside_of_issue ?_ hx, fun hr _ hx => sameOutside_of_issue ?_ hx,
    fun _ hx => sameOutside_of_issue ?_ hx⟩
  · obtain ⟨s1, hrA, hrB⟩ := hr
    rw [bodySw, withSrc2_val ⟨s1, hrA, hrB⟩]
    exact withLocal_keeps (spWrite_keptOutside
      (keptOutside_of_mem ((readSrc_mem s1 hrB).trans (readSrc_mem s hrA))) (leBytes_length ..) _)
  · rw [bodySa, withSrc_val hr]
    exact withLocal_keeps (spWrite_keptOutside (keptOutside_of_mem (readSrc_mem s hr)) (leBytes_length ..) _)
  · rw [bodyVst]
    refine (Eff.keeps_ite _ _).mpr ?_
    split
    · trivial
    · refine withLocal_keeps ?_
      rw [Eff.keeps_done, vecPost_mem]
      exact spWrite_keptOutside (keptOutside_of_mem rfl) (leBytes_length ..) _

end Sys2Proof.Machine
end

section
/-! O18: what a scalar source gives (R184, R191). -/

namespace Sys2Proof.Machine

variable {s : State} {c : CoreId} {w : IFields} {p q : Nat} {code : BitVec 6} {k : Word → State → Eff}

/-- A source code from 0x30 on is a q port. -/
theorem readSrc_port (h : code.toNat = 0x30 + p) : readSrc s c code.toNat = readPort s c p := by
  rw [readSrc, if_neg (by omega), h, Nat.add_sub_cancel_left]

theorem readPort_unbound (h : smGet 0 (s.cx c).qbind p = 0) : readPort s c p = .illegal := by
  simp only [readPort, h]

theorem readPort_empty (h : smGet 0 (s.cx c).qbind p = q + 1) (he : smGet [] (s.cx c).entries q = []) :
    readPort s c p = .waitQ p := by
  simp only [readPort, h, he]

theorem readPort_entry {e : QEnt} {r : List QEnt} (h : smGet 0 (s.cx c).qbind p = q + 1)
    (he : smGet [] (s.cx c).entries q = e :: r) : readPort s c p =
      .val (BitVec.ofNat 32 (e.word (s.rd Reg.CQ_Q_WORD (coreU c) q)))
        (if s.rd Reg.CQ_Q_WORD (coreU c) q = 3 then popHead s c q
         else s.wr Reg.CQ_Q_WORD (coreU c) (s.rd Reg.CQ_Q_WORD (coreU c) q + 1) q) := by
  simp only [readPort, h, he]

theorem withSrc_illegal (h : readSrc s c code.toNat = .illegal) : withSrc c code s k = .trap trIllegal 0 := by
  rw [withSrc, h]

theorem withSrc_waitQ (h : readSrc s c code.toNat = .waitQ p) :
    withSrc c code s k = .wait fun s0 => (s0.setCst c stWaitQ).wr Reg.CS_STAT_QPORT (coreU c) p := by
  rw [withSrc, h]

/-- Settles O18: a source is a register or a port, and a port is unbound, empty or has a head entry. -/
theorem operandPorts : Obligations.OperandPorts := by
  unfold Obligations.OperandPorts
  intro c s
  refine ⟨fun _ => reads_scalar, rdS_zero, fun p q code e r hp hq he => (readSrc_port hp).trans (readPort_entry hq he),
    fun w p hp hi => ⟨fun hq => issued_trap hi ?_, fun q hq he => ?_⟩⟩
  · exact withSrc_illegal ((readSrc_port hp).trans (readPort_unbound hq))
  · exact issued_wait hi (withSrc_waitQ ((readSrc_port hp).trans (readPort_empty hq he))) rfl

end Sys2Proof.Machine
end

section
/-! O19: the system instructions (R214, R215). -/

namespace Sys2Proof.Machine

/-- Settles O19: FENCE and HALT by what they wait for, CSRR by what the offset reads. -/
theorem systemInstructions : Obligations.SystemInstructions := by
  unfold Obligations.SystemInstructions
  intro c w s
  refine ⟨(issued_done · rfl), fun hi => ?_, (issued_trap · rfl), fun hi => ?_, fun hi => ⟨fun v t hv => ?_, fun hv => ?_⟩⟩
  · cases hf : fenceDone s c (bit w.fn.toNat 0) with
    | true => exact issued_done hi (waitSync_of_true hf)
    | false => exact issued_wait hi (waitSync_of_false hf) rfl
  · cases hf : fenceDone s c true with
    | true => exact issued_wait hi (waitSync_of_true hf) rfl
    | false => exact issued_wait hi (waitSync_of_false hf) rfl
  · exact issued_done hi (by rw [bodyCsrr, hv]; rfl)
  · exact issued_trap hi (by rw [bodyCsrr, hv])

end Sys2Proof.Machine
end

section
/-! O20: taking a trap (R185, R188, R216, R544). -/

namespace Sys2Proof.Machine

variable {s t : State} {c : CoreId}

/-- A scalar register depends on the fields of CS_SREG alone. -/
theorem rdS_congr {n : Nat} (h : t.rd Reg.CS_SREG_VALUE (coreU c) n = s.rd Reg.CS_SREG_VALUE (coreU c) n) :
    rdS t c n = rdS s c n := by
  rw [rdS, rdS, h]

/-- A trap leaves every scalar and address register as it was (R216). -/
theorem rdS_takeTrap (code info own n : Nat) : rdS (takeTrap s c code info own) c n = rdS s c n :=
  rdS_congr (takeTrapAt_rd (F := Reg.CS_SREG_VALUE) _ _ _ _ _ _ (by decide) ..)

theorem rdA_takeTrap (code info own n : Nat) : rdA (takeTrap s c code info own) c n = rdA s c n := by
  have hlo := takeTrapAt_rd (F := Reg.CS_AREG_LO) s c code info own (s.pc c) (by decide) (coreU c) n 0
  have hhi := takeTrapAt_rd (F := Reg.CS_AREG_HI) s c code info own (s.pc c) (by decide) (coreU c) n 0
  rw [rdA, rdA, State.rd64, State.rd64]
  exact congrArg₂ (fun a b => a + 2 ^ 32 * b) hlo hhi

/-- The PC is not among what a trap writes. -/
theorem takeTrap_pc (code info own : Nat) : (takeTrap s c code info own).pc c = s.pc c :=
  takeTrapAt_rd (F := Reg.CS_PC_PC) _ _ _ _ _ _ (by decide) ..

/-- A core after an uncorrectable error on an instruction fetch, before the event is reported: trapped and dead, its router in
pass-through (R185, R544). -/
def fetchDead (s : State) (c : CoreId) : State :=
  (((takeTrap s c trImemUe (s.pc c)).setCx c { (takeTrap s c trImemUe (s.pc c)).cx c with dead := true }).wb
    Reg.DN_RSTAT_PASSTHRU (coreU c) true).lg LogKind.coreDead (coreU c) []

theorem exec_imemUe (h : canIssue s c = true) : exec (.imemUe c) s =
    .next (raiseCore (fetchDead s c) c false (coreEvent (takeTrap s c trImemUe (s.pc c)) c 0 0x0E (2 ^ 17) [])) :=
  congrArg Host.Outcome.next (if_pos h)

@[simp] theorem raiseCore_rd (s : State) (c : CoreId) (info : Bool) (e : FaultEvent) (F : Field) (u i j : Nat) :
    (raiseCore s c info e).rd F u i j = s.rd F u i j := (rfl)

/-- Beside PASSTHRU such a core's registers are those of its trap. -/
theorem fetchDead_rd {F : Field} (h : F.id ≠ Reg.DN_RSTAT_PASSTHRU.id) (u i j : Nat) :
    (fetchDead s c).rd F u i j = (takeTrap s c trImemUe (s.pc c)).rd F u i j := by
  rw [fetchDead, State.lg_rd, State.rd_wb_ne (Ne.symm h), State.setCx_rd]

/-- Settles O20: the trap by the laws about it, ILLEGAL and IMEM_UE as traps that are taken. -/
theorem trapsArePrecise : Obligations.TrapsArePrecise := by
  unfold Obligations.TrapsArePrecise
  intro c s
  refine ⟨fun code info own hc => ⟨?_, takeTrapAt_valid .., takeTrapAt_info .., takeTrapAt_pc .., takeTrapAt_word_low ..,
    takeTrapAt_word_high .., takeTrapAt_cst .., takeTrapAt_out .., takeTrap_pc .., takeTrapAt_cores .., fun n => rdS_takeTrap ..,
    fun n => rdA_takeTrap .., sameMemory_of_mem (takeTrapAt_mem ..)⟩, fun hc ho => ?_, fun hc => ?_⟩
  · exact (takeTrapAt_code ..).trans (Nat.mod_eq_of_lt (by omega))
  · exact congrArg Host.Outcome.next (if_pos (by rw [hc, ho]; rfl))
  · refine ⟨_, exec_imemUe hc, ?_, ?_, ?_, ?_, ?_, sameMemory_of_mem rfl⟩
    · rw [raiseCore_rd, fetchDead_rd (by decide)]
      exact takeTrapAt_code ..
    · rw [raiseCore_rd, fetchDead_rd (by decide)]
      exact takeTrapAt_info ..
    · rw [State.cst, raiseCore_rd, fetchDead_rd (by decide)]
      exact takeTrapAt_cst ..
    · exact congrArg CoreX.dead (State.cx_setCx_same ..)
    · rw [State.rb, raiseCore_rd, fetchDead, State.lg_rd]
      exact State.rb_wb_same _ _ _ true _ _ (by decide)

end Sys2Proof.Machine
end

section
/-! O2: reset values (R37, R67, R220, R391). -/

namespace Sys2Proof.Machine

/-- After reset every field reads its reset value. -/
theorem State.rd_reset (F : Field) (u i j : Nat) : State.reset.rd F u i j = fieldReset F u i := rfl

/-- Settles O2: no register is written yet. -/
theorem resetRegisters : Obligations.ResetRegisters := by
  unfold Obligations.ResetRegisters
  exact ⟨fun u _ => ⟨State.rd_reset .., rfl⟩, fun d _ r _ => ⟨State.rd_reset .., State.rd_reset ..⟩, fun _ _ => rfl, rfl, rfl⟩

end Sys2Proof.Machine
end

section
/-! O31: an instruction command acts only at its core's PC (R186, R220, R516). -/

namespace Sys2Proof.Machine

variable {s : State} {c : CoreId} {w : IFields} {opc : Nat}

theorem atInstr_of_canIssue_false (h : canIssue s c = false) : atInstr s c opc w = false := by
  rw [atInstr, h, Bool.false_and]

theorem atInstr_of_other_word (h : imemWord s c (s.pc c) ≠ encodeI opc w) : atInstr s c opc w = false := by
  rw [atInstr, beq_eq_false_iff_ne.mpr h, Bool.and_false]

/-- A core deeper than C2, or in C2 without a wake in progress, has no awake sequencer (R97, R516). -/
theorem seqAwake_of_deep (h : 3 ≤ s.rd Reg.LH_CSTATE_STATE (coreU c) ∨
    (2 ≤ s.rd Reg.LH_CSTATE_STATE (coreU c) ∧ (s.cx c).waking = none)) : seqAwake s c = false := by
  rw [seqAwake, Bool.or_eq_false_iff, decide_eq_false_iff_not]
  rcases h with h | ⟨h, hw⟩
  · exact ⟨by omega, by rw [beq_eq_false_iff_ne.mpr (by omega), Bool.false_and]⟩
  · exact ⟨by omega, by rw [hw, Option.isSome_none, Bool.and_false]⟩

/-- What keeps a core from issuing: no clock, death, sleep, a trap, a halt or idleness, a barrier (R220, R516). -/
theorem canIssue_false (h : s.rb Reg.BT_CLKSTAT_STOPPED c.die.val = true ∨ (s.cx c).dead = true ∨ stTrapped ≤ s.cst c ∨
    (s.cx c).barWait ≠ none ∨ 3 ≤ s.rd Reg.LH_CSTATE_STATE (coreU c) ∨
    (2 ≤ s.rd Reg.LH_CSTATE_STATE (coreU c) ∧ (s.cx c).waking = none)) : canIssue s c = false := by
  rcases h with h | h | h | h | h
  · simp [canIssue, coreLive, h]
  · simp [canIssue, coreLive, h]
  · have : ¬ s.cst c ≤ stWaitSync := Nat.not_le.mpr h
    simp [canIssue, this]
  · simp [canIssue, Option.isNone_eq_false_iff.mpr (Option.isSome_iff_ne_none.mpr h)]
  · simp [canIssue, coreLive, seqAwake_of_deep h]

/-- Settles O31: every command of the list is the issue of its opcode. -/
theorem instructionsNeedTheirCore : Obligations.InstructionsNeedTheirCore := by
  unfold Obligations.InstructionsNeedTheirCore
  intro c w s i o hm
  refine ⟨fun h => ?_, canIssue_false⟩
  have ha : atInstr s c o w = false := h.elim atInstr_of_canIssue_false atInstr_of_other_word
  simp only [List.mem_cons, Prod.mk.injEq, List.not_mem_nil, or_false] at hm
  iterate 25
    obtain ⟨rfl, rfl⟩ | hm := hm
    · exact issued_away ha
  obtain ⟨rfl, rfl⟩ := hm
  exact issued_away ha

end Sys2Proof.Machine
end

section
/-! O28: the instructions of queue ports (R210, R343). -/

namespace Sys2Proof.Machine

/-- Settles O28: QBIND by the state of the queue, QPOP and QCOUNT by the queue that the port names. -/
theorem queuePortInstructions : Obligations.QueuePortInstructions := by
  unfold Obligations.QueuePortInstructions
  rintro c w s t x p rfl
  refine ⟨fun hr hi => ⟨fun hb => ?_, fun hb => ⟨fun h0 h3 => ?_, fun h => ?_⟩⟩, fun hi => ⟨fun hq => ?_, fun q hq => ?_⟩,
    fun hi => ⟨fun q hq => ?_, fun hq => ?_⟩⟩
  · have hu : exec (.qunbind c w) s = issued 0xC4 { a := .sq, fn := 7, imm := 1 } c w s (bodyQbind true c w) :=
      congrArg Host.Outcome.next (if_pos hb)
    have hbind : exec (.qbind c w) s = issued 0xC4 { a := .sq, fn := 7, imm := 1 } c w s (bodyQbind true c w) := by
      rw [← hb]
      rfl
    exact ⟨hu.trans (issued_done hi (withSrc_val hr)), hbind.trans hu.symm⟩
  · refine issued_done hi ?_
    rw [bodyQbind, withSrc_val hr, hb]
    exact if_neg (not_or.mpr ⟨h0, h3⟩)
  · refine issued_trap hi ?_
    rw [bodyQbind, withSrc_val hr, hb]
    exact if_pos h
  · exact issued_trap hi (by rw [bodyQpop, hq])
  · exact issued_done hi (by rw [bodyQpop, hq])
  · exact issued_done hi (by rw [bodyQcount, hq]; rfl)
  · exact ⟨_, issued_done hi (by rw [bodyQcount, hq]; rfl)⟩

end Sys2Proof.Machine
end

section
/-! O24: the stream instructions (R209, R286). -/

namespace Sys2Proof.Machine

/-- Settles O24: STRIG by its checks and its ranges, SWAIT by the runs, SSTAT by the status word. -/
theorem streamInstructions : Obligations.StreamInstructions := by
  unfold Obligations.StreamInstructions
  intro c w s t x hr
  refine ⟨fun hi => ⟨fun h => issued_trap hi ?_, fun hx hv ht ho hp new hnew hs => issued_done hi ?_⟩, fun hi => ?_,
    fun hi => issued_done hi (withSrc_val hr)⟩
  · rw [bodyStrig, withSrc_val hr]
    rcases h with h | h
    · exact if_pos h
    · exact ite_eq_left_iff.mpr fun _ => if_pos (by simpa using h)
  · rw [bodyStrig, withSrc_val hr]
    subst hnew
    exact (if_neg (Nat.not_le.mpr hx)).trans ((if_neg (by simp [hv, ht, ho, hp])).trans (if_pos hs))
  · by_cases h : w.imm.toNat % 2 ^ 16 ≤ t.rd Reg.DN_SSTAT_RUNS c.die.val (x.toNat % 32768)
    · rw [if_pos h]
      exact issued_done hi ((withSrc_val hr).trans (if_pos h))
    · rw [if_neg h]
      exact issued_wait hi ((withSrc_val hr).trans (if_neg h)) rfl

end Sys2Proof.Machine
end

section
/-! O23: MPASS and MWAIT (R84, R103, R200, R201). -/

namespace Sys2Proof.Machine

variable {s : State} {c : CoreId} {w : IFields} {d : PassDesc} {g : Geo}

/-- The effect of MPASS with its licence and its overrides aligned: that of its descriptor. -/
theorem bodyMpass_aligned (hd : mpassDesc s c w = d) (hg : geoOf s c d.fmtp d.mode d.heritage = g)
    (hl : d.heritage = true → s.rb Reg.HB_ID_HERITAGE 0 = true)
    (ha : bit w.fn.toNat 3 = true → aBase (rdA s c (w.a.toNat - 0x20)) % 64 = 0)
    (hb : bit w.fn.toNat 4 = true → aBase (rdA s c (w.b.toNat - 0x20)) % 64 = 0) :
    bodyMpass c w s = if descCheck s c g d ≠ 0 then .trap trArrayDesc (descCheck s c g d)
      else if blockFull (s.cx c).passes then .held
      else withRanges c s (passRanges g d (s.cx c).passId) fun t => .done (mpassPost c w (enterPass t c g d)) := by
  subst hd hg
  rw [bodyMpass, if_neg (by simpa using hl), if_neg (by simpa using ha), if_neg (by simpa using hb)]

/-- The effect of MPASS with a misaligned input override. -/
theorem bodyMpass_misaligned (hd : mpassDesc s c w = d) (hl : d.heritage = true → s.rb Reg.HB_ID_HERITAGE 0 = true)
    (h3 : bit w.fn.toNat 3 = true) (ha : aBase (rdA s c (w.a.toNat - 0x20)) % 64 ≠ 0) :
    bodyMpass c w s = .trap trMisalign (aBase (rdA s c (w.a.toNat - 0x20))) := by
  subst hd
  rw [bodyMpass, if_neg (by simpa using hl), if_pos (by simpa [h3] using ha)]

/-- Settles O23: MPASS by its overrides, its descriptor, the room of the block and its ranges; MWAIT by the passes left. -/
theorem matrixInstructions : Obligations.MatrixInstructions := by
  unfold Obligations.MatrixInstructions
  intro c w s d g
  refine ⟨fun hi hd hg hl => ⟨fun h3 ha => issued_trap hi (bodyMpass_misaligned hd hl h3 ha), fun ha hb => ?_⟩, fun hi => ?_⟩
  · have hbody := bodyMpass_aligned hd hg hl ha hb
    refine ⟨fun hk => ?_, fun hk hf => ?_, fun hk hf hs => ?_, fun hk hf hs => ?_⟩
    · exact issued_trap hi (hbody.trans (if_pos hk))
    · rw [if_neg (not_not.mpr hk), if_pos hf] at hbody
      exact issued_held hi hbody
    · rw [if_neg (not_not.mpr hk), if_neg (by simp [hf]), withRanges, if_neg (by simp [hs])] at hbody
      exact issued_wait hi hbody rfl
    · rw [if_neg (not_not.mpr hk), if_neg (by simp [hf]), withRanges, if_pos hs] at hbody
      exact issued_done hi hbody
  · by_cases h : (s.cx c).passes.length ≤ w.imm.toNat % 4
    · rw [if_pos h]
      exact issued_done hi (waitSync_of_true (decide_eq_true h))
    · rw [if_neg h]
      exact issued_wait hi (waitSync_of_false (decide_eq_false h)) rfl

end Sys2Proof.Machine
end

section
/-! O22: CSRW (R13, R15, R211, R214). -/

namespace Sys2Proof.Machine

variable {s t u : State} {c : CoreId} {w : IFields} {r : Requester} {n off v : Nat} {x : Word}

/-- A store to a word of a core's space writes the word as it is: LH_CRZ and JK_CFG lie in other spaces. -/
theorem csrStore_core_unwritten (h : csrWrite s r .core n off v = none) : csrStore s r .core n off v = none := by
  have ha : admitWord s .core off v = (v, s) := if_neg (by simp)
  simp only [csrStore, badLevels, ha, h, reduceCtorEq, beq_eq_false_iff_ne.mpr, ne_eq, not_false_eq_true, Bool.false_and,
    Bool.false_eq_true, if_false]

theorem csrStore_core_refused (h : csrWrite s r .core n off v = some (t, true)) :
    csrStore s r .core n off v = some (t, true) := by
  have ha : admitWord s .core off v = (v, s) := if_neg (by simp)
  simp only [csrStore, badLevels, ha, h, reduceCtorEq, beq_eq_false_iff_ne.mpr, ne_eq, not_false_eq_true, Bool.false_and,
    Bool.false_eq_true, if_false]

/-- The events of the fields of a word that was written follow. -/
theorem csrStore_core_written (h : csrWrite s r .core n off v = some (t, false)) : ∃ u,
    csrStore s r .core n off v = some (u, false) := by
  have ha : admitWord s .core off v = (v, s) := if_neg (by simp)
  simp only [csrStore, badLevels, ha, h, reduceCtorEq, beq_eq_false_iff_ne.mpr, ne_eq, not_false_eq_true, Bool.false_and,
    Bool.false_eq_true, if_false]
  exact ⟨_, rfl⟩

/-- An offset that no register occupies takes no store. -/
theorem csrStore_core_noRegister (h : wordFields .core off = []) : csrStore s r .core n off v = none :=
  csrStore_core_unwritten (by simp only [csrWrite, h])

/-- A word with a field that is frozen and would change is refused whole, and the refusal logged (R15). -/
theorem csrStore_core_frozen {p : Field × Nat × Nat} (hp : p ∈ wordFields .core off) (h : asksFrozen s n v p = true) :
    csrStore s r .core n off v = some (s.lg LogKind.frozenRefused n [off, v], true) := by
  refine csrStore_core_refused ?_
  cases hf : wordFields .core off with
  | nil => simp [hf] at hp
  | cons q l =>
    rw [hf] at hp
    simp only [csrWrite, hf, List.any_eq_true.mpr ⟨p, hp, h⟩, if_true, spaceN]

/-- A word without such a field is stored. -/
theorem csrStore_core_open (hf : wordFields .core off ≠ []) (h : ∀ p ∈ wordFields .core off, asksFrozen s n v p = false) :
    ∃ t, csrStore s r .core n off v = some (t, false) := by
  cases hl : wordFields .core off with
  | nil => exact absurd hl hf
  | cons q l =>
    have hany : (q :: l).any (asksFrozen s n v) = false := List.any_eq_false.mpr fun p hp => by simp [h p (hl ▸ hp)]
    have hw : csrWrite s r .core n off v = if wordReserved s r .core n off then
        some (s.lg LogKind.ignoredWrite (spaceN .core n) [off], false)
        else some ((q :: l).foldl (fun t p => writeField t r .core n v p) s, false) := by
      simp only [csrWrite, hl, hany, Bool.false_eq_true, if_false]
    split at hw
    · exact csrStore_core_written hw
    · exact csrStore_core_written hw

/-- Only a field of type RWF of a sealed parison is refused. -/
theorem asksFrozen_of_open {p : Field × Nat × Nat} (h : s.frozen = false ∨ (accOf s p.1 n p.2.1 p.2.2).1 ≠ .rwf) :
    asksFrozen s n v p = false := by
  rcases h with h | h
  · rw [asksFrozen, h, Bool.false_and, Bool.false_and, Bool.false_and]
  · rw [asksFrozen, beq_eq_false_iff_ne.mpr h, Bool.and_false, Bool.false_and, Bool.false_and]

/-- CSRW completes with the status of its store. -/
theorem exec_csrw_stored {b : Bool} {r : Word} (hr : Reads s c w.a x t) (hi : Issues s c 0xE1 { d := .s, a := .sq, imm := 0x1FFFFFF } w)
    (h : csrStore t (.core c) .core (coreU c) w.imm.toNat x.toNat = some (u, b))
    (hb : BitVec.ofNat 32 (if b then qsFrozen else qsOk) = r) : exec (.csrw c w) s = .next (wroteS u c w r) :=
  issued_done hi (by rw [bodyCsrw, withSrc_val hr, h, ← hb]; rfl)

/-- CSRW of an offset that takes no store traps. -/
theorem exec_csrw_fault (hr : Reads s c w.a x t) (hi : Issues s c 0xE1 { d := .s, a := .sq, imm := 0x1FFFFFF } w)
    (h : csrStore t (.core c) .core (coreU c) w.imm.toNat x.toNat = none) :
    exec (.csrw c w) s = .next (takeTrap s c trCsrFault w.imm.toNat) :=
  issued_trap hi (by rw [bodyCsrw, withSrc_val hr, h])

/-- Settles O22: the store is made, refused as frozen, or finds no register, and CSRW ends accordingly. -/
theorem csrWriteStatus : Obligations.CsrWriteStatus := by
  unfold Obligations.CsrWriteStatus
  intro c w s t x hr hi
  refine ⟨fun hf ho => ?_, fun p hp ha => exec_csrw_stored hr hi (csrStore_core_frozen hp ha) rfl,
    fun hf => exec_csrw_fault hr hi (csrStore_core_noRegister hf), fun u hu => exec_csrw_stored hr hi hu rfl,
    fun u hu => exec_csrw_stored hr hi hu rfl, exec_csrw_fault hr hi⟩
  obtain ⟨u, hu⟩ := csrStore_core_open (s := t) (r := .core c) (n := coreU c) (v := x.toNat) hf
    fun p hp => asksFrozen_of_open (ho.imp_right (· p hp))
  exact ⟨u, hu, exec_csrw_stored hr hi hu rfl⟩

end Sys2Proof.Machine
end

section
/-! O25: remote loads and stores (R199, R256, R309). -/

namespace Sys2Proof.Machine

variable {s t : State} {c : CoreId} {w : IFields} {n : NodeId} {y : Word}

/-- An odd register or class 5 is ILLEGAL, for RLW and for RSW. -/
theorem bodyRlw_illegal (h : w.a.toNat % 2 = 1 ∨ mgaClass (mgaOperand c w s) = 5) : bodyRlw c w s = .trap trIllegal 0 :=
  if_pos (h.imp_left fun h => by omega)

theorem bodyRsw_illegal (h : w.a.toNat % 2 = 1 ∨ mgaClass (mgaOperand c w s) = 5) : bodyRsw c w s = .trap trIllegal 0 :=
  if_pos (h.imp_left fun h => by omega)

section
variable (ha : w.a.toNat % 2 = 0) (hc : mgaClass (mgaOperand c w s) ≠ 5)

include ha hc

/-- An even register and a class other than 5 pass the first check. -/
theorem rlw_rsw_legal : ¬(w.a.toNat % 2 ≠ 0 ∨ mgaClass (mgaOperand c w s) = 5) :=
  not_or.mpr ⟨not_not.mpr ha, hc⟩

theorem bodyRlw_misaligned (hm : mgaOperand c w s % 4 ≠ 0) :
    bodyRlw c w s = .trap trMisalign (mgaOperand c w s % 2 ^ 32) :=
  (if_neg (rlw_rsw_legal ha hc)).trans (if_pos hm)

theorem bodyRsw_misaligned (hm : mgaOperand c w s % 4 ≠ 0) :
    bodyRsw c w s = .trap trMisalign (mgaOperand c w s % 2 ^ 32) :=
  (if_neg (rlw_rsw_legal ha hc)).trans (if_pos hm)

omit ha hc in
/-- A load whose address no node serves leaves with the address fault logged (R47). -/
theorem loadFault_noNode (m : Nat) : loadFault c m false s =
    .wait fun _ => takeTrap (addrFault s (.core c) m) c trAddrFault (m % 2 ^ 32) := by
  simp only [loadFault, Bool.false_eq_true, if_false]

omit ha hc in
/-- A load whose target cannot be reached leaves with that logged (R309). -/
theorem loadFault_unreach (m : Nat) : loadFault c m true s =
    .wait fun _ => takeTrap (s.lg LogKind.unreach (coreU c) [m]) c trAddrFault (m % 2 ^ 32) := by
  simp only [loadFault, if_true]

/-- A load of an address that no node serves (R47). -/
theorem bodyRlw_noNode (hm : mgaOperand c w s % 4 = 0) (hn : mgaNode (mgaOperand c w s) = none) :
    bodyRlw c w s = .wait fun _ => takeTrap (addrFault s (.core c) (mgaOperand c w s)) c trAddrFault
      (mgaOperand c w s % 2 ^ 32) := by
  rw [bodyRlw, if_neg (rlw_rsw_legal ha hc), if_neg (not_not.mpr hm), hn]
  exact loadFault_noNode _

/-- A load beside the remote cache asks its node, where that can be reached (R199, R309). -/
theorem bodyRlw_uncached (hm : mgaOperand c w s % 4 = 0) (hn : mgaNode (mgaOperand c w s) = some n)
    (hk : cacheable s c (mgaOperand c w s) = false) : bodyRlw c w s = if reachable s c n then
      .wait fun _ => (newReq s c (mgaOperand c w s) w.d.toNat true false).1.send (.core c) n
        (.rdreq (s.cx c).tag (mgaOperand c w s) false)
      else loadFault c (mgaOperand c w s) true s := by
  rw [bodyRlw, if_neg (rlw_rsw_legal ha hc), if_neg (not_not.mpr hm), hn, hk]
  rfl

/-- A store whose source is read drops its own cache's line first (R256). -/
theorem bodyRsw_reads (hm : mgaOperand c w s % 4 = 0) (hr : Reads s c w.b y t) {t1 : State}
    (ht : (if cacheable t c (mgaOperand c w s) then rcDrop t c (mgaOperand c w s) else t) = t1) :
    bodyRsw c w s = if mgaClass (mgaOperand c w s) = 3 ∧ !coreGateOpen t1 c (phaseTag t1 c) then
      .done (t1.setCx c { t1.cx c with
        heldWrites := (t1.cx c).heldWrites ++ [⟨mgaOperand c w s, y.toNat, phaseTag t1 c⟩] })
      else .done (postWrite t1 c (mgaOperand c w s) y.toNat) := by
  rw [bodyRsw, if_neg (rlw_rsw_legal ha hc), if_neg (not_not.mpr hm), withSrc_val hr, ht]

/-- RLW where the target cannot be reached (R309). -/
theorem exec_rlw_unreach (hi : Issues s c 0x24 { d := .s, a := .s } w) (hm : mgaOperand c w s % 4 = 0)
    (hn : mgaNode (mgaOperand c w s) = some n) (hk : cacheable s c (mgaOperand c w s) = false) (hr : reachable s c n = false) :
    exec (.rlw c w) s = .next (takeTrap (s.lg LogKind.unreach (coreU c) [mgaOperand c w s]) c trAddrFault
      (mgaOperand c w s % 2 ^ 32)) := by
  have hb := bodyRlw_uncached ha hc hm hn hk
  rw [hr, if_neg Bool.false_ne_true, loadFault_unreach] at hb
  exact issued_wait hi hb rfl

/-- RLW where it can: the request leaves and the sequencer holds. -/
theorem exec_rlw_sends (hi : Issues s c 0x24 { d := .s, a := .s } w) (hm : mgaOperand c w s % 4 = 0)
    (hn : mgaNode (mgaOperand c w s) = some n) (hk : cacheable s c (mgaOperand c w s) = false) (hr : reachable s c n = true) :
    exec (.rlw c w) s = .next ((newReq s c (mgaOperand c w s) w.d.toNat true false).1.send (.core c) n
      (.rdreq (s.cx c).tag (mgaOperand c w s) false)) := by
  have hb := bodyRlw_uncached ha hc hm hn hk
  rw [hr, if_pos rfl] at hb
  exact issued_wait hi hb rfl

/-- RSW outside class 3 or with its commit gate open posts its write. -/
theorem exec_rsw_posts (hi : Issues s c 0x25 { a := .s, b := .sq } w) (hm : mgaOperand c w s % 4 = 0) (hr : Reads s c w.b y t)
    {t1 : State} (ht : (if cacheable t c (mgaOperand c w s) then rcDrop t c (mgaOperand c w s) else t) = t1)
    (hg : mgaClass (mgaOperand c w s) ≠ 3 ∨ coreGateOpen t1 c (phaseTag t1 c) = true) :
    exec (.rsw c w) s = .next (completed (postWrite t1 c (mgaOperand c w s) y.toNat) c) :=
  issued_done hi ((bodyRsw_reads ha hc hm hr ht).trans (if_neg fun h => hg.elim (· h.1) fun ho => by simp [ho] at h))

/-- RSW into stack memory with its commit gate closed is held (R169, R180). -/
theorem exec_rsw_holds (hi : Issues s c 0x25 { a := .s, b := .sq } w) (hm : mgaOperand c w s % 4 = 0) (hr : Reads s c w.b y t)
    (h3 : mgaClass (mgaOperand c w s) = 3) (hk : cacheable t c (mgaOperand c w s) = false)
    (hg : coreGateOpen t c (phaseTag t c) = false) : exec (.rsw c w) s = .next (completed (t.setCx c { t.cx c with
      heldWrites := (t.cx c).heldWrites ++ [⟨mgaOperand c w s, y.toNat, phaseTag t c⟩] }) c) :=
  issued_done hi ((bodyRsw_reads ha hc hm hr (if_neg (by simp [hk]))).trans (if_pos ⟨h3, by simp [hg]⟩))

end

/-- A posted write that no node serves sets RFAULT and is logged (R199). -/
theorem postWrite_noNode {m : Nat} (hn : mgaNode m = none) (v : Nat) :
    postWrite s c m v = addrFault (s.wb Reg.CS_STAT_RFAULT (coreU c) true) (.core c) m := by
  simp only [postWrite, hn]

/-- Settles O25: RLW by its checks and its node, RSW by its checks and the commit gate. -/
theorem remoteLoadsAndStores : Obligations.RemoteLoadsAndStores := by
  unfold Obligations.RemoteLoadsAndStores
  intro c w s t m hm
  subst hm
  exact ⟨fun h => ⟨fun hi => issued_trap hi (bodyRlw_illegal h), fun hi => issued_trap hi (bodyRsw_illegal h)⟩,
    fun ha hc => ⟨fun hi => ⟨fun hm => issued_trap hi (bodyRlw_misaligned ha hc hm),
        fun hm hn => issued_wait hi (bodyRlw_noNode ha hc hm hn) rfl,
        fun n => exec_rlw_unreach ha hc hi, fun n => exec_rlw_sends ha hc hi⟩,
      fun hi => ⟨fun hm => issued_trap hi (bodyRsw_misaligned ha hc hm),
        fun y hm hr => ⟨exec_rsw_posts ha hc hi hm hr rfl, exec_rsw_holds ha hc hi hm hr⟩⟩⟩,
    fun u v hn => postWrite_noNode hn v⟩

end Sys2Proof.Machine
end

section
/-! SUPPORT. What an instruction that completes leaves of registers, Marver registers and memory (R190, R196, R628). -/

namespace Sys2Proof.Machine

namespace Frame

variable {ids : List Nat} {n : Nat} {s t u : State}

theorem refl : Frame ids n s s := ⟨fun _ _ _ _ _ => rfl, fun _ => rfl⟩

theorem trans (h : Frame ids n s t) (k : Frame ids n t u) : Frame ids n s u :=
  ⟨fun F v i j hF => (k.1 F v i j hF).trans (h.1 F v i j hF), fun a => (k.2 a).trans (h.2 a)⟩

/-- A write of a field of the unit that the frame names leaves the rest. -/
theorem wr {F : Field} {v i j : Nat} (h : F.id ∈ ids) : Frame ids n s (s.wr F n v i j) :=
  ⟨fun _ _ _ _ hG => hG.elim (State.rd_wr_unit s · ..) fun hG => State.rd_wr_ne s (fun e => hG (e ▸ h)) ..,
    fun _ => State.wr_rdByte ..⟩

/-- What a core holds beside its registers is outside the frame. -/
theorem setCx (c : CoreId) (x : CoreX) : Frame ids n s (s.setCx c x) :=
  ⟨fun F v i j _ => State.setCx_rd s c x F v i j, fun a => State.setCx_rdByte s c x a⟩

/-- What leaves the rest of fewer fields leaves the rest of more. -/
theorem mono {jds : List Nat} (h : Frame ids n s t) (hs : ids ⊆ jds) : Frame jds n s t :=
  ⟨fun F v i j hF => h.1 F v i j (hF.imp_right (mt (@hs _))), h.2⟩

end Frame

variable {s t : State} {c : CoreId}

/-- The fields that an instruction's completion may write: PC, state and loop depth, and past the last instruction a trap's. -/
def completionIds : List Nat :=
  [Reg.CS_PC_PC.id, Reg.CS_STAT_STATE.id, Reg.CS_STAT_LDEPTH.id, Reg.CS_TRAP_CODE.id, Reg.CS_TRAP_VALID.id,
    Reg.CS_TRAP_COUNT.id, Reg.CS_TRAPPC_PC.id, Reg.CS_TRAPIW_WORD.id, Reg.CS_TRAPINFO_INFO.id]

theorem setLoops_frame (l : List LoopEnt) : Frame completionIds (coreU c) s (setLoops s c l) :=
  (Frame.setCx c _).trans (.wr (by decide))

theorem takeTrap_frame (code info own : Nat) : Frame completionIds (coreU c) s (takeTrap s c code info own) := by
  refine ⟨fun F v i j hF => ?_, sameMemory_of_mem (takeTrapAt_mem ..)⟩
  rcases hF with hv | hF
  · simp only [takeTrap, takeTrapAt_eq, rd_emit, State.bump, State.wb, State.rd_wr_unit _ hv]
  · exact takeTrapAt_rd _ _ _ _ _ _ (fun h => hF ((by decide : trapFields ⊆ completionIds) h)) ..

theorem advance_frame : Frame completionIds (coreU c) s (advance s c) := by
  unfold advance
  extract_lets n
  split
  · exact ((Frame.setCx c _).trans (setLoops_frame n.2)).trans (takeTrap_frame ..)
  · exact (setLoops_frame n.2).trans (.wr (by decide))

/-- The completion of an instruction leaves every other field, and memory. -/
theorem completed_frame : Frame completionIds (coreU c) s (completed s c) :=
  ((Frame.setCx c _).trans (.wr (by decide))).trans advance_frame

/-- The loops, and a run past the last instruction, leave the Marver registers. -/
theorem setLoops_vregs (l : List LoopEnt) : ((setLoops s c l).cx c).vregs = (s.cx c).vregs := by
  rw [setLoops, State.wr_cx, State.cx_setCx_same]

theorem advance_vregs : ((advance s c).cx c).vregs = (s.cx c).vregs := by
  unfold advance
  extract_lets n
  split
  · rw [takeTrap_cx, setLoops_vregs, State.cx_setCx_same]
  · rw [State.wr_cx, setLoops_vregs]

theorem completed_vregs : ((completed s c).cx c).vregs = (s.cx c).vregs := by
  rw [completed, advance_vregs, State.setCst_cx, unhold, State.cx_setCx_same]

/-- Past an instruction of no loop that is not the last, the PC advances by one. -/
theorem completed_pc (hl : (s.cx c).loops = []) (hp : s.pc c + 1 < 8192) : (completed s c).pc c = s.pc c + 1 := by
  have hcx : (((unhold s c).setCst c stRun).cx c).loops = [] := by
    rw [State.setCst_cx, unhold, State.cx_setCx_same]
    exact hl
  have hpc : ((unhold s c).setCst c stRun).pc c = s.pc c := by
    rw [State.pc, State.setCst, State.rd_wr_ne _ (by decide)]
    rfl
  rw [completed, advance_plain hcx (hpc.symm ▸ hp), State.pc, State.rd_wr_same, hpc]
  exact Nat.mod_eq_of_lt hp

/-- A write of another scalar register leaves this one, and s0 is never written. -/
theorem rdS_wrS_ne {m n : Nat} (v : Word) (h : n ≠ m ∨ n = 0) : rdS (wrS s c m v) c n = rdS s c n := by
  rcases Nat.eq_zero_or_pos n with rfl | hn
  · rfl
  · rw [wrS]
    split
    · rfl
    · exact rdS_congr (State.rd_wr_inst s _ (by simpa [Nat.pos_iff_ne_zero.mp hn] using h) _)

theorem wrS_frame (n : Nat) (v : Word) : Frame [Reg.CS_SREG_VALUE.id] (coreU c) s (wrS s c n v) := by
  rw [wrS]
  split
  · exact .refl
  · exact .wr (by decide)

theorem wrS_cx (n : Nat) (v : Word) (d : CoreId) : (wrS s c n v).cx d = s.cx d := by
  rw [wrS]
  split <;> rfl

theorem wrS_pc (n : Nat) (v : Word) : (wrS s c n v).pc c = s.pc c :=
  (wrS_frame n v).1 Reg.CS_PC_PC (coreU c) 0 0 (.inr (by decide))

end Sys2Proof.Machine
end

section
/-! O30: what the 32 register instructions leave unchanged (R184, R190, R194). -/

namespace Sys2Proof.Machine

variable {s t : State} {c : CoreId} {w : IFields} {x y : Word} {i : Instr} {o : Nat}

/-- Each register-register instruction writes some value to sD and completes. -/
theorem exec_registerRegister (hr : Reads2 s c w x y t) (hi : Issues s c o formRRR w)
    (hm : (o, i) ∈ [(0, Instr.add c w), (1, Instr.sub c w), (2, Instr.and c w), (3, Instr.or c w), (4, Instr.xor c w),
      (5, Instr.sll c w), (6, Instr.srl c w), (7, Instr.sra c w), (8, Instr.slt c w), (9, Instr.sltu c w),
      (10, Instr.mul c w), (11, Instr.mulh c w), (12, Instr.min c w), (13, Instr.max c w), (14, Instr.eq c w),
      (15, Instr.ne c w)]) : ∃ v, exec i s = .next (wroteS t c w v) := by
  simp only [List.mem_cons, Prod.mk.injEq, List.not_mem_nil, or_false] at hm
  iterate 15
    obtain ⟨rfl, rfl⟩ | hm := hm
    · exact ⟨_, issued_aluRR hr hi _⟩
  obtain ⟨rfl, rfl⟩ := hm
  exact ⟨_, issued_aluRR hr hi _⟩

/-- Each register-immediate instruction writes some value to sD and completes. -/
theorem exec_registerImmediate (hr : Reads s c w.a x t) (hi : Issues s c o formRRI w)
    (hm : (o, i) ∈ [(16, Instr.addi c w), (17, Instr.subi c w), (18, Instr.andi c w), (19, Instr.ori c w),
      (20, Instr.xori c w), (21, Instr.slli c w), (22, Instr.srli c w), (23, Instr.srai c w), (24, Instr.slti c w),
      (25, Instr.sltui c w), (26, Instr.muli c w), (27, Instr.mulhi c w), (28, Instr.mini c w), (29, Instr.maxi c w),
      (30, Instr.eqi c w), (31, Instr.nei c w)]) : ∃ v, exec i s = .next (wroteS t c w v) := by
  simp only [List.mem_cons, Prod.mk.injEq, List.not_mem_nil, or_false] at hm
  iterate 15
    obtain ⟨rfl, rfl⟩ | hm := hm
    · exact ⟨_, issued_aluRI hr hi _⟩
  obtain ⟨rfl, rfl⟩ := hm
  exact ⟨_, issued_aluRI hr hi _⟩

/-- An instruction with a scalar result writes sD and what a completion writes. -/
theorem wroteS_frame (v : Word) : Frame (Reg.CS_SREG_VALUE.id :: completionIds) (coreU c) t (wroteS t c w v) :=
  ((wrS_frame _ v).mono (by decide)).trans (completed_frame.mono (by decide))

/-- Of the scalar registers it writes sD alone, and never s0. -/
theorem rdS_wroteS_ne (v : Word) {n : Nat} (h : n ≠ w.d.toNat ∨ n = 0) : rdS (wroteS t c w v) c n = rdS t c n :=
  (rdS_congr (completed_frame.1 Reg.CS_SREG_VALUE (coreU c) n 0 (.inr (by decide)))).trans (rdS_wrS_ne v h)

theorem rdV_wroteS (v : Word) (n : Nat) : rdV (wroteS t c w v) c n = rdV t c n := by
  rw [rdV, rdV, wroteS, completed_vregs, wrS_cx]

theorem wroteS_pc (v : Word) (hl : (t.cx c).loops = []) (hp : t.pc c + 1 < 8192) :
    (wroteS t c w v).pc c = t.pc c + 1 := by
  rw [wroteS, completed_pc (by rwa [wrS_cx]) (by rwa [wrS_pc]), wrS_pc]

/-- Settles O30: each of the instructions writes one value to sD and completes, and the frame is that of both. -/
theorem scalarInstructionsFrame : Obligations.ScalarInstructionsFrame := by
  unfold Obligations.ScalarInstructionsFrame
  intro c w s t x y i o h
  obtain ⟨v, hv⟩ : ∃ v, exec i s = .next (wroteS t c w v) := h.elim (fun ⟨hr, hi, hm⟩ => exec_registerRegister hr hi hm)
    fun ⟨hr, hi, hm⟩ => exec_registerImmediate hr hi hm
  obtain ⟨hregs, hmem⟩ := wroteS_frame (t := t) (c := c) (w := w) v
  exact ⟨_, hv, hmem, fun F u j k hF => hregs F u j k hF, fun n hn => rdS_wroteS_ne v hn, rdV_wroteS v,
    fun hl hp hpc => hpc ▸ wroteS_pc v hl (hpc.symm ▸ hp)⟩

end Sys2Proof.Machine
end

section
/-! SUPPORT. What goes on after a trap: the core runs on at a given instruction (R218). -/

namespace Sys2Proof.Machine

variable {s t : State} {c : CoreId}

/-- The core runs on at instruction `n` with the loops `l`, as SKIP and GOTO leave it. -/
def runsOnAt (s : State) (c : CoreId) (l : List LoopEnt) (n : Nat) : State :=
  ((setLoops s c l).wr Reg.CS_PC_PC (coreU c) n).setCst c stRun

theorem runsOnAt_cst (l : List LoopEnt) (n : Nat) : (runsOnAt s c l n).cst c = stRun := State.rd_wr_same ..

theorem runsOnAt_pc (l : List LoopEnt) {n : Nat} (h : n < 8192) : (runsOnAt s c l n).pc c = n := by
  rw [runsOnAt, State.pc, State.setCst, State.rd_wr_ne _ (by decide), State.rd_wr_same]
  exact Nat.mod_eq_of_lt h

theorem runsOnAt_frame (l : List LoopEnt) (n : Nat) : Frame completionIds (coreU c) s (runsOnAt s c l n) :=
  (setLoops_frame l).trans ((Frame.wr (by decide)).trans (.wr (by decide)))

/-- Running on leaves a field that only a trap writes. -/
theorem runsOnAt_valid (l : List LoopEnt) (n : Nat) :
    (runsOnAt s c l n).rb Reg.CS_TRAP_VALID (coreU c) = s.rb Reg.CS_TRAP_VALID (coreU c) := by
  rw [runsOnAt, State.setCst, setLoops, State.rb, State.rd_wr_ne _ (by decide), State.rd_wr_ne _ (by decide),
    State.rd_wr_ne _ (by decide), State.setCx_rd, State.rb]

theorem gotoCore_eq (n : Nat) : gotoCore s c n =
    runsOnAt (s.setCx c { s.cx c with ranOff := false }) c (loopsAfterJump n (s.cx c).loops) n := rfl

/-- What SKIP leaves of the scalar registers: TIMEOUT stands in sD of an abandoned send. -/
def abandoned (s : State) (c : CoreId) : State :=
  if s.rd Reg.CS_TRAP_CODE (coreU c) = trBlockedSend then
    wrS s c (bits (imemWord s c (s.pc c)) 50 6 % 32) (BitVec.ofNat 32 qsTimeout)
  else s

theorem skipCore_eq (h : s.pc c + 1 < 8192) : skipCore s c =
    runsOnAt (abandoned s c) c (loopsAfterJump (s.pc c + 1) (s.cx c).loops) (s.pc c + 1) :=
  if_neg (by omega)

theorem abandoned_frame : Frame [Reg.CS_SREG_VALUE.id] (coreU c) s (abandoned s c) := by
  rw [abandoned]
  split
  · exact wrS_frame ..
  · exact .refl

theorem rdS_abandoned (n : Nat) : rdS (abandoned s c) c n =
    if s.rd Reg.CS_TRAP_CODE (coreU c) = trBlockedSend ∧ n = bits (imemWord s c (s.pc c)) 50 6 % 32 ∧ n ≠ 0 then 6
    else rdS s c n := by
  by_cases hb : s.rd Reg.CS_TRAP_CODE (coreU c) = trBlockedSend
  · rw [abandoned, if_pos hb]
    by_cases hn : n = bits (imemWord s c (s.pc c)) 50 6 % 32 ∧ n ≠ 0
    · obtain ⟨hd, h0⟩ := hn
      rw [if_pos ⟨hb, hd, h0⟩, ← hd, rdS_wrS _ h0]
      rfl
    · rw [if_neg (fun h => hn h.2)]
      exact rdS_wrS_ne _ (by tauto)
  · rw [abandoned, if_neg hb, if_neg (fun h => hb h.1)]

end Sys2Proof.Machine
end

section
/-! O21: RESUME, SKIP, GOTO, STOP and writes of a trapped core's registers (R218, R219, R222). -/

namespace Sys2Proof.Machine

variable {r : Requester} {s t : State} {c : CoreId}

section
variable (hw : mayWrite .punty r .core (coreU c) = true)
include hw

/-- On a TRAPPED core the action follows the clearing of VALID. -/
theorem trapAction_trapped (h : s.cst c = stTrapped) (k : State → State) :
    trapAction r c s k = k (s.wb Reg.CS_TRAP_VALID (coreU c) false) := by
  simp [trapAction, hw, h]

/-- On any other core it is ignored and logged. -/
theorem trapAction_ignored (h : s.cst c ≠ stTrapped) (k : State → State) :
    trapAction r c s k = s.lg LogKind.trapctlIgnored (coreU c) [] := by
  simp [trapAction, hw, h]

theorem exec_trapctlStop : exec (.trapctlStop r c) s = .next (stopCore s c) :=
  congrArg Host.Outcome.next (if_pos hw)

theorem regWrite_of_stopped (h : s.cst c = stTrapped ∨ s.cst c = stHalted) (k : State → State) : regWrite r c s k = k s := by
  simp [regWrite, hw, h]

end

theorem regWrite_ignored (ht : s.cst c ≠ stTrapped) (hh : s.cst c ≠ stHalted) (k : State → State) :
    regWrite r c s k = s.lg LogKind.ignoredWrite (coreU c) [Reg.CS_SREG_VALUE.id] := by
  simp [regWrite, ht, hh]

/-- VALID once cleared: the frame of the clearing, and what it reads. -/
theorem clearValid_frame : Frame [Reg.CS_TRAP_VALID.id] (coreU c) s (s.wb Reg.CS_TRAP_VALID (coreU c) false) :=
  .wr (by decide)

theorem clearValid_valid : (s.wb Reg.CS_TRAP_VALID (coreU c) false).rb Reg.CS_TRAP_VALID (coreU c) = false :=
  State.rb_wb_same _ _ _ _ _ _ (by decide)

/-- SKIP below the last instruction goes on at PC + 1, with TIMEOUT in sD after a blocked send. -/
theorem skipCore_clearValid (hp : s.pc c + 1 < 8192) : let t := skipCore (s.wb Reg.CS_TRAP_VALID (coreU c) false) c
    t.pc c = s.pc c + 1 ∧ t.cst c = stRun ∧ t.rb Reg.CS_TRAP_VALID (coreU c) = false ∧ SameMemory s t ∧
      ∀ n, rdS t c n = if s.rd Reg.CS_TRAP_CODE (coreU c) = trBlockedSend ∧
        n = bits (imemWord s c (s.pc c)) 50 6 % 32 ∧ n ≠ 0 then 6 else rdS s c n := by
  intro t
  obtain ⟨hregs, -⟩ := clearValid_frame (s := s) (c := c)
  have hpc : (s.wb Reg.CS_TRAP_VALID (coreU c) false).pc c = s.pc c := hregs Reg.CS_PC_PC _ 0 0 (.inr (by decide))
  have hcode := hregs Reg.CS_TRAP_CODE (coreU c) 0 0 (.inr (by decide))
  have hw : ∀ i, imemWord (s.wb Reg.CS_TRAP_VALID (coreU c) false) c i = imemWord s c i := fun i => by
    rw [imemWord, imemWord, State.rd64, State.rd64, hregs Reg.IMEM_LO _ _ _ (.inr (by decide)),
      hregs Reg.IMEM_HI _ _ _ (.inr (by decide))]
  have ht : t = _ := skipCore_eq (hpc.symm ▸ hp)
  refine ⟨?_, ?_, ?_, sameMemory_of_mem (by simp [t]), fun n => ?_⟩
  · rw [ht, hpc, runsOnAt_pc _ hp]
  · rw [ht, runsOnAt_cst]
  · rw [ht, runsOnAt_valid, State.rb, abandoned_frame.1 _ _ _ _ (.inr (by decide))]
    exact clearValid_valid
  · rw [ht, rdS_congr ((runsOnAt_frame ..).1 Reg.CS_SREG_VALUE _ n 0 (.inr (by decide))), rdS_abandoned, hcode, hpc, hw,
      rdS_congr (hregs Reg.CS_SREG_VALUE _ n 0 (.inr (by decide)))]

/-- STOP on a core that runs or waits, and does not destroy a queue, is the trap STOPPED of some state. -/
theorem stopCore_eq_takeTrap (hl : coreLive s c = true) (hc : s.cst c ≤ stWaitSync)
    (hd : ∀ k q d, (s.cx c).handleWait ≠ some (.destroy k q d)) : ∃ u, stopCore s c = takeTrap u c trStopped 0 := by
  rw [stopCore, if_pos (by simp [hl, hc])]
  split
  next k q d h => exact absurd h (hd k q d)
  next => exact ⟨_, if_neg Bool.false_ne_true⟩

theorem stopCore_destroying {k q d} (hl : coreLive s c = true) (hc : s.cst c ≤ stWaitSync)
    (hd : (s.cx c).handleWait = some (.destroy k q d)) : stopCore s c = s.setCx c { s.cx c with stopDue := true } := by
  simp [stopCore, hl, hc, hd]

/-- Settles O21: each action follows its own equation; STOP ends in the trap STOPPED of the state its wait is dropped in. -/
theorem trappedCoreActions : Obligations.TrappedCoreActions := by
  unfold Obligations.TrappedCoreActions
  intro r c s hw
  refine ⟨fun h hr => ?_, fun n h => ?_, fun h hp => ?_, fun h => ⟨fun n => ?_, ?_, ?_⟩, fun hl hc => ⟨fun hd => ?_,
    fun k q d hd => ?_⟩, fun h v => ⟨fun n => ?_, fun n => ⟨?_, ?_⟩⟩, fun ht hh n v => ?_⟩
  · exact congrArg Host.Outcome.next ((trapAction_trapped hw h _).trans (by simp [resumeCore, hr]))
  · refine ⟨_, congrArg Host.Outcome.next (trapAction_trapped hw h _), runsOnAt_pc _ n.isLt, runsOnAt_cst .., ?_,
      sameMemory_of_mem (by simp)⟩
    rw [gotoCore_eq, runsOnAt_valid]
    exact clearValid_valid
  · obtain ⟨hpc, hst, hv, hm, hs⟩ := skipCore_clearValid hp
    exact ⟨_, congrArg Host.Outcome.next (trapAction_trapped hw h _), hpc, hst, hv, hm, fun n _ => hs n⟩
  · exact congrArg Host.Outcome.next (trapAction_ignored hw h _)
  · exact congrArg Host.Outcome.next (trapAction_ignored hw h _)
  · exact congrArg Host.Outcome.next (trapAction_ignored hw h _)
  · obtain ⟨u, hu⟩ := stopCore_eq_takeTrap hl hc hd
    refine ⟨_, exec_trapctlStop hw, ?_, ?_, ?_, sameMemory_of_mem (stopCore_mem s c)⟩ <;> rw [hu]
    · exact takeTrapAt_cst ..
    · exact takeTrapAt_code ..
    · exact takeTrapAt_info ..
  · rw [exec_trapctlStop hw, stopCore_destroying hl hc hd]
  · exact congrArg Host.Outcome.next (regWrite_of_stopped hw h _)
  · exact congrArg Host.Outcome.next (regWrite_of_stopped hw h _)
  · exact congrArg Host.Outcome.next (regWrite_of_stopped hw h _)
  · exact congrArg Host.Outcome.next (regWrite_ignored ht hh _)

end Sys2Proof.Machine
end

section
/-! SUPPORT. What SKIP and RESUME of one core leave of the others (R218), and the reports a collector holds (R358). -/

namespace Sys2Proof.Machine

variable {s t : State} {c d : CoreId}

theorem skipCore_frame (h : s.pc c + 1 < 8192) :
    Frame (Reg.CS_SREG_VALUE.id :: completionIds) (coreU c) s (skipCore s c) := by
  rw [skipCore_eq h]
  exact (abandoned_frame.mono (by decide)).trans ((runsOnAt_frame ..).mono (by decide))

theorem abandoned_cx : (abandoned s c).cx d = s.cx d := by
  rw [abandoned]
  split
  · exact wrS_cx ..
  · rfl

theorem skipCore_cx_ne (h : s.pc c + 1 < 8192) (hd : coreU d ≠ coreU c) : (skipCore s c).cx d = s.cx d := by
  rw [skipCore_eq h, runsOnAt, State.setCst_cx, State.wr_cx, setLoops, State.wr_cx]
  exact (smGet_smSet_ne _ _ _ _ hd).trans abandoned_cx

theorem wrS_dies (n : Nat) (v : Word) : (wrS s c n v).dies = s.dies := by
  rw [wrS]
  split <;> rfl

theorem skipCore_dies (h : s.pc c + 1 < 8192) : (skipCore s c).dies = s.dies := by
  rw [skipCore_eq h, runsOnAt, State.setCst, State.wr_dies, State.wr_dies, setLoops, State.wr_dies, State.setCx_dies,
    abandoned]
  split
  · exact wrS_dies ..
  · rfl

/-- The reports that a collector holds are those last set. -/
theorem setReports_blocked (s : State) (k : Nat) (l : List BlockReport) : ((setReports s k l).bx k).blocked = l := by
  rw [State.bx, setReports, smGet_smSet_same]

theorem bx_congr (h : t.dies = s.dies) (k : Nat) : t.bx k = s.bx k := by rw [State.bx, State.bx, h]

end Sys2Proof.Machine
end

section
/-! O39: blocked sends trap, their reports are collected, and pairs are resolved (R216, R357, R358). -/

namespace Sys2Proof.Machine

variable {s t : State} {c : CoreId}

/-- The state a blocked send's trap is taken in: counted, with the own full queue's handle. -/
def blockedNoted (s : State) (c : CoreId) : State :=
  (s.bump Reg.CQ_WDFIRE_COUNT (coreU c)).wr Reg.CQ_BSOWN_HANDLE (coreU c) (ownFull s c (handleCore (sendHandle s c)))

/-- The trap BLOCKED_SEND with both handles, and the event that reports it. -/
theorem exec_blockedSend (hl : coreLive s c = true) (hc : s.cst c = stWaitSend) : exec (.blockedSend c) s =
    .next (noteAt (takeTrap (blockedNoted s c) c trBlockedSend (sendHandle s c) (ownFull s c (handleCore (sendHandle s c))))
      (.core c) 0x22 [sendHandle s c, ownFull s c (handleCore (sendHandle s c))]) :=
  congrArg Host.Outcome.next (if_pos (by simp [hl, hc]))

/-- An event of a core changes no register. -/
theorem noteAt_core_rd (code : Nat) (l : List Nat) (F : Field) (u i j : Nat) :
    (noteAt s (.core c) code l).rd F u i j = s.rd F u i j := raiseCore_rd ..

theorem exec_trapPacket_other {code dest own : Nat} (hb : s.rb Reg.BT_CLKSTAT_STOPPED c.die.val = false)
    (h : code ≠ trBlockedSend) : exec (.trapPacket c code dest own) s =
      .next (s.lg LogKind.trapReport (coreU c) [code, dest, own]) := by
  show execTrapPacket c code dest own s = _
  simp [execTrapPacket, hb, h]

/-- A report of a blocked send is added to its die's collector, where the destination lies on that die. -/
theorem exec_trapPacket_local {dest own : Nat} (hb : s.rb Reg.BT_CLKSTAT_STOPPED c.die.val = false)
    (h : (handleCore dest).die = c.die) : exec (.trapPacket c trBlockedSend dest own) s =
      .next (setReports (s.lg LogKind.trapReport (coreU c) [trBlockedSend, dest, own]) c.die.val
        ((s.bx c.die.val).blocked ++ [⟨c, BitVec.ofNat 32 dest, BitVec.ofNat 32 own⟩])) := by
  show execTrapPacket c trBlockedSend dest own s = _
  rw [execTrapPacket, hb, if_neg Bool.false_ne_true, if_neg (not_not_intro rfl), if_pos h,
    bx_congr (State.lg_dies ..)]

/-- Else it is sent on to the hub and added to the hub's. -/
theorem exec_trapPacket_remote {dest own : Nat} (hb : s.rb Reg.BT_CLKSTAT_STOPPED c.die.val = false)
    (h : (handleCore dest).die ≠ c.die) : exec (.trapPacket c trBlockedSend dest own) s =
      .next (setReports ((s.lg LogKind.trapReport (coreU c) [trBlockedSend, dest, own]).send (.dieNode c.die) (.hub 2)
        (.trap trBlockedSend 0 dest own)) 4
        ((s.bx 4).blocked ++ [⟨c, BitVec.ofNat 32 dest, BitVec.ofNat 32 own⟩])) := by
  show execTrapPacket c trBlockedSend dest own s = _
  rw [execTrapPacket, hb, if_neg Bool.false_ne_true, if_neg (not_not_intro rfl), if_neg h,
    bx_congr (State.lg_dies ..)]

theorem endBlocked_skip (ht : s.cst c = stTrapped) (hc : s.rd Reg.CS_TRAP_CODE (coreU c) = trBlockedSend) :
    endBlocked s c true = skipCore (s.wb Reg.CS_TRAP_VALID (coreU c) false) c := by
  simp [endBlocked, ht, hc]

theorem endBlocked_resume (ht : s.cst c = stTrapped) (hc : s.rd Reg.CS_TRAP_CODE (coreU c) = trBlockedSend)
    (hr : (s.cx c).ranOff = false) :
    endBlocked s c false = (s.wb Reg.CS_TRAP_VALID (coreU c) false).setCst c stRun := by
  simp [endBlocked, ht, hc, resumeCore, hr]

variable {k : Collector} {a b : BlockReport}

theorem exec_deadlockResolve_of_missing (h : (s.bx (collectorOf k)).blocked.contains a = false ∨
    (s.bx (collectorOf k)).blocked.contains b = false) : exec (.deadlockResolve k a b) s = .next s :=
  congrArg Host.Outcome.next (if_pos (by rcases h with h | h <;> rw [h] <;> simp))

/-- The state that holds neither of two reports any more. -/
def withdrawn (s : State) (k : Nat) (a b : BlockReport) : State :=
  setReports s k ((s.bx k).blocked.filter fun r => r != a && r != b)

/-- Of two reports that match, the core with the lower index is skipped and the other resumes. -/
theorem exec_deadlockResolve_of_match (ha : (s.bx (collectorOf k)).blocked.contains a = true)
    (hb : (s.bx (collectorOf k)).blocked.contains b = true) (hab : coreU a.core < coreU b.core)
    (hm : a.dest = b.own ∨ b.dest = a.own) : exec (.deadlockResolve k a b) s =
      .next ((endBlocked (endBlocked (withdrawn s (collectorOf k) a b) a.core true) b.core false).lg LogKind.deadlock
        (if collectorOf k < 4 then dieN (collectorOf k) else hubN) [coreU a.core, a.dest.toNat, b.dest.toNat]) := by
  have hne : a.core ≠ b.core := fun e => absurd (e ▸ hab) (lt_irrefl _)
  refine congrArg Host.Outcome.next ((if_neg (by rw [ha, hb]; decide)).trans ((if_pos ⟨hne, hm⟩).trans ?_))
  rw [if_pos hab]
  rfl

/-- Skipping one core and resuming another, both trapped in a blocked send, sets both running and writes no collector. -/
theorem endBlocked_pair {a b : CoreId} (hab : coreU a < coreU b) (hta : s.cst a = stTrapped)
    (hca : s.rd Reg.CS_TRAP_CODE (coreU a) = trBlockedSend) (hpa : s.pc a + 1 < 8192) (htb : s.cst b = stTrapped)
    (hcb : s.rd Reg.CS_TRAP_CODE (coreU b) = trBlockedSend) (hrb : (s.cx b).ranOff = false) :
    let t := endBlocked (endBlocked s a true) b false
    t.cst a = stRun ∧ t.pc a = s.pc a + 1 ∧ t.cst b = stRun ∧ t.pc b = s.pc b ∧ t.dies = s.dies := by
  intro t
  have hpc : (s.wb Reg.CS_TRAP_VALID (coreU a) false).pc a = s.pc a := State.rd_wb_ne (by decide) ..
  have hp : (s.wb Reg.CS_TRAP_VALID (coreU a) false).pc a + 1 < 8192 := hpc.symm ▸ hpa
  obtain ⟨hpc1, hst1, -, -, -⟩ := skipCore_clearValid hpa
  obtain ⟨other, -⟩ := (clearValid_frame (s := s) (c := a)).mono (jds := Reg.CS_SREG_VALUE.id :: completionIds) (by decide)
    |>.trans (skipCore_frame hp)
  have hcx := skipCore_cx_ne hp hab.ne'
  have hdies := skipCore_dies hp
  rw [← endBlocked_skip hta hca] at hpc1 hst1 other hcx hdies
  have htb1 : (endBlocked s a true).cst b = stTrapped := (other _ _ _ _ (.inl hab.ne')).trans htb
  have hcb1 := (other Reg.CS_TRAP_CODE (coreU b) 0 0 (.inl hab.ne')).trans hcb
  have ht : t = _ := endBlocked_resume htb1 hcb1 (hcx ▸ hrb)
  have leaves : Frame completionIds (coreU b) (endBlocked s a true) t :=
    ht ▸ (clearValid_frame.mono (by decide)).trans (.wr (by decide))
  refine ⟨(leaves.1 _ _ _ _ (.inl hab.ne)).trans hst1, (leaves.1 _ _ _ _ (.inl hab.ne)).trans hpc1, ?_, ?_, ?_⟩
  · rw [ht]
    exact State.rd_wr_same ..
  · have hpcb : (endBlocked s a true).pc b = s.pc b := other _ _ _ _ (.inl hab.ne')
    rw [ht, State.pc, State.setCst, State.rd_wr_ne _ (by decide), State.rd_wb_ne (by decide)]
    exact hpcb
  · rw [ht, State.setCst, State.wr_dies, State.wb_dies]
    exact hdies

/-- Settles O39: the watchdog's trap, the three ends of a report, and the pair of which both run on. -/
theorem blockedSendsResolve : Obligations.BlockedSendsResolve := by
  unfold Obligations.BlockedSendsResolve
  refine ⟨fun c s hl hc => ?_, fun c s code dest own hb => ⟨exec_trapPacket_other hb, fun h => ?_, fun h => ?_⟩,
    fun k a b s => ⟨exec_deadlockResolve_of_missing, fun ha hb hab hm hta hca hpa htb hcb hrb => ?_⟩⟩
  · refine ⟨_, exec_blockedSend hl hc, ?_, ?_, ?_, ?_, sameMemory_of_mem (by rw [noteAt_mem]; rfl)⟩
    · rw [State.cst, noteAt_core_rd]
      exact takeTrapAt_cst ..
    · rw [noteAt_core_rd]
      exact takeTrapAt_code ..
    · rw [noteAt_core_rd]
      exact takeTrapAt_info ..
    · rw [noteAt_core_rd, takeTrap, takeTrapAt_rd _ _ _ _ _ _ (by decide)]
      exact State.rd_wr_same ..
  · exact ⟨_, exec_trapPacket_local hb h, by rw [setReports_blocked]⟩
  · exact ⟨_, exec_trapPacket_remote hb h, by rw [setReports_blocked]⟩
  · obtain ⟨hsa, hpca, hsb, hpcb, hd⟩ := endBlocked_pair (s := withdrawn s (collectorOf k) a b) hab hta hca hpa htb hcb hrb
    have dropped (r : BlockReport) (hr : r = a ∨ r = b) : ((endBlocked (endBlocked (withdrawn s (collectorOf k) a b) a.core
        true) b.core false).bx (collectorOf k)).blocked.contains r = false := by
      rw [bx_congr hd, withdrawn, setReports_blocked]
      rcases hr with rfl | rfl <;> simp
    exact ⟨_, exec_deadlockResolve_of_match ha hb hab hm, hsa, hpca, hsb, hpcb, dropped a (.inl rfl), dropped b (.inr rfl)⟩

end Sys2Proof.Machine
end

section
/-! O26: barriers and phases (R95, R186, R213, R324). -/

namespace Sys2Proof.Machine

variable {s t : State} {c : CoreId} {w : IFields} {g : Nat} {k : Gather}

/-- The state of a core that waits at a barrier group. -/
def waitsAt (t : State) (c : CoreId) (g : Nat) (b : BarKind) : State := (setBarWait t c (some (g, b))).setCst c stWaitSync

theorem setArrived_pc (d : DieId) (g v : Nat) (e : CoreId) : (setArrived s d g v).pc e = s.pc e := by
  rw [setArrived, State.pc, State.rd_wb_ne (by decide), State.wr64, State.rd_wr_ne _ (by decide),
    State.rd_wr_ne _ (by decide), State.pc]

theorem setArrived_hclk (d : DieId) (g v : Nat) : (setArrived s d g v).hclk = s.hclk := by
  rw [setArrived, State.wb_hclk, State.wr64_hclk]

/-- An arrival leaves the PCs and the time. -/
theorem arrive_pc (g : Nat) (e : CoreId) : (arrive s c g).pc e = s.pc e := by
  unfold arrive
  split
  · rfl
  · extract_lets s1
    split
    · exact (State.rd_congr (State.setSb_regs ..) ..).trans (setArrived_pc ..)
    · exact setArrived_pc ..

theorem arrive_hclk (g : Nat) : (arrive s c g).hclk = s.hclk := by
  unfold arrive
  split
  · rfl
  · extract_lets s1
    split
    · exact (State.setSb_hclk ..).trans (setArrived_hclk ..)
    · exact setArrived_hclk ..

theorem waitsAt_pc (g : Nat) (b : BarKind) : (waitsAt t c g b).pc c = t.pc c := by
  rw [waitsAt, State.pc, State.setCst, State.rd_wr_ne _ (by decide), setBarWait, State.setCx_rd, State.pc]

theorem waitsAt_cst (g : Nat) (b : BarKind) : (waitsAt t c g b).cst c = stWaitSync := State.rd_wr_same ..

theorem waitsAt_barWait (g : Nat) (b : BarKind) : ((waitsAt t c g b).cx c).barWait = some (g, b) := by
  rw [waitsAt, State.setCst_cx, setBarWait, State.cx_setCx_same]

theorem waitsAt_hclk (g : Nat) (b : BarKind) : (waitsAt t c g b).hclk = t.hclk := by
  rw [waitsAt, State.setCst_hclk, setBarWait, State.setCx_hclk]

/-- A core that has not arrived in the open round arrives at its barrier and waits. -/
theorem barHold_arrive (g : Nat) (b : BarKind) : barHold c g b false = .wait fun s0 => waitsAt (arrive s0 c g) c g b := rfl

/-- One that has arrived notes the next arrival. -/
theorem barHold_again (g : Nat) (b : BarKind) : barHold c g b true =
    .wait fun s0 => waitsAt (s0.setCx c { s0.cx c with arrAgain := [g] }) c g b := rfl

theorem bodyBar_eq (hg : w.imm.toNat % 64 = g) : bodyBar c w s =
    waitSync c s (hasArrived s c g || !arraysBusy s c g) fun _ => barHold c g .bar (hasArrived s c g) := hg ▸ rfl

/-- BAR by what the core has done in the open round. -/
theorem exec_bar (hi : Issues s c 0xD0 { imm := 63 } w) (hg : w.imm.toNat % 64 = g) :
    (hasArrived s c g = false → arraysBusy s c g = true → exec (.bar c w) s = .next (s.setCst c stWaitSync)) ∧
    (hasArrived s c g = false → arraysBusy s c g = false →
      exec (.bar c w) s = .next (waitsAt (arrive s c g) c g .bar)) ∧
    (hasArrived s c g = true →
      exec (.bar c w) s = .next (waitsAt (s.setCx c { s.cx c with arrAgain := [g] }) c g .bar)) := by
  refine ⟨fun ha hb => ?_, fun ha hb => ?_, fun ha => ?_⟩
  · exact issued_wait hi ((bodyBar_eq hg).trans (waitSync_of_false (by simp [ha, hb]))) rfl
  · exact issued_wait hi (by rw [bodyBar_eq hg, waitSync_of_true (by simp [hb]), ha, barHold_arrive]) rfl
  · exact issued_wait hi (by rw [bodyBar_eq hg, waitSync_of_true (by simp [ha]), ha, barHold_again]) rfl

/-- BARA likewise; its arrival completes it. -/
theorem exec_bara (hi : Issues s c 0xD1 { imm := 63 } w) (hg : w.imm.toNat % 64 = g) :
    (hasArrived s c g = false → arraysBusy s c g = true → exec (.bara c w) s = .next (s.setCst c stWaitSync)) ∧
    (hasArrived s c g = false → arraysBusy s c g = false → exec (.bara c w) s = .next (completed (arrive s c g) c)) ∧
    (hasArrived s c g = true →
      exec (.bara c w) s = .next (waitsAt (s.setCx c { s.cx c with arrAgain := [g] }) c g .bara)) := by
  subst hg
  refine ⟨fun ha hb => ?_, fun ha hb => ?_, fun ha => issued_wait hi ((if_pos ha).trans (barHold_again ..)) rfl⟩
  · exact issued_wait hi ((if_neg (by simp [ha])).trans (waitSync_of_false (by simp [hb]))) rfl
  · exact issued_done hi ((if_neg (by simp [ha])).trans (waitSync_of_true (by simp [hb])))

/-- PHSTART of a core whose phase has begun completes; else it arrives at the phase group and may rest. -/
theorem exec_phstart (hk : gatherOf s c = some k) (hi : Issues s c 0xD3 {} w) :
    ((s.cx c).phStarted = true → exec (.phstart c w) s = .next (completed s c)) ∧
    ((s.cx c).phStarted = false → exec (.phstart c w) s =
      .next (restAt (waitsAt (arrive s c (syncGroup s k)) c (syncGroup s k) .phstart) c k (s.gx k).next (nph s k))) :=
  ⟨fun hp => issued_done hi (by simp [bodyPhstart, hk, hp]),
    fun hp => issued_wait hi (by simp only [bodyPhstart, hk, hp, barHold_arrive]; rfl) rfl⟩

/-- PHEND before the phase has begun rests as PHSTART does. -/
theorem exec_phend_before (hk : gatherOf s c = some k) (hi : Issues s c 0xD4 {} w) (hp : (s.cx c).phStarted = false) :
    exec (.phend c w) s = .next (restAt (waitsAt (arrive s c (syncGroup s k)) c (syncGroup s k) .phend) c k
      ((arrive s c (syncGroup s k)).gx k).next (nph (waitsAt (arrive s c (syncGroup s k)) c (syncGroup s k) .phend) k)) :=
  issued_wait hi (by simp only [bodyPhend, hk, hp, barHold_arrive]; rfl) rfl

/-- In the phase PHEND waits until the array block is empty. -/
theorem bodyPhend_inPhase (hk : gatherOf s c = some k) (hp : (s.cx c).phStarted = true) : bodyPhend c s =
    waitSync c s (s.cx c).passes.isEmpty fun _ => .wait fun s0 => (waitsAt (arrive s0 c (syncGroup s k)) c (syncGroup s k)
      .phend).setCx c { (waitsAt (arrive s0 c (syncGroup s k)) c (syncGroup s k) .phend).cx c with
        endAt := some (waitsAt (arrive s0 c (syncGroup s k)) c (syncGroup s k) .phend).hclk } := by
  simp only [bodyPhend, hk, hp, barHold_arrive]
  rfl

theorem exec_phend_busy (hk : gatherOf s c = some k) (hi : Issues s c 0xD4 {} w) (hp : (s.cx c).phStarted = true)
    (hb : (s.cx c).passes ≠ []) : exec (.phend c w) s = .next (s.setCst c stWaitSync) :=
  issued_wait hi ((bodyPhend_inPhase hk hp).trans (waitSync_of_false (List.isEmpty_eq_false_iff.mpr hb))) rfl

/-- Then it arrives, waits, and notes the time. -/
theorem exec_phend_done (hk : gatherOf s c = some k) (hi : Issues s c 0xD4 {} w) (hp : (s.cx c).phStarted = true)
    (hb : (s.cx c).passes = []) : let t := waitsAt (arrive s c (syncGroup s k)) c (syncGroup s k) .phend
    exec (.phend c w) s = .next (t.setCx c { t.cx c with endAt := some t.hclk }) :=
  issued_wait hi ((bodyPhend_inPhase hk hp).trans (waitSync_of_true (List.isEmpty_iff.mpr hb))) rfl

/-- Settles O26: each instruction by its arrival; PHEND's wait leaves the PC and the time. -/
theorem barriersAndPhases : Obligations.BarriersAndPhases := by
  unfold Obligations.BarriersAndPhases
  intro c w s g hg
  refine ⟨fun hi => exec_bar hi hg, fun hi => exec_bara hi hg, fun hi => ?_, fun k hk => ⟨fun hi => exec_phstart hk hi,
    fun hi => ⟨exec_phend_before hk hi, exec_phend_busy hk hi, fun hp hb => ?_⟩⟩, fun hk => ⟨fun hi => ?_, fun hi => ?_⟩⟩
  · subst hg
    exact issued_wait hi rfl rfl
  · refine ⟨_, exec_phend_done hk hi hp hb, ?_, ?_, ?_, ?_⟩
    · rw [State.setCx_cst, waitsAt_cst]
    · rw [State.cx_setCx_same]
      exact waitsAt_barWait ..
    · rw [State.cx_setCx_same, waitsAt_hclk, arrive_hclk]
    · rw [State.setCx_pc, waitsAt_pc, arrive_pc]
  · exact issued_trap hi (by simp only [bodyPhstart, hk])
  · exact issued_trap hi (by simp only [bodyPhend, hk])

end Sys2Proof.Machine
end

section
/-! O27: sends under credit, their status words, waits and faults (R210, R211, R346, R355, R356). -/

namespace Sys2Proof.Machine

variable {s t u : State} {c : CoreId} {w : IFields} {h : Word}

theorem inject_pc (n : NodeId) (p : Packet) (e : CoreId) : (inject s c n p).pc e = s.pc e := by
  rw [inject]
  split
  · exact State.send_pc ..
  · exact State.lg_pc ..

theorem sendPad_pc (h line lines pseq : Nat) (e : CoreId) : (sendPad s c h line lines pseq).pc e = s.pc e := by
  rw [sendPad, State.bump, State.pc, State.rd_wr_ne _ (by decide)]
  exact inject_pc ..

/-- QSEND without credit has sent nothing. -/
theorem trySend_noCredit {n b : Nat} (hn : trySend s c n b = .noCredit u) : u = s := by
  unfold trySend at hn
  extract_lets at hn
  split at hn
  · cases hn
  · split at hn
    · exact (SendRes.noCredit.inj hn).symm
    · split at hn <;> cases hn

/-- QSENDR without credit has sent the pad at most, and stands where it stood. -/
theorem trySendRing_noCredit_pc {n base len : Nat} (hn : trySendRing s c n base len = .noCredit u) : u.pc c = s.pc c := by
  have moved (l wr e : Nat) :
      ((s.wr Reg.CQ_S_LCRED (coreU c) l e).wr Reg.CQ_S_WR (coreU c) wr e).pc c = s.pc c := by
    rw [State.pc, State.rd_wr_ne _ (by decide), State.rd_wr_ne _ (by decide), State.pc]
  unfold trySendRing at hn
  extract_lets at hn
  split at hn
  · cases hn
  · extract_lets at hn
    split at hn
    · cases hn
    · split at hn
      · rw [← SendRes.noCredit.inj hn]
      · split at hn
        · rw [← SendRes.noCredit.inj hn]
          split
          · exact (sendPad_pc ..).trans (moved ..)
          · exact moved ..
        · split at hn <;> cases hn

/-- The state that a send without credit waits from. -/
def creditWait (try_ : State → SendRes) (s : State) : State :=
  match try_ s with
  | .noCredit t => t
  | .status _ _ => s

section
variable {n m : Nat} {try_ : State → SendRes}

theorem endSend_status (ht : try_ t = .status n u) : endSend c w m false try_ t = doneS c w (BitVec.ofNat 32 n) u := by
  simp [endSend, ht]

theorem endSend_noCredit (ht : try_ t = .noCredit u) : endSend c w m false try_ t = doneS c w 1 u := by
  simp [endSend, ht, qsNoCredit]

theorem endSend_blocking_ok (ht : try_ t = .status 0 u) :
    endSend c w m true try_ t = .done (u.setCx c { u.cx c with blockedTwice := false }) := by
  simp [endSend, ht, qsOk]

theorem endSend_blocking_fault (ht : try_ t = .status n u) (hn : n ≠ 0) :
    endSend c w m true try_ t = .trap trQueueFault m := by
  simp [endSend, ht, qsOk, hn]

theorem endSend_blocking_wait (ht : try_ t = .noCredit u) :
    endSend c w m true try_ t = .wait fun s0 => (creditWait try_ s0).setCst c stWaitSend := by
  simp only [endSend, ht]
  rfl

theorem creditWait_mem (hm : (try_ s).state.mem = s.mem) : (creditWait try_ s).mem = s.mem := by
  rw [creditWait]
  split
  next t ht => rwa [ht] at hm
  · rfl

theorem creditWait_pc (hp : ∀ u, try_ s = .noCredit u → u.pc c = s.pc c) : (creditWait try_ s).pc c = s.pc c := by
  rw [creditWait]
  split
  next t ht => exact hp t ht
  · rfl

end

/-- A send stands at its instruction with its handle read: the command issues it, and it ends as its attempt does. -/
structure Sends (s t : State) (c : CoreId) (w : IFields) (m : Nat) (i : Instr) (blocking : Bool) (o : Nat) (f : Form)
    (try_ : State → SendRes) : Prop where
  body : ∃ b : State → Eff, exec i s = issued o f c w s b ∧ b s = endSend c w m blocking try_ t
  mem : (try_ s).state.mem = s.mem
  pc : ∀ u, try_ s = .noCredit u → u.pc c = s.pc c

/-- The five ends of a send. -/
theorem Sends.outcomes {n m o : Nat} {i : Instr} {blocking : Bool} {f : Form} {try_ : State → SendRes}
    (hs : Sends s t c w m i blocking o f try_) (hi : Issues s c o f w) :
    (try_ t = .status n u → blocking = false → exec i s = .next (wroteS u c w (BitVec.ofNat 32 n))) ∧
    (try_ t = .noCredit u → blocking = false → exec i s = .next (wroteS u c w 1)) ∧
    (try_ t = .status 0 u → blocking = true →
      exec i s = .next (completed (u.setCx c { u.cx c with blockedTwice := false }) c)) ∧
    (try_ t = .status n u → n ≠ 0 → blocking = true → exec i s = .next (takeTrap s c trQueueFault m)) ∧
    (try_ t = .noCredit u → blocking = true → ∃ v, exec i s = .next v ∧ v.cst c = stWaitSend ∧ v.pc c = s.pc c ∧
      SameMemory s v) := by
  obtain ⟨⟨b, hx, hb⟩, hm, hp⟩ := hs
  rw [hx]
  refine ⟨?_, ?_, ?_, ?_, ?_⟩
  · rintro ht rfl
    exact issued_done hi (hb.trans (endSend_status ht))
  · rintro ht rfl
    exact issued_done hi (hb.trans (endSend_noCredit ht))
  · rintro ht rfl
    exact issued_done hi (hb.trans (endSend_blocking_ok ht))
  · rintro ht hn rfl
    exact issued_trap hi (hb.trans (endSend_blocking_fault ht hn))
  · rintro ht rfl
    refine ⟨_, issued_wait hi (hb.trans (endSend_blocking_wait ht)) rfl, State.rd_wr_same .., ?_,
      sameMemory_of_mem (creditWait_mem hm)⟩
    rw [State.pc, State.setCst, State.rd_wr_ne _ (by decide)]
    exact creditWait_pc hp

/-- The entry form, with B at most 0x1C. -/
theorem sends_entry {i : Instr} {o : Nat} {f : Form} (blocking : Bool) (hr : Reads s c w.a h t) (hB : w.b.toNat ≤ 0x1C)
    (hx : exec i s = issued o f c w s (bodyQsend blocking c w)) :
    Sends s t c w h.toNat i blocking o f fun u => trySend u c h.toNat w.b.toNat where
  body := ⟨_, hx, (if_neg (Nat.not_lt.mpr hB)).trans (withSrc_val hr)⟩
  mem := trySend_mem ..
  pc := fun _ hn => trySend_noCredit hn ▸ rfl

/-- The ring form, where the record's bytes lie in the scratchpad and the scoreboard admits them, or are none or too many. -/
theorem sends_ring {i : Instr} {o base len : Nat} {f : Form} (blocking : Bool) (hr : Reads s c w.a h t)
    (hbase : aBase (rdA t c (w.b.toNat - 0x20)) = base) (hlen : aLen (rdA t c (w.b.toNat - 0x20)) = len)
    (hl : len ≤ 65536 → 0 < len → base + len ≤ spLimit t c ∧ sbAdmits (t.cx c).sb [bytesRange base len false] = true)
    (hx : exec i s = issued o f c w s (bodyQsendr blocking c w)) :
    Sends s t c w h.toNat i blocking o f fun u => trySendRing u c h.toNat base len where
  body := by
    subst hbase hlen
    refine ⟨_, hx, (withSrc_val hr).trans ?_⟩
    extract_lets d go
    split
    · rfl
    next hd =>
      obtain ⟨hle, hne⟩ := not_or.mp hd
      obtain ⟨h1, h2⟩ := hl (Nat.not_lt.mp hle) (Nat.pos_of_ne_zero hne)
      rw [if_neg (Nat.not_lt.mpr h1), withRanges, if_pos h2]
  mem := trySendRing_mem ..
  pc := fun _ => trySendRing_noCredit_pc

/-- With entry credit and an open gate QSEND takes one credit and sends its entry. -/
theorem trySend_credit {m b e : Nat} (hl : lookSend t c m false = .entry e) (hc : t.rd Reg.CQ_S_ECRED (coreU c) e ≠ 0)
    (ho : outsideGather t c m = false) : trySend t c m b = .status 0 (sendEntry
      (t.wr Reg.CQ_S_ECRED (coreU c) (t.rd Reg.CQ_S_ECRED (coreU c) e - 1) e) c m
      ⟨(rdS t c b).toNat, (rdS t c (b + 1)).toNat, (rdS t c (b + 2)).toNat, (rdS t c (b + 3)).toNat, phaseTag t c⟩) := by
  simp [trySend, hl, hc, ho, gateRoom, qsOk]

/-- Settles O27: each send ends as its attempt does; B past 0x1C is ILLEGAL before any source is read. -/
theorem queueSends : Obligations.QueueSends := by
  unfold Obligations.QueueSends
  intro c w s t h u hr
  refine ⟨fun n i blocking o f try_ hs hi => ?_, fun e => trySend_credit, fun hB hi => issued_trap hi (if_pos hB)⟩
  have hsends : Sends s t c w h.toNat i blocking o f try_ := by
    rcases hs with ⟨hB, rfl, ⟨rfl, rfl, rfl, rfl⟩ | ⟨rfl, rfl, rfl, rfl⟩⟩ | ⟨rfl, hl, ⟨rfl, rfl, rfl, rfl⟩ | ⟨rfl, rfl, rfl, rfl⟩⟩
    · exact sends_entry true hr hB rfl
    · exact sends_entry false hr hB rfl
    · exact sends_ring true hr rfl rfl hl rfl
    · exact sends_ring false hr rfl rfl hl rfl
  exact hsends.outcomes hi

end Sys2Proof.Machine
end

section
/-! SUPPORT. The arbiter of a bank (R234, R235): what it remembers of each requester after losses, a grant and a back-off. -/

namespace Sys2Proof.Machine

theorem dynNum_inj {q r : DynReq} : dynNum q = dynNum r → q = r := by
  cases q <;> cases r <;> decide

/-- At one bank two requesters have two keys: the numbers of requesters lie below 8. -/
theorem arbKey_inj {bank : Nat} {q r : DynReq} (h : arbKey bank q = arbKey bank r) : q = r :=
  dynNum_inj (Nat.add_left_cancel h)

variable (s : State) (c : CoreId) (bank : Nat)

@[simp] theorem arbOf_setArb_same (q : DynReq) (a : ArbReq) : arbOf (setArb s c bank q a) c bank q = a := by
  simp [arbOf, setArb, smGet_smSet_same]

theorem arbOf_setArb_ne {q r : DynReq} (h : r ≠ q) (a : ArbReq) : arbOf (setArb s c bank q a) c bank r = arbOf s c bank r := by
  simp [arbOf, setArb, smGet_smSet_ne _ _ _ _ fun e => h (arbKey_inj e)]

theorem arbOf_arbLose (q r : DynReq) : arbOf (arbLose bank c s q) c bank r =
    if r = q then ⟨(arbOf s c bank q).losses + 1, true⟩ else arbOf s c bank r := by
  split
  · next h => exact h ▸ arbOf_setArb_same s c bank q _
  · next h => exact arbOf_setArb_ne s c bank h _

/-- Losers that are named once each lose once (R235); the other requesters are remembered as before. -/
theorem arbOf_foldl_arbLose {l : List DynReq} (hl : l.Nodup) (r : DynReq) : arbOf (l.foldl (arbLose bank c) s) c bank r =
    if r ∈ l then ⟨(arbOf s c bank r).losses + 1, true⟩ else arbOf s c bank r := by
  induction l generalizing s with
  | nil => simp
  | cons q l ih =>
    obtain ⟨hq, hl⟩ := List.nodup_cons.mp hl
    rw [List.foldl_cons, ih _ hl, arbOf_arbLose]
    by_cases h : r = q
    · subst h
      simp [hq]
    · simp [h]

theorem nodup_eraseDups {α : Type} [DecidableEq α] : ∀ l : List α, l.eraseDups.Nodup
  | [] => .nil
  | a :: l => by
    rw [List.eraseDups_cons, List.nodup_cons]
    exact ⟨by simp [List.mem_eraseDups], nodup_eraseDups _⟩
termination_by l => l.length
decreasing_by exact Nat.lt_succ_of_le (List.length_filter_le ..)

/-- The requesters that contend for a bank in a grant: each once, and none that backs off (R234, R235). -/
def contenders (a : BankAccess) : List DynReq := a.reqs.eraseDups.filter fun q => q == .debug || !(arbOf s c bank q).backoff

theorem contenders_nodup (a : BankAccess) : (contenders s c bank a).Nodup :=
  (nodup_eraseDups _).filter _

/-- A contest is decided: the others lose, the winner's losses end, and the pointer moves past the winner (R234, R235). -/
def contestWon (l : List DynReq) (q : DynReq) : State :=
  let s1 := setArb ((l.filter (· ≠ q)).foldl (arbLose bank c) s) c bank q ⟨0, false⟩
  s1.setCx c { s1.cx c with arbPtr := smSet 0 (s1.cx c).arbPtr bank ((dynNum q + 1) % 4) }

variable {l : List DynReq} {q : DynReq}

theorem arbOf_contestWon (r : DynReq) : arbOf (contestWon s c bank l q) c bank r =
    arbOf (setArb ((l.filter (· ≠ q)).foldl (arbLose bank c) s) c bank q ⟨0, false⟩) c bank r := by
  simp [arbOf, contestWon]

theorem arbOf_contestWon_winner : arbOf (contestWon s c bank l q) c bank q = ⟨0, false⟩ := by
  rw [arbOf_contestWon, arbOf_setArb_same]

theorem arbOf_contestWon_loser (hl : l.Nodup) {r : DynReq} (hr : r ∈ l) (h : r ≠ q) :
    arbOf (contestWon s c bank l q) c bank r = ⟨(arbOf s c bank r).losses + 1, true⟩ := by
  rw [arbOf_contestWon, arbOf_setArb_ne _ _ _ h, arbOf_foldl_arbLose s c bank (hl.filter _),
    if_pos (List.mem_filter.mpr ⟨hr, by simpa using h⟩)]

theorem contestWon_arbPtr : smGet 0 ((contestWon s c bank l q).cx c).arbPtr bank = (dynNum q + 1) % 4 := by
  simp [contestWon, smGet_smSet_same]

end Sys2Proof.Machine
end

section
/-! SUPPORT. What reads of a scratchpad with its check bits leave as it was: of the core all but the words that wait for their
write-back, and the remap tables (R243-R245). -/

namespace Sys2Proof.Machine

variable (s : State) (c : CoreId)

/-- The unit of a core beside its words that wait for their write-back, and the remap tables of all positions. -/
def State.eccView : CoreX × SMap (SMap Nat) := ({ s.cx c with writeback := [] }, s.rowMaps)

@[simp] theorem reportCause_eccView (range mem : Bool) : (reportCause s c range mem).eccView c = s.eccView c := by
  unfold reportCause
  split
  · rfl
  · simp only
    split <;> rfl

@[simp] theorem ueIdle_eccView (off : Nat) : (ueIdle s c off).eccView c = s.eccView c := by
  unfold ueIdle
  split
  · simp only
    split <;> rfl
  · rfl

@[simp] theorem State.wr_eccView (F : Field) (u v i j : Nat) : (s.wr F u v i j).eccView c = s.eccView c := (rfl)
@[simp] theorem State.wb_eccView (F : Field) (u : Nat) (b : Bool) (i j : Nat) : (s.wb F u b i j).eccView c = s.eccView c := (rfl)
@[simp] theorem State.bump_eccView (F : Field) (u n i j : Nat) : (s.bump F u n i j).eccView c = s.eccView c := (rfl)
@[simp] theorem State.lg_eccView (k : LogKind) (u : Nat) (a : List Nat) : (s.lg k u a).eccView c = s.eccView c := (rfl)
@[simp] theorem raiseCore_eccView (info : Bool) (e : FaultEvent) : (raiseCore s c info e).eccView c = s.eccView c := (rfl)

@[simp] theorem setWriteback_eccView (l : List Nat) : (s.setCx c { s.cx c with writeback := l }).eccView c = s.eccView c := by
  simp [State.eccView]

theorem eccEvent_eccView (req : Nat) (p : Nat × Nat) : (eccEvent s c req p).eccView c = s.eccView c := by
  unfold eccEvent
  extract_lets u off ue s1 s2 at_ seed s3 s4 x
  have h2 : s2.eccView c = s.eccView c := by simp [s2, s1]
  have h4 : s4.eccView c = s.eccView c := by simp [s4, s3, seed, h2]
  split
  · split
    · simp [s3, h2]
    · split
      · exact h4
      · split <;> simp [h4]
  · simp [seed, x, h2]

@[simp] theorem spTouch_eccView (off n req : Nat) : (spTouch s c off n req).eccView c = s.eccView c :=
  foldl_fixes (State.eccView · c) _ (fun t p => eccEvent_eccView t c req p) _ s

@[simp] theorem markLine_eccView (line word : Nat) (e : EccFind) : (markLine s c line word e).eccView c = s.eccView c := by
  cases e <;> rfl

@[simp] theorem lineAccess_eccView (line : Nat) (a : BankAccess) (req : Nat) :
    (lineAccess s c line a req).eccView c = s.eccView c := by
  unfold lineAccess
  split <;> simp

variable {s c} {t : State}

theorem arbOf_of_eccView (h : t.eccView c = s.eccView c) (bank : Nat) (q : DynReq) : arbOf t c bank q = arbOf s c bank q :=
  congrArg (fun v : CoreX × SMap (SMap Nat) => smGet (⟨0, false⟩ : ArbReq) v.1.arb (arbKey bank q)) h

theorem arbPtr_of_eccView (h : t.eccView c = s.eccView c) : (t.cx c).arbPtr = (s.cx c).arbPtr :=
  congrArg (fun v : CoreX × SMap (SMap Nat) => v.1.arbPtr) h

theorem patrol_of_eccView (h : t.eccView c = s.eccView c) : (t.cx c).patrol = (s.cx c).patrol :=
  congrArg (fun v : CoreX × SMap (SMap Nat) => v.1.patrol) h

theorem rowMap_of_eccView (h : t.eccView c = s.eccView c) (n : Nat) : rowMap t n = rowMap s n :=
  congrArg (fun v : CoreX × SMap (SMap Nat) => smGet [] v.2 n) h

end Sys2Proof.Machine
end

section
/-! SUPPORT. The remap table of a position after a row is mapped out (R245, R246). -/

namespace Sys2Proof.Machine

theorem mem_sparesOf {m : SMap Nat} {row k : Nat} : k ∈ sparesOf m row ↔ k < 8 ∧ smGet 0 m (8 * (row / 512) + k) ≠ 0 := by
  simp [sparesOf]

/-- Fewer than eight spare rows in use leave one free. -/
theorem exists_spare {m : SMap Nat} {row : Nat} (h : (sparesOf m row).length < 8) : ∃ k < 8, k ∉ sparesOf m row := by
  obtain ⟨k, hk, hf⟩ := List.length_filter_lt_length_iff_exists.mp (h.trans_eq List.length_range.symm)
  exact ⟨k, List.mem_range.mp hk, fun hm => hf (by simpa using (mem_sparesOf.mp hm).2)⟩

@[simp] theorem mapRow_cx (s : State) (n row : Nat) (c : CoreId) : (mapRow s n row).cx c = s.cx c := by
  unfold mapRow
  extract_lets m used m1
  split <;> rfl

/-- A row that is mapped out gets a spare row that was free (R246). -/
theorem mapRow_fills_spare {s : State} {n row : Nat} (h : (sparesOf (rowMap s n) row).length < 8) :
    ∃ k < 8, smGet 0 (rowMap s n) (8 * (row / 512) + k) = 0 ∧
      smGet 0 (rowMap (mapRow s n row) n) (8 * (row / 512) + k) = row + 1 := by
  obtain ⟨j, hj, hfree⟩ := exists_spare h
  unfold mapRow
  extract_lets m used m1
  split
  · next k hk =>
    have h8 : k < 8 := List.mem_range.mp (List.mem_of_find?_eq_some hk)
    have hu : k ∉ used := by simpa using List.find?_some hk
    refine ⟨k, h8, not_not.mp fun h0 => hu (mem_sparesOf.mpr ⟨h8, h0⟩), ?_⟩
    simp [rowMap, smGet_smSet_same]
  · next hn => exact absurd (List.find?_eq_none.mp hn j (List.mem_range.mpr hj)) (by simpa [used, m] using hfree)

end Sys2Proof.Machine
end

section
/-! PROOFS. What each event at a scratchpad does (R234, R235, R243, R246, R248, R257). -/

namespace Sys2Proof.Machine

variable {s : State} {c : CoreId}

/-- A command that leaves memory leaves every byte in the state it ends with. -/
theorem sameMemory_of_after {o : Host.Outcome State Fault Refusal} {t : State} (h : o = .next t)
    (hm : (after o s).mem = s.mem) : SameMemory s t :=
  sameMemory_of_mem (by rwa [h, after_next] at hm)

theorem execBankGrant_notOffered {b : Fin 16} {a : BankAccess} (h : bankOffered s c b.val a.slot.val a.ownerUses = false) :
    execBankGrant c b a s = .next s := by
  simp [execBankGrant, h]

/-- A grant that DEBUG does not pre-empt decides the contest; the access of a winner that has not withdrawn changes nothing of it
(R234, R236). -/
theorem execBankGrant_won {b : Fin 16} {a : BankAccess} {q : DynReq}
    (ho : bankOffered s c b.val a.slot.val a.ownerUses = true) (hl : a.debugLate = false) (hq : q ≠ .debug)
    (hw : arbWinner s c b.val (contenders s c b.val a) = some q) : ∃ t, execBankGrant c b a s = .next t ∧
      t.eccView c = (contestWon s c b.val (contenders s c b.val a) q).eccView c := by
  have he : execBankGrant c b a s = .next (if a.withdrawn then contestWon s c b.val (contenders s c b.val a) q
      else lineAccess (contestWon s c b.val (contenders s c b.val a) q) c ((a.line / 16 * 16 + b.val) % 393216) a
        (dynCode q)) := by
    unfold contenders at hw ⊢
    simp [execBankGrant, contestWon, ho, hl, hq, hw]
  refine ⟨_, he, ?_⟩
  split
  · rfl
  · exact lineAccess_eccView ..

theorem execEccWriteback_clears {word : Nat} (h : (s.cx c).writeback.contains (spBase c / 8 + word) = true) :
    ∃ t, execEccWriteback c word s = .next t ∧ (t.cx c).writeback.contains (spBase c / 8 + word) = false ∧
      smGet 0 t.eccBad (spBase c / 8 + word) ≠ 1 := by
  refine ⟨_, congrArg Host.Outcome.next (if_pos h), ?_⟩
  extract_lets s1
  have hw : (s1.cx c).writeback.contains (spBase c / 8 + word) = false := by simp [s1]
  split
  · refine ⟨hw, ?_⟩
    simp [setBad, smGet_smSet_same]
  · next hb => exact ⟨hw, hb⟩

theorem execRowMapOut_starts {row : Nat} (hw : (s.cx c).mapWanted.contains row = true) (hm : (s.cx c).mapping = none)
    (hi : s.cst c = stIdle) (hs : sparesUsed s c row < 8) : execRowMapOut c row s = .next (s.setCx c { s.cx c with
      mapping := some row, mapWanted := (s.cx c).mapWanted.filter (· ≠ row) }) := by
  simp [execRowMapOut, List.contains_iff_mem.mp hw, hm, hi, hs]

/-- The copy of a row has read its lines and is over (R246). -/
def rowCopied (s : State) (c : CoreId) (row : Nat) : State :=
  let s1 := (rowLines row).foldl (fun t off => spTouch t c off 64 rqCopy) s
  s1.setCx c { s1.cx c with mapping := none }

theorem rowCopied_mapping (row : Nat) : ((rowCopied s c row).cx c).mapping = none := by
  simp [rowCopied]

/-- What the copy reads changes no remap table. -/
theorem rowCopied_rowMap (row n : Nat) : rowMap (rowCopied s c row) n = rowMap s n :=
  rowMap_of_eccView (foldl_fixes (State.eccView · c) (fun t off => spTouch t c off 64 rqCopy)
    (fun t off => spTouch_eccView t c off 64 rqCopy) (rowLines row) s) n

theorem execMapOutComplete_maps {row : Nat} (h : (s.cx c).mapping = some row) : execMapOutComplete c s =
    .next ((mapRow (rowCopied s c row) (macroPos s c) row).lg LogKind.rowMapped (coreU c) [row]) := by
  simp only [execMapOutComplete, h, rowCopied]

@[simp] theorem rowMap_lg (k : LogKind) (u : Nat) (a : List Nat) (n : Nat) : rowMap (s.lg k u a) n = rowMap s n := (rfl)

/-- Once the copy is over the row has a spare row that was free (R246). -/
theorem mapRow_rowCopied {row : Nat} (h : sparesUsed s c row < 8) :
    ∃ k < 8, smGet 0 (rowMap s (macroPos s c)) (8 * (row / 512) + k) = 0 ∧
      smGet 0 (rowMap (mapRow (rowCopied s c row) (macroPos s c) row) (macroPos s c)) (8 * (row / 512) + k) = row + 1 := by
  have hr := rowCopied_rowMap (s := s) (c := c) row (macroPos s c)
  have hf : (sparesOf (rowMap (rowCopied s c row) (macroPos s c)) row).length < 8 := by rwa [hr]
  simpa only [hr] using mapRow_fills_spare hf

/-- The patrol scrubber steps to the next line of a bank (R248). -/
theorem execPatrolScrub_steps {b : Fin 16} (e : EccFind) (h : s.rb Reg.BT_CLKSTAT_STOPPED c.die.val = false) :
    ∃ t, execPatrolScrub c b e s = .next t ∧
      smGet 0 (t.cx c).patrol b.val = (smGet 0 (s.cx c).patrol b.val + 1) % 24576 := by
  refine ⟨_, congrArg Host.Outcome.next (if_neg (by simp [h])), ?_⟩
  extract_lets line s1 t
  rw [patrol_of_eccView ((spTouch_eccView ..).trans (markLine_eccView ..))]
  show smGet 0 (s1.cx c).patrol b.val = _
  simp [s1, smGet_smSet_same]

theorem execZero_of_mayWrite {r : Requester} (h : mayWrite .fw r .core (coreU c) = true) :
    execZero r c s = .next (startZero s c) :=
  congrArg Host.Outcome.next (if_pos h)

/-- Zeroing takes the bytes of the scratchpad and no others (R248). -/
theorem zeroScratch_rdByte (a : Nat) : (zeroScratch s c).rdByte a =
    if a < spBase c ∨ spBase c + 0x1800000 ≤ a then s.rdByte a else 0 :=
  State.rdByte_zeroRange ..

theorem execZeroComplete_zeroing (h : s.rb Reg.CP_STAT_ZEROING (coreU c) = true) :
    execZeroComplete c s = .next ((zeroScratch s c).wb Reg.CP_STAT_ZEROING (coreU c) false) :=
  congrArg Host.Outcome.next (if_pos h)

/-- A cache that has a partition loses every line, and shows the invalidation (R257). -/
theorem rcInvalidate_drops (h : rcBytes s c ≠ 0) : ((rcInvalidate s c).cx c).rcTags = [] ∧
    (rcInvalidate s c).rb Reg.CP_STAT_RCINV (coreU c) = true := by
  rw [rcInvalidate, if_neg h, State.wb_cx, State.cx_setCx_same]
  exact ⟨rfl, State.rb_wb_same _ _ _ true _ _ (by decide)⟩

end Sys2Proof.Machine
end

section
/-! O33: events at a scratchpad (R234, R235, R243, R246, R248, R257, R262). -/

namespace Sys2Proof.Machine

/-- Settles O33: each event by the lemma about its command; a winner that withdraws leaves the contest decided as it is (R236, log 44). -/
theorem scratchpadEvents : Obligations.ScratchpadEvents := by
  unfold Obligations.ScratchpadEvents
  intro c s
  refine ⟨fun b a q ho hl hq hw => ?_, fun b a => execBankGrant_notOffered, fun b q => rfl, fun word h => ?_,
    fun row hw hm hi hs => ?_, fun row hm hs => ?_, fun b e h => ?_, fun r h => ⟨fun hi => ?_, fun h1 h2 => ?_⟩, fun h => ?_,
    fun r => rfl, rcInvalidate_drops, rfl⟩
  · obtain ⟨t, he, hv⟩ := execBankGrant_won ho hl hq hw
    refine ⟨t, he, (arbOf_of_eccView hv ..).trans (arbOf_contestWon_winner ..), ?_,
      sameMemory_of_after he (execBankGrant_mem s c b a), fun r hr hne => ?_⟩
    · rw [arbPtr_of_eccView hv, contestWon_arbPtr]
    · rw [arbOf_of_eccView hv, arbOf_contestWon_loser s c _ (contenders_nodup s c _ a) hr hne]
  · obtain ⟨t, he, hw, hb⟩ := execEccWriteback_clears h
    exact ⟨t, he, hw, hb, sameMemory_of_after he (execEccWriteback_mem s c word)⟩
  · refine ⟨_, execRowMapOut_starts hw hm hi hs, ?_, ?_, fun F u i j => State.setCx_rd ..⟩ <;> simp
  · have he := execMapOutComplete_maps hm
    refine ⟨_, he, ?_, sameMemory_of_after he (execMapOutComplete_mem s c), ?_⟩
    · rw [State.lg_cx, mapRow_cx, rowCopied_mapping]
    · simpa only [rowMap_lg] using mapRow_rowCopied hs
  · obtain ⟨t, he, hp⟩ := execPatrolScrub_steps e h
    exact ⟨t, he, sameMemory_of_after he (execPatrolScrub_mem s c b e), hp⟩
  · exact (execZero_of_mayWrite h).trans (congrArg Host.Outcome.next (if_pos hi))
  · exact (execZero_of_mayWrite h).trans (congrArg Host.Outcome.next (if_neg (not_or.mpr ⟨h1, h2⟩)))
  · refine ⟨_, execZeroComplete_zeroing h, State.rb_wb_same _ _ _ false _ _ (by decide), fun k hk => ?_, fun a ha => ?_⟩
    · rw [State.wb_rdByte, zeroScratch_rdByte, if_neg (by omega)]
    · rw [State.wb_rdByte, zeroScratch_rdByte, if_pos ha]

end Sys2Proof.Machine
end

section
/-! O3: memory after reset (R225, R429). -/

namespace Sys2Proof.Machine

/-- Settles O3: memory lists nothing yet, so every byte reads as an unlisted one (log 2). -/
theorem resetMemoryCanonical : Obligations.ResetMemoryCanonical := by
  unfold Obligations.ResetMemoryCanonical
  exact ⟨Memory.wf_reset, fun _ => rfl⟩

end Sys2Proof.Machine
end

section
/-! SUPPORT. What a router output does in a slot (R272, R275, R277, R298). -/

namespace Sys2Proof.Machine

variable {s : State} {c : CoreId} {p : Fin 9} {k : Fin 4096}

/-- An output does nothing in a slot: its die has no frame token or no clock, its counter shows another slot, the output has acted in
this one, or its entry is not valid (R274, R275). -/
def outputIdle (s : State) (c : CoreId) (p : Fin 9) (k : Fin 4096) : Bool :=
  (s.dx c.die).token.isNone || s.rb Reg.BT_CLKSTAT_STOPPED c.die.val || slotOf s c.die != k.val ||
    smGet 0 (s.rx c).acted p.val == nclkNow s + 1 || !(tabEnt s c p.val k.val).v

/-- The output has acted in the NCLK in progress. -/
def outputActed (s : State) (c : CoreId) (p : Fin 9) : State :=
  s.setRx c { s.rx c with acted := smSet 0 (s.rx c).acted p.val (nclkNow s + 1) }

/-- What an output does with the entry of the slot (R275, R292, R298). -/
def outputAct (u : State) (c : CoreId) (p : Nat) (e : TabEnt) (x : FlitChecks) : State :=
  if routerMarked u (coreU c) || !outReady u c p e then u.bump Reg.DN_UNUSED_COUNT (coreU c)
  else if e.fold then foldNode u c p e x.first x.second
  else match findIn u c e.inp e.stream 0 x.first with
    | (_, some (f, t)) => sendOut t c p e.alt f
    | (t, none) => t.bump Reg.DN_UNUSED_COUNT (coreU c)

theorem execFlitForward_eq (x : FlitChecks) : execFlitForward c p k x s =
    .next (if outputIdle s c p k then s else outputAct (outputActed s c p) c p.val (tabEnt s c p.val k.val) x) := by
  unfold execFlitForward outputAct
  rfl

theorem outputIdle_iff : outputIdle s c p k = true ↔ (s.dx c.die).token = none ∨
    s.rb Reg.BT_CLKSTAT_STOPPED c.die.val = true ∨ slotOf s c.die ≠ k.val ∨
    smGet 0 (s.rx c).acted p.val = nclkNow s + 1 ∨ (tabEnt s c p.val k.val).v = false := by
  simp [outputIdle, or_assoc]

theorem outputIdle_eq_false (ht : (s.dx c.die).token.isSome = true) (hc : s.rb Reg.BT_CLKSTAT_STOPPED c.die.val = false)
    (hk : slotOf s c.die = k.val) (ha : smGet 0 (s.rx c).acted p.val ≠ nclkNow s + 1)
    (hv : (tabEnt s c p.val k.val).v = true) : outputIdle s c p k = false := by
  have hn : (s.dx c.die).token ≠ none := Option.isSome_iff_ne_none.1 ht
  refine Bool.eq_false_iff.2 fun h => ?_
  rcases outputIdle_iff.1 h with h | h | h | h | h <;> simp_all

variable {u v : State} {n : Nat} {e : TabEnt} {x : FlitChecks} {f : Nat × Flit}

theorem outputAct_unused (h : routerMarked u (coreU c) = true ∨ outReady u c n e = false) :
    outputAct u c n e x = u.bump Reg.DN_UNUSED_COUNT (coreU c) :=
  if_pos (by simpa using h)

section

variable (hm : routerMarked u (coreU c) = false) (hr : outReady u c n e = true)

include hm hr

theorem outputAct_folds (hf : e.fold = true) : outputAct u c n e x = foldNode u c n e x.first x.second := by
  simp [outputAct, hm, hr, hf]

theorem outputAct_sends (hf : e.fold = false) {g : Flit}
    (h : (findIn u c e.inp e.stream 0 x.first).2 = some (g, v)) : outputAct u c n e x = sendOut v c n e.alt g := by
  simp only [outputAct, hm, hr, hf]
  generalize findIn u c e.inp e.stream 0 x.first = r at h
  obtain ⟨t, q⟩ := r
  subst h
  rfl

theorem outputAct_findsNone (hf : e.fold = false) (h : findIn u c e.inp e.stream 0 x.first = (v, none)) :
    outputAct u c n e x = v.bump Reg.DN_UNUSED_COUNT (coreU c) := by
  simp [outputAct, hm, hr, hf, h]

end

/-- The router without a flit that waited at an input. -/
def inputTaken (u : State) (c : CoreId) (inp : Nat) (f : Nat × Flit) : State :=
  u.setRx c { u.rx c with ins := smSet [] (u.rx c).ins inp ((smGet [] (u.rx c).ins inp).erase f) }

variable {inp i : Nat}

theorem takeIn_takes (h : (smGet [] (u.rx c).ins inp).find? (fun f => f.2.stream == i) = some f) (hf : f.1 ≤ nclkNow u) :
    takeIn u c inp i 0 = (u, some (f.2, inputTaken u c inp f)) := by
  simp [takeIn, h, Nat.not_lt.2 hf, inputTaken]

theorem takeIn_early (h : (smGet [] (u.rx c).ins inp).find? (fun f => f.2.stream == i) = some f) (hf : nclkNow u < f.1) :
    takeIn u c inp i 0 = (u, none) := by
  simp [takeIn, h, hf]

theorem takeIn_empty (h : ∀ f ∈ smGet [] (u.rx c).ins inp, f.2.stream ≠ i) : takeIn u c inp i 0 = (u, none) := by
  have hn : (smGet [] (u.rx c).ins inp).find? (fun f => f.2.stream == i) = none := List.find?_eq_none.2 (by simpa using h)
  simp [takeIn, hn]

section

variable (hi : inp ≠ 0)

include hi

theorem findIn_none {y : FlitCheck} (h : takeIn u c inp i 0 = (u, none)) : findIn u c inp i 0 y = (u, none) := by
  simp [findIn, hi, h]

theorem findIn_good {g : Flit} (h : takeIn u c inp i 0 = (u, some (g, v))) :
    (findIn u c inp i 0 .good).2 = some (g, v) := by
  simp [findIn, hi, h]

theorem findIn_fixed {g : Flit} (h : takeIn u c inp i 0 = (u, some (g, v))) (m : Nat) :
    (findIn u c inp i 0 (.fixed m)).2 = some (g, flitFixed v c g m) := by
  simp [findIn, hi, h]

theorem findIn_bad {g : Flit} (h : takeIn u c inp i 0 = (u, some (g, v))) :
    findIn u c inp i 0 .bad = (flitLost v c g, none) := by
  simp [findIn, hi, h]

end

/-- An output in its slot, with a valid entry and its die's frames running, acts as `outputAct` says (R275). -/
theorem exec_flitForward_acts (h : outputIdle s c p k = false) (x : FlitChecks) : exec (.flitForward c p k x) s =
    .next (outputAct (outputActed s c p) c p.val (tabEnt s c p.val k.val) x) := by
  show execFlitForward c p k x s = _
  rw [execFlitForward_eq, h]
  rfl

theorem exec_flitForward_idle (h : outputIdle s c p k = true) (x : FlitChecks) :
    exec (.flitForward c p k x) s = .next s := by
  show execFlitForward c p k x s = _
  rw [execFlitForward_eq, if_pos h]

/-- R277: a flit is dropped once it has waited one frame. -/
theorem exec_flitExpire_drops {r : List (Nat × Flit)} (h : smGet [] (s.rx c).ins p.val = f :: r)
    (hc : s.rb Reg.BT_CLKSTAT_STOPPED c.die.val = false)
    (hf : f.1 + s.rd Reg.DN_FRAME_FLEN c.die.val ≤ nclkNow s) : exec (.flitExpire c p) s =
      .next (misroute (s.setRx c { s.rx c with ins := smSet [] (s.rx c).ins p.val r }) c f.2) := by
  show execFlitExpire c p s = _
  simp [execFlitExpire, h, hc, Nat.not_lt.2 hf]

theorem exec_flitExpire_waits {r : List (Nat × Flit)} (h : smGet [] (s.rx c).ins p.val = f :: r)
    (hf : nclkNow s < f.1 + s.rd Reg.DN_FRAME_FLEN c.die.val) : exec (.flitExpire c p) s = .next s := by
  show execFlitExpire c p s = _
  simp [execFlitExpire, h, hf]

theorem misroute_rx (g : Flit) (q : CoreId) : (misroute s c g).rx q = s.rx q :=
  State.wr_rx s _ _ _ _ _ q fun d r k =>
    congrArg (fun v : (Nat → Nat → Nat → Nat) × SMap DieX => v.1 d r k) (State.rowView_wr s (by decide) ..)

theorem misroute_count (g : Flit) : (misroute s c g).rd Reg.DN_MISROUTE_COUNT (coreU c) =
    satAdd 32 (s.rd Reg.DN_MISROUTE_COUNT (coreU c)) 1 % 2 ^ 32 :=
  State.rd_wr_same ..

end Sys2Proof.Machine
end

section
/-! SUPPORT. Frame tokens and requests of a bank swap (R274, R297, R416). -/

namespace Sys2Proof.Machine

variable {s : State} {d : DieId}

/-- The token a die's counters take (R274, log 33): that of the dies whose frames run, or a free one. -/
def commonToken (s : State) : Nat := (allDies.findSome? fun e => (s.dx e).token).getD (Config.freeValue s.free)

/-- Frame starts that agree are one: a die that starts counts as those that run. -/
theorem commonToken_eq {e : DieId} {n : Nat} (he : (s.dx e).token = some n)
    (ha : ∀ g : DieId, (s.dx g).token = none ∨ (s.dx g).token = some n) : commonToken s = n := by
  have hf : allDies.findSome? (fun g => (s.dx g).token) = some n := by
    have hs : (allDies.findSome? fun g => (s.dx g).token).isSome = true :=
      List.findSome?_isSome_iff.2 ⟨e, by fin_cases e <;> decide, by simp [he]⟩
    obtain ⟨m, hm⟩ := Option.isSome_iff_exists.1 hs
    obtain ⟨g, -, hg⟩ := List.exists_of_findSome?_eq_some hm
    rcases ha g with h | h <;> simp_all
  rw [commonToken, hf]
  rfl

/-- The state in which a die's frames have started. -/
def frameStarted (s : State) (d : DieId) : State :=
  { s.setDx d { s.dx d with token := some (commonToken s) } with free := s.free + 1 }

/-- R416: a message with a good CRC and the number expected is applied. -/
theorem sbReceive_applies {p : PortId} {ty payload seq : Nat} {crc : BitVec 8} (f : State → State)
    (hk : crc8 40 (sbWord ty payload seq) = crc.toNat) (hq : seq = sbWant s p) :
    sbReceive s p ty payload seq crc f = f (s.setSb p { s.sb p with expect := (seq + 1) % 16 }) := by
  rw [sbReceive, if_neg (not_not_intro hk), if_neg (not_not_intro hq)]

theorem exec_token_good {q : Fin 16} {k : BitVec 8} (hk : crc8 40 (sbWord 1 0 q.val) = k.toNat)
    (hq : q.val = (s.sb (.die d 0)).expect) : exec (.token d q k) s =
      .next (frameStarted (s.setSb (.die d 0) { s.sb (.die d 0) with expect := (q.val + 1) % 16 }) d) :=
  congrArg Host.Outcome.next (sbReceive_applies _ hk hq)

theorem frameStarted_token : ((frameStarted s d).dx d).token = some (commonToken s) :=
  congrArg DieX.token (State.dx_setDx_same ..)

theorem exec_swap_registers {r : Requester} (h : mayWrite .fw r .die d.val = true) : exec (.swap r d) s =
    .next ((s.wb Reg.DN_TBLSEL_SWAP d.val true).wb Reg.DN_TBLSEL_PEND d.val true) := by
  show execSwap r d s = _
  rw [execSwap, if_pos h]

end Sys2Proof.Machine
end

section
/-! SUPPORT. The bank of a die's routers, and what a swap and its refusal make of it (R297, R298). -/

namespace Sys2Proof.Machine

/-- What a swap changes of a die: the bank in force, the request, its step boundary, and the bank that each of its routers shows. -/
def State.bankView (s : State) (d : DieId) : Nat × Bool × Bool × List Nat :=
  (bankOf s d.val, s.rb Reg.DN_TBLSEL_PEND d.val, (s.dx d).swapReady,
    (dieCores d).map fun e => s.rd Reg.DN_RSTAT_BANK (coreU e))

variable {s t : State} {d e : DieId}

theorem bankView_ext (hb : bankOf t d.val = bankOf s d.val)
    (hp : t.rb Reg.DN_TBLSEL_PEND d.val = s.rb Reg.DN_TBLSEL_PEND d.val)
    (hs : (t.dx d).swapReady = (s.dx d).swapReady)
    (hr : ∀ c ∈ dieCores d, t.rd Reg.DN_RSTAT_BANK (coreU c) = s.rd Reg.DN_RSTAT_BANK (coreU c)) :
    t.bankView d = s.bankView d := by
  rw [State.bankView, State.bankView, hb, hp, hs, List.map_congr_left hr]

/-- The fields that the view of a die's banks reads. -/
def bankIds : List Nat := [Reg.DN_TBLSEL_ACTIVE.id, Reg.DN_TBLSEL_PEND.id, Reg.DN_RSTAT_BANK.id]

theorem bankView_of_sameRegsBut {ids : List Nat} (h : SameRegsBut ids s t) (hi : ∀ n ∈ bankIds, n ∉ ids)
    (hs : (t.dx d).swapReady = (s.dx d).swapReady) : t.bankView d = s.bankView d :=
  bankView_ext (h _ (hi _ (by decide)) ..) (h.rb (hi _ (by decide)) ..) hs fun _ _ => h _ (hi _ (by decide)) ..

theorem mem_dieCores_die {c : CoreId} (h : c ∈ dieCores d) : c.die = d := by
  obtain ⟨i, -, rfl⟩ := List.mem_map.1 h
  rfl

theorem State.dx_setDx_ne (h : e ≠ d) (x : DieX) : (s.setDx d x).dx e = s.dx e :=
  smGet_smSet_ne _ _ _ _ fun k => h (Fin.ext k)

/-! ## What a swap leaves and sets -/

/-- The fields of FT_FBKEY. -/
def keyIds : List Nat :=
  [Reg.FT_FBKEY_KIND.id, Reg.FT_FBKEY_COL.id, Reg.FT_FBKEY_ROW.id, Reg.FT_FBKEY_DIR.id, Reg.FT_FBKEY_WIDTH.id]

theorem applyKey_sameRegs (s : State) (d : DieId) (n : Nat) : SameRegsBut keyIds s (applyKey s d n) := by
  unfold applyKey
  split
  · exact .refl
  · exact ((((SameRegsBut.wr (by decide)).trans (.wr (by decide))).trans (.wr (by decide))).trans (.wr (by decide))).trans
      (.wr (by decide))

theorem applyKey_dies (s : State) (d : DieId) (n : Nat) : (applyKey s d n).dies = s.dies := by
  unfold applyKey
  split <;> rfl

/-- The routers of a die show a bank. -/
def showBank (s : State) (d : DieId) (b : Nat) : State := (dieCores d).foldl (fun t c => t.wr Reg.DN_RSTAT_BANK (coreU c) b) s

/-- The registers and the record of a die that changes bank. -/
def bankFlipped (s : State) (d : DieId) : State :=
  let s1 := (s.wr Reg.DN_TBLSEL_ACTIVE d.val (1 - bankOf s d.val)).wr Reg.DN_TBLSEL_ACT_SET d.val
    (s.rd Reg.DN_TBLSEL_STBY_SET d.val)
  let s2 := (s1.wr Reg.DN_TBLSEL_STBY_SET d.val (s.rd Reg.DN_TBLSEL_ACT_SET d.val)).wb Reg.DN_TBLSEL_SWAP d.val false
  (s2.wb Reg.DN_TBLSEL_PEND d.val false).setDx d { s.dx d with swapReady := false, flips := [] }

theorem swapDie_eq : swapDie s d = applyKey (showBank (bankFlipped s d) d (1 - bankOf s d.val)) d
    ((bankFlipped s d).rd Reg.DN_TBLSEL_ACT_SET d.val) := by
  rfl

theorem swapDie_rd {F : Field} (hF : F.id ∉ Reg.DN_RSTAT_BANK.id :: keyIds) (u i j : Nat) :
    (swapDie s d).rd F u i j = (bankFlipped s d).rd F u i j := by
  obtain ⟨hBank, hKey⟩ := not_or.1 (mt List.mem_cons.2 hF)
  rw [swapDie_eq, applyKey_sameRegs _ _ _ F hKey]
  exact SameRegsBut.foldl (ids := [Reg.DN_RSTAT_BANK.id]) (fun _ _ => .wr (by decide)) _ _ F (by simpa using hBank) ..

theorem swapDie_dx : (swapDie s d).dx e = (bankFlipped s d).dx e := by
  have hShow : (showBank (bankFlipped s d) d (1 - bankOf s d.val)).dies = (bankFlipped s d).dies :=
    foldl_fixes State.dies _ (fun t c => State.wr_dies t ..) _ _
  rw [swapDie_eq, State.dx, applyKey_dies, hShow]
  rfl

theorem showBank_rd_mem {c : CoreId} (h : c ∈ dieCores d) (b : Nat) :
    (showBank s d b).rd Reg.DN_RSTAT_BANK (coreU c) = b % 2 := by
  obtain ⟨l1, l2, hl⟩ := List.append_of_mem h
  rw [showBank, hl, List.foldl_append, List.foldl_cons]
  refine foldl_keeps (fun t : State => t.rd Reg.DN_RSTAT_BANK (coreU c) = b % 2) _ (fun t q ht => ?_) l2 _
    (State.rd_wr_same ..)
  by_cases hq : coreU c = coreU q
  · rw [hq, State.rd_wr_same]
    rfl
  · rw [State.rd_wr_unit _ hq, ht]

theorem showBank_rd_other {c : CoreId} (h : c.die ≠ d) (b : Nat) :
    (showBank s d b).rd Reg.DN_RSTAT_BANK (coreU c) = s.rd Reg.DN_RSTAT_BANK (coreU c) := by
  refine List.foldlRecOn (motive := fun t : State => t.rd Reg.DN_RSTAT_BANK (coreU c) = s.rd Reg.DN_RSTAT_BANK (coreU c))
    _ _ rfl fun t ht q hq => ?_
  have hne : coreU c ≠ coreU q := fun k => h ((congrArg CoreId.die (coreU_inj k)).trans (mem_dieCores_die hq))
  rw [State.rd_wr_unit _ hne, ht]

theorem swapDie_rstat {c : CoreId} : (swapDie s d).rd Reg.DN_RSTAT_BANK (coreU c) =
    (showBank (bankFlipped s d) d (1 - bankOf s d.val)).rd Reg.DN_RSTAT_BANK (coreU c) := by
  rw [swapDie_eq, applyKey_sameRegs _ _ _ _ (by decide)]

theorem bankFlipped_rstat (u : Nat) : (bankFlipped s d).rd Reg.DN_RSTAT_BANK u = s.rd Reg.DN_RSTAT_BANK u := by
  simp (disch := decide) only [bankFlipped, State.setDx_rd, State.wb, State.rd_wr_ne]

/-- R297: the swap of a die leaves the others. -/
theorem swapDie_bankView_ne (h : e ≠ d) : (swapDie s d).bankView e = s.bankView e := by
  have hv : e.val ≠ d.val := fun k => h (Fin.ext k)
  refine bankView_ext ?_ ?_ ?_ fun c hc => ?_
  · rw [bankOf, swapDie_rd (by decide)]
    simp only [bankFlipped, State.setDx_rd, State.wb, State.rd_wr_unit _ hv]
    rfl
  · rw [State.rb, swapDie_rd (by decide)]
    simp only [bankFlipped, State.setDx_rd, State.wb, State.rd_wr_unit _ hv]
    rfl
  · rw [swapDie_dx, bankFlipped, State.dx_setDx_ne h]
    rfl
  · rw [swapDie_rstat, showBank_rd_other (by rwa [mem_dieCores_die hc]), bankFlipped_rstat]

/-- R297: a die that swaps has the other bank in force, at every router, and no request. -/
theorem swapDie_bankView_same (hb : bankOf s d.val < 2) : (swapDie s d).bankView d =
    (1 - bankOf s d.val, false, false, (dieCores d).map fun _ => 1 - bankOf s d.val) := by
  have hm : (1 - bankOf s d.val) % 2 = 1 - bankOf s d.val := Nat.mod_eq_of_lt (by omega)
  have hBank : bankOf (swapDie s d) d.val = 1 - bankOf s d.val := by
    rw [bankOf, swapDie_rd (by decide)]
    simp (disch := decide) only [bankFlipped, State.setDx_rd, State.wb, State.rd_wr_ne, State.rd_wr_same]
    exact hm
  have hPend : (swapDie s d).rb Reg.DN_TBLSEL_PEND d.val = false := by
    rw [State.rb, swapDie_rd (by decide)]
    simp only [bankFlipped, State.setDx_rd, State.wb, State.rd_wr_same]
    rfl
  have hReady : ((swapDie s d).dx d).swapReady = false := by
    rw [swapDie_dx, bankFlipped, State.dx_setDx_same]
  rw [State.bankView, hBank, hPend, hReady]
  refine congrArg _ (congrArg _ (congrArg _ (List.map_congr_left fun c hc => ?_)))
  rw [swapDie_rstat, showBank_rd_mem hc, hm]

/-- R298: a request that is withdrawn leaves the banks. -/
theorem dropSwap_bankView_ne (h : e ≠ d) : (dropSwap s d).bankView e = s.bankView e := by
  have hv : e.val ≠ d.val := fun k => h (Fin.ext k)
  refine bankView_ext ?_ ?_ rfl fun c _ => ?_
  · simp only [bankOf, dropSwap, State.lg_rd, State.wb, State.rd_wr_unit _ hv]
  · simp only [State.rb, dropSwap, State.lg_rd, State.wb, State.rd_wr_unit _ hv]
  · simp (disch := decide) only [dropSwap, State.lg_rd, State.wb, State.rd_wr_ne]

theorem dropSwap_bankView_same : (dropSwap s d).bankView d =
    (bankOf s d.val, false, (s.dx d).swapReady, (dieCores d).map fun c => s.rd Reg.DN_RSTAT_BANK (coreU c)) := by
  have hBank : bankOf (dropSwap s d) d.val = bankOf s d.val := by
    simp (disch := decide) only [bankOf, dropSwap, State.lg_rd, State.wb, State.rd_wr_ne]
  have hPend : (dropSwap s d).rb Reg.DN_TBLSEL_PEND d.val = false := by
    rw [dropSwap, State.lg_rb]
    exact State.rb_wb_same _ _ _ false _ _ (by decide)
  have hRouters : ∀ u, (dropSwap s d).rd Reg.DN_RSTAT_BANK u = s.rd Reg.DN_RSTAT_BANK u := fun u => by
    simp (disch := decide) only [dropSwap, State.lg_rd, State.wb, State.rd_wr_ne]
  rw [State.bankView, hBank, hPend]
  simp only [hRouters]
  rfl

theorem flipPeer_bankView (l : List DieId) (q : DieId × Fin 9) : (flipPeer l s q).bankView d = s.bankView d := by
  have hKeep : (flipPeer l s q).regs = s.regs ∧ ((flipPeer l s q).dx d).swapReady = (s.dx d).swapReady := by
    unfold flipPeer
    split
    · next e m _ =>
      split
      · exact ⟨rfl, rfl⟩
      · refine ⟨rfl, ?_⟩
        by_cases h : d = e
        · subst h
          exact (congrArg DieX.swapReady (State.dx_setDx_same ..)).trans rfl
        · exact congrArg DieX.swapReady (State.dx_setDx_ne h _)
    · exact ⟨rfl, rfl⟩
  exact bankView_of_sameRegsBut (ids := []) (.of_regs hKeep.1) (by simp) hKeep.2

theorem endRecovery_bankView (g : Gather) : (endRecovery s g).bankView d = s.bankView d := by
  unfold endRecovery
  extract_lets x e rows
  split
  · exact bankView_of_sameRegsBut (ids := [Reg.FT_GHOLD_HELD.id])
      ((SameRegsBut.wr (by decide)).trans (.of_regs rfl)) (by decide) rfl
  · rfl

theorem endRecoveries_bankView : (endRecoveries s).bankView d = s.bankView d := by
  unfold endRecoveries
  split
  · exact foldl_fixes (State.bankView · d) _ (fun _ g => endRecovery_bankView g) _ s
  · rfl

theorem swapDies_bankView (l : List DieId) : (swapDies s l).bankView d = (l.foldl swapDie s).bankView d :=
  foldl_fixes (State.bankView · d) _ (fun _ q => flipPeer_bankView l q) _ _

theorem swapDies_bankView_notMem {l : List DieId} (h : d ∉ l) : (swapDies s l).bankView d = s.bankView d := by
  rw [swapDies_bankView]
  exact List.foldlRecOn (motive := fun t : State => t.bankView d = s.bankView d) _ _ rfl fun t ht e he =>
    (swapDie_bankView_ne (ne_of_mem_of_not_mem he h).symm).trans ht

theorem swapDies_bankView_mem {l : List DieId} (hl : l.Nodup) (h : d ∈ l) (hb : bankOf s d.val < 2) :
    (swapDies s l).bankView d = (1 - bankOf s d.val, false, false, (dieCores d).map fun _ => 1 - bankOf s d.val) := by
  obtain ⟨t, ht, hs⟩ := exists_foldl_eq_step (State.bankView · d) (f := swapDie)
    (fun e _ hne u => swapDie_bankView_ne (Ne.symm hne)) hl h s
  have hBank : bankOf t d.val = bankOf s d.val := congrArg Prod.fst ht
  rw [swapDies_bankView, hs, swapDie_bankView_same (hBank ▸ hb), hBank]

theorem dropSwaps_bankView_mem {l : List DieId} (hl : l.Nodup) (h : d ∈ l) : (l.foldl dropSwap s).bankView d =
    (bankOf s d.val, false, (s.dx d).swapReady, (dieCores d).map fun c => s.rd Reg.DN_RSTAT_BANK (coreU c)) := by
  obtain ⟨t, ht, hs⟩ := exists_foldl_eq_step (State.bankView · d) (f := dropSwap)
    (fun e _ hne u => dropSwap_bankView_ne (Ne.symm hne)) hl h s
  obtain ⟨hBank, hView⟩ := Prod.mk.inj ht
  obtain ⟨-, hView⟩ := Prod.mk.inj hView
  rw [hs, dropSwap_bankView_same, hBank]
  exact congrArg (Prod.mk _ ∘ Prod.mk _) hView

/-! ## Which requests are met -/

/-- The dies with a request. -/
def pendingDies (s : State) : List DieId := allDies.filter fun e => s.rb Reg.DN_TBLSEL_PEND e.val

/-- The sets in STANDBY that cannot be applied on some die with a request. -/
def refusedSets (s : State) : List Nat :=
  ((pendingDies s).filter fun e => !setUsable s e).map fun e => s.rd Reg.DN_TBLSEL_STBY_SET e.val

/-- The dies that swap. -/
def swappingDies (s : State) : List DieId :=
  (pendingDies s).filter fun e => !(refusedSets s).contains (s.rd Reg.DN_TBLSEL_STBY_SET e.val)

/-- The dies whose request is withdrawn. -/
def refusedDies (s : State) : List DieId := (pendingDies s).filter fun e => !(swappingDies s).contains e

/-- The swap in a slot in which it takes place. -/
def slotSwapped (s : State) : State := endRecoveries (swapDies ((refusedDies s).foldl dropSwap s) (swappingDies s))

theorem mem_pendingDies : e ∈ pendingDies s ↔ s.rb Reg.DN_TBLSEL_PEND e.val = true := by
  have hAll : e ∈ allDies := by fin_cases e <;> decide
  simp [pendingDies, hAll]

theorem pendingDies_nodup : (pendingDies s).Nodup := List.Nodup.filter _ (by decide)

theorem exec_fallbackSwap_idle
    (h : s.rb Reg.DN_TBLSEL_PEND d.val = false ∨ (s.dx d).token = none ∨ slotOf s d ≠ 0) :
    exec (.fallbackSwap d) s = .next s := by
  show execFallbackSwap d s = _
  rcases h with h | h | h <;> simp [execFallbackSwap, h]

theorem exec_fallbackSwap_swaps (hp : s.rb Reg.DN_TBLSEL_PEND d.val = true) (ht : (s.dx d).token.isSome = true)
    (hk : slotOf s d = 0) (hf : ∀ e : DieId, s.rb Reg.DN_TBLSEL_PEND e.val = true → swapFree s e = true) :
    exec (.fallbackSwap d) s = .next (slotSwapped s) := by
  have hAll : (pendingDies s).all (swapFree s) = true := List.all_eq_true.2 fun e he => hf e (mem_pendingDies.1 he)
  refine congrArg Host.Outcome.next (if_pos ?_)
  show (_ && _ && _ && (pendingDies s).all (swapFree s)) = true
  rw [hp, ht, hk, hAll]
  rfl

/-- R297: where every set can be applied, every die with a request swaps. -/
theorem swappingDies_usable (hu : ∀ e : DieId, s.rb Reg.DN_TBLSEL_PEND e.val = true → setUsable s e = true) :
    swappingDies s = pendingDies s ∧ refusedDies s = [] := by
  have hNone : refusedSets s = [] := by
    rw [refusedSets, List.filter_eq_nil_iff.2 fun e he => by simp [hu e (mem_pendingDies.1 he)]]
    rfl
  have hAll : swappingDies s = pendingDies s := by simp [swappingDies, hNone]
  refine ⟨hAll, List.filter_eq_nil_iff.2 fun e he => ?_⟩
  simpa [hAll] using he

/-- R298: a die whose set cannot be applied does not swap. -/
theorem not_mem_swappingDies (hp : s.rb Reg.DN_TBLSEL_PEND d.val = true) (hu : setUsable s d = false) :
    d ∉ swappingDies s := by
  have hSet : s.rd Reg.DN_TBLSEL_STBY_SET d.val ∈ refusedSets s :=
    List.mem_map_of_mem (List.mem_filter.2 ⟨mem_pendingDies.2 hp, by simp [hu]⟩)
  intro h
  have hFree := (List.mem_filter.1 h).2
  simp [hSet] at hFree

theorem slotSwapped_bankView_usable (hp : s.rb Reg.DN_TBLSEL_PEND d.val = true) (hb : bankOf s d.val < 2)
    (hu : ∀ e : DieId, s.rb Reg.DN_TBLSEL_PEND e.val = true → setUsable s e = true) : (slotSwapped s).bankView d =
      (1 - bankOf s d.val, false, false, (dieCores d).map fun _ => 1 - bankOf s d.val) := by
  obtain ⟨hAll, hNone⟩ := swappingDies_usable hu
  rw [slotSwapped, endRecoveries_bankView, hAll, hNone]
  exact swapDies_bankView_mem pendingDies_nodup (mem_pendingDies.2 hp) hb

theorem slotSwapped_bankView_refused (hp : s.rb Reg.DN_TBLSEL_PEND d.val = true) (hu : setUsable s d = false) :
    (slotSwapped s).bankView d = (bankOf s d.val, false, (s.dx d).swapReady,
      (dieCores d).map fun c => s.rd Reg.DN_RSTAT_BANK (coreU c)) := by
  have hOut := not_mem_swappingDies hp hu
  have hIn : d ∈ refusedDies s := List.mem_filter.2 ⟨mem_pendingDies.2 hp, by simpa using hOut⟩
  rw [slotSwapped, endRecoveries_bankView, swapDies_bankView_notMem hOut]
  exact dropSwaps_bankView_mem (pendingDies_nodup.filter _) hIn

end Sys2Proof.Machine
end

section
/-! O43: router outputs, expired flits, frame tokens and bank swaps (R274, R275, R277, R292, R297, R298). -/

namespace Sys2Proof.Machine

/-- Settles O43: an output by what it finds in its slot, the other commands by their equations, and a swap by what it makes of a
die's banks; an output acts once in a slot (log 33), and a set that cannot be applied is withdrawn (log 99). -/
theorem routersAndSlotTables : Obligations.RoutersAndSlotTables := by
  unfold Obligations.RoutersAndSlotTables
  intro c s
  refine ⟨fun p k a b h => exec_flitForward_idle (outputIdle_iff.2 h) _, fun p k a b ht hc hk ha hv u hu => ?_,
    fun p f r hi hc => ⟨fun hf => ?_, fun hf => exec_flitExpire_waits hi hf⟩, fun d q k hk hq => ?_,
    fun d r h => exec_swap_registers h, fun d => ⟨exec_fallbackSwap_idle, fun hp ht hk hf => ⟨fun hb hu => ?_, fun hu => ?_⟩⟩⟩
  · have hNow : nclkNow u = nclkNow s := by rw [hu]; rfl
    have hAct : ∀ x, exec (.flitForward c p k x) s = .next (outputAct u c p.val (tabEnt s c p.val k.val) x) := by
      rw [hu]
      exact exec_flitForward_acts (outputIdle_eq_false ht hc hk ha hv)
    refine ⟨fun h => ?_, fun hm hr => ⟨fun hf => ?_, fun hf n hn hn0 => ?_⟩⟩
    · rw [hAct, outputAct_unused h]
    · rw [hAct, outputAct_folds hm hr hf]
    · subst hn
      refine ⟨fun f hfind => ⟨fun hw => ?_, fun hw v hv => ?_⟩, fun hnone => ?_⟩
      · rw [hAct, outputAct_findsNone hm hr hf (findIn_none hn0 (takeIn_early hfind (hNow ▸ hw)))]
      · rw [show v = inputTaken u c _ f from hv]
        have hTake := takeIn_takes hfind (hNow ▸ hw)
        refine ⟨?_, fun m => ?_, ?_⟩
        · rw [hAct, outputAct_sends hm hr hf (findIn_good hn0 hTake)]
        · rw [hAct, outputAct_sends hm hr hf (findIn_fixed hn0 hTake m)]
        · rw [hAct, outputAct_findsNone hm hr hf (findIn_bad hn0 hTake)]
      · rw [hAct, outputAct_findsNone hm hr hf (findIn_none hn0 (takeIn_empty hnone))]
  · have he := exec_flitExpire_drops hi hc hf
    refine ⟨_, he, ?_, sameMemory_of_exec he (execFlitExpire_mem s c p), misroute_count _⟩
    rw [misroute_rx, State.rx_setRx_same]
    exact smGet_smSet_same ..
  · have he := exec_token_good hk hq
    refine ⟨_, he, ?_, fun _ _ _ _ => rfl, sameMemory_of_exec he (execToken_mem s d q k), fun e n hn hAll => ?_⟩
    · rw [frameStarted_token]
      rfl
    · rw [frameStarted_token]
      exact congrArg some (commonToken_eq hn hAll)
  · have he := exec_fallbackSwap_swaps hp ht hk hf
    have hView := slotSwapped_bankView_usable hp hb hu
    simp only [State.bankView, Prod.mk.injEq, List.map_inj_left] at hView
    obtain ⟨hBank, hPend, hReady, hRouters⟩ := hView
    exact ⟨_, he, hBank, hPend, hReady, sameMemory_of_exec he (execFallbackSwap_mem s d), hRouters⟩
  · have he := exec_fallbackSwap_swaps hp ht hk hf
    have hView := slotSwapped_bankView_refused hp hu
    simp only [State.bankView, Prod.mk.injEq] at hView
    obtain ⟨hBank, hPend, -⟩ := hView
    exact ⟨_, he, hBank, hPend, sameMemory_of_exec he (execFallbackSwap_mem s d)⟩

end Sys2Proof.Machine
end

section
/-! SUPPORT. Which runs are active after changes of engines and of HOLD, and after a stop (R288, R407, R426). -/

namespace Sys2Proof.Machine

variable (s : State) (d : DieId) (i : Nat)

/-- A change of a stream's engines that leaves ACTIVE leaves that of every stream. -/
theorem setSx_active {e : DieId} {j : Nat} {x : StreamX} (h : x.active = (s.sx e j).active) :
    ((s.setSx e j x).sx d i).active = (s.sx d i).active := by
  by_cases hk : streamKey d i = streamKey e j
  · simp only [State.sx, State.setSx, hk, smGet_smSet_same] at h ⊢
    exact h
  · exact congrArg StreamX.active (smGet_smSet_ne _ _ _ _ hk)

theorem setHold_active (e : DieId) (j key : Nat) (on : Bool) :
    ((setHold s e j key on).sx d i).active = (s.sx d i).active :=
  setSx_active s d i rfl

theorem wrP_sx (p : PortId) (F FH : Field) (v j : Nat) : (wrP s p F FH v j).sx d i = s.sx d i := by
  cases p <;> rfl

theorem sbSend_sx (p : PortId) (ty v : Nat) : (sbSend s p ty v).sx d i = s.sx d i := rfl

theorem foldl_sbSend_active {α : Type} (p : α → PortId) (ty : Nat) (v : α → Nat) (l : List α) :
    ((l.foldl (fun t q => sbSend t (p q) ty (v q)) s).sx d i).active = (s.sx d i).active :=
  foldl_fixes (fun t : State => (t.sx d i).active) _ (fun t _ => congrArg StreamX.active (sbSend_sx t d i ..)) l s

theorem foldl_setHold_active (e : DieId) (key : Nat) (on : Bool) (l : List Nat) :
    ((l.foldl (fun t j => setHold t e j key on) s).sx d i).active = (s.sx d i).active :=
  foldl_fixes (fun t : State => (t.sx d i).active) _ (fun t j => setHold_active t d i e j key on) l s

theorem holdPort_active (p : PortId) (on : Bool) : ((holdPort s p on).sx d i).active = (s.sx d i).active := by
  unfold holdPort
  extract_lets s1
  have h1 : (s1.sx d i).active = (s.sx d i).active := congrArg StreamX.active (wrP_sx ..)
  clear_value s1
  rw [← h1]
  cases p with
  | die e n =>
    exact foldl_fixes (fun t : State => (t.sx d i).active) _
      (fun t j => (foldl_sbSend_active _ d i _ _ _ _).trans (setHold_active t d i e j _ on)) _ s1
  | hub e => exact foldl_setHold_active s1 d i e _ on _
  | span m => exact foldl_sbSend_active s1 d i _ _ _ _
  | stack k => exact foldl_setHold_active s1 d i _ _ on _

theorem updHold_active (p : PortId) : ((updHold s p).sx d i).active = (s.sx d i).active := by
  unfold updHold
  extract_lets n
  split
  · exact holdPort_active s d i p true
  · split
    · exact holdPort_active s d i p false
    · rfl

/-- R426: what a stop discards at the ports leaves every run as it stands. -/
theorem dropQueued_active (q : DieId × Nat) : ((dropQueued s q).sx d i).active = (s.sx d i).active := by
  unfold dropQueued
  extract_lets drop s1
  have hDrop : ∀ (t : State) (p : PortId) (j : Nat), ((drop t p j).sx d i).active = (t.sx d i).active := fun t p j =>
    updHold_active _ d i p
  refine (foldl_fixes (fun t : State => (t.sx d i).active) _ (fun t m => ?_) _ s1).trans
    (foldl_fixes (fun t : State => (t.sx d i).active) _ (fun t p => hDrop t p q.2) _ s)
  split
  · exact hDrop ..
  · rfl

/-- Of two visits to one stream under two names the second stands. -/
theorem mapStream_pair {p q : DieId × Nat} (h : streamKey q.1 q.2 = streamKey d i) (f : DieId × Nat → StreamX → StreamX) :
    (mapStream s [p, q] f).sx d i = f q ((s.setSx p.1 p.2 (f p (s.sx p.1 p.2))).sx q.1 q.2) := by
  rw [State.sx, ← h]
  exact State.sx_setSx_same ..

/-- What a stop makes of the engines that a name of its stream stands for: only the contributors of a fold on other dies go on
waiting (R288). -/
def stoppedEngines (p : DieId × Nat) (x : StreamX) : StreamX :=
  { x with discard := true, active := sd s d i Reg.DN_DESC_FOLD == 1 && p.1 != d && (s.sx p.1 p.2).active }

/-- A stop leaves a run as the visits to the names of its stream do. -/
theorem stopStream_active (h : s.rb Reg.DN_SSTAT_ACTIVE d.val i = true) : ∃ u, ((stopStream s d i).sx d i).active =
    ((mapStream u (family s d i) (stoppedEngines s d i)).sx d i).active := by
  rw [stopStream, if_pos h]
  exact ⟨_, foldl_fixes (fun t : State => (t.sx d i).active) _ (fun t q => dropQueued_active t d i q) _ _⟩

theorem mem_family : (d, i) ∈ family s d i := by
  have hGrow : ∀ m a : List (DieId × Nat), (d, i) ∈ a →
      (d, i) ∈ m.foldl (fun a p => if a.contains p then a else a ++ [p]) a := fun m a h =>
    foldl_keeps (fun a : List (DieId × Nat) => (d, i) ∈ a) _ (fun a p h => by split <;> simp [h]) m a h
  exact hGrow _ _ (hGrow _ _ (hGrow _ _ List.mem_cons_self))

theorem mapStream_ended {l : List (DieId × Nat)} (hm : (d, i) ∈ l)
    (hl : ∀ p ∈ l, streamKey d i = streamKey p.1 p.2 → p = (d, i)) {f : DieId × Nat → StreamX → StreamX}
    (hf : ∀ x, (f (d, i) x).active = false) : ((mapStream s l f).sx d i).active = false := by
  obtain ⟨l1, l2, rfl⟩ := List.append_of_mem hm
  rw [mapStream, List.foldl_append, List.foldl_cons]
  refine List.foldlRecOn (motive := fun t : State => (t.sx d i).active = false) _ _ ?_ fun t ht p hp => ?_
  · rw [State.sx_setSx_same, hf]
  · by_cases hk : streamKey d i = streamKey p.1 p.2
    · rw [hl p (by simp [hp]) hk, State.sx_setSx_same, hf]
    · rw [State.sx, State.setSx, smGet_smSet_ne _ _ _ _ hk]
      exact ht

/-- R288: where every die of a stream names it by an index that a descriptor has, a stop ends its run. -/
theorem stopStream_ends (h : s.rb Reg.DN_SSTAT_ACTIVE d.val i = true) (hi : ∀ p ∈ family s d i, p.2 < 2 ^ 15) :
    ((stopStream s d i).sx d i).active = false := by
  obtain ⟨u, hu⟩ := stopStream_active s d i h
  rw [hu]
  refine mapStream_ended u d i (mem_family s d i) (fun p hp hk => ?_) fun x => by simp [stoppedEngines]
  have h1 := hi _ (mem_family s d i)
  have h2 := hi p hp
  simp only [streamKey] at hk h1
  exact Prod.ext (Fin.ext (show p.1.val = d.val by omega)) (show p.2 = i by omega)

end Sys2Proof.Machine
end

section
/-! O42: stream runs (R282, R284, R285, R287, R288). -/

namespace Sys2Proof.Machine

/-- A run of stream 0 of die 1, whose PEER holds 32,768, more than its 15 bits can: that index of die 0 is another name of the same
stream's engines, and the descriptor there has the same shared fields. -/
def peerPastRange : State :=
  { State.reset with
    regs := [(fieldKey Reg.DN_DESC_FOLD 1 0 0, 1), (fieldKey Reg.DN_DESC_VALID 1 0 0, 1),
      (fieldKey Reg.DN_DESC_PEER 1 0 0, 2 ^ 15), (fieldKey Reg.DN_SSTAT_ACTIVE 1 0 0, 1),
      (fieldKey Reg.DN_DESC_FOLD 0 (2 ^ 15) 0, 1), (fieldKey Reg.DN_DESC_VALID 0 (2 ^ 15) 0, 1)]
    streams := [(streamKey 1 0, { active := true })] }

theorem peerPastRange_family : family peerPastRange 1 0 = [(1, 0), (0, 2 ^ 15)] := rfl

/-- A stop ends the run at the first name and, as that of a contributor on another die, leaves it active at the second. -/
theorem stopStream_peerPastRange : ((stopStream peerPastRange 1 0).sx 1 0).active = true := by
  obtain ⟨u, hu⟩ := stopStream_active peerPastRange 1 0 rfl
  rw [hu, peerPastRange_family, mapStream_pair u 1 0 rfl]
  rfl

/-- Refutes O42: its clause on STREAM_STOP takes any register store, and so one in which PEER names an index past the 32,768 of a
die. Such an index is a second name of the stopped stream, under which it counts as a contributor on another die, and stays active. In a
store whose indices are in range the stop ends the run (`stopStream_ends`). -/
theorem not_streamRuns : ¬ Obligations.StreamRuns := by
  unfold Obligations.StreamRuns
  intro h
  obtain ⟨-, -, -, -, hStop, -⟩ := h 1 0 peerPastRange
  obtain ⟨t, ht, hEnded, -⟩ := hStop (.punty 1) rfl rfl (by simp [peerPastRange, State.reset])
  have hExec : exec (.streamStop (.punty 1) 1 0) peerPastRange = .next (stopStream peerPastRange 1 0) := rfl
  have hSame : stopStream peerPastRange 1 0 = t := Host.Outcome.next.inj (hExec.symm.trans ht)
  have hRuns := stopStream_peerPastRange
  rw [hSame] at hRuns
  exact Bool.false_ne_true (hEnded.symm.trans hRuns)

end Sys2Proof.Machine
end

section
/-! SUPPORT. The queues of sideband messages, and the hub's releases of a cross-die round (R326, R415, R416). -/

namespace Sys2Proof.Machine

variable (s : State)

theorem State.sb_setSb_same (p : PortId) (x : SideX) : (s.setSb p x).sb p = x :=
  congrArg PortX.side (State.px_setPx_same ..)

theorem State.sb_setSb_ne {p q : PortId} (h : portKey q ≠ portKey p) (x : SideX) : (s.setSb p x).sb q = s.sb q :=
  congrArg PortX.side (State.px_setPx_ne h _)

theorem portKey_hub_ne {d e : DieId} (h : d ≠ e) : portKey (.hub e) ≠ portKey (.hub d) := fun hk =>
  h (Fin.ext (by simpa [portKey] using hk.symm))

theorem sbSend_regs (p : PortId) (ty v : Nat) : (sbSend s p ty v).regs = s.regs := rfl

theorem sbSend_hubSync (p : PortId) (ty v : Nat) : (sbSend s p ty v).hubSync = s.hubSync := rfl

/-- R416: a bad CRC is answered by SBNAK with the number wanted. -/
theorem sbReceive_refuses {p : PortId} {ty payload seq : Nat} {crc : BitVec 8} (f : State → State)
    (hk : crc8 40 (sbWord ty payload seq) ≠ crc.toNat) :
    sbReceive s p ty payload seq crc f = sbSend s p sbtNak (sbWant s p) := by
  rw [sbReceive, if_pos hk]

/-- R416: a message with a good CRC whose number is not the one expected has been applied, and is ignored. -/
theorem sbReceive_ignores {p : PortId} {ty payload seq : Nat} {crc : BitVec 8} (f : State → State)
    (hk : crc8 40 (sbWord ty payload seq) = crc.toNat) (hq : seq ≠ sbWant s p) :
    sbReceive s p ty payload seq crc f = s := by
  rw [sbReceive, if_neg (not_not_intro hk), if_pos hq]

/-- The state once a port has taken message `n`. -/
def sbTaken (p : PortId) (n : Nat) : State := s.setSb p { s.sb p with expect := (n + 1) % 16 }

/-- Taking a message leaves what the hub's ports have queued. -/
theorem sbTaken_hub_queue (d e : DieId) (n : Nat) :
    ((sbTaken s (.hub d) n).sb (.hub e)).queue = (s.sb (.hub e)).queue := by
  by_cases h : d = e
  · rw [h, sbTaken, State.sb_setSb_same]
  · rw [sbTaken, State.sb_setSb_ne s (portKey_hub_ne h)]

theorem sbSend_hub_queue (d e : DieId) (ty v : Nat) : ((sbSend s (.hub d) ty v).sb (.hub e)).queue =
    (s.sb (.hub e)).queue ++ List.replicate (if d = e then 1 else 0) ⟨ty, v⟩ := by
  by_cases h : d = e
  · rw [h, sbSend, State.sb_setSb_same, if_pos rfl]
    rfl
  · rw [sbSend, State.sb_setSb_ne s (portKey_hub_ne h), if_neg h]
    exact (List.append_nil _).symm

/-- A message to each die of a list is queued at a die's port as often as the list names that die. -/
theorem foldl_sbSend_hub_queue (e : DieId) (ty v : Nat) (l : List DieId) :
    ((l.foldl (fun t d => sbSend t (.hub d) ty v) s).sb (.hub e)).queue =
      (s.sb (.hub e)).queue ++ List.replicate (l.count e) ⟨ty, v⟩ := by
  induction l generalizing s with
  | nil => exact (List.append_nil _).symm
  | cons d r ih =>
    rw [List.foldl_cons, ih, sbSend_hub_queue, List.append_assoc, List.replicate_append_replicate, List.count_cons,
      Nat.add_comm]
    simp only [beq_iff_eq]

/-- The dies of a cross-die group, as one die's XDIE names them. -/
def groupDies (d : DieId) (g : Nat) : List DieId := allDies.filter fun e => bit (s.rd Reg.SY_GRP_XDIE d.val g) e.val

theorem count_groupDies {d e : DieId} {g : Nat} (h : bit (s.rd Reg.SY_GRP_XDIE d.val g) e.val = true) :
    (groupDies s d g).count e = 1 := by
  have hOnce : ∀ e : DieId, allDies.count e = 1 := by decide
  exact (List.count_filter (p := fun e : DieId => bit (s.rd Reg.SY_GRP_XDIE d.val g) e.val) h).trans (hOnce e)

/-- R326: the hub answers a complete round with a release to every die of the group. -/
def releasesSent (d : DieId) (g : Nat) : State :=
  (groupDies s d g).foldl (fun t e => sbSend t (.hub e) 2 (syncPayload true g)) { s with hubSync := smSet 0 s.hubSync g 0 }

/-- The releases touch no register, and the hub counts the next round's arrives from none. -/
theorem releasesSent_regs (d : DieId) (g : Nat) : (releasesSent s d g).regs = s.regs :=
  foldl_fixes State.regs _ (fun t e => sbSend_regs t (.hub e) ..) _ _

theorem releasesSent_hubSync (d : DieId) (g : Nat) : smGet 0 (releasesSent s d g).hubSync g = 0 := by
  rw [releasesSent, foldl_fixes State.hubSync _ fun t e => sbSend_hubSync t (.hub e) ..]
  exact smGet_smSet_same 0 s.hubSync g 0

theorem releasesSent_queue {d e : DieId} {g : Nat} (h : bit (s.rd Reg.SY_GRP_XDIE d.val g) e.val = true) :
    ((releasesSent s d g).sb (.hub e)).queue = (s.sb (.hub e)).queue ++ [⟨2, syncPayload true g⟩] := by
  rw [releasesSent, foldl_sbSend_hub_queue, count_groupDies s h]
  rfl

end Sys2Proof.Machine
end

section
/-! PROOFS. What each command of the sync network does to a round (R324, R326, R327, R328, R415). -/

namespace Sys2Proof.Machine

variable {s : State} {d : DieId} {g : Fin 64}

/-- A field reads alike before and after where the register store is the same. -/
theorem sameRegs_of_regs {t : State} (h : t.regs = s.regs) : SameRegs s t := fun F u i j => State.rd_congr h F u i j

/-- R324, R328: a round is not released before its members have arrived, nor in a bundle that is held. -/
theorem exec_barrierRelease_holds (h : allArrived s d g.val = false ∨ bundleHeld s d g.val = true) :
    exec (.barrierRelease d g) s = .next s := by
  refine congrArg Host.Outcome.next (if_pos ?_)
  rcases h with h | h <;> simp [h]

/-- R324: a local round without a phase duty completes once its members have arrived. -/
theorem exec_barrierRelease_completes (hArr : allArrived s d g.val = true) (hx : crossDie s d g.val = false)
    (hb : bundleHeld s d g.val = false) (hc : syncStopped s d = false) (hp : s.rb Reg.SY_GRP_PHASE d.val g.val = false) :
    exec (.barrierRelease d g) s = .next (completeRound s d g.val) := by
  refine congrArg Host.Outcome.next ((if_neg ?_).trans (if_neg ?_))
  · simp [hArr, hx, hb, hc]
  · simp [hp]

/-- R327: a local round that misses no member is not reported. -/
theorem exec_barrierStall_complete (hm : missing s d g.val = 0) (hx : crossDie s d g.val = false) :
    exec (.barrierStall d g) s = .next s :=
  congrArg Host.Outcome.next (if_neg (by simp [hm, hx]))

/-- The registers of a die whose group is marked STALL. -/
def stallMarked (s : State) (d : DieId) (g : Nat) : State := s.wb Reg.SY_GRP_STALL d.val true g

/-- R327: an open round that misses a member or waits for other dies is marked, and the arrivals stand. -/
theorem exec_barrierStall_marks (ho : s.rb Reg.SY_GRP_OPEN d.val g.val = true) (hc : syncStopped s d = false)
    (hm : missing s d g.val ≠ 0 ∨ crossDie s d g.val = true) : ∃ t, exec (.barrierStall d g) s = .next t ∧
      t.rb Reg.SY_GRP_STALL d.val g.val = true ∧ SameMemory s t ∧
      t.rd64 Reg.SY_ARR_LO Reg.SY_ARR_HI d.val g.val = s.rd64 Reg.SY_ARR_LO Reg.SY_ARR_HI d.val g.val := by
  have hx : exec (.barrierStall d g) s = .next (noteAt ((stallMarked s d g.val).lg LogKind.barrierStall (dieN d.val)
      [g.val, missing s d g.val]) (.dieNode d) 0x23 [g.val, missing s d g.val]) :=
    congrArg Host.Outcome.next (if_pos ⟨ho, by simp [hc], hm⟩)
  have hRegs : ∀ l : List Nat, (noteAt ((stallMarked s d g.val).lg LogKind.barrierStall (dieN d.val) l) (.dieNode d) 0x23
      l).regs = (stallMarked s d g.val).regs := fun _ => rfl
  refine ⟨_, hx, ?_, sameMemory_of_exec hx (execBarrierStall_mem s d g), ?_⟩
  · rw [State.rb, State.rd_congr (hRegs _)]
    exact State.rb_wb_same _ _ _ _ _ _ (by decide)
  · rw [State.rd64, State.rd_congr (hRegs _), State.rd_congr (hRegs _), stallMarked, State.rd_wb_ne (by decide),
      State.rd_wb_ne (by decide), State.rd64]

/-- The state in which a die holds a bundle of its sync network. -/
def bundleParityHeld (s : State) (d : DieId) (b : Nat) : State :=
  s.setDx d { s.dx d with parityHeld := b :: (s.dx d).parityHeld.filter (· ≠ b) }

/-- R328: a parity error holds its bundle. -/
theorem exec_syncParity_holds (b : Fin 2) (p : Pos) (hc : syncStopped s d = false) : ∃ t,
    exec (.syncParity d b p) s = .next t ∧ (t.dx d).parityHeld.contains b.val = true ∧ SameRegs s t ∧ SameMemory s t := by
  have hx : exec (.syncParity d b p) s = .next (raiseDie ((bundleParityHeld s d b.val).lg LogKind.syncParity (dieN d.val)
      [b.val, p.row.val, p.col.val]) d false (unitEvent s 5 0x0C d.val (some (p.row, p.col)) 0 [b.val])) :=
    congrArg Host.Outcome.next (if_neg (Bool.eq_false_iff.mp hc))
  have hHeld : ((bundleParityHeld s d b.val).dx d).parityHeld.contains b.val = true := by simp [bundleParityHeld]
  exact ⟨_, hx, hHeld, sameRegs_of_regs rfl, sameMemory_of_exec hx (execSyncParity_mem s d b p)⟩

section
variable {q : Fin 16} {crc : BitVec 8}

/-- R324, R415: a release that reaches a die whose bundle is not held completes the round there. -/
theorem exec_release_completes (hk : crc8 40 (sbWord 2 (syncPayload true g.val) q.val) = crc.toNat)
    (hq : q.val = (s.sb (.die d 0)).expect) (hb : bundleHeld s d g.val = false) (hc : syncStopped s d = false) :
    exec (.sync (.release d g) q crc) s = .next (completeRound (sbTaken s (.die d 0) q.val) d g.val) := by
  refine congrArg Host.Outcome.next ((sbReceive_applies (p := .die d 0) _ hk hq).trans (if_neg ?_))
  have hb' : bundleHeld (sbTaken s (.die d 0) q.val) d g.val = false := hb
  have hc' : syncStopped (sbTaken s (.die d 0) q.val) d = false := hc
  rw [← sbTaken, hb', hc']
  exact Bool.false_ne_true

/-- The arrives that the hub has of a round once that of a die is among them. -/
def arrivesWith (s : State) (d : DieId) (g : Nat) : Nat := smGet 0 s.hubSync g ||| 2 ^ d.val

/-- R326: the arrive that completes a cross-die round none of whose dies is lost is answered by the releases. -/
theorem exec_arrive_releases (hk : crc8 40 (sbWord 2 (syncPayload false g.val) q.val) = crc.toNat)
    (hq : q.val = sbWant s (.hub d))
    (hAll : (arrivesWith s d g.val ||| idleDies s g.val) &&& s.rd Reg.SY_GRP_XDIE d.val g.val =
      s.rd Reg.SY_GRP_XDIE d.val g.val)
    (hDue : ∀ e : DieId, bit (s.rd Reg.SY_GRP_XDIE d.val g.val) e.val = true → (s.dx e).syncDue = none) :
    exec (.sync (.arrive d g) q crc) s = .next (releasesSent (sbTaken s (.hub d) q.val) d g.val) := by
  refine congrArg Host.Outcome.next ((sbReceive_applies _ hk hq).trans (if_pos ⟨hAll, List.all_eq_true.mpr fun e _ => ?_⟩))
  show (!bit (s.rd Reg.SY_GRP_XDIE d.val g.val) e.val || (s.dx e).syncDue.isNone) = true
  cases hb : bit (s.rd Reg.SY_GRP_XDIE d.val g.val) e.val with
  | false => rfl
  | true => rw [hDue e hb]; rfl

/-- R326: an arrive that leaves others missing is noted. -/
theorem exec_arrive_notes (hk : crc8 40 (sbWord 2 (syncPayload false g.val) q.val) = crc.toNat)
    (hq : q.val = sbWant s (.hub d))
    (hAll : (arrivesWith s d g.val ||| idleDies s g.val) &&& s.rd Reg.SY_GRP_XDIE d.val g.val ≠
      s.rd Reg.SY_GRP_XDIE d.val g.val) :
    exec (.sync (.arrive d g) q crc) s =
      .next { sbTaken s (.hub d) q.val with hubSync := smSet 0 s.hubSync g.val (arrivesWith s d g.val) } :=
  congrArg Host.Outcome.next ((sbReceive_applies _ hk hq).trans (if_neg fun h => hAll h.1))

end

end Sys2Proof.Machine
end

section
/-! O35: rounds of barrier groups (R324, R326, R327, R328, R415). -/

namespace Sys2Proof.Machine

/-- Settles O35: each command's effect on a round, by the lemmas above. -/
theorem barrierRounds : Obligations.BarrierRounds := by
  unfold Obligations.BarrierRounds
  intro d g s
  refine ⟨exec_barrierRelease_holds, fun hArr hx hb hc hp => exec_barrierRelease_completes hArr hx hb hc hp,
    fun _ => exec_barrierStall_complete, exec_barrierStall_marks, exec_syncParity_holds, fun q crc => ⟨?_, ?_, ?_⟩⟩
  · exact fun hk => congrArg Host.Outcome.next (sbReceive_refuses s _ hk)
  · exact fun hk => ⟨exec_release_completes hk, fun hq => congrArg Host.Outcome.next (sbReceive_ignores s _ hk hq)⟩
  · refine fun hk hq => ⟨fun hAll hDue => ?_, fun hAll => ?_⟩
    · have hx := exec_arrive_releases hk hq hAll hDue
      refine ⟨_, hx, releasesSent_hubSync .., sameMemory_of_exec hx (execSync_mem s (.arrive d g) q crc),
        sameRegs_of_regs (releasesSent_regs ..), fun e he => ?_⟩
      rw [releasesSent_queue (sbTaken s (.hub d) q.val) he, sbTaken_hub_queue]
    · have hx := exec_arrive_notes hk hq hAll
      exact ⟨_, hx, smGet_smSet_same .., sameMemory_of_exec hx (execSync_mem s (.arrive d g) q crc), sameRegs_of_regs rfl⟩

end Sys2Proof.Machine
end

section
/-! O57: loads and the step boundary (R383). -/

namespace Sys2Proof.Machine

variable {s : State} {im : Image}

/-- R383: a full load that has been checked is applied with no parison in force, or at its step boundary, while no update runs. -/
theorem exec_parisonApply_applies (hi : s.load.img = some im) (hw : pzStage s = pzWaiting) (hf : im.seg = none)
    (hb : s.rb Reg.PZ_HSTAT_SEALED 0 = false ∨ s.load.ready = true) (hu : updating s = false) : exec .parisonApply s =
      .next (nextSection im.nsect (dropParison (clearModule (setStage s pzApplying) im)) im 0) := by
  show execParisonApply s = _
  rw [execParisonApply, hi]
  exact congrArg Host.Outcome.next (if_pos ⟨hw, hf, by simpa using hb, by simp [hu]⟩)

/-- R383, R459: in the model a full load waits as long as a layer is between its passes, with a parison in force or with none. -/
theorem exec_parisonApply_updating (hu : updating s = true) : exec .parisonApply s = .next s := by
  show execParisonApply s = _
  rw [execParisonApply]
  cases s.load.img with
  | none => rfl
  | some im => exact congrArg Host.Outcome.next (if_neg (by simp [hu]))

/-- A full image without sections. -/
def emptyImage : Image := ⟨none, 0, 0, 0, 0, 0, 0, []⟩

/-- A full load waits, no parison is in force, and layer 0 of stack 0 is in PASS1. -/
def waitsInPass1 : State :=
  { (setLayer (wrT (setStage State.reset pzWaiting) 0 Reg.TS_LAYER_EN 1 0) 0 0 lyPass1) with
    load := { State.reset.load with img := some emptyImage } }

theorem waitsInPass1_stage : pzStage waitsInPass1 = pzWaiting := rfl

theorem waitsInPass1_updating : updating waitsInPass1 = true := by
  have hUse : 0 ∈ layersInUse waitsInPass1 0 := List.mem_filter.mpr ⟨List.mem_range.mpr (by decide), rfl⟩
  exact List.any_eq_true.mpr ⟨0, by decide, List.any_eq_true.mpr ⟨0, hUse, rfl⟩⟩

/-- Refutes O57: its clause on PARISON_APPLY has a full load applied whenever no parison is in force, as R383's
stage table has it. The model, which cites R459 beside R383, lets a load wait for an update also then (`exec_parisonApply_updating`):
in `waitsInPass1` it stays WAITING, where the clause has an image without sections reach SEALING. With no update running the load is
applied as the clause says (`exec_parisonApply_applies`). -/
theorem not_loadsAndStepBoundary : ¬ Obligations.LoadsAndStepBoundary := by
  unfold Obligations.LoadsAndStepBoundary
  intro h
  obtain ⟨-, -, -, -, hLoad, -⟩ := h waitsInPass1
  obtain ⟨hApply, -⟩ := hLoad emptyImage rfl
  have hApplied := hApply waitsInPass1_stage rfl (Or.inl rfl)
  have hSame := Host.Outcome.next.inj ((exec_parisonApply_updating waitsInPass1_updating).symm.trans hApplied)
  have hSealing : pzStage waitsInPass1 = pzSealing := (congrArg pzStage hSame).trans (State.rd_wr_same ..)
  exact absurd (waitsInPass1_stage.symm.trans hSealing) (by decide)

end Sys2Proof.Machine
end

section
/-! SUPPORT. The handle instructions' operations on a queue: what a reservation and a destruction leave in its registers, and a core that
holds for an answer (R337, R339, R341). -/

namespace Sys2Proof.Machine

variable {s : State} {c : CoreId}

@[simp] theorem State.send_out (s : State) (a b : NodeId) (p : Packet) : (s.send a b p).out = s.out ++ [.packet a b p] := (rfl)

theorem holdHandle_wait (h : HandleWait) : ((holdHandle s c h).cx c).handleWait = some h :=
  congrArg CoreX.handleWait (State.cx_setCx_same ..)

theorem holdHandle_entries (h : HandleWait) : ((holdHandle s c h).cx c).entries = (s.cx c).entries := by
  rw [holdHandle, State.setCst_cx, State.cx_setCx_same]

theorem holdHandle_out (h : HandleWait) : (holdHandle s c h).out = s.out := (rfl)

theorem holdHandle_rd {F : Field} (hF : Reg.CS_STAT_STATE.id ≠ F.id) (h : HandleWait) (u i j : Nat) :
    (holdHandle s c h).rd F u i j = s.rd F u i j :=
  (State.rd_wr_ne _ hF ..).trans (State.setCx_rd ..)

/-- A reserved queue is live in the state of its kind. -/
theorem reserveQueue_state (a b q : Nat) :
    (reserveQueue s c a b q).rd Reg.CQ_Q_STATE (coreU c) q = if bit a 9 then 2 else 1 := by
  simp (disch := decide) only [reserveQueue, State.rd_wr_ne, State.rd_wr_same]
  split <;> rfl

theorem reserveQueue_gen (a b q : Nat) : (reserveQueue s c a b q).rd Reg.CQ_Q_GEN (coreU c) q =
    nextGen (s.rd Reg.CQ_Q_GEN (coreU c) q) % 2 ^ 16 := by
  simp (disch := decide) only [reserveQueue, State.rd_wr_ne, State.rd_wr_same]
  rfl

theorem reserveQueue_out (a b q : Nat) : (reserveQueue s c a b q).out = s.out := by
  simp only [reserveQueue, State.wr_out]

theorem freeQueue_entries (q : Nat) : smGet [] ((freeQueue s c q).cx c).entries q = [] := by
  simp only [freeQueue, State.wr_cx, State.cx_setCx_same, smGet_smSet_same]

theorem freeQueue_out (q : Nat) : (freeQueue s c q).out = s.out := by
  simp only [freeQueue, State.wr_out, State.setCx_out]

/-- The state of a queue whose sender is asked to end its channel. -/
def destroying (s : State) (c : CoreId) (q : Nat) (n : NodeId) : State :=
  (((freeQueue s c q).wr Reg.CQ_Q_STATE (coreU c) 3 q).wr Reg.CQ_STAT_NQUEUE (coreU c) (s.rd Reg.CQ_STAT_NQUEUE (coreU c))).send
    (.core c) n (.handleDestroy (handleOf s c q))

/-- R341: the destruction of a queue whose sender can be reached starts. -/
theorem startDestroy_reachable {q : Nat} {n : NodeId} (hn : nodeOfNum (s.rd Reg.CQ_Q_SENDER (coreU c) q) = some n)
    (hr : reachable s c n = true) : startDestroy s c q = (destroying s c q n, true) := by
  simp only [startDestroy, hn, hr, if_true]
  rfl

theorem destroying_state (q : Nat) (n : NodeId) : (destroying s c q n).rd Reg.CQ_Q_STATE (coreU c) q = 3 := by
  rw [destroying, State.send_rd, State.rd_wr_ne _ (by decide), State.rd_wr_same]
  rfl

theorem destroying_out (q : Nat) (n : NodeId) :
    (destroying s c q n).out = s.out ++ [.packet (.core c) n (.handleDestroy (handleOf s c q))] := by
  rw [destroying, State.send_out, State.wr_out, State.wr_out, freeQueue_out]

theorem destroying_entries (q : Nat) (n : NodeId) : smGet [] ((destroying s c q n).cx c).entries q = [] := by
  rw [destroying, State.send_cx, State.wr_cx, State.wr_cx, freeQueue_entries]

end Sys2Proof.Machine
end

section
/-! O29: QCREATE and QDESTROY (R338, R339, R341, R364). -/

namespace Sys2Proof.Machine

variable {s t : State} {c : CoreId} {w : IFields} {x y : Word} {n : NodeId} {q r : Nat}

/-- The state in which QCREATE waits for its sender's answer. -/
def creating (s : State) (c : CoreId) (w : IFields) (a b q : Nat) (n : NodeId) : State :=
  holdHandle ((reserveQueue s c a b q).send (.core c) n (.handleCreate (handleOf (reserveQueue s c a b q) c q) (bit a 9)
    (depthOf (bits a 10 2)) (64 * bits b 13 13))) c
    (.create (handleOf (reserveQueue s c a b q) c q) q (depthOf (bits a 10 2)) w.d.toNat)

theorem creating_out (a b : Nat) : (creating s c w a b q n).out = s.out ++ [.packet (.core c) n (.handleCreate
    (handleOf (reserveQueue s c a b q) c q) (bit a 9) (depthOf (bits a 10 2)) (64 * bits b 13 13))] := by
  rw [creating, holdHandle_out, State.send_out, reserveQueue_out]

theorem creating_rd {F : Field} (hF : Reg.CS_STAT_STATE.id ≠ F.id) (a b u i j : Nat) :
    (creating s c w a b q n).rd F u i j = (reserveQueue s c a b q).rd F u i j := by
  rw [creating, holdHandle_rd hF, State.send_rd]

theorem bodyQcreate_fails (hr : Reads2 s c w x y t) (hk : createCheck t c x.toNat y.toNat = .error r) :
    bodyQcreate c w s = doneS c w 0 (createFail t c r) := by
  rw [bodyQcreate, withSrc2_val hr, hk]

theorem bodyQcreate_asks (hr : Reads2 s c w x y t) (hk : createCheck t c x.toNat y.toNat = .ok q)
    (hn : nodeOfNum (bits x.toNat 12 10) = some n) (hreach : reachable t c n = true) :
    bodyQcreate c w s = .wait fun s0 => creating s0 c w x.toNat y.toNat q n := by
  rw [bodyQcreate, withSrc2_val hr, hk]
  simp only [hn, hreach, if_true]
  rfl

/-- The handle of QDESTROY is of the core's own, and its queue is not free. -/
structure OwnQueue (t : State) (c : CoreId) (h : Nat) : Prop where
  own : handleCore h = c
  used : t.rd Reg.CQ_Q_STATE (coreU c) (handleIdx h) ≠ 0

theorem bodyQdestroy_badHandle (hr : Reads s c w.a x t)
    (hb : handleCore x.toNat ≠ c ∨ t.rd Reg.CQ_Q_STATE (coreU c) (handleIdx x.toNat) = 0) :
    bodyQdestroy c w s = doneS c w 4 t := by
  rw [bodyQdestroy, withSrc_val hr]
  by_cases hc : handleCore x.toNat = c
  · exact (if_neg (not_not.mpr hc)).trans (if_pos (hb.resolve_left (not_not.mpr hc)))
  · exact if_pos hc

theorem bodyQdestroy_stale (hr : Reads s c w.a x t) (ho : OwnQueue t c x.toNat)
    (hg : handleGen x.toNat ≠ t.rd Reg.CQ_Q_GEN (coreU c) (handleIdx x.toNat)) : bodyQdestroy c w s = doneS c w 2 t := by
  simp only [bodyQdestroy, withSrc_val hr, ho.own, ho.used, hg, ne_eq, not_true_eq_false, not_false_eq_true, if_true, if_false]
  rfl

/-- The handle of QDESTROY names a live queue of the core in its present generation. -/
structure LiveQueue (t : State) (c : CoreId) (h : Nat) : Prop extends OwnQueue t c h where
  gen : handleGen h = t.rd Reg.CQ_Q_GEN (coreU c) (handleIdx h)
  live : t.rd Reg.CQ_Q_STATE (coreU c) (handleIdx h) ≠ 3

theorem bodyQdestroy_frozen (hr : Reads s c w.a x t) (hl : LiveQueue t c x.toNat)
    (hp : t.rb Reg.CQ_Q_PZ (coreU c) (handleIdx x.toNat) = true) :
    bodyQdestroy c w s = doneS c w 5 (t.lg LogKind.frozenRefused (coreU c) [handleIdx x.toNat]) := by
  simp only [bodyQdestroy, withSrc_val hr, hl.own, hl.used, hl.gen, hl.live, hp, ne_eq, not_true_eq_false, if_true, if_false]
  rfl

theorem bodyQdestroy_starts (hr : Reads s c w.a x t) (hl : LiveQueue t c x.toNat)
    (hp : t.rb Reg.CQ_Q_PZ (coreU c) (handleIdx x.toNat) = false)
    (hn : nodeOfNum (t.rd Reg.CQ_Q_SENDER (coreU c) (handleIdx x.toNat)) = some n) (hreach : reachable t c n = true) :
    bodyQdestroy c w s = .wait fun s0 => holdHandle (startDestroy s0 c (handleIdx x.toNat)).1 c
      (.destroy x.toNat (handleIdx x.toNat) w.d.toNat) := by
  simp only [bodyQdestroy, withSrc_val hr, hl.own, hl.used, hl.gen, hl.live, hp, startDestroy_reachable hn hreach, ne_eq,
    not_true_eq_false, if_true, if_false, Bool.false_eq_true]

/-- Settles O29: each instruction by its checks, and the states in which either waits by what they leave of the queue. -/
theorem channelCreateAndDestroy : Obligations.ChannelCreateAndDestroy := by
  unfold Obligations.ChannelCreateAndDestroy
  intro c w s t x y
  refine ⟨fun hr hi => ⟨fun r hk => ?_, fun q n hk hn hreach => ?_⟩,
    fun hr hi => ⟨fun hb => ?_, fun hown hused => ⟨fun hg => ?_, fun hg h3 hp => ?_, fun n hg h3 hp hsender => ?_⟩⟩⟩
  · exact issued_done hi (bodyQcreate_fails hr hk)
  · have hx : exec (.qcreate c w) s = .next (creating s c w x.toNat y.toNat q n) :=
      issued_wait hi (bodyQcreate_asks hr hk hn hreach) rfl
    exact ⟨_, hx, creating_out .., holdHandle_wait _, (creating_rd (by decide) ..).trans (reserveQueue_state ..),
      (creating_rd (by decide) ..).trans (reserveQueue_gen ..), sameMemory_of_exec hx (execQcreate_mem s c w)⟩
  · exact issued_done hi (bodyQdestroy_badHandle hr hb)
  · exact issued_done hi (bodyQdestroy_stale hr ⟨hown, hused⟩ hg)
  · exact issued_done hi (bodyQdestroy_frozen hr ⟨⟨hown, hused⟩, hg, h3⟩ hp)
  · obtain ⟨hns, hrs⟩ := hsender s (List.mem_cons_self ..)
    obtain ⟨hnt, hrt⟩ := hsender t (List.mem_cons_of_mem _ (List.mem_cons_self ..))
    have hx : exec (.qdestroy c w) s = .next (holdHandle (destroying s c (handleIdx x.toNat) n) c
        (.destroy x.toNat (handleIdx x.toNat) w.d.toNat)) :=
      issued_wait hi (bodyQdestroy_starts hr ⟨⟨hown, hused⟩, hg, h3⟩ hp hnt hrt) (by rw [startDestroy_reachable hns hrs])
    refine ⟨_, hx, destroying_out .., holdHandle_wait _, (holdHandle_rd (by decide) ..).trans (destroying_state ..), ?_,
      sameMemory_of_exec hx (execQdestroy_mem s c w)⟩
    rw [holdHandle_entries]
    exact destroying_entries ..

end Sys2Proof.Machine
end

section
/-! O37: channels made, acknowledged, ended and purged (R339, R341, R343, R362). -/

namespace Sys2Proof.Machine

variable {s : State} {c : CoreId} {h : Word}

theorem exec_handleCreate (ht : Takes c s) (ring : Bool) (depth lines : Nat) :
    exec (.handleCreate (.core c) h ring depth lines) s = .next (takeCreate c h.toNat ring depth lines s) :=
  congrArg Host.Outcome.next (toCore_of_takes ht ..)

theorem exec_handleAck (ht : Takes c s) (f : Option Nat) : exec (.handleAck c h f) s = .next (takeAck c h.toNat f s) :=
  congrArg Host.Outcome.next (toCore_of_takes ht ..)

theorem exec_handleDestroy (ht : Takes c s) : exec (.handleDestroy (.core c) h) s =
    .next ((dropChannel s c h.toNat).send (.core c) (.core (handleCore h.toNat)) (.handleAck h.toNat none)) :=
  congrArg Host.Outcome.next (toCore_of_takes ht ..)

theorem takeCreate_installed {t : State} {m depth lines : Nat} {ring : Bool} (hi : installSend s c m ring depth lines = some t) :
    takeCreate c m ring depth lines s = t.send (.core c) (.core (handleCore m)) (.handleAck m none) := by
  rw [takeCreate, hi]
  rfl

theorem takeCreate_full {m depth lines : Nat} {ring : Bool} (hi : installSend s c m ring depth lines = none) :
    takeCreate c m ring depth lines s = s.send (.core c) (.core (handleCore m)) (.handleAck m (some 5)) := by
  rw [takeCreate, hi]
  rfl

/-- R339: the answer to a QCREATE ends it with its handle. -/
theorem takeAck_created {m q n d : Nat} (hw : (s.cx c).handleWait = some (.create m q n d)) :
    takeAck c m none s = endHandle s c d m := by
  rw [takeAck, hw]
  exact if_neg (not_not.mpr rfl)

/-- R339, R364: a refusal ends the QCREATE with 0 and its reason. -/
theorem takeAck_refused {m q n d : Nat} (hw : (s.cx c).handleWait = some (.create m q n d)) (r : Nat) :
    takeAck c m (some r) s = endHandle (createFail (freeQueue s c q) c r) c d 0 := by
  rw [takeAck, hw]
  exact if_neg (not_not.mpr rfl)

/-- R341: the answer to a QDESTROY ends it. -/
theorem takeAck_destroy {m k d : Nat} (hw : (s.cx c).handleWait = some (.destroy k (handleIdx m) d)) (f : Option Nat) :
    takeAck c m f s = endHandle (endDestroy s c (handleIdx m)) c d 0 := by
  rw [takeAck, hw]
  exact if_pos rfl

@[simp] theorem signal_hubSend (s : State) (v : Nat) : (signal s v).hubSend = s.hubSend := by
  unfold signal
  split
  · rfl
  · split <;> rfl

@[simp] theorem postRecord_hubSend (s : State) (n addr : Nat) (bs : List Byte) : (postRecord s n addr bs).hubSend = s.hubSend := by
  unfold postRecord
  split <;> rfl

@[simp] theorem writeRecord_hubSend (s : State) (n : Nat) (e : SqEntry) (status flags info : Nat) :
    (writeRecord s n e status flags info).hubSend = s.hubSend := by
  unfold writeRecord
  extract_lets tail p bs s1 s2 s3 x
  have h3 : s3.hubSend = s.hubSend := by
    simp only [s3, State.bump_hubSend]
    split <;> simp [s2, s1]
  split
  · split <;> simp [h3]
  · exact h3

@[simp] theorem endDisabling_hubSend (s : State) (n : Nat) : (endDisabling s n).hubSend = s.hubSend := by
  unfold endDisabling
  split <;> rfl

theorem finishRunOf_hubSend (n : Nat) (r : SlotRun) (status flags info : Nat) :
    (finishRunOf s n r status flags info).hubSend = s.hubSend := by
  simp [finishRunOf]

/-- R341, R363: the end of a channel of the hub removes its entry and no other. -/
theorem hubStale_hubSend (m : Nat) : (hubStale s m).hubSend = s.hubSend.filter fun e => e.handle != m :=
  foldl_fixes State.hubSend _ (fun _ _ => finishRunOf_hubSend ..) _ _

/-- Ending several channels of the hub leaves the entries of the others. -/
theorem mem_hubSend_foldl_hubStale {e : HubSend} (l : List HubSend) : ∀ {s : State},
    e ∈ (l.foldl (fun t x => hubStale t x.handle) s).hubSend → e ∈ s.hubSend ∧ e ∉ l := by
  induction l with
  | nil => exact fun h => ⟨h, List.not_mem_nil⟩
  | cons x r ih =>
    intro s h
    obtain ⟨hs, hr⟩ := ih h
    rw [hubStale_hubSend, List.mem_filter] at hs
    obtain ⟨hs, hx⟩ := hs
    exact ⟨hs, fun hl => (List.mem_cons.mp hl).elim (fun hex => by simp [hex] at hx) hr⟩

/-- R362: after the purge of a die no entry of the hub names a core of it. -/
theorem purgeDie_hubSend (d : DieId) : ∀ e ∈ (purgeDie s d).hubSend, (handleCore e.handle).die ≠ d := by
  intro e he hd
  obtain ⟨hmem, hpurged⟩ := mem_hubSend_foldl_hubStale _ he
  exact hpurged (List.mem_filter.mpr ⟨hmem, beq_iff_eq.mpr hd⟩)

theorem exec_cqCmdDestroy {r : Requester} (hw : mayWrite .fw r .core (coreU c) = true) (q : Fin 256) :
    exec (.cqCmdDestroy r c q) s = .next (firmwareDestroy s c q.val) :=
  congrArg Host.Outcome.next (if_pos hw)

theorem firmwareDestroy_live {q : Nat} (hp : s.rb Reg.CQ_Q_PZ (coreU c) q = false) (h0 : s.rd Reg.CQ_Q_STATE (coreU c) q ≠ 0)
    (h3 : s.rd Reg.CQ_Q_STATE (coreU c) q ≠ 3) (hq : s.cst c ≠ stWaitQ) : firmwareDestroy s c q = (startDestroy s c q).1 := by
  simp only [firmwareDestroy, hp, h0, h3, hq, or_self, false_and, if_false, Bool.false_eq_true]

/-- Settles O37: each packet by what its core makes of it, the purge by what it leaves of the hub's entries, the command by its queue. -/
theorem channelHandshakes : Obligations.ChannelHandshakes := by
  unfold Obligations.ChannelHandshakes
  intro c s ht h
  refine ⟨fun ring depth lines => ⟨fun t hi => ?_, fun hi => ?_⟩, fun q n d hw => ⟨?_, fun r => ?_⟩, fun k d hw => ?_,
    exec_handleDestroy ht, fun d => ⟨_, rfl, purgeDie_hubSend d⟩, fun r q hw => ⟨fun hp => ?_, fun hp h0 h3 hq => ?_⟩⟩
  · rw [exec_handleCreate ht, takeCreate_installed hi]
  · rw [exec_handleCreate ht, takeCreate_full hi]
  · rw [exec_handleAck ht, takeAck_created hw]
  · rw [exec_handleAck ht, takeAck_refused hw]
  · rw [exec_handleAck ht, takeAck_destroy hw]
  · exact (exec_cqCmdDestroy hw q).trans (congrArg Host.Outcome.next (if_pos hp))
  · rw [exec_cqCmdDestroy hw, firmwareDestroy_live hp h0 h3 hq]

end Sys2Proof.Machine
end

section
/-! SUPPORT. What the operations of queues and rings leave of registers, of a core and of what was sent (R345, R353, R354), and the write
to a scratchpad that checks its words (R225). -/

namespace Sys2Proof.Machine

variable {s : State} {c : CoreId}

theorem State.eccView_wrKeep (keep : List Nat) (l : List Byte) : ∀ (s : State) (a : Nat),
    (s.wrKeep keep a l).eccView c = s.eccView c := by
  induction l with
  | nil => exact fun _ _ => rfl
  | cons b r ih =>
    intro s a
    rw [State.wrKeep, ih]
    split <;> rfl

theorem State.eccView_wrBytes (l : List Byte) : ∀ (s : State) (a : Nat), (s.wrBytes a l).eccView c = s.eccView c := by
  induction l with
  | nil => exact fun _ _ => rfl
  | cons b r ih => exact fun s a => ih (s.wrByte a b) (a + 1)

/-- A write to a scratchpad leaves of its core all but the words that wait for their write-back. -/
theorem spWrite_eccView (off : Nat) (bs : List Byte) (req : Nat) : (spWrite s c off bs req).eccView c = s.eccView c := by
  unfold spWrite
  extract_lets a
  split
  · exact State.eccView_wrBytes ..
  · extract_lets part keep s1 s2
    calc (s2.wrKeep keep a bs).eccView c = s2.eccView c := State.eccView_wrKeep ..
      _ = s1.eccView c := foldl_fixes (State.eccView · c) (fun t (p : Nat × Nat) => setBad t p.1 0) (fun _ _ => rfl) _ s1
      _ = s.eccView c := foldl_fixes (State.eccView · c) _ (fun t p => eccEvent_eccView t c req p) _ s

theorem spWrite_entries (off : Nat) (bs : List Byte) (req : Nat) : ((spWrite s c off bs req).cx c).entries = (s.cx c).entries :=
  congrArg (fun v : CoreX × SMap (SMap Nat) => v.1.entries) (spWrite_eccView off bs req)

theorem spWrite_rings (off : Nat) (bs : List Byte) (req : Nat) : ((spWrite s c off bs req).cx c).rings = (s.cx c).rings :=
  congrArg (fun v : CoreX × SMap (SMap Nat) => v.1.rings) (spWrite_eccView off bs req)

theorem recHeader_length (h len rseq pseq : Nat) (pad : Bool) : (recHeader h len rseq pseq pad).length = 64 := by
  simp [recHeader, leBytes_length]

theorem sendCredit_regs (q : Nat) : (sendCredit s c q).regs = s.regs := by
  unfold sendCredit
  extract_lets x w s1
  split
  · rfl
  · split <;> rfl

theorem addCredit_regs (q e l : Nat) : (addCredit s c q e l).regs = s.regs := by
  unfold addCredit
  extract_lets x w w' s1
  split
  · exact sendCredit_regs q
  · rfl

/-- Freeing lines moves the free pointer, and no other register. -/
theorem freeLines_sameRegs (q : Nat) : SameRegsBut [Reg.CQ_Q_FREEPTR.id] s (freeLines s c q) := by
  unfold freeLines
  extract_lets u x n l r s1
  split
  · exact .refl
  · exact .trans (.trans (.of_regs rfl) (.wr (List.mem_singleton_self _))) (.of_regs (addCredit_regs ..))

/-- R353: after a release POPPED counts the records that are popped and not released. -/
theorem ringRelease_popped (q n : Nat) : (ringRelease s c q n).rd Reg.CQ_Q_POPPED (coreU c) q =
    poppedOf (relRecs n (smGet [] (s.cx c).rings q)).1 % 2 ^ 8 := by
  unfold ringRelease
  extract_lets u x r s1
  have h1 : s1.rd Reg.CQ_Q_POPPED u q = poppedOf r.1 % 2 ^ 8 := State.rd_wr_same ..
  rw [freeLines_sameRegs q Reg.CQ_Q_POPPED (by decide)]
  split
  · exact h1
  · exact (State.lg_rd ..).trans h1

section
variable (q : Nat) (e : QEnt)

theorem pushEntry_entries : smGet [] ((pushEntry s c q e).cx c).entries q = smGet [] (s.cx c).entries q ++ [e] := by
  simp only [pushEntry, State.bump_cx, State.wr_cx, State.cx_setCx_same, smGet_smSet_same]

theorem pushEntry_rings : ((pushEntry s c q e).cx c).rings = (s.cx c).rings := by
  simp only [pushEntry, State.bump_cx, State.wr_cx, State.cx_setCx_same]

theorem pushEntry_out : (pushEntry s c q e).out = s.out := by
  simp only [pushEntry, State.bump_out, State.wr_out, State.setCx_out]

/-- R365: an entry that is pushed is counted. -/
theorem pushEntry_count : (pushEntry s c q e).rd Reg.CQ_RECV_COUNT (coreU c) =
    satAdd 32 (s.rd Reg.CQ_RECV_COUNT (coreU c)) 1 % 2 ^ 32 := by
  simp (disch := decide) only [pushEntry, State.bump, State.rd_wr_same, State.rd_wr_ne, State.setCx_rd]
  rfl

end

end Sys2Proof.Machine
end

section
/-! SUPPORT. What a queue message does at the queue its handle names (R342, R354, R359). -/

namespace Sys2Proof.Machine

variable {s : State} {c : CoreId} {h : Word}

/-- A handle names a queue of the core in a state, in its present generation. -/
structure NamesQueue (s : State) (c : CoreId) (h : Word) (st : Nat) : Prop where
  core : handleCore h.toNat = c
  state : s.rd Reg.CQ_Q_STATE (coreU c) (handleIdx h.toNat) = st
  gen : handleGen h.toNat = s.rd Reg.CQ_Q_GEN (coreU c) (handleIdx h.toNat)

/-- The queue of a handle holds as many entries as its depth. -/
abbrev QueueFull (s : State) (c : CoreId) (q : Nat) : Prop :=
  depthOf (s.rd Reg.CQ_Q_DEPTH (coreU c) q) ≤ (smGet [] (s.cx c).entries q).length

/-- The byte offset of a line of a ring (R347). -/
abbrev ringOff (s : State) (c : CoreId) (q line : Nat) : Nat := 4096 * s.rd Reg.CQ_Q_RBASE (coreU c) q + 64 * line

/-- Lines of a ring are written at their place. -/
abbrev landLines (s : State) (c : CoreId) (q line : Nat) (data : List Byte) : State := spWrite s c (ringOff s c q line) data rqQm

/-- A ring takes note of a record or of a pad. -/
def ringNote (s : State) (c : CoreId) (q : Nat) (r : RingRec) : State :=
  s.setCx c { s.cx c with rings := smSet [] (s.cx c).rings q (smGet [] (s.cx c).rings q ++ [r]) }

theorem ringNote_rings (q : Nat) (r : RingRec) :
    smGet [] ((ringNote s c q r).cx c).rings q = smGet [] (s.cx c).rings q ++ [r] := by
  rw [ringNote, State.cx_setCx_same, smGet_smSet_same]

theorem ringNote_entries (q : Nat) (r : RingRec) : ((ringNote s c q r).cx c).entries = (s.cx c).entries := by
  rw [ringNote, State.cx_setCx_same]

theorem landMsg_gone (m : QBody) (hg : s.rd Reg.CQ_Q_STATE (coreU c) (handleIdx h.toNat) = 0 ∨
    handleGen h.toNat ≠ s.rd Reg.CQ_Q_GEN (coreU c) (handleIdx h.toNat)) :
    landMsg s c ⟨h, m⟩ = s.bump Reg.CQ_DROP_COUNT (coreU c) :=
  if_pos (.inr (hg.imp_right .inr))

section
variable {a b d e : Word} {p : BitVec 16} (hn : NamesQueue s c h 1)
include hn

theorem landMsg_flushed (hp : (smGet [] (s.cx c).dropSet (handleIdx h.toNat)).contains p.toNat = true) :
    landMsg s c ⟨h, .entry a b d e p⟩ = addCredit (s.bump Reg.CQ_DISCARD_COUNT (coreU c)) c (handleIdx h.toNat) 1 0 := by
  simp [-List.contains_eq_mem, landMsg, hn.core, hn.state, hn.gen, hp]

theorem landMsg_pushed (hp : (smGet [] (s.cx c).dropSet (handleIdx h.toNat)).contains p.toNat = false)
    (hf : ¬ QueueFull s c (handleIdx h.toNat)) : landMsg s c ⟨h, .entry a b d e p⟩ =
      pushEntry s c (handleIdx h.toNat) ⟨a.toNat, b.toNat, d.toNat, e.toNat, p.toNat⟩ := by
  simp [-List.contains_eq_mem, landMsg, hn.core, hn.state, hn.gen, hp, hf]

theorem landMsg_overrun (hp : (smGet [] (s.cx c).dropSet (handleIdx h.toNat)).contains p.toNat = false)
    (hf : QueueFull s c (handleIdx h.toNat)) : landMsg s c ⟨h, .entry a b d e p⟩ =
      (s.bump Reg.CQ_DROP_COUNT (coreU c)).lg LogKind.qOverrun (coreU c) [handleIdx h.toNat] := by
  simp [-List.contains_eq_mem, landMsg, hn.core, hn.state, hn.gen, hp, hf]

end

section
variable (hn : NamesQueue s c h 2)
include hn

theorem landMsg_lines (line : Nat) (data : List Byte) :
    landMsg s c ⟨h, .ring line data none⟩ = landLines s c (handleIdx h.toNat) line data := by
  simp [landMsg, hn.core, hn.state, hn.gen, landLines, ringOff]

theorem landMsg_record (line : Nat) (data : List Byte) {r : RecHdr}
    (hp : (smGet [] (s.cx c).dropSet (handleIdx h.toNat)).contains r.pseq = false) (hf : ¬ QueueFull s c (handleIdx h.toNat)) :
    landMsg s c ⟨h, .ring line data (some r)⟩ =
      pushEntry (ringNote (landLines s c (handleIdx h.toNat) line data) c (handleIdx h.toNat)
          ⟨r.line, r.lines, false, false, false, r.pseq, r.rseq⟩) c (handleIdx h.toNat)
        ⟨ringOff s c (handleIdx h.toNat) (r.line + 1), r.len, r.rseq, r.lines, r.pseq⟩ := by
  simp [-List.contains_eq_mem, landMsg, hn.core, hn.state, hn.gen, hp, hf, ringNote, landLines, ringOff]

theorem landMsg_pad (line lines : Nat) (p : BitVec 16) : landMsg s c ⟨h, .pad line lines p⟩ =
    ringNote (landLines s c (handleIdx h.toNat) line (recHeader h.toNat 0 lines p.toNat true)) c (handleIdx h.toNat)
      ⟨line, lines, true, false, false, p.toNat, 0⟩ := by
  simp [landMsg, hn.core, hn.state, hn.gen, ringNote, landLines, ringOff]

end

end Sys2Proof.Machine
end

section
/-! SUPPORT. Packets of queues at their core (R342, R345, R359): at one that takes them, at one that is gated, on a die without clock. -/

namespace Sys2Proof.Machine

variable {s : State} {c : CoreId} {h : Word}

/-- R65: on a die without its clock no packet arrives. -/
theorem toCore_of_stopped (hs : s.rb Reg.BT_CLKSTAT_STOPPED c.die.val = true) (src : NodeId) (p : Packet) (k : State → State) :
    toCore s c src p k = s :=
  if_pos hs

/-- R520: a gated core holds the packet and wakes. -/
theorem toCore_of_gated (hs : s.rb Reg.BT_CLKSTAT_STOPPED c.die.val = false) (hg : 3 ≤ cstateOf s c) (src : NodeId) (p : Packet)
    (k : State → State) : toCore s c src p k = startWakes { s with ejected := smSet [] s.ejected (coreU c) (smGet []
      s.ejected (coreU c) ++ [(nodeNum src, p)]) } c.die [c] false := by
  rw [toCore, hs, if_neg Bool.false_ne_true, if_neg (Nat.not_lt.mpr hg)]

theorem exec_qmsg (ht : Takes c s) (m : QMsg) : exec (.qmsg c m) s = .next (landMsg s c m) :=
  congrArg Host.Outcome.next (toCore_of_takes ht ..)

theorem exec_flush (ht : Takes c s) : exec (.flush c h) s = .next (takeFlush c h.toNat s) :=
  congrArg Host.Outcome.next (toCore_of_takes ht ..)

theorem exec_qcredit (ht : Takes c s) (n m : Nat) : exec (.qcredit (.core c) h n m) s = .next (takeCredit c h.toNat n m s) :=
  congrArg Host.Outcome.next (toCore_of_takes ht ..)

/-- The gather of a core still has its flush before it (R359). -/
abbrev flushAhead (s : State) (c : CoreId) : Bool := (gatherOf s c).any fun g => (s.gx g).toFlush.contains c.lc.val

/-- R359: after the core's flush a marker ends the discarding at its queue. -/
theorem takeFlush_done (ha : flushAhead s c = false) (m : Nat) : takeFlush c m s =
    s.setCx c { s.cx c with dropSet := smSet [] (s.cx c).dropSet (handleIdx m) [] } := by
  unfold takeFlush
  cases hg : gatherOf s c with
  | none => rfl
  | some g =>
    rw [flushAhead, hg] at ha
    exact if_neg (Bool.eq_false_iff.mp ha)

/-- R359, log 29: before the core's flush a marker is remembered. -/
theorem takeFlush_early (ha : flushAhead s c = true) (m : Nat) : takeFlush c m s =
    s.setCx c { s.cx c with marked := handleIdx m :: (s.cx c).marked.filter (· ≠ handleIdx m) } := by
  unfold takeFlush
  cases hg : gatherOf s c with
  | none => simp [flushAhead, hg] at ha
  | some g =>
    rw [flushAhead, hg] at ha
    exact if_pos ha

theorem retrySend_of_not_waiting (hw : s.cst c ≠ stWaitSend) : retrySend s c = s := by
  simp [retrySend, hw]

theorem takeCredit_entry {m e : Nat} (he : findSend s c m = some e) (hw : s.cst c ≠ stWaitSend) (n k : Nat) :
    takeCredit c m n k s = (s.wr Reg.CQ_S_ECRED (coreU c) (s.rd Reg.CQ_S_ECRED (coreU c) e + n) e).wr Reg.CQ_S_LCRED (coreU c)
      (s.rd Reg.CQ_S_LCRED (coreU c) e + k) e := by
  rw [takeCredit, he]
  refine retrySend_of_not_waiting ?_
  rwa [State.cst, State.rd_wr_ne _ (by decide), State.rd_wr_ne _ (by decide)]

theorem takeCredit_none {m : Nat} (he : findSend s c m = none) (n k : Nat) : takeCredit c m n k s = s := by
  rw [takeCredit, he]

/-- The credit that waits on a channel. -/
abbrev waitingCredit (s : State) (c : CoreId) (q : Nat) : CredWait := smGet ⟨0, 0⟩ (s.cx c).cred q

theorem sendCredit_none {q : Nat} (hw : waitingCredit s c q = ⟨0, 0⟩) : sendCredit s c q = s := by
  rw [sendCredit]
  exact if_pos (by simp [hw])

/-- R345: the credit that waits leaves in one packet for the channel's sender. -/
theorem sendCredit_sends {q : Nat} {n : NodeId} (hw : waitingCredit s c q ≠ ⟨0, 0⟩)
    (hn : nodeOfNum (s.rd Reg.CQ_Q_SENDER (coreU c) q) = some n) : sendCredit s c q =
      (s.setCx c { s.cx c with cred := smSet ⟨0, 0⟩ (s.cx c).cred q ⟨0, 0⟩ }).send (.core c) n
        (.qcredit (handleOf s c q) (waitingCredit s c q).entries (waitingCredit s c q).lines) := by
  have hz : ¬((waitingCredit s c q).entries = 0 ∧ (waitingCredit s c q).lines = 0) := by
    rwa [ne_eq, CredWait.mk.injEq] at hw
  simp only [sendCredit, hz, hn, if_false]

/-- Nothing is tried again where no SEND or SENDR of a slot waits on the handle. -/
theorem hubRetry_none {m : Nat} (hr : (runsOf s fun r => (r.ent.opc == opSend || r.ent.opc == opSendr) && r.ent.arg == m) = []) :
    hubRetry s m = s := by
  rw [hubRetry, hr, List.foldl_nil]

end Sys2Proof.Machine
end

section
/-! O36: messages, markers and credits at queues (R342, R345, R353, R354, R359, R520, R65). -/

namespace Sys2Proof.Machine

variable {s : State} {c : CoreId} {h : Word}

/-- R342: an entry for a hardware queue with room is pushed and counted. -/
theorem exec_qmsg_pushed (ht : Takes c s) (hn : NamesQueue s c h 1) {a b d e : Word} {p : BitVec 16}
    (hp : (smGet [] (s.cx c).dropSet (handleIdx h.toNat)).contains p.toNat = false) (hf : ¬ QueueFull s c (handleIdx h.toNat)) :
    ∃ t, exec (.qmsg c ⟨h, .entry a b d e p⟩) s = .next t ∧ SameMemory s t ∧ t.out = s.out ∧
      smGet [] (t.cx c).entries (handleIdx h.toNat) = smGet [] (s.cx c).entries (handleIdx h.toNat) ++
        [⟨a.toNat, b.toNat, d.toNat, e.toNat, p.toNat⟩] ∧
      t.rd Reg.CQ_RECV_COUNT (coreU c) = satAdd 32 (s.rd Reg.CQ_RECV_COUNT (coreU c)) 1 % 2 ^ 32 :=
  ⟨_, (exec_qmsg ht _).trans (congrArg _ (landMsg_pushed hn hp hf)), sameMemory_of_mem (pushEntry_mem ..), pushEntry_out ..,
    pushEntry_entries .., pushEntry_count ..⟩

/-- R354: the descriptor line of a record is stored, its record noted and its entry pushed. -/
theorem exec_qmsg_record (ht : Takes c s) (hn : NamesQueue s c h 2) (line : Nat) (data : List Byte) {r : RecHdr}
    (hp : (smGet [] (s.cx c).dropSet (handleIdx h.toNat)).contains r.pseq = false) (hf : ¬ QueueFull s c (handleIdx h.toNat)) :
    ∃ t, exec (.qmsg c ⟨h, .ring line data (some r)⟩) s = .next t ∧
      SameOutside (spBase c + ringOff s c (handleIdx h.toNat) line) data.length s t ∧
      smGet [] (t.cx c).entries (handleIdx h.toNat) = smGet [] (s.cx c).entries (handleIdx h.toNat) ++
        [⟨ringOff s c (handleIdx h.toNat) (r.line + 1), r.len, r.rseq, r.lines, r.pseq⟩] ∧
      smGet [] (t.cx c).rings (handleIdx h.toNat) = smGet [] (s.cx c).rings (handleIdx h.toNat) ++
        [⟨r.line, r.lines, false, false, false, r.pseq, r.rseq⟩] := by
  refine ⟨_, (exec_qmsg ht _).trans (congrArg _ (landMsg_record hn line data hp hf)), fun a ha => ?_, ?_, ?_⟩
  · exact (sameMemory_of_mem (pushEntry_mem ..) a).trans (spWrite_rdByte s c _ data rqQm ha)
  · rw [pushEntry_entries, ringNote_entries, spWrite_entries]
  · rw [pushEntry_rings, ringNote_rings, spWrite_rings]

/-- R350, R351: the header of a pad is stored and its lines are noted. -/
theorem exec_qmsg_pad (ht : Takes c s) (hn : NamesQueue s c h 2) (line lines : Nat) (p : BitVec 16) :
    ∃ t, exec (.qmsg c ⟨h, .pad line lines p⟩) s = .next t ∧
      SameOutside (spBase c + ringOff s c (handleIdx h.toNat) line) 64 s t ∧
      smGet [] (t.cx c).rings (handleIdx h.toNat) = smGet [] (s.cx c).rings (handleIdx h.toNat) ++
        [⟨line, lines, true, false, false, p.toNat, 0⟩] := by
  refine ⟨_, (exec_qmsg ht _).trans (congrArg _ (landMsg_pad hn line lines p)), fun a ha => ?_, ?_⟩
  · exact spWrite_rdByte s c _ _ rqQm ((recHeader_length ..).symm ▸ ha)
  · rw [ringNote_rings, spWrite_rings]

theorem exec_flush_done (ht : Takes c s) (ha : flushAhead s c = false) : ∃ t, exec (.flush c h) s = .next t ∧
    smGet [] (t.cx c).dropSet (handleIdx h.toNat) = [] ∧ SameRegs s t ∧ SameMemory s t := by
  refine ⟨_, (exec_flush ht).trans (congrArg _ (takeFlush_done ha _)), ?_, sameRegs_of_regs rfl, sameMemory_of_mem rfl⟩
  rw [State.cx_setCx_same, smGet_smSet_same]

theorem exec_flush_early (ht : Takes c s) (ha : flushAhead s c = true) : ∃ t, exec (.flush c h) s = .next t ∧
    (t.cx c).marked.contains (handleIdx h.toNat) = true ∧ (t.cx c).dropSet = (s.cx c).dropSet ∧ SameRegs s t ∧
      SameMemory s t := by
  refine ⟨_, (exec_flush ht).trans (congrArg _ (takeFlush_early ha _)), ?_, ?_, sameRegs_of_regs rfl, sameMemory_of_mem rfl⟩
  · simp
  · rw [State.cx_setCx_same]

theorem exec_qcreditTimer (hs : s.rb Reg.BT_CLKSTAT_STOPPED c.die.val = false) (q : Fin 256) :
    exec (.qcreditTimer c q) s = .next (sendCredit s c q.val) :=
  congrArg Host.Outcome.next (if_neg (Bool.eq_false_iff.mp hs))

theorem exec_qcreditTimer_stopped (hs : s.rb Reg.BT_CLKSTAT_STOPPED c.die.val = true) (q : Fin 256) :
    exec (.qcreditTimer c q) s = .next s :=
  congrArg Host.Outcome.next (if_pos hs)

theorem exec_qcreditTimer_none {q : Fin 256} (hw : waitingCredit s c q.val = ⟨0, 0⟩) : exec (.qcreditTimer c q) s = .next s := by
  cases hs : s.rb Reg.BT_CLKSTAT_STOPPED c.die.val with
  | true => exact exec_qcreditTimer_stopped hs q
  | false => rw [exec_qcreditTimer hs, sendCredit_none hw]

theorem exec_qcreditTimer_sends (ht : Takes c s) {q : Fin 256} {n : NodeId} (hw : waitingCredit s c q.val ≠ ⟨0, 0⟩)
    (hn : nodeOfNum (s.rd Reg.CQ_Q_SENDER (coreU c) q.val) = some n) : ∃ t, exec (.qcreditTimer c q) s = .next t ∧
      t.out = s.out ++ [.packet (.core c) n (.qcredit (handleOf s c q.val) (waitingCredit s c q.val).entries
        (waitingCredit s c q.val).lines)] ∧
      waitingCredit t c q.val = ⟨0, 0⟩ ∧ SameMemory s t ∧ SameRegs s t := by
  refine ⟨_, (exec_qcreditTimer ht.1 q).trans (congrArg _ (sendCredit_sends hw hn)), rfl, ?_, sameMemory_of_mem rfl,
    sameRegs_of_regs rfl⟩
  rw [waitingCredit, State.send_cx, State.cx_setCx_same, smGet_smSet_same]

theorem exec_ringRelease_ring {q : Fin 256} (hq : s.rd Reg.CQ_Q_STATE (coreU c) q.val = 2) (n : BitVec 8) :
    ∃ t, exec (.ringRelease c q n) s = .next t ∧ SameMemory s t ∧ t.rd Reg.CQ_Q_POPPED (coreU c) q.val =
      poppedOf (relRecs n.toNat (smGet [] (s.cx c).rings q.val)).1 % 2 ^ 8 :=
  ⟨_, congrArg Host.Outcome.next (if_pos hq), sameMemory_of_mem (ringRelease_mem ..), ringRelease_popped ..⟩

/-- R345: credit returned to the hub is added to the entry of its handle. -/
theorem exec_qcredit_hub {n m : Nat}
    (hr : (runsOf s fun r => (r.ent.opc == opSend || r.ent.opc == opSendr) && r.ent.arg == h.toNat) = []) :
    ∃ t, exec (.qcredit (.hub 5) h n m) s = .next t ∧ SameMemory s t ∧ SameRegs s t ∧ t.hubSend = s.hubSend.map fun e =>
      if e.handle = h.toNat then { e with ecred := e.ecred + n, lcred := e.lcred + m } else e :=
  ⟨_, congrArg Host.Outcome.next (hubRetry_none hr), sameMemory_of_mem rfl, sameRegs_of_regs rfl, rfl⟩

/-- Settles O36: a message by the queue of its handle, a marker by the core's flush, credit by the entry that waits for it. -/
theorem queueMessagesAndCredit : Obligations.QueueMessagesAndCredit := by
  unfold Obligations.QueueMessagesAndCredit
  intro c s
  refine ⟨fun ht => ⟨fun h a b d e p hc => ⟨fun h1 hg => ?_, fun m hm => ?_, fun h2 hg => ?_⟩, fun h ha => exec_flush_done ht ha,
      fun h ha => exec_flush_early ht ha, fun h n m => ⟨fun e he hw => ?_, fun he => ?_⟩,
      fun q hw n hn => exec_qcreditTimer_sends ht hw hn⟩,
    fun q hw => exec_qcreditTimer_none hw, fun q n hq => congrArg Host.Outcome.next (if_neg hq),
    fun q n hq => exec_ringRelease_ring hq n,
    fun hs => ⟨fun m => ?_, fun h => ?_, fun h n m => ?_, exec_qcreditTimer_stopped hs⟩,
    fun hs hg m => congrArg Host.Outcome.next (toCore_of_gated hs hg ..), fun h n m hr => exec_qcredit_hub hr⟩
  · have hn : NamesQueue s c h 1 := ⟨hc, h1, hg⟩
    refine ⟨fun hp => ?_, fun hp => ⟨fun hroom => ?_, fun hf => ?_⟩⟩
    · rw [exec_qmsg ht, landMsg_flushed hn hp]
    · exact exec_qmsg_pushed ht hn hp (Nat.not_le.mpr hroom)
    · rw [exec_qmsg ht, landMsg_overrun hn hp hf]
  · rw [exec_qmsg ht, landMsg_gone m hm]
  · have hn : NamesQueue s c h 2 := ⟨hc, h2, hg⟩
    refine ⟨fun line data => ?_, fun line data r hp hroom => ?_, fun line lines p => exec_qmsg_pad ht hn line lines p⟩
    · rw [exec_qmsg ht, landMsg_lines hn]
    · exact exec_qmsg_record ht hn line data hp (Nat.not_le.mpr hroom)
  · rw [exec_qcredit ht, takeCredit_entry he hw]
  · rw [exec_qcredit ht, takeCredit_none he]
  · exact congrArg Host.Outcome.next (toCore_of_stopped hs ..)
  · exact congrArg Host.Outcome.next (toCore_of_stopped hs ..)
  · exact congrArg Host.Outcome.next (toCore_of_stopped hs ..)

end Sys2Proof.Machine
end

section
/-! O44: link groups, lanes and widths, and retraining (R404, R405, R408, R410, R412, R414, R418, R421, R426). -/

namespace Sys2Proof.Machine

variable {s : State}

@[simp] theorem wrP_px (s : State) (p q : PortId) (F G : Field) (v j : Nat) : (wrP s p F G v j).px q = s.px q := by
  cases p <;> rfl

@[simp] theorem bumpP_px (s : State) (p q : PortId) (F G : Field) (n : Nat) : (bumpP s p F G n).px q = s.px q :=
  wrP_px ..

@[simp] theorem raisePort_px (s : State) (p q : PortId) (code : Nat) (lane : Option Nat) :
    (raisePort s p code lane).px q = s.px q := by
  cases p <;> rfl

/-- What a bad group leaves of its port: NAK is due, and each lane at fault counts once more (R404, R408). -/
theorem badGroup_px (s : State) (p : PortId) (l : List Nat) : (badGroup s p l).px p = { s.px p with
    nak := true, lane := { (s.px p).lane with
      count := l.foldl (fun m l => smSet 0 m l (smGet 0 m l + 1)) (s.px p).lane.count } } := by
  unfold badGroup
  extract_lets x y s1
  have hs : s1.px p = _ := (bumpP_px ..).trans (State.px_setPx_same ..)
  split
  · exact (raisePort_px ..).trans hs
  · refine foldl_keeps (fun t : State => t.px p = _) _ (fun t a h => ?_) l s1 hs
    exact (raisePort_px ..).trans h

theorem exec_linkGroupReceive_down {p : PortId} (h : portState s p ≠ lkUp) (k : List WireErr) (g : Option SpanGroup) :
    exec (.linkGroupReceive p k g) s = .next (repeatIdent s p) :=
  congrArg _ (if_pos h)

theorem exec_linkGroupReceive_up {p : PortId} (h : portState s p = lkUp) (k : List WireErr) (g : Option SpanGroup) :
    exec (.linkGroupReceive p k g) s = .next (endFallen (linkBeatAt s p k g) p) :=
  congrArg _ (if_neg (not_not_intro h))

theorem linkBeatAt_cane {p q : PortId} (h : peerPort p = some q) (k : List WireErr) (g : Option SpanGroup) :
    linkBeatAt s p k g = receiveCane s p q k := by
  unfold linkBeatAt
  rw [h]

/-- A port that is not up sends nothing (R405). -/
theorem formGroup_down {q : PortId} (h : portState s q ≠ lkUp) : formGroup s q = (s, none) := if_pos h

theorem receiveCane_none {p q : PortId} {t : State} (h : formGroup s q = (t, none)) (k : List WireErr) :
    receiveCane s p q k = t := by
  rw [receiveCane, h]

/-- A cane group that meets no bit error is good (R404). -/
theorem receiveCane_clean {p q : PortId} {x : State} {g : LGroup} {rpl : Bool} (h : formGroup s q = (x, some (g, rpl))) :
    receiveCane s p q [] =
      takeGroup (takeHeader (if rpl then x.setPx q { x.px q with nak := false }
        else applyChanges (x.setPx q { x.px q with nak := false }) p false g.gseq) p
          (((x.px q).expect + 4095) % 4096) (x.px q).nak) p (some q) rpl g := by
  rw [receiveCane, h]
  rfl

/-- What a span port makes of what the check of a group finds (R404, R408, R421). -/
def spanTaken (t : State) (m : Fin 8) : SpanFound → State
  | .good y ack nak rpl =>
    let again := nak && (t.px (.span m)).lastRpl == some ((ack + 1) % 4096) && (t.px (.span m)).resend.isNone
    let t1 := takeHeader (applyChanges t (.span m) false y.gseq) (.span m) ack nak
    takeGroup (if again then failedReplay t1 (.span m) else t1) (.span m) none rpl y
  | .bad l => badGroup t (.span m) l
  | .auth => authFails (badGroup t (.span m) []) (.span m)

theorem receiveSpan_eq (s : State) (m : Fin 8) (g : SpanGroup) : receiveSpan s m g =
    spanTaken (countFec (sendSpan s m) (.span m) g) m (checkSpan (countFec (sendSpan s m) (.span m) g) m g) := by
  unfold receiveSpan
  extract_lets p t
  show _ = spanTaken t m (checkSpan t m g)
  generalize checkSpan t m g = f
  cases f <;> rfl

/-- A good span group is taken; a NAK that names no group being replayed means that no replay has failed (R405, R408). -/
theorem spanTaken_good {t : State} {m : Fin 8} {y : LGroup} {ack : Nat} {nak rpl : Bool}
    (h : nak = false ∨ (t.px (.span m)).lastRpl ≠ some ((ack + 1) % 4096)) : spanTaken t m (.good y ack nak rpl) =
      takeGroup (takeHeader (applyChanges t (.span m) false y.gseq) (.span m) ack nak) (.span m) none rpl y := by
  have ha : (nak && (t.px (.span m)).lastRpl == some ((ack + 1) % 4096)) = false := by
    rcases h with rfl | h
    · rfl
    · rw [beq_false_of_ne h, Bool.and_false]
  simp only [spanTaken, ha, Bool.false_and, Bool.false_eq_true, if_false]

theorem exec_linkGroupReceive_span {m : Fin 8} (h : portState s (.span m) = lkUp) (k : List WireErr) (g : SpanGroup) :
    exec (.linkGroupReceive (.span m) k (some g)) s = .next (endFallen (spanTaken (countFec (sendSpan s m) (.span m) g) m
      (checkSpan (countFec (sendSpan s m) (.span m) g) m g)) (.span m)) := by
  rw [exec_linkGroupReceive_up h, ← receiveSpan_eq]
  rfl

theorem exec_linkGroupReceive_cane {p q : PortId} (h : portState s p = lkUp) (hq : peerPort p = some q) (k : List WireErr)
    (g : Option SpanGroup) : exec (.linkGroupReceive p k g) s = .next (endFallen (receiveCane s p q k) p) := by
  rw [exec_linkGroupReceive_up h, linkBeatAt_cane hq]

theorem exec_ackTimeout_down {p : PortId} (h : portState s p ≠ lkUp) : exec (.ackTimeout p) s = .next s := by
  show execAckTimeout p s = _
  unfold execAckTimeout
  extract_lets x
  split
  · rfl
  · rw [if_pos h]

/-- A lapsed timer asks for the oldest unacknowledged group (R405). -/
theorem exec_ackTimeout_resends {p : PortId} {g : LGroup} {r : List LGroup} (h : portState s p = lkUp)
    (hr : (s.px p).replay = g :: r) (hl : (s.px p).lastRpl ≠ some g.gseq) :
    exec (.ackTimeout p) s = .next (s.setPx p { s.px p with resend := some g.gseq }) := by
  show execAckTimeout p s = _
  simp only [execAckTimeout, hr, h, hl, ne_eq, not_true_eq_false, if_false, false_and]

theorem exec_retrain {r : Requester} (h : mayWrite .fw r .die 0 = true) (p : PortId) :
    exec (.retrain r p) s = .next (startRetrain s p) :=
  congrArg _ (if_pos h)

theorem startRetrain_down {p : PortId} (h : portState s p ≠ lkUp) : startRetrain s p = s := if_neg h

@[simp] theorem State.lx_setLx_same (s : State) (p : PortId) (x : LaneX) : (s.setLx p x).lx p = x :=
  congrArg PortX.lane (State.px_setPx_same ..)

/-- A change of lanes announced at the transmitter, with the LCMD that acknowledges it (R410). -/
theorem announced_effect (p : PortId) (c : LaneChange) (w : Nat) : ∃ t, sendLcmd (addChange s p c) p w = t ∧ SameRegs s t ∧
    SameMemory s t ∧ t.lx p = { s.lx p with changes := (s.lx p).changes ++ [c], lcmds := (s.lx p).lcmds ++ [w] } := by
  refine ⟨_, rfl, fun _ _ _ _ => rfl, fun _ => rfl, ?_⟩
  rw [sendLcmd, addChange, State.lx_setLx_same, State.lx_setLx_same]

/-- An acknowledged change at the receiver (R410). -/
theorem addChange_effect (p : PortId) (c : LaneChange) : SameRegs s (addChange s p c) ∧ SameMemory s (addChange s p c) ∧
    (addChange s p c).lx p = { s.lx p with changes := (s.lx p).changes ++ [c] } :=
  ⟨fun _ _ _ _ => rfl, fun _ => rfl, State.lx_setLx_same ..⟩

/-- Settles O44: each command's equation by its port's state, and the changes of lanes by what they leave of the lanes. -/
theorem linkGroupsAndRepair : Obligations.LinkGroupsAndRepair := by
  unfold Obligations.LinkGroupsAndRepair
  intro p s
  refine ⟨fun h => ⟨exec_linkGroupReceive_down h, exec_ackTimeout_down h, fun r hr => ?_⟩,
    fun h => ⟨?_, ?_, ?_, fun g r hr hl => exec_ackTimeout_resends h hr hl, fun r hr => exec_retrain hr p⟩,
    badGroup_px s p, fun lane spare a => ⟨?_, ?_⟩, fun n a => ⟨?_, ?_⟩⟩
  · rw [exec_retrain hr, startRetrain_down h]
  · intro q hq hd k g
    rw [exec_linkGroupReceive_cane h hq, receiveCane_none (formGroup_down hd)]
  · rintro q g rpl x x0 hq hf t rfl u rfl
    rw [exec_linkGroupReceive_cane h hq, receiveCane_clean hf]
  · rintro m rfl
    refine ⟨fun e => exec_linkGroupReceive_up h e none, ?_⟩
    rintro e g t rfl
    refine ⟨fun l hl => ?_, fun ha => ?_, fun y ack nak rpl hg hn => ?_⟩
    · rw [exec_linkGroupReceive_span h, hl]
      rfl
    · rw [exec_linkGroupReceive_span h, ha]
      rfl
    · rw [exec_linkGroupReceive_span h, hg, spanTaken_good hn]
  · obtain ⟨t, ht, hk⟩ := announced_effect (s := s) p ⟨a.toNat, true, none, lane.val, spare.val⟩
      (lcmdWord 3 lane.val spare.val 0 a.toNat)
    exact ⟨t, congrArg _ ht, hk⟩
  · obtain ⟨hr, hm, hx⟩ := addChange_effect (s := s.setLx p { s.lx p with
      steers := (s.lx p).steers.filter (· ≠ (lane.val, spare.val)) }) p ⟨a.toNat, false, none, lane.val, spare.val⟩
    exact ⟨_, rfl, hr, hm, hx.trans (by rw [State.lx_setLx_same])⟩
  · obtain ⟨t, ht, hk⟩ := announced_effect (s := s) p ⟨a.toNat, true, some n.val, 0, 0⟩ (lcmdWord 4 0 0 n.val a.toNat)
    exact ⟨t, congrArg _ ht, hk⟩
  · exact ⟨_, rfl, addChange_effect p _⟩

end Sys2Proof.Machine
end

section
/-! SUPPORT. Registers left as they were by updates of ports, and what a port that goes down and a die that stops leave (R65, R67, R412). -/

namespace Sys2Proof.Machine

variable {s : State}

theorem SameRegsBut.wrP {ids : List Nat} {F FH : Field} {v j : Nat} (p : PortId) (h : F.id ∈ ids) (hH : FH.id ∈ ids) :
    SameRegsBut ids s (wrP s p F FH v j) := by
  cases p
  · exact .wr h
  · exact .wr hH
  · exact .wr hH
  · exact .wr h

/-- A field that reads a value still does after any entry of it, or any other field, is set to that value. -/
theorem State.rd_wr_keeps {F G : Field} (hF : F = G ∨ F.id ≠ G.id) {u v i j w k l : Nat} (h : s.rd G w k l = v % 2 ^ G.w) :
    (s.wr F u v i j).rd G w k l = v % 2 ^ G.w := by
  obtain rfl | hF := hF
  · by_cases hk : w = u ∧ k = i ∧ l = j
    · obtain ⟨rfl, rfl, rfl⟩ := hk
      exact State.rd_wr_same ..
    · exact (State.rd_wr_inst s F hk v).trans h
  · exact (State.rd_wr_ne s hF ..).trans h

theorem portState_congr {ids : List Nat} {t : State} (h : SameRegsBut ids s t) (hd : Reg.LK_STAT_STATE.id ∉ ids)
    (hh : Reg.LKH_STAT_STATE.id ∉ ids) (p : PortId) : portState t p = portState s p := by
  cases p
  · exact h _ hd ..
  · exact h _ hh ..
  · exact h _ hh ..
  · exact h _ hd ..

/-- The end of a link after it went down. -/
def endDown (s : State) (q : PortId) : State :=
  let t := wrP (wrP (wrP s q Reg.LK_STAT_STATE Reg.LKH_STAT_STATE lkDown) q Reg.LK_STAT_TXW Reg.LKH_STAT_TXW 3) q
    Reg.LK_STAT_RXW Reg.LKH_STAT_RXW 3
  t.setPx q { t.px q with
    lane := { (t.px q).lane with changes := [], steers := [], lcmds := [], fallen := false }
    span := { (t.px q).span with keyed := false, nonce := none, partner := none, gnTx := 0, gnRx := 0, credits := [] } }

theorem portDown_eq (s : State) (p : PortId) : portDown s p = (linkEnds p).foldl endDown s := rfl

/-- The fields that a port which goes down writes. -/
def downIds : List Nat := [Reg.LK_STAT_STATE.id, Reg.LKH_STAT_STATE.id, Reg.LK_STAT_TXW.id, Reg.LKH_STAT_TXW.id,
  Reg.LK_STAT_RXW.id, Reg.LKH_STAT_RXW.id]

theorem portDown_sameRegs (s : State) (p : PortId) : SameRegsBut downIds s (portDown s p) := by
  refine .foldl (fun t q => ?_) (linkEnds p) s
  exact (((SameRegsBut.wrP q (by decide) (by decide)).trans (.wrP q (by decide) (by decide))).trans
    (.wrP q (by decide) (by decide))).trans (.of_regs rfl)

theorem portState_wrP_state (s : State) (p : PortId) (v : Nat) :
    portState (wrP s p Reg.LK_STAT_STATE Reg.LKH_STAT_STATE v) p = v % 8 := by
  cases p <;> exact State.rd_wr_same ..

/-- A port that is down stays down when a port goes down. -/
theorem portState_wrP_down {r : PortId} (h : portState s r = lkDown) (p : PortId) :
    portState (wrP s p Reg.LK_STAT_STATE Reg.LKH_STAT_STATE lkDown) r = lkDown := by
  cases p <;> cases r <;> exact State.rd_wr_keeps (v := lkDown) (by decide) h

/-- Of the ports' states, an end that goes down changes its own. -/
theorem portState_endDown (s : State) (p r : PortId) :
    portState (endDown s p) r = portState (wrP s p Reg.LK_STAT_STATE Reg.LKH_STAT_STATE lkDown) r := by
  refine portState_congr (ids := [Reg.LK_STAT_TXW.id, Reg.LKH_STAT_TXW.id, Reg.LK_STAT_RXW.id, Reg.LKH_STAT_RXW.id]) ?_
    (by decide) (by decide) r
  exact ((SameRegsBut.wrP p (by decide) (by decide)).trans (.wrP p (by decide) (by decide))).trans (.of_regs rfl)

theorem portState_portDown_down {r : PortId} (h : portState s r = lkDown) (p : PortId) :
    portState (portDown s p) r = lkDown :=
  foldl_keeps (fun t : State => portState t r = lkDown) endDown
    (fun t q ht => (portState_endDown t q r).trans (portState_wrP_down ht q)) (linkEnds p) s h

theorem portState_portDown_self (s : State) (p : PortId) : portState (portDown s p) p = lkDown := by
  have hs : portState (endDown s p) p = lkDown := (portState_endDown s p p).trans (portState_wrP_state ..)
  obtain ⟨l, hl⟩ : ∃ l, linkEnds p = p :: l := by
    unfold linkEnds
    split <;> exact ⟨_, rfl⟩
  rw [portDown_eq, hl, List.foldl_cons]
  exact foldl_keeps (fun t : State => portState t p = lkDown) endDown
    (fun t q ht => (portState_endDown t q p).trans (portState_wrP_down ht q)) l _ hs

/-- What the stop of a die does at one of its ports: the port goes down, and a neighbour receives no clock over it (R65). -/
def stopPort (d : DieId) (s : State) (p : Fin 9) : State :=
  match peerPort (.die d p) with
  | some (.die e m) =>
    let v := (portDown s (.die d p)).rd Reg.BT_CLKSTAT_PORT_CLK_OK e.val
    (portDown s (.die d p)).wr Reg.BT_CLKSTAT_PORT_CLK_OK e.val (v - (v &&& 2 ^ m.val))
  | _ => portDown s (.die d p)

theorem stopPort_sameRegs (s : State) (d : DieId) (p : Fin 9) :
    SameRegsBut [Reg.BT_CLKSTAT_PORT_CLK_OK.id] (portDown s (.die d p)) (stopPort d s p) := by
  unfold stopPort
  split
  · exact .wr (by decide)
  · exact .refl

/-- The clock status of a die that stops: it runs on the ring oscillator and forwards and receives no clock (R65, R67). -/
def clockStopped (s : State) (d : DieId) : State :=
  (((s.wb Reg.BT_CLKSTAT_STOPPED d.val true).wb Reg.BT_CLKSTAT_RINGOSC d.val true).wb Reg.BT_CLKSTAT_FWD_OK d.val false).wr
    Reg.BT_CLKSTAT_PORT_CLK_OK d.val 0

/-- The ports of a die that stops. -/
def portsStopped (s : State) (d : DieId) : State := (List.finRange 9).foldl (stopPort d) (clockStopped s d)

theorem stopDie_eq (s : State) (d : DieId) : stopDie s d = abandonStops ((portsStopped s d).setDx d
    { (portsStopped s d).dx d with token := none }) d := rfl

theorem abandonStops_sameRegs (s : State) (d : DieId) : SameRegsBut [Reg.LH_GACLK_STOPPING.id] s (abandonStops s d) := by
  refine .foldl (fun t g => ?_) (dieGathers d) s
  split
  · exact (SameRegsBut.of_regs rfl).trans (.wb (by decide))
  · exact .refl

/-- The fields that the stop of a die writes beside its own clock status. -/
def stopIds : List Nat := Reg.BT_CLKSTAT_PORT_CLK_OK.id :: Reg.LH_GACLK_STOPPING.id :: downIds

theorem stopDie_sameRegs (s : State) (d : DieId) : SameRegsBut stopIds (clockStopped s d) (stopDie s d) := by
  have hPorts : SameRegsBut stopIds (clockStopped s d) (portsStopped s d) := .foldl (fun t p =>
    ((portDown_sameRegs t (.die d p)).mono (by decide)).trans ((stopPort_sameRegs t d p).mono (by decide))) _ _
  have hDx : SameRegsBut stopIds (portsStopped s d) ((portsStopped s d).setDx d
    { (portsStopped s d).dx d with token := none }) := .of_regs (State.setDx_regs ..)
  rw [stopDie_eq]
  exact (hPorts.trans hDx).trans ((abandonStops_sameRegs _ d).mono (by decide))

theorem stopDie_stopped (s : State) (d : DieId) : (stopDie s d).rb Reg.BT_CLKSTAT_STOPPED d.val = true := by
  rw [(stopDie_sameRegs s d).rb (by decide)]
  simp (disch := decide) only [clockStopped, State.rb, State.wb, State.rd_wr_ne, State.rd_wr_same]
  decide

theorem stopDie_ringosc (s : State) (d : DieId) : (stopDie s d).rb Reg.BT_CLKSTAT_RINGOSC d.val = true := by
  rw [(stopDie_sameRegs s d).rb (by decide)]
  simp (disch := decide) only [clockStopped, State.rb, State.wb, State.rd_wr_ne, State.rd_wr_same]
  decide

/-- The fields that the stop of a die writes. -/
def stopAllIds : List Nat := Reg.BT_CLKSTAT_STOPPED.id :: Reg.BT_CLKSTAT_RINGOSC.id :: Reg.BT_CLKSTAT_FWD_OK.id :: stopIds

theorem clockStopped_sameRegs (s : State) (d : DieId) : SameRegsBut stopAllIds s (clockStopped s d) :=
  (((SameRegsBut.wb (by decide)).trans (.wb (by decide))).trans (.wb (by decide))).trans (.wr (by decide))

/-- The stop of a die writes its clock status, the states and widths of its ports, and no other field. -/
theorem stopDie_sameRegsBut (s : State) (d : DieId) : SameRegsBut stopAllIds s (stopDie s d) :=
  (clockStopped_sameRegs s d).trans ((stopDie_sameRegs s d).mono (by decide))

/-- R65: every port of a die that stops is down. -/
theorem portState_stopDie (s : State) (d : DieId) (p : Fin 9) : portState (stopDie s d) (.die d p) = lkDown := by
  have hStep : ∀ (t : State) (q : Fin 9) (r : PortId), portState (stopPort d t q) r = portState (portDown t (.die d q)) r :=
    fun t q r => portState_congr (stopPort_sameRegs t d q) (by decide) (by decide) r
  have hPorts : portState (portsStopped s d) (.die d p) = lkDown := by
    obtain ⟨l1, l2, hl⟩ := List.append_of_mem (List.mem_finRange p)
    rw [portsStopped, hl, List.foldl_append, List.foldl_cons]
    exact foldl_keeps (fun t : State => portState t (.die d p) = lkDown) (stopPort d)
      (fun t q ht => (hStep t q _).trans (portState_portDown_down ht _)) l2 _
      ((hStep _ p _).trans (portState_portDown_self ..))
  rw [stopDie_eq, portState_congr (abandonStops_sameRegs _ d) (by decide) (by decide),
    portState_congr (.of_regs (State.setDx_regs ..) : SameRegsBut [] (portsStopped s d) _) (by decide) (by decide), hPorts]

/-- The state in which a die has lost its clock and tells the hub (R65). -/
theorem exec_clockLost_stops {d : DieId} (h : s.rb Reg.BT_CLKSTAT_STOPPED d.val = false) : exec (.clockLost d) s =
    .next (sbSend ((stopDie s d).lg LogKind.clockLost (dieN d.val) []) (.die d 0) 3 0) := by
  show Host.Outcome.next (loseClock s d) = _
  rw [loseClock, h, if_neg Bool.false_ne_true]

end Sys2Proof.Machine
end

section
/-! PROOFS. Sideband messages, clocks that are lost or stopped, buffer slips and lane markers (R42, R55, R65, R67, R70, R415, R416, R423). -/

namespace Sys2Proof.Machine

variable {s : State} {d : DieId}

/-- What MARK does at the hub, once it is taken (R42, R70). -/
def markTaken (d : DieId) (t : State) : MarkMsg → State
  | .mclk n => t.setDx d { t.dx d with offset := some ((t.hclk / 16 : Nat) - (n.toNat : Int)) }
  | .strap code =>
    let t1 := t.wr Reg.BT_IDENT_SITE d.val code.toNat
    if code.toNat = d.val then t1.wb Reg.BT_IDENT_SITE_OK d.val true
    else orderStop ((((t1.wr Reg.FT_DIE_STATE 0 4 d.val).wb Reg.BT_IDENT_SITE_OK d.val false).wb Reg.BT_STAT_READY 0 false).lg
      LogKind.strapMismatch (dieN d.val) [code.toNat]) d

theorem exec_mark_taken {m : MarkMsg} {q : Fin 16} {k : BitVec 8} (hq : q.val = sbWant s (.hub d))
    (hk : crc8 40 (sbWord 7 (markPayload m) q.val) = k.toNat) :
    exec (.mark d m q k) s = .next (markTaken d (sbTaken s (.hub d) q.val) m) := by
  show execMark d m q k s = _
  rw [execMark, sbReceive_applies _ hk hq]
  cases m <;> rfl

/-- R70: MARK with a count gives the offset of the die's MCLK count. -/
theorem exec_mark_mclk {n : BitVec 31} {q : Fin 16} {k : BitVec 8} (hq : q.val = sbWant s (.hub d))
    (hk : crc8 40 (sbWord 7 (markPayload (.mclk n)) q.val) = k.toNat) : ∃ t, exec (.mark d (.mclk n) q k) s = .next t ∧
      (t.dx d).offset = some ((s.hclk / 16 : Nat) - (n.toNat : Int)) ∧ SameRegs s t ∧ SameMemory s t :=
  ⟨_, exec_mark_taken hq hk, congrArg DieX.offset (State.dx_setDx_same ..), fun _ _ _ _ => rfl, fun _ => rfl⟩

/-- R42: a strap that names the hub port which carries it confirms the die's site. -/
theorem exec_mark_strap {q : Fin 16} {k : BitVec 8} (hq : q.val = sbWant s (.hub d))
    (hk : crc8 40 (sbWord 7 (markPayload (.strap (BitVec.ofNat _ d.val))) q.val) = k.toNat) :
    ∃ t, exec (.mark d (.strap (BitVec.ofNat _ d.val)) q k) s = .next t ∧ t.rb Reg.BT_IDENT_SITE_OK d.val = true ∧
      t.rd Reg.BT_IDENT_SITE d.val = d.val ∧ SameMemory s t := by
  have hd : (BitVec.ofNat 3 d.val).toNat = d.val := by
    rw [BitVec.toNat_ofNat]
    omega
  have hx := exec_mark_taken (m := .strap (BitVec.ofNat _ d.val)) hq hk
  rw [markTaken, if_pos hd, hd] at hx
  refine ⟨_, hx, State.rb_wb_same _ _ _ _ _ _ (by decide), ?_, sameMemory_of_exec hx (execMark_mem ..)⟩
  rw [State.rd_wb_ne (by decide), State.rd_wr_same]
  show d.val % 8 = d.val
  omega

/-- A die that is told to stop, unless it has stopped before (R67). -/
def stopOnce (s : State) (d : DieId) : State := if s.rb Reg.BT_CLKSTAT_STOPPED d.val then s else stopDie s d

theorem stopOnce_stopped (s : State) (d : DieId) : (stopOnce s d).rb Reg.BT_CLKSTAT_STOPPED d.val = true := by
  unfold stopOnce
  split
  · assumption
  · exact stopDie_stopped s d

theorem stopOnce_sameRegs (s : State) (d : DieId) : SameRegsBut stopAllIds s (stopOnce s d) := by
  unfold stopOnce
  split
  · exact .refl
  · exact stopDie_sameRegsBut s d

/-- The state in which the hub has ordered a die to stop (R67). -/
def stopOrdered (s : State) (d : DieId) : State := (sbSend s (.hub d) 4 0).wb Reg.BT_CLKSTAT_ORDERED_STOP d.val true

theorem orderStop_eq (s : State) (d : DieId) : orderStop s d = (stopOnce (stopOrdered s d) d).wr Reg.HB_CLKSTAT_DIE_CLK_EN 0
    (s.rd Reg.HB_CLKSTAT_DIE_CLK_EN 0 - (s.rd Reg.HB_CLKSTAT_DIE_CLK_EN 0 &&& 2 ^ d.val)) := rfl

theorem stopOrdered_sameRegs (s : State) (d : DieId) :
    SameRegsBut [Reg.BT_CLKSTAT_ORDERED_STOP.id] s (stopOrdered s d) :=
  (SameRegsBut.of_regs (sbSend_regs ..)).trans (.wb (by decide))

/-- The fields that an ordered stop of a die writes. -/
def orderIds : List Nat := Reg.HB_CLKSTAT_DIE_CLK_EN.id :: Reg.BT_CLKSTAT_ORDERED_STOP.id :: stopAllIds

theorem orderStop_sameRegs (s : State) (d : DieId) : SameRegsBut orderIds s (orderStop s d) := by
  rw [orderStop_eq]
  exact (((stopOrdered_sameRegs s d).mono (by decide)).trans ((stopOnce_sameRegs _ d).mono (by decide))).trans (.wr (by decide))

theorem orderStop_stopped (s : State) (d : DieId) : (orderStop s d).rb Reg.BT_CLKSTAT_STOPPED d.val = true := by
  rw [orderStop_eq, State.rb_wr_ne _ (by decide), stopOnce_stopped]

theorem orderStop_ordered (s : State) (d : DieId) : (orderStop s d).rb Reg.BT_CLKSTAT_ORDERED_STOP d.val = true := by
  rw [orderStop_eq, State.rb_wr_ne _ (by decide), (stopOnce_sameRegs _ d).rb (by decide), stopOrdered,
    State.rb_wb_same _ _ _ _ _ _ (by decide)]

/-- The registers of a die whose strap does not name the hub port that carries it (R42). -/
def strapWrong (t : State) (d : DieId) (code : Nat) : State :=
  (((t.wr Reg.BT_IDENT_SITE d.val code).wr Reg.FT_DIE_STATE 0 4 d.val).wb Reg.BT_IDENT_SITE_OK d.val false).wb
    Reg.BT_STAT_READY 0 false

/-- R42: a wrong strap stops the die, as ordered, and holds it in reset. -/
theorem exec_mark_wrongStrap {q : Fin 16} {k : BitVec 8} (hq : q.val = sbWant s (.hub d)) {code : BitVec 3}
    (hc : code.toNat ≠ d.val) (hk : crc8 40 (sbWord 7 (markPayload (.strap code)) q.val) = k.toNat) :
    ∃ t, exec (.mark d (.strap code) q k) s = .next t ∧
      t.rd Reg.BT_IDENT_SITE d.val = code.toNat ∧ t.rb Reg.BT_IDENT_SITE_OK d.val = false ∧ t.rd Reg.FT_DIE_STATE 0 d.val = 4 ∧
      t.rb Reg.BT_CLKSTAT_STOPPED d.val = true ∧ t.rb Reg.BT_CLKSTAT_ORDERED_STOP d.val = true ∧ SameMemory s t := by
  have hx := exec_mark_taken (m := .strap code) hq hk
  rw [markTaken, if_neg hc] at hx
  have hRegs : SameRegsBut orderIds (strapWrong (sbTaken s (.hub d) q.val) d code.toNat) (orderStop
      ((strapWrong (sbTaken s (.hub d) q.val) d code.toNat).lg LogKind.strapMismatch (dieN d.val) [code.toNat]) d) :=
    (SameRegsBut.of_regs (State.lg_regs ..)).trans (orderStop_sameRegs _ d)
  refine ⟨_, hx, (hRegs _ (by decide) ..).trans ?_, (hRegs.rb (by decide) ..).trans ?_, (hRegs _ (by decide) ..).trans ?_,
    orderStop_stopped .., orderStop_ordered .., sameMemory_of_exec hx (execMark_mem ..)⟩
  · simp (disch := decide) only [strapWrong, State.wb, State.rd_wr_ne, State.rd_wr_same]
    exact Nat.mod_eq_of_lt code.isLt
  · simp (disch := decide) only [strapWrong, State.rb, State.wb, State.rd_wr_ne, State.rd_wr_same]
    decide
  · simp (disch := decide) only [strapWrong, State.wb, State.rd_wr_ne, State.rd_wr_same]
    decide

/-- R67: an ordered stop reaches a die: it stops, on its ring oscillator. -/
theorem exec_stop_stops {q : Fin 16} {k : BitVec 8} (hq : q.val = (s.sb (.die d 0)).expect)
    (hk : crc8 40 (sbWord 4 0 q.val) = k.toNat) : ∃ t, exec (.stop d q k) s = .next t ∧
      t.rb Reg.BT_CLKSTAT_STOPPED d.val = true ∧ t.rb Reg.BT_CLKSTAT_ORDERED_STOP d.val = true ∧
      t.rb Reg.BT_CLKSTAT_RINGOSC d.val = true ∧ SameMemory s t := by
  have hx : exec (.stop d q k) s =
      .next (stopDie ((sbTaken s (.die d 0) q.val).wb Reg.BT_CLKSTAT_ORDERED_STOP d.val true) d) := by
    show execStop d q k s = _
    rw [sbTaken, execStop, sbReceive_applies (p := .die d 0) _ hk hq]
  refine ⟨_, hx, stopDie_stopped .., ?_, stopDie_ringosc .., sameMemory_of_exec hx (execStop_mem ..)⟩
  rw [(stopDie_sameRegsBut _ d).rb (by decide), State.rb_wb_same _ _ _ _ _ _ (by decide)]

theorem sbSend_lg_regs (s : State) (p : PortId) (ty v : Nat) (k : LogKind) (n : Nat) (l : List Nat) :
    (sbSend (s.lg k n l) p ty v).regs = s.regs := rfl

/-- R65: a die that loses its clock stops, its ports drop, and it reports to the hub. -/
theorem exec_clockLost_effect (h : s.rb Reg.BT_CLKSTAT_STOPPED d.val = false) : ∃ t, exec (.clockLost d) s = .next t ∧
    t.rb Reg.BT_CLKSTAT_STOPPED d.val = true ∧ (∀ p : Fin 9, portState t (.die d p) = lkDown) ∧
    (t.sb (.die d 0)).queue.getLast? = some ⟨3, 0⟩ ∧ SameMemory s t := by
  have hx := exec_clockLost_stops h
  have hRegs : SameRegsBut [] (stopDie s d) (sbSend ((stopDie s d).lg LogKind.clockLost (dieN d.val) []) (.die d 0) 3 0) :=
    .of_regs (sbSend_lg_regs ..)
  refine ⟨_, hx, (hRegs.rb (by decide) ..).trans (stopDie_stopped s d), fun p => ?_, ?_,
    sameMemory_of_exec hx (execClockLost_mem s d)⟩
  · exact (portState_congr hRegs (by decide) (by decide) _).trans (portState_stopDie s d p)
  · rw [sbSend, State.sb_setSb_same, List.getLast?_concat]

/-- Ports have numbers of their own. -/
theorem portKey_inj {p q : PortId} (h : portKey p = portKey q) : p = q := by
  cases p <;> cases q <;> simp only [portKey] at h <;> simp only [PortId.die.injEq, PortId.hub.injEq, PortId.span.injEq,
    PortId.stack.injEq, reduceCtorEq, Fin.ext_iff] <;> omega

/-- The numbers of what is sent again begin at the one named (R416). -/
theorem exec_sbnak_good {p : PortId} {m : NakMsg} (hk : crc8 40 (sbWord 0xF 0 m.want.val) = m.crc.toNat) :
    let n := min (((s.sb p).next + 15 - m.want.val) % 16 + 1) (s.sb p).sent.length
    let l := (s.sb p).sent.drop ((s.sb p).sent.length - n)
    exec (.sbnak p m) s = .next (s.setSb p { s.sb p with
      again := ((List.range l.length).zip l).map fun q => (((s.sb p).next + 16 - n + q.1) % 16, q.2) }) :=
  congrArg _ (if_neg (not_not_intro hk))

/-- R416: a good SBNAK has the messages since the one it names sent again, at most those kept. -/
theorem exec_sbnak_resends {p : PortId} {m : NakMsg} (hk : crc8 40 (sbWord 0xF 0 m.want.val) = m.crc.toNat) :
    ∃ t, exec (.sbnak p m) s = .next t ∧ SameRegs s t ∧ SameMemory s t ∧ (∀ r, r ≠ p → t.px r = s.px r) ∧
      (t.sb p).queue = (s.sb p).queue ∧ (t.sb p).again.map (·.2) = (s.sb p).sent.drop ((s.sb p).sent.length -
        min (((s.sb p).next + 15 - m.want.val) % 16 + 1) (s.sb p).sent.length) := by
  refine ⟨_, exec_sbnak_good hk, fun _ _ _ _ => rfl, fun _ => rfl, fun r hr => ?_, ?_, ?_⟩
  · exact State.px_setPx_ne (fun h => hr (portKey_inj h)) _
  · rw [State.sb_setSb_same]
  · rw [State.sb_setSb_same, List.map_map]
    exact List.map_snd_zip (by rw [List.length_range])

theorem exec_sbnak_last {p : PortId} {m : NakMsg} (hk : crc8 40 (sbWord 0xF 0 m.want.val) = m.crc.toNat) {l : List SbMsg}
    {y : SbMsg} (hl : (s.sb p).sent = l ++ [y]) (hn : ((s.sb p).next + 16 - m.want.val) % 16 = 1) : exec (.sbnak p m) s =
      .next (s.setSb p { s.sb p with again := [(((s.sb p).next + 15) % 16, y)] }) := by
  have hOne : min (((s.sb p).next + 15 - m.want.val) % 16 + 1) (s.sb p).sent.length = 1 := by
    rw [hl, List.length_append, List.length_singleton]
    omega
  have hDrop : (s.sb p).sent.drop ((s.sb p).sent.length - 1) = [y] := by
    rw [hl, List.length_append, List.length_singleton, Nat.add_sub_cancel, List.drop_left]
  rw [exec_sbnak_good hk, hOne, hDrop]
  rfl

/-- R55: an on-die slip is kept for the next step boundary. -/
theorem exec_crossSlip_onDie (p : Pos) (k : Fin 8) : ∃ t, exec (.crossSlip (.onDie p k)) s = .next t ∧ SameRegs s t ∧
    SameMemory s t ∧ (t.dx p.die).slips = (16 * (10 * p.row.val + p.col.val) + (k.val + 1)) :: (s.dx p.die).slips :=
  ⟨_, rfl, fun _ _ _ _ => rfl, fun _ => rfl, congrArg DieX.slips (State.dx_setDx_same ..)⟩

theorem spx_of_px {t : State} {m : Fin 8} (h : t.px (.span m) = s.px (.span m)) : t.spx m = s.spx m :=
  congrArg PortX.span h

theorem announceWidth_spx (s : State) (m : Fin 8) : (announceWidth s (.span m)).spx m = s.spx m := by
  rw [announceWidth, sendLcmd, State.spx, State.setLx, State.px_setPx_same]
  rfl

/-- A port that goes down keeps the locks of its lanes. -/
theorem linkFault_lanes (s : State) (m : Fin 8) : ((linkFault s (.span m)).spx m).lanes = (s.spx m).lanes := by
  show ((endDown s (.span m)).spx m).lanes = _
  rw [endDown, State.spx, State.px_setPx_same, wrP_px, wrP_px, wrP_px]
  rfl

/-- The lock of a lane and its count after a marker that is good, or that is bad or missing (R423). -/
def laneAfter (st : Nat × Nat) (good : Bool) : Nat × Nat :=
  if st.1 = 0 then (if good then (if st.2 ≥ 1 then (1, 0) else (0, 1)) else (0, 0))
  else (if good then (1, 0) else if st.2 ≥ 2 then (0, 0) else (1, st.2 + 1))

/-- The state with a due marker of a lane taken into the lane's lock. -/
def markerTaken (s : State) (m l : Fin 8) (mark : Option (BitVec 80)) : State :=
  let x := s.spx m
  let good := mark.any fun v => laneMarkGood v.toNat
  s.setSpx m { x with
    lanes := smSet (0, 0) x.lanes l.val (laneAfter (smGet (0, 0) x.lanes l.val) good)
    marks := if good then smSet 0 x.marks l.val (mark.elim 0 fun v => bits v.toNat 32 16) else x.marks }

/-- The state once the marker is taken, with the port's usable lanes. -/
def markerCounted (s : State) (m l : Fin 8) (mark : Option (BitVec 80)) : State :=
  wrP (markerTaken s m l mark) (.span m) Reg.LK_STAT_GROUPS Reg.LKH_STAT_GROUPS (groupsNow (markerTaken s m l mark) (.span m))

/-- What a lane that loses its lock does to a port that is up: its width falls, or the link (R418). -/
def lockLost (s : State) (m l : Fin 8) : State :=
  let s3 := raisePort (s.lg LogKind.laneBad (portN (.span m)) [portKey (.span m), l.val]) (.span m) 0x05 (some l.val)
  let w := widthOf (.span m) (usableGroups s3 (.span m))
  if w = 3 then linkFault s3 (.span m)
  else if w = rdP s3 (.span m) Reg.LK_STAT_RXW Reg.LKH_STAT_RXW then s3
  else announceWidth s3 (.span m)

theorem exec_laneMarker (s : State) (m l : Fin 8) (mark : Option (BitVec 80)) : exec (.laneMarker m l mark) s =
    .next (if (smGet (0, 0) (s.spx m).lanes l.val).1 = 1 ∧ (laneAfter (smGet (0, 0) (s.spx m).lanes l.val)
        (mark.any fun v => laneMarkGood v.toNat)).1 = 0 ∧ portState s (.span m) = lkUp
      then lockLost (markerCounted s m l mark) m l else markerCounted s m l mark) := rfl

theorem lockLost_lanes (s : State) (m l : Fin 8) : ((lockLost s m l).spx m).lanes = (s.spx m).lanes := by
  unfold lockLost
  extract_lets s3 w
  split
  · exact linkFault_lanes ..
  · split
    · rfl
    · exact congrArg SpanX.lanes (announceWidth_spx ..)

/-- A marker changes the locks of a port's lanes in that of its lane alone. -/
theorem exec_laneMarker_lanes (s : State) (m l : Fin 8) (mark : Option (BitVec 80)) : ∃ t,
    exec (.laneMarker m l mark) s = .next t ∧ (t.spx m).lanes = ((markerTaken s m l mark).spx m).lanes := by
  refine ⟨_, exec_laneMarker s m l mark, ?_⟩
  split
  · exact lockLost_lanes ..
  · rfl

/-- R423: two good markers lock a lane, three bad or missing ones in a row lose it. -/
theorem exec_laneMarker_lane {m l : Fin 8} {k n : Nat} (h : smGet (0, 0) (s.spx m).lanes l.val = (k, n))
    (mark : Option (BitVec 80)) : ∃ t, exec (.laneMarker m l mark) s = .next t ∧ SameMemory s t ∧
      smGet (0, 0) (t.spx m).lanes l.val =
        (if k = 0 then (if mark.any (fun v => laneMarkGood v.toNat) then (if 1 ≤ n then (1, 0) else (0, 1)) else (0, 0))
          else if mark.any (fun v => laneMarkGood v.toNat) then (1, 0) else if 2 ≤ n then (0, 0) else (1, n + 1)) := by
  obtain ⟨t, hx, hl⟩ := exec_laneMarker_lanes s m l mark
  refine ⟨t, hx, sameMemory_of_exec hx (execLaneMarker_mem ..), ?_⟩
  rw [hl, markerTaken, State.spx_setSpx_same, smGet_smSet_same, h]
  rfl

/-- Settles O45: each message by its check and its effect, the lost clock, slips and markers by theirs. -/
theorem sidebandAndClocks : Obligations.SidebandAndClocks := by
  unfold Obligations.SidebandAndClocks
  intro d s
  refine ⟨?_, ?_, fun q k hq => ⟨fun m hk => exec_mark_mclk hq hk, fun hk => exec_mark_strap hq hk,
      fun code hc hk => exec_mark_wrongStrap hq hc hk⟩, fun m q k hk => congrArg _ (sbReceive_refuses _ _ hk), ?_,
    fun q k hq hk => exec_stop_stops hq hk,
    fun p m => ⟨fun hk => congrArg _ (if_pos hk), fun hk => ⟨exec_sbnak_resends hk, fun l y => exec_sbnak_last hk⟩⟩,
    fun h => congrArg _ (if_pos h), exec_clockLost_effect, ?_, fun p => rfl, fun m l mark k n h => exec_laneMarker_lane h mark⟩
  · rintro p i q n k hq u rfl
    have hw : q.val = sbWant s (.die d p) := hq
    exact ⟨fun hk => congrArg _ (sbReceive_applies _ hk hw), fun hk => congrArg _ (sbReceive_applies _ hk hw),
      fun hk => congrArg _ (sbReceive_applies _ hk hw)⟩
  · intro p i q n k
    exact ⟨fun hk => congrArg _ (sbReceive_refuses _ _ hk), fun hk => congrArg _ (sbReceive_refuses _ _ hk),
      fun hk => congrArg _ (sbReceive_refuses _ _ hk), fun (hw : q.val ≠ sbWant s (.die d p)) =>
        ⟨fun hk => congrArg _ (sbReceive_ignores _ _ hk hw), fun hk => congrArg _ (sbReceive_ignores _ _ hk hw),
          fun hk => congrArg _ (sbReceive_ignores _ _ hk hw)⟩⟩
  · rintro q k off hq hk u rfl
    have hw : q.val = sbWant s (.die d 0) := hq
    refine ⟨fun v t hr => congrArg _ ((sbReceive_applies _ hk hw).trans ?_),
      fun hr => congrArg _ ((sbReceive_applies _ hk hw).trans ?_)⟩
    · rw [hr]
      rfl
    · rw [hr]
      rfl
  · rintro p k rfl
    exact exec_crossSlip_onDie p k

end Sys2Proof.Machine
end

section
/-! O46: the weighing of events, reports, commands, scans, rotations and retries (R312, R529, R530, R531, R534, R535, R586). -/

namespace Sys2Proof.Machine

variable {s : State}

/-- R530: with a threshold of 2 or more, fewer than T - 1 stamps in the window make no stone. -/
theorem weigh_seed {t w now nclk : Nat} {x : FaultItem} (ht : 2 ≤ t)
    (hn : (x.stamps.filter fun a => decide (now - a ≤ w)).length + 1 < t) :
    (weigh t w now nclk false x).1 = false ∧ (weigh t w now nclk false x).2.2.last = now := by
  have h1 : ¬t ≤ 1 := by omega
  have h2 : ¬t - 1 ≤ (x.stamps.filter fun a => decide (now - a ≤ w)).length := by omega
  unfold weigh
  extract_lets st n full due y
  have hf : full = false := by simp only [full, st, decide_eq_false h1, decide_eq_false h2, Bool.or_self]
  rw [hf, Bool.false_and, if_neg Bool.false_ne_true]
  split <;> exact ⟨rfl, rfl⟩

/-- R531: T - 1 stamps in the window make a stone, once in one NCLK. -/
theorem weigh_stone {t w now nclk : Nat} {x : FaultItem}
    (hn : t ≤ (x.stamps.filter fun a => decide (now - a ≤ w)).length + 1) :
    (x.stoneAt ≠ some nclk → (weigh t w now nclk false x).1 = true ∧ (weigh t w now nclk false x).2.2.stamps = [] ∧
      (weigh t w now nclk false x).2.2.stoneAt = some nclk) ∧
    (x.stoneAt = some nclk → (weigh t w now nclk false x).1 = false) := by
  have h2 : t - 1 ≤ (x.stamps.filter fun a => decide (now - a ≤ w)).length := by omega
  unfold weigh
  extract_lets st n full due y
  have hf : full = true := by simp only [full, st, decide_eq_true h2, Bool.or_true, Bool.or_false]
  rw [hf, Bool.true_and]
  refine ⟨fun h => ?_, fun h => ?_⟩
  · rw [if_pos (bne_iff_ne.2 h)]
    exact ⟨rfl, rfl, rfl⟩
  · rw [if_neg (by rw [h]; simp)]
    split <;> rfl

/-- R534: a stone of class 6 flags its position. -/
theorem classAct_flags {e : FaultEvent} {p : Fin 8 × Fin 10} (hc : e.cls = 6) (hp : e.pos = some p) :
    (classAct s e).2.2.faults.flagged.contains (posNum (Fin.ofNat 4 e.unit : DieId).val p.1.val p.2.val) = true := by
  rw [classAct, hc, hp]
  simp

section Ctrl

variable {n : NodeId} (h : ∀ d, nodeDie n = some d → s.rb Reg.BT_CLKSTAT_STOPPED d.val = false)
include h

/-- R312: a command's target is on a die with clock, or on none. -/
theorem exec_ctrl_clocked : ¬((nodeDie n).any fun d => s.rb Reg.BT_CLKSTAT_STOPPED d.val) = true := by
  cases hn : nodeDie n with
  | none => exact Bool.false_ne_true
  | some d => rw [Option.any_some, h d hn]; decide

theorem exec_ctrl_ratio {c : CoreId} (hn : n = .core c) (ht : Takes c s) (g : Gather) :
    exec (.ctrl n (.ratio g)) s = .next (ratioDone s g c) := by
  have hc := exec_ctrl_clocked h
  subst hn
  exact congrArg _ ((if_neg hc).trans (toCore_of_takes ht ..))

theorem exec_ctrl_stop {c : CoreId} (ht : Takes c s) : exec (.ctrl n (.stop c)) s = .next (stopCore s c) :=
  congrArg _ ((if_neg (exec_ctrl_clocked h)).trans (toCore_of_takes ht ..))

theorem exec_ctrl_gather {g : Gather} (hg : gatherDefined s g = true) : exec (.ctrl n (.hold g)) s = .next (setHeld s g true) ∧
    exec (.ctrl n (.recalled g)) s = .next (forceRecall s g) :=
  ⟨congrArg _ ((if_neg (exec_ctrl_clocked h)).trans (if_pos hg)), congrArg _ ((if_neg (exec_ctrl_clocked h)).trans (if_pos hg))⟩

end Ctrl

theorem wakeSpares_onlyWakes (s : State) (d : DieId) (ps : List Nat) : OnlyWakes s (wakeSpares s d ps) :=
  .foldl (fun t n => requestUp_onlyWakes t d n _) _ _

/-- The state in which a scan of a quarantined position has begun, its row brought up to date (R541). -/
def scanBegun (s : State) (d r c : Nat) : State :=
  (((updRow (setPos s d r c psScanning) d r).wb Reg.FT_SCAN_BUSY d true).wr Reg.FT_SCAN_RESULT d 0).wr Reg.FT_SCAN_PATTERN d 0

theorem startScan_begins {d : DieId} (hb : s.rb Reg.FT_SCAN_BUSY d.val = false) (hc : s.rd Reg.FT_SCAN_COL d.val < 10)
    (hq : posState s d.val (s.rd Reg.FT_SCAN_ROW d.val) (s.rd Reg.FT_SCAN_COL d.val) = psQuarantine) :
    startScan s d = wakeSpares (scanBegun s d.val (s.rd Reg.FT_SCAN_ROW d.val) (s.rd Reg.FT_SCAN_COL d.val)) d
      [10 * s.rd Reg.FT_SCAN_ROW d.val + s.rd Reg.FT_SCAN_COL d.val] := by
  unfold startScan
  extract_lets r c s1
  rw [if_neg (by simp [hb, c, r, hq]; omega)]
  rfl

/-- The fields that a scan writes at its start, beside its position's state. -/
def scanIds : List Nat :=
  [Reg.FT_SCAN_BUSY.id, Reg.FT_SCAN_RESULT.id, Reg.FT_SCAN_PATTERN.id, Reg.LH_ISL_HDR.id, Reg.LH_ISL_WAIT.id]

theorem pstatF_notMem_scanIds (c : Nat) : (pstatF c).id ∉ scanIds := by
  unfold pstatF
  split <;> decide

/-- R541: a scan of a quarantined position begins. -/
theorem startScan_effect {d : DieId} (hb : s.rb Reg.FT_SCAN_BUSY d.val = false) (hc : s.rd Reg.FT_SCAN_COL d.val < 10)
    (hq : posState s d.val (s.rd Reg.FT_SCAN_ROW d.val) (s.rd Reg.FT_SCAN_COL d.val) = psQuarantine) :
    (startScan s d).rb Reg.FT_SCAN_BUSY d.val = true ∧ (startScan s d).rd Reg.FT_SCAN_RESULT d.val = 0 ∧
      posState (startScan s d) d.val (s.rd Reg.FT_SCAN_ROW d.val) (s.rd Reg.FT_SCAN_COL d.val) = psScanning := by
  rw [startScan_begins hb hc hq]
  generalize s.rd Reg.FT_SCAN_ROW d.val = r
  generalize s.rd Reg.FT_SCAN_COL d.val = c
  have hw : SameRegsBut powerUpIds (scanBegun s d.val r c) (wakeSpares (scanBegun s d.val r c) d [10 * r + c]) :=
    (wakeSpares_onlyWakes ..).1.1
  have hs : SameRegsBut scanIds (updRow (setPos s d.val r c psScanning) d.val r)
      (wakeSpares (scanBegun s d.val r c) d [10 * r + c]) :=
    (((SameRegsBut.wb (by decide)).trans (.wr (by decide))).trans (.wr (by decide))).trans (hw.mono (by decide))
  refine ⟨(hw.rb (by decide) ..).trans ?_, (hw _ (by decide) ..).trans ?_, (hs _ (pstatF_notMem_scanIds c) ..).trans ?_⟩
  · simp (disch := decide) only [scanBegun, State.rb, State.wb, State.rd_wr_ne, State.rd_wr_same]
    decide
  · simp (disch := decide) only [scanBegun, State.rd_wr_ne, State.rd_wr_same]
    decide
  · exact (updRow_posState ..).trans (posState_setPos_same ..)

theorem startScan_ignored {d : DieId} (hb : s.rb Reg.FT_SCAN_BUSY d.val = true) :
    ∃ l, startScan s d = s.lg LogKind.scanIgnored (dieN d.val) l :=
  ⟨_, if_pos (.inl hb)⟩

theorem exec_scanStart {r : Requester} {d : DieId} (h : mayWrite .punty r .die d.val = true) :
    exec (.scanStart r d) s = .next (startScan s d) :=
  congrArg _ (if_pos h)

theorem exec_rotation_recovering {d : DieId} (h : recovering s d = true) : exec (.rotation d) s = .next s :=
  congrArg _ (if_pos h)

theorem announce_keeps (s : State) (tr : Nat) : SameRegs s (announce s tr) ∧ SameMemory s (announce s tr) := by
  unfold announce
  split <;> exact ⟨fun _ _ _ _ => rfl, fun _ => rfl⟩

/-- R586: an event that is not acknowledged is sent again three times, then dropped. -/
theorem exec_pldmEventRetry_found {k : Fin 2} {e : PldmEvent} {n : Nat}
    (h : (s.manage.unacked.find? fun u => u.1 == k.val && u.2.1 == e) = some (k.val, e, n)) :
    ∃ t, exec (.pldmEventRetry k e) s = .next t ∧ SameRegs s t ∧ SameMemory s t ∧
      (3 ≤ n → t.manage.unacked = s.manage.unacked.erase (k.val, e, n)) ∧
      (n < 3 → (k.val, e, n + 1) ∈ t.manage.unacked) := by
  refine ⟨_, rfl, ?_⟩
  rw [h]
  obtain hn | hn := Nat.lt_or_ge n 3
  · obtain ⟨hr, hm⟩ := announce_keeps s k.val
    simp only [if_neg (Nat.not_le.2 hn)]
    refine ⟨hr, hm, fun h3 => absurd hn (Nat.not_lt.2 h3), fun _ => ?_⟩
    exact List.mem_map.2 ⟨_, List.mem_of_find?_eq_some h, if_pos rfl⟩
  · simp only [if_pos hn]
    exact ⟨fun _ _ _ _ => rfl, fun _ => rfl, fun _ => trivial, fun h3 => absurd h3 (Nat.not_lt.2 hn)⟩

/-- Settles O46: `weigh` by its branches, each command by its equation. -/
theorem faultJudgement : Obligations.FaultJudgement := by
  unfold Obligations.FaultJudgement
  refine ⟨fun t w now nclk x ht => ⟨weigh_seed ht, weigh_stone⟩, fun s => ⟨fun e => ⟨rfl, fun k => ?_, fun k hk => ?_⟩,
    fun e p => classAct_flags, fun p r => rfl, fun d r => rfl, fun d n => rfl, ?_, fun r d hr => ⟨fun hb hc hq => ?_, fun hb => ?_⟩,
    fun d => ⟨exec_rotation_recovering, fun p hr hp => ?_⟩, fun k e n => exec_pldmEventRetry_found⟩⟩
  · cases k <;> rfl
  · have h0 : (if e.code = 0x20 then 7 else 0) = 0 := if_neg hk
    cases k <;> exact congrArg (fun a => Host.Outcome.next (noteRec s e 3 a 0)) h0
  · intro n g p c h
    have hc := exec_ctrl_clocked h
    exact ⟨congrArg _ (if_neg hc), congrArg _ (if_neg hc), fun hn ht => exec_ctrl_ratio h hn ht g, exec_ctrl_stop h,
      congrArg _ (if_neg hc), exec_ctrl_gather h⟩
  · exact ⟨_, exec_scanStart hr, (startScan_effect hb hc hq).1, (startScan_effect hb hc hq).2.1, (startScan_effect hb hc hq).2.2,
      sameMemory_of_exec (exec_scanStart hr) (execScanStart_mem ..)⟩
  · obtain ⟨l, hl⟩ := startScan_ignored hb
    exact ⟨l, (exec_scanStart hr).trans (congrArg _ hl)⟩
  · show execRotation d s = _
    rw [execRotation, hr]
    simp only [hp]
    rfl

end Sys2Proof.Machine
end

section
/-! PROOFS. Requests of management transports, what the sensors read, and the common command codes (R581-R586). -/

namespace Sys2Proof.Machine

variable {s : State} {tr : Fin 2}

/-- A request that a transport serves. -/
theorem served2_up (h : transportUp s tr.val = true) (k : State → State) : served2 s tr k = k s := if_pos h

/-- A transport that does not serve answers no request. -/
theorem served2_down (h : transportUp s tr.val = false) (k : State → State) : served2 s tr k = s :=
  if_neg (Bool.eq_false_iff.1 h)

theorem i3c_up (h : transportUp s 0 = true) (k : State → State) : i3c s k = k s := if_pos h

/-- A command code whose value the spec leaves open is answered, with a value of its own, and changes nothing. -/
theorem i3cOpen_answers (h : transportUp s 0 = true) (n : Nat) : ∃ v, (i3cOpen s n).out = s.out ++ [.i3c [v]] ∧
    SameRegs s (i3cOpen s n) ∧ SameMemory s (i3cOpen s n) := by
  rw [i3cOpen, i3c_up h]
  exact ⟨_, rfl, fun _ _ _ _ => rfl, fun _ => rfl⟩

/-- What the sensors of the module read from, and what they have read. -/
def State.sensorView (s : State) : SMap Nat × SMap PowerX × ModX × SMap (Option Nat) :=
  (s.regs, s.power, s.chip, s.manage.readings)

theorem announce_sensorView (s : State) (n : Nat) : (announce s n).sensorView = s.sensorView := by
  unfold announce
  split <;> rfl

/-- Sending an event changes nothing that a sensor reads, and no reading. -/
theorem sendEvent_sensorView (s : State) (e : PldmEvent) : (sendEvent s e).sensorView = s.sensorView := by
  refine foldl_fixes State.sensorView _ (fun t n => ?_) _ s
  split
  · have h := announce_sensorView t n
    simp only [State.sensorView, Prod.mk.injEq] at h ⊢
    exact ⟨h.1, h.2.1, h.2.2.1, trivial⟩
  · rfl

/-- A sensor reads registers, power estimates and the input. -/
theorem sensorNow_congr {t : State} (hr : t.regs = s.regs) (hp : t.power = s.power) (hc : t.chip = s.chip) (n : Nat) :
    sensorNow t n = sensorNow s n := by
  have hpw : ∀ d, t.pw d = s.pw d := fun d => by rw [State.pw, State.pw, hp]
  have hst : ∀ p, portState t p = portState s p := fun p => by
    cases p <;> exact State.rd_congr hr ..
  simp only [sensorNow, State.rd_congr hr, hpw, hst, hc]

/-- The reading a sensor takes: its value where it is available. -/
def readingNow (s : State) (n : Nat) : Option Nat := (sensorNow s n).map Prod.fst

/-- A refresh of one sensor stores its reading, and leaves the other readings and what they are read from. -/
theorem refreshSensor_sensorView (s : State) (n : Nat) : (refreshSensor s n).sensorView =
    (s.regs, s.power, s.chip, smSet none s.manage.readings n (readingNow s n)) := by
  unfold refreshSensor readingNow
  extract_lets m
  cases sensorNow s n with
  | none => rfl
  | some p =>
    dsimp only
    split
    · rfl
    · exact sendEvent_sensorView ..

theorem readingNow_congr {t : State} (hr : t.regs = s.regs) (hp : t.power = s.power) (hc : t.chip = s.chip) (n : Nat) :
    readingNow t n = readingNow s n := by
  rw [readingNow, readingNow, sensorNow_congr hr hp hc]

/-- A sensor's stored reading, and the reading it would take. -/
def State.sensorAt (n : Nat) (s : State) : Option Nat × Option Nat := (smGet none s.manage.readings n, readingNow s n)

theorem refreshSensor_sensorAt (s : State) (n k : Nat) : (refreshSensor s n).sensorAt k =
    (if k = n then readingNow s n else smGet none s.manage.readings k, readingNow s k) := by
  have h := refreshSensor_sensorView s n
  simp only [State.sensorView, Prod.mk.injEq] at h
  obtain ⟨hr, hp, hc, hm⟩ := h
  rw [State.sensorAt, hm, readingNow_congr hr hp hc]
  by_cases hk : k = n
  · rw [hk, smGet_smSet_same, if_pos rfl]
  · rw [smGet_smSet_ne _ _ _ _ hk, if_neg hk]

/-- R585: a refresh stores the reading of every sensor. -/
theorem foldl_refreshSensor_reading {l : List Nat} (hl : l.Nodup) {n : Nat} (h : n ∈ l) :
    smGet none (l.foldl refreshSensor s).manage.readings n = readingNow s n := by
  obtain ⟨t, ht, hs⟩ := exists_foldl_eq_step (State.sensorAt n) (f := refreshSensor) (l := l) (m := n)
    (fun a _ hne t => by rw [refreshSensor_sensorAt, if_neg (Ne.symm hne), State.sensorAt]) hl h s
  rw [refreshSensor_sensorAt, if_pos rfl] at hs
  exact (congrArg Prod.fst hs).trans (congrArg Prod.snd ht)

theorem foldl_refreshSensor_regs (s : State) (l : List Nat) : (l.foldl refreshSensor s).regs = s.regs :=
  foldl_fixes State.regs _ (fun t n => congrArg Prod.fst (refreshSensor_sensorView t n)) l s

theorem exec_sensorRefresh (h : s.chip.valid = true) : exec .sensorRefresh s = .next (sensorIds.foldl refreshSensor s) := by
  show execSensorRefresh s = _
  rw [execSensorRefresh, if_pos h]

theorem sensorIds_nodup : sensorIds.Nodup := by decide

/-- R585: after a refresh each sensor reads what it is to read, and nothing else has changed. -/
theorem exec_sensorRefresh_readings (h : s.chip.valid = true) : ∃ t, exec .sensorRefresh s = .next t ∧ SameRegs s t ∧
    SameMemory s t ∧ ∀ n ∈ sensorIds, smGet none t.manage.readings n = readingNow s n :=
  have hx := exec_sensorRefresh h
  ⟨_, hx, sameRegs_of_regs (foldl_refreshSensor_regs s sensorIds), sameMemory_of_exec hx (execSensorRefresh_mem s),
    fun _ hn => foldl_refreshSensor_reading sensorIds_nodup hn⟩

/-- The power sensor of a die reads its average while the die is in use. -/
theorem readingNow_die (s : State) (d : DieId) : readingNow s (0x10 + d.val) =
    if s.rd Reg.FT_DIE_STATE 0 d.val = 4 then none else some (s.rd Reg.LH_STAT_AVG d.val) := by
  have h1 : 0x10 + d.val ≠ 1 ∧ 0x10 + d.val ≠ 2 ∧ 0x10 + d.val ≠ 3 ∧ 0x10 + d.val ≠ 4 ∧
      0x10 ≤ 0x10 + d.val ∧ 0x10 + d.val < 0x14 ∧ 0x10 + d.val - 0x10 = d.val := by omega
  obtain ⟨n1, n2, n3, n4, hl, hu, hd⟩ := h1
  rw [readingNow, sensorNow, if_neg n1, if_neg n2, if_neg n3, if_neg n4, if_pos ⟨hl, hu⟩, hd]
  split <;> rfl

/-- R583: the answer to a request for a sensor's reading. -/
theorem sensorReply_reads {n v : Nat} (h : n ∈ sensorIds) (hv : smGet none s.manage.readings n = some v) :
    sensorReply s n = .list [0, v] := by
  rw [sensorReply, List.contains_iff_mem.2 h, hv]
  rfl

theorem sensorReply_unavailable {n : Nat} (h : n ∈ sensorIds) (hv : smGet none s.manage.readings n = none) :
    sensorReply s n = .list [1] := by
  rw [sensorReply, List.contains_iff_mem.2 h, hv]
  rfl

theorem sensorReply_unknown {n : Nat} (h : n ∉ sensorIds) : sensorReply s n = .refused := by
  rw [sensorReply, if_pos (by simpa using h)]

end Sys2Proof.Machine
end

section
/-! O59: MCTP control, PLDM, vendor commands, sensors, I3C and DOE discovery (R467, R581-R585). -/

namespace Sys2Proof.Machine

variable {s : State} {tr : Fin 2}

/-- No request is answered on a transport that does not serve. -/
theorem exec_request_down (h : transportUp s tr.val = false) (b : BitVec 8) (n k : Nat) (m : PldmReq) (l : List Byte) (f : Bool) :
    ∀ c ∈ [Instr.setEndpointId tr b, .getEndpointId tr, .getMctpVersionSupport tr b, .getMessageTypeSupport tr,
      .getVendorDefinedMessageSupport tr n, .unsupportedMctpMessage tr b, .pldmMessage tr m, .getReport tr n, .warmReset tr f,
      .mctpInstallLicence tr l, .readFaultLog tr n k], exec c s = .next s := by
  have hd : ∀ g, Host.Outcome.next (φ := Fault) (ρ := Refusal) (served2 s tr g) = .next s := fun g =>
    congrArg _ (served2_down h g)
  simp only [List.forall_mem_cons, List.not_mem_nil, false_implies, implies_true, and_true]
  exact ⟨hd _, hd _, hd _, hd _, hd _, hd _, hd _, hd _, hd _, hd _, hd _⟩

theorem announce_manage (s : State) (n : Nat) : (announce s n).manage = s.manage := by
  unfold announce
  split <;> rfl

section Up

variable (h : transportUp s tr.val = true)
include h

theorem exec_setEndpointId (b : BitVec 8) : exec (.setEndpointId tr b) s = .next
    (if b.toNat = 0 ∨ b.toNat = 0xFF then mgmt s tr .refused
      else mgmt (s.wr (if tr = 0 then Reg.HB_MGMT_EID_I3C else Reg.HB_MGMT_EID_VDM) 0 b.toNat) tr .done) :=
  congrArg _ (served2_up h _)

theorem exec_unsupportedMctpMessage (b : BitVec 8) : exec (.unsupportedMctpMessage tr b) s = .next
    (if msgTypes.contains b.toNat then s else s.bump Reg.HB_MGMT_DROPS 0) :=
  congrArg _ (served2_up h _)

theorem exec_getMctpVersionSupport (b : BitVec 8) : exec (.getMctpVersionSupport tr b) s = .next
    (if msgTypes.contains b.toNat then { mgmt s tr (.value (Config.freeValue s.free % 2 ^ 32)) with free := s.free + 1 }
      else mgmt s tr .refused) :=
  congrArg _ (served2_up h _)

theorem exec_pldm_reading (n : Nat) : exec (.pldmMessage tr (.reading n)) s = .next (mgmt s tr (sensorReply s n)) :=
  congrArg _ (served2_up h _)

theorem exec_pldm_ack (e : PldmEvent) : exec (.pldmMessage tr (.ack e)) s = .next { s with manage := { s.manage with
    unacked := match s.manage.unacked.find? fun u => u.1 == tr.val && u.2.1 == e with
      | some u => s.manage.unacked.erase u
      | none => s.manage.unacked } } :=
  congrArg _ (served2_up h _)

theorem exec_mctpInstallLicence (l : List Byte) : exec (.mctpInstallLicence tr l) s = .next
    (mgmt (installLicence s l).1 tr (if (installLicence s l).2 then .done else .refused)) :=
  congrArg _ (served2_up h _)

theorem exec_readFaultLog (a n : Nat) : exec (.readFaultLog tr a n) s = .next (mgmt s tr
    (if 1 ≤ n ∧ n ≤ 12 then .records ((s.faults.log.filter fun r => decide (a ≤ r.id)).take n) else .refused)) :=
  congrArg _ (served2_up h _)

/-- R583: the receiver of a transport's events is the endpoint named. -/
theorem exec_pldm_setReceiver (e : Option Nat) : ∃ t, exec (.pldmMessage tr (.setReceiver e)) s = .next t ∧
    smGet none t.manage.recv tr.val = e ∧ SameRegs s t := by
  have hx : exec (.pldmMessage tr (.setReceiver e)) s = .next (mgmt { s with manage := { s.manage with
      recv := smSet none s.manage.recv tr.val e } } tr .done) := congrArg _ (served2_up h _)
  refine ⟨_, hx, ?_, (announce_keeps _ tr.val).1⟩
  rw [mgmt, State.emit_manage, announce_manage]
  exact smGet_smSet_same ..

/-- R583: the only unacknowledged event, once acknowledged, is sent no more. -/
theorem exec_pldm_ack_last {e : PldmEvent} (he : (tr.val, e, 0) ∈ s.manage.unacked) (hl : s.manage.unacked.length = 1) :
    ∃ t, exec (.pldmMessage tr (.ack e)) s = .next t ∧ t.manage.unacked = [] := by
  obtain ⟨u, hu⟩ := List.length_eq_one_iff.1 hl
  rw [hu, List.mem_singleton] at he
  refine ⟨_, exec_pldm_ack h e, ?_⟩
  simp [hu, ← he]

end Up

/-- A licence that is not 128 bytes long is not installed, and is logged (R577). -/
theorem installLicence_wrongLength {l : List Byte} (h : l.length ≠ 128) :
    installLicence s l = (s.lg LogKind.licenceIgnored hubN [licNum l 6 1, licNum l 7 1], false) :=
  if_pos (.inl h)

/-- The clauses of O59 about a transport that serves. -/
theorem exec_mctp_types (h : transportUp s tr.val = true) (b : BitVec 8) :
    (b.toNat ∉ msgTypes → exec (.unsupportedMctpMessage tr b) s = .next (s.bump Reg.HB_MGMT_DROPS 0) ∧
      exec (.getMctpVersionSupport tr b) s = .next (mgmt s tr .refused)) ∧
    (b.toNat ∈ msgTypes → exec (.unsupportedMctpMessage tr b) s = .next s ∧
      ∃ t v, exec (.getMctpVersionSupport tr b) s = .next t ∧ t.out = (announce s tr.val).out ++ [.mgmt tr.val (.value v)] ∧
        SameRegs s t) := by
  refine ⟨fun hb => ?_, fun hb => ?_⟩
  · have hc : ¬msgTypes.contains b.toNat = true := by simpa using hb
    exact ⟨(exec_unsupportedMctpMessage h b).trans (by rw [if_neg hc]),
      (exec_getMctpVersionSupport h b).trans (by rw [if_neg hc])⟩
  · have hc : msgTypes.contains b.toNat = true := List.contains_iff_mem.2 hb
    exact ⟨(exec_unsupportedMctpMessage h b).trans (congrArg _ (if_pos hc)), _, _,
      (exec_getMctpVersionSupport h b).trans (congrArg _ (if_pos hc)), rfl, (announce_keeps s tr.val).1⟩

/-- Settles O59: each request by its equation on a transport that serves, the sensors by what each of them reads. -/
theorem reportsMctpAndI3c : Obligations.ReportsMctpAndI3c := by
  unfold Obligations.ReportsMctpAndI3c
  intro tr s
  refine ⟨fun h b n k m l f => exec_request_down h b n k m l f, fun h => ?_, fun hv => ?_, fun hv => ?_, fun h => ?_,
    fun hl hc n => ?_, fun hl n => ?_⟩
  · refine ⟨fun b => ⟨fun h0 hF => ?_, fun hb => ?_, exec_mctp_types h b⟩, congrArg _ (served2_up h _),
      congrArg _ (served2_up h _), congrArg _ (served2_up h _), congrArg _ (served2_up h _), congrArg _ (served2_up h _),
      congrArg _ (served2_up h _), fun n hn => ⟨fun v hv => ?_, fun hv => ?_⟩, fun n hn => ?_,
      fun e => exec_pldm_setReceiver h e, fun e => exec_pldm_ack_last h,
      fun n hn => ?_, fun n hn => ?_, fun f => congrArg _ (served2_up h _), fun l => ⟨fun hl => ?_, fun hl => ?_⟩,
      fun a n h1 h12 => ?_, fun a n hn => ?_⟩
    · have hn : ¬(b.toNat = 0 ∨ b.toNat = 0xFF) := by
        rintro (hb | hb)
        · exact h0 (BitVec.eq_of_toNat_eq hb)
        · exact hF (BitVec.eq_of_toNat_eq hb)
      exact (exec_setEndpointId h b).trans (congrArg _ (if_neg hn))
    · refine (exec_setEndpointId h b).trans (congrArg _ (if_pos ?_))
      rcases hb with rfl | rfl
      · exact .inl rfl
      · exact .inr rfl
    · rw [exec_pldm_reading h, sensorReply_reads hn hv]; rfl
    · rw [exec_pldm_reading h, sensorReply_unavailable hn hv]; rfl
    · rw [exec_pldm_reading h, sensorReply_unknown hn]; rfl
    · exact (congrArg _ (served2_up h _)).trans (congrArg (fun r => Host.Outcome.next (mgmt s tr r)) (if_pos hn))
    · exact (congrArg _ (served2_up h _)).trans
        (congrArg (fun r => Host.Outcome.next (mgmt s tr r)) (if_neg (Nat.not_le.2 hn)))
    · rw [exec_mctpInstallLicence h, hl]; rfl
    · rw [exec_mctpInstallLicence h, installLicence_wrongLength hl]; rfl
    · rw [exec_readFaultLog h, if_pos ⟨h1, h12⟩]; rfl
    · rw [exec_readFaultLog h, if_neg (by omega)]; rfl
  · obtain ⟨t, hx, hr, hm, hs⟩ := exec_sensorRefresh_readings hv
    refine ⟨t, hx, hr, hm, hs 1 (by decide), hs 3 (by decide), fun d => ?_⟩
    have hd : 0x10 + d.val ∈ sensorIds := by
      revert d
      decide
    rw [hs _ hd, readingNow_die]
    exact ⟨fun h => if_pos h, fun h => if_neg h⟩
  · exact congrArg _ (if_neg (Bool.eq_false_iff.1 hv))
  · have ho : ∀ n, ∃ t v, Host.Outcome.next (φ := Fault) (ρ := Refusal) (i3cOpen s n) = .next t ∧
        t.out = s.out ++ [.i3c [v]] ∧ SameRegs s t ∧ SameMemory s t := fun n =>
      (i3cOpen_answers h n).elim fun v hv => ⟨_, v, rfl, hv⟩
    have he : ∀ b : Bool, exec (.enec b) s = .next { s with manage := { s.manage with ibi := s.manage.ibi || b } } := fun b =>
      congrArg _ (i3c_up h _)
    have hd : ∀ b : Bool, exec (.disec b) s = .next { s with manage := { s.manage with ibi := s.manage.ibi && !b } } := fun b =>
      congrArg _ (i3c_up h _)
    refine ⟨fun a => ⟨fun h0 => ?_, fun h0 => ?_⟩, congrArg _ (i3c_up h _), congrArg _ (i3c_up h _), ho 1, ho 1, ho 3, ho 2,
      ⟨_, he true, Bool.or_true _, fun _ _ _ _ => rfl⟩, ⟨_, hd true, Bool.and_false _, fun _ _ _ _ => rfl⟩, ?_, ?_,
      fun a => congrArg _ (i3c_up h _)⟩
    · exact (congrArg _ (i3c_up h _)).trans (congrArg _ (if_pos h0))
    · exact (congrArg _ (i3c_up h _)).trans (congrArg _ (if_neg h0))
    · rw [he, Bool.or_false]
    · rw [hd, Bool.not_false, Bool.and_true]
  · exact congrArg _ (if_pos (by rw [hl, hc]; rfl))
  · exact congrArg _ (if_neg (by rcases hl with hl | hl <;> simp [hl]))

end Sys2Proof.Machine
end

section
/-! SUPPORT. The bytes that the working copy of a layer is written to (R436, R451). -/

namespace Sys2Proof.Machine

variable {s t u : State} {lo n : Nat}

theorem SameOutside.refl : SameOutside lo n s s := fun _ _ => rfl

theorem SameOutside.trans (h : SameOutside lo n s t) (k : SameOutside lo n t u) : SameOutside lo n s u := fun a ha =>
  (k a ha).trans (h a ha)

theorem SameOutside.mono {lo' n' : Nat} (h : SameOutside lo n s t) (hl : lo' ≤ lo) (hn : lo + n ≤ lo' + n') :
    SameOutside lo' n' s t := fun a ha => h a (by omega)

theorem SameOutside.of_mem (h : t.mem = s.mem) : SameOutside lo n s t := fun a _ => sameMemory_of_mem h a

theorem SameOutside.wrBytes {a : Nat} {l : List Byte} (ha : lo ≤ a) (hl : a + l.length ≤ lo + n) :
    SameOutside lo n s (s.wrBytes a l) := fun m hm => State.rdByte_wrBytes l s a m (by omega)

theorem length_scaleBlock (fd om rule : Nat) (vs : List Val) : (scaleBlock fd om rule vs).2.1.length = vs.length := by
  unfold scaleBlock
  split
  · exact List.length_map ..
  · split <;> exact List.length_map ..

theorem length_chunks_le {α : Type} (n k : Nat) (l : List α) : (chunks n k l).length ≤ k := by
  induction k generalizing l with
  | zero => exact Nat.le_refl 0
  | succ k ih =>
    rw [chunks]
    split
    · exact Nat.zero_le _
    · exact Nat.succ_le_succ (ih _)

/-- The pieces of a list hold at most its elements. -/
theorem sum_length_chunks_le {α : Type} (n k : Nat) (l : List α) : ((chunks n k l).map List.length).sum ≤ l.length := by
  induction k generalizing l with
  | zero => exact Nat.zero_le _
  | succ k ih =>
    rw [chunks]
    split
    · exact Nat.zero_le _
    · have h := ih (l.drop n)
      simp only [List.map_cons, List.sum_cons, List.length_take, List.length_drop] at h ⊢
      omega

/-- A list of `m` elements has no more pieces of `n` than `m / n` rounded up. -/
theorem length_chunks_le_div {α : Type} {n : Nat} (hn : 0 < n) (k : Nat) (l : List α) :
    (chunks n k l).length ≤ (l.length + (n - 1)) / n := by
  induction k generalizing l with
  | zero => exact Nat.zero_le _
  | succ k ih =>
    rw [chunks]
    split
    · exact Nat.zero_le _
    · next h =>
      have hl : 0 < l.length := List.length_pos_iff.2 (by simpa using h)
      have h := ih (l.drop n)
      rw [List.length_drop] at h
      rw [List.length_cons]
      obtain hs | hs := Nat.lt_or_ge l.length n
      · have h0 : (l.length - n + (n - 1)) / n = 0 := Nat.div_eq_of_lt (by omega)
        have h1 : 1 ≤ (l.length + (n - 1)) / n := (Nat.one_le_div_iff hn).2 (by omega)
        omega
      · have h1 : l.length + (n - 1) = (l.length - n + (n - 1)) + n := by omega
        rw [h1, Nat.add_div_right _ hn]
        omega

theorem length_of_mem_chunks {α : Type} {n k : Nat} {l c : List α} (h : c ∈ chunks n k l) : c.length ≤ n := by
  induction k generalizing l with
  | zero => exact absurd h List.not_mem_nil
  | succ k ih =>
    rw [chunks] at h
    split at h
    · exact absurd h List.not_mem_nil
    · rcases List.mem_cons.1 h with rfl | h
      · exact List.length_take_le ..
      · exact ih h

/-- A tile row of 128 elements is a line of scales and two of elements (R436). -/
theorem copyTile_sameOutside (fd rule b a : Nat) {ws : List Nat} (h : ws.length ≤ 128) (hlo : lo ≤ a) (hn : a + 192 ≤ lo + n) :
    SameOutside lo n s (copyTile fd rule b s a ws) := by
  have hb := length_chunks_le b ws.length (ws.map v32)
  have he := sum_length_chunks_le b ws.length (ws.map v32)
  unfold copyTile
  extract_lets blocks s1
  refine SameOutside.trans (t := s1) (.wrBytes hlo ?_) (.wrBytes (by omega) ?_)
  · simp only [blocks, List.length_map]
    omega
  · have hf : (blocks.flatMap fun q => q.2.1).length = ((chunks b ws.length (ws.map v32)).map List.length).sum := by
      simp only [blocks, List.length_flatMap, List.map_map, Function.comp_def, length_scaleBlock]
    rw [List.length_map] at he
    rw [List.length_map, hf]
    omega

theorem State.wrBytes_regs (l : List Byte) : ∀ (s : State) (a : Nat), (s.wrBytes a l).regs = s.regs := by
  induction l with
  | nil => exact fun _ _ => rfl
  | cons b r ih => exact fun s a => ih (s.wrByte a b) (a + 1)

theorem copyTile_regs (s : State) (fd rule b a : Nat) (ws : List Nat) : (copyTile fd rule b s a ws).regs = s.regs := by
  unfold copyTile
  extract_lets blocks s1
  rw [State.wrBytes_regs, State.wrBytes_regs]

theorem copyLine_regs (s : State) (k l lc : Nat) (ws : List Nat) : (copyLine k l lc s ws).regs = s.regs := by
  unfold copyLine
  extract_lets a
  split
  · exact State.wrBytes_regs ..
  · rfl
  · exact foldl_fixes State.regs _ (fun t p => copyTile_regs t ..) _ s

theorem length_flatMap_leBytes (ws : List Nat) (f : Nat → Nat) : (ws.flatMap fun w => leBytes 2 (f w)).length = 2 * ws.length := by
  induction ws with
  | nil => rfl
  | cons w r ih =>
    rw [List.flatMap_cons, List.length_append, ih, List.length_cons]
    show 2 + 2 * r.length = _
    omega

/-- Row `lc` of a working copy is written within its own bytes (R435, R451). -/
theorem copyLine_sameOutside {k l lc : Nat} {ws : List Nat} (h : ws.length = layerK s k l) :
    SameOutside (stackBase k + cBase s k l + lc * copyRow s k l) (copyRow s k l) s (copyLine k l lc s ws) := by
  unfold copyLine copyRow
  extract_lets a
  split
  case h_1 h0 =>
    simp only [a, h0]
    refine .wrBytes (Nat.le_refl _) ?_
    rw [length_flatMap_leBytes, h]
  case h_2 => exact .refl
  case h_3 h0 h3 =>
    have hr : copyRow s k l = (layerK s k l + 127) / 128 * 192 := by
      unfold copyRow
      split
      · exact absurd ‹_› h0
      · exact absurd ‹_› h3
      · rfl
    refine List.foldlRecOn (motive := SameOutside _ _ s) _ _ .refl fun t ht p hp => ht.trans ?_
    have hl : p.1.length ≤ 128 := length_of_mem_chunks (List.fst_mem_of_mem_zipIdx hp)
    have hi : p.2 < (chunks 128 ws.length ws).length := List.snd_lt_of_mem_zipIdx hp
    have hc := length_chunks_le_div (n := 128) (by decide) ws.length ws
    rw [h] at hc hi
    simp only [a]
    refine copyTile_sameOutside _ _ _ _ hl (by omega) ?_
    omega

/-- The working copy of a layer is written within its region (R451, R454). -/
theorem copyLayer_sameOutside (s : State) (k l n : Nat) :
    SameOutside (stackBase k + cBase s k l) (n * copyRow s k l) s (copyLayer s k l n) := by
  unfold copyLayer
  split
  case isFalse => exact .refl
  refine (List.foldlRecOn (motive := fun t : State => t.regs = s.regs ∧
    SameOutside (stackBase k + cBase s k l) (n * copyRow s k l) s t) (List.range n) _ ⟨rfl, .refl⟩ ?_).2
  rintro t ⟨hr, ht⟩ lc hlc
  refine ⟨(copyLine_regs ..).trans hr, ht.trans ?_⟩
  have hcr : copyRow t k l = copyRow s k l := by simp only [copyRow, rdT, layerK, State.rd_congr hr]
  have hcb : cBase t k l = cBase s k l := by simp only [cBase, State.rd64, State.rd_congr hr]
  have hK : layerK t k l = layerK s k l := by simp only [layerK, rdT, State.rd_congr hr]
  have hLine := copyLine_sameOutside (s := t) (k := k) (l := l) (lc := lc) (ws := (List.range (layerK s k l)).map fun j =>
    readElem t (stackBase k + wBase s k l + (lc * layerK s k l + j) * 4) 4) (by rw [List.length_map, List.length_range, hK])
  rw [hcr, hcb] at hLine
  have hn : (lc + 1) * copyRow s k l ≤ n * copyRow s k l := Nat.mul_le_mul_right _ (List.mem_range.1 hlc)
  rw [Nat.add_mul, Nat.one_mul] at hn
  exact hLine.mono (by omega) (by omega)

end Sys2Proof.Machine
end

section
/-! PROOFS. Refresh, grants, passes, lost layers and the commands of a stack (R430, R431, R439, R443, R447, R454-R458). -/

namespace Sys2Proof.Machine

variable {s : State} {k : StackId}

/-- A change of a stack beside its registers changes that record alone. -/
theorem setTx_effect (s : State) (k : Nat) (x : StackX) :
    SameRegs s (s.setTx k x) ∧ SameMemory s (s.setTx k x) ∧ (s.setTx k x).tx k = x :=
  ⟨fun _ _ _ _ => rfl, fun _ => rfl, State.tx_setTx_same ..⟩

theorem exec_stack_notUp (h : rdT s k.val Reg.TS_STAT_STATE ≠ tsUp) (pc : Fin 24) (o : StackOffer) :
    exec (.refresh k pc) s = .next s ∧ exec (.stackGrant k pc o) s = .next s ∧ exec (.selfRefreshEntry k) s = .next s ∧
      exec (.stackScrub k) s = .next s ∧ exec (.stackZeroComplete k) s = .next s :=
  ⟨congrArg _ (if_neg h), congrArg _ (if_pos h), congrArg _ (if_neg h), congrArg _ (if_pos (.inl h)),
    congrArg _ (if_neg fun hz => h hz.2)⟩

theorem bumpT_tx (s : State) (k j : Nat) (F : Field) (n : Nat) : (bumpT s k F n).tx j = s.tx j := rfl

theorem stackWinner_nil (s : State) (k pc : Nat) : stackWinner s k pc [] = none := by
  have hNone : ∀ l : List Nat, l.find? (fun q => ([] : List Nat).contains q) = none := fun l =>
    List.find?_eq_none.2 fun _ _ => Bool.false_ne_true
  simp only [stackWinner, List.filter_nil, hNone]

/-- The only requester of a slot wins it, wherever the pointer stands. -/
theorem stackWinner_single (s : State) (k pc : Nat) : stackWinner s k pc [0] = some 0 := by
  unfold stackWinner
  extract_lets order aged
  have h0 : 0 ∈ order := List.mem_map.2 ⟨(4 - smGet 0 (s.tx k).ptr pc % 4) % 4, List.mem_range.2 (by omega), by omega⟩
  have hFind : order.find? (fun q => [0].contains q) = some 0 := by
    cases hq : order.find? (fun q => [0].contains q) with
    | none => exact absurd (List.find?_eq_none.1 hq 0 h0) (by decide)
    | some q => exact congrArg some (by simpa using List.find?_some hq)
  obtain ha | ha : aged = [0] ∨ aged = [] := by
    simp only [aged, List.filter_cons, List.filter_nil]
    split <;> simp
  · rw [ha, hFind]
  · simp only [ha, hFind, List.contains_nil, List.find?_eq_none.2 fun _ _ => Bool.false_ne_true]

/-- The lines of a scrub, one of every pseudo-channel (R457). -/
theorem foldl_scrubs_same {l : List Nat} (hl : l.Nodup) {p : Nat} (hp : p ∈ l) (v : Nat × Bool)
    (m : SMap (List (Nat × Bool))) : smGet [] (l.foldl (fun m p => smSet [] m p (smGet [] m p ++ [v])) m) p =
      smGet [] m p ++ [v] := by
  obtain ⟨c, hc, hs⟩ := exists_foldl_eq_step (fun m : SMap (List (Nat × Bool)) => smGet [] m p)
    (f := fun m p => smSet [] m p (smGet [] m p ++ [v])) (l := l) (m := p)
    (fun a _ hne m => smGet_smSet_ne _ _ _ _ (Ne.symm hne)) hl hp m
  rw [hs, smGet_smSet_same, hc]

/-- The state in which the scrubber has taken the next line of every pseudo-channel (R457). -/
def scrubTaken (s : State) (k : Nat) : State := s.setTx k { s.tx k with
  scrub := ((s.tx k).scrub + 1) % pcLines
  scrubs := (List.range 24).foldl (fun m p => smSet [] m p (smGet [] m p ++ [((s.tx k).scrub, false)])) (s.tx k).scrubs }

theorem scrubTaken_tx (s : State) (k : StackId) : ((scrubTaken s k.val).tx k.val).scrub = ((s.tx k.val).scrub + 1) % pcLines ∧
    ∀ pc : Fin 24, smGet [] ((scrubTaken s k.val).tx k.val).scrubs pc.val =
      smGet [] (s.tx k.val).scrubs pc.val ++ [((s.tx k.val).scrub, false)] := by
  rw [scrubTaken, State.tx_setTx_same]
  refine ⟨rfl, fun pc => ?_⟩
  dsimp only
  exact foldl_scrubs_same List.nodup_range (List.mem_range.2 pc.isLt) _ _

section Up

variable (h : rdT s k.val Reg.TS_STAT_STATE = tsUp)
include h

/-- R430: a refresh claims three slots of its pseudo-channel. -/
theorem exec_refresh_up (pc : Fin 24) : ∃ t, exec (.refresh k pc) s = .next t ∧
    smGet 0 (t.tx k.val).refresh pc.val = smGet 0 (s.tx k.val).refresh pc.val + 3 ∧ SameRegs s t ∧ SameMemory s t := by
  refine ⟨_, congrArg Host.Outcome.next (if_pos h), ?_, fun _ _ _ _ => rfl, fun _ => rfl⟩
  rw [State.tx_setTx_same, smGet_smSet_same]

/-- R430: a claimed slot goes to the refresh, whatever is offered. -/
theorem exec_stackGrant_refresh {pc : Fin 24} {o : StackOffer} (hr : smGet 0 (s.tx k.val).refresh pc.val ≠ 0) : ∃ t,
    exec (.stackGrant k pc o) s = .next t ∧
      smGet 0 (t.tx k.val).refresh pc.val + 1 = smGet 0 (s.tx k.val).refresh pc.val ∧ (t.tx k.val).cane = (s.tx k.val).cane ∧
      SameMemory s t := by
  refine ⟨_, congrArg Host.Outcome.next ((if_neg (not_not_intro h)).trans (if_pos hr)), ?_⟩
  split
  · exact ⟨by rw [bumpT_tx, State.tx_setTx_same, smGet_smSet_same]; omega, by rw [bumpT_tx, State.tx_setTx_same],
      fun _ => rfl⟩
  · exact ⟨by rw [State.tx_setTx_same, smGet_smSet_same]; omega, by rw [State.tx_setTx_same], fun _ => rfl⟩

/-- R439: a slot for which nothing is offered passes. -/
theorem exec_stackGrant_none {pc : Fin 24} {o : StackOffer} (hr : smGet 0 (s.tx k.val).refresh pc.val = 0)
    (ho : offered s k.val pc.val o = []) : exec (.stackGrant k pc o) s = .next s := by
  show execStackGrant k pc o s = _
  simp only [execStackGrant, h, hr, ho, stackWinner_nil, ne_eq, not_true_eq_false, if_false]

/-- The state in which one requester has been granted a slot of a pseudo-channel (R437). -/
def stackGranted (s : State) (k pc q : Nat) : State :=
  let s1 := setStackArb s k pc q ⟨0, false⟩
  s1.setTx k { s1.tx k with ptr := smSet 0 (s1.tx k).ptr pc ((q + 1) % 4) }

/-- R439: the only offer of a slot is granted, and its transfer served. -/
theorem exec_stackGrant_only {pc : Fin 24} {o : StackOffer} (hr : smGet 0 (s.tx k.val).refresh pc.val = 0)
    (ho : offered s k.val pc.val o = [0]) (hd : o.debug = false) (hl : o.debugLate = false) (hw : o.withdrawn = false) :
    exec (.stackGrant k pc o) s = .next (serve (stackGranted s k.val pc.val 0) k.val pc.val o 0) := by
  show execStackGrant k pc o s = _
  simp only [execStackGrant, h, hr, ho, hd, hl, hw, stackWinner_single, ne_eq, not_true_eq_false, if_false, Bool.false_eq_true]
  rfl

/-- R458: ZERO by firmware, once it is complete, has zeroed every byte of the stack and none elsewhere. -/
theorem exec_stackZeroComplete_zeroes (hz : rdT s k.val Reg.TS_STAT_ZEROING = 1) : ∃ t,
    exec (.stackZeroComplete k) s = .next t ∧ rdT t k.val Reg.TS_STAT_ZEROING = 0 ∧
      SameOutside (stackBase k.val) stackSize s t ∧
      ∀ a, stackBase k.val ≤ a → a < stackBase k.val + stackSize → t.rdByte a = 0 := by
  have hByte : ∀ a, (wrT (zeroStack s k.val) k.val Reg.TS_STAT_ZEROING 0).rdByte a =
      if a < stackBase k.val ∨ stackBase k.val + stackSize ≤ a then s.rdByte a else 0 :=
    State.rdByte_zeroRange s (stackBase k.val) (stackBase k.val + stackSize)
  refine ⟨_, congrArg Host.Outcome.next (if_pos ⟨hz, h⟩), State.rd_wr_same .., fun a ha => ?_, fun a hl hu => ?_⟩
  · rw [hByte, if_pos ha]
  · rw [hByte, if_neg (by omega)]

/-- R457: the scrubber takes the next line of every pseudo-channel. -/
theorem exec_stackScrub_takes (hi : rdT s k.val Reg.TS_SCRUB_INTV ≠ 0) : ∃ t, exec (.stackScrub k) s = .next t ∧
    SameMemory s t ∧ (t.tx k.val).scrub = ((s.tx k.val).scrub + 1) % pcLines ∧ ∀ pc : Fin 24,
      smGet [] (t.tx k.val).scrubs pc.val = smGet [] (s.tx k.val).scrubs pc.val ++ [((s.tx k.val).scrub, false)] := by
  have hx : exec (.stackScrub k) s = .next (if (s.tx k.val).scrub + 1 = pcLines
      then bumpT (scrubTaken s k.val) k.val Reg.TS_SCRUB_PASSES else scrubTaken s k.val) :=
    congrArg Host.Outcome.next (if_neg (by simp [h, hi]))
  refine ⟨_, hx, sameMemory_of_exec hx (execStackScrub_mem s k), ?_⟩
  rw [apply_ite (fun t : State => t.tx k.val), bumpT_tx, ite_self]
  exact scrubTaken_tx s k

/-- R431: self-refresh keeps the contents where no layer is busy. -/
theorem exec_selfRefreshEntry_idle (hl : ∀ l, l ∈ layersInUse s k.val → layerState s k.val l = lyIdle) : ∃ t,
    exec (.selfRefreshEntry k) s = .next t ∧ rdT t k.val Reg.TS_STAT_STATE = tsSelfRefresh ∧ SameMemory s t := by
  have hs : SameRegsBut [Reg.TS_STAT_STATE.id] s (wrT s k.val Reg.TS_STAT_STATE tsSelfRefresh) := .wr (by decide)
  have hIn : layersInUse (wrT s k.val Reg.TS_STAT_STATE tsSelfRefresh) k.val = layersInUse s k.val :=
    List.filter_congr fun l _ => congrArg (· == 1) (hs _ (by decide) ..)
  have hNone : loseAll (wrT s k.val Reg.TS_STAT_STATE tsSelfRefresh) k.val = wrT s k.val Reg.TS_STAT_STATE tsSelfRefresh := by
    rw [loseAll, hIn, List.filter_eq_nil_iff.2]
    · rfl
    · intro l hm
      have hi : layerState (wrT s k.val Reg.TS_STAT_STATE tsSelfRefresh) k.val l = lyIdle :=
        (hs _ (by decide) ..).trans (hl l hm)
      rw [hi]
      decide
  refine ⟨_, congrArg Host.Outcome.next ((if_pos h).trans hNone), State.rd_wr_same .., fun _ => rfl⟩

end Up

theorem updStack_sameRegs (s : State) (k : Nat) :
    SameRegsBut [Reg.TS_STAT_UPDATING.id, Reg.TS_STAT_LAYER.id] s (updStack s k) := by
  unfold updStack
  split
  · exact (SameRegsBut.wr (by decide)).trans (.wr (by decide))
  · exact .wr (by decide)

theorem updStack_stepLost (s : State) (k : Nat) : (updStack s k).stepLost = s.stepLost := by
  unfold updStack
  split <;> simp only [wrT, State.wr_stepLost]

theorem noteAt_keeps (s : State) (n : NodeId) (code : Nat) (l : List Nat) :
    (noteAt s n code l).regs = s.regs ∧ (noteAt s n code l).stepLost = s.stepLost := by
  unfold noteAt
  split <;> exact ⟨State.send_regs .., State.send_stepLost ..⟩

/-- R447: a layer that is done is IDLE with GLINES 0. -/
theorem layerDone_idle (s : State) (k l : Nat) : layerState (layerDone s k l) k l = lyIdle ∧
    rdT (layerDone s k l) k Reg.TS_LAYER_GLINES l = 0 := by
  have hs := updStack_sameRegs (bumpT (wrT (setLayer (leaveEngine s k l) k l lyIdle) k Reg.TS_LAYER_GLINES 0 l) k
    Reg.TS_UPD_COUNT) k
  refine ⟨(hs _ (by decide) ..).trans ?_, (hs _ (by decide) ..).trans ?_⟩ <;>
    simp (disch := decide) only [bumpT, State.bump, wrT, setLayer, State.rd_wr_ne, State.rd_wr_same] <;> decide

/-- The state in which a layer has lost its step, before its stacks are told (R443). -/
def layerMarked (s : State) (k l : Nat) : State :=
  leaveEngine (bumpT (setLayer (dropPartials s k l) k l lyLost) k Reg.TS_LOST_COUNT) k l

/-- The stacks of a layer are told that it is lost (R443). -/
def lostSent (s t : State) (k l : Nat) : State :=
  (layerStacks s k l).foldl (fun t m => t.send (.stack (Fin.ofNat 16 k)) (.stack (Fin.ofNat 16 m)) (.lost l)) t

/-- The state with the step lost. -/
def withStepLost (t : State) : State := { t with stepLost := true }

theorem withStepLost_keeps (t : State) : (withStepLost t).regs = t.regs ∧ (withStepLost t).stepLost = true := ⟨rfl, rfl⟩

theorem layerLost_eq (s : State) (k l : Nat) : layerLost s k l = updStack (noteAt
    ((withStepLost (lostSent s (layerMarked s k l) k l)).lg LogKind.layerLost (stackN k) [l])
      (.stack (Fin.ofNat 16 k)) 0x0F [l]) k := rfl

/-- R443: a layer that is lost is LOST, and the step with it. -/
theorem layerLost_lost (s : State) (k l : Nat) : (layerLost s k l).stepLost = true ∧
    layerState (layerLost s k l) k l = lyLost := by
  rw [layerLost_eq, updStack_stepLost, (noteAt_keeps ..).2, State.lg_stepLost]
  refine ⟨(withStepLost_keeps _).2, (updStack_sameRegs _ k _ (by decide) ..).trans ((State.rd_congr (noteAt_keeps ..).1 ..).trans ?_)⟩
  have hSent : (lostSent s (layerMarked s k l) k l).regs = (layerMarked s k l).regs :=
    foldl_fixes State.regs _ (fun t m => State.send_regs ..) _ _
  refine (State.rd_congr (s := layerMarked s k l) ((withStepLost_keeps _).1.trans hSent) ..).trans ?_
  simp (disch := decide) only [layerMarked, leaveEngine, State.rd_congr (State.setTx_regs ..), bumpT, State.bump, setLayer, wrT,
    State.rd_wr_ne, State.rd_wr_same]
  decide

/-- R441: the end of a back-off leaves the count of losses. -/
theorem exec_stackBackoffExpiry (s : State) (k : StackId) (pc : Fin 24) (q : Fin 4) : ∃ t,
    exec (.stackBackoffExpiry k pc q) s = .next t ∧ SameRegs s t ∧ SameMemory s t ∧
      (stackArb t k.val pc.val q.val).backoff = false ∧
      (stackArb t k.val pc.val q.val).losses = (stackArb s k.val pc.val q.val).losses := by
  refine ⟨_, rfl, fun _ _ _ _ => rfl, fun _ => rfl, ?_⟩
  have ha : stackArb (setStackArb s k.val pc.val q.val { stackArb s k.val pc.val q.val with backoff := false }) k.val pc.val
      q.val = { stackArb s k.val pc.val q.val with backoff := false } := by
    rw [stackArb, setStackArb, State.tx_setTx_same]
    exact smGet_smSet_same ..
  rw [ha]
  exact ⟨rfl, rfl⟩

/-- What one granted requester's offer leaves of its arbiter (R437, R441). -/
theorem stackGranted_effect (s : State) (k pc q : Nat) : ((stackGranted s k pc q).tx k).cane = (s.tx k).cane ∧
    stackArb (stackGranted s k pc q) k pc q = ⟨0, false⟩ ∧ smGet 0 ((stackGranted s k pc q).tx k).ptr pc = (q + 1) % 4 := by
  simp only [stackGranted, stackArb, setStackArb, State.tx_setTx_same, smGet_smSet_same, and_self]

section Layer

variable {l : Fin 1024}

theorem exec_pass1Complete_idle (h : (s.tx k.val).queue.head? ≠ some l.val ∨ layerState s k.val l.val ≠ lyPass1) :
    exec (.pass1Complete k l) s = .next s := congrArg Host.Outcome.next (if_pos h)

theorem exec_pass2Complete_idle (h : (s.tx k.val).queue.head? ≠ some l.val ∨ layerState s k.val l.val ≠ lyPass2) :
    exec (.pass2Complete k l) s = .next s := congrArg Host.Outcome.next (if_pos h)

variable {t : State} (hq : (s.tx k.val).queue.head? = some l.val)
include hq

/-- R443: an uncorrectable word in pass 1 loses the layer. -/
theorem exec_pass1Complete_ue (hs : layerState s k.val l.val = lyPass1) (he : passErrors s k.val l.val false = (true, t)) :
    exec (.pass1Complete k l) s = .next (layerLost (partWrites t k.val l.val) k.val l.val) := by
  show execPass1Complete k l s = _
  simp only [execPass1Complete, hq, hs, he, ne_eq, not_true_eq_false, or_self, if_false, if_true]

/-- R447: ADAMW without ratio watching writes and is done in pass 1. -/
theorem exec_pass1Complete_adamw (hs : layerState s k.val l.val = lyPass1)
    (he : passErrors s k.val l.val false = (false, t)) (hr : rdT s k.val Reg.TS_LAYER_RULE l.val = 0)
    (hw : rdT s k.val Reg.TS_LAYER_RWATCH l.val = 0) :
    exec (.pass1Complete k l) s = .next (layerDone (applyLayer t k.val l.val fOne) k.val l.val) := by
  have hc : (updConst s k.val l.val).rule = 0 := hr
  show execPass1Complete k l s = _
  simp only [execPass1Complete, hq, hs, he, hc, hw, ne_eq, not_true_eq_false, or_self, if_false, if_true, and_self,
    Bool.false_eq_true]

/-- R443: an uncorrectable word in pass 2 loses the layer. -/
theorem exec_pass2Complete_ue (hs : layerState s k.val l.val = lyPass2) (he : passErrors s k.val l.val true = (true, t)) :
    exec (.pass2Complete k l) s = .next (layerLost (partWrites t k.val l.val) k.val l.val) := by
  show execPass2Complete k l s = _
  simp only [execPass2Complete, hq, hs, he, ne_eq, not_true_eq_false, or_self, if_false, if_true]

/-- R447: pass 2 writes and the layer is done. -/
theorem exec_pass2Complete_writes (hs : layerState s k.val l.val = lyPass2)
    (he : passErrors s k.val l.val true = (false, t)) : exec (.pass2Complete k l) s =
      .next (layerDone (applyLayer t k.val l.val (smGet fOne (s.tx k.val).ratio l.val)) k.val l.val) := by
  show execPass2Complete k l s = _
  simp only [execPass2Complete, hq, hs, he, ne_eq, not_true_eq_false, or_self, if_false, Bool.false_eq_true]

end Layer

/-- R443: LOST, once its stacks know, makes the layer IDLE and the step lost. -/
theorem exec_layerLost_idle {l : Fin 1024} (h : layerState s k.val l.val ≠ lyIdle) : ∃ t, exec (.layerLost k l) s = .next t ∧
    layerState t k.val l.val = lyIdle ∧ rdT t k.val Reg.TS_LAYER_GLINES l.val = 0 ∧ t.stepLost = true := by
  have hx : ∃ u, exec (.layerLost k l) s = .next (updStack (withStepLost
      (wrT (setLayer u k.val l.val lyIdle) k.val Reg.TS_LAYER_GLINES 0 l.val)) k.val) :=
    ⟨_, congrArg Host.Outcome.next (if_neg h)⟩
  obtain ⟨u, hx⟩ := hx
  have hs := fun v => updStack_sameRegs (withStepLost v) k.val
  refine ⟨_, hx, (hs _ _ (by decide) ..).trans ?_, (hs _ _ (by decide) ..).trans ?_, ?_⟩
  · refine (State.rd_congr (withStepLost_keeps _).1 ..).trans ?_
    simp (disch := decide) only [wrT, setLayer, State.rd_wr_ne, State.rd_wr_same]
    decide
  · exact (State.rd_congr (withStepLost_keeps _).1 ..).trans (State.rd_wr_same ..)
  · rw [updStack_stepLost]
    exact (withStepLost_keeps _).2

/-- The fields in which an error found in a stack is logged (R457). -/
def stackEccIds : List Nat := [Reg.TS_ECCLOG_LO.id, Reg.TS_ECCLOG_HI.id, Reg.TS_ECCFLG_UE.id, Reg.TS_ECCFLG_VALID.id,
  Reg.TS_ECCFLG_REQ.id, Reg.TS_ECC_UE.id, Reg.TS_ECC_CE.id]

theorem stackEcc_sameRegs (s : State) (k req : Nat) (p : Nat × Nat) : SameRegsBut stackEccIds s (stackEcc k req s p) := by
  unfold stackEcc
  extract_lets off ue s1 s2 s3
  have hFlags : SameRegsBut stackEccIds s s2 :=
    ((((SameRegsBut.wr (by decide)).trans (.wr (by decide))).trans (.wr (by decide))).trans (.wr (by decide))).trans (.wr (by decide))
  have hCount : SameRegsBut stackEccIds s2 s3 := by
    simp only [s3]
    split
    · exact (SameRegsBut.bump (by decide)).trans (.of_regs rfl)
    · exact (SameRegsBut.bump (by decide)).trans (.of_regs rfl)
  exact (hFlags.trans hCount).trans (.of_regs rfl)

/-- R451, R454: a copy that ends has changed only bytes of its layer's C region. -/
theorem exec_layerCopyComplete_copies {l : Fin 1024} (h : l.val ∈ (s.tx k.val).copies) : ∃ t,
    exec (.layerCopyComplete k l) s = .next t ∧ l.val ∉ (t.tx k.val).copies ∧
      SameOutside (stackBase k.val + cBase s k.val l.val) (layerRows s k.val l.val * copyRow s k.val l.val) s t := by
  refine ⟨_, congrArg Host.Outcome.next (if_pos (List.contains_iff_mem.2 h)), ?_, ?_⟩
  · rw [State.tx_setTx_same]
    simp
  · extract_lets rg s1 s2
    have hs1 : SameRegsBut stackEccIds s s1 ∧ s1.mem = s.mem := by
      simp only [s1]
      split
      · exact ⟨.refl, rfl⟩
      · exact ⟨.foldl (fun t p => stackEcc_sameRegs t k.val 2 p) _ s, foldl_mem _ (fun t p => stackEcc_mem t k.val 2 p) _ s⟩
    obtain ⟨hr, hm⟩ := hs1
    have hcr : copyRow s1 k.val l.val = copyRow s k.val l.val := by
      simp only [copyRow, rdT, layerK, hr _ (show Reg.TS_LAYER_CFMT.id ∉ stackEccIds by decide),
        hr _ (show Reg.TS_LAYER_K.id ∉ stackEccIds by decide)]
    have hcb : cBase s1 k.val l.val = cBase s k.val l.val := by
      simp only [cBase, State.rd64, hr _ (show Reg.TS_LAYER_CBASE_LO.id ∉ stackEccIds by decide),
        hr _ (show Reg.TS_LAYER_CBASE_HI.id ∉ stackEccIds by decide)]
    have hCopy := copyLayer_sameOutside s1 k.val l.val (layerRows s k.val l.val)
    rw [hcr, hcb] at hCopy
    exact ((SameOutside.of_mem hm).trans hCopy).trans (.of_mem (clearMarks_mem ..))

theorem exec_layerCopyComplete_none {l : Fin 1024} (h : l.val ∉ (s.tx k.val).copies) :
    exec (.layerCopyComplete k l) s = .next s :=
  congrArg Host.Outcome.next (if_neg (by simpa using h))

theorem exec_copy_busy {r : Requester} {l : Fin 1024} (h : layerState s k.val l.val ≠ lyIdle) :
    exec (.copy r k l) s = .next (s.lg LogKind.copyIgnored (stackN k.val) [l.val]) :=
  congrArg Host.Outcome.next (if_pos (.inr (.inl h)))

/-- R454: COPY of an idle layer that is in use is taken. -/
theorem exec_copy_taken {r : Requester} {l : Fin 1024} (hw : mayWrite .any r .die (k.val / 4) = true)
    (hi : layerState s k.val l.val = lyIdle) (he : rdT s k.val Reg.TS_LAYER_EN l.val = 1)
    (hc : l.val ∉ (s.tx k.val).copies) : ∃ t, exec (.copy r k l) s = .next t ∧ l.val ∈ (t.tx k.val).copies ∧
      SameRegs s t ∧ SameMemory s t := by
  refine ⟨_, congrArg Host.Outcome.next (if_neg (by simp [hw, hi, he, hc])), ?_, fun _ _ _ _ => rfl, fun _ => rfl⟩
  rw [State.tx_setTx_same]
  exact List.mem_append_right _ List.mem_cons_self

end Sys2Proof.Machine
end

section
/-! O56: updates and commands of a stack (R430, R431, R439, R443, R447, R454, R455, R457, R458). -/

namespace Sys2Proof.Machine

/-- Settles O56: each command by the state of its stack and of its layer. -/
theorem stackUpdatesAndCommands : Obligations.StackUpdatesAndCommands := by
  unfold Obligations.StackUpdatesAndCommands
  intro k s
  refine ⟨exec_stack_notUp, fun h pc o => ⟨exec_refresh_up h pc, exec_stackGrant_refresh h, exec_stackGrant_none h,
      fun hr ho hd hl hw => ?_⟩, exec_stackBackoffExpiry s k, fun l => ?_, fun h hl => exec_selfRefreshEntry_idle h hl,
    fun hs hp => congrArg Host.Outcome.next (if_pos ⟨hs, hp⟩), fun hp => congrArg Host.Outcome.next (if_neg fun h => hp h.2),
    fun r l hw => ⟨exec_copy_busy, exec_copy_taken hw⟩,
    fun l => ⟨exec_layerCopyComplete_none, exec_layerCopyComplete_copies⟩, fun r => ⟨fun hw => ?_, fun hw => ?_⟩,
    fun h => ⟨exec_stackZeroComplete_zeroes h, exec_stackScrub_takes h⟩⟩
  · obtain ⟨hc, ha, hp⟩ := stackGranted_effect s k.val pc.val 0
    exact ⟨_, exec_stackGrant_only h hr ho hd hl hw, hc, ha, hp⟩
  · intro busy
    refine ⟨exec_pass1Complete_idle, exec_pass2Complete_idle,
      fun t hq hs => ⟨exec_pass1Complete_ue hq hs, exec_pass1Complete_adamw hq hs⟩,
      fun t hq hs => ⟨exec_pass2Complete_ue hq hs, exec_pass2Complete_writes hq hs⟩,
      (layerDone_idle s k.val l.val).1, (layerDone_idle s k.val l.val).2,
      fun hc hh => ⟨congrArg Host.Outcome.next (if_pos ⟨hc, hh⟩), layerLost_lost s k.val l.val⟩,
      fun hc => congrArg Host.Outcome.next (if_neg fun h => hc h.1), fun hi => congrArg Host.Outcome.next (if_pos hi),
      exec_layerLost_idle⟩
  · exact ⟨_, congrArg Host.Outcome.next (if_pos (by simp [hw]))⟩
  · exact ⟨_, congrArg Host.Outcome.next (if_neg (by simp [hw])), State.rd_wr_same ..⟩

end Sys2Proof.Machine
end

section
/-! The records of the sequence slots: what a record, a dropped copy and a disabled slot change of a slot (R477, R483). -/

namespace Sys2Proof.Machine

variable {s : State}

@[simp] theorem signal_slots (v : Nat) : (signal s v).slots = s.slots := by
  unfold signal
  split
  · rfl
  · split <;> rfl

theorem State.slx_congr {t : State} (h : t.slots = s.slots) (m : Nat) : t.slx m = s.slx m := by
  rw [State.slx, State.slx, h]

theorem State.slx_setSlx_ne {n m : Nat} (h : m ≠ n) (x : SlotX) : (s.setSlx n x).slx m = s.slx m :=
  smGet_smSet_ne _ _ _ _ h

/-- The operations that run in a slot. -/
def State.slotRuns (s : State) (m : Nat) : List SlotRun := (s.slx m).running

theorem State.slotRuns_congr {t : State} (h : t.slots = s.slots) (m : Nat) : t.slotRuns m = s.slotRuns m :=
  congrArg SlotX.running (State.slx_congr h m)

/-- A slot's new record that runs what the old one ran leaves what every slot runs. -/
theorem State.slotRuns_setSlx {n : Nat} {x : SlotX} (h : x.running = s.slotRuns n) (m : Nat) :
    (s.setSlx n x).slotRuns m = s.slotRuns m := by
  by_cases hm : m = n
  · subst hm
    rw [State.slotRuns, State.slx_setSlx_same, h]
  · exact congrArg SlotX.running (State.slx_setSlx_ne hm x)

theorem postRecord_regs (n addr : Nat) (bs : List Byte) : (postRecord s n addr bs).regs = s.regs := by
  unfold postRecord
  split <;> rfl

theorem postRecord_slotRuns (n addr : Nat) (bs : List Byte) (m : Nat) : (postRecord s n addr bs).slotRuns m = s.slotRuns m := by
  unfold postRecord
  split
  · rfl
  · exact State.slotRuns_setSlx (x := { s.slx n with owed := (s.slx n).owed ++ [(addr, bs)] }) rfl m

/-- The fields of a slot that a completion record moves on (R483). -/
def recordIds : List Nat := [Reg.HB_SLOT_CQTAIL.id, Reg.HB_SLOT_WPHASE.id, Reg.HB_SLOT_DONE.id]

/-- What one step of a slot leaves: every register but those of some fields, and what the slots run. -/
def KeepsRuns (ids : List Nat) (s t : State) : Prop := SameRegsBut ids s t ∧ ∀ m, t.slotRuns m = s.slotRuns m

namespace KeepsRuns

variable {ids : List Nat} {t u : State}

theorem refl : KeepsRuns ids s s := ⟨.refl, fun _ => rfl⟩

theorem trans (h : KeepsRuns ids s t) (k : KeepsRuns ids t u) : KeepsRuns ids s u :=
  ⟨h.1.trans k.1, fun m => (k.2 m).trans (h.2 m)⟩

theorem of_eq (hr : t.regs = s.regs) (hs : t.slots = s.slots) : KeepsRuns ids s t :=
  ⟨.of_regs hr, State.slotRuns_congr hs⟩

theorem wr {F : Field} {u v i j : Nat} (h : F.id ∈ ids) : KeepsRuns ids s (s.wr F u v i j) := ⟨.wr h, fun _ => rfl⟩

theorem setSlx {n : Nat} {x : SlotX} (h : x.running = s.slotRuns n) : KeepsRuns ids s (s.setSlx n x) :=
  ⟨.of_regs rfl, State.slotRuns_setSlx h⟩

theorem signal (v : Nat) : KeepsRuns ids s (signal s v) :=
  of_eq (signal_regs s v) (signal_slots v)

theorem mono {ids' : List Nat} (h : KeepsRuns ids s t) (hi : ids ⊆ ids') : KeepsRuns ids' s t := ⟨h.1.mono hi, h.2⟩

end KeepsRuns

/-- The interrupt that a completion record asks for: raised, or counted towards the moderation's number (R486). -/
def countIrq (s : State) (n : Nat) (irq : Bool) : State :=
  if irq then
    let x := s.slx n
    if x.irqs + 1 ≥ s.rd Reg.HB_SLOT_IMODC 0 n then signal (s.setSlx n { x with irqs := 0 }) n
    else s.setSlx n { x with irqs := x.irqs + 1 }
  else s

theorem countIrq_keeps (ids : List Nat) (s : State) (n : Nat) (irq : Bool) : KeepsRuns ids s (countIrq s n irq) := by
  unfold countIrq
  extract_lets x
  split
  · split
    · exact (KeepsRuns.setSlx (x := { x with irqs := 0 }) rfl).trans (.signal n)
    · exact .setSlx rfl
  · exact .refl

/-- R483: what one completion record leaves. -/
theorem writeRecord_keeps (s : State) (n : Nat) (e : SqEntry) (status flags info : Nat) :
    KeepsRuns recordIds s (writeRecord s n e status flags info) := by
  unfold writeRecord
  extract_lets tail p bs s1 s2 s3 x
  have hPost : KeepsRuns recordIds s s2 :=
    KeepsRuns.trans (t := s1) ⟨.of_regs (postRecord_regs ..), postRecord_slotRuns _ _ _⟩ (.wr (by decide))
  have hRecord : KeepsRuns recordIds s s3 := by
    simp only [s3]
    split
    · exact (hPost.trans (.wr (by decide))).trans (.wr (by decide))
    · exact hPost.trans (.wr (by decide))
  exact hRecord.trans (countIrq_keeps _ s3 n e.irq)

theorem endDisabling_sameRegs (s : State) (n : Nat) : SameRegsBut [Reg.HB_SLOT_STATE.id] s (endDisabling s n) := by
  unfold endDisabling
  split
  · exact .wr (by decide)
  · exact .refl

/-- The fields that the end of an operation writes. -/
def finishIds : List Nat := Reg.HB_SLOT_STATE.id :: recordIds

theorem finishRunOf_sameRegs (s : State) (n : Nat) (r : SlotRun) (status flags info : Nat) :
    SameRegsBut finishIds s (finishRunOf s n r status flags info) :=
  (SameRegsBut.of_regs (State.setSlx_regs ..)).trans (((writeRecord_keeps ..).1.mono (by decide)).trans
    (SameRegsBut.mono (endDisabling_sameRegs _ n) (by decide)))

theorem dropCopy_keeps (s : State) (n uid keep : Nat) :
    (dropCopy s n uid keep).regs = s.regs ∧ (dropCopy s n uid keep).slots = s.slots :=
  ⟨foldl_fixes State.regs _ (fun t k => State.setTx_regs t k _) _ _, foldl_fixes State.slots _ (fun t k => State.setTx_slots t k _) _ _⟩

/-- What a host reset and firmware decide of a slot: its state and what it runs. -/
def State.slotView (s : State) (m : Nat) : Nat × List SlotRun := (s.rd Reg.HB_SLOT_STATE 0 m, s.slotRuns m)

theorem State.slotView_congr {t : State} (hr : t.regs = s.regs) (hs : t.slots = s.slots) (m : Nat) :
    t.slotView m = s.slotView m :=
  Prod.ext (State.rd_congr hr ..) (State.slotRuns_congr hs m)

theorem State.slotView_of_keeps {t : State} {ids : List Nat} (h : KeepsRuns ids s t)
    (hid : Reg.HB_SLOT_STATE.id ∉ ids) (m : Nat) : t.slotView m = s.slotView m :=
  Prod.ext (h.1 _ hid ..) (h.2 m)

/-- The slot `n` is disabled, or finishes the copies `busy` first. -/
def DisabledWith (busy : List SlotRun) (t : State) (n : Nat) : Prop :=
  t.slotView n = (if busy.isEmpty then slDisabled else slDisabling, busy)

/-- R477: what disabling does to the slot that it acts on, and that it leaves the others. -/
theorem disableSlot_slotView (link : Bool) (s : State) (n : Nat)
    (h : ¬(s.rd Reg.HB_SLOT_STATE 0 n = slDisabled ∨ (s.rd Reg.HB_SLOT_STATE 0 n = slDisabling ∧ link = true))) :
    (∃ busy, DisabledWith busy (disableSlot link s n) n ∧ (s.slotRuns n = [] → busy = [])) ∧
      ∀ m, m ≠ n → (disableSlot link s n).slotView m = s.slotView m := by
  unfold disableSlot
  rw [if_neg h]
  extract_lets x copy s1 s2 busy gone s3 ends s4
  have hDrop : s1.regs = s.regs ∧ s1.slots = s.slots :=
    ⟨foldl_fixes State.regs _ (fun _ _ => (dropCopy_keeps ..).1) _ _, foldl_fixes State.slots _ (fun _ _ => (dropCopy_keeps ..).2) _ _⟩
  have hEnds : ∀ m, s4.slotView m = s3.slotView m := fun m =>
    foldl_fixes (State.slotView · m) _ (fun t e => by
      split
      · exact State.slotView_of_keeps (ids := [Reg.HB_SLOT_DROPPED.id]) (.wr (by decide)) (by decide) m
      · exact State.slotView_of_keeps (writeRecord_keeps ..) (by decide) m) _ _
  have hRuns : ∀ (t : State) (v m : Nat), ((t.wr Reg.HB_SLOT_STATE 0 v n).wb Reg.HB_SLOT_EN 0 false n).slotRuns m = t.slotRuns m :=
    fun _ _ _ => rfl
  refine ⟨⟨busy, Prod.ext ?_ ?_, fun hr => by simp [busy, x, show (s.slx n).running = [] from hr]⟩, fun m hm => Prod.ext ?_ ?_⟩
  · refine (State.rd_wb_ne (by decide) ..).trans ((State.rd_wr_same ..).trans (Nat.mod_eq_of_lt ?_))
    split <;> decide
  · exact (congrArg Prod.snd (hEnds n)).trans (congrArg SlotX.running (State.slx_setSlx_same ..))
  · refine (State.rd_wb_ne (by decide) ..).trans ((State.rd_wr_inst _ _ (fun hk => hm hk.2.1) _).trans ?_)
    exact (congrArg Prod.fst (hEnds m)).trans (State.rd_congr hDrop.1 ..)
  · exact (congrArg Prod.snd (hEnds m)).trans ((congrArg SlotX.running (State.slx_setSlx_ne hm _)).trans
      (State.slotRuns_congr hDrop.2 m))

/-- A slot at rest, or one that finishes its copies; at rest when nothing ran in it. -/
def EndsDisabled (s t : State) (n : Nat) : Prop :=
  (t.rd Reg.HB_SLOT_STATE 0 n = slDisabled ∨ (t.rd Reg.HB_SLOT_STATE 0 n = slDisabling ∧ (t.slx n).running ≠ [])) ∧
    ((s.slx n).running = [] → t.rd Reg.HB_SLOT_STATE 0 n = slDisabled)

theorem endsDisabled_of_slotView {s t s' t' : State} {n : Nat} (hs : s'.slotView n = s.slotView n) (ht : t'.slotView n = t.slotView n)
    (h : EndsDisabled s t n) : EndsDisabled s' t' n := by
  obtain ⟨-, hsr⟩ := Prod.mk.inj hs
  obtain ⟨hts, htr⟩ := Prod.mk.inj ht
  simpa only [EndsDisabled, hts, show (t'.slx n).running = (t.slx n).running from htr,
    show (s'.slx n).running = (s.slx n).running from hsr] using h

/-- R477: a slot that is not already finishing its copies ends disabled, at once when nothing runs in it. -/
theorem disableSlot_endsDisabled {link : Bool} {n : Nat} (h : ¬(s.rd Reg.HB_SLOT_STATE 0 n = slDisabling ∧ link = true)) :
    EndsDisabled s (disableSlot link s n) n := by
  by_cases hd : s.rd Reg.HB_SLOT_STATE 0 n = slDisabled
  · rw [show disableSlot link s n = s from if_pos (.inl hd)]
    exact ⟨.inl hd, fun _ => hd⟩
  · obtain ⟨⟨busy, hView, hNone⟩, -⟩ := disableSlot_slotView link s n (by simp only [hd, h, or_self, not_false_iff])
    obtain ⟨hState, hRuns⟩ := Prod.mk.inj hView
    rw [State.slotRuns] at hRuns
    rcases busy with - | ⟨b, l⟩
    · exact ⟨.inl hState, fun _ => hState⟩
    · exact ⟨.inr ⟨hState, by simp [hRuns]⟩, fun hr => absurd (hNone hr) (List.cons_ne_nil _ _)⟩

theorem disableSlot_slotView_ne {link : Bool} {n m : Nat} (hm : m ≠ n) : (disableSlot link s n).slotView m = s.slotView m := by
  by_cases h : s.rd Reg.HB_SLOT_STATE 0 n = slDisabled ∨ (s.rd Reg.HB_SLOT_STATE 0 n = slDisabling ∧ link = true)
  · rw [show disableSlot link s n = s from if_pos h]
  · exact (disableSlot_slotView link s n h).2 m hm

end Sys2Proof.Machine
end

section
/-! O54. The host interface: its resets, its slots and doorbells, and the reads it waits for (R465, R468, R469, R477, R480). -/

namespace Sys2Proof.Machine

variable {s : State}

theorem resetField_keeps (s : State) (F : Field) : KeepsRuns [F.id] s (resetField s F) :=
  foldl_keeps (KeepsRuns [F.id] s) _ (fun _ _ h =>
    foldl_keeps (KeepsRuns [F.id] s) _ (fun _ _ h => h.trans (.wr List.mem_cons_self)) _ _ h) _ _ .refl

/-- The fields that a host reset writes beside those of the slots. -/
def hostResetIds : List Nat := hostRegs.map Field.id

theorem resetHostRegs_keeps (s : State) : KeepsRuns hostResetIds s (hostRegs.foldl resetField s) :=
  List.foldlRecOn _ _ .refl fun t h F hF => h.trans ((resetField_keeps t F).mono (List.cons_subset.2 ⟨List.mem_map_of_mem hF, List.nil_subset _⟩))

theorem setHost_keeps {ids : List Nat} (t : State) (h : HostX) : KeepsRuns ids t { t with host := h } := .of_eq rfl rfl

/-- The host's queues as a reset leaves them (R468). -/
def clearHostQueues (t : State) : State := { t with mails := [], host := { t.host with asks := [], vecs := [] } }

theorem clearHostQueues_keeps {ids : List Nat} (t : State) : KeepsRuns ids t (clearHostQueues t) := .of_eq rfl rfl

theorem resetHost_eq (s : State) : resetHost s = clearHostQueues (hostRegs.foldl resetField
    ((((List.range 64).foldl (disableSlot false) s).wb Reg.HB_STEPCTL_HOLD 0 true).wr Reg.HB_MGMT_EID_VDM 0 0)) := by
  unfold resetHost clearHostQueues
  with_reducible rfl

/-- The registers of a host reset, from the state in which every slot has been disabled. -/
theorem resetHost_keeps (s : State) : KeepsRuns hostResetIds
    ((((List.range 64).foldl (disableSlot false) s).wb Reg.HB_STEPCTL_HOLD 0 true).wr Reg.HB_MGMT_EID_VDM 0 0) (resetHost s) := by
  rw [resetHost_eq]
  exact (resetHostRegs_keeps _).trans (clearHostQueues_keeps _)

/-- R477, R465: every slot ends disabled, at once or with its copies, and HOLD is set. -/
theorem resetHost_effect (s : State) : (resetHost s).rb Reg.HB_STEPCTL_HOLD 0 = true ∧
    ∀ n : Fin 64, EndsDisabled s (resetHost s) n.val := by
  have hKeeps := resetHost_keeps s
  refine ⟨(hKeeps.1.rb (by decide) ..).trans ?_, fun n => ?_⟩
  · rw [State.rb, State.rd_wr_ne _ (by decide)]
    exact State.rb_wb_same _ _ _ _ _ _ (by decide)
  obtain ⟨c, hc, hs1⟩ := exists_foldl_eq_step (fun t : State => t.slotView n.val) (f := disableSlot false) (l := List.range 64)
    (fun a _ ha t => disableSlot_slotView_ne ha.symm) List.nodup_range (List.mem_range.2 n.isLt) s
  have hReset : (resetHost s).slotView n.val = (disableSlot false c n.val).slotView n.val := by
    refine (State.slotView_of_keeps hKeeps (by decide) _).trans (Eq.trans ?_ hs1)
    refine (State.slotView_of_keeps (ids := [Reg.HB_MGMT_EID_VDM.id]) (.wr (by decide)) (by decide) _).trans ?_
    exact State.slotView_of_keeps (ids := [Reg.HB_STEPCTL_HOLD.id]) (.wr (by decide)) (by decide) _
  have hEnds : EndsDisabled c (disableSlot false c n.val) n.val := disableSlot_endsDisabled (by simp)
  exact endsDisabled_of_slotView hc.symm hReset hEnds

/-- The fields in which a host error is recorded. -/
def herrIds : List Nat := [Reg.HB_HERR_KIND.id, Reg.HB_HERR_SLOT.id, Reg.HB_HERR_VALID.id]

theorem hostErr_keeps (s : State) (kind n : Nat) : KeepsRuns herrIds s (hostErr s kind n) :=
  ((KeepsRuns.wr (by decide)).trans (.wr (by decide))).trans ((KeepsRuns.wr (by decide)).trans (.signal _))

/-- What a host reset, a hot reset, a lost link and D3hot share (R468). -/
theorem exec_hostReset_effect {c : Instr} (hc : c ∈ [Instr.functionLevelReset, .hotReset, .linkDown, .d3hotEntry]) :
    ∃ t, exec c s = .next t ∧ SameMemory s t ∧ t.rb Reg.HB_STEPCTL_HOLD 0 = true ∧ (∀ n : Fin 64, EndsDisabled s t n.val) ∧
      (c = .linkDown → t.host.link = false) ∧ (c = .d3hotEntry → t.host.d3 = true) := by
  obtain ⟨hHold, hSlots⟩ := resetHost_effect s
  have hMem : SameMemory s (resetHost s) := sameMemory_of_mem (resetHost_mem s)
  have hHost : ∀ (t : State) (h : HostX), SameMemory s t ∧ t.rb Reg.HB_STEPCTL_HOLD 0 = true ∧ (∀ n : Fin 64, EndsDisabled s t n.val) →
      SameMemory s { t with host := h } ∧ State.rb { t with host := h } Reg.HB_STEPCTL_HOLD 0 = true ∧
        ∀ n : Fin 64, EndsDisabled s { t with host := h } n.val := fun t h ⟨hm, hr, hs⟩ =>
    ⟨hm, ((setHost_keeps (ids := []) t h).1.rb List.not_mem_nil ..).trans hr, fun n =>
      endsDisabled_of_slotView rfl (State.slotView_of_keeps (ids := []) (setHost_keeps t h) List.not_mem_nil _) (hs n)⟩
  simp only [List.mem_cons, List.not_mem_nil, or_false] at hc
  rcases hc with rfl | rfl | rfl | rfl
  · exact ⟨_, rfl, hMem, hHold, hSlots, nofun, nofun⟩
  · exact ⟨_, rfl, hMem, hHold, hSlots, nofun, nofun⟩
  · obtain ⟨hm, hr, hs⟩ := hHost _ { (resetHost s).host with link := false } ⟨hMem, hHold, hSlots⟩
    exact ⟨_, rfl, hm, hr, hs, fun _ => rfl, nofun⟩
  · obtain ⟨hm, hr, hs⟩ := hHost _ { (resetHost s).host with d3 := true } ⟨hMem, hHold, hSlots⟩
    exact ⟨_, rfl, hm, hr, hs, nofun, fun _ => rfl⟩

/-- R489: a lapsed watchdog is logged; only the Jacks port's changes registers. -/
theorem exec_puntyWatchdog (p : Fin 4) : ∃ t, exec (.puntyWatchdog p) s = .next t ∧
    t.log = (s.lg LogKind.puntyReset (512 + p.val) [if p.val = 0 then 1 else 0]).log ∧ (p ≠ 2 → SameRegs s t) := by
  by_cases hp : p.val = 2
  · exact ⟨_, congrArg Host.Outcome.next (if_pos hp), rfl, fun h => absurd (Fin.ext hp) h⟩
  · exact ⟨_, congrArg Host.Outcome.next (if_neg hp), rfl, fun _ => sameRegs_of_regs rfl⟩

section Enable
variable {n : Fin 64} {r : Requester}

theorem exec_slotEnable_unlicensed (h : s.rd Reg.HB_ID_SLOTS 0 ≤ n.val) :
    exec (.slotEnable r n) s = .next (s.lg LogKind.ignoredWrite hubN [n.val, Reg.HB_SLOT_EN.id]) :=
  congrArg Host.Outcome.next (if_pos (.inl h))

theorem exec_slotDisable_unlicensed (h : s.rd Reg.HB_ID_SLOTS 0 ≤ n.val) : exec (.slotDisable r n) s = .next s :=
  congrArg Host.Outcome.next (if_neg (by simp [Nat.not_lt.2 h]))

theorem exec_slotDisable (hl : n.val < s.rd Reg.HB_ID_SLOTS 0) (hw : mayWrite .any r .hub 0 = true) :
    exec (.slotDisable r n) s = .next (disableSlot true s n.val) :=
  congrArg Host.Outcome.next (if_pos (by simp [hl, hw]))

/-- An enable that firmware or the host may ask for, of a licensed slot, goes by the slot alone. -/
theorem exec_slotEnable (hl : n.val < s.rd Reg.HB_ID_SLOTS 0) (hw : mayWrite .any r .hub 0 = true) :
    exec (.slotEnable r n) s = .next (if s.rb Reg.HB_SLOT_EN 0 n.val then s
      else if s.rd Reg.HB_SLOT_STATE 0 n.val = slDisabling then s.lg LogKind.ignoredWrite hubN [n.val, Reg.HB_SLOT_EN.id]
      else if s.rd Reg.HB_SLOT_SQSIZE 0 n.val > 8 ∨ s.rd Reg.HB_SLOT_CQSIZE 0 n.val > 8 then
        (hostErr s 3 n.val).lg LogKind.slotRefused hubN [n.val]
      else ((((((s.wr Reg.HB_SLOT_SQTAIL 0 0 n.val).wr Reg.HB_SLOT_SQHEAD 0 0 n.val).wr Reg.HB_SLOT_CQTAIL 0 0 n.val).wr
        Reg.HB_SLOT_CQHEAD 0 0 n.val).wr Reg.HB_SLOT_WPHASE 0 1 n.val).wb Reg.HB_SLOT_EN 0 true n.val).wr
        Reg.HB_SLOT_STATE 0 slEnabled n.val) :=
  congrArg Host.Outcome.next (if_neg (by simp [Nat.not_le.2 hl, hw]))

/-- R477: an enable of a slot that is not running: taken or refused by its rings' sizes. -/
theorem exec_slotEnable_effect (hl : n.val < s.rd Reg.HB_ID_SLOTS 0) (hw : mayWrite .any r .hub 0 = true)
    (he : s.rb Reg.HB_SLOT_EN 0 n.val = false) (hd : s.rd Reg.HB_SLOT_STATE 0 n.val ≠ slDisabling) :
    (8 < s.rd Reg.HB_SLOT_SQSIZE 0 n.val ∨ 8 < s.rd Reg.HB_SLOT_CQSIZE 0 n.val → ∃ t, exec (.slotEnable r n) s = .next t ∧
        t.rb Reg.HB_SLOT_EN 0 n.val = false ∧ t.rd Reg.HB_HERR_KIND 0 = 3) ∧
      (s.rd Reg.HB_SLOT_SQSIZE 0 n.val ≤ 8 → s.rd Reg.HB_SLOT_CQSIZE 0 n.val ≤ 8 → ∃ t, exec (.slotEnable r n) s = .next t ∧
        t.rb Reg.HB_SLOT_EN 0 n.val = true ∧ t.rd Reg.HB_SLOT_STATE 0 n.val = slEnabled ∧
        t.rd Reg.HB_SLOT_SQTAIL 0 n.val = 0 ∧ t.rd Reg.HB_SLOT_SQHEAD 0 n.val = 0 ∧ t.rd Reg.HB_SLOT_CQTAIL 0 n.val = 0 ∧
        t.rd Reg.HB_SLOT_CQHEAD 0 n.val = 0 ∧ t.rd Reg.HB_SLOT_WPHASE 0 n.val = 1) := by
  rw [exec_slotEnable hl hw, he, if_neg Bool.false_ne_true, if_neg hd]
  refine ⟨fun h => ⟨_, congrArg Host.Outcome.next (if_pos h), ?_, ?_⟩, fun hq hc =>
    ⟨_, congrArg Host.Outcome.next (if_neg (by omega)), ?_⟩⟩
  · rw [← he]
    exact (hostErr_keeps s 3 n.val).1.rb (by decide) ..
  · exact (State.rd_congr (State.lg_regs ..) ..).trans (hostErr_kind ..)
  · refine ⟨?_, ?_, ?_, ?_, ?_, ?_, ?_⟩ <;>
      simp (disch := decide) only [State.rb, State.wb, State.rd_wr_ne, State.rd_wr_same] <;> decide

end Enable

end Sys2Proof.Machine
end

section
/-! O54. Doorbells, fetched entries, failed reads, interrupts and the ends of copies and sends (R476, R477, R480, R486). -/

namespace Sys2Proof.Machine

variable {s : State}

section Doorbell
variable {n : Fin 64} {x : Word}

/-- R469: a doorbell of a slot that is not licensed is dropped, logged and reported. -/
theorem doorbell_unlicensed (k : State → State) (ho : hostOpen s = true) (hr : s.rb Reg.BT_STAT_READY 0 = true) {n : Nat}
    (h : s.rd Reg.HB_ID_SLOTS 0 ≤ n) :
    doorbell s n k = noteAt (s.lg LogKind.doorbellDropped hubN [n]) (.hub 5) (Config.eventCode 0) [n] := by
  simp [doorbell, hostRequest_open ho, hr, Nat.not_lt.2 h]

theorem doorbell_notEnabled (k : State → State) (ho : hostOpen s = true) (hr : s.rb Reg.BT_STAT_READY 0 = true) {n : Nat}
    (h : n < s.rd Reg.HB_ID_SLOTS 0) (he : s.rd Reg.HB_SLOT_STATE 0 n ≠ slEnabled) :
    doorbell s n k = s.lg LogKind.doorbellDropped hubN [n] := by
  simp [doorbell, hostRequest_open ho, hr, h, he]

theorem doorbell_enabled (k : State → State) (ho : hostOpen s = true) (hr : s.rb Reg.BT_STAT_READY 0 = true) {n : Nat}
    (h : n < s.rd Reg.HB_ID_SLOTS 0) (he : s.rd Reg.HB_SLOT_STATE 0 n = slEnabled) : doorbell s n k = k s := by
  simp [doorbell, hostRequest_open ho, hr, h, he]

/-- R477: a slot at fault carries its reason. -/
theorem slotFault_effect (s : State) (n reason : Nat) (hr : reason < 8) :
    (slotFault s n reason).rd Reg.HB_SLOT_STATE 0 n = slFaulted ∧ (slotFault s n reason).rd Reg.HB_SLOT_REASON 0 n = reason :=
  ⟨(State.rd_congr (signal_regs _ _) ..).trans ((State.rd_wr_ne _ (by decide) ..).trans (State.rd_wr_same ..)),
    (State.rd_congr (signal_regs _ _) ..).trans ((State.rd_wr_same ..).trans (Nat.mod_eq_of_lt hr))⟩

variable (ho : hostOpen s = true) (hr : s.rb Reg.BT_STAT_READY 0 = true) (hl : n.val < s.rd Reg.HB_ID_SLOTS 0)
  (he : s.rd Reg.HB_SLOT_STATE 0 n.val = slEnabled)
include ho hr hl he

/-- R480: the tail doorbell of an enabled slot. -/
theorem exec_sqTailDoorbell : exec (.sqTailDoorbell n x) s = .next (if x.toNat = s.rd Reg.HB_SLOT_SQTAIL 0 n.val then s
    else if x.toNat ≥ sqSize s n.val then slotFault (hostErr s 3 n.val) n.val 1
    else fetchMore (s.wr Reg.HB_SLOT_SQTAIL 0 x.toNat n.val) n.val) :=
  congrArg Host.Outcome.next (doorbell_enabled _ ho hr hl he)

/-- R483: the head doorbell of an enabled slot. -/
theorem exec_cqHeadDoorbell : exec (.cqHeadDoorbell n x) s = .next (if x.toNat = s.rd Reg.HB_SLOT_CQHEAD 0 n.val then s
    else if x.toNat ≥ cqSize s n.val ∨ (x.toNat + cqSize s n.val - s.rd Reg.HB_SLOT_CQHEAD 0 n.val) % cqSize s n.val >
      (s.rd Reg.HB_SLOT_CQTAIL 0 n.val + cqSize s n.val - s.rd Reg.HB_SLOT_CQHEAD 0 n.val) % cqSize s n.val then
      slotFault (hostErr s 3 n.val) n.val 1
    else fetchMore (s.wr Reg.HB_SLOT_CQHEAD 0 x.toNat n.val) n.val) :=
  congrArg Host.Outcome.next (doorbell_enabled _ ho hr hl he)

end Doorbell

theorem dropRead_only {q : HostRead} (hs : s.hostReads = [q]) : dropRead s q.id = { s with hostReads := [] } := by
  simp [dropRead, hs]

/-- R476: a failed, refused or missing completion. -/
theorem exec_readFails {q : HostRead} (hs : s.hostReads = [q]) {c : Instr}
    (hc : c ∈ [Instr.hostCompletion q.id .ur, .hostCompletion q.id .ca, .completionTimeout q.id]) :
    exec c s = .next (readFails s q) := by
  have hFind : s.hostReads.find? (fun p => p.id == q.id) = some q := by
    rw [hs, List.find?_cons_of_pos (by simp)]
  simp only [List.mem_cons, List.not_mem_nil, or_false] at hc
  rcases hc with rfl | rfl | rfl
  · show execHostCompletion q.id .ur s = _
    simp only [execHostCompletion, hFind]
  · show execHostCompletion q.id .ca s = _
    simp only [execHostCompletion, hFind]
  · show execCompletionTimeout q.id s = _
    rw [execCompletionTimeout, hFind]

section Reads
variable {n : Fin 64} {q : HostRead} (hs : s.hostReads = [q]) (hq : q.what = .entry n.val)
include hs hq

theorem exec_entryFetch (bs : List Byte) :
    exec (.entryFetch n bs) s = .next (entriesArrive { s with hostReads := [] } n.val bs) := by
  show execEntryFetch n bs s = _
  rw [execEntryFetch, hs, List.find?_cons_of_pos (by simp [hq])]
  exact congrArg (fun t => Host.Outcome.next (entriesArrive t n.val bs)) (dropRead_only hs)

theorem exec_hostCompletion_data (bs : List Byte) :
    exec (.hostCompletion q.id (.data bs)) s = .next (entriesArrive { s with hostReads := [] } n.val bs) := by
  show execHostCompletion q.id (.data bs) s = _
  unfold execHostCompletion
  rw [hs, List.find?_cons_of_pos (by simp)]
  simp only [hq, dropRead_only hs]

/-- R476, R480: a fetch of entries that fails puts its slot at fault, and nothing is awaited any more. -/
theorem readFails_entry : (readFails s q).rd Reg.HB_SLOT_STATE 0 n.val = slFaulted ∧
    (readFails s q).rd Reg.HB_SLOT_REASON 0 n.val = 2 ∧ (readFails s q).rd Reg.HB_HERR_KIND 0 = 4 ∧
    ((readFails s q).slx n.val).asked = 0 := by
  have hFails : readFails s q = slotFault (((hostErr { s with hostReads := [] } 4 n.val).lg LogKind.hostRead hubN [q.addr]).setSlx n.val
      { (hostErr { s with hostReads := [] } 4 n.val).slx n.val with asked := 0 }) n.val 2 := by
    rw [readFails, dropRead_only hs]
    simp only [hq]
    rfl
  rw [hFails]
  obtain ⟨hState, hReason⟩ := slotFault_effect (((hostErr { s with hostReads := [] } 4 n.val).lg LogKind.hostRead hubN [q.addr]).setSlx n.val
    { (hostErr { s with hostReads := [] } 4 n.val).slx n.val with asked := 0 }) n.val 2 (by decide)
  refine ⟨hState, hReason, ?_, ?_⟩
  · refine (State.rd_congr (signal_regs _ _) ..).trans ((State.rd_wr_ne _ (by decide) ..).trans ((State.rd_wr_ne _ (by decide) ..).trans ?_))
    exact hostErr_kind _ 4 n.val
  · refine (congrArg SlotX.asked (State.slx_congr (signal_slots ..) _)).trans ?_
    exact congrArg SlotX.asked (State.slx_setSlx_same ..)

end Reads

/-- R480: entries that arrive for a slot that no longer fetches wait in ring order, and the head moves past them. -/
theorem entriesArrive_effect {n : Nat} (bs : List Byte) (ha : (s.slx n).asked ≠ 0) (he : s.rd Reg.HB_SLOT_STATE 0 n ≠ slEnabled) :
    (entriesArrive s n bs).rd Reg.HB_SLOT_SQHEAD 0 n = (s.rd Reg.HB_SLOT_SQHEAD 0 n + (s.slx n).asked) % sqSize s n % 2 ^ 16 ∧
      ((entriesArrive s n bs).slx n).waiting = (s.slx n).waiting ++
        (List.range (s.slx n).asked).map fun i => parseEntry ((bs.drop (64 * i)).take 64) := by
  unfold entriesArrive
  extract_lets x k es s1
  rw [if_neg ha]
  have hState : (s1.wr Reg.HB_SLOT_SQHEAD 0 ((s.rd Reg.HB_SLOT_SQHEAD 0 n + k) % sqSize s n) n).rd Reg.HB_SLOT_STATE 0 n ≠ slEnabled := by
    rw [State.rd_wr_ne _ (by decide)]
    exact he
  have hFetch : ∀ t : State, t.rd Reg.HB_SLOT_STATE 0 n ≠ slEnabled → fetchMore t n = t := fun t h => by
    rw [fetchMore, if_pos (.inl h)]
  rw [hFetch _ hState]
  exact ⟨State.rd_wr_same .., congrArg SlotX.waiting (State.slx_setSlx_same ..)⟩

theorem exec_noRead (hs : s.hostReads = []) (id : Nat) (c : Completion) :
    exec (.hostCompletion id c) s = .next s ∧ exec (.completionTimeout id) s = .next s := by
  refine ⟨?_, ?_⟩
  · show execHostCompletion id c s = _
    simp only [execHostCompletion, hs, List.find?_nil]
  · show execCompletionTimeout id s = _
    rw [execCompletionTimeout, hs]
    rfl

theorem endCopy_regs (s : State) (n uid : Nat) : (endCopy s n uid).regs = s.regs := by
  unfold endCopy
  exact (dropCopy_keeps _ n uid 0).1.trans rfl

/-- R476: the loss of the secure state clears IDE_OK whatever operations it ends. -/
theorem ideLost_ideOk (s : State) : (ideLost s).rb Reg.HB_HOSTCFG_IDE_OK 0 = false := by
  have hEnd : ∀ (t : State) (p : Nat × SlotRun), SameRegsBut finishIds t (finishRunOf (endCopy t p.1 p.2.uid) p.1 p.2 9 0 p.2.done) :=
    fun t p => (SameRegsBut.of_regs (endCopy_regs t p.1 p.2.uid)).trans (finishRunOf_sameRegs (endCopy t p.1 p.2.uid) p.1 p.2 9 0 p.2.done)
  have hEnds : SameRegsBut finishIds (s.wb Reg.HB_HOSTCFG_IDE_OK 0 false) (ideLost s) := by
    unfold ideLost
    exact SameRegsBut.foldl hEnd _ _
  exact (hEnds.rb (by decide) ..).trans (State.rb_wb_same _ _ _ _ _ _ (by decide))

section Irqs
variable {n : Fin 64}

theorem exec_irqModerationTimeout_idle (h : (s.slx n.val).irqs = 0 ∨ s.rd Reg.HB_SLOT_IMODT 0 n.val = 0) :
    exec (.irqModerationTimeout n) s = .next s :=
  congrArg Host.Outcome.next (if_pos h)

theorem signal_out (v : Nat) (ho : hostOpen s = true) : (signal s v).out = s.out ++ [.msix v] := by
  rw [signal, if_pos ho]
  rfl

/-- R486: the moderation timer signals once. -/
theorem exec_irqModerationTimeout_signals (hi : (s.slx n.val).irqs ≠ 0) (ht : s.rd Reg.HB_SLOT_IMODT 0 n.val ≠ 0) : ∃ t,
    exec (.irqModerationTimeout n) s = .next t ∧ (t.slx n.val).irqs = 0 ∧ SameRegs s t ∧
      (hostOpen s = true → t.out = s.out ++ [.msix n.val]) := by
  refine ⟨_, congrArg Host.Outcome.next (if_neg (not_or.2 ⟨hi, ht⟩)), ?_, sameRegs_of_regs (signal_regs _ _), fun ho => ?_⟩
  · rw [State.slx_congr (signal_slots ..), State.slx_setSlx_same]
  · exact signal_out n.val ho

end Irqs

section Ends
variable {n : Fin 64} {r : SlotRun} (hr : (s.slx n.val).running = [r]) 
include hr

/-- R483, R487: a slot's only copy ends when it failed, or when nothing of it is under way and it is complete or its slot is
being disabled. -/
theorem exec_hostCopyComplete_ends (hop : r.ent.opc = opCopyIn ∨ r.ent.opc = opCopyOut)
    (h : r.fault.isSome = true ∨ (copyBusy s n.val r.uid = false ∧
      (r.ent.len ≤ r.done ∨ s.rd Reg.HB_SLOT_STATE 0 n.val = slDisabling))) :
    (s.rd Reg.HB_SLOT_STATE 0 n.val = slDisabling →
      exec (.hostCopyComplete n) s = .next (finishRunOf (endCopy s n.val r.uid) n.val r 10 0 r.done)) ∧
    (s.rd Reg.HB_SLOT_STATE 0 n.val ≠ slDisabling →
      (∀ f, r.fault = some f → exec (.hostCopyComplete n) s = .next (finishRunOf (endCopy s n.val r.uid) n.val r f.1 0 f.2)) ∧
      (r.fault = none → exec (.hostCopyComplete n) s = .next (finishRunOf s n.val r 0 0 r.ent.len))) := by
  show (_ → execHostCopyComplete n s = _) ∧ (_ → (∀ f, _ → execHostCopyComplete n s = _) ∧ (_ → execHostCopyComplete n s = _))
  unfold execHostCopyComplete
  simp only [hr]
  rw [List.find?_cons_of_pos (by simpa using ⟨hop, h⟩)]
  refine ⟨fun hd => ?_, fun hd => ⟨fun f hf => ?_, fun hf => ?_⟩⟩
  · simp only [hd, if_true]
  · simp only [hd, if_false, hf]
  · simp only [hd, if_false, hf]

theorem exec_hostCopyComplete_busy (h : r.fault = none) (hb : copyBusy s n.val r.uid = true ∨
      (r.done < r.ent.len ∧ s.rd Reg.HB_SLOT_STATE 0 n.val ≠ slDisabling)) :
    exec (.hostCopyComplete n) s = .next s := by
  show execHostCopyComplete n s = _
  unfold execHostCopyComplete
  simp only [hr]
  rw [List.find?_cons_of_neg, List.find?_nil]
  rcases hb with hb | ⟨hl, hd⟩
  · simp [h, hb]
  · simp [h, hd, Nat.not_le.2 hl]

theorem exec_sendtoExpiry (hop : r.ent.opc = opSend) : exec (.sendtoExpiry n (BitVec.ofNat 16 r.ent.tag)) s =
    .next (if r.ent.tag < 2 ^ 16 then finishRunOf s n.val r 4 0 r.ent.arg else s) := by
  have hTag : (r.ent.tag == (BitVec.ofNat 16 r.ent.tag).toNat) = decide (r.ent.tag < 2 ^ 16) := by
    rw [BitVec.toNat_ofNat, Bool.eq_iff_iff, beq_iff_eq, decide_eq_true_iff]
    omega
  show execSendtoExpiry n _ s = _
  by_cases h : r.ent.tag < 2 ^ 16
  · simp only [execSendtoExpiry, hr, List.find?_cons, hTag, hop, h, decide_true, beq_self_eq_true, Bool.true_or, Bool.and_self, if_true]
  · simp only [execSendtoExpiry, hr, List.find?_cons, List.find?_nil, hTag, h, decide_false, Bool.and_false, if_false]

end Ends

/-- Settles O54: each reset, doorbell, completion and expiry by what its slot holds. -/
theorem hostResetsAndRings : Obligations.HostResetsAndRings := by
  unfold Obligations.HostResetsAndRings
  intro s
  refine ⟨fun c hc => exec_hostReset_effect hc, rfl, exec_puntyWatchdog, fun n r => ⟨fun h => ?_, fun hl hw => ?_⟩,
    fun n x ho hr => ⟨fun h t ht => ?_, fun hl he => ?_, fun hl he => ?_⟩, fun n q bs hs hq => ?_,
    fun id c hs => exec_noRead hs id c, ?_, fun n => ?_⟩
  · exact ⟨⟨_, exec_slotEnable_unlicensed h⟩, exec_slotDisable_unlicensed h⟩
  · refine ⟨exec_slotDisable hl hw, fun hd => disableSlot_endsDisabled fun h => hd h.1, fun he => ?_, fun he hd => ⟨[n.val, Reg.HB_SLOT_EN.id], ?_⟩,
      fun he hd => (exec_slotEnable_effect hl hw he hd).1, fun he hd => (exec_slotEnable_effect hl hw he hd).2⟩
    · exact (exec_slotEnable hl hw).trans (congrArg Host.Outcome.next (if_pos he))
    · refine (exec_slotEnable hl hw).trans (congrArg Host.Outcome.next ?_)
      rw [if_neg (by simp [he]), if_pos hd]
  · subst ht
    exact ⟨congrArg Host.Outcome.next (doorbell_unlicensed _ ho hr h), congrArg Host.Outcome.next (doorbell_unlicensed _ ho hr h)⟩
  · exact ⟨congrArg Host.Outcome.next (doorbell_notEnabled _ ho hr hl he), congrArg Host.Outcome.next (doorbell_notEnabled _ ho hr hl he)⟩
  · rw [exec_sqTailDoorbell ho hr hl he, exec_cqHeadDoorbell ho hr hl he]
    refine ⟨fun h => congrArg _ (if_pos h), fun hne hlt => ?_, fun hne hge => ?_, fun h => congrArg _ (if_pos h), fun hne hge => ?_,
      fun hne hlt hle => ?_⟩
    · rw [if_neg hne, if_neg (Nat.not_le.2 hlt)]
    · exact ⟨_, congrArg Host.Outcome.next ((if_neg hne).trans (if_pos hge)), slotFault_effect _ _ 1 (by decide)⟩
    · exact ⟨_, congrArg Host.Outcome.next ((if_neg hne).trans (if_pos (.inl hge))), slotFault_effect _ _ 1 (by decide)⟩
    · rw [if_neg hne, if_neg (not_or.2 ⟨Nat.not_le.2 hlt, Nat.not_lt.2 hle⟩)]
  · refine ⟨exec_entryFetch hs hq bs, exec_hostCompletion_data hs hq bs, fun ha he => ?_, fun c hc => ?_⟩
    · exact ⟨_, exec_entryFetch hs hq bs, entriesArrive_effect (s := { s with hostReads := [] }) bs ha he⟩
    · exact ⟨_, exec_readFails hs hc, readFails_entry hs hq⟩
  · exact ⟨_, rfl, ideLost_ideOk s, sameMemory_of_exec (i := .ideSecureLoss) rfl (execIdeSecureLoss_mem s)⟩
  · refine ⟨exec_irqModerationTimeout_idle, exec_irqModerationTimeout_signals, fun r hr hop => ⟨fun hd => ⟨fun f hf => ?_, fun hf hl hb => ?_,
      fun hf h => ?_⟩, fun hd => ⟨fun h => ?_, fun hf hb => ?_⟩⟩, fun r hr hop => exec_sendtoExpiry hr hop⟩
    · obtain ⟨hFault, -⟩ := (exec_hostCopyComplete_ends hr hop (.inl (by simp [hf]))).2 hd
      exact hFault f hf
    · obtain ⟨-, hDone⟩ := (exec_hostCopyComplete_ends hr hop (.inr ⟨hb, .inl hl⟩)).2 hd
      exact hDone hf
    · exact exec_hostCopyComplete_busy hr hf (h.symm.imp_right fun h => ⟨h, hd⟩)
    · exact (exec_hostCopyComplete_ends hr hop (h.imp_right fun h => ⟨h, .inr hd⟩)).1 hd
    · exact exec_hostCopyComplete_busy hr hf (.inl hb)

end Sys2Proof.Machine
end

section
/-! O55. The operations of the sequence slots, held steps, mailboxes and verdicts (R479, R480, R485, R490, R491, R492). -/

namespace Sys2Proof.Machine

variable {s : State}

section Start
variable {n : Fin 64} {e : SqEntry} {l : List SqEntry}

/-- The operation that the front entry of a slot becomes (R480). -/
def startedRun (s : State) (n : Nat) (e : SqEntry) : SlotRun := { uid := (s.slx n).uid, ent := e }

/-- The state in which the front entry of a slot has become a running operation (R480). -/
def startedState (s : State) (n : Nat) (e : SqEntry) (l : List SqEntry) : State :=
  s.setSlx n { s.slx n with waiting := l, running := (s.slx n).running ++ [startedRun s n e], uid := (s.slx n).uid + 1 }

theorem startEntry_empty (hw : (s.slx n.val).waiting = []) (is : SqEntry → Bool) (k : State → Nat → SlotRun → State) :
    startEntry s n is k = s := by
  simp only [startEntry, hw]

/-- R480, R485: the front entry of a slot may start. -/
def MayStart (s : State) (n : Fin 64) (e : SqEntry) (l : List SqEntry) : Prop :=
  (s.slx n.val).waiting = e :: l ∧ s.rd Reg.HB_SLOT_STATE 0 n.val = slEnabled ∧ startRoom s n.val = true ∧
    (e.fence = false ∨ (s.slx n.val).running = [])

variable (h : MayStart s n e l)
include h

theorem startEntry_other {is : SqEntry → Bool} (k : State → Nat → SlotRun → State) (hi : is e = false) : startEntry s n is k = s := by
  obtain ⟨hw, -⟩ := h
  simp only [startEntry, hw, hi, Bool.not_false, Bool.true_or, if_true]

theorem startEntry_started {is : SqEntry → Bool} (k : State → Nat → SlotRun → State) (hi : is e = true) :
    startEntry s n is k = if entryOk e then k (startedState s n.val e l) n.val (startedRun s n.val e)
      else finishRunOf (startedState s n.val e l) n.val (startedRun s n.val e) 1 0 0 := by
  obtain ⟨hw, hs, hr, hf⟩ := h
  have hFence : (e.fence && !(s.slx n.val).running.isEmpty) = false := by
    rcases hf with hf | hf <;> simp [hf]
  simp only [startEntry, hw, hi, hs, hr, hFence, bne_self_eq_false, Bool.not_true, Bool.or_self, if_false, Bool.false_eq_true,
    startedState, startedRun]

theorem startEntry_runs {is : SqEntry → Bool} (k : State → Nat → SlotRun → State) (hi : is e = true) (hok : entryOk e = true) :
    startEntry s n is k = k (startedState s n.val e l) n.val (startedRun s n.val e) :=
  (startEntry_started h k hi).trans (if_pos hok)

theorem startEntry_bad {is : SqEntry → Bool} (k : State → Nat → SlotRun → State) (hi : is e = true) (hok : entryOk e = false) :
    startEntry s n is k = finishRunOf (startedState s n.val e l) n.val (startedRun s n.val e) 1 0 0 :=
  (startEntry_started h k hi).trans (if_neg (by simp [hok]))

end Start

/-- The operations of a slot, each with whether the entry `e` asks for it. -/
noncomputable def slotOps (n : Fin 64) (e : SqEntry) : List (Instr × Bool) :=
  [(.sqNop n, decide (e.opc = 0 ∨ 8 < e.opc)), (.copyIn n, decide (e.opc = 1 ∧ e.arg % 2 = 0)),
    (.zfill n, decide (e.opc = 1 ∧ e.arg % 2 = 1)), (.copyOut n, decide (e.opc = 2)), (.send n, decide (e.opc = 3)),
    (.sendr n, decide (e.opc = 4)), (.awaitRun n, decide (e.opc = 5)), (.stepWait n, decide (e.opc = 6)),
    (.stepGo n, decide (e.opc = 7)), (.query n, decide (e.opc = 8))]

/-- Each operation of a slot starts the front entry where the entry is its own. -/
theorem exec_slotOp {n : Fin 64} {c : Instr × Bool} {e : SqEntry} (hc : c ∈ slotOps n e) :
    ∃ (is : SqEntry → Bool) (k : State → Nat → SlotRun → State), is e = c.2 ∧ ∀ s, exec c.1 s = .next (startEntry s n is k) := by
  simp only [slotOps, List.mem_cons, List.not_mem_nil, or_false] at hc
  rcases hc with rfl | rfl | rfl | rfl | rfl | rfl | rfl | rfl | rfl | rfl
  · exact ⟨_, _, Bool.eq_iff_iff.2 (by simp [opNop, opQuery]), fun _ => rfl⟩
  · exact ⟨_, _, Bool.eq_iff_iff.2 (by simp [opCopyIn]), fun _ => rfl⟩
  · exact ⟨_, _, Bool.eq_iff_iff.2 (by simp [opCopyIn]), fun _ => rfl⟩
  · exact ⟨_, _, rfl, fun _ => rfl⟩
  · exact ⟨_, _, rfl, fun _ => rfl⟩
  · exact ⟨_, _, rfl, fun _ => rfl⟩
  · exact ⟨_, _, rfl, fun _ => rfl⟩
  · exact ⟨_, _, rfl, fun _ => rfl⟩
  · exact ⟨_, _, rfl, fun _ => rfl⟩
  · exact ⟨_, _, rfl, fun _ => rfl⟩

/-- A slot with nothing waiting does nothing. -/
theorem exec_slotOp_empty {n : Fin 64} (hw : (s.slx n.val).waiting = []) {c : Instr}
    (hc : c ∈ [Instr.sqNop n, .copyIn n, .zfill n, .copyOut n, .send n, .sendr n, .awaitRun n, .stepWait n, .stepGo n, .query n]) :
    exec c s = .next s := by
  have hFirst : c ∈ (slotOps n (parseEntry [])).map Prod.fst := hc
  obtain ⟨⟨_, b⟩, hb, rfl⟩ := List.mem_map.1 hFirst
  obtain ⟨is, k, -, hx⟩ := exec_slotOp hb
  rw [hx, startEntry_empty hw]

section Mail

theorem setMbx_keeps (m : Nat) (x : MailX) : (s.setMbx m x).regs = s.regs := rfl

/-- A result that waits for nothing and finds its mailbox free is published. -/
theorem publish_publishes {m len : Nat} (status : Nat) (hc : (s.mbx m).commit = some (len, none))
    (hp : s.rb Reg.HB_MBCTL_PUBLISHED 0 m = false) : (publish s m status).rb Reg.HB_MBCTL_PUBLISHED 0 m = true := by
  simp only [publish, hc, hp, Bool.false_eq_true, if_false]
  rw [State.rb, State.rd_congr (signal_regs _ _)]
  exact (State.rb_wr_ne _ (by decide) ..).trans (State.rb_wb_same _ _ _ _ _ _ (by decide))

theorem publish_nothing {m : Nat} (status : Nat) (hc : (s.mbx m).commit = none) : publish s m status = s := by
  simp only [publish, hc]

theorem endQueries_sameRegs (s : State) (m : Nat) : SameRegsBut finishIds s (endQueries s m) := by
  unfold endQueries
  split
  · exact .refl
  · exact SameRegsBut.foldl (fun (t : State) (p : Nat × SlotRun) => finishRunOf_sameRegs t p.1 p.2 0 0 0) _ s

/-- R491: a result committed to a free mailbox is published in it. -/
theorem commitMail_publishes {m : Nat} (len : Nat) (hp : s.rb Reg.HB_MBCTL_PUBLISHED 0 m = false) :
    (endQueries (commitMail s m len none) m).rb Reg.HB_MBCTL_PUBLISHED 0 m = true := by
  refine (SameRegsBut.rb (endQueries_sameRegs _ m) (by decide) ..).trans (publish_publishes (len := len) 0 ?_ ?_)
  · exact congrArg MailX.commit (State.mbx_setMbx_same ..)
  · exact (State.rb_wr_ne _ (by decide) ..).trans hp

end Mail

end Sys2Proof.Machine
end

section
/-! O55. What each operation makes of its entry, and the held steps, mailboxes and verdicts (R479, R490, R491, R492, R466). -/

namespace Sys2Proof.Machine

variable {s : State}

section Operations
variable {n : Fin 64} {e : SqEntry} {l : List SqEntry} (h : MayStart s n e l) (hok : entryOk e = true)

/-- R479: an entry that is well formed runs as its operation says. -/
theorem startedState_rd (F : Field) (u i j : Nat) : (startedState s n.val e l).rd F u i j = s.rd F u i j :=
  State.rd_congr (State.setSlx_regs ..) ..

include h hok

/-- A send of a ring record that carries nothing is tried at once; another asks the host for its bytes first. -/
theorem exec_sendr_runs (hop : e.opc = 4) : exec (.sendr n) s = .next (if e.len = 0 then
    hubTryRing (startedState s n.val e l) n.val (startedRun s n.val e)
    else sendrAsk (startedState s n.val e l) n.val (startedRun s n.val e)) := by
  refine congrArg Host.Outcome.next ((startEntry_runs h _ (by simp [hop, opSendr]) hok).trans ?_)
  show (if e.len = 0 then _ else _) = _
  by_cases hl : e.len = 0
  · have hOp : (startedRun s n.val e).ent.opc ≠ opSend := by simp [startedRun, hop, opSend]
    have hData : (startedRun s n.val e).data.length ≥ (startedRun s n.val e).ent.len := by simp [startedRun, hl]
    rw [if_pos hl, if_pos hl, hubTry, if_neg hOp, if_pos hData]
  · rw [if_neg hl, if_neg hl]

theorem exec_send_runs (hop : e.opc = 3) :
    exec (.send n) s = .next (hubTrySend (startedState s n.val e l) n.val (startedRun s n.val e)) := by
  refine congrArg Host.Outcome.next ((startEntry_runs h _ (by simp [hop, opSend]) hok).trans ?_)
  exact if_pos (show e.opc = opSend from hop)

/-- R480: a wait for a step that is past completes. -/
theorem exec_stepWait_runs (hop : e.opc = 6) : exec (.stepWait n) s = .next
    (if waitStep e < s.rd Reg.PZ_STEP_STEP 0 0 + 2 ^ 32 * s.rd Reg.PZ_STEP_STEP 0 1 then
      finishRunOf (startedState s n.val e l) n.val (startedRun s n.val e) 0 0 e.arg else startedState s n.val e l) := by
  rw [← startedState_rd (n := n) (e := e) (l := l) Reg.PZ_STEP_STEP 0 0 0,
    ← startedState_rd (n := n) (e := e) (l := l) Reg.PZ_STEP_STEP 0 1 0]
  exact congrArg Host.Outcome.next (startEntry_runs h _ (by simp [hop, opStepWait]) hok)

/-- R491: a query publishes its report in the mailbox it names. -/
theorem exec_query_publishes (hop : e.opc = 8) : ∃ u, exec (.query n) s = .next u ∧
    (s.rb Reg.HB_MBCTL_PUBLISHED 0 e.arg2 = false → u.rb Reg.HB_MBCTL_PUBLISHED 0 e.arg2 = true) := by
  refine ⟨_, congrArg Host.Outcome.next (startEntry_runs h _ (by simp [hop, opQuery]) hok), fun hp => ?_⟩
  refine commitMail_publishes _ ((congrArg (· != 0) ?_).trans hp)
  exact (State.rd_congr (setMbx_keeps ..) ..).trans (startedState_rd (s := s) (e := e) (l := l) Reg.HB_MBCTL_PUBLISHED 0 e.arg2 0)

end Operations

section Steps

theorem beginStep_sameRegs (s : State) (g : Gather) : SameRegsBut (entryIds ++ powerUpIds) s (beginStep s g) := by
  unfold beginStep
  extract_lets cs
  have hEntered := KeepsGathers.foldl (ids := entryIds) (fun t c => KeepsGathers.trans (KeepsGathers.setCx (s := t) (c := c)
    (x := { t.cx c with endAt := none })) (enterAt_keeps _ c 0 (rungOf t g))) cs
      (s.setGx g { s.gx g with withheld := false, released := true })
  exact (SameRegsBut.of_regs rfl).trans ((hEntered.1.mono (List.subset_append_left ..)).trans
    ((startWakes_onlyWakes ..).1.1.mono (List.subset_append_right ..)))

/-- R490: a release is over when the gathers have begun their steps. -/
theorem releaseStep_held (s : State) : (releaseStep s).rb Reg.HB_STEPCTL_HELD 0 = false := by
  have hBegun : SameRegsBut (entryIds ++ powerUpIds) (s.wb Reg.HB_STEPCTL_HELD 0 false) (releaseStep s) := by
    unfold releaseStep
    refine .foldl (fun t g => ?_) _ _
    extract_lets x st
    split
    · exact beginStep_sameRegs t g
    · split
      · exact .of_regs rfl
      · exact .refl
  exact (hBegun.rb (by decide) ..).trans (State.rb_wb_same _ _ _ _ _ _ (by decide))

theorem spendRelease_notHeld (hh : s.rb Reg.HB_STEPCTL_HELD 0 = false) : spendRelease s = s :=
  if_pos (by simp [hh])

/-- R490: clearing HOLD releases a step that is held. -/
theorem spendRelease_notHold (hh : s.rb Reg.HB_STEPCTL_HELD 0 = true) (ho : s.rb Reg.HB_STEPCTL_HOLD 0 = false) :
    spendRelease s = releaseStep s := by
  rw [spendRelease, if_neg (by simp [hh]), if_pos (by simp [ho])]

variable {r : Requester} (hw : mayWrite .any r .hub 0 = true)
include hw

theorem exec_stepHoldWrite_free (hh : s.rb Reg.HB_STEPCTL_HELD 0 = false) (b : Bool) :
    exec (.stepHoldWrite r b) s = .next (s.wb Reg.HB_STEPCTL_HOLD 0 b) :=
  congrArg Host.Outcome.next ((if_pos hw).trans (spendRelease_notHeld ((State.rb_wr_ne _ (by decide) ..).trans hh)))

theorem exec_stepHoldWrite_releases (hh : s.rb Reg.HB_STEPCTL_HELD 0 = true) :
    exec (.stepHoldWrite r false) s = .next (releaseStep (s.wb Reg.HB_STEPCTL_HOLD 0 false)) :=
  congrArg Host.Outcome.next ((if_pos hw).trans (spendRelease_notHold ((State.rb_wr_ne _ (by decide) ..).trans hh)
    (State.rb_wb_same _ _ _ _ _ _ (by decide))))

theorem exec_stepctlGo_banks (hh : s.rb Reg.HB_STEPCTL_HELD 0 = false) (hb : s.rd Reg.HB_STEPCTL_BANK 0 < 65535) :
    exec (.stepctlGo r) s = .next (s.wr Reg.HB_STEPCTL_BANK 0 (s.rd Reg.HB_STEPCTL_BANK 0 + 1)) := by
  refine congrArg Host.Outcome.next ((if_pos hw).trans ?_)
  unfold bankSteps
  extract_lets b s1
  have hs1 : s1 = s := if_neg (by simp only [b]; omega)
  have hb' : min b 65535 = s.rd Reg.HB_STEPCTL_BANK 0 + 1 := by simp only [b]; omega
  rw [hs1, hb']
  exact spendRelease_notHeld ((State.rb_wr_ne _ (by decide) ..).trans hh)

/-- R490: a GO beyond the bank is logged and the bank stays full. -/
theorem exec_stepctlGo_full (hh : s.rb Reg.HB_STEPCTL_HELD 0 = false) (hb : s.rd Reg.HB_STEPCTL_BANK 0 = 65535) :
    exec (.stepctlGo r) s = .next ((s.lg LogKind.bankFull hubN [1]).wr Reg.HB_STEPCTL_BANK 0 65535) := by
  refine congrArg Host.Outcome.next ((if_pos hw).trans ?_)
  unfold bankSteps
  rw [hb]
  exact spendRelease_notHeld ((State.rb_wr_ne _ (by decide) ..).trans hh)

end Steps

section Mailboxes
variable {r : Requester} {m : Fin 16}

/-- R491: RELEASE clears PUBLISHED; with no result waiting nothing else is published. -/
theorem exec_mailboxRelease (hw : mayWrite .host r .hub 0 = true) (hc : (s.mbx m.val).commit = none) : ∃ t,
    exec (.mailboxRelease r m) s = .next t ∧ t.rb Reg.HB_MBCTL_PUBLISHED 0 m.val = false ∧ SameMemory s t := by
  have hx : exec (.mailboxRelease r m) s = .next (endQueries (s.wb Reg.HB_MBCTL_PUBLISHED 0 false m.val) m.val) := by
    refine congrArg Host.Outcome.next ((if_pos hw).trans (congrArg (endQueries · m.val) ?_))
    exact publish_nothing 0 hc
  refine ⟨_, hx, ?_, sameMemory_of_exec hx (execMailboxRelease_mem s r m)⟩
  exact (SameRegsBut.rb (endQueries_sameRegs _ m.val) (by decide) ..).trans (State.rb_wb_same _ _ _ _ _ _ (by decide))

theorem wordFields_mailStatus (m : Fin 16) : wordFields .hub (0x10000 + 0x400 * m.val) = [(Reg.HB_MB_WORD, m.val, 0)] := by
  revert m
  decide +kernel

theorem markRead_out (fs : List (Field × Nat × Nat)) : (markRead s fs).out = s.out := by
  unfold markRead
  split
  · split <;> rfl
  · rfl

/-- R492: a mailbox without a published result reads as pending. -/
theorem readField_pending (hp : s.rb Reg.HB_MBCTL_PUBLISHED 0 m.val = false) : readField s Reg.HB_MB_WORD 0 m.val 0 = 1 := by
  have hGather : gatherFields.contains Reg.HB_MB_WORD = false := by decide +kernel
  have hHidden : gatherHidden s Reg.HB_MB_WORD 0 m.val = false := by
    rw [gatherHidden, hGather, show decide (0x2000 ≤ Reg.HB_MB_WORD.base ∧ Reg.HB_MB_WORD.base < 0x3000) = false by decide]
    simp
  rw [readField, if_neg (by decide), if_neg (by simp [hHidden]), if_neg (fun h => absurd h.1 (by decide)), if_neg (by decide),
    if_neg (by decide), if_neg (by decide), if_neg (by decide), if_neg (by decide), if_neg (by decide), if_neg (by decide),
    if_neg (by decide), if_pos ⟨rfl, by simp [hp]⟩]

/-- R13: a register alone in its word, and no half of a latched counter, reads as its word. -/
theorem csrRead_single {sp : Space} {u off i j : Nat} {F : Field} (hf : wordFields sp off = [(F, i, j)])
    (hl : latchFields.contains F = false) (hLow : F ≠ Reg.CA_ROWCYC_LO) (hHigh : F ≠ Reg.CA_ROWCYC_HI) :
    csrRead s sp u off = some (wordOf s u [(F, i, j)], markRead s [(F, i, j)]) := by
  unfold csrRead
  rw [hf]
  dsimp only
  split
  · next heq =>
    simp only [List.cons.injEq, Prod.mk.injEq, and_true] at heq
    obtain ⟨rfl, rfl, rfl⟩ := heq
    rw [if_neg (by rw [hl]; exact Bool.false_ne_true), if_neg hLow, if_neg hHigh]
  · next heq =>
    simp only [List.cons.injEq, Prod.mk.injEq, and_true] at heq
    obtain ⟨rfl, rfl, rfl⟩ := heq
    rw [if_neg (by rw [hl]; exact Bool.false_ne_true)]
  · rfl

/-- R492: the host reads word 0 of a mailbox. -/
theorem exec_mailboxStatusRead (ho : hostOpen s = true) : ∃ t v, exec (.mailboxStatusRead m) s = .next t ∧
    t.out = s.out ++ [.words [v]] ∧ (s.rb Reg.HB_MBCTL_PUBLISHED 0 m.val = false → v = 1) := by
  have hRead : csrRead s .hub 0 (0x10000 + 0x400 * m.val) = some (wordOf s 0 [(Reg.HB_MB_WORD, m.val, 0)],
      markRead s [(Reg.HB_MB_WORD, m.val, 0)]) :=
    csrRead_single (wordFields_mailStatus m) (by decide +kernel) (by decide) (by decide)
  refine ⟨(markRead s [(Reg.HB_MB_WORD, m.val, 0)]).emit (.words [wordOf s 0 [(Reg.HB_MB_WORD, m.val, 0)]]), _, ?_,
    congrArg (· ++ _) (markRead_out _), fun hp => ?_⟩
  · show execMailboxStatusRead m s = _
    simp only [execMailboxStatusRead, hostRequest_open ho, hRead]
  · rw [wordOf, readField_pending hp]
    rfl

end Mailboxes

section Verdicts
variable {v : VerdictMsg}

/-- R466: a verdict reaches its core on a die that has clock, and wakes it where it sleeps. -/
theorem exec_verdict_core {c : CoreId} (hd : s.rb Reg.BT_CLKSTAT_STOPPED c.die.val = false) :
    exec (.verdict (.core c) v) s = .next (if cstateOf (retrySend (verdictCore s c v) c) c < 3 then retrySend (verdictCore s c v) c
      else startWakes (retrySend (verdictCore s c v) c) c.die [c] false) :=
  congrArg Host.Outcome.next (if_neg (by rw [hd]; exact Bool.false_ne_true))

theorem exec_verdict_gather {g : Gather} (hd : s.rb Reg.BT_CLKSTAT_STOPPED g.die.val = false) :
    exec (.verdict (.gather g) v) s = .next (verdictGather s g v) :=
  congrArg Host.Outcome.next (if_neg (by rw [hd]; exact Bool.false_ne_true))

end Verdicts

/-- Settles O55: the front entry by the operation it asks for, the others by their command. -/
theorem slotOperationsAndMailboxes : Obligations.SlotOperationsAndMailboxes := by
  unfold Obligations.SlotOperationsAndMailboxes
  intro s
  refine ⟨fun n e l hw hs hr hf => ?_, fun n hw c hc => exec_slotOp_empty hw hc, fun r hw => ⟨fun hh => ?_, fun hh => ?_⟩,
    fun r m tag => ⟨fun hw => ?_, fun hw => ?_, fun hw hc => exec_mailboxRelease hw hc, fun hw => ?_⟩,
    fun m ho => exec_mailboxStatusRead ho, fun v => ⟨fun c t hd ht => ?_, fun g hd => exec_verdict_gather hd, rfl⟩⟩
  · have h : MayStart s n e l := ⟨hw, hs, hr, hf⟩
    refine ⟨fun c hc => ?_, fun hok => ⟨fun ho => ?_, fun ho hz => ?_, fun ho hz => ?_, fun ho => ?_, exec_send_runs h hok,
      exec_sendr_runs h hok, fun ho => ?_, exec_stepWait_runs h hok, fun ho => ?_, exec_query_publishes h hok⟩⟩
    · obtain ⟨is, k, hi, hx⟩ := exec_slotOp (show c ∈ slotOps n e from hc)
      exact ⟨fun hc2 => (hx s).trans (congrArg _ (startEntry_other h k (hi.trans hc2))),
        fun hc2 hok => (hx s).trans (congrArg _ (startEntry_bad h k (hi.trans hc2) hok))⟩
    · exact congrArg Host.Outcome.next (startEntry_runs h _ (by simp [ho, opNop]) hok)
    · exact congrArg Host.Outcome.next (startEntry_runs h _ (by simp [ho, hz, opCopyIn]) hok)
    · exact congrArg Host.Outcome.next (startEntry_runs h _ (by simp [ho, hz, opCopyIn]) hok)
    · exact congrArg Host.Outcome.next (startEntry_runs h _ (by simp [ho, opCopyOut]) hok)
    · exact congrArg Host.Outcome.next (startEntry_runs h _ (by simp [ho, opAwaitRun]) hok)
    · exact congrArg Host.Outcome.next (startEntry_runs h _ (by simp [ho, opStepGo]) hok)
  · exact ⟨exec_stepHoldWrite_free hw hh, exec_stepctlGo_banks hw hh, fun hb => ⟨_, exec_stepctlGo_full hw hh hb⟩⟩
  · exact ⟨exec_stepHoldWrite_releases hw hh, releaseStep_held s⟩
  · exact congrArg Host.Outcome.next (if_pos hw)
  · exact ⟨_, congrArg Host.Outcome.next (if_neg (by simp [hw]))⟩
  · exact ⟨_, congrArg Host.Outcome.next (if_neg (by simp [hw]))⟩
  · subst ht
    exact exec_verdict_core hd

end Sys2Proof.Machine
end

section
/-! O51: a staged power-up of an island whose main switch another power-up has closed meanwhile (R515, R517). -/

namespace Sys2Proof.Machine

/-- The later of two power-ups that were asked for while the main switch of island 0 was open: it names the main switch and core 1. -/
def secondPowerUp : PowerUp := { isl := 0, main := true, cores := [1], staged := false }

/-- Reset, but for that power-up, which waits; the first one has completed, so the main switch is closed and LH_ISL.HDR reads 0. -/
def secondPowerUpWaits : State :=
  (State.reset.setPw 0 { State.reset.pw 0 with ups := [secondPowerUp] }).wb Reg.LH_ISL_WAIT 0 true 0

theorem secondPowerUpWaits_facts :
    ((secondPowerUpWaits.pw 0).ups.find? fun q => groupOf q.isl == groupOf 0) = some secondPowerUp ∧
      secondPowerUpWaits.rb Reg.LH_ISL_WAIT 0 0 = true ∧ secondPowerUpWaits.rd Reg.LH_ISL_HDR 0 0 = 0 := by
  decide +kernel

/-- The switch that is closed already is left out of the power-up that is staged. -/
theorem staging_secondPowerUp_ups : ((after (exec (.staging 0 0) secondPowerUpWaits) secondPowerUpWaits).pw 0).ups =
    [{ secondPowerUp with staged := true, main := false }] := by
  decide +kernel

/-- Refutes O51: its clause on STAGING has the power-up found staged as it stands, its main switch with it. A main switch that an
earlier power-up of the island has closed is not closed again: the model stages the second power-up without it. -/
theorem not_estimatesStagingAndCap : ¬ Obligations.EstimatesStagingAndCap := by
  unfold Obligations.EstimatesStagingAndCap
  intro h
  obtain ⟨-, -, -, hStaging, -⟩ := h 0 secondPowerUpWaits
  obtain ⟨hFind, hWait, -⟩ := secondPowerUpWaits_facts
  obtain ⟨t, hx, -, -, hMem, -⟩ := (hStaging 0 secondPowerUp hFind).2 rfl rfl hWait
  have hUps := staging_secondPowerUp_ups
  rw [hx] at hUps
  have hUps : (t.pw 0).ups = [{ secondPowerUp with staged := true, main := false }] := hUps
  have hMem : { secondPowerUp with staged := true } ∈ (t.pw 0).ups := hMem
  rw [hUps] at hMem
  exact absurd hMem (by decide)

end Sys2Proof.Machine
end

section
/-! O52: a core whose self-test report is missing in stage 6 (R561, R530). -/

namespace Sys2Proof.Machine

/-- A core that is present and not yet dead fails its self-test when its report is missing in stage 6. -/
theorem exec_selftestTimeout_stone {s : State} {c : CoreId} (hp : corePresent s c = true) (hd : (s.cx c).dead = false)
    (hs : s.rd Reg.BT_STAT_STAGE 0 = 6) : exec (.selftestTimeout c) s = .next (selftestStone s c) :=
  congrArg Host.Outcome.next (if_pos (by simp [hp, hd, hs]))

/-- Reset, but with the start in stage 6, where the cores report their self-test. -/
def selftestStage : State := State.reset.wr Reg.BT_STAT_STAGE 0 6

theorem selftestStage_facts : corePresent selftestStage ⟨0, 0⟩ = true ∧ (selftestStage.cx ⟨0, 0⟩).dead = false ∧
    selftestStage.rd Reg.BT_STAT_STAGE 0 = 6 := by
  decide +kernel

/-- R530: the model counts a STONE of class 4; the mere death of the core counts none. -/
theorem selftestStage_stones : smGet 0 (selftestStone selftestStage ⟨0, 0⟩).faults.stones 4 = 1 ∧
    smGet 0 (deadCore selftestStage ⟨0, 0⟩ false).faults.stones 4 = 0 := by
  decide +kernel

/-- Refutes O52: its clause on SELFTEST_TIMEOUT has nothing but the core's death follow. The model also counts the failed self-test
as a STONE of class 4 and reports it, as R561 has it. -/
theorem not_startStagesAndResets : ¬ Obligations.StartStagesAndResets := by
  unfold Obligations.StartStagesAndResets
  intro h
  obtain ⟨-, -, -, hSelftest, -⟩ := h selftestStage
  obtain ⟨hPresent, hAlive, hStage⟩ := selftestStage_facts
  have hDead : exec (.selftestTimeout ⟨0, 0⟩) selftestStage = .next (deadCore selftestStage ⟨0, 0⟩ false) :=
    (hSelftest ⟨0, 0⟩).2 hPresent hAlive (.inl hStage)
  have hSame : selftestStone selftestStage ⟨0, 0⟩ = deadCore selftestStage ⟨0, 0⟩ false :=
    Host.Outcome.next.inj ((exec_selftestTimeout_stone hPresent hAlive hStage).symm.trans hDead)
  obtain ⟨hOne, hNone⟩ := selftestStage_stones
  rw [hSame, hNone] at hOne
  exact absurd hOne (by decide)

end Sys2Proof.Machine
end

section
/-! O53. The input, PWR_EN and the pins (R596, R601, R602, R604, R605, R611, R612). -/

namespace Sys2Proof.Machine

variable {s : State}

/-- A register that a clearing names holds its reset value (R549). -/
theorem clearAt_rd {f : Field → Nat → Nat → Nat → Bool} {F : Field} {u i j : Nat}
    (hk : keyParts (fieldKey F u i j) = (F.id, u, i, j)) (hF : (regMap.find? fun G => G.id == F.id) = some F)
    (hf : f F u i j = true) : (clearAt s f).rd F u i j = fieldReset F u i := by
  have hDrop : ∀ m : SMap Nat, (∀ p ∈ m, p.1 ≠ fieldKey F u i j) → smGet (fieldReset F u i) m (fieldKey F u i j) = fieldReset F u i := by
    intro m
    induction m with
    | nil => exact fun _ => rfl
    | cons p r ih =>
      intro h
      obtain ⟨hp, hr⟩ := List.forall_mem_cons.1 h
      rw [smGet, if_neg (Ne.symm hp)]
      exact ih hr
  refine hDrop _ fun p hp he => ?_
  have hHit := (List.mem_filter.1 hp).2
  dsimp only at hHit
  rw [he, hk] at hHit
  simp only [hF, hf, Bool.not_true, Bool.false_eq_true] at hHit

/-- R604: a module without power is not READY. -/
theorem unpowered_notReady (s : State) : (unpowered s).rb Reg.BT_STAT_READY 0 = false := by
  have hKeep : keepsCold s Reg.BT_STAT_READY 0 0 = false := by
    rw [keepsCold, show fuseFields.contains Reg.BT_STAT_READY = false by decide +kernel,
      show (cols.any fun c => pstatF c == Reg.BT_STAT_READY) = false by decide +kernel]
    rfl
  have hClear : (clearRegs s fun F u i => !keepsCold s F u i).rd Reg.BT_STAT_READY 0 = 0 :=
    clearAt_rd (by decide +kernel) (by decide +kernel) (by simp [hKeep])
  exact congrArg (· != 0) ((State.rd_congr (s := clearRegs s fun F u i => !keepsCold s F u i) rfl ..).trans hClear)

theorem inputFails_unpowered (h : s.chip.valid = false) : inputFails s = { s with chip := { s.chip with charging := false } } :=
  if_neg (by simp [h])

/-- What is lost when a running module loses its input, and what is not (R604). -/
theorem inputFails_running (h : s.chip.valid = true) : (inputFails s).chip.valid = false ∧
    (inputFails s).mem = State.reset.mem ∧ (inputFails s).rb Reg.BT_STAT_READY 0 = false ∧ (inputFails s).chip.unclean = true ∧
    (inputFails s).chip.owner = s.chip.owner ∧ (inputFails s).chip.imgs = s.chip.imgs ∧ (inputFails s).chip.lics = s.chip.lics ∧
    (inputFails s).faults.log = s.faults.log ∧ (inputFails s).faults.repair = s.faults.repair ∧
    (inputFails s).pending = s.pending ∧ (inputFails s).chip.pwrEn = s.chip.pwrEn ∧ (inputFails s).chip.needNew = s.chip.needNew := by
  rw [inputFails, if_pos h]
  exact ⟨rfl, rfl, unpowered_notReady _, rfl, rfl, rfl, rfl, rfl, rfl, rfl, rfl, rfl⟩

theorem exec_pwrEnAssert_held {mv lowMs : Nat} (h : s.chip.valid = true ∨ (s.chip.needNew = true ∧ lowMs < 1000)) :
    exec (.pwrEnAssert mv lowMs) s = .next { s with chip := { s.chip with pwrEn := true } } :=
  congrArg Host.Outcome.next (if_pos h)

/-- R601: charging begins with the input within its range. -/
theorem exec_pwrEnAssert_charges {mv lowMs : Nat} (hv : s.chip.valid = false) (hn : s.chip.needNew = false ∨ 1000 ≤ lowMs) :
    exec (.pwrEnAssert mv lowMs) s = .next { s with chip := { s.chip with
      pwrEn := true, charging := decide (40000 ≤ mv ∧ mv ≤ 50000), needNew := false
      input := if 40000 ≤ mv ∧ mv ≤ 50000 then .normal else if mv < 40000 then .low else .high } } := by
  refine (congrArg Host.Outcome.next (if_neg ?_)).trans ?_
  · rcases hn with hn | hn
    · simp [hv, hn]
    · simp [hv, Nat.not_lt.2 hn]
  · simp only [decide_eq_true_eq]

/-- R602, R605: the input returns. -/
theorem exec_inputReturn_effect : ∃ t, exec .inputReturn s = .next t ∧ t.chip.input = .normal ∧ SameRegs s t ∧ SameMemory s t ∧
    (s.chip.valid = true → t.chip.charging = s.chip.charging) ∧
    (s.chip.valid = false → s.chip.pwrEn = true → s.chip.needNew = false ∨ s.chip.input = .low → t.chip.charging = true) := by
  refine ⟨_, rfl, rfl, sameRegs_of_regs rfl, fun _ => rfl, fun hv => ?_, fun hv hp hn => ?_⟩
  · simp [hv]
  · rcases hn with hn | hn <;> simp [hv, hp, hn]

/-- R611, R612: a strap input changes; the sampled value holds. -/
theorem exec_strapInputChange_effect (b level : Bool) : ∃ t, exec (.strapInputChange b level) s = .next t ∧ SameRegs s t ∧
    t.chip = (if b then { s.chip with pinBtest := level } else { s.chip with pinOwnclr := level }) ∧
    (s.chip.valid = true → t.log.length = s.log.length + 1) := by
  by_cases hv : s.chip.valid = true
  · exact ⟨_, congrArg Host.Outcome.next (if_pos hv), sameRegs_of_regs rfl, rfl, fun _ => List.length_append ..⟩
  · exact ⟨_, congrArg Host.Outcome.next (if_neg hv), sameRegs_of_regs rfl, rfl, fun h => absurd h hv⟩

/-- R468: PERST# ends the link, and configuration requests are retried. -/
theorem exec_perstAssert_effect : ∃ t, exec .perstAssert s = .next t ∧ t.chip.perst = true ∧ t.host.link = false ∧ t.host.crs = true :=
  ⟨_, rfl, rfl, rfl, rfl⟩

/-- The registers, what the module holds in flash, and the load in progress. -/
def State.moduleView (s : State) : SMap Nat × ModX × LoadX := (s.regs, s.chip, s.load)

theorem foldl_emit_keeps {α : Type} (o : α → Out) (l : List α) (s : State) :
    (l.foldl (fun t a => t.emit (o a)) s).moduleView = s.moduleView ∧ (l.foldl (fun t a => t.emit (o a)) s).host = s.host :=
  ⟨foldl_fixes State.moduleView (fun t a => t.emit (o a)) (fun _ _ => rfl) l s,
    foldl_fixes State.host (fun t a => t.emit (o a)) (fun _ _ => rfl) l s⟩

/-- One slot's writes that waited for the host leave. -/
def flushSlot (s : State) (n : Nat) : State :=
  (s.slx n).owed.foldl (fun t p => t.emit (.hostWrite p.1 p.2)) (s.setSlx n { s.slx n with owed := [] })

theorem flushOwed_eq (s : State) : flushOwed s = if !hostOpen s then s else s.host.vecs.foldl (fun t v => t.emit (.msix v))
    { (List.range 64).foldl flushSlot s with host := { ((List.range 64).foldl flushSlot s).host with vecs := [] } } := by
  unfold flushOwed flushSlot
  with_reducible rfl

/-- What waited for the host leaves while it is open; no register and not the link changes (R476). -/
theorem flushOwed_keeps (s : State) : (flushOwed s).moduleView = s.moduleView ∧ (flushOwed s).host.link = s.host.link := by
  have hSlot : ∀ (t : State) (n : Nat), (flushSlot t n).moduleView = t.moduleView ∧ (flushSlot t n).host = t.host := fun t n =>
    foldl_emit_keeps (fun p : Nat × List Byte => Out.hostWrite p.1 p.2) _ _
  have hView := foldl_fixes State.moduleView flushSlot (fun t n => (hSlot t n).1) (List.range 64) s
  have hHost := foldl_fixes State.host flushSlot (fun t n => (hSlot t n).2) (List.range 64) s
  rw [flushOwed_eq]
  generalize (List.range 64).foldl flushSlot s = t at hView hHost ⊢
  split
  · exact ⟨rfl, rfl⟩
  · obtain ⟨hv, hh⟩ := foldl_emit_keeps Out.msix s.host.vecs { t with host := { t.host with vecs := [] } }
    exact ⟨hv.trans hView, (congrArg HostX.link hh).trans (congrArg HostX.link hHost : t.host.link = s.host.link)⟩

theorem flushOwed_regs (s : State) : (flushOwed s).regs = s.regs := congrArg Prod.fst (flushOwed_keeps s).1

theorem exec_pcieLinkUp_idle (h : s.chip.perst = true ∨ s.chip.valid = false ∨ s.chip.btest = true ∨ s.rd Reg.BT_STAT_STAGE 0 = 1) :
    exec .pcieLinkUp s = .next s :=
  congrArg Host.Outcome.next (if_pos (by simpa using h))

theorem exec_pcieLinkUp_effect (hp : s.chip.perst = false) (hv : s.chip.valid = true) (hb : s.chip.btest = false)
    (hs : s.rd Reg.BT_STAT_STAGE 0 ≠ 1) : ∃ t, exec .pcieLinkUp s = .next t ∧ t.host.link = true ∧ SameRegs s t ∧ SameMemory s t := by
  have hx : exec .pcieLinkUp s = .next (flushOwed { s with host := { s.host with link := true } }) :=
    congrArg Host.Outcome.next (if_neg (by simp [hp, hv, hb, hs]))
  exact ⟨_, hx, (flushOwed_keeps _).2,
    sameRegs_of_regs (flushOwed_regs { s with host := { s.host with link := true } }), sameMemory_of_mem (flushOwed_mem _)⟩

end Sys2Proof.Machine
end

section
/-! O53. The leak sensor, span cables and their partners, and the TAP (R422, R424, R611, R615, R618). -/

namespace Sys2Proof.Machine

variable {s : State}

/-- What decides the trust in a span port, with what the pins gave. -/
def State.pinView (s : State) : ModX × SMap PortX := (s.chip, s.ports)

theorem sendEvent_pinView (s : State) (e : PldmEvent) :
    (sendEvent s e).pinView = s.pinView ∧ (sendEvent s e).regs = s.regs := by
  have hPorts : (sendEvent s e).ports = s.ports := by
    refine foldl_fixes State.ports _ (fun t n => ?_) _ s
    split
    · show (announce t n).ports = t.ports
      unfold announce
      split <;> rfl
    · rfl
  have hSensor := sendEvent_sensorView s e
  simp only [State.sensorView, Prod.mk.injEq] at hSensor
  obtain ⟨hRegs, -, hChip, -⟩ := hSensor
  exact ⟨Prod.ext hChip hPorts, hRegs⟩

/-- The fields that a fault record moves on (R534). -/
def storeIds : List Nat := [Reg.FT_LASTID_ID.id, Reg.FT_LOG_RECORDS.id]

/-- R534: a record of the hub's own leaves pins, ports and every register but those of the log. -/
theorem noteRec_hub_keeps (s : State) {e : FaultEvent} (h : e.unit = 4) (sev action left : Nat) :
    (noteRec s e sev action left).pinView = s.pinView ∧ SameRegsBut storeIds s (noteRec s e sev action left) := by
  have hStore : ∀ r : FaultRec, (storeRec s r).pinView = s.pinView ∧ SameRegsBut storeIds s (storeRec s r) := by
    intro r
    unfold storeRec
    extract_lets id l f s1 s2
    have h2 : SameRegsBut storeIds s s2 :=
      (SameRegsBut.of_regs (s := s) (t := s1) rfl).trans ((SameRegsBut.wr (by decide)).trans (.wr (by decide)))
    obtain ⟨hView, hRegs⟩ := sendEvent_pinView (s2.wr Reg.FT_LOG_RECORDS 0 (l.length + 1)) (.record id)
    exact ⟨hView, h2.trans ((SameRegsBut.wr (by decide)).trans (.of_regs hRegs))⟩
  have hEq : ∀ r, reportRec s (unitCollector e.unit) r = storeRec s r := fun r => by
    rw [reportRec, h]
    rfl
  rw [noteRec, hEq]
  exact hStore _

/-- R615: LEAK# goes low once; the module runs on. -/
theorem exec_leak_effect (hl : s.chip.leak = false) (hv : s.chip.valid = true) : ∃ t, exec .leak s = .next t ∧
    t.chip.leak = true ∧ t.chip.valid = true ∧ SameMemory s t := by
  have hx : exec .leak s = .next (noteRec { s with chip := { s.chip with leak := true } } (ownEvent s 0 0x29 4 none 0) 3 0 0) :=
    congrArg Host.Outcome.next (if_neg (by simp [hl, hv]))
  obtain ⟨hView, -⟩ := noteRec_hub_keeps { s with chip := { s.chip with leak := true } } (e := ownEvent s 0 0x29 4 none 0) rfl 3 0 0
  have hChip := congrArg Prod.fst hView
  exact ⟨_, hx, (congrArg ModX.leak hChip).trans rfl, (congrArg ModX.valid hChip).trans hv, sameMemory_of_mem (noteRec_mem ..)⟩

section Cable
variable {m : Fin 8}

/-- R611: a cable that comes starts its port's training once the links are in use. -/
theorem exec_cblChange_present : exec (.cblChange m true) s =
    .next (if 5 ≤ s.rd Reg.BT_STAT_STAGE 0 ∨ s.rb Reg.BT_STAT_READY 0 = true then
      startSpan (s.setSpx m { s.spx m with cable := true }) m.val else s.setSpx m { s.spx m with cable := true }) := by
  refine congrArg Host.Outcome.next ((if_pos rfl).trans (if_congr ?_ rfl rfl))
  rw [Bool.or_eq_true, decide_eq_true_iff]
  rfl

/-- R611: a cable that goes loses its port. -/
theorem exec_cblChange_gone : exec (.cblChange m false) s =
    .next (if portState s (.span m) = lkUp ∨ portState s (.span m) = lkRetrain then
        portLost (s.setSpx m { s.spx m with cable := false }) (.span m)
      else if portState s (.span m) = lkTraining then portDown (s.setSpx m { s.spx m with cable := false }) (.span m)
      else s.setSpx m { s.spx m with cable := false }) :=
  congrArg Host.Outcome.next (if_neg Bool.false_ne_true)

end Cable

section Ident
variable {m : Fin 8} {x : IdentMsg}

/-- An IDENT that no training port awaits, or whose CRC is bad, is not taken. -/
theorem exec_ident_ignored (h : (s.spx m).nonce = none ∨ identOk x = false ∨ portState s (.span m) ≠ lkTraining ∨ (s.spx m).keyed = true) :
    exec (.ident m x) s = .next s := by
  show execIdent m x s = _
  unfold execIdent
  dsimp only
  cases hn : (s.px (.span m)).span.nonce with
  | none => rfl
  | some n =>
    dsimp only
    refine congrArg Host.Outcome.next (if_pos ?_)
    rcases h with h | h | h | h
    · exact absurd (hn.symm.trans h) (by simp)
    · exact .inl (by simp [h])
    · exact .inr (.inl h)
    · exact .inr (.inr h)

variable (hn : (s.spx m).nonce.isSome = true) (hi : identOk x = true) (ht : portState s (.span m) = lkTraining)
  (hk : (s.spx m).keyed = false)
include hn hi ht hk

theorem exec_ident_awaited : exec (.ident m x) s = .next (if !peerOk s (.span m) x then
      noteRec ((wrP s (.span m) Reg.LK_STAT_STATE Reg.LKH_STAT_STATE lkHeld).lg LogKind.spanPeer hubN
        [portKey (.span m), x.ident.toNat]) (ownEvent s 0 0x26 4 none m.val) 3 0 0
    else resumePort (s.setPx (.span m) { s.px (.span m) with
      gseq := 0, expect := 0, replay := [], rxHeld := [], nak := false
      span := { s.spx m with
        keyed := true, gnTx := 0, gnRx := 0
        partner := some ⟨spanSecret s, x.ident.toNat, x.slot.toNat, x.port.toNat, x.nonce.toNat⟩ } }) (.span m) 0) := by
  show execIdent m x s = _
  unfold execIdent
  dsimp only
  split
  · next hNone => exact absurd hn (by rw [State.spx, hNone]; exact Bool.false_ne_true)
  · refine congrArg Host.Outcome.next (if_neg ?_)
    rw [hi, ht, show (s.px (.span m)).span.keyed = false from hk]
    simp

/-- R424: a partner that LK_PEER refuses leaves the port HELD. -/
theorem exec_ident_refused (hp : peerOk s (.span m) x = false) : ∃ t, exec (.ident m x) s = .next t ∧
    portState t (.span m) = lkHeld ∧ (t.spx m).keyed = false := by
  refine ⟨_, (exec_ident_awaited hn hi ht hk).trans (congrArg _ (if_pos (by simp [hp]))), ?_⟩
  obtain ⟨hView, hRegs⟩ := noteRec_hub_keeps ((wrP s (.span m) Reg.LK_STAT_STATE Reg.LKH_STAT_STATE lkHeld).lg LogKind.spanPeer hubN
    [portKey (.span m), x.ident.toNat]) (e := ownEvent s 0 0x26 4 none m.val) rfl 3 0 0
  refine ⟨(portState_congr hRegs (by decide) (by decide) _).trans (portState_wrP_same (s := s) m lkHeld), Eq.trans ?_ hk⟩
  exact congrArg (fun v : ModX × SMap PortX => (smGet ({} : PortX) v.2 (portKey (.span m))).span.keyed) hView

end Ident

/-- The messages that a span port's HOLD sends to the dies leave every register and what is known of the span ports. -/
theorem sbSend_hub_keeps (s : State) (d : DieId) (ty v : Nat) (m : Fin 8) :
    (sbSend s (.hub d) ty v).regs = s.regs ∧ (sbSend s (.hub d) ty v).spx m = s.spx m := by
  refine ⟨rfl, congrArg PortX.span (State.px_setPx_ne ?_ _)⟩
  simp only [portKey]
  omega

/-- R407: HOLD of a span port is a matter of its queue alone. -/
theorem updHold_span_keeps (s : State) (m : Fin 8) : SameRegsBut [Reg.LKH_STAT_HOLD.id] s (updHold s (.span m)) ∧
    (updHold s (.span m)).spx m = s.spx m := by
  have hHold : ∀ on, SameRegsBut [Reg.LKH_STAT_HOLD.id] s (holdPort s (.span m) on) ∧ (holdPort s (.span m) on).spx m = s.spx m := by
    intro on
    unfold holdPort
    extract_lets s1
    dsimp only
    have h1 : SameRegsBut [Reg.LKH_STAT_HOLD.id] s s1 ∧ s1.spx m = s.spx m := ⟨.wr (by decide), rfl⟩
    clear_value s1
    obtain ⟨hRegs, hSpan⟩ := h1
    have hSend : ∀ (t : State) (q : DieId × Nat), (sbSend t (.hub q.1) 5 (holdPayload on q.2)).regs = t.regs ∧
        (sbSend t (.hub q.1) 5 (holdPayload on q.2)).spx m = t.spx m := fun t q => sbSend_hub_keeps t q.1 5 (holdPayload on q.2) m
    exact ⟨hRegs.trans (.of_regs (foldl_fixes State.regs _ (fun t q => (hSend t q).1) _ s1)),
      (foldl_fixes (fun t : State => t.spx m) _ (fun t q => (hSend t q).2) _ s1).trans hSpan⟩
  unfold updHold
  extract_lets n
  split
  · exact hHold true
  · split
    · exact hHold false
    · exact ⟨.refl, rfl⟩

/-- R424: a span port that carries data again is up, with its trust as it was. -/
theorem resumePort_span (s : State) (m : Fin 8) (latency : Nat) : portState (resumePort s (.span m) latency) (.span m) = lkUp ∧
    (resumePort s (.span m) latency).spx m = s.spx m := by
  unfold resumePort
  extract_lets s1 s2 x
  have hUp : portState s2 (.span m) = lkUp :=
    (State.rd_wr_ne _ (by decide) ..).trans (State.rd_wr_same ..)
  obtain ⟨hRegs, hSpan⟩ := updHold_span_keeps (s2.setPx (.span m)
    { x with resend := (x.replay.head?).map LGroup.gseq, lastRpl := none, fails := 0 }) m
  refine ⟨(portState_congr hRegs (by decide) (by decide) _).trans hUp, hSpan.trans ?_⟩
  exact (congrArg PortX.span (State.px_setPx_same ..)).trans rfl

/-- R424: a partner that is admitted keys the port and brings it up. -/
theorem exec_ident_admitted {m : Fin 8} {x : IdentMsg} (hn : (s.spx m).nonce.isSome = true) (hi : identOk x = true)
    (ht : portState s (.span m) = lkTraining) (hk : (s.spx m).keyed = false) (hp : peerOk s (.span m) x = true) : ∃ t,
    exec (.ident m x) s = .next t ∧ portState t (.span m) = lkUp ∧ (t.spx m).keyed = true ∧
      (t.spx m).partner = some ⟨spanSecret s, x.ident.toNat, x.slot.toNat, x.port.toNat, x.nonce.toNat⟩ := by
  refine ⟨_, (exec_ident_awaited hn hi ht hk).trans (congrArg _ (if_neg (by simp [hp]))), ?_⟩
  obtain ⟨hUp, hSpan⟩ := resumePort_span (s.setPx (.span m) { s.px (.span m) with
      gseq := 0, expect := 0, replay := [], rxHeld := [], nak := false
      span := { s.spx m with
        keyed := true, gnTx := 0, gnRx := 0
        partner := some ⟨spanSecret s, x.ident.toNat, x.slot.toNat, x.port.toNat, x.nonce.toNat⟩ } }) m 0
  have hSpan := hSpan.trans (congrArg PortX.span (State.px_setPx_same ..))
  exact ⟨hUp, congrArg SpanX.keyed hSpan, congrArg SpanX.partner hSpan⟩

/-- R618: an instruction that drives the pins is taken with BTEST# low only. -/
theorem tapSelect_pins {i : TapInstr} (h : (i == .extest || i == .clamp || i == .highz || i == .extestPulse || i == .extestTrain) = true) :
    tapSelect s i = { s with chip := { s.chip with tap := if s.chip.btest then i else .bypass } } := by
  unfold tapSelect
  rw [h]
  cases s.chip.btest <;> rfl

/-- Settles O53: each input and pin by its own guard, IDENT by its partner, the TAP by BTEST#. -/
theorem inputPinsAndTap : Obligations.InputPinsAndTap := by
  unfold Obligations.InputPinsAndTap
  intro s
  refine ⟨fun mv lowMs => ⟨exec_pwrEnAssert_held, exec_pwrEnAssert_charges⟩, ⟨rfl, rfl, fun h => ?_, fun h => ?_, fun mv h => ?_,
    fun mv h => ?_, fun h => ?_, fun h => ?_, rfl⟩, ⟨inputFails_unpowered, fun h t ht => ?_⟩, exec_inputReturn_effect, fun level => ?_,
    exec_perstAssert_effect, rfl, exec_pcieLinkUp_idle, exec_pcieLinkUp_effect, exec_leak_effect, fun h => ?_, fun m => ⟨fun u hu => ?_,
    fun u hu => ?_, fun x => ⟨exec_ident_ignored, fun hn hi ht hk => ⟨exec_ident_refused hn hi ht hk, exec_ident_admitted hn hi ht hk⟩⟩⟩,
    rfl, rfl, rfl, ?_, ?_, ?_, ?_, ?_⟩
  · exact congrArg Host.Outcome.next (if_pos h)
  · exact congrArg Host.Outcome.next (if_neg (by simp [h]))
  · exact congrArg Host.Outcome.next (if_pos h)
  · exact congrArg Host.Outcome.next (if_neg (Nat.not_lt.2 h))
  · exact congrArg Host.Outcome.next (if_neg h)
  · exact congrArg Host.Outcome.next (if_pos h)
  · subst ht
    exact inputFails_running h
  · obtain ⟨t, hx, hr, hc, hl⟩ := exec_strapInputChange_effect (s := s) true level
    obtain ⟨u, hy, hu, hd, hm⟩ := exec_strapInputChange_effect (s := s) false level
    exact ⟨t, u, hx, hy, (congrArg ModX.pinBtest hc).trans rfl, (congrArg ModX.pinOwnclr hd).trans rfl,
      (congrArg ModX.btest hc).trans rfl, (congrArg ModX.ownclr hd).trans rfl,
      fun hv => ⟨hl hv, hm hv⟩, hr, hu⟩
  · exact congrArg Host.Outcome.next (if_pos (by simpa using h))
  · subst hu
    exact exec_cblChange_present
  · subst hu
    exact exec_cblChange_gone
  · exact congrArg Host.Outcome.next (tapSelect_pins rfl)
  · exact congrArg Host.Outcome.next (tapSelect_pins rfl)
  · exact congrArg Host.Outcome.next (tapSelect_pins rfl)
  · exact congrArg Host.Outcome.next (tapSelect_pins rfl)
  · exact congrArg Host.Outcome.next (tapSelect_pins rfl)

end Sys2Proof.Machine
end

section
/-! O60. SPDM: what a transport that serves answers, and what the requests do to the sessions, the owner's record, the licences and
the firmware (R569, R570, R572, R573, R577, R568, R476). -/

namespace Sys2Proof.Machine

variable {s : State} {c : SpdmCtx}

/-- An answer changes no register, no session and nothing of the module's record. -/
theorem spdm_keeps (s : State) (c : SpdmCtx) (r : SpdmReply) : (spdm s c r).moduleView = s.moduleView ∧
    (spdm s c r).manage = s.manage := by
  unfold spdm announce
  split <;> exact ⟨rfl, rfl⟩

theorem spdm_regs (s : State) (c : SpdmCtx) (r : SpdmReply) : (spdm s c r).regs = s.regs := congrArg Prod.fst (spdm_keeps s c r).1

theorem vendorRefused_moduleView (s : State) (c : SpdmCtx) (n : Nat) : (vendorRefused s c n).moduleView = s.moduleView :=
  (spdm_keeps s c .refused).1

section Down
variable (h : spdmUp s c = false)
include h

theorem onSpdm_down (k : State → State) : onSpdm s c k = s := if_neg (by simp [h])

/-- R569: on a transport that does not serve no request does anything. -/
theorem exec_spdm_down (b : Bool) (n : Nat) (f : Option Nat) (sl : Fin 8) (x : BitVec 8) (o : Owner) (k : KeyChange) (l : List Byte)
    (w : FwBlob) (v : Fin 65) : ∀ i, i ∈ [Instr.getVersion c, .getCapabilities c, .negotiateAlgorithms c b, .getDigests c,
      .getCertificate c sl, .challenge c n, .getMeasurements c n, .keyExchange c, .finish c f, .heartbeat c, .keyUpdate c,
      .endSession c, .unsupportedSpdmRequest c x, .claim c o, .release c, .setKeys c k, .ownerInfo c, .installLicence c l,
      .fwStage c w, .fwCommit c v, .ideKm c] → exec i s = .next s := by
  simp only [List.forall_mem_cons, List.not_mem_nil, false_implies, implies_true, and_true]
  refine ⟨?_, ?_, ?_, ?_, ?_, ?_, ?_, ?_, ?_, ?_, ?_, ?_, ?_, ?_, ?_, ?_, ?_, ?_, ?_, ?_, ?_⟩ <;>
    exact congrArg Host.Outcome.next (onSpdm_down h _)

end Down

section Up
variable (h : spdmUp s c = true)
include h

theorem onSpdm_up (k : State → State) : onSpdm s c k = k s := if_pos h

theorem exec_keyExchange_full (hl : 4 ≤ s.manage.sess.length) : exec (.keyExchange c) s = .next (spdm s c .sessionLimit) :=
  congrArg Host.Outcome.next ((onSpdm_up h _).trans (if_pos (.inl hl)))

/-- R569: KEY_EXCHANGE opens a session. -/
theorem exec_keyExchange_opens (hl : s.manage.sess.length < 4) (hd : s.manage.sess.any SpdmSess.doe = false) : ∃ t,
    exec (.keyExchange c) s = .next t ∧
      t.manage.sess = s.manage.sess ++ [{ id := s.manage.nextSess, doe := decide (c.tr = 2) }] ∧ SameRegs s t := by
  refine ⟨_, congrArg Host.Outcome.next ((onSpdm_up h _).trans (if_neg ?_)), ?_, ?_⟩
  · simp [hd, Nat.not_le.2 hl]
  · exact congrArg ManageX.sess (spdm_keeps _ c _).2
  · exact sameRegs_of_regs (spdm_regs _ c _)

/-- R569: FINISH completes the handshake of the session it names. -/
theorem exec_finish_completes {x : SpdmSess} (f : Option Nat) (hc : c.sess = some x.id) (hs : s.manage.sess = [x]) (hu : x.up = false)
    (hd : x.doe = decide (c.tr = 2)) : ∃ t, exec (.finish c f) s = .next t ∧ t.manage.sess = [{ x with up := true, leaf := f }] := by
  have hFind : (c.sess.bind fun i => s.manage.sess.find? fun y => y.id == i && !y.up && y.doe == decide (c.tr = 2)) = some x := by
    simp [hc, hs, hu, hd]
  have hx : exec (.finish c f) s = .next (spdm (setSess s { x with up := true, leaf := f }) c .ack) := by
    refine congrArg Host.Outcome.next ((onSpdm_up h _).trans ?_)
    rw [hFind]
  refine ⟨_, hx, (congrArg ManageX.sess (spdm_keeps _ c _).2).trans ?_⟩
  simp [setSess, hs]

theorem secured_outside (hs : session s c = none) (k : State → SpdmSess → State) : secured s c k = spdm s c .refused := by
  rw [secured, onSpdm_up h, hs]

theorem secured_inside {x : SpdmSess} (hs : session s c = some x) (k : State → SpdmSess → State) : secured s c k = k s x := by
  rw [secured, onSpdm_up h, hs]

theorem vendor_outside (hs : session s c = none) (n : Nat) (k : State → SpdmSess → State) : vendor s c n k = vendorRefused s c n := by
  rw [vendor, onSpdm_up h, hs]

theorem vendor_inside {x : SpdmSess} (hs : session s c = some x) (n : Nat) (k : State → SpdmSess → State) : vendor s c n k = k s x := by
  rw [vendor, onSpdm_up h, hs]

/-- Outside a session no request that needs one is served. -/
theorem exec_finish_outside (hn : c.sess = none) (f : Option Nat) : exec (.finish c f) s = .next (spdm s c .refused) := by
  refine congrArg Host.Outcome.next ((onSpdm_up h _).trans ?_)
  rw [hn]
  rfl

end Up

theorem session_outside (hn : c.sess = none) : session s c = none := by
  rw [session, hn]
  rfl

theorem mem_of_session {x : SpdmSess} (hs : session s c = some x) : x ∈ s.manage.sess := by
  obtain ⟨i, -, hFind⟩ := Option.bind_eq_some_iff.1 hs
  exact List.mem_of_find?_eq_some hFind

theorem followIde_keeps (s : State) : (followIde s).chip = s.chip ∧ (followIde s).load = s.load ∧
    SameRegsBut [Reg.HB_HOSTCFG_IDE_REQ.id] s (followIde s) ∧
    (followIde s).rb Reg.HB_HOSTCFG_IDE_REQ 0 = (s.chip.owner.map Owner.ideReq).getD false := by
  unfold followIde
  obtain ⟨hRegs, hRest⟩ := Prod.mk.inj (flushOwed_keeps (s.wb Reg.HB_HOSTCFG_IDE_REQ 0 ((s.chip.owner.map Owner.ideReq).getD false))).1
  obtain ⟨hChip, hLoad⟩ := Prod.mk.inj hRest
  refine ⟨hChip, hLoad, (SameRegsBut.wb (by decide)).trans (.of_regs hRegs), ?_⟩
  rw [State.rb, State.rd_congr hRegs]
  exact State.rb_wb_same _ _ _ _ _ _ (by decide)

section Session
variable (h : spdmUp s c = true) {x : SpdmSess} (hs : session s c = some x)
include h hs

/-- R569: KEY_UPDATE moves the session to new keys. -/
theorem exec_keyUpdate_renews : ∃ t, exec (.keyUpdate c) s = .next t ∧ { x with gen := x.gen + 1 } ∈ t.manage.sess ∧ SameRegs s t := by
  refine ⟨_, congrArg Host.Outcome.next (secured_inside h hs _), ?_, sameRegs_of_regs (spdm_regs _ c _)⟩
  rw [(spdm_keeps _ c _).2]
  exact List.mem_map.2 ⟨x, mem_of_session hs, if_pos rfl⟩

theorem exec_endSession_ends : ∃ t, exec (.endSession c) s = .next t ∧ (∀ y ∈ t.manage.sess, y.id ≠ x.id) ∧ SameRegs s t := by
  refine ⟨_, congrArg Host.Outcome.next (secured_inside h hs _), ?_, sameRegs_of_regs (spdm_regs _ c _)⟩
  rw [(spdm_keeps _ c _).2]
  exact fun y hy => by simpa using (List.mem_filter.1 hy).2

theorem exec_claim_refused {o : Owner} (hc : s.rd Reg.BT_STAT_OWNER 0 ≠ 0 ∨ x.leaf ≠ some o.key) :
    exec (.claim c o) s = .next (vendorRefused s c 1) :=
  congrArg Host.Outcome.next ((vendor_inside h hs 1 _).trans (if_pos hc))

/-- The state in which a claim has been recorded (R572). -/
def recordClaim (s : State) (o : Owner) : State := { s with chip := { s.chip with owner := some o } }.wr Reg.BT_STAT_OWNER 0 1

/-- R572: CLAIM of an unowned module by the key of the record. -/
theorem exec_claim_owned {o : Owner} (ho : s.rd Reg.BT_STAT_OWNER 0 = 0) (hl : x.leaf = some o.key) : exec (.claim c o) s =
    .next (spdm (followIde (if o.consent then recordClaim s o else (recordClaim s o).wb Reg.BT_STAT_DEBUG 0 false)) c .ack) :=
  congrArg Host.Outcome.next ((vendor_inside h hs 1 _).trans (if_neg (not_or.2 ⟨not_not.2 ho, not_not.2 hl⟩)))

theorem exec_release_refused (hb : byOwner s x = false) : exec (.release c) s = .next (vendorRefused s c 2) :=
  congrArg Host.Outcome.next ((vendor_inside h hs 2 _).trans (if_neg (by simp [hb])))

theorem exec_setKeys_refused (hb : byOwner s x = false) (k : KeyChange) : exec (.setKeys c k) s = .next (vendorRefused s c 3) :=
  congrArg Host.Outcome.next ((vendor_inside h hs 3 _).trans (if_neg (by simp [hb])))

theorem exec_release_starts (hb : byOwner s x = true) : exec (.release c) s = .next (startRelease (spdm s c .ack) (some x.id)) :=
  congrArg Host.Outcome.next ((vendor_inside h hs 2 _).trans (if_pos hb))

theorem exec_setKeys_taken (hb : byOwner s x = true) (k : KeyChange) : exec (.setKeys c k) s =
    .next (spdm (followIde { s with chip := { s.chip with owner := s.chip.owner.map fun o => changeOwner o k } }) c .ack) :=
  congrArg Host.Outcome.next ((vendor_inside h hs 3 _).trans (if_pos hb))

theorem exec_ownerInfo_owned {o : Owner} (ho : s.chip.owner = some o) :
    exec (.ownerInfo c) s = .next (spdm s c (.ownerInfo o.key o.ideReq o.consent)) := by
  refine congrArg Host.Outcome.next ((vendor_inside h hs 6 _).trans ?_)
  rw [ho]

theorem exec_ownerInfo_unowned (ho : s.chip.owner = none) :
    exec (.ownerInfo c) s = .next (spdm s c (.ownerInfo 0 false false)) := by
  refine congrArg Host.Outcome.next ((vendor_inside h hs 6 _).trans ?_)
  rw [ho]

theorem exec_installLicence_installed {l : List Byte} (hl : (installLicence s l).2 = true) :
    exec (.installLicence c l) s = .next (spdm (installLicence s l).1 c .ack) :=
  congrArg Host.Outcome.next ((vendor_inside h hs 4 _).trans (if_pos hl))

/-- R577: a licence that has not 128 bytes is ignored and logged, and the request refused. -/
theorem exec_installLicence_wrongLength {l : List Byte} (hl : l.length ≠ 128) : exec (.installLicence c l) s =
    .next (vendorRefused (s.lg LogKind.licenceIgnored hubN [licNum l 6 1, licNum l 7 1]) c 4) := by
  refine congrArg Host.Outcome.next ((vendor_inside h hs 4 _).trans ?_)
  rw [installLicence_wrongLength hl]
  rfl

theorem exec_fwStage_refused {w : FwBlob} (ha : fwAdmitted s x = false) : exec (.fwStage c w) s = .next (vendorRefused s c 5) :=
  congrArg Host.Outcome.next ((vendor_inside h hs 5 _).trans (if_pos (by simp [ha])))

/-- R568: FW_STAGE writes the slot that is not in force, valid only where the image verifies. -/
theorem exec_fwStage_stages {w : FwBlob} (ha : fwAdmitted s x = true) : ∃ t, exec (.fwStage c w) s = .next t ∧ SameRegs s t ∧
    imgAt t (1 - s.rd Reg.BT_STAT_IMAGE 0) = { version := w.version, svn := w.svn.val, digest := w.digest, good := fwVerified s w } := by
  have hView : ∀ t : State, t.moduleView = (writeFw s (1 - s.rd Reg.BT_STAT_IMAGE 0) w).moduleView → SameRegs s t ∧
      imgAt t (1 - s.rd Reg.BT_STAT_IMAGE 0) = { version := w.version, svn := w.svn.val, digest := w.digest, good := fwVerified s w } := by
    intro t ht
    obtain ⟨hRegs, hRest⟩ := Prod.mk.inj ht
    obtain ⟨hChip, -⟩ := Prod.mk.inj hRest
    refine ⟨sameRegs_of_regs hRegs, ?_⟩
    rw [imgAt, hChip]
    exact smGet_smSet_same _ _ _ _
  refine ⟨_, congrArg Host.Outcome.next ((vendor_inside h hs 5 _).trans (if_neg (by simp [ha]))), hView _ ?_⟩
  split
  · exact (spdm_keeps _ c _).1
  · exact vendorRefused_moduleView ..

theorem exec_fwCommit_refused {v : Fin 65} (ha : fwAdmitted s x = false ∨ s.rd Reg.BT_SVN_IMAGE 0 ≠ v.val) :
    exec (.fwCommit c v) s = .next (vendorRefused s c 5) := by
  refine congrArg Host.Outcome.next ((vendor_inside h hs 5 _).trans (if_neg ?_))
  rcases ha with ha | ha <;> simp [ha]

theorem exec_fwCommit_raises {v : Fin 65} (ha : fwAdmitted s x = true) (hv : s.rd Reg.BT_SVN_IMAGE 0 = v.val) : exec (.fwCommit c v) s =
    .next (spdm (s.wr Reg.BT_SVN_FUSED 0 (max (s.rd Reg.BT_SVN_FUSED 0) v.val)) c .ack) :=
  congrArg Host.Outcome.next ((vendor_inside h hs 5 _).trans (if_pos (by simp [ha, hv])))

theorem exec_ideKm_refused (hd : x.doe = false) : exec (.ideKm c) s = .next (spdm s c .refused) :=
  congrArg Host.Outcome.next ((secured_inside h hs _).trans (if_neg (by simp [hd])))

/-- R476: IDE_KM on DOE brings the stream into the secure state. -/
theorem exec_ideKm_secures (hd : x.doe = true) : ∃ t, exec (.ideKm c) s = .next t ∧ t.rb Reg.HB_HOSTCFG_IDE_OK 0 = true ∧
    SameMemory s t := by
  refine ⟨_, congrArg Host.Outcome.next ((secured_inside h hs _).trans (if_pos hd)), ?_, sameMemory_of_mem ?_⟩
  · rw [State.rb, State.rd_congr (spdm_regs _ c _), State.rd_congr (flushOwed_regs _)]
    exact State.rb_wb_same _ _ _ _ _ _ (by decide)
  · rw [spdm_mem, flushOwed_mem]
    rfl

end Session

/-- R572: what CLAIM leaves of the owner's record and of the debug level. -/
theorem recordClaim_effect (s : State) (c : SpdmCtx) (o : Owner) : ∃ t, t = spdm (followIde (if o.consent then recordClaim s o
      else (recordClaim s o).wb Reg.BT_STAT_DEBUG 0 false)) c .ack ∧ t.rd Reg.BT_STAT_OWNER 0 = 1 ∧ t.chip.owner = some o ∧
    t.rb Reg.HB_HOSTCFG_IDE_REQ 0 = o.ideReq ∧ (o.consent = false → t.rb Reg.BT_STAT_DEBUG 0 = false) ∧
    (o.consent = true → t.rb Reg.BT_STAT_DEBUG 0 = s.rb Reg.BT_STAT_DEBUG 0) := by
  have hAll : ∀ u : State, u.chip.owner = some o → u.rd Reg.BT_STAT_OWNER 0 = 1 → (spdm (followIde u) c .ack).rd Reg.BT_STAT_OWNER 0 = 1 ∧
      (spdm (followIde u) c .ack).chip.owner = some o ∧ (spdm (followIde u) c .ack).rb Reg.HB_HOSTCFG_IDE_REQ 0 = o.ideReq ∧
      (spdm (followIde u) c .ack).rb Reg.BT_STAT_DEBUG 0 = u.rb Reg.BT_STAT_DEBUG 0 := by
    intro u hu ho
    obtain ⟨hChip, -, hRegs, hIde⟩ := followIde_keeps u
    obtain ⟨hr, hRest⟩ := Prod.mk.inj (spdm_keeps (followIde u) c .ack).1
    obtain ⟨hc, -⟩ := Prod.mk.inj hRest
    have hSame : SameRegsBut [] (followIde u) (spdm (followIde u) c .ack) := .of_regs hr
    refine ⟨(hSame _ (by decide) ..).trans ((hRegs _ (by decide) ..).trans ho), ?_, ?_, ?_⟩
    · rw [hc, hChip, hu]
    · rw [hSame.rb (by decide), hIde, hu]
      rfl
    · rw [hSame.rb (by decide), hRegs.rb (by decide)]
  refine ⟨_, rfl, ?_⟩
  by_cases hCons : o.consent = true
  · rw [if_pos hCons]
    obtain ⟨hOwner, hChip, hIde, hDebug⟩ := hAll (recordClaim s o) rfl (State.rd_wr_same ..)
    exact ⟨hOwner, hChip, hIde, fun h => absurd hCons (by simp [h]), fun _ => hDebug.trans (State.rb_wr_ne _ (by decide) ..)⟩
  · rw [if_neg hCons]
    obtain ⟨hOwner, hChip, hIde, hDebug⟩ := hAll ((recordClaim s o).wb Reg.BT_STAT_DEBUG 0 false) rfl
      ((State.rd_wb_ne (by decide) ..).trans (State.rd_wr_same ..))
    exact ⟨hOwner, hChip, hIde, fun _ => hDebug.trans (State.rb_wb_same _ _ _ _ _ _ (by decide)), fun h => absurd h hCons⟩

theorem byOwner_owned {x : SpdmSess} (h : byOwner s x = true) : s.rd Reg.BT_STAT_OWNER 0 = 1 := by
  simp only [byOwner, Bool.and_eq_true, beq_iff_eq] at h
  exact h.1

/-- R572: SET_KEYS of the owner changes the record; the parison in force stays. -/
theorem exec_setKeys_changes (h : spdmUp s c = true) {x : SpdmSess} (hs : session s c = some x) (hb : byOwner s x = true)
    (k : KeyChange) {o : Owner} (ho : s.chip.owner = some o) : ∃ t, exec (.setKeys c k) s = .next t ∧
    t.chip.owner = some (changeOwner o k) ∧ t.rd Reg.BT_STAT_OWNER 0 = 1 ∧ t.load = s.load := by
  refine ⟨_, exec_setKeys_taken h hs hb k, ?_⟩
  have hu : ∀ u : State, u.regs = s.regs → u.load = s.load → u.chip.owner = some (changeOwner o k) →
      (spdm (followIde u) c .ack).chip.owner = some (changeOwner o k) ∧ (spdm (followIde u) c .ack).rd Reg.BT_STAT_OWNER 0 = 1 ∧
        (spdm (followIde u) c .ack).load = s.load := by
    intro u hr hl hc
    obtain ⟨hChip, hLoad, hRegs, -⟩ := followIde_keeps u
    obtain ⟨hRegs', hRest⟩ := Prod.mk.inj (spdm_keeps (followIde u) c .ack).1
    obtain ⟨hChip', hLoad'⟩ := Prod.mk.inj hRest
    refine ⟨by rw [hChip', hChip, hc], ?_, by rw [hLoad', hLoad, hl]⟩
    rw [State.rd_congr hRegs', hRegs _ (by decide), State.rd_congr hr]
    exact byOwner_owned hb
  exact hu _ rfl rfl (by rw [ho]; rfl)

/-- Settles O60: each request by its transport, its session and the condition that the rules state for it. -/
theorem secureSessionsAndOwnership : Obligations.SecureSessionsAndOwnership := by
  unfold Obligations.SecureSessionsAndOwnership
  intro c s ans den
  refine ⟨exec_spdm_down, fun h => ⟨?_, ?_, fun b => ?_, ?_, ?_, fun sl hsl => ?_, fun n => ?_, fun n => ?_, fun x => ?_,
    exec_keyExchange_full h, exec_keyExchange_opens h, fun x f hc hs hu hd => exec_finish_completes h f hc hs hu hd, fun hn => ?_,
    fun x hs => ?_⟩⟩
  · exact congrArg Host.Outcome.next (onSpdm_up h _)
  · exact congrArg Host.Outcome.next (onSpdm_up h _)
  · exact congrArg Host.Outcome.next (onSpdm_up h _)
  · exact congrArg Host.Outcome.next (onSpdm_up h _)
  · exact congrArg Host.Outcome.next (onSpdm_up h _)
  · exact congrArg Host.Outcome.next ((onSpdm_up h _).trans (congrArg (spdm s c) (if_neg hsl)))
  · exact ⟨_, _, congrArg Host.Outcome.next (onSpdm_up h _), rfl, sameRegs_of_regs (spdm_regs s c (.challenge (signOpen s)))⟩
  · exact ⟨_, _, congrArg Host.Outcome.next (onSpdm_up h _), rfl, sameRegs_of_regs (spdm_regs s c (.measurements (measure s) (signOpen s)))⟩
  · exact congrArg Host.Outcome.next (onSpdm_up h _)
  · have hs : session s c = none := session_outside hn
    refine ⟨fun f => ?_, fun o => ?_, ?_, fun k => ?_, ?_, fun l => ?_, fun w v => ⟨?_, ?_⟩⟩
    · simp only [List.forall_mem_cons, List.not_mem_nil, false_implies, implies_true, and_true]
      exact ⟨exec_finish_outside h hn f, congrArg Host.Outcome.next (secured_outside h hs _),
        congrArg Host.Outcome.next (secured_outside h hs _), congrArg Host.Outcome.next (secured_outside h hs _),
        congrArg Host.Outcome.next (secured_outside h hs _)⟩
    · exact congrArg Host.Outcome.next (vendor_outside h hs 1 _)
    · exact congrArg Host.Outcome.next (vendor_outside h hs 2 _)
    · exact congrArg Host.Outcome.next (vendor_outside h hs 3 _)
    · exact congrArg Host.Outcome.next (vendor_outside h hs 6 _)
    · exact congrArg Host.Outcome.next (vendor_outside h hs 4 _)
    · exact congrArg Host.Outcome.next (vendor_outside h hs 5 _)
    · exact congrArg Host.Outcome.next (vendor_outside h hs 5 _)
  · refine ⟨congrArg Host.Outcome.next (secured_inside h hs _), exec_keyUpdate_renews h hs, exec_endSession_ends h hs,
      fun o => ⟨exec_claim_refused h hs, fun ho hl => ?_⟩, fun hb => ⟨exec_release_refused h hs hb, exec_setKeys_refused h hs hb⟩,
      fun hb => ⟨exec_release_starts h hs hb, fun k o ho => exec_setKeys_changes h hs hb k ho⟩, fun o => exec_ownerInfo_owned h hs,
      exec_ownerInfo_unowned h hs, fun l => ⟨exec_installLicence_installed h hs, exec_installLicence_wrongLength h hs⟩,
      fun w => exec_fwStage_refused h hs, fun w => exec_fwStage_stages h hs,
      fun v => ⟨exec_fwCommit_refused h hs, exec_fwCommit_raises h hs⟩, exec_ideKm_refused h hs, exec_ideKm_secures h hs⟩
    obtain ⟨t, rfl, hOwner⟩ := recordClaim_effect s c o
    exact ⟨_, exec_claim_owned h hs ho hl, hOwner⟩

end Sys2Proof.Machine
end

section
/-! O58. The Jacks monitor: how a line is taken, and how each command ends (R588, R589, R590, R591, R592, R593). -/

namespace Sys2Proof.Machine

variable {s : State}

section Line
variable {n : Nat} {k : JkCmd}

/-- R589: without power, in board test and in stage 1 no line is served. -/
theorem jkLine_down (h : s.chip.valid = false ∨ s.chip.btest = true ∨ s.rd Reg.BT_STAT_STAGE 0 = 1) : jkLine s n k = s :=
  if_pos (by simpa using h)

/-- The monitor is served (R589). -/
def JacksUp (s : State) : Prop := s.chip.valid = true ∧ s.chip.btest = false ∧ s.rd Reg.BT_STAT_STAGE 0 ≠ 1

theorem jkLine_up (h : JacksUp s) : jkLine s n k = if s.rb Reg.JK_STAT_BUSY 0 then
    if heldChars s + n + 1 ≤ 256 then { s with manage := { s.manage with held := s.manage.held ++ [(n, k)] } }
    else s.bump Reg.JK_STAT_OVERRUN 0 (heldChars s + n + 1 - 256)
  else runLine s n k := by
  obtain ⟨hv, hb, hs⟩ := h
  exact if_neg (by simp [hv, hb, hs])

theorem jkLine_held (h : JacksUp s) (hb : s.rb Reg.JK_STAT_BUSY 0 = true) (hn : heldChars s + n + 1 ≤ 256) :
    jkLine s n k = { s with manage := { s.manage with held := s.manage.held ++ [(n, k)] } } :=
  (jkLine_up h).trans ((if_pos hb).trans (if_pos hn))

theorem jkLine_dropped (h : JacksUp s) (hb : s.rb Reg.JK_STAT_BUSY 0 = true) (hn : 256 < heldChars s + n + 1) :
    jkLine s n k = s.bump Reg.JK_STAT_OVERRUN 0 (heldChars s + n + 1 - 256) :=
  (jkLine_up h).trans ((if_pos hb).trans (if_neg (Nat.not_le.2 hn)))

theorem jkLine_runs (h : JacksUp s) (hb : s.rb Reg.JK_STAT_BUSY 0 = false) : jkLine s n k = runLine s n k :=
  (jkLine_up h).trans (if_neg (by simp [hb]))

theorem runLine_long (hn : 255 < n) : runLine s n k = s.emit (.jacks .line) := if_pos hn

/-- R588: a command that ends prints its status line; only a warm reset goes on after it. -/
theorem runLine_ends {t : State} {st : JkStatus} (hn : n ≤ 255) (hr : runJk (s.bump Reg.JK_CMDS_COUNT 0) k = (t, some st))
    (hw : ∀ b, k = .warm b → st ≠ .ok) : runLine s n k = t.emit (.jacks st) := by
  unfold runLine
  rw [if_neg (Nat.not_lt.2 hn)]
  simp only [hr]

theorem runLine_goesOn {t : State} (hn : n ≤ 255) (hr : runJk (s.bump Reg.JK_CMDS_COUNT 0) k = (t, none)) :
    runLine s n k = t.wb Reg.JK_STAT_BUSY 0 true := by
  unfold runLine
  rw [if_neg (Nat.not_lt.2 hn)]
  simp only [hr]

theorem runLine_warm {b : Bool} {t : State} (hn : n ≤ 255) (hr : runJk (s.bump Reg.JK_CMDS_COUNT 0) (.warm b) = (t, some .ok)) :
    runLine s n (.warm b) = orderWarm (t.emit (.jacks .ok)) b := by
  unfold runLine
  rw [if_neg (Nat.not_lt.2 hn)]
  simp only [hr]

/-- R593: the boot ROM's monitor refuses what it does not know. -/
theorem runJk_rom (h : s.rb Reg.JK_STAT_ROM 0 = true) (ha : romAccepts k = false) : runJk s k = (s, some (.other 3)) :=
  if_pos (by simp [h, ha])

end Line

section Commands
variable (h : s.rb Reg.JK_STAT_ROM 0 = false)
include h

theorem runJk_help : runJk s .help = (console s (List.range 15), some .ok) := by
  refine (if_neg (by simp [h])).trans ?_
  rw [helpList, if_neg (by simp [h])]

theorem runJk_id : runJk s .id = (console s (reportWords s 0), some .ok) := (if_neg (by simp [h])).trans rfl

theorem runJk_faults : runJk s .faults = (console s (reportWords s 1), some .ok) := (if_neg (by simp [h])).trans rfl

theorem runJk_gather : runJk s (.gather none) = (console s (reportWords s 2), some .ok) := (if_neg (by simp [h])).trans rfl

theorem runJk_gatherOf (d : DieId) : runJk s (.gather (some d)) = (console s (gatherWords s d.val), some .ok) :=
  (if_neg (by simp [h])).trans rfl

theorem runJk_power : runJk s .power = (console s (reportWords s 3), some .ok) := (if_neg (by simp [h])).trans rfl

theorem runJk_baud_known : runJk s (.baud 460800) = (s.wr Reg.JK_CFG_BAUD 0 2, some .ok) := (if_neg (by simp [h])).trans rfl

theorem runJk_baud_unknown : runJk s (.baud 9600) = (s, some (.other 1)) := (if_neg (by simp [h])).trans rfl

theorem runJk_island_down {d : DieId} (hd : jkDieDown s d.val = true) (i : Option (Fin 16)) :
    runJk s (.island d i) = (s, some .dieDown) :=
  (if_neg (by simp [h])).trans (if_pos hd)

theorem runJk_island {d : DieId} (hd : jkDieDown s d.val = false) (i : Fin 16) :
    runJk s (.island d (some i)) = (console s (islandWords s d.val [i.val]), some .ok) :=
  (if_neg (by simp [h])).trans (if_neg (by simp [hd]))

theorem runJk_clk (hs : s.rd Reg.BT_STAT_STAGE 0 = 0) : ∃ l, runJk s .clk = (console s l, some .ok) :=
  ⟨_, (if_neg (by simp [h])).trans (if_neg (by simp [hs]))⟩

theorem runJk_log (a : Nat) {k : Nat} (hk : k ≤ 4096) : runJk s (.log (some a) k) =
    (s.emit (.records ((s.faults.log.filter fun r => decide (a ≤ r.id)).take k)), some .ok) := by
  refine (if_neg (by simp [h])).trans ?_
  rw [runLog, if_neg (Nat.not_lt.2 hk)]

theorem runJk_eye_down {d : DieId} (hd : jkDieDown s d.val = true) (p : Fin 9) (k : Nat) (l : List Nat) (b : Bool) :
    runJk s (.eye (.die d p) k l b) = (s, some .dieDown) := by
  refine (if_neg (by simp [h])).trans ?_
  rw [runEye, if_pos hd]

theorem runJk_eye_span (m : Fin 8) (k : Nat) (l : List Nat) : runJk s (.eye (.span m) k l false) = (console s l, some .ok) :=
  (if_neg (by simp [h])).trans rfl

/-- R592: the counts of a sweep with their Q values, or the retraining that it took. -/
theorem runJk_eye_die {d : DieId} (hd : jkDieDown s d.val = false) (p : Fin 9) (k : Nat) (l : List Nat) :
    runJk s (.eye (.die d p) k l false) = (console s (l ++ [(Config.eyeQ l).1, (Config.eyeQ l).2]), some .ok) ∧
      runJk s (.eye (.die d p) k l true) = (s, some .retrain) := by
  refine ⟨(if_neg (by simp [h])).trans ?_, (if_neg (by simp [h])).trans ?_⟩
  · rw [runEye, if_neg (by simp [hd])]
    rfl
  · rw [runEye, if_neg (by simp [hd])]
    rfl

theorem runJk_parison : ∃ l, runJk s .parison = (console s l, some .ok) := ⟨_, (if_neg (by simp [h])).trans rfl⟩

theorem runJk_recover_refused (w : FwBlob) (hf : s.rd Reg.BT_STAT_FAILSTEP 0 ≠ 2) : runJk s (.recover w) = (s, some (.other 1)) := by
  refine (if_neg (by simp [h])).trans ?_
  rw [runRecover, if_pos hf]

/-- R593: recover writes the slot with the lower version. -/
theorem runJk_recover (w : FwBlob) (hf : s.rd Reg.BT_STAT_FAILSTEP 0 = 2) : ∃ st, runJk s (.recover w) =
    (writeFw s (if (imgAt s 0).version < (imgAt s 1).version then 0 else 1) w, some st) := by
  refine ⟨if fwVerified s w then .ok else .other 2, (if_neg (by simp [h])).trans ?_⟩
  rw [runRecover, if_neg (not_not.2 hf)]

section Locked
variable (hd : debugOpen s = false)
include hd

theorem runJk_peek_locked {m : Mga} (hm : m.toNat % 4 = 0) (hl : readLocked m.toNat = true) :
    runJk s (.peek m 1) = (s, some .locked) := by
  refine (if_neg (by simp [h])).trans ?_
  have hAny : ((List.range 1).map fun k => m.toNat + 4 * k).any readLocked = true := by simp [hl]
  rw [runPeek, if_neg (by omega), if_pos (by rw [hd, hAny]; rfl)]

theorem runJk_scan_locked (d : DieId) (row : Fin 8) (col : Fin 10) : runJk s (.scan d row col) = (s, some .locked) :=
  (if_neg (by simp [h])).trans (if_pos (by simp [hd]))

theorem runJk_dump_locked (k : Nat) : runJk s (.dump k) = (s, some .locked) :=
  (if_neg (by simp [h])).trans (if_pos (by simp [hd]))

theorem runJk_warm_locked (b : Bool) : runJk s (.warm b) = (s, some .locked) :=
  (if_neg (by simp [h])).trans (if_pos (by simp [hd]))

end Locked

section Open
variable (hd : debugOpen s = true)
include hd

theorem runJk_dump (k : Nat) : runJk s (.dump k) = (console s (sectionWords s k), some .ok) :=
  (if_neg (by simp [h])).trans (if_neg (by simp [hd]))

theorem runJk_warm (b : Bool) (hs : s.rd Reg.BT_STAT_STAGE 0 = 0) : runJk s (.warm b) = (s, some .ok) :=
  (if_neg (by simp [h])).trans ((if_neg (by simp [hd])).trans (if_neg (not_not.2 hs)))

/-- R591: a word that is reached is printed, with an error status where it holds an uncorrectable error. -/
theorem runJk_peek {m : Mga} {t : State} {x : Nat} {e : Bool} (hm : m.toNat % 4 = 0) (hp : peekWord s m.toNat = some (x, e, t))
    (hDie : ∀ d, accessDie m.toNat = some d → jkDieDown s d = false) :
    runJk s (.peek m 1) = (console t [x], some (if e then .ecc else .ok)) := by
  have hDown : (((List.range 1).map fun k => m.toNat + 4 * k).any fun a => match accessDie a with
      | some d => jkDieDown s d
      | none => false) = false := by
    simp only [List.range_one, List.map_cons, List.map_nil, Nat.mul_zero, Nat.add_zero, List.any_cons, List.any_nil, Bool.or_false]
    split
    · next d hd => exact hDie d hd
    · rfl
  have hWords : peekWords 1 m.toNat s = some ([x], e, t) := by simp [peekWords, hp]
  refine (if_neg (by simp [h])).trans ?_
  rw [runPeek, if_neg (by omega), if_neg (by simp [hd]), hWords]
  exact congrArg (fun p : State × JkStatus => (p.1, some p.2)) (if_neg fun hAny => Bool.false_ne_true (hDown.symm.trans hAny))

end Open
end Commands

end Sys2Proof.Machine
end

section
/-! O58. Pokes, scans, Ctrl-C and the end of a scan (R541, R578, R589, R590, R591). -/

namespace Sys2Proof.Machine

variable {s : State}

section Poke
variable (h : s.rb Reg.JK_STAT_ROM 0 = false)
include h

theorem runJk_poke {m : Mga} {v : Word} {t : State} {st : JkStatus} (hp : runPoke s m.toNat v.toNat = (t, st)) :
    runJk s (.poke m v) = (t, some st) :=
  (if_neg (by simp [h])).trans (congrArg (fun p : State × JkStatus => (p.1, some p.2)) hp)

end Poke

theorem runPoke_locked (m v : Nat) (hd : debugOpen s = false) : ∃ t, runPoke s m v = (t, .locked) ∧ SameMemory s t := by
  unfold runPoke
  simp only [hd, Bool.false_eq_true, if_false]
  exact ⟨_, rfl, sameMemory_of_mem (noteRec_mem ..)⟩

/-- R591: a write to a stack changes the bytes of the word alone. -/
theorem stackWrite_sameOutside (s : State) (k off : Nat) (bs : List Byte) :
    SameOutside (stackBase k + off) bs.length s (stackWrite s k off bs) :=
  (SameOutside.wrBytes le_rfl le_rfl).trans (.of_mem (foldl_mem _ (fun t (p : Nat × Nat) => setBad_mem t p.1 0) _ _))

/-- R591: a poke of a word of a stack that is served. -/
theorem runPoke_stack {m : Nat} (v : Nat) (hd : debugOpen s = true) (hm : m % 4 = 0) (hl : lockedAt s m 4 = false) (hc : mgaCsr m = none)
    (h3 : mgaClass m = 3) (hs : served s m 4 = true) : ∃ t, runPoke s m v = (t, .ok) ∧
      SameOutside (stackBase (mgaStack m) + mgaOff36 m) 4 s t := by
  have hWord : pokeWord s m v = (stackWrite s (mgaStack m) (mgaOff36 m) (leBytes 4 v), .ok) := by
    unfold pokeWord
    rw [if_neg (by omega), if_neg (by omega), if_neg (by simp [hl])]
    simp only [hc, hs, h3]
    rfl
  unfold runPoke
  simp only [hd, if_true, hWord]
  exact ⟨_, rfl, (stackWrite_sameOutside s (mgaStack m) (mgaOff36 m) (leBytes 4 v)).trans (.of_mem (noteRec_mem ..))⟩

section Scan
variable {d : DieId} {row : Fin 8} {col : Fin 10}

/-- The command `scan` names its position before it starts the scan. -/
def scanNamed (s : State) (d : DieId) (row : Fin 8) (col : Fin 10) : State :=
  (s.wr Reg.FT_SCAN_COL d.val col.val).wr Reg.FT_SCAN_ROW d.val row.val

theorem pstatF_id_ne (c : Nat) : Reg.FT_SCAN_COL.id ≠ (pstatF c).id ∧ Reg.FT_SCAN_ROW.id ≠ (pstatF c).id ∧
    Reg.JK_CMDS_COUNT.id ≠ (pstatF c).id := by
  unfold pstatF
  split <;> decide

/-- R541: the scan of a quarantined position begins. -/
theorem scanNamed_starts (hb : s.rb Reg.FT_SCAN_BUSY d.val = false) (hq : posState s d.val row.val col.val = psQuarantine) :
    (startScan (scanNamed s d row col) d).rb Reg.FT_SCAN_BUSY d.val = true := by
  have hRow : (scanNamed s d row col).rd Reg.FT_SCAN_ROW d.val = row.val :=
    (State.rd_wr_same ..).trans (Nat.mod_eq_of_lt row.isLt)
  have hCol : (scanNamed s d row col).rd Reg.FT_SCAN_COL d.val = col.val :=
    (State.rd_wr_ne _ (by decide) ..).trans ((State.rd_wr_same ..).trans (Nat.mod_eq_of_lt (lt_trans col.isLt (by decide))))
  have hBusy : (scanNamed s d row col).rb Reg.FT_SCAN_BUSY d.val = false :=
    (State.rb_wr_ne _ (by decide) ..).trans ((State.rb_wr_ne _ (by decide) ..).trans hb)
  obtain ⟨hc, hr, -⟩ := pstatF_id_ne col.val
  have hPos : posState (scanNamed s d row col) d.val row.val col.val = psQuarantine :=
    (State.rd_wr_ne _ hr ..).trans ((State.rd_wr_ne _ hc ..).trans hq)
  exact (startScan_effect hBusy (by rw [hCol]; exact col.isLt) (by rw [hRow, hCol]; exact hPos)).1

/-- The display of a scan (R590). -/
def scanShown (s : State) (d : DieId) : State := { s with manage := { s.manage with scan := some d } }

/-- R590: the display of a scan goes on after the scan has begun. -/
theorem runJk_scan (h : s.rb Reg.JK_STAT_ROM 0 = false) (hd : debugOpen s = true) (hDown : jkDieDown s d.val = false)
    (hb : s.rb Reg.FT_SCAN_BUSY d.val = false) (hq : posState s d.val row.val col.val = psQuarantine) :
    runJk s (.scan d row col) = (scanShown (startScan (scanNamed s d row col) d) d, none) := by
  have hStart : after (execScanStart .firmware d (scanNamed s d row col)) (scanNamed s d row col) = startScan (scanNamed s d row col) d :=
    congrArg (after · (scanNamed s d row col)) (exec_scanStart (s := scanNamed s d row col) (r := .firmware) rfl)
  have hBusy : (!s.rb Reg.FT_SCAN_BUSY d.val && (after (execScanStart .firmware d (scanNamed s d row col)) (scanNamed s d row col)).rb
      Reg.FT_SCAN_BUSY d.val) = true := by
    rw [hStart, hb, scanNamed_starts hb hq]
    rfl
  refine (if_neg (by simp [h])).trans ((if_neg (by simp [hd])).trans ((if_neg (by simp [hDown])).trans ?_))
  exact (if_pos hBusy).trans (congrArg (fun t => (scanShown t d, none)) hStart)

end Scan

theorem exec_jkCtrlC_idle (h : s.rb Reg.JK_STAT_BUSY 0 = false) : exec .jkCtrlC s = .next s :=
  congrArg Host.Outcome.next (if_neg (by simp [h]))

/-- R589: Ctrl-C ends the command that runs, with ok. -/
theorem exec_jkCtrlC_ends (h : s.rb Reg.JK_STAT_BUSY 0 = true) (hh : s.manage.held = []) : ∃ t, exec .jkCtrlC s = .next t ∧
    t.rb Reg.JK_STAT_BUSY 0 = false ∧ t.manage.scan = none ∧ t.out = s.out ++ [.jacks .ok] := by
  refine ⟨_, congrArg Host.Outcome.next (if_pos h), ?_⟩
  have hBusy : (s.wb Reg.JK_STAT_BUSY 0 false).rb Reg.JK_STAT_BUSY 0 = false := State.rb_wb_same _ _ _ _ _ _ (by decide)
  rw [endBusy, hh]
  exact ⟨hBusy, rfl, rfl⟩

section ScanEnd
variable {d : DieId}

/-- A record of a die goes to the hub, and leaves the registers. -/
theorem noteRec_die_regs (s : State) {e : FaultEvent} (h : e.unit < 4) (sev action left : Nat) :
    (noteRec s e sev action left).regs = s.regs := by
  have hUnit : unitCollector e.unit < 4 := by
    rw [unitCollector, if_pos (by omega)]
    exact h
  rw [noteRec, reportRec, if_pos hUnit]
  exact State.send_regs ..

theorem addRepair_regs (s : State) (r : Repair) : (addRepair s r).regs = s.regs := by
  unfold addRepair
  split <;> rfl

theorem pstatF_notMem_scanReport (c : Nat) : Reg.FT_SCAN_BUSY.id ∉ [(pstatF c).id] ∧ Reg.FT_SCAN_RESULT.id ∉ [(pstatF c).id] := by
  unfold pstatF
  split <;> decide

/-- The end of a scan: its report and the position's new state, then the row's counters and a record of the die (R541). -/
theorem scanEnds_eq {pass : Bool} {x r c : Nat} (hs : scanned s d = some (r, c)) : ∃ t e k, scanEnds s d pass x =
    noteRec (updRow t d.val r) e 3 0 k ∧ e.unit < 4 ∧ t.rb Reg.FT_SCAN_BUSY d.val = false ∧
      t.rd Reg.FT_SCAN_RESULT d.val = (if pass then 1 else 2) ∧ posState t d.val r c = (if pass then psSpare else psField) := by
  unfold scanEnds
  rw [hs]
  dsimp -zeta only
  extract_lets n s0 f s1 s2 s3 s4
  have hBusy : s3.rb Reg.FT_SCAN_BUSY d.val = false :=
    (State.rb_wr_ne _ (by decide) ..).trans ((State.rb_wr_ne _ (by decide) ..).trans (State.rb_wb_same _ _ _ _ _ _ (by decide)))
  have hResult : s3.rd Reg.FT_SCAN_RESULT d.val = (if pass then 1 else 2) := by
    refine (State.rd_wr_ne _ (by decide) ..).trans ((State.rd_wr_same ..).trans ?_)
    cases pass <;> rfl
  have hPos : ∀ (t : State) (v : Nat), v < 8 → t.regs = s3.regs →
      SameRegsBut [(pstatF c).id] s3 (setPos t d.val r c v) ∧ posState (setPos t d.val r c v) d.val r c = v := fun t v hv ht =>
    ⟨(SameRegsBut.of_regs ht).trans (.wr List.mem_cons_self), (posState_setPos_same ..).trans (Nat.mod_eq_of_lt hv)⟩
  have hEnd : SameRegsBut [(pstatF c).id] s3 s4 ∧ posState s4 d.val r c = (if pass then psSpare else psField) := by
    simp only [s4]
    cases pass
    · exact hPos _ psField (by decide) (addRepair_regs ..)
    · exact hPos _ psSpare (by decide) rfl
  obtain ⟨hSame, hState⟩ := hEnd
  obtain ⟨hIdBusy, hIdResult⟩ := pstatF_notMem_scanReport c
  exact ⟨s4, _, _, rfl, d.isLt, (hSame.rb hIdBusy ..).trans hBusy, (hSame _ hIdResult ..).trans hResult, hState⟩

/-- R541: a scan that ends reports its result, and its position is a spare, or fenced for good. -/
theorem scanEnds_effect {pass : Bool} {x r c : Nat} (hs : scanned s d = some (r, c)) :
    (scanEnds s d pass x).rb Reg.FT_SCAN_BUSY d.val = false ∧
      (scanEnds s d pass x).rd Reg.FT_SCAN_RESULT d.val = (if pass then 1 else 2) ∧
      posState (scanEnds s d pass x) d.val r c = (if pass then psSpare else psField) := by
  obtain ⟨t, e, k, hEq, hUnit, hBusy, hResult, hState⟩ := scanEnds_eq (pass := pass) (x := x) hs
  rw [hEq]
  have hRegs := noteRec_die_regs (updRow t d.val r) hUnit 3 0 k
  have hRow : SameRegsBut rowCounters t (noteRec (updRow t d.val r) e 3 0 k) := fun F hF u i j =>
    (State.rd_congr hRegs ..).trans (updRow_rd t hF ..)
  exact ⟨(hRow.rb (by decide) ..).trans hBusy, (hRow _ (by decide) ..).trans hResult,
    (State.rd_congr hRegs ..).trans ((updRow_posState ..).trans hState)⟩

/-- R541: a scan that is not on display ends without a line. -/
theorem exec_scanComplete_undisplayed {pass : Bool} {x : BitVec 16} (h : s.manage.scan ≠ some d) :
    exec (.scanComplete d pass x) s = .next (scanEnds s d pass x.toNat) :=
  congrArg Host.Outcome.next (if_neg fun hc => h hc.2)

theorem scanEnds_none {pass : Bool} {x : Nat} (hs : scanned s d = none) : scanEnds s d pass x = s := by
  unfold scanEnds
  rw [hs]

end ScanEnd

section Served
variable {n : Nat} (hn : n ≤ 255) (hUp : JacksUp s) (hb : s.rb Reg.JK_STAT_BUSY 0 = false)
include hn hUp hb

/-- A line that is read runs its command once the command is counted (R588). -/
theorem jkLine_ends {k : JkCmd} {t : State} {st : JkStatus} (hr : runJk (s.bump Reg.JK_CMDS_COUNT 0) k = (t, some st))
    (hw : ∀ b, k = .warm b → st ≠ .ok) : jkLine s n k = t.emit (.jacks st) :=
  (jkLine_runs hUp hb).trans (runLine_ends hn hr hw)

theorem jkLine_warm {b : Bool} {t : State} (hr : runJk (s.bump Reg.JK_CMDS_COUNT 0) (.warm b) = (t, some .ok)) :
    jkLine s n (.warm b) = orderWarm (t.emit (.jacks .ok)) b :=
  (jkLine_runs hUp hb).trans (runLine_warm hn hr)

theorem jkLine_goesOn {k : JkCmd} {t : State} (hr : runJk (s.bump Reg.JK_CMDS_COUNT 0) k = (t, none)) :
    jkLine s n k = t.wb Reg.JK_STAT_BUSY 0 true :=
  (jkLine_runs hUp hb).trans (runLine_goesOn hn hr)

end Served

/-- The counting of a command leaves every other register. -/
theorem counted_sameRegs (s : State) : SameRegsBut [Reg.JK_CMDS_COUNT.id] s (s.bump Reg.JK_CMDS_COUNT 0) :=
  .bump List.mem_cons_self

theorem posState_counted (d r c : Nat) : posState (s.bump Reg.JK_CMDS_COUNT 0) d r c = posState s d r c :=
  State.rd_wr_ne _ (pstatF_id_ne c).2.2 ..

/-- R589, R593: what becomes of a line, whatever its command. -/
theorem exec_line {i : Instr} {n : Nat} {k : JkCmd} (hx : exec i s = .next (jkLine s n k)) :
    (s.chip.valid = false ∨ s.chip.btest = true ∨ s.rd Reg.BT_STAT_STAGE 0 = 1 → exec i s = .next s) ∧
    (s.chip.valid = true → s.chip.btest = false → s.rd Reg.BT_STAT_STAGE 0 ≠ 1 →
      (s.rb Reg.JK_STAT_BUSY 0 = true →
        (heldChars s + n + 1 ≤ 256 → ∃ t, exec i s = .next t ∧ t.manage.held = s.manage.held ++ [(n, k)] ∧ t.out = s.out ∧ SameRegs s t) ∧
        (256 < heldChars s + n + 1 → exec i s = .next (s.bump Reg.JK_STAT_OVERRUN 0 (heldChars s + n + 1 - 256)))) ∧
      (s.rb Reg.JK_STAT_BUSY 0 = false →
        (255 < n → exec i s = .next (s.emit (.jacks .line))) ∧
        (n ≤ 255 → s.rb Reg.JK_STAT_ROM 0 = true → romAccepts k = false →
          exec i s = .next ((s.bump Reg.JK_CMDS_COUNT 0).emit (.jacks (.other 3)))))) := by
  rw [hx]
  refine ⟨fun h => congrArg _ (jkLine_down h), fun hv hbt hst => ⟨fun hb => ⟨fun hc => ?_, fun hc => ?_⟩, fun hb => ⟨fun hl => ?_,
    fun hl hrom ha => ?_⟩⟩⟩
  · exact ⟨_, congrArg Host.Outcome.next (jkLine_held ⟨hv, hbt, hst⟩ hb hc), rfl, rfl, sameRegs_of_regs rfl⟩
  · exact congrArg _ (jkLine_dropped ⟨hv, hbt, hst⟩ hb hc)
  · exact congrArg _ ((jkLine_runs ⟨hv, hbt, hst⟩ hb).trans (runLine_long hl))
  · have hRom : (s.bump Reg.JK_CMDS_COUNT 0).rb Reg.JK_STAT_ROM 0 = true := ((counted_sameRegs s).rb (by decide) ..).trans hrom
    exact congrArg _ (jkLine_ends hl ⟨hv, hbt, hst⟩ hb (runJk_rom hRom ha) fun _ _ => nofun)

section Level
variable {n : Nat} (hn : n ≤ 255) (hUp : JacksUp s) (hb : s.rb Reg.JK_STAT_BUSY 0 = false)
  (hRom : (s.bump Reg.JK_CMDS_COUNT 0).rb Reg.JK_STAT_ROM 0 = false)
include hn hUp hb

/-- An instruction whose line ends prints the status of its command. -/
theorem exec_ends {i : Instr} {k : JkCmd} {t : State} {st : JkStatus} (hx : exec i s = .next (jkLine s n k))
    (hr : runJk (s.bump Reg.JK_CMDS_COUNT 0) k = (t, some st)) (hw : ∀ b, k = .warm b → st ≠ .ok) :
    exec i s = .next (t.emit (.jacks st)) :=
  hx.trans (congrArg _ (jkLine_ends hn hUp hb hr hw))

include hRom

/-- R578, R591: at LOCKED a poke is refused and recorded. -/
theorem exec_jkPoke_locked (hd : debugOpen (s.bump Reg.JK_CMDS_COUNT 0) = false) (m : Mga) (v : Word) : ∃ t o,
    exec (.jkPoke n m v) s = .next t ∧ SameMemory s t ∧ t.out = o ++ [.jacks .locked] := by
  obtain ⟨t, hp, hMem⟩ := runPoke_locked m.toNat v.toNat hd
  exact ⟨_, _, exec_ends hn hUp hb rfl (runJk_poke hRom hp) nofun, hMem, rfl⟩

theorem exec_jkPoke_stack (hd : debugOpen (s.bump Reg.JK_CMDS_COUNT 0) = true) {m : Mga} (v : Word) (hm : m.toNat % 4 = 0)
    (hl : lockedAt s m.toNat 4 = false) (hc : mgaCsr m.toNat = none) (h3 : mgaClass m.toNat = 3)
    (hs : served (s.bump Reg.JK_CMDS_COUNT 0) m.toNat 4 = true) : ∃ t o, exec (.jkPoke n m v) s = .next t ∧
      t.out = o ++ [.jacks .ok] ∧ SameOutside (stackBase (mgaStack m.toNat) + mgaOff36 m.toNat) 4 s t := by
  obtain ⟨t, hp, hOutside⟩ := runPoke_stack v.toNat hd hm hl hc h3 hs
  exact ⟨_, _, exec_ends hn hUp hb rfl (runJk_poke hRom hp) nofun, rfl, hOutside⟩

/-- R541, R590: a scan that begins stays on display. -/
theorem exec_jkScan_begins (hd : debugOpen (s.bump Reg.JK_CMDS_COUNT 0) = true) {d : DieId} {row : Fin 8} {col : Fin 10}
    (hDown : jkDieDown (s.bump Reg.JK_CMDS_COUNT 0) d.val = false) (hBusy : s.rb Reg.FT_SCAN_BUSY d.val = false)
    (hq : posState s d.val row.val col.val = psQuarantine) : ∃ t, exec (.jkScan n d row col) s = .next t ∧
      t.rb Reg.FT_SCAN_BUSY d.val = true ∧ t.rb Reg.JK_STAT_BUSY 0 = true ∧ t.manage.scan = some d := by
  have hIdle := ((counted_sameRegs s).rb (F := Reg.FT_SCAN_BUSY) (by decide) d.val 0 0).trans hBusy
  have hQuar := (posState_counted (s := s) ..).trans hq
  refine ⟨_, congrArg Host.Outcome.next (jkLine_goesOn hn hUp hb (runJk_scan hRom hd hDown hIdle hQuar)), ?_,
    State.rb_wb_same _ _ _ _ _ _ (by decide), rfl⟩
  exact (State.rb_wr_ne _ (by decide) ..).trans (scanNamed_starts hIdle hQuar)

end Level

/-- Settles O58: each line by what the port is doing, each command by how it ends, the scan by its position. -/
theorem jacksCommands : Obligations.JacksCommands := by
  unfold Obligations.JacksCommands
  intro s
  refine ⟨fun n r a k g d i f m v p l b row col w x hx => ?_, ?_, exec_jkCtrlC_idle,
    exec_jkCtrlC_ends, fun d pass x hd => ⟨fun hs => ?_, fun r c hs => ?_⟩⟩
  · refine exec_line ?_
    revert x
    simp only [List.forall_mem_cons, List.not_mem_nil, false_implies, implies_true, and_true]
    exact ⟨rfl, rfl, rfl, rfl, rfl, rfl, rfl, rfl, rfl, rfl, rfl, rfl, rfl, rfl, rfl, rfl, rfl⟩
  · intro hv hbt hst hb hrom n hn u shown
    have hUp : JacksUp s := ⟨hv, hbt, hst⟩
    have hu : u.rb Reg.JK_STAT_ROM 0 = false := ((counted_sameRegs s).rb (by decide) ..).trans hrom
    have hStage : u.rd Reg.BT_STAT_STAGE 0 = s.rd Reg.BT_STAT_STAGE 0 := counted_sameRegs s _ (by decide) ..
    have hFail : u.rd Reg.BT_STAT_FAILSTEP 0 = s.rd Reg.BT_STAT_FAILSTEP 0 := counted_sameRegs s _ (by decide) ..
    have hDebug : debugOpen u = debugOpen s := (counted_sameRegs s).rb (by decide) ..
    refine ⟨exec_ends hn hUp hb rfl (runJk_help hu) nofun, exec_ends hn hUp hb rfl (runJk_id hu) nofun,
      exec_ends hn hUp hb rfl (runJk_faults hu) nofun, exec_ends hn hUp hb rfl (runJk_gather hu) nofun,
      fun d => exec_ends hn hUp hb rfl (runJk_gatherOf hu d) nofun, exec_ends hn hUp hb rfl (runJk_power hu) nofun,
      exec_ends hn hUp hb rfl (runJk_baud_known hu) nofun, exec_ends hn hUp hb rfl (runJk_baud_unknown hu) nofun,
      fun d i hd => exec_ends hn hUp hb rfl (runJk_island hu hd i) nofun, fun d i hd => ⟨exec_ends hn hUp hb rfl (runJk_island_down hu hd i) nofun,
      fun p k l b => exec_ends hn hUp hb rfl (runJk_eye_down hu hd p k l b) nofun⟩, fun hs => ?_,
      fun a k hk => exec_ends hn hUp hb rfl (runJk_log hu a hk) nofun, fun m k l => exec_ends hn hUp hb rfl (runJk_eye_span hu m k l) nofun,
      fun d p k l hd => ⟨exec_ends hn hUp hb rfl (runJk_eye_die hu hd p k l).1 nofun, exec_ends hn hUp hb rfl (runJk_eye_die hu hd p k l).2 nofun⟩,
      ?_, fun w hf => exec_ends hn hUp hb rfl (runJk_recover_refused hu w (hFail ▸ hf)) nofun, fun w hf => ?_, fun hd => ?_, fun hd => ?_⟩
    · obtain ⟨l, hl⟩ := runJk_clk hu (hStage.trans hs)
      exact ⟨l, exec_ends hn hUp hb rfl hl nofun⟩
    · obtain ⟨l, hl⟩ := runJk_parison hu
      exact ⟨l, exec_ends hn hUp hb rfl hl nofun⟩
    · obtain ⟨st, hr⟩ := runJk_recover hu w (hFail.trans hf)
      exact ⟨_, exec_ends hn hUp hb rfl hr nofun, congrArg FwImage.digest (smGet_smSet_same _ _ _ _)⟩
    · have hd : debugOpen u = false := hDebug.trans hd
      exact ⟨fun m hm hl => exec_ends hn hUp hb rfl (runJk_peek_locked hu hd hm hl) nofun, exec_jkPoke_locked hn hUp hb hu hd,
        fun d row col => exec_ends hn hUp hb rfl (runJk_scan_locked hu hd d row col) nofun,
        fun k => exec_ends hn hUp hb rfl (runJk_dump_locked hu hd k) nofun,
        fun b => exec_ends hn hUp hb rfl (runJk_warm_locked hu hd b) fun _ _ => nofun⟩
    · have hd : debugOpen u = true := hDebug.trans hd
      exact ⟨fun k => exec_ends hn hUp hb rfl (runJk_dump hu hd k) nofun,
        fun b hs => congrArg Host.Outcome.next (jkLine_warm hn hUp hb (runJk_warm hu hd b (hStage.trans hs))),
        fun m t x e hm hp hDie => exec_ends hn hUp hb rfl (runJk_peek hu hd hm hp hDie) nofun,
        fun m v hm hl hc h3 hs => exec_jkPoke_stack hn hUp hb hu hd v hm hl hc h3 hs,
        fun d row col hDown hBusy hq => exec_jkScan_begins hn hUp hb hu hd hDown hBusy hq⟩
  · exact (exec_scanComplete_undisplayed hd).trans (congrArg _ (scanEnds_none hs))
  · obtain ⟨hBusy, hResult, hState⟩ := scanEnds_effect (pass := pass) (x := x.toNat) hs
    exact ⟨_, exec_scanComplete_undisplayed hd, hBusy, hResult, hState, sameMemory_of_mem (scanEnds_mem ..)⟩

end Sys2Proof.Machine
end
